-- ==== Sys2Proof/Word.lean ====
section
/-! DEFINITION. The words of the Orold X1, the sparse map that plain data is kept in, and the small records that
instructions and steps of units carry. -/

namespace Sys2Proof

/-- A byte of memory or of a register file. -/
abbrev Byte := BitVec 8

/-- A 64-bit word: a g register, a control register, a virtual address (R14, R235). -/
abbrev Word := BitVec 64

/-- Sparse data by number: a list in rising order of keys. -/
abbrev SMap (α : Type) := List (Nat × α)

/-- The four g fields of word 0 of a command (R240, R344). -/
structure CmdRegs where
  ga : BitVec 5
  gb : BitVec 5
  gc : BitVec 5
  gd : BitVec 5
deriving DecidableEq, Repr

/-- The completion fields of words 2 and 3 of a command (R346). -/
structure Comp where
  ctr : BitVec 9
  ctile : BitVec 9
  oe : Bool
  sz : Bool
  add : BitVec 12
  sval : BitVec 32
deriving DecidableEq, Repr

/-- The follow-on MMA of a COPY with FM = 1 (R348, R349). -/
structure Follow where
  macc : BitVec 2
  ma : BitVec 3
  mb : BitVec 3
  mstr : BitVec 2
  msp : Bool
  mneg : Bool
  mz : Bool
  mty : BitVec 2
deriving DecidableEq, Repr

/-- The counter tag of a pod operation with CT = 1 (R355). -/
structure PodTag where
  tk : BitVec 9
  tt : BitVec 9
deriving DecidableEq, Repr

/-- What an access does to the byte it names (R27, R28): the permission it needs. -/
inductive AccKind where
  | read
  | write
  | amo
  | fetch
deriving DecidableEq, Repr

/-- One granule of 128 bytes as it travels: its data, which bytes of it are dirty, and poison (R91, R104, R107). -/
structure GData where
  data : BitVec 1024
  mask : BitVec 128
  psn : Bool
deriving DecidableEq, Repr

/-- The state a DATA message grants (R101). -/
inductive Grant where
  | shared
  | excl
  | modified
deriving DecidableEq, Repr

/-- The snoop type of a CXL.mem read (R122). -/
inductive HostSnp where
  | none
  | data
  | cur
  | inv
deriving DecidableEq, Repr

/-- A pod request as it arrives at its target (R51, R355): the target partition it names (R434), origin package
and partition, the origin's tile and command, the target virtual address, the counter tag, the raises it carries (R375), and of these those made although it is refused (R160, R458). -/
structure PodIn where
  part : Nat
  pkg : Nat
  opart : Nat
  otile : Nat
  ocmd : Nat
  va : BitVec 64
  tag : Option PodTag
  raises : Nat
  oe : Nat
deriving DecidableEq, Repr

/-- A contribution of one tile to an element of a REDUCE entry of a cluster router (R370 to R374): target package (0x1FF: this one), function
code of R355, target address (physical within the package, virtual for pod traffic), value bytes, counter tag, and
the tile's number for the work that waits on it. -/
structure Contrib where
  tile : Nat
  part : Nat
  dpkg : Nat
  func : Nat
  pa : Nat
  bytes : List (BitVec 8)
  tag : Option PodTag
  origin : Nat
deriving DecidableEq, Repr

end Sys2Proof
end

