-- ==== Sys2Proof/Syntax.lean ====
section
/-! DEFINITION. The instructions and unit steps of the Orold X1: one constructor per row of the opcode table.
A constructor of an encoded word takes the fields of the word by the letters of the opcode table (d, a, b, g, h registers;
t, u trap bits; i, o immediates; z size; e sem; c scope or convoy bit; k mask). A constructor of a step of a unit takes what names its subject. -/

namespace Sys2Proof


/-- The rows of the opcode table (R235 to R245, R344; the steps of units as spec/95 lists them). -/
inductive Instr where
  /-- ADD (R258): Integer add of ra and rb into rd, modulo 2^64, or on 32 bits sign-extended when W is set. -/
  | add (d : BitVec 5) (a : BitVec 5) (b : BitVec 5) (t : Bool) (u : Bool) (w : Bool)
  /-- SUB (R258): Integer subtract of rb from ra into rd, or on 32 bits sign-extended when W is set. -/
  | sub (d : BitVec 5) (a : BitVec 5) (b : BitVec 5) (t : Bool) (u : Bool) (w : Bool)
  /-- MUL (R258): Low 64 bits of ra times rb into rd, or the 32-bit form when W is set. -/
  | mul (d : BitVec 5) (a : BitVec 5) (b : BitVec 5) (t : Bool) (u : Bool) (w : Bool)
  /-- MULH (R258): High 64 bits of the signed 128-bit product into rd. -/
  | mulh (d : BitVec 5) (a : BitVec 5) (b : BitVec 5) (t : Bool) (u : Bool)
  /-- MULHU (R258): High 64 bits of the unsigned 128-bit product into rd. -/
  | mulhu (d : BitVec 5) (a : BitVec 5) (b : BitVec 5) (t : Bool) (u : Bool)
  /-- DIV (R258): Signed quotient rounded toward zero, with fixed results for division by zero and overflow. -/
  | div (d : BitVec 5) (a : BitVec 5) (b : BitVec 5) (t : Bool) (u : Bool)
  /-- DIVU (R258): Unsigned quotient, all ones on division by zero. -/
  | divu (d : BitVec 5) (a : BitVec 5) (b : BitVec 5) (t : Bool) (u : Bool)
  /-- REM (R258): Signed remainder with the sign of ra, with fixed results for zero and overflow. -/
  | rem (d : BitVec 5) (a : BitVec 5) (b : BitVec 5) (t : Bool) (u : Bool)
  /-- REMU (R258): Unsigned remainder, ra on division by zero. -/
  | remu (d : BitVec 5) (a : BitVec 5) (b : BitVec 5) (t : Bool) (u : Bool)
  /-- AND (R258): Bitwise AND of ra and rb into rd. -/
  | and (d : BitVec 5) (a : BitVec 5) (b : BitVec 5) (t : Bool) (u : Bool)
  /-- OR (R258): Bitwise OR of ra and rb into rd. -/
  | or (d : BitVec 5) (a : BitVec 5) (b : BitVec 5) (t : Bool) (u : Bool)
  /-- XOR (R258): Bitwise XOR of ra and rb into rd. -/
  | xor (d : BitVec 5) (a : BitVec 5) (b : BitVec 5) (t : Bool) (u : Bool)
  /-- ANDN (R258): ra AND NOT rb into rd. -/
  | andn (d : BitVec 5) (a : BitVec 5) (b : BitVec 5) (t : Bool) (u : Bool)
  /-- ORN (R258): ra OR NOT rb into rd. -/
  | orn (d : BitVec 5) (a : BitVec 5) (b : BitVec 5) (t : Bool) (u : Bool)
  /-- SLL (R258): Logical left shift of ra by the low bits of rb, or the 32-bit form. -/
  | sll (d : BitVec 5) (a : BitVec 5) (b : BitVec 5) (t : Bool) (u : Bool) (w : Bool)
  /-- SRL (R258): Logical right shift of ra by the low bits of rb, or the 32-bit form. -/
  | srl (d : BitVec 5) (a : BitVec 5) (b : BitVec 5) (t : Bool) (u : Bool) (w : Bool)
  /-- SRA (R258): Arithmetic right shift of ra by the low bits of rb, or the 32-bit form. -/
  | sra (d : BitVec 5) (a : BitVec 5) (b : BitVec 5) (t : Bool) (u : Bool) (w : Bool)
  /-- ROL (R258): Rotate ra left by the low bits of rb, or the 32-bit form. -/
  | rol (d : BitVec 5) (a : BitVec 5) (b : BitVec 5) (t : Bool) (u : Bool) (w : Bool)
  /-- ROR (R258): Rotate ra right by the low bits of rb, or the 32-bit form. -/
  | ror (d : BitVec 5) (a : BitVec 5) (b : BitVec 5) (t : Bool) (u : Bool) (w : Bool)
  /-- SLT (R258): 1 into rd if ra is less than rb signed, else 0. -/
  | slt (d : BitVec 5) (a : BitVec 5) (b : BitVec 5) (t : Bool) (u : Bool)
  /-- SLTU (R258): 1 into rd if ra is less than rb unsigned, else 0. -/
  | sltu (d : BitVec 5) (a : BitVec 5) (b : BitVec 5) (t : Bool) (u : Bool)
  /-- MIN (R258): Signed minimum of ra and rb into rd. -/
  | min (d : BitVec 5) (a : BitVec 5) (b : BitVec 5) (t : Bool) (u : Bool)
  /-- MAX (R258): Signed maximum of ra and rb into rd. -/
  | max (d : BitVec 5) (a : BitVec 5) (b : BitVec 5) (t : Bool) (u : Bool)
  /-- MINU (R258): Unsigned minimum of ra and rb into rd. -/
  | minu (d : BitVec 5) (a : BitVec 5) (b : BitVec 5) (t : Bool) (u : Bool)
  /-- MAXU (R258): Unsigned maximum of ra and rb into rd. -/
  | maxu (d : BitVec 5) (a : BitVec 5) (b : BitVec 5) (t : Bool) (u : Bool)
  /-- CLZ (R258): Count of leading zero bits of ra, or of its low 32 bits. -/
  | clz (d : BitVec 5) (a : BitVec 5) (t : Bool) (w : Bool)
  /-- CTZ (R258): Count of trailing zero bits of ra, or of its low 32 bits. -/
  | ctz (d : BitVec 5) (a : BitVec 5) (t : Bool) (w : Bool)
  /-- POPC (R258): Count of one bits of ra, or of its low 32 bits. -/
  | popc (d : BitVec 5) (a : BitVec 5) (t : Bool) (w : Bool)
  /-- BSWAP (R258): Reverses the eight bytes of ra into rd. -/
  | bswap (d : BitVec 5) (a : BitVec 5) (t : Bool)
  /-- SEXT (R258): Sign-extends the byte, half or word of ra selected by the rb sub-code. -/
  | sext (d : BitVec 5) (a : BitVec 5) (s : BitVec 5) (t : Bool)
  /-- ZEXT (R258): Zero-extends the byte, half or word of ra selected by the rb sub-code. -/
  | zext (d : BitVec 5) (a : BitVec 5) (s : BitVec 5) (t : Bool)
  /-- CMOV (R258): Writes rb to rd if ra is non-zero, else keeps rd, reading rd as an implicit source. -/
  | cmov (d : BitVec 5) (a : BitVec 5) (b : BitVec 5) (t : Bool) (u : Bool)
  /-- HMIX (R259): Fixed multiply-xorshift mixing step of ra and rb into rd. -/
  | hmix (d : BitVec 5) (a : BitVec 5) (b : BitVec 5) (t : Bool) (u : Bool)
  /-- CRC32C (R260): Advances a CRC-32C remainder in ra over the eight bytes of rb. -/
  | crc32c (d : BitVec 5) (a : BitVec 5) (b : BitVec 5) (t : Bool) (u : Bool)
  /-- ADDI (R261): ra plus the sign-extended immediate into rd. -/
  | addi (d : BitVec 5) (a : BitVec 5) (t : Bool) (i : BitVec 15)
  /-- ANDI (R261): ra AND the sign-extended immediate into rd. -/
  | andi (d : BitVec 5) (a : BitVec 5) (t : Bool) (i : BitVec 15)
  /-- ORI (R261): ra OR the sign-extended immediate into rd. -/
  | ori (d : BitVec 5) (a : BitVec 5) (t : Bool) (i : BitVec 15)
  /-- XORI (R261): ra XOR the sign-extended immediate into rd. -/
  | xori (d : BitVec 5) (a : BitVec 5) (t : Bool) (i : BitVec 15)
  /-- SLTI (R261): 1 into rd if ra is less than the immediate signed. -/
  | slti (d : BitVec 5) (a : BitVec 5) (t : Bool) (i : BitVec 15)
  /-- SLTIU (R261): 1 into rd if ra is less than the sign-extended immediate unsigned. -/
  | sltiu (d : BitVec 5) (a : BitVec 5) (t : Bool) (i : BitVec 15)
  /-- SLLI (R262): Logical left shift of ra by the amount field. -/
  | slli (d : BitVec 5) (a : BitVec 5) (t : Bool) (n : BitVec 6) (w : Bool)
  /-- SRLI (R262): Logical right shift of ra by the amount field. -/
  | srli (d : BitVec 5) (a : BitVec 5) (t : Bool) (n : BitVec 6) (w : Bool)
  /-- SRAI (R262): Arithmetic right shift of ra by the amount field. -/
  | srai (d : BitVec 5) (a : BitVec 5) (t : Bool) (n : BitVec 6) (w : Bool)
  /-- RORI (R262): Rotate ra right by the amount field. -/
  | rori (d : BitVec 5) (a : BitVec 5) (t : Bool) (n : BitVec 6) (w : Bool)
  /-- MOVHI (R263): Writes the sign-extended imm21 shifted left by 11 to rd. -/
  | movhi (d : BitVec 5) (i : BitVec 21)
  /-- ADDPC (R263): Writes the instruction's address plus imm21 shifted left by 11 to rd. -/
  | addpc (d : BitVec 5) (i : BitVec 21)
  /-- FADD (R264): Floating-point add of FP32 or FP64 operands with one rounding and fcsr flags. -/
  | fadd (d : BitVec 5) (a : BitVec 5) (b : BitVec 5) (t : Bool) (u : Bool) (p : Bool) (m : BitVec 3)
  /-- FSUB (R264): Floating-point subtract with one rounding. -/
  | fsub (d : BitVec 5) (a : BitVec 5) (b : BitVec 5) (t : Bool) (u : Bool) (p : Bool) (m : BitVec 3)
  /-- FMUL (R264): Floating-point multiply with one rounding. -/
  | fmul (d : BitVec 5) (a : BitVec 5) (b : BitVec 5) (t : Bool) (u : Bool) (p : Bool) (m : BitVec 3)
  /-- FDIV (R264): Floating-point divide with one rounding, setting DZ on division by zero. -/
  | fdiv (d : BitVec 5) (a : BitVec 5) (b : BitVec 5) (t : Bool) (u : Bool) (p : Bool) (m : BitVec 3)
  /-- FSQRT (R264): Floating-point square root with one rounding. -/
  | fsqrt (d : BitVec 5) (a : BitVec 5) (t : Bool) (p : Bool) (m : BitVec 3)
  /-- FMA (R264): ra times rb plus rd with one rounding. -/
  | fma (d : BitVec 5) (a : BitVec 5) (b : BitVec 5) (t : Bool) (u : Bool) (p : Bool) (m : BitVec 3)
  /-- FNMA (R264): rd minus ra times rb with one rounding. -/
  | fnma (d : BitVec 5) (a : BitVec 5) (b : BitVec 5) (t : Bool) (u : Bool) (p : Bool) (m : BitVec 3)
  /-- FMIN (R264): Lesser of ra and rb under the NaN and signed-zero rules of R216. -/
  | fmin (d : BitVec 5) (a : BitVec 5) (b : BitVec 5) (t : Bool) (u : Bool) (p : Bool)
  /-- FMAX (R264): Greater of ra and rb under the NaN and signed-zero rules of R216. -/
  | fmax (d : BitVec 5) (a : BitVec 5) (b : BitVec 5) (t : Bool) (u : Bool) (p : Bool)
  /-- FEQ (R264): 1 into rd if ra equals rb as floating-point values. -/
  | feq (d : BitVec 5) (a : BitVec 5) (b : BitVec 5) (t : Bool) (u : Bool) (p : Bool)
  /-- FLT (R264): 1 into rd if ra is less than rb, NV on any NaN. -/
  | flt (d : BitVec 5) (a : BitVec 5) (b : BitVec 5) (t : Bool) (u : Bool) (p : Bool)
  /-- FLE (R264): 1 into rd if ra is at most rb, NV on any NaN. -/
  | fle (d : BitVec 5) (a : BitVec 5) (b : BitVec 5) (t : Bool) (u : Bool) (p : Bool)
  /-- FCVT (R265): Converts between floating point and integers or between FP widths as the rb sub-code selects. -/
  | fcvt (d : BitVec 5) (a : BitVec 5) (s : BitVec 5) (t : Bool) (p : Bool) (m : BitVec 3)
  /-- FCLASS (R266): Writes a one-hot class mask of the raw bits of ra. -/
  | fclass (d : BitVec 5) (a : BitVec 5) (t : Bool) (p : Bool)
  /-- BEQ (R267): Branches to pc plus 4 times off13 if ra equals rb. -/
  | beq (a : BitVec 5) (b : BitVec 5) (o : BitVec 13)
  /-- BNE (R267): Branches if ra differs from rb. -/
  | bne (a : BitVec 5) (b : BitVec 5) (o : BitVec 13)
  /-- BLT (R267): Branches if ra is less than rb signed. -/
  | blt (a : BitVec 5) (b : BitVec 5) (o : BitVec 13)
  /-- BGE (R267): Branches if ra is at least rb signed. -/
  | bge (a : BitVec 5) (b : BitVec 5) (o : BitVec 13)
  /-- BLTU (R267): Branches if ra is less than rb unsigned. -/
  | bltu (a : BitVec 5) (b : BitVec 5) (o : BitVec 13)
  /-- BGEU (R267): Branches if ra is at least rb unsigned. -/
  | bgeu (a : BitVec 5) (b : BitVec 5) (o : BitVec 13)
  /-- JAL (R267): Writes pc plus 4 to rd and jumps to pc plus 4 times off21. -/
  | jal (d : BitVec 5) (o : BitVec 21)
  /-- JALR (R267): Writes pc plus 4 to rd and jumps to ra plus the immediate, with target checks of R268. -/
  | jalr (d : BitVec 5) (a : BitVec 5) (t : Bool) (i : BitVec 15)
  /-- LD (R273): Loads 1, 2, 4 or 8 bytes from ra plus offset into rd, sign- or zero-extended, marking rd empty on an L1 miss. -/
  | ld (d : BitVec 5) (a : BitVec 5) (z : BitVec 2) (u : Bool) (t : Bool) (o : BitVec 12)
  /-- ST (R273): Stores the low bytes of rs to ra plus offset through the store buffer. -/
  | st (s : BitVec 5) (a : BitVec 5) (z : BitVec 2) (t : Bool) (o : BitVec 12)
  /-- LDO (R275): Ordered load performed exactly once with its acquire or relaxed-volatile semantics at its scope. -/
  | ldo (d : BitVec 5) (a : BitVec 5) (z : BitVec 2) (u : Bool) (e : BitVec 2) (c : BitVec 3) (t : Bool)
  /-- STO (R275): Ordered store performed exactly once with its release or relaxed-volatile semantics at its scope. -/
  | sto (s : BitVec 5) (a : BitVec 5) (z : BitVec 2) (e : BitVec 2) (c : BitVec 3) (t : Bool)
  /-- AMO_SWAP (R276): Atomically swaps rb into memory and returns the old value in rd. -/
  | amoSwap (d : BitVec 5) (a : BitVec 5) (b : BitVec 5) (z : Bool) (e : BitVec 2) (c : BitVec 3) (t : Bool)
  /-- AMO_CAS (R276): Atomically writes rb if memory equals rd, returning the old value in rd. -/
  | amoCas (d : BitVec 5) (a : BitVec 5) (b : BitVec 5) (z : Bool) (e : BitVec 2) (c : BitVec 3) (t : Bool)
  /-- AMO_ADD (R276): Atomic integer add returning the old value. -/
  | amoAdd (d : BitVec 5) (a : BitVec 5) (b : BitVec 5) (z : Bool) (e : BitVec 2) (c : BitVec 3) (t : Bool)
  /-- AMO_AND (R276): Atomic AND returning the old value. -/
  | amoAnd (d : BitVec 5) (a : BitVec 5) (b : BitVec 5) (z : Bool) (e : BitVec 2) (c : BitVec 3) (t : Bool)
  /-- AMO_OR (R276): Atomic OR returning the old value. -/
  | amoOr (d : BitVec 5) (a : BitVec 5) (b : BitVec 5) (z : Bool) (e : BitVec 2) (c : BitVec 3) (t : Bool)
  /-- AMO_XOR (R276): Atomic XOR returning the old value. -/
  | amoXor (d : BitVec 5) (a : BitVec 5) (b : BitVec 5) (z : Bool) (e : BitVec 2) (c : BitVec 3) (t : Bool)
  /-- AMO_MIN (R276): Atomic signed minimum returning the old value. -/
  | amoMin (d : BitVec 5) (a : BitVec 5) (b : BitVec 5) (z : Bool) (e : BitVec 2) (c : BitVec 3) (t : Bool)
  /-- AMO_MAX (R276): Atomic signed maximum returning the old value. -/
  | amoMax (d : BitVec 5) (a : BitVec 5) (b : BitVec 5) (z : Bool) (e : BitVec 2) (c : BitVec 3) (t : Bool)
  /-- AMO_MINU (R276): Atomic unsigned minimum returning the old value. -/
  | amoMinu (d : BitVec 5) (a : BitVec 5) (b : BitVec 5) (z : Bool) (e : BitVec 2) (c : BitVec 3) (t : Bool)
  /-- AMO_MAXU (R276): Atomic unsigned maximum returning the old value. -/
  | amoMaxu (d : BitVec 5) (a : BitVec 5) (b : BitVec 5) (z : Bool) (e : BitVec 2) (c : BitVec 3) (t : Bool)
  /-- AMO_FADD (R276): Atomic floating-point add under RNE with no flags, returning the old value. -/
  | amoFadd (d : BitVec 5) (a : BitVec 5) (b : BitVec 5) (z : Bool) (e : BitVec 2) (c : BitVec 3) (t : Bool)
  /-- RED_ADD (R277): No-return atomic add to memory, merged or sent at once. -/
  | redAdd (b : BitVec 5) (a : BitVec 5) (z : Bool) (e : BitVec 2) (c : BitVec 3) (t : Bool)
  /-- RED_AND (R277): No-return atomic AND. -/
  | redAnd (b : BitVec 5) (a : BitVec 5) (z : Bool) (e : BitVec 2) (c : BitVec 3) (t : Bool)
  /-- RED_OR (R277): No-return atomic OR. -/
  | redOr (b : BitVec 5) (a : BitVec 5) (z : Bool) (e : BitVec 2) (c : BitVec 3) (t : Bool)
  /-- RED_XOR (R277): No-return atomic XOR. -/
  | redXor (b : BitVec 5) (a : BitVec 5) (z : Bool) (e : BitVec 2) (c : BitVec 3) (t : Bool)
  /-- RED_MIN (R277): No-return atomic signed minimum. -/
  | redMin (b : BitVec 5) (a : BitVec 5) (z : Bool) (e : BitVec 2) (c : BitVec 3) (t : Bool)
  /-- RED_MAX (R277): No-return atomic signed maximum. -/
  | redMax (b : BitVec 5) (a : BitVec 5) (z : Bool) (e : BitVec 2) (c : BitVec 3) (t : Bool)
  /-- RED_MINU (R277): No-return atomic unsigned minimum. -/
  | redMinu (b : BitVec 5) (a : BitVec 5) (z : Bool) (e : BitVec 2) (c : BitVec 3) (t : Bool)
  /-- RED_MAXU (R277): No-return atomic unsigned maximum. -/
  | redMaxu (b : BitVec 5) (a : BitVec 5) (z : Bool) (e : BitVec 2) (c : BitVec 3) (t : Bool)
  /-- RED_FADD (R277): No-return atomic floating-point add. -/
  | redFadd (b : BitVec 5) (a : BitVec 5) (z : Bool) (e : BitVec 2) (c : BitVec 3) (t : Bool)
  /-- FENCE (R278): Orders the prior set before the later set at its scope and waits, performing a join at domain or pod scope. -/
  | fence (c : BitVec 3) (k : BitVec 4) (e : Bool)
  /-- WATCH (R279): Arms the hart's monitor on the granule of ra. -/
  | watch (a : BitVec 5)
  /-- WAITW (R280): Reads the word until it reaches the threshold in rb, sleeping on the monitor, and returns it as an acquire. -/
  | waitw (d : BitVec 5) (a : BitVec 5) (c : BitVec 3) (b : BitVec 5)
  /-- BAR (R282): Arrives at the barrier word and then waits for its phase to end. -/
  | bar (a : BitVec 5) (b : BitVec 5) (c : BitVec 3)
  /-- ARRIVE (R282): Release RMW counting an arrival on the barrier word and ending the phase at N. -/
  | arrive (a : BitVec 5) (b : BitVec 5) (c : BitVec 3)
  /-- WAITB (R282): Waits until the barrier word's phase differs from the given phase. -/
  | waitb (a : BitVec 5) (b : BitVec 5) (c : BitVec 3)
  /-- MFC (R270): Reads a control register into g after the access checks of R236. -/
  | mfc (g : BitVec 5) (i : BitVec 12)
  /-- MTC (R270): Writes g to a control register field by field; the general row for control registers without behaviour of their own. -/
  | mtc (g : BitVec 5) (t : Bool) (i : BitVec 12)
  /-- MTCI (R270): Writes a 5-bit immediate to a control register. -/
  | mtci (v : BitVec 5) (i : BitVec 12)
  /-- CRSB (R270): Sets the bits of g in a control register in one indivisible step. -/
  | crsb (g : BitVec 5) (t : Bool) (i : BitVec 12)
  /-- CRCB (R270): Clears the bits of g in a control register in one indivisible step. -/
  | crcb (g : BitVec 5) (t : Bool) (i : BitVec 12)
  /-- TSACK_RETRY (R49): Write to tsack with RETRY: the named source translates again from the faulting address. -/
  | tsackRetry (id : Nat) (own : Bool)
  /-- TSACK_FAIL (R49): Write to tsack with FAIL: the named source ends with error as its chapter states. -/
  | tsackFail (id : Nat) (own : Bool)
  /-- TSACK_FRAME (R50): Write to tsack with FRAME: the partition takes FRAME. -/
  | tsackFrame (id : Nat) (own : Bool)
  /-- TSACK_INVALID (R49): Write to tsack naming no unanswered request or with ACTION 3, or H = 1 without a pending fault: logged as a violation. -/
  | tsackInvalid (id : Nat) (action : Nat) (own : Bool)
  /-- NEND_WRITE (R423): Write to nend ends a PENDING, READY or RUNNING node with error and queues a notice record. -/
  | nendWrite (addr : BitVec 64)
  /-- WATERMARK_WRITE (R157): Write to wmN or wmbN re-evaluates the vector load elements waiting on it. -/
  | watermarkWrite (idx : Nat) (val : BitVec 64)
  /-- TRAP (R417): Takes TRAPI with epc at the next word and eaddr holding imm11. -/
  | trap (i : BitVec 11)
  /-- RFE (R414): Returns from a trap to epc with the saved privilege, clearing EXL and resuming a BAR at its wait. -/
  | rfe
  /-- HALT (R418): Ends the partition in order and passes g to management as the exit code. -/
  | halt (g : BitVec 5)
  /-- YIELD (R417): Makes the hart not ready for the given number of clocks. -/
  | yield (g : BitVec 5)
  /-- YIELD_EXPIRE (R417): The yield count runs out and the hart is ready again. -/
  | yieldExpire (hart : Nat)
  /-- BRK (R417): Takes BRK with epc at the BRK itself. -/
  | brk
  /-- SHOOT (R43): Privileged removal of translations of the partition's ASID throughout the domain. -/
  | shoot (g : BitVec 5) (h : BitVec 5)
  /-- SHOOT_BROADCAST (R44): Once prior stores are performed, the shootdown is broadcast to all four stacks. -/
  | shootBroadcast (id : Nat)
  /-- SHOOT_DROP (R44): At each stack the shootdown drops matching TLB, walk-cache and extent entries and restarts matching walks. -/
  | shootDrop (id : Nat) (stack : Nat)
  /-- SHOOT_ACK (R44): A structure acknowledges once every access using a dropped translation is performed. -/
  | shootAck (id : Nat) (stack : Nat)
  /-- SHOOT_COMPLETE (R44): The last acknowledgement arrives and SHOOT completes. -/
  | shootComplete (id : Nat)
  /-- CWB (R284): Writes dirty data of every granule of the range home, keeping clean copies. -/
  | cwb (g : BitVec 5) (h : BitVec 5)
  /-- CINV (R285): User form: drops the tile's instruction-cache copy of a granule after the hart's stores are performed. -/
  | cinv (g : BitVec 5)
  /-- CINV_RANGE (R285): Privileged form: discards every copy of each granule of a range without write-back. -/
  | cinvRange (g : BitVec 5) (h : BitVec 5)
  /-- CFLUSH (R284): Recalls every copy of each granule of the range, writing dirty data home. -/
  | cflush (g : BitVec 5) (h : BitVec 5)
  /-- VCDEF (R286): Privileged install or removal of a composed-cache slot record. -/
  | vcdef (g : BitVec 5) (h : BitVec 5)
  /-- VCDEF_PROCEED (R60): A VCDEF waiting on a departing segment or an unfinished migration or drain acts once it ends. -/
  | vcdefProceed (hart : Nat)
  /-- VCQRY (R287): Returns the slot word of a composed-cache slot. -/
  | vcqry (g : BitVec 5) (h : BitVec 5)
  /-- LAUNCH (R288): Submits a nest record to the pending-launch pool and writes a status. -/
  | launch (g : BitVec 5) (h : BitVec 5) (n : Bool)
  /-- RETIRE (R289): Ends the hart's point after flushes, acknowledgements and matrix completion, freeing its grants. -/
  | retire
  /-- CTRADD (R359): Adds g to a trigger counter as one raising RMW. -/
  | ctradd (g : BitVec 5) (h : BitVec 5)
  /-- CTRRD (R359): Reads a trigger counter into g as a relaxed read. -/
  | ctrrd (g : BitVec 5) (h : BitVec 5)
  /-- CTRSET (R359): Writes g to a trigger counter as a relaxed RMW, with no release. -/
  | ctrset (g : BitVec 5) (h : BitVec 5)
  /-- SETVL (R293): Sets vtype and grants vl from the request under VLMAX, the lane step and block length. -/
  | setvl (d : BitVec 5) (a : BitVec 5) (e : BitVec 3) (f : BitVec 3) (l : BitVec 3) (m : BitVec 3) (c : BitVec 3)
  /-- VADD (R299): Element-wise integer add. -/
  | vadd (d : BitVec 5) (a : BitVec 5) (b : BitVec 5) (k : BitVec 3) (c : Bool) (t : Bool) (s : Bool)
  /-- VSUB (R299): Element-wise integer subtract. -/
  | vsub (d : BitVec 5) (a : BitVec 5) (b : BitVec 5) (k : BitVec 3) (c : Bool) (t : Bool) (s : Bool)
  /-- VMUL (R299): Element-wise low product. -/
  | vmul (d : BitVec 5) (a : BitVec 5) (b : BitVec 5) (k : BitVec 3) (c : Bool) (t : Bool) (s : Bool)
  /-- VMULH (R299): Element-wise high signed product. -/
  | vmulh (d : BitVec 5) (a : BitVec 5) (b : BitVec 5) (k : BitVec 3) (c : Bool) (t : Bool) (s : Bool)
  /-- VMULHU (R299): Element-wise high unsigned product. -/
  | vmulhu (d : BitVec 5) (a : BitVec 5) (b : BitVec 5) (k : BitVec 3) (c : Bool) (t : Bool) (s : Bool)
  /-- VAND (R299): Element-wise AND. -/
  | vand (d : BitVec 5) (a : BitVec 5) (b : BitVec 5) (k : BitVec 3) (c : Bool) (t : Bool) (s : Bool)
  /-- VOR (R299): Element-wise OR. -/
  | vor (d : BitVec 5) (a : BitVec 5) (b : BitVec 5) (k : BitVec 3) (c : Bool) (t : Bool) (s : Bool)
  /-- VXOR (R299): Element-wise XOR. -/
  | vxor (d : BitVec 5) (a : BitVec 5) (b : BitVec 5) (k : BitVec 3) (c : Bool) (t : Bool) (s : Bool)
  /-- VSLL (R299): Element-wise left shift. -/
  | vsll (d : BitVec 5) (a : BitVec 5) (b : BitVec 5) (k : BitVec 3) (c : Bool) (t : Bool) (s : Bool)
  /-- VSRL (R299): Element-wise logical right shift. -/
  | vsrl (d : BitVec 5) (a : BitVec 5) (b : BitVec 5) (k : BitVec 3) (c : Bool) (t : Bool) (s : Bool)
  /-- VSRA (R299): Element-wise arithmetic right shift. -/
  | vsra (d : BitVec 5) (a : BitVec 5) (b : BitVec 5) (k : BitVec 3) (c : Bool) (t : Bool) (s : Bool)
  /-- VMIN (R299): Element-wise signed minimum. -/
  | vmin (d : BitVec 5) (a : BitVec 5) (b : BitVec 5) (k : BitVec 3) (c : Bool) (t : Bool) (s : Bool)
  /-- VMAX (R299): Element-wise signed maximum. -/
  | vmax (d : BitVec 5) (a : BitVec 5) (b : BitVec 5) (k : BitVec 3) (c : Bool) (t : Bool) (s : Bool)
  /-- VMINU (R299): Element-wise unsigned minimum. -/
  | vminu (d : BitVec 5) (a : BitVec 5) (b : BitVec 5) (k : BitVec 3) (c : Bool) (t : Bool) (s : Bool)
  /-- VMAXU (R299): Element-wise unsigned maximum. -/
  | vmaxu (d : BitVec 5) (a : BitVec 5) (b : BitVec 5) (k : BitVec 3) (c : Bool) (t : Bool) (s : Bool)
  /-- VABSD (R299): Element-wise absolute difference. -/
  | vabsd (d : BitVec 5) (a : BitVec 5) (b : BitVec 5) (k : BitVec 3) (c : Bool) (t : Bool) (s : Bool)
  /-- VADDS (R299): Element-wise signed saturating add, setting SAT when clamped. -/
  | vadds (d : BitVec 5) (a : BitVec 5) (b : BitVec 5) (k : BitVec 3) (c : Bool) (t : Bool) (s : Bool)
  /-- VSUBS (R299): Element-wise signed saturating subtract. -/
  | vsubs (d : BitVec 5) (a : BitVec 5) (b : BitVec 5) (k : BitVec 3) (c : Bool) (t : Bool) (s : Bool)
  /-- VADDUS (R299): Element-wise unsigned saturating add. -/
  | vaddus (d : BitVec 5) (a : BitVec 5) (b : BitVec 5) (k : BitVec 3) (c : Bool) (t : Bool) (s : Bool)
  /-- VSUBUS (R299): Element-wise unsigned saturating subtract. -/
  | vsubus (d : BitVec 5) (a : BitVec 5) (b : BitVec 5) (k : BitVec 3) (c : Bool) (t : Bool) (s : Bool)
  /-- VDOT4 (R299): Adds four signed byte products to each 32-bit element of vd. -/
  | vdot4 (d : BitVec 5) (a : BitVec 5) (b : BitVec 5) (k : BitVec 3) (c : Bool) (t : Bool) (s : Bool)
  /-- VMAC (R299): Element-wise vd plus a times b. -/
  | vmac (d : BitVec 5) (a : BitVec 5) (b : BitVec 5) (k : BitVec 3) (c : Bool) (t : Bool) (s : Bool)
  /-- VFADD (R300): Element-wise floating-point add. -/
  | vfadd (d : BitVec 5) (a : BitVec 5) (b : BitVec 5) (k : BitVec 3) (c : Bool) (t : Bool) (s : Bool)
  /-- VFSUB (R300): Element-wise floating-point subtract. -/
  | vfsub (d : BitVec 5) (a : BitVec 5) (b : BitVec 5) (k : BitVec 3) (c : Bool) (t : Bool) (s : Bool)
  /-- VFMUL (R300): Element-wise floating-point multiply. -/
  | vfmul (d : BitVec 5) (a : BitVec 5) (b : BitVec 5) (k : BitVec 3) (c : Bool) (t : Bool) (s : Bool)
  /-- VFMA (R300): Element-wise a times b plus vd with one rounding. -/
  | vfma (d : BitVec 5) (a : BitVec 5) (b : BitVec 5) (k : BitVec 3) (c : Bool) (t : Bool) (s : Bool)
  /-- VFNMA (R300): Element-wise vd minus a times b with one rounding. -/
  | vfnma (d : BitVec 5) (a : BitVec 5) (b : BitVec 5) (k : BitVec 3) (c : Bool) (t : Bool) (s : Bool)
  /-- VFDIV (R300): Element-wise floating-point divide. -/
  | vfdiv (d : BitVec 5) (a : BitVec 5) (b : BitVec 5) (k : BitVec 3) (c : Bool) (t : Bool) (s : Bool)
  /-- VFSQRT (R300): Element-wise square root. -/
  | vfsqrt (d : BitVec 5) (a : BitVec 5) (k : BitVec 3) (c : Bool) (t : Bool)
  /-- VFMIN (R300): Element-wise floating-point minimum. -/
  | vfmin (d : BitVec 5) (a : BitVec 5) (b : BitVec 5) (k : BitVec 3) (c : Bool) (t : Bool) (s : Bool)
  /-- VFMAX (R300): Element-wise floating-point maximum. -/
  | vfmax (d : BitVec 5) (a : BitVec 5) (b : BitVec 5) (k : BitVec 3) (c : Bool) (t : Bool) (s : Bool)
  /-- VFABS (R300): Element-wise sign clear. -/
  | vfabs (d : BitVec 5) (a : BitVec 5) (k : BitVec 3) (c : Bool) (t : Bool)
  /-- VFNEG (R300): Element-wise sign inversion. -/
  | vfneg (d : BitVec 5) (a : BitVec 5) (k : BitVec 3) (c : Bool) (t : Bool)
  /-- VFSCL (R300): Element-wise scaling by a power of two with one rounding. -/
  | vfscl (d : BitVec 5) (a : BitVec 5) (b : BitVec 5) (k : BitVec 3) (c : Bool) (t : Bool) (s : Bool)
  /-- VSFU_EXP2 (R301): Element-wise 2 to the x within 2 ulp. -/
  | vsfuExp2 (d : BitVec 5) (a : BitVec 5) (k : BitVec 3) (c : Bool) (t : Bool)
  /-- VSFU_LOG2 (R301): Element-wise base-2 logarithm. -/
  | vsfuLog2 (d : BitVec 5) (a : BitVec 5) (k : BitVec 3) (c : Bool) (t : Bool)
  /-- VSFU_RCP (R301): Element-wise reciprocal. -/
  | vsfuRcp (d : BitVec 5) (a : BitVec 5) (k : BitVec 3) (c : Bool) (t : Bool)
  /-- VSFU_RSQRT (R301): Element-wise reciprocal square root. -/
  | vsfuRsqrt (d : BitVec 5) (a : BitVec 5) (k : BitVec 3) (c : Bool) (t : Bool)
  /-- VSFU_SIN (R301): Element-wise sine of x turns. -/
  | vsfuSin (d : BitVec 5) (a : BitVec 5) (k : BitVec 3) (c : Bool) (t : Bool)
  /-- VSFU_COS (R301): Element-wise cosine of x turns. -/
  | vsfuCos (d : BitVec 5) (a : BitVec 5) (k : BitVec 3) (c : Bool) (t : Bool)
  /-- VSFU_TANH (R301): Element-wise hyperbolic tangent. -/
  | vsfuTanh (d : BitVec 5) (a : BitVec 5) (k : BitVec 3) (c : Bool) (t : Bool)
  /-- VSFU_SIGM (R301): Element-wise logistic sigmoid. -/
  | vsfuSigm (d : BitVec 5) (a : BitVec 5) (k : BitVec 3) (c : Bool) (t : Bool)
  /-- VCMP (R302): Integer compare writing one mask bit per active element. -/
  | vcmp (d : BitVec 5) (a : BitVec 5) (b : BitVec 5) (k : BitVec 3) (c : Bool) (t : Bool) (s : Bool) (n : BitVec 4)
  /-- VFCMP (R302): Floating-point compare writing one mask bit per active element. -/
  | vfcmp (d : BitVec 5) (a : BitVec 5) (b : BitVec 5) (k : BitVec 3) (c : Bool) (t : Bool) (s : Bool) (n : BitVec 4)
  /-- MAND (R303): Mask AND. -/
  | mand (d : BitVec 5) (a : BitVec 5) (b : BitVec 5) (k : BitVec 3) (c : Bool) (t : Bool)
  /-- MOR (R303): Mask OR. -/
  | mor (d : BitVec 5) (a : BitVec 5) (b : BitVec 5) (k : BitVec 3) (c : Bool) (t : Bool)
  /-- MXOR (R303): Mask XOR. -/
  | mxor (d : BitVec 5) (a : BitVec 5) (b : BitVec 5) (k : BitVec 3) (c : Bool) (t : Bool)
  /-- MANDN (R303): Mask AND NOT. -/
  | mandn (d : BitVec 5) (a : BitVec 5) (b : BitVec 5) (k : BitVec 3) (c : Bool) (t : Bool)
  /-- MNOT (R303): Mask NOT. -/
  | mnot (d : BitVec 5) (a : BitVec 5) (k : BitVec 3) (c : Bool) (t : Bool)
  /-- MPOPC (R303): Counts set mask bits of active non-pad elements into a g register. -/
  | mpopc (d : BitVec 5) (a : BitVec 5) (k : BitVec 3) (c : Bool) (t : Bool)
  /-- MFIRST (R303): Writes the position of the first set mask bit, or -1, into a g register. -/
  | mfirst (d : BitVec 5) (a : BitVec 5) (k : BitVec 3) (c : Bool) (t : Bool)
  /-- MSET (R303): Sets mask bits. -/
  | mset (d : BitVec 5) (k : BitVec 3) (c : Bool) (t : Bool)
  /-- MCLR (R303): Clears mask bits. -/
  | mclr (d : BitVec 5) (k : BitVec 3) (c : Bool) (t : Bool)
  /-- VPERM (R304): Permutes each row by indices in vb. -/
  | vperm (d : BitVec 5) (a : BitVec 5) (b : BitVec 5) (k : BitVec 3) (c : Bool) (t : Bool)
  /-- VSLIDEUP (R304): Slides each row up by g elements, reading vfill below. -/
  | vslideup (d : BitVec 5) (a : BitVec 5) (b : BitVec 5) (k : BitVec 3) (c : Bool) (t : Bool)
  /-- VSLIDEDN (R304): Slides each row down by g elements. -/
  | vslidedn (d : BitVec 5) (a : BitVec 5) (b : BitVec 5) (k : BitVec 3) (c : Bool) (t : Bool)
  /-- VCOMPRESS (R304): Packs mask-selected elements to the front of each row. -/
  | vcompress (d : BitVec 5) (a : BitVec 5) (k : BitVec 3) (c : Bool) (t : Bool)
  /-- VEXPAND (R304): Spreads leading elements to mask-selected positions. -/
  | vexpand (d : BitVec 5) (a : BitVec 5) (k : BitVec 3) (c : Bool) (t : Bool)
  /-- VSCAN (R304): Inclusive integer prefix over each row with the function in the vb field. -/
  | vscan (d : BitVec 5) (a : BitVec 5) (n : BitVec 4) (k : BitVec 3) (c : Bool) (t : Bool)
  /-- VFSCAN (R304): Inclusive floating-point prefix over each row. -/
  | vfscan (d : BitVec 5) (a : BitVec 5) (n : BitVec 4) (k : BitVec 3) (c : Bool) (t : Bool)
  /-- VROWBC (R304): Broadcasts row k of va to every row of vd. -/
  | vrowbc (d : BitVec 5) (a : BitVec 5) (b : BitVec 5) (k : BitVec 3) (c : Bool) (t : Bool)
  /-- VRED_SUM (R305): Integer sum of each row by the fixed tree into element 0. -/
  | vredSum (d : BitVec 5) (a : BitVec 5) (k : BitVec 3) (c : Bool) (t : Bool)
  /-- VRED_MAX (R305): Signed maximum of each row. -/
  | vredMax (d : BitVec 5) (a : BitVec 5) (k : BitVec 3) (c : Bool) (t : Bool)
  /-- VRED_MIN (R305): Signed minimum of each row. -/
  | vredMin (d : BitVec 5) (a : BitVec 5) (k : BitVec 3) (c : Bool) (t : Bool)
  /-- VRED_AND (R305): AND of each row. -/
  | vredAnd (d : BitVec 5) (a : BitVec 5) (k : BitVec 3) (c : Bool) (t : Bool)
  /-- VRED_OR (R305): OR of each row. -/
  | vredOr (d : BitVec 5) (a : BitVec 5) (k : BitVec 3) (c : Bool) (t : Bool)
  /-- VRED_XOR (R305): XOR of each row. -/
  | vredXor (d : BitVec 5) (a : BitVec 5) (k : BitVec 3) (c : Bool) (t : Bool)
  /-- VRED_MAXU (R305): Unsigned maximum of each row. -/
  | vredMaxu (d : BitVec 5) (a : BitVec 5) (k : BitVec 3) (c : Bool) (t : Bool)
  /-- VRED_MINU (R305): Unsigned minimum of each row. -/
  | vredMinu (d : BitVec 5) (a : BitVec 5) (k : BitVec 3) (c : Bool) (t : Bool)
  /-- VFRED_SUM (R305): Floating-point sum of each row by the fixed tree. -/
  | vfredSum (d : BitVec 5) (a : BitVec 5) (k : BitVec 3) (c : Bool) (t : Bool)
  /-- VFRED_MAX (R305): Floating-point maximum of each row. -/
  | vfredMax (d : BitVec 5) (a : BitVec 5) (k : BitVec 3) (c : Bool) (t : Bool)
  /-- VFRED_MIN (R305): Floating-point minimum of each row. -/
  | vfredMin (d : BitVec 5) (a : BitVec 5) (k : BitVec 3) (c : Bool) (t : Bool)
  /-- VCVTH (R307): Converts two source rows into one row at half the element width. -/
  | vcvth (d : BitVec 5) (a : BitVec 5) (i : Bool) (f : BitVec 3) (k : BitVec 3) (c : Bool) (t : Bool)
  /-- VCVTD (R307): Converts one source row into two rows at double the element width. -/
  | vcvtd (d : BitVec 5) (a : BitVec 5) (u : Bool) (i : Bool) (f : BitVec 3) (k : BitVec 3) (c : Bool) (t : Bool)
  /-- VCVTI2F (R306): Converts integer elements to the vtype floating type. -/
  | vcvti2f (d : BitVec 5) (a : BitVec 5) (u : Bool) (k : BitVec 3) (c : Bool) (t : Bool)
  /-- VCVTF2I (R306): Converts floating elements to integers. -/
  | vcvtf2i (d : BitVec 5) (a : BitVec 5) (u : Bool) (k : BitVec 3) (c : Bool) (t : Bool)
  /-- VCVT8 (R308): Converts FP32 rows to a block-scaled narrow format, writing codes and scales. -/
  | vcvt8 (d : BitVec 5) (a : BitVec 5) (k : BitVec 3) (c : Bool) (t : Bool)
  /-- VCVTS (R308): Computes block scales from FP32 rows into the sidecar only. -/
  | vcvts (d : BitVec 5) (a : BitVec 5) (k : BitVec 3) (c : Bool) (t : Bool)
  /-- VMV (R309): Copies elements of va to vd. -/
  | vmv (d : BitVec 5) (a : BitVec 5) (k : BitVec 3) (c : Bool) (t : Bool)
  /-- VBCAST (R309): Broadcasts a g register to every element. -/
  | vbcast (d : BitVec 5) (a : BitVec 5) (k : BitVec 3) (c : Bool) (t : Bool)
  /-- VEXTR (R309): Extracts one element of row 0 into a g register. -/
  | vextr (d : BitVec 5) (a : BitVec 5) (b : BitVec 5) (c : Bool) (t : Bool)
  /-- VINS (R309): Inserts a g register into one element of row 0. -/
  | vins (d : BitVec 5) (a : BitVec 5) (b : BitVec 5) (k : BitVec 3) (c : Bool) (t : Bool)
  /-- VSEL (R309): Selects va or vb per element by a mask. -/
  | vsel (d : BitVec 5) (a : BitVec 5) (b : BitVec 5) (k : BitVec 3) (c : Bool) (t : Bool)
  /-- VMRANK (R309): Writes each position's rank among the mask's set bits. -/
  | vmrank (d : BitVec 5) (k : BitVec 3) (c : Bool) (t : Bool)
  /-- VSCLD (R310): Loads sidecar scale bytes from memory. -/
  | vscld (d : BitVec 5) (a : BitVec 5) (k : BitVec 3) (c : Bool) (t : Bool)
  /-- VSCST (R310): Stores sidecar scale bytes to memory. -/
  | vscst (d : BitVec 5) (a : BitVec 5) (k : BitVec 3) (c : Bool) (t : Bool)
  /-- VLD (R311): Unit-stride vector load, probed before commit, marking destination groups empty. -/
  | vld (d : BitVec 5) (a : BitVec 5) (k : BitVec 3) (c : Bool) (t : Bool) (o : Bool) (y : Bool) (e : BitVec 2)
  /-- VLD_STR (R311): Strided vector load. -/
  | vldStr (d : BitVec 5) (a : BitVec 5) (b : BitVec 5) (k : BitVec 3) (c : Bool) (t : Bool) (o : Bool) (y : Bool) (e : BitVec 2)
  /-- VLD_X (R311): Indexed vector load (gather). -/
  | vldX (d : BitVec 5) (a : BitVec 5) (b : BitVec 5) (k : BitVec 3) (c : Bool) (t : Bool) (o : Bool) (y : Bool) (e : BitVec 2)
  /-- VLD_CHK (R312): String-chunk vector load from descriptors. -/
  | vldChk (d : BitVec 5) (a : BitVec 5) (b : BitVec 5) (k : BitVec 3) (c : Bool) (t : Bool) (o : Bool) (y : Bool) (e : BitVec 2)
  /-- VST (R315): Unit-stride vector store of active non-pad elements. -/
  | vst (d : BitVec 5) (a : BitVec 5) (k : BitVec 3) (c : Bool) (t : Bool) (o : Bool) (y : Bool) (e : BitVec 2)
  /-- VST_STR (R315): Strided vector store. -/
  | vstStr (d : BitVec 5) (a : BitVec 5) (b : BitVec 5) (k : BitVec 3) (c : Bool) (t : Bool) (o : Bool) (y : Bool) (e : BitVec 2)
  /-- VST_X (R315): Indexed vector store (scatter). -/
  | vstX (d : BitVec 5) (a : BitVec 5) (b : BitVec 5) (k : BitVec 3) (c : Bool) (t : Bool) (o : Bool) (y : Bool) (e : BitVec 2)
  /-- VAMO_ADD (R316): One relaxed add RMW per active element at indexed addresses. -/
  | vamoAdd (d : BitVec 5) (a : BitVec 5) (b : BitVec 5) (k : BitVec 3) (c : Bool) (t : Bool) (o : Bool) (y : Bool)
  /-- VAMO_MIN (R316): One relaxed signed-minimum RMW per active element. -/
  | vamoMin (d : BitVec 5) (a : BitVec 5) (b : BitVec 5) (k : BitVec 3) (c : Bool) (t : Bool) (o : Bool) (y : Bool)
  /-- VAMO_MAX (R316): One relaxed signed-maximum RMW per active element. -/
  | vamoMax (d : BitVec 5) (a : BitVec 5) (b : BitVec 5) (k : BitVec 3) (c : Bool) (t : Bool) (o : Bool) (y : Bool)
  /-- VAMO_OR (R316): One relaxed OR RMW per active element. -/
  | vamoOr (d : BitVec 5) (a : BitVec 5) (b : BitVec 5) (k : BitVec 3) (c : Bool) (t : Bool) (o : Bool) (y : Bool)
  /-- VAMO_FADD (R316): One relaxed floating-point add RMW per active element. -/
  | vamoFadd (d : BitVec 5) (a : BitVec 5) (b : BitVec 5) (k : BitVec 3) (c : Bool) (t : Bool) (o : Bool) (y : Bool)
  /-- VHASH (R317): Element-wise Hmix of va and vb. -/
  | vhash (d : BitVec 5) (a : BitVec 5) (b : BitVec 5) (k : BitVec 3) (c : Bool) (t : Bool)
  /-- VBUCKET (R318): Maps each element to a bucket in [0, B). -/
  | vbucket (d : BitVec 5) (a : BitVec 5) (b : BitVec 5) (k : BitVec 3) (c : Bool) (t : Bool)
  /-- VCONF (R319): Counts earlier equal elements of the same row. -/
  | vconf (d : BitVec 5) (a : BitVec 5) (k : BitVec 3) (c : Bool) (t : Bool)
  /-- VSTRCMP (R320): Compares chunked strings, writing -1, 0 or +1 and clearing decided mask bits. -/
  | vstrcmp (d : BitVec 5) (a : BitVec 5) (b : BitVec 5) (k : BitVec 3) (c : Bool) (t : Bool)
  /-- VSTRHASH (R321): Folds string chunks into a running hash per element. -/
  | vstrhash (d : BitVec 5) (a : BitVec 5) (b : BitVec 5) (k : BitVec 3) (c : Bool) (t : Bool)
  /-- SETRC (R322): Writes vrc from a g register. -/
  | setrc (a : BitVec 5) (t : Bool)
  /-- VSPLIT (R323): Divides the hart's lanes among 2 or 4 vector threads, waiting for parked harts. -/
  | vsplit (a : BitVec 5) (n : BitVec 5) (t : Bool)
  /-- VMERGE (R324): Returns a thread's lanes to thread 0, or gathers them back in thread 0. -/
  | vmerge
  /-- VPARK (R324): Parks a hart holding no lanes. -/
  | vpark
  /-- CONVOY_ISSUE (R178): Up to four vector words with C bits issue together, probed as one unit and chained element by element. -/
  | convoyIssue (words : List (BitVec 32))
  /-- MLD (R333): Loads a tile register's rows and sidecar from memory in a matrix stream. -/
  | mld (n : BitVec 3) (s : BitVec 2) (a : BitVec 5) (b : BitVec 5) (t : Bool)
  /-- MST (R333): Stores a tile register's rows and sidecar to memory in a matrix stream. -/
  | mst (n : BitVec 3) (s : BitVec 2) (a : BitVec 5) (b : BitVec 5) (t : Bool)
  /-- MMA (R334): Matrix multiply-accumulate of two tile registers into an accumulator in a stream. -/
  | mma (c : BitVec 2) (a : BitVec 3) (b : BitVec 3) (s : BitVec 2) (p : Bool) (n : Bool) (z : Bool) (y : BitVec 2)
  /-- MZERO (R338): Zeroes an accumulator in a stream. -/
  | mzero (c : BitVec 2) (s : BitVec 2)
  /-- MACC2V (R339): Copies an accumulator's raw elements into vector registers. -/
  | macc2v (d : BitVec 5) (c : BitVec 2) (s : BitVec 2)
  /-- MACC2T (R340): Converts accumulator elements into a tile register under its tcfg. -/
  | macc2t (c : BitVec 2) (n : BitVec 3) (s : BitVec 2)
  /-- MSYNC (R341): Waits for named streams, orders their accesses and reports any stream error. -/
  | msync (m : BitVec 4)
  /-- MMA_BEGIN (R331): The array takes the oldest ready MMA and begins it. -/
  | mmaBegin (tile : Nat)
  /-- MATRIX_OP_COMPLETE (R330): A matrix stream operation completes its effect on registers and memory, or with no effect under an error state. -/
  | matrixOpComplete (tile : Nat) (stream : Nat)
  /-- COPY_LIN (R348): Command copying a linear byte range. -/
  | copyLin (r : CmdRegs) (c : Comp) (f : Option Follow)
  /-- COPY_DEINT (R348): Command de-interleaving records into planes. -/
  | copyDeint (r : CmdRegs) (c : Comp) (f : Option Follow) (esz : BitVec 3) (np : BitVec 4)
  /-- COPY_PERM (R348): Command permuting a 4-D array. -/
  | copyPerm (r : CmdRegs) (c : Comp) (f : Option Follow) (esz : BitVec 3) (perm : BitVec 8)
  /-- COPY_VREG (R348): Command copying memory into vector registers. -/
  | copyVreg (r : CmdRegs) (c : Comp) (f : Option Follow)
  /-- COPY_TILE (R348): Command copying memory into a tile register, optionally with a follow-on MMA. -/
  | copyTile (r : CmdRegs) (c : Comp) (f : Option Follow)
  /-- STRM (R351): Command binding a stream engine to register 28-31 with a pattern record. -/
  | strm (ga : BitVec 5) (gd : BitVec 5) (c : Comp) (q : BitVec 3) (file : Bool) (reg : BitVec 2) (dir : Bool)
  /-- UNSTRM (R352): Command ending a stream binding after pushed positions are performed. -/
  | unstrm (q : BitVec 3)
  /-- RSV (R353): Command registering a Cinch on an affine range for a holder unit. -/
  | rsv (r : CmdRegs) (c : Comp) (esz : BitVec 3) (wr : Bool) (mode : BitVec 2) (hunit : BitVec 5)
  /-- URSV (R353): Command ending the holder unit's Cinch at every home. -/
  | ursv (gd : BitVec 5) (c : Comp) (hunit : BitVec 5)
  /-- NODE_NEST (R189): Command submitting a nest record as a graph node with derived footprint edges. -/
  | nodeNest (ga : BitVec 5)
  /-- NODE_CMD (R354): Command submitting a command node record. -/
  | nodeCmd (ga : BitVec 5)
  /-- PUT (R355): Pod command writing bytes at a target package. -/
  | put (r : CmdRegs) (c : Comp) (dpkg : BitVec 9) (tag : Option PodTag)
  /-- GET (R355): Pod command reading bytes at a target package into local memory. -/
  | get (r : CmdRegs) (c : Comp) (dpkg : BitVec 9)
  /-- RAMO (R355): Pod command performing one AMO at a target package. -/
  | ramo (r : CmdRegs) (c : Comp) (dpkg : BitVec 9) (func : BitVec 4)
  /-- RRED (R355): Pod command performing one no-return RMW per element at a target. -/
  | rred (r : CmdRegs) (c : Comp) (dpkg : BitVec 9) (tag : Option PodTag) (func : BitVec 4)
  /-- MCAST (R355): Pod command writing bytes at every member of a multicast group. -/
  | mcast (r : CmdRegs) (c : Comp) (group : BitVec 8) (tag : Option PodTag)
  /-- TPOST (R356): Command posting an operation or node release against a counter threshold. -/
  | tpost (ga : BitVec 5) (gb : BitVec 5) (gc : BitVec 5) (k : BitVec 9) (act : BitVec 2) (rel : Bool)
  /-- TCANCEL (R357): Command removing posts made with an address and writing the count removed. -/
  | tcancel (ga : BitVec 5) (gd : BitVec 5) (k : BitVec 9)
  /-- FCFG (R358): Command loading a fabric configuration image. -/
  | fcfg (ga : BitVec 5) (gd : BitVec 5) (c : Comp)
  /-- FRUN (R401): Command starting the loaded fabric configuration with an argument block. -/
  | frun (ga : BitVec 5) (gd : BitVec 5) (c : Comp)
  /-- FRUN_RESUME (R407): Command resuming a saved fabric cut. -/
  | frunResume (ga : BitVec 5) (gd : BitVec 5) (c : Comp)
  /-- FHALT (R404): Command freezing a running fabric by round marker and saving its cut. -/
  | fhalt (ga : BitVec 5) (gd : BitVec 5) (c : Comp)
  /-- COMMAND_ACCEPT (R345): A unit takes a waiting command into its queue, capturing records and ordering prior accesses. -/
  | commandAccept (hart : Nat)
  /-- COPY_BEGIN (R345): The copy engine begins a queued command when one of its eight places is free. -/
  | copyBegin (tile : Nat)
  /-- COPY_TRANSFER (R348): The copy engine moves a piece of a command's data, setting landing bits as blocks land. -/
  | copyTransfer (tile : Nat) (cmd : Nat)
  /-- COMMAND_COMPLETE (R347): A command completes: full bits, counter raise and stamp write, with a fault record on error. -/
  | commandComplete (tile : Nat) (cmd : Nat)
  /-- COMMAND_NODE_BEGIN (R354): A READY command node is begun by the issuing tile's copy engine. -/
  | commandNodeBegin (part : Nat) (node : BitVec 64)
  /-- STREAM_ENGINE_ACCESS (R351): A stream engine fetches positions ahead or writes pushed positions. -/
  | streamEngineAccess (tile : Nat) (q : Nat)
  /-- STREAM_COMPLETE (R351): A stream reaches its end and makes its completion actions. -/
  | streamComplete (tile : Nat) (q : Nat)
  /-- COUNTER_RAISE (R365): A raise reaches the Harness holding its counter and the counter changes. -/
  | counterRaise (tile : Nat) (k : Nat) (amount : BitVec 64)
  /-- POST_EXAMINE (R365): The Harness examines one post of a changed counter per clock in posting order. -/
  | postExamine (tile : Nat) (k : Nat)
  /-- FIRED_OP_HANDOFF (R365): A fired command held for a full queue is accepted by its unit. -/
  | firedOpHandoff (tile : Nat)
  /-- COUNTER_RUN_GRANT (R362): Management grants a counter run, setting its counters to 0. -/
  | counterRunGrant (tile : Nat) (run : Nat) (part : Nat)
  /-- COUNTER_RUN_REVOKE (R362): Revoking a counter run removes its posts, ends unaccepted fired operations and zeroes counters. -/
  | counterRunRevoke (tile : Nat) (run : Nat)
  /-- WALK_COMPLETE (R27): A page-table walk ends, installing a translation with A and D updates or reporting a fault. -/
  | walkComplete (tile : Nat) (part : Nat) (va : BitVec 64) (kind : AccKind) (sup : Bool)
  /-- TSQ_RECORD_WRITE (R47): A held translation service request is written to the queue with the producer word once there is room. -/
  | tsqRecordWrite (part : Nat)
  /-- GETS (R101): Read request arrives at the home and is served, recalled, held, or resolved against a Cinch. -/
  | gets (agent : Nat) (gran : Nat)
  /-- GETM (R101): Ownership request with data arrives at the home. -/
  | getm (agent : Nat) (gran : Nat)
  /-- UPG (R101): Ownership request for a shared granule arrives at the home. -/
  | upg (agent : Nat) (gran : Nat)
  /-- PUTS (R101): Clean eviction notice arrives at the home. -/
  | puts (agent : Nat) (gran : Nat)
  /-- PUTM (R101): Dirty write-back arrives at the home with its byte mask. -/
  | putm (agent : Nat) (gran : Nat) (d : GData)
  /-- RDAT (R101): Recall answer arrives at the home. -/
  | rdat (agent : Nat) (gran : Nat) (d : Option GData)
  /-- DONE (R101): Requester's DONE arrives; the entry leaves B and waiting requests are taken. -/
  | done (agent : Nat) (gran : Nat)
  /-- DATA (R102): Granule data with granted state arrives at an agent. -/
  | data (agent : Nat) (gran : Nat) (st : Grant) (acks : Nat) (d : GData)
  /-- GNT (R102): Ownership grant without data arrives at an agent. -/
  | gnt (agent : Nat) (gran : Nat) (acks : Nat)
  /-- INV (R102): Invalidation arrives at an agent, which drops its copy and acknowledges. -/
  | inv (agent : Nat) (gran : Nat) (req : Nat) (part : Nat)
  /-- RCLS (R102): Recall keeping S arrives at an owner. -/
  | rcls (agent : Nat) (gran : Nat) (part : Nat)
  /-- RCLI (R102): Recall with invalidation arrives at an owner. -/
  | rcli (agent : Nat) (gran : Nat) (part : Nat)
  /-- IACK (R103): Invalidation acknowledgement arrives at its requester. -/
  | iack (req : Nat) (agent : Nat) (gran : Nat)
  /-- PACK (R102): Eviction acceptance arrives at an agent in SI or MI. -/
  | pack (agent : Nat) (gran : Nat)
  /-- ERR (R94): Error response arrives at a requester. -/
  | err (agent : Nat) (gran : Nat)
  /-- HOME_SERVED_ACCESS (R67): An access to a page served from home is performed at the home. -/
  | homeServedAccess (id : Nat)
  /-- HOME_ATOMIC (R106): The home's atomic unit performs an atomic or reduction once the granule is recalled. -/
  | homeAtomic (id : Nat)
  /-- MOVE (R82): A move notice arrives at the home, which answers MACK or MNAK. -/
  | move (part : Nat) (vcid : Nat) (gran : Nat) (old : Nat) (new : Nat) (dirty : Bool)
  /-- MACK (R82): Move acknowledgement arrives at the old or new position. -/
  | mack (part : Nat) (vcid : Nat) (gran : Nat)
  /-- MNAK (R82): Move refusal arrives at the old or new position. -/
  | mnak (part : Nat) (vcid : Nat) (gran : Nat)
  /-- MIGRATION_SWEEP (R80): The migration engine visits one old-placement position per clock, moving or evicting its line. -/
  | migrationSweep (part : Nat) (vcid : Nat)
  /-- MIGRATION_END (R83): Sweep, moves and old-placement accesses are done: departing segments freed, slot ACTIVE. -/
  | migrationEnd (part : Nat) (vcid : Nat)
  /-- DRAIN_SWEEP (R84): A drain writes home and drops lines of the old record at the sweep rate. -/
  | drainSweep (part : Nat) (vcid : Nat)
  /-- DRAIN_DONE (R77): No line remains: the slot becomes ACTIVE with the new record or EMPTY. -/
  | drainDone (part : Nat) (vcid : Nat)
  /-- CORRECTED_BANK_ERROR (R55): A single-bit bank error is corrected in place and logged. -/
  | correctedBankError (bank : Nat) (seg : Nat)
  /-- UNCORRECTABLE_BANK_ERROR (R55): An uncorrectable bank error takes its segment offline. -/
  | uncorrectableBankError (bank : Nat) (seg : Nat)
  /-- PIECE_REGISTER (R111): A Cinch piece arrives at its home, is entered and makes home memory current. -/
  | pieceRegister (piece : Nat)
  /-- POSITION_QUERY (R115): A position query or watch reaches a SPLIT holder, which answers with its position. -/
  | positionQuery (piece : Nat) (watch : Option Nat)
  /-- POSITION_ANSWER (R115): A position answer reaches the home, releasing lines and serving or re-holding requests. -/
  | positionAnswer (piece : Nat) (pos : Nat)
  /-- PIECE_END (R117): A piece is removed at its home and held requests are taken in order. -/
  | pieceEnd (piece : Nat)
  /-- HOST_MEM_READ (R122): A host MemRd or MemRdData arrives and maps to a directory event. -/
  | hostMemRead (gran : Nat) (snp : HostSnp)
  /-- HOST_MEM_INV (R122): A host MemInv arrives and acts as UPG from the host agent. -/
  | hostMemInv (gran : Nat)
  /-- HOST_MEM_WRITE (R122): A host MemWr or MemWrPtl arrives and acts as PUTM. -/
  | hostMemWrite (gran : Nat) (d : GData)
  /-- HOST_MEM_CLEAN_EVICT (R122): A host MemClnEvct arrives and acts as PUTS. -/
  | hostMemCleanEvict (gran : Nat)
  /-- BI_RESPONSE (R122): The host's BIRsp answers a back-invalidate snoop. -/
  | biResponse (gran : Nat) (keeps : Bool) (d : Option GData)
  /-- BI_CONFLICT (R123): A host request crossing a back-invalidate snoop follows the BIConflict exchange. -/
  | biConflict (gran : Nat)
  /-- H2D_SNP_DATA (R124): Host SnpData: recall to S and answer. -/
  | h2dSnpData (gran : Nat)
  /-- H2D_SNP_INV (R124): Host SnpInv: invalidate all tile copies and answer after every IACK. -/
  | h2dSnpInv (gran : Nat)
  /-- H2D_SNP_CUR (R124): Host SnpCur: current data with states unchanged. -/
  | h2dSnpCur (gran : Nat)
  /-- H2D_RESPONSE (R124): The host answers a CXL.cache request of the device's cache agent. -/
  | h2dResponse (gran : Nat) (d : GData)
  /-- HEARTBEAT_MISS (R125): Three consecutive missed heartbeats fence the agent. -/
  | heartbeatMiss (agent : Nat)
  /-- HOST_LINK_FAIL (R125): A host CXL link fails and the host agent is fenced. -/
  | hostLinkFail (link : Nat)
  /-- SCRUB_STEP (R127): The scrub engine visits one directory entry per clock, removing the fenced agent. -/
  | scrubStep (stack : Nat)
  /-- STORE_SEND (R137): A buffered store is sent within 64 clocks unless an ordering rule holds it. -/
  | storeSend (hart : Nat)
  /-- STORE_ACK (R137): A store acknowledgement arrives and its store-buffer entry retires. -/
  | storeAck (hart : Nat) (id : Nat)
  /-- MERGE_FLUSH_IDLE (R145): A merge-buffer entry untouched for 4,096 clocks is flushed. -/
  | mergeFlushIdle (tile : Nat) (idx : Nat)
  /-- JOIN_MARKERS (R167): Draining done, the tile sends join markers on each used circuit. -/
  | joinMarkers (hart : Nat)
  /-- JOIN_MARKER_ARRIVE (R167): A join marker reaches its destination die behind earlier traffic. -/
  | joinMarkerArrive (join : Nat) (circuit : Nat)
  /-- JACK_SEND (R167): Once every message ahead of the marker is performed, the die sends JACK. -/
  | jackSend (join : Nat) (circuit : Nat)
  /-- JACK_ARRIVE (R167): A JACK reaches the tile; the last one completes the FENCE. -/
  | jackArrive (join : Nat) (circuit : Nat)
  /-- MONITOR_NOTIFY (R279): A write to a watched granule notifies the monitor and the waiting hart reads again. -/
  | monitorNotify (hart : Nat)
  /-- WATERMARK_RELEASE (R157): A watermark check finds the stamp advanced and waiting load elements are performed. -/
  | watermarkRelease (hart : Nat)
  /-- LOAD_DATA_RETURN (R175): Producer data arrives and its destination register or element group becomes full or faulted. -/
  | loadDataReturn (id : Nat)
  /-- DISPATCH_DECISION (R204): Each clock the stack walker chooses a nest and hands its next point to a hart. -/
  | dispatchDecision (stack : Nat)
  /-- POOL_ENTRY_TAKEN (R202): A stalled LAUNCH or NODE takes a freed pool entry in arrival order. -/
  | poolEntryTaken (stack : Nat) (level : Nat)
  /-- POINT_SET_ASIDE (R203): A point stalled 4,096 clocks is saved aside to free its hart and grants. -/
  | pointSetAside (hart : Nat)
  /-- POINT_RESTORE (R203): A set-aside point is restored once its request has an entry and grants are free. -/
  | pointRestore (tile : Nat) (depth : Nat)
  /-- QUANTUM_EXPIRY (R208): A region's quantum expires and the region swaps to the next partition or starts a new quantum. -/
  | quantumExpiry (region : Nat)
  /-- CONTEXT_SWAP_BEGIN (R425): After cores halt and SHOOTs, joins and producers complete, saving begins. -/
  | contextSwapBegin (region : Nat)
  /-- CONTEXT_SWAP_COMPLETE (R425): 19,200 clocks later the incoming context is restored and held producers replay. -/
  | contextSwapComplete (region : Nat)
  /-- LANE_STEP_CHANGE (R211): The power controller changes a tile's lane step. -/
  | laneStepChange (tile : Nat) (lanes : Nat)
  /-- THERMAL_HALT (R443): At 115 C management halts every partition with exit code all ones. -/
  | thermalHalt
  /-- INCOMING_PUT (R51): A PUT arrives at a target package and is performed or answered negatively. -/
  | incomingPut (p : PodIn) (bytes : List (BitVec 8))
  /-- INCOMING_GET (R51): A GET arrives at a target and its data is returned. -/
  | incomingGet (p : PodIn) (len : Nat)
  /-- INCOMING_RAMO (R51): A RAMO arrives and is performed at the target home's atomic unit. -/
  | incomingRamo (p : PodIn) (func : Nat) (dword : Bool) (operand : BitVec 64) (cmp : BitVec 64)
  /-- INCOMING_RRED (R51): RRED elements arrive and are performed at the target home. -/
  | incomingRred (p : PodIn) (func : Nat) (dword : Bool) (bytes : List (BitVec 8))
  /-- INCOMING_MCAST (R385): An MCAST packet arrives at a member, which writes and answers. -/
  | incomingMcast (p : PodIn) (bytes : List (BitVec 8))
  /-- POD_ANSWER (R355): A pod operation's answer reaches the origin and the command completes, with REMOTE on a negative answer. -/
  | podAnswer (tile : Nat) (cmd : Nat) (neg : Bool) (bytes : List (BitVec 8)) (nneg : Nat) (low : Nat)
  /-- MCAST_ROUTE (R385): A multicast packet's headers reach the slices, which read the group entry and replicate it. -/
  | mcastRoute (tile : Nat) (cmd : Nat)
  /-- MCAST_MEMBER_ANSWER (R385): A member's answer reaches the slices, which aggregate NNEG and LOW. -/
  | mcastMemberAnswer (tile : Nat) (cmd : Nat) (pkg : Nat) (neg : Bool)
  /-- POD_MERGE_SEND (R383): A pod merge-buffer entry is sent when complete, needed, passed by a join or after 4,096 clocks. -/
  | podMergeSend (idx : Nat)
  /-- ROUTER_CONTRIBUTION (R372): A contribution reaches a REDUCE entry and is held, filtered, or combined when all tiles arrive. -/
  | routerContribution (x : Contrib)
  /-- ROUTER_ELEMENT_TIMEOUT (R374): An element 4,096 clocks old leaves with the contributions present. -/
  | routerElementTimeout (cluster : Nat) (elem : Nat)
  /-- ROUTER_ANSWER (R375): A combined element's answer returns and completes every carried command. -/
  | routerAnswer (cluster : Nat) (elem : Nat) (neg : Bool)
  /-- ROUTER_REPLICATE (R377): A matching class-3 write is performed and copied NREP times. -/
  | routerReplicate (tile : Nat) (part : Nat) (pa : Nat) (bytes : List (BitVec 8))
  /-- ROUTER_ENTRY_WRITE (R371): A supervisor write to a router stage entry is applied or refused. -/
  | routerEntryWrite (tile : Nat) (part : Nat) (off : Nat) (val : BitVec 64)
  /-- CROSSBAR_DIVERGENCE (R381): A detected error or digest difference discards traffic and starts a retrain. -/
  | crossbarDivergence
  /-- CROSSBAR_RETRAIN_DONE (R381): The slices finish retraining and replay unacknowledged packets in circuit order. -/
  | crossbarRetrainDone (ok : Bool)
  /-- CORRECTED_LANE_ERROR (R381): A single-lane error is corrected and counted. -/
  | correctedLaneError (slice : Nat)
  /-- CELL_FIRE (R389): A fabric cell with its operands present consumes them and emits its result. -/
  | cellFire (tile : Nat) (pos : Nat)
  /-- AWL_ELEMENT (R392): An awl generates its next element address and issues its access. -/
  | awlElement (tile : Nat) (awl : Nat)
  /-- XLATE_TRANSLATE (R395): An XLATE cell translates an awl's request into an extent or fault token. -/
  | xlateTranslate (tile : Nat) (awl : Nat)
  /-- AWL_EXTENT_ANSWER (R396): An awl receives its extent, or stalls on a fault with a service request. -/
  | awlExtentAnswer (tile : Nat) (awl : Nat)
  /-- MIU_ACCESS (R397): A memory interface unit checks and performs an awl access in a burst. -/
  | miuAccess (tile : Nat) (awl : Nat)
  /-- MIU_BURST_CLOSE (R397): A burst closes after 4 clocks without a new access. -/
  | miuBurstClose (tile : Nat) (awl : Nat)
  /-- AWL_LOAD_RETURN (R392): Load data returns to an awl, which emits tokens in element order. -/
  | awlLoadReturn (tile : Nat) (awl : Nat)
  /-- PORT_ELEMENT (R398): A fabric stream port emits or writes one position. -/
  | portElement (tile : Nat) (q : Nat)
  /-- FABRIC_RUN_COMPLETE (R403): Every sink has its end and every access is performed: the run completes. -/
  | fabricRunComplete (tile : Nat)
  /-- CELL_FREEZE (R404): A node holding markers on all fed inputs forwards a marker and freezes. -/
  | cellFreeze (tile : Nat) (pos : Nat)
  /-- CUT_WRITE (R404): Once every node is frozen the cut is written and FHALT's stamp follows. -/
  | cutWrite (tile : Nat)
  /-- FREEZE_ABANDON (R406): A freeze not complete in 65,536 clocks is abandoned and the run ends with error. -/
  | freezeAbandon (tile : Nat)
  /-- PARTITION_START (R432): A START write starts a partition's root point, or is discarded and logged. -/
  | partitionStart (part : Nat)
  /-- PARTITION_REMOVE (R432): Clearing V of a stopped partition removes its ASID's translations. -/
  | partitionRemove (part : Nat)
  /-- FEATURE_LOCK (R435): A write of LOCK freezes the enable words or unfreezes them when no partition runs. -/
  | featureLock (lock : Bool)
  /-- SEGMENT_REVOKE (R430): Clearing V of a granted segment of a running partition takes its share offline. -/
  | segmentRevoke (bank : Nat) (seg : Nat)
  /-- CONTROL_SPACE_WRITE (R430): A write to a control-space word without behaviour of its own, applied or discarded and logged. -/
  | controlSpaceWrite (off : Nat) (size : Nat) (val : BitVec 64)
  /-- FRETIA_CSR_READ (R438): Fretia request reading 8 bytes of control space. -/
  | fretiaCsrRead (off : Nat)
  /-- FRETIA_CSR_WRITE (R438): Fretia request writing 8 bytes of control space. -/
  | fretiaCsrWrite (off : Nat) (val : BitVec 64)
  /-- FRETIA_BLACKBOX_READ (R438): Fretia request reading a die's black box. -/
  | fretiaBlackboxRead (die : Nat)
  /-- FRETIA_GROUP_WRITE (R384): Fretia request writing a multicast group entry, applied by all slices at one packet boundary. -/
  | fretiaGroupWrite (entry : Nat) (members : BitVec 512)
  /-- FRETIA_ATTESTATION (R437): Request for a signed attestation report. -/
  | fretiaAttestation (nonce : BitVec 256)
  /-- COLD_RESET (R436): Bring-up from step 1 with firmware verification, clearing black boxes. -/
  | coldReset (verified : Bool)
  /-- WARM_RESET (R436): Bring-up from step 2, keeping black boxes. -/
  | warmReset
  /-- RESERVED_ENCODING (R9): A hart issues a word whose major opcode, function, command kind or field value is reserved, or whose feature is not enabled, and takes a precise ILLOP. -/
  | reservedEncoding (word : BitVec 32)
  /-- INSTRUCTION_FETCH_FAULT (R247): Fetch of the next word, of a command's words or of a word a convoy examines faults in translation or permission, or returns poison, and the hart traps at that word. -/
  | instructionFetchFault (cause : Nat) (sub : Nat) (addr : BitVec 64)
  /-- AGENT_READMIT (R127): Management resets and re-admits a fenced agent after every home has finished its scrub. -/
  | agentReadmit (agent : Nat)
  /-- MANAGEMENT_SWAP (R425): Management starts a partition context swap of a region, stopping its harts at their next boundaries. -/
  | managementSwap (region : Nat)
  /-- SCALE_UP_LINK_FAILURE (R168): A link to a destination fails, and the fencing point answers join markers and traffic on the destination's behalf. -/
  | scaleUpLinkFailure (dest : Nat)
deriving DecidableEq, Repr

end Sys2Proof
end

