-- ==== Sys2Proof/WellFormed.lean ====
section
/-! DEFINITION. Which field values of an instruction are not reserved: the checks of R242 to R245, R218, R221, R344 and R346
that the bits of a word alone decide (row 3 of R247). -/

namespace Sys2Proof

/-- Scope codes 0 to 6; code 7 raises ILLOP (R242). -/
def scopeOk (c : BitVec 3) : Bool := c != 7

/-- Rounding codes 5 and 6 are reserved (R218). -/
def roundingOk (m : BitVec 3) : Bool := m != 5 && m != 6

/-- In a 5-bit field 1 to 7 name m1 to m7; other values raise ILLOP (R235). -/
def maskRegOk (r : BitVec 5) : Bool := 1 ≤ r.toNat && r.toNat ≤ 7

/-- Completion fields (R346): with ADD = 0, CTR and CTILE are zero fields; SZ is zero but for RAMO and RRED. -/
def compOk (c : Comp) (szUsed : Bool) : Bool :=
  (szUsed || !c.sz) && (c.add != 0 || (c.ctr == 0 && c.ctile == 0))

/-- The follow-on MMA of a COPY: accumulator types 2 and 3 are ILLOP (R348). -/
def followOk (f : Option Follow) : Bool :=
  match f with
  | none => true
  | some x => x.mty.toNat ≤ 1

/-- Holder units of RSV and URSV: 0 to 7, 8, 16 to 31 (R353). -/
def hunitOk (h : BitVec 5) : Bool := h.toNat ≤ 8 || 16 ≤ h.toNat

/-- The instruction's fields hold no reserved value. Steps of units carry no encoding: no word stands for one. -/
def Instr.wellFormed (x : Instr) : Bool :=
  match x with
  | .add _ _ _ _ _ _ => true
  | .sub _ _ _ _ _ _ => true
  | .mul _ _ _ _ _ _ => true
  | .mulh _ _ _ _ _ => true
  | .mulhu _ _ _ _ _ => true
  | .div _ _ _ _ _ => true
  | .divu _ _ _ _ _ => true
  | .rem _ _ _ _ _ => true
  | .remu _ _ _ _ _ => true
  | .and _ _ _ _ _ => true
  | .or _ _ _ _ _ => true
  | .xor _ _ _ _ _ => true
  | .andn _ _ _ _ _ => true
  | .orn _ _ _ _ _ => true
  | .sll _ _ _ _ _ _ => true
  | .srl _ _ _ _ _ _ => true
  | .sra _ _ _ _ _ _ => true
  | .rol _ _ _ _ _ _ => true
  | .ror _ _ _ _ _ _ => true
  | .slt _ _ _ _ _ => true
  | .sltu _ _ _ _ _ => true
  | .min _ _ _ _ _ => true
  | .max _ _ _ _ _ => true
  | .minu _ _ _ _ _ => true
  | .maxu _ _ _ _ _ => true
  | .clz _ _ _ _ => true
  | .ctz _ _ _ _ => true
  | .popc _ _ _ _ => true
  | .bswap _ _ _ => true
  | .sext _ _ s _ => s.toNat ≤ 2
  | .zext _ _ s _ => s.toNat ≤ 2
  | .cmov _ _ _ _ _ => true
  | .hmix _ _ _ _ _ => true
  | .crc32c _ _ _ _ _ => true
  | .addi _ _ _ _ => true
  | .andi _ _ _ _ => true
  | .ori _ _ _ _ => true
  | .xori _ _ _ _ => true
  | .slti _ _ _ _ => true
  | .sltiu _ _ _ _ => true
  | .slli _ _ _ n w => (!w || n.toNat < 32)
  | .srli _ _ _ n w => (!w || n.toNat < 32)
  | .srai _ _ _ n w => (!w || n.toNat < 32)
  | .rori _ _ _ n w => (!w || n.toNat < 32)
  | .movhi _ _ => true
  | .addpc _ _ => true
  | .fadd _ _ _ _ _ _ m => roundingOk m
  | .fsub _ _ _ _ _ _ m => roundingOk m
  | .fmul _ _ _ _ _ _ m => roundingOk m
  | .fdiv _ _ _ _ _ _ m => roundingOk m
  | .fsqrt _ _ _ _ m => roundingOk m
  | .fma _ _ _ _ _ _ m => roundingOk m
  | .fnma _ _ _ _ _ _ m => roundingOk m
  | .fmin _ _ _ _ _ _ => true
  | .fmax _ _ _ _ _ _ => true
  | .feq _ _ _ _ _ _ => true
  | .flt _ _ _ _ _ _ => true
  | .fle _ _ _ _ _ _ => true
  | .fcvt _ _ s _ _ m => roundingOk m && s.toNat ≤ 4
  | .fclass _ _ _ _ => true
  | .beq _ _ _ => true
  | .bne _ _ _ => true
  | .blt _ _ _ => true
  | .bge _ _ _ => true
  | .bltu _ _ _ => true
  | .bgeu _ _ _ => true
  | .jal _ _ => true
  | .jalr _ _ _ _ => true
  | .ld _ _ z u _ _ => !(u && z == 3)
  | .st _ _ _ _ _ => true
  | .ldo _ _ z u e c _ => !(u && z == 3) && (e == 0 || e == 1) && scopeOk c
  | .sto _ _ _ e c _ => (e == 0 || e == 2) && scopeOk c
  | .amoSwap _ _ _ _ e c _ => scopeOk c && (e != 0 || c == 0)
  | .amoCas _ _ _ _ e c _ => scopeOk c && (e != 0 || c == 0)
  | .amoAdd _ _ _ _ e c _ => scopeOk c && (e != 0 || c == 0)
  | .amoAnd _ _ _ _ e c _ => scopeOk c && (e != 0 || c == 0)
  | .amoOr _ _ _ _ e c _ => scopeOk c && (e != 0 || c == 0)
  | .amoXor _ _ _ _ e c _ => scopeOk c && (e != 0 || c == 0)
  | .amoMin _ _ _ _ e c _ => scopeOk c && (e != 0 || c == 0)
  | .amoMax _ _ _ _ e c _ => scopeOk c && (e != 0 || c == 0)
  | .amoMinu _ _ _ _ e c _ => scopeOk c && (e != 0 || c == 0)
  | .amoMaxu _ _ _ _ e c _ => scopeOk c && (e != 0 || c == 0)
  | .amoFadd _ _ _ _ e c _ => scopeOk c && (e != 0 || c == 0)
  | .redAdd _ _ _ e c _ => scopeOk c && (e == 0 || e == 2) && (e != 0 || c == 0)
  | .redAnd _ _ _ e c _ => scopeOk c && (e == 0 || e == 2) && (e != 0 || c == 0)
  | .redOr _ _ _ e c _ => scopeOk c && (e == 0 || e == 2) && (e != 0 || c == 0)
  | .redXor _ _ _ e c _ => scopeOk c && (e == 0 || e == 2) && (e != 0 || c == 0)
  | .redMin _ _ _ e c _ => scopeOk c && (e == 0 || e == 2) && (e != 0 || c == 0)
  | .redMax _ _ _ e c _ => scopeOk c && (e == 0 || e == 2) && (e != 0 || c == 0)
  | .redMinu _ _ _ e c _ => scopeOk c && (e == 0 || e == 2) && (e != 0 || c == 0)
  | .redMaxu _ _ _ e c _ => scopeOk c && (e == 0 || e == 2) && (e != 0 || c == 0)
  | .redFadd _ _ _ e c _ => scopeOk c && (e == 0 || e == 2) && (e != 0 || c == 0)
  | .fence c _ _ => scopeOk c
  | .watch _ => true
  | .waitw _ _ c _ => scopeOk c
  | .bar _ _ c => scopeOk c
  | .arrive _ _ c => scopeOk c
  | .waitb _ _ c => scopeOk c
  | .mfc _ _ => true
  | .mtc _ _ _ => true
  | .mtci _ _ => true
  | .crsb _ _ _ => true
  | .crcb _ _ _ => true
  | .tsackRetry _ _ => true
  | .tsackFail _ _ => true
  | .tsackFrame _ _ => true
  | .tsackInvalid _ _ _ => true
  | .nendWrite _ => true
  | .watermarkWrite _ _ => true
  | .trap _ => true
  | .rfe => true
  | .halt _ => true
  | .yield _ => true
  | .yieldExpire _ => true
  | .brk => true
  | .shoot _ _ => true
  | .shootBroadcast _ => true
  | .shootDrop _ _ => true
  | .shootAck _ _ => true
  | .shootComplete _ => true
  | .cwb _ _ => true
  | .cinv _ => true
  | .cinvRange _ h => h != 0
  | .cflush _ _ => true
  | .vcdef _ _ => true
  | .vcdefProceed _ => true
  | .vcqry _ _ => true
  | .launch _ _ _ => true
  | .retire => true
  | .ctradd _ _ => true
  | .ctrrd _ _ => true
  | .ctrset _ _ => true
  | .setvl _ _ e f l m c => e.toNat ≤ 4 && l.toNat ≤ 5 && roundingOk m && scopeOk c && (e.toNat ≤ 1 || l == 0) && (e != 2 || f.toNat ≤ 1) && (e.toNat ≤ 2 || f == 0)
  | .vadd _ _ _ _ _ _ _ => true
  | .vsub _ _ _ _ _ _ _ => true
  | .vmul _ _ _ _ _ _ _ => true
  | .vmulh _ _ _ _ _ _ _ => true
  | .vmulhu _ _ _ _ _ _ _ => true
  | .vand _ _ _ _ _ _ _ => true
  | .vor _ _ _ _ _ _ _ => true
  | .vxor _ _ _ _ _ _ _ => true
  | .vsll _ _ _ _ _ _ _ => true
  | .vsrl _ _ _ _ _ _ _ => true
  | .vsra _ _ _ _ _ _ _ => true
  | .vmin _ _ _ _ _ _ _ => true
  | .vmax _ _ _ _ _ _ _ => true
  | .vminu _ _ _ _ _ _ _ => true
  | .vmaxu _ _ _ _ _ _ _ => true
  | .vabsd _ _ _ _ _ _ _ => true
  | .vadds _ _ _ _ _ _ _ => true
  | .vsubs _ _ _ _ _ _ _ => true
  | .vaddus _ _ _ _ _ _ _ => true
  | .vsubus _ _ _ _ _ _ _ => true
  | .vdot4 _ _ _ _ _ _ _ => true
  | .vmac _ _ _ _ _ _ _ => true
  | .vfadd _ _ _ _ _ _ _ => true
  | .vfsub _ _ _ _ _ _ _ => true
  | .vfmul _ _ _ _ _ _ _ => true
  | .vfma _ _ _ _ _ _ _ => true
  | .vfnma _ _ _ _ _ _ _ => true
  | .vfdiv _ _ _ _ _ _ _ => true
  | .vfsqrt _ _ _ _ _ => true
  | .vfmin _ _ _ _ _ _ _ => true
  | .vfmax _ _ _ _ _ _ _ => true
  | .vfabs _ _ _ _ _ => true
  | .vfneg _ _ _ _ _ => true
  | .vfscl _ _ _ _ _ _ _ => true
  | .vsfuExp2 _ _ _ _ _ => true
  | .vsfuLog2 _ _ _ _ _ => true
  | .vsfuRcp _ _ _ _ _ => true
  | .vsfuRsqrt _ _ _ _ _ => true
  | .vsfuSin _ _ _ _ _ => true
  | .vsfuCos _ _ _ _ _ => true
  | .vsfuTanh _ _ _ _ _ => true
  | .vsfuSigm _ _ _ _ _ => true
  | .vcmp d _ _ _ _ _ _ n => maskRegOk d && n.toNat ≤ 7
  | .vfcmp d _ _ _ _ _ _ n => maskRegOk d && (n.toNat ≤ 5 || n == 8)
  | .mand d a b _ _ _ => maskRegOk d && maskRegOk a && maskRegOk b
  | .mor d a b _ _ _ => maskRegOk d && maskRegOk a && maskRegOk b
  | .mxor d a b _ _ _ => maskRegOk d && maskRegOk a && maskRegOk b
  | .mandn d a b _ _ _ => maskRegOk d && maskRegOk a && maskRegOk b
  | .mnot d a _ _ _ => maskRegOk d && maskRegOk a
  | .mpopc _ a _ _ _ => maskRegOk a
  | .mfirst _ a _ _ _ => maskRegOk a
  | .mset d _ _ _ => maskRegOk d
  | .mclr d _ _ _ => maskRegOk d
  | .vperm _ _ _ _ _ _ => true
  | .vslideup _ _ _ _ _ _ => true
  | .vslidedn _ _ _ _ _ _ => true
  | .vcompress _ _ _ _ _ => true
  | .vexpand _ _ _ _ _ => true
  | .vscan _ _ n _ _ _ => n.toNat ≤ 7
  | .vfscan _ _ n _ _ _ => n.toNat ≤ 2
  | .vrowbc _ _ _ _ _ _ => true
  | .vredSum _ _ _ _ _ => true
  | .vredMax _ _ _ _ _ => true
  | .vredMin _ _ _ _ _ => true
  | .vredAnd _ _ _ _ _ => true
  | .vredOr _ _ _ _ _ => true
  | .vredXor _ _ _ _ _ => true
  | .vredMaxu _ _ _ _ _ => true
  | .vredMinu _ _ _ _ _ => true
  | .vfredSum _ _ _ _ _ => true
  | .vfredMax _ _ _ _ _ => true
  | .vfredMin _ _ _ _ _ => true
  | .vcvth _ _ i f _ _ _ => (!i || f == 0)
  | .vcvtd _ _ u i f _ _ _ => (!i || f == 0) && (!u || i)
  | .vcvti2f _ _ _ _ _ _ => true
  | .vcvtf2i _ _ _ _ _ _ => true
  | .vcvt8 _ _ _ _ _ => true
  | .vcvts _ _ _ _ _ => true
  | .vmv _ _ _ _ _ => true
  | .vbcast _ _ _ _ _ => true
  | .vextr _ _ _ _ _ => true
  | .vins _ _ _ _ _ _ => true
  | .vsel _ _ _ k _ _ => k != 0
  | .vmrank _ _ _ _ => true
  | .vscld _ _ _ _ _ => true
  | .vscst _ _ _ _ _ => true
  | .vld _ _ _ _ _ _ _ e => e.toNat ≤ 1
  | .vldStr _ _ _ _ _ _ _ _ e => e.toNat ≤ 1
  | .vldX _ _ _ _ _ _ _ _ e => e.toNat ≤ 1
  | .vldChk _ _ _ _ _ _ _ _ e => e.toNat ≤ 1
  | .vst _ _ _ _ _ _ _ e => e.toNat ≤ 1
  | .vstStr _ _ _ _ _ _ _ _ e => e.toNat ≤ 1
  | .vstX _ _ _ _ _ _ _ _ e => e.toNat ≤ 1
  | .vamoAdd _ _ _ _ _ _ _ _ => true
  | .vamoMin _ _ _ _ _ _ _ _ => true
  | .vamoMax _ _ _ _ _ _ _ _ => true
  | .vamoOr _ _ _ _ _ _ _ _ => true
  | .vamoFadd _ _ _ _ _ _ _ _ => true
  | .vhash _ _ _ _ _ _ => true
  | .vbucket _ _ _ _ _ _ => true
  | .vconf _ _ _ _ _ => true
  | .vstrcmp _ _ _ _ _ _ => true
  | .vstrhash _ _ _ _ _ _ => true
  | .setrc _ _ => true
  | .vsplit _ n _ => (n == 1 || n == 2)
  | .vmerge => true
  | .vpark => true
  | .convoyIssue _ => true
  | .mld _ _ _ _ _ => true
  | .mst _ _ _ _ _ => true
  | .mma _ _ _ _ _ _ _ y => y.toNat ≤ 1
  | .mzero _ _ => true
  | .macc2v _ _ _ => true
  | .macc2t _ _ _ => true
  | .msync _ => true
  | .mmaBegin _ => true
  | .matrixOpComplete _ _ => true
  | .copyLin _ c f => compOk c false && followOk f
  | .copyDeint _ c f _ _ => compOk c false && followOk f && true
  | .copyPerm _ c f _ _ => compOk c false && followOk f
  | .copyVreg _ c f => compOk c false && followOk f
  | .copyTile _ c f => compOk c false && followOk f
  | .strm _ _ c _ _ _ _ => compOk c false
  | .unstrm _ => true
  | .rsv _ c _ _ mode hunit => compOk c false && mode != 3 && hunitOk hunit
  | .ursv _ c hunit => compOk c false && hunitOk hunit
  | .nodeNest _ => true
  | .nodeCmd _ => true
  | .put _ c _ _ => compOk c false
  | .get _ c _ => compOk c false
  | .ramo r c _ func => compOk c true && func.toNat ≤ 10 && (func == 1 || r.gc == 0)
  | .rred _ c _ _ func => compOk c true && func.toNat ≤ 9
  | .mcast _ c _ _ => compOk c false
  | .tpost _ _ gc _ act _ => (act == 1 || gc == 0)
  | .tcancel _ _ _ => true
  | .fcfg _ _ c => compOk c false
  | .frun _ _ c => compOk c false
  | .frunResume _ _ c => compOk c false
  | .fhalt _ _ c => compOk c false
  | .commandAccept _ => true
  | .copyBegin _ => true
  | .copyTransfer _ _ => true
  | .commandComplete _ _ => true
  | .commandNodeBegin _ _ => true
  | .streamEngineAccess _ _ => true
  | .streamComplete _ _ => true
  | .counterRaise _ _ _ => true
  | .postExamine _ _ => true
  | .firedOpHandoff _ => true
  | .counterRunGrant _ _ _ => true
  | .counterRunRevoke _ _ => true
  | .walkComplete _ _ _ _ _ => true
  | .tsqRecordWrite _ => true
  | .gets _ _ => true
  | .getm _ _ => true
  | .upg _ _ => true
  | .puts _ _ => true
  | .putm _ _ _ => true
  | .rdat _ _ _ => true
  | .done _ _ => true
  | .data _ _ _ _ _ => true
  | .gnt _ _ _ => true
  | .inv _ _ _ _ => true
  | .rcls _ _ _ => true
  | .rcli _ _ _ => true
  | .iack _ _ _ => true
  | .pack _ _ => true
  | .err _ _ => true
  | .homeServedAccess _ => true
  | .homeAtomic _ => true
  | .move _ _ _ _ _ _ => true
  | .mack _ _ _ => true
  | .mnak _ _ _ => true
  | .migrationSweep _ _ => true
  | .migrationEnd _ _ => true
  | .drainSweep _ _ => true
  | .drainDone _ _ => true
  | .correctedBankError _ _ => true
  | .uncorrectableBankError _ _ => true
  | .pieceRegister _ => true
  | .positionQuery _ _ => true
  | .positionAnswer _ _ => true
  | .pieceEnd _ => true
  | .hostMemRead _ _ => true
  | .hostMemInv _ => true
  | .hostMemWrite _ _ => true
  | .hostMemCleanEvict _ => true
  | .biResponse _ _ _ => true
  | .biConflict _ => true
  | .h2dSnpData _ => true
  | .h2dSnpInv _ => true
  | .h2dSnpCur _ => true
  | .h2dResponse _ _ => true
  | .heartbeatMiss _ => true
  | .hostLinkFail _ => true
  | .scrubStep _ => true
  | .storeSend _ => true
  | .storeAck _ _ => true
  | .mergeFlushIdle _ _ => true
  | .joinMarkers _ => true
  | .joinMarkerArrive _ _ => true
  | .jackSend _ _ => true
  | .jackArrive _ _ => true
  | .monitorNotify _ => true
  | .watermarkRelease _ => true
  | .loadDataReturn _ => true
  | .dispatchDecision _ => true
  | .poolEntryTaken _ _ => true
  | .pointSetAside _ => true
  | .pointRestore _ _ => true
  | .quantumExpiry _ => true
  | .contextSwapBegin _ => true
  | .contextSwapComplete _ => true
  | .laneStepChange _ _ => true
  | .thermalHalt => true
  | .incomingPut _ _ => true
  | .incomingGet _ _ => true
  | .incomingRamo _ _ _ _ _ => true
  | .incomingRred _ _ _ _ => true
  | .incomingMcast _ _ => true
  | .podAnswer _ _ _ _ _ _ => true
  | .mcastRoute _ _ => true
  | .mcastMemberAnswer _ _ _ _ => true
  | .podMergeSend _ => true
  | .routerContribution _ => true
  | .routerElementTimeout _ _ => true
  | .routerAnswer _ _ _ => true
  | .routerReplicate _ _ _ _ => true
  | .routerEntryWrite _ _ _ _ => true
  | .crossbarDivergence => true
  | .crossbarRetrainDone _ => true
  | .correctedLaneError _ => true
  | .cellFire _ _ => true
  | .awlElement _ _ => true
  | .xlateTranslate _ _ => true
  | .awlExtentAnswer _ _ => true
  | .miuAccess _ _ => true
  | .miuBurstClose _ _ => true
  | .awlLoadReturn _ _ => true
  | .portElement _ _ => true
  | .fabricRunComplete _ => true
  | .cellFreeze _ _ => true
  | .cutWrite _ => true
  | .freezeAbandon _ => true
  | .partitionStart _ => true
  | .partitionRemove _ => true
  | .featureLock _ => true
  | .segmentRevoke _ _ => true
  | .controlSpaceWrite _ _ _ => true
  | .fretiaCsrRead _ => true
  | .fretiaCsrWrite _ _ => true
  | .fretiaBlackboxRead _ => true
  | .fretiaGroupWrite _ _ => true
  | .fretiaAttestation _ => true
  | .coldReset _ => true
  | .warmReset => true
  | .reservedEncoding _ => true
  | .instructionFetchFault _ _ _ => true
  | .agentReadmit _ => true
  | .managementSwap _ => true
  | .scaleUpLinkFailure _ => true

/-- The instruction has an encoding: one word of R238 or R239, or the four words of R240. -/
def Instr.encoded (x : Instr) : Bool :=
  match x with
  | .add _ _ _ _ _ _ => true
  | .sub _ _ _ _ _ _ => true
  | .mul _ _ _ _ _ _ => true
  | .mulh _ _ _ _ _ => true
  | .mulhu _ _ _ _ _ => true
  | .div _ _ _ _ _ => true
  | .divu _ _ _ _ _ => true
  | .rem _ _ _ _ _ => true
  | .remu _ _ _ _ _ => true
  | .and _ _ _ _ _ => true
  | .or _ _ _ _ _ => true
  | .xor _ _ _ _ _ => true
  | .andn _ _ _ _ _ => true
  | .orn _ _ _ _ _ => true
  | .sll _ _ _ _ _ _ => true
  | .srl _ _ _ _ _ _ => true
  | .sra _ _ _ _ _ _ => true
  | .rol _ _ _ _ _ _ => true
  | .ror _ _ _ _ _ _ => true
  | .slt _ _ _ _ _ => true
  | .sltu _ _ _ _ _ => true
  | .min _ _ _ _ _ => true
  | .max _ _ _ _ _ => true
  | .minu _ _ _ _ _ => true
  | .maxu _ _ _ _ _ => true
  | .clz _ _ _ _ => true
  | .ctz _ _ _ _ => true
  | .popc _ _ _ _ => true
  | .bswap _ _ _ => true
  | .sext _ _ _ _ => true
  | .zext _ _ _ _ => true
  | .cmov _ _ _ _ _ => true
  | .hmix _ _ _ _ _ => true
  | .crc32c _ _ _ _ _ => true
  | .addi _ _ _ _ => true
  | .andi _ _ _ _ => true
  | .ori _ _ _ _ => true
  | .xori _ _ _ _ => true
  | .slti _ _ _ _ => true
  | .sltiu _ _ _ _ => true
  | .slli _ _ _ _ _ => true
  | .srli _ _ _ _ _ => true
  | .srai _ _ _ _ _ => true
  | .rori _ _ _ _ _ => true
  | .movhi _ _ => true
  | .addpc _ _ => true
  | .fadd _ _ _ _ _ _ _ => true
  | .fsub _ _ _ _ _ _ _ => true
  | .fmul _ _ _ _ _ _ _ => true
  | .fdiv _ _ _ _ _ _ _ => true
  | .fsqrt _ _ _ _ _ => true
  | .fma _ _ _ _ _ _ _ => true
  | .fnma _ _ _ _ _ _ _ => true
  | .fmin _ _ _ _ _ _ => true
  | .fmax _ _ _ _ _ _ => true
  | .feq _ _ _ _ _ _ => true
  | .flt _ _ _ _ _ _ => true
  | .fle _ _ _ _ _ _ => true
  | .fcvt _ _ _ _ _ _ => true
  | .fclass _ _ _ _ => true
  | .beq _ _ _ => true
  | .bne _ _ _ => true
  | .blt _ _ _ => true
  | .bge _ _ _ => true
  | .bltu _ _ _ => true
  | .bgeu _ _ _ => true
  | .jal _ _ => true
  | .jalr _ _ _ _ => true
  | .ld _ _ _ _ _ _ => true
  | .st _ _ _ _ _ => true
  | .ldo _ _ _ _ _ _ _ => true
  | .sto _ _ _ _ _ _ => true
  | .amoSwap _ _ _ _ _ _ _ => true
  | .amoCas _ _ _ _ _ _ _ => true
  | .amoAdd _ _ _ _ _ _ _ => true
  | .amoAnd _ _ _ _ _ _ _ => true
  | .amoOr _ _ _ _ _ _ _ => true
  | .amoXor _ _ _ _ _ _ _ => true
  | .amoMin _ _ _ _ _ _ _ => true
  | .amoMax _ _ _ _ _ _ _ => true
  | .amoMinu _ _ _ _ _ _ _ => true
  | .amoMaxu _ _ _ _ _ _ _ => true
  | .amoFadd _ _ _ _ _ _ _ => true
  | .redAdd _ _ _ _ _ _ => true
  | .redAnd _ _ _ _ _ _ => true
  | .redOr _ _ _ _ _ _ => true
  | .redXor _ _ _ _ _ _ => true
  | .redMin _ _ _ _ _ _ => true
  | .redMax _ _ _ _ _ _ => true
  | .redMinu _ _ _ _ _ _ => true
  | .redMaxu _ _ _ _ _ _ => true
  | .redFadd _ _ _ _ _ _ => true
  | .fence _ _ _ => true
  | .watch _ => true
  | .waitw _ _ _ _ => true
  | .bar _ _ _ => true
  | .arrive _ _ _ => true
  | .waitb _ _ _ => true
  | .mfc _ _ => true
  | .mtc _ _ _ => true
  | .mtci _ _ => true
  | .crsb _ _ _ => true
  | .crcb _ _ _ => true
  | .tsackRetry _ _ => false
  | .tsackFail _ _ => false
  | .tsackFrame _ _ => false
  | .tsackInvalid _ _ _ => false
  | .nendWrite _ => false
  | .watermarkWrite _ _ => false
  | .trap _ => true
  | .rfe => true
  | .halt _ => true
  | .yield _ => true
  | .yieldExpire _ => false
  | .brk => true
  | .shoot _ _ => true
  | .shootBroadcast _ => false
  | .shootDrop _ _ => false
  | .shootAck _ _ => false
  | .shootComplete _ => false
  | .cwb _ _ => true
  | .cinv _ => true
  | .cinvRange _ _ => true
  | .cflush _ _ => true
  | .vcdef _ _ => true
  | .vcdefProceed _ => false
  | .vcqry _ _ => true
  | .launch _ _ _ => true
  | .retire => true
  | .ctradd _ _ => true
  | .ctrrd _ _ => true
  | .ctrset _ _ => true
  | .setvl _ _ _ _ _ _ _ => true
  | .vadd _ _ _ _ _ _ _ => true
  | .vsub _ _ _ _ _ _ _ => true
  | .vmul _ _ _ _ _ _ _ => true
  | .vmulh _ _ _ _ _ _ _ => true
  | .vmulhu _ _ _ _ _ _ _ => true
  | .vand _ _ _ _ _ _ _ => true
  | .vor _ _ _ _ _ _ _ => true
  | .vxor _ _ _ _ _ _ _ => true
  | .vsll _ _ _ _ _ _ _ => true
  | .vsrl _ _ _ _ _ _ _ => true
  | .vsra _ _ _ _ _ _ _ => true
  | .vmin _ _ _ _ _ _ _ => true
  | .vmax _ _ _ _ _ _ _ => true
  | .vminu _ _ _ _ _ _ _ => true
  | .vmaxu _ _ _ _ _ _ _ => true
  | .vabsd _ _ _ _ _ _ _ => true
  | .vadds _ _ _ _ _ _ _ => true
  | .vsubs _ _ _ _ _ _ _ => true
  | .vaddus _ _ _ _ _ _ _ => true
  | .vsubus _ _ _ _ _ _ _ => true
  | .vdot4 _ _ _ _ _ _ _ => true
  | .vmac _ _ _ _ _ _ _ => true
  | .vfadd _ _ _ _ _ _ _ => true
  | .vfsub _ _ _ _ _ _ _ => true
  | .vfmul _ _ _ _ _ _ _ => true
  | .vfma _ _ _ _ _ _ _ => true
  | .vfnma _ _ _ _ _ _ _ => true
  | .vfdiv _ _ _ _ _ _ _ => true
  | .vfsqrt _ _ _ _ _ => true
  | .vfmin _ _ _ _ _ _ _ => true
  | .vfmax _ _ _ _ _ _ _ => true
  | .vfabs _ _ _ _ _ => true
  | .vfneg _ _ _ _ _ => true
  | .vfscl _ _ _ _ _ _ _ => true
  | .vsfuExp2 _ _ _ _ _ => true
  | .vsfuLog2 _ _ _ _ _ => true
  | .vsfuRcp _ _ _ _ _ => true
  | .vsfuRsqrt _ _ _ _ _ => true
  | .vsfuSin _ _ _ _ _ => true
  | .vsfuCos _ _ _ _ _ => true
  | .vsfuTanh _ _ _ _ _ => true
  | .vsfuSigm _ _ _ _ _ => true
  | .vcmp _ _ _ _ _ _ _ _ => true
  | .vfcmp _ _ _ _ _ _ _ _ => true
  | .mand _ _ _ _ _ _ => true
  | .mor _ _ _ _ _ _ => true
  | .mxor _ _ _ _ _ _ => true
  | .mandn _ _ _ _ _ _ => true
  | .mnot _ _ _ _ _ => true
  | .mpopc _ _ _ _ _ => true
  | .mfirst _ _ _ _ _ => true
  | .mset _ _ _ _ => true
  | .mclr _ _ _ _ => true
  | .vperm _ _ _ _ _ _ => true
  | .vslideup _ _ _ _ _ _ => true
  | .vslidedn _ _ _ _ _ _ => true
  | .vcompress _ _ _ _ _ => true
  | .vexpand _ _ _ _ _ => true
  | .vscan _ _ _ _ _ _ => true
  | .vfscan _ _ _ _ _ _ => true
  | .vrowbc _ _ _ _ _ _ => true
  | .vredSum _ _ _ _ _ => true
  | .vredMax _ _ _ _ _ => true
  | .vredMin _ _ _ _ _ => true
  | .vredAnd _ _ _ _ _ => true
  | .vredOr _ _ _ _ _ => true
  | .vredXor _ _ _ _ _ => true
  | .vredMaxu _ _ _ _ _ => true
  | .vredMinu _ _ _ _ _ => true
  | .vfredSum _ _ _ _ _ => true
  | .vfredMax _ _ _ _ _ => true
  | .vfredMin _ _ _ _ _ => true
  | .vcvth _ _ _ _ _ _ _ => true
  | .vcvtd _ _ _ _ _ _ _ _ => true
  | .vcvti2f _ _ _ _ _ _ => true
  | .vcvtf2i _ _ _ _ _ _ => true
  | .vcvt8 _ _ _ _ _ => true
  | .vcvts _ _ _ _ _ => true
  | .vmv _ _ _ _ _ => true
  | .vbcast _ _ _ _ _ => true
  | .vextr _ _ _ _ _ => true
  | .vins _ _ _ _ _ _ => true
  | .vsel _ _ _ _ _ _ => true
  | .vmrank _ _ _ _ => true
  | .vscld _ _ _ _ _ => true
  | .vscst _ _ _ _ _ => true
  | .vld _ _ _ _ _ _ _ _ => true
  | .vldStr _ _ _ _ _ _ _ _ _ => true
  | .vldX _ _ _ _ _ _ _ _ _ => true
  | .vldChk _ _ _ _ _ _ _ _ _ => true
  | .vst _ _ _ _ _ _ _ _ => true
  | .vstStr _ _ _ _ _ _ _ _ _ => true
  | .vstX _ _ _ _ _ _ _ _ _ => true
  | .vamoAdd _ _ _ _ _ _ _ _ => true
  | .vamoMin _ _ _ _ _ _ _ _ => true
  | .vamoMax _ _ _ _ _ _ _ _ => true
  | .vamoOr _ _ _ _ _ _ _ _ => true
  | .vamoFadd _ _ _ _ _ _ _ _ => true
  | .vhash _ _ _ _ _ _ => true
  | .vbucket _ _ _ _ _ _ => true
  | .vconf _ _ _ _ _ => true
  | .vstrcmp _ _ _ _ _ _ => true
  | .vstrhash _ _ _ _ _ _ => true
  | .setrc _ _ => true
  | .vsplit _ _ _ => true
  | .vmerge => true
  | .vpark => true
  | .convoyIssue _ => false
  | .mld _ _ _ _ _ => true
  | .mst _ _ _ _ _ => true
  | .mma _ _ _ _ _ _ _ _ => true
  | .mzero _ _ => true
  | .macc2v _ _ _ => true
  | .macc2t _ _ _ => true
  | .msync _ => true
  | .mmaBegin _ => false
  | .matrixOpComplete _ _ => false
  | .copyLin _ _ _ => true
  | .copyDeint _ _ _ _ _ => true
  | .copyPerm _ _ _ _ _ => true
  | .copyVreg _ _ _ => true
  | .copyTile _ _ _ => true
  | .strm _ _ _ _ _ _ _ => true
  | .unstrm _ => true
  | .rsv _ _ _ _ _ _ => true
  | .ursv _ _ _ => true
  | .nodeNest _ => true
  | .nodeCmd _ => true
  | .put _ _ _ _ => true
  | .get _ _ _ => true
  | .ramo _ _ _ _ => true
  | .rred _ _ _ _ _ => true
  | .mcast _ _ _ _ => true
  | .tpost _ _ _ _ _ _ => true
  | .tcancel _ _ _ => true
  | .fcfg _ _ _ => true
  | .frun _ _ _ => true
  | .frunResume _ _ _ => true
  | .fhalt _ _ _ => true
  | .commandAccept _ => false
  | .copyBegin _ => false
  | .copyTransfer _ _ => false
  | .commandComplete _ _ => false
  | .commandNodeBegin _ _ => false
  | .streamEngineAccess _ _ => false
  | .streamComplete _ _ => false
  | .counterRaise _ _ _ => false
  | .postExamine _ _ => false
  | .firedOpHandoff _ => false
  | .counterRunGrant _ _ _ => false
  | .counterRunRevoke _ _ => false
  | .walkComplete _ _ _ _ _ => false
  | .tsqRecordWrite _ => false
  | .gets _ _ => false
  | .getm _ _ => false
  | .upg _ _ => false
  | .puts _ _ => false
  | .putm _ _ _ => false
  | .rdat _ _ _ => false
  | .done _ _ => false
  | .data _ _ _ _ _ => false
  | .gnt _ _ _ => false
  | .inv _ _ _ _ => false
  | .rcls _ _ _ => false
  | .rcli _ _ _ => false
  | .iack _ _ _ => false
  | .pack _ _ => false
  | .err _ _ => false
  | .homeServedAccess _ => false
  | .homeAtomic _ => false
  | .move _ _ _ _ _ _ => false
  | .mack _ _ _ => false
  | .mnak _ _ _ => false
  | .migrationSweep _ _ => false
  | .migrationEnd _ _ => false
  | .drainSweep _ _ => false
  | .drainDone _ _ => false
  | .correctedBankError _ _ => false
  | .uncorrectableBankError _ _ => false
  | .pieceRegister _ => false
  | .positionQuery _ _ => false
  | .positionAnswer _ _ => false
  | .pieceEnd _ => false
  | .hostMemRead _ _ => false
  | .hostMemInv _ => false
  | .hostMemWrite _ _ => false
  | .hostMemCleanEvict _ => false
  | .biResponse _ _ _ => false
  | .biConflict _ => false
  | .h2dSnpData _ => false
  | .h2dSnpInv _ => false
  | .h2dSnpCur _ => false
  | .h2dResponse _ _ => false
  | .heartbeatMiss _ => false
  | .hostLinkFail _ => false
  | .scrubStep _ => false
  | .storeSend _ => false
  | .storeAck _ _ => false
  | .mergeFlushIdle _ _ => false
  | .joinMarkers _ => false
  | .joinMarkerArrive _ _ => false
  | .jackSend _ _ => false
  | .jackArrive _ _ => false
  | .monitorNotify _ => false
  | .watermarkRelease _ => false
  | .loadDataReturn _ => false
  | .dispatchDecision _ => false
  | .poolEntryTaken _ _ => false
  | .pointSetAside _ => false
  | .pointRestore _ _ => false
  | .quantumExpiry _ => false
  | .contextSwapBegin _ => false
  | .contextSwapComplete _ => false
  | .laneStepChange _ _ => false
  | .thermalHalt => false
  | .incomingPut _ _ => false
  | .incomingGet _ _ => false
  | .incomingRamo _ _ _ _ _ => false
  | .incomingRred _ _ _ _ => false
  | .incomingMcast _ _ => false
  | .podAnswer _ _ _ _ _ _ => false
  | .mcastRoute _ _ => false
  | .mcastMemberAnswer _ _ _ _ => false
  | .podMergeSend _ => false
  | .routerContribution _ => false
  | .routerElementTimeout _ _ => false
  | .routerAnswer _ _ _ => false
  | .routerReplicate _ _ _ _ => false
  | .routerEntryWrite _ _ _ _ => false
  | .crossbarDivergence => false
  | .crossbarRetrainDone _ => false
  | .correctedLaneError _ => false
  | .cellFire _ _ => false
  | .awlElement _ _ => false
  | .xlateTranslate _ _ => false
  | .awlExtentAnswer _ _ => false
  | .miuAccess _ _ => false
  | .miuBurstClose _ _ => false
  | .awlLoadReturn _ _ => false
  | .portElement _ _ => false
  | .fabricRunComplete _ => false
  | .cellFreeze _ _ => false
  | .cutWrite _ => false
  | .freezeAbandon _ => false
  | .partitionStart _ => false
  | .partitionRemove _ => false
  | .featureLock _ => false
  | .segmentRevoke _ _ => false
  | .controlSpaceWrite _ _ _ => false
  | .fretiaCsrRead _ => false
  | .fretiaCsrWrite _ _ => false
  | .fretiaBlackboxRead _ => false
  | .fretiaGroupWrite _ _ => false
  | .fretiaAttestation _ => false
  | .coldReset _ => false
  | .warmReset => false
  | .reservedEncoding _ => false
  | .instructionFetchFault _ _ _ => false
  | .agentReadmit _ => false
  | .managementSwap _ => false
  | .scaleUpLinkFailure _ => false

end Sys2Proof
end

