-- ==== Sys2Proof/Decode.lean ====
section
/-! DEFINITION. The decoder and the encoder (R235 to R245, R344 to R358). Words are read as numbers; a field is
(w / 2^lo) mod 2^n, written once in fldN, fld and bit. -/

namespace Sys2Proof

/-- Why a word or a command has no instruction: each is ILLOP (R9, R241 to R244). -/
inductive Reject where
  /-- Major 0x00 or a reserved major (R241). -/
  | unusedMajor
  /-- A function, kind, mode or operation value that is not listed (R242, R243). -/
  | unusedFunction
  /-- A non-zero bit in a field that must be zero (R244, R344). -/
  | zeroField
  /-- A reserved value of another field (R242, R243). -/
  | reservedValue
  /-- Fewer bytes than the instruction needs. -/
  | short
deriving DecidableEq, Repr

/-- Bits lo to lo + n - 1 of w, as a number. -/
def fldN (w lo n : Nat) : Nat := w / 2 ^ lo % 2 ^ n

/-- Bits lo to lo + n - 1 of w. -/
def fld (w lo : Nat) (n : Nat) : BitVec n := BitVec.ofNat n (fldN w lo n)

/-- Bit lo of w. -/
def bit (w lo : Nat) : Bool := fldN w lo 1 == 1

/-- Major 0x1 (R242, R243): the function field is bits 7 to 0. -/
def decIntR (w : Nat) : Except Reject Instr :=
  match fldN w 0 8 with
  | 0 => .ok (.add (fld w 21 5) (fld w 16 5) (fld w 11 5) (bit w 10) (bit w 9) (bit w 8))
  | 1 => .ok (.sub (fld w 21 5) (fld w 16 5) (fld w 11 5) (bit w 10) (bit w 9) (bit w 8))
  | 2 => .ok (.mul (fld w 21 5) (fld w 16 5) (fld w 11 5) (bit w 10) (bit w 9) (bit w 8))
  | 3 => if fldN w 8 1 == 0 then .ok (.mulh (fld w 21 5) (fld w 16 5) (fld w 11 5) (bit w 10) (bit w 9)) else .error .zeroField
  | 4 => if fldN w 8 1 == 0 then .ok (.mulhu (fld w 21 5) (fld w 16 5) (fld w 11 5) (bit w 10) (bit w 9)) else .error .zeroField
  | 5 => if fldN w 8 1 == 0 then .ok (.div (fld w 21 5) (fld w 16 5) (fld w 11 5) (bit w 10) (bit w 9)) else .error .zeroField
  | 6 => if fldN w 8 1 == 0 then .ok (.divu (fld w 21 5) (fld w 16 5) (fld w 11 5) (bit w 10) (bit w 9)) else .error .zeroField
  | 7 => if fldN w 8 1 == 0 then .ok (.rem (fld w 21 5) (fld w 16 5) (fld w 11 5) (bit w 10) (bit w 9)) else .error .zeroField
  | 8 => if fldN w 8 1 == 0 then .ok (.remu (fld w 21 5) (fld w 16 5) (fld w 11 5) (bit w 10) (bit w 9)) else .error .zeroField
  | 9 => if fldN w 8 1 == 0 then .ok (.and (fld w 21 5) (fld w 16 5) (fld w 11 5) (bit w 10) (bit w 9)) else .error .zeroField
  | 10 => if fldN w 8 1 == 0 then .ok (.or (fld w 21 5) (fld w 16 5) (fld w 11 5) (bit w 10) (bit w 9)) else .error .zeroField
  | 11 => if fldN w 8 1 == 0 then .ok (.xor (fld w 21 5) (fld w 16 5) (fld w 11 5) (bit w 10) (bit w 9)) else .error .zeroField
  | 12 => if fldN w 8 1 == 0 then .ok (.andn (fld w 21 5) (fld w 16 5) (fld w 11 5) (bit w 10) (bit w 9)) else .error .zeroField
  | 13 => if fldN w 8 1 == 0 then .ok (.orn (fld w 21 5) (fld w 16 5) (fld w 11 5) (bit w 10) (bit w 9)) else .error .zeroField
  | 14 => .ok (.sll (fld w 21 5) (fld w 16 5) (fld w 11 5) (bit w 10) (bit w 9) (bit w 8))
  | 15 => .ok (.srl (fld w 21 5) (fld w 16 5) (fld w 11 5) (bit w 10) (bit w 9) (bit w 8))
  | 16 => .ok (.sra (fld w 21 5) (fld w 16 5) (fld w 11 5) (bit w 10) (bit w 9) (bit w 8))
  | 17 => .ok (.rol (fld w 21 5) (fld w 16 5) (fld w 11 5) (bit w 10) (bit w 9) (bit w 8))
  | 18 => .ok (.ror (fld w 21 5) (fld w 16 5) (fld w 11 5) (bit w 10) (bit w 9) (bit w 8))
  | 19 => if fldN w 8 1 == 0 then .ok (.slt (fld w 21 5) (fld w 16 5) (fld w 11 5) (bit w 10) (bit w 9)) else .error .zeroField
  | 20 => if fldN w 8 1 == 0 then .ok (.sltu (fld w 21 5) (fld w 16 5) (fld w 11 5) (bit w 10) (bit w 9)) else .error .zeroField
  | 21 => if fldN w 8 1 == 0 then .ok (.min (fld w 21 5) (fld w 16 5) (fld w 11 5) (bit w 10) (bit w 9)) else .error .zeroField
  | 22 => if fldN w 8 1 == 0 then .ok (.max (fld w 21 5) (fld w 16 5) (fld w 11 5) (bit w 10) (bit w 9)) else .error .zeroField
  | 23 => if fldN w 8 1 == 0 then .ok (.minu (fld w 21 5) (fld w 16 5) (fld w 11 5) (bit w 10) (bit w 9)) else .error .zeroField
  | 24 => if fldN w 8 1 == 0 then .ok (.maxu (fld w 21 5) (fld w 16 5) (fld w 11 5) (bit w 10) (bit w 9)) else .error .zeroField
  | 25 => if fldN w 9 1 == 0 && fldN w 11 5 == 0 then .ok (.clz (fld w 21 5) (fld w 16 5) (bit w 10) (bit w 8)) else .error .zeroField
  | 26 => if fldN w 9 1 == 0 && fldN w 11 5 == 0 then .ok (.ctz (fld w 21 5) (fld w 16 5) (bit w 10) (bit w 8)) else .error .zeroField
  | 27 => if fldN w 9 1 == 0 && fldN w 11 5 == 0 then .ok (.popc (fld w 21 5) (fld w 16 5) (bit w 10) (bit w 8)) else .error .zeroField
  | 28 => if fldN w 8 2 == 0 && fldN w 11 5 == 0 then .ok (.bswap (fld w 21 5) (fld w 16 5) (bit w 10)) else .error .zeroField
  | 29 => if fldN w 8 2 == 0 then .ok (.sext (fld w 21 5) (fld w 16 5) (fld w 11 5) (bit w 10)) else .error .zeroField
  | 30 => if fldN w 8 2 == 0 then .ok (.zext (fld w 21 5) (fld w 16 5) (fld w 11 5) (bit w 10)) else .error .zeroField
  | 31 => if fldN w 8 1 == 0 then .ok (.cmov (fld w 21 5) (fld w 16 5) (fld w 11 5) (bit w 10) (bit w 9)) else .error .zeroField
  | 32 => if fldN w 8 1 == 0 then .ok (.hmix (fld w 21 5) (fld w 16 5) (fld w 11 5) (bit w 10) (bit w 9)) else .error .zeroField
  | 33 => if fldN w 8 1 == 0 then .ok (.crc32c (fld w 21 5) (fld w 16 5) (fld w 11 5) (bit w 10) (bit w 9)) else .error .zeroField
  | _ => .error .unusedFunction

/-- Major 0x8 (R242, R243): the function field is bits 14 to 12. -/
def decShi (w : Nat) : Except Reject Instr :=
  match fldN w 12 3 with
  | 0 => if fldN w 0 5 == 0 then .ok (.slli (fld w 21 5) (fld w 16 5) (bit w 15) (fld w 6 6) (bit w 5)) else .error .zeroField
  | 1 => if fldN w 0 5 == 0 then .ok (.srli (fld w 21 5) (fld w 16 5) (bit w 15) (fld w 6 6) (bit w 5)) else .error .zeroField
  | 2 => if fldN w 0 5 == 0 then .ok (.srai (fld w 21 5) (fld w 16 5) (bit w 15) (fld w 6 6) (bit w 5)) else .error .zeroField
  | 3 => if fldN w 0 5 == 0 then .ok (.rori (fld w 21 5) (fld w 16 5) (bit w 15) (fld w 6 6) (bit w 5)) else .error .zeroField
  | _ => .error .unusedFunction

/-- Major 0xb (R242, R243): the function field is bits 4 to 0. -/
def decFpR (w : Nat) : Except Reject Instr :=
  match fldN w 0 5 with
  | 0 => .ok (.fadd (fld w 21 5) (fld w 16 5) (fld w 11 5) (bit w 10) (bit w 9) (bit w 8) (fld w 5 3))
  | 1 => .ok (.fsub (fld w 21 5) (fld w 16 5) (fld w 11 5) (bit w 10) (bit w 9) (bit w 8) (fld w 5 3))
  | 2 => .ok (.fmul (fld w 21 5) (fld w 16 5) (fld w 11 5) (bit w 10) (bit w 9) (bit w 8) (fld w 5 3))
  | 3 => .ok (.fdiv (fld w 21 5) (fld w 16 5) (fld w 11 5) (bit w 10) (bit w 9) (bit w 8) (fld w 5 3))
  | 4 => if fldN w 9 1 == 0 && fldN w 11 5 == 0 then .ok (.fsqrt (fld w 21 5) (fld w 16 5) (bit w 10) (bit w 8) (fld w 5 3)) else .error .zeroField
  | 5 => .ok (.fma (fld w 21 5) (fld w 16 5) (fld w 11 5) (bit w 10) (bit w 9) (bit w 8) (fld w 5 3))
  | 6 => .ok (.fnma (fld w 21 5) (fld w 16 5) (fld w 11 5) (bit w 10) (bit w 9) (bit w 8) (fld w 5 3))
  | 7 => if fldN w 5 3 == 0 then .ok (.fmin (fld w 21 5) (fld w 16 5) (fld w 11 5) (bit w 10) (bit w 9) (bit w 8)) else .error .zeroField
  | 8 => if fldN w 5 3 == 0 then .ok (.fmax (fld w 21 5) (fld w 16 5) (fld w 11 5) (bit w 10) (bit w 9) (bit w 8)) else .error .zeroField
  | 9 => if fldN w 5 3 == 0 then .ok (.feq (fld w 21 5) (fld w 16 5) (fld w 11 5) (bit w 10) (bit w 9) (bit w 8)) else .error .zeroField
  | 10 => if fldN w 5 3 == 0 then .ok (.flt (fld w 21 5) (fld w 16 5) (fld w 11 5) (bit w 10) (bit w 9) (bit w 8)) else .error .zeroField
  | 11 => if fldN w 5 3 == 0 then .ok (.fle (fld w 21 5) (fld w 16 5) (fld w 11 5) (bit w 10) (bit w 9) (bit w 8)) else .error .zeroField
  | 12 => if fldN w 9 1 == 0 then .ok (.fcvt (fld w 21 5) (fld w 16 5) (fld w 11 5) (bit w 10) (bit w 8) (fld w 5 3)) else .error .zeroField
  | 13 => if fldN w 5 3 == 0 && fldN w 9 1 == 0 && fldN w 11 5 == 0 then .ok (.fclass (fld w 21 5) (fld w 16 5) (bit w 10) (bit w 8)) else .error .zeroField
  | _ => .error .unusedFunction

/-- Major 0xc (R242, R243): the function field is bits 15 to 13. -/
def decBr (w : Nat) : Except Reject Instr :=
  match fldN w 13 3 with
  | 0 => .ok (.beq (fld w 21 5) (fld w 16 5) (fld w 0 13))
  | 1 => .ok (.bne (fld w 21 5) (fld w 16 5) (fld w 0 13))
  | 2 => .ok (.blt (fld w 21 5) (fld w 16 5) (fld w 0 13))
  | 3 => .ok (.bge (fld w 21 5) (fld w 16 5) (fld w 0 13))
  | 4 => .ok (.bltu (fld w 21 5) (fld w 16 5) (fld w 0 13))
  | 5 => .ok (.bgeu (fld w 21 5) (fld w 16 5) (fld w 0 13))
  | _ => .error .unusedFunction

/-- Major 0x11 (R242, R243): the function field is bits 10 to 7. -/
def decAmo (w : Nat) : Except Reject Instr :=
  match fldN w 7 4 with
  | 0 => .ok (.amoSwap (fld w 21 5) (fld w 16 5) (fld w 11 5) (bit w 6) (fld w 4 2) (fld w 1 3) (bit w 0))
  | 1 => .ok (.amoCas (fld w 21 5) (fld w 16 5) (fld w 11 5) (bit w 6) (fld w 4 2) (fld w 1 3) (bit w 0))
  | 2 => .ok (.amoAdd (fld w 21 5) (fld w 16 5) (fld w 11 5) (bit w 6) (fld w 4 2) (fld w 1 3) (bit w 0))
  | 3 => .ok (.amoAnd (fld w 21 5) (fld w 16 5) (fld w 11 5) (bit w 6) (fld w 4 2) (fld w 1 3) (bit w 0))
  | 4 => .ok (.amoOr (fld w 21 5) (fld w 16 5) (fld w 11 5) (bit w 6) (fld w 4 2) (fld w 1 3) (bit w 0))
  | 5 => .ok (.amoXor (fld w 21 5) (fld w 16 5) (fld w 11 5) (bit w 6) (fld w 4 2) (fld w 1 3) (bit w 0))
  | 6 => .ok (.amoMin (fld w 21 5) (fld w 16 5) (fld w 11 5) (bit w 6) (fld w 4 2) (fld w 1 3) (bit w 0))
  | 7 => .ok (.amoMax (fld w 21 5) (fld w 16 5) (fld w 11 5) (bit w 6) (fld w 4 2) (fld w 1 3) (bit w 0))
  | 8 => .ok (.amoMinu (fld w 21 5) (fld w 16 5) (fld w 11 5) (bit w 6) (fld w 4 2) (fld w 1 3) (bit w 0))
  | 9 => .ok (.amoMaxu (fld w 21 5) (fld w 16 5) (fld w 11 5) (bit w 6) (fld w 4 2) (fld w 1 3) (bit w 0))
  | 10 => .ok (.amoFadd (fld w 21 5) (fld w 16 5) (fld w 11 5) (bit w 6) (fld w 4 2) (fld w 1 3) (bit w 0))
  | _ => .error .unusedFunction

/-- Major 0x12 (R242, R243): the function field is bits 15 to 12. -/
def decRed (w : Nat) : Except Reject Instr :=
  match fldN w 12 4 with
  | 0 => if fldN w 0 5 == 0 then .ok (.redAdd (fld w 21 5) (fld w 16 5) (bit w 11) (fld w 9 2) (fld w 6 3) (bit w 5)) else .error .zeroField
  | 1 => if fldN w 0 5 == 0 then .ok (.redAnd (fld w 21 5) (fld w 16 5) (bit w 11) (fld w 9 2) (fld w 6 3) (bit w 5)) else .error .zeroField
  | 2 => if fldN w 0 5 == 0 then .ok (.redOr (fld w 21 5) (fld w 16 5) (bit w 11) (fld w 9 2) (fld w 6 3) (bit w 5)) else .error .zeroField
  | 3 => if fldN w 0 5 == 0 then .ok (.redXor (fld w 21 5) (fld w 16 5) (bit w 11) (fld w 9 2) (fld w 6 3) (bit w 5)) else .error .zeroField
  | 4 => if fldN w 0 5 == 0 then .ok (.redMin (fld w 21 5) (fld w 16 5) (bit w 11) (fld w 9 2) (fld w 6 3) (bit w 5)) else .error .zeroField
  | 5 => if fldN w 0 5 == 0 then .ok (.redMax (fld w 21 5) (fld w 16 5) (bit w 11) (fld w 9 2) (fld w 6 3) (bit w 5)) else .error .zeroField
  | 6 => if fldN w 0 5 == 0 then .ok (.redMinu (fld w 21 5) (fld w 16 5) (bit w 11) (fld w 9 2) (fld w 6 3) (bit w 5)) else .error .zeroField
  | 7 => if fldN w 0 5 == 0 then .ok (.redMaxu (fld w 21 5) (fld w 16 5) (bit w 11) (fld w 9 2) (fld w 6 3) (bit w 5)) else .error .zeroField
  | 8 => if fldN w 0 5 == 0 then .ok (.redFadd (fld w 21 5) (fld w 16 5) (bit w 11) (fld w 9 2) (fld w 6 3) (bit w 5)) else .error .zeroField
  | _ => .error .unusedFunction

/-- Major 0x13 (R242, R243): the function field is bits 15 to 12. -/
def decSync (w : Nat) : Except Reject Instr :=
  match fldN w 12 4 with
  | 0 => if fldN w 0 4 == 0 && fldN w 16 10 == 0 then .ok (.fence (fld w 9 3) (fld w 5 4) (bit w 4)) else .error .zeroField
  | 1 => if fldN w 0 12 == 0 && fldN w 16 5 == 0 then .ok (.watch (fld w 21 5)) else .error .zeroField
  | 2 => if fldN w 0 4 == 0 then .ok (.waitw (fld w 21 5) (fld w 16 5) (fld w 9 3) (fld w 4 5)) else .error .zeroField
  | 3 => if fldN w 0 9 == 0 then .ok (.bar (fld w 21 5) (fld w 16 5) (fld w 9 3)) else .error .zeroField
  | 4 => if fldN w 0 9 == 0 then .ok (.arrive (fld w 21 5) (fld w 16 5) (fld w 9 3)) else .error .zeroField
  | 5 => if fldN w 0 9 == 0 then .ok (.waitb (fld w 21 5) (fld w 16 5) (fld w 9 3)) else .error .zeroField
  | _ => .error .unusedFunction

/-- Major 0x14 (R242, R243): the function field is bits 20 to 18. -/
def decCr (w : Nat) : Except Reject Instr :=
  match fldN w 18 3 with
  | 0 => if fldN w 12 6 == 0 then .ok (.mfc (fld w 21 5) (fld w 0 12)) else .error .zeroField
  | 1 => if fldN w 12 5 == 0 then .ok (.mtc (fld w 21 5) (bit w 17) (fld w 0 12)) else .error .zeroField
  | 2 => if fldN w 12 6 == 0 then .ok (.mtci (fld w 21 5) (fld w 0 12)) else .error .zeroField
  | 3 => if fldN w 12 5 == 0 then .ok (.crsb (fld w 21 5) (bit w 17) (fld w 0 12)) else .error .zeroField
  | 4 => if fldN w 12 5 == 0 then .ok (.crcb (fld w 21 5) (bit w 17) (fld w 0 12)) else .error .zeroField
  | _ => .error .unusedFunction

/-- Major 0x15 (R242, R243): the function field is bits 15 to 11. -/
def decSys (w : Nat) : Except Reject Instr :=
  match fldN w 11 5 with
  | 0 => if fldN w 16 10 == 0 then .ok (.trap (fld w 0 11)) else .error .zeroField
  | 1 => if fldN w 0 11 == 0 && fldN w 16 10 == 0 then .ok (.rfe) else .error .zeroField
  | 2 => if fldN w 0 11 == 0 && fldN w 16 5 == 0 then .ok (.halt (fld w 21 5)) else .error .zeroField
  | 3 => if fldN w 0 11 == 0 && fldN w 16 5 == 0 then .ok (.yield (fld w 21 5)) else .error .zeroField
  | 4 => if fldN w 0 11 == 0 && fldN w 16 10 == 0 then .ok (.brk) else .error .zeroField
  | 5 => if fldN w 0 11 == 0 then .ok (.shoot (fld w 21 5) (fld w 16 5)) else .error .zeroField
  | 6 => if fldN w 0 11 == 0 then .ok (.cwb (fld w 21 5) (fld w 16 5)) else .error .zeroField
  | 7 => if fldN w 16 5 == 0 then if fldN w 0 11 == 0 then .ok (.cinv (fld w 21 5)) else .error .zeroField else if fldN w 0 11 == 0 then .ok (.cinvRange (fld w 21 5) (fld w 16 5)) else .error .zeroField
  | 8 => if fldN w 0 11 == 0 then .ok (.cflush (fld w 21 5) (fld w 16 5)) else .error .zeroField
  | 9 => if fldN w 0 11 == 0 then .ok (.vcdef (fld w 21 5) (fld w 16 5)) else .error .zeroField
  | 10 => if fldN w 0 11 == 0 then .ok (.vcqry (fld w 21 5) (fld w 16 5)) else .error .zeroField
  | _ => .error .unusedFunction

/-- Major 0x16 (R242, R243): the function field is bits 15 to 12. -/
def decNest (w : Nat) : Except Reject Instr :=
  match fldN w 12 4 with
  | 0 => if fldN w 0 11 == 0 then .ok (.launch (fld w 21 5) (fld w 16 5) (bit w 11)) else .error .zeroField
  | 1 => if fldN w 0 12 == 0 && fldN w 16 10 == 0 then .ok (.retire) else .error .zeroField
  | 2 => if fldN w 0 12 == 0 then .ok (.ctradd (fld w 21 5) (fld w 16 5)) else .error .zeroField
  | 3 => if fldN w 0 12 == 0 then .ok (.ctrrd (fld w 21 5) (fld w 16 5)) else .error .zeroField
  | 4 => if fldN w 0 12 == 0 then .ok (.ctrset (fld w 21 5) (fld w 16 5)) else .error .zeroField
  | _ => .error .unusedFunction

/-- Major 0x17 (R242, R243): the function field is bits 12 to 12. -/
def decLdstO (w : Nat) : Except Reject Instr :=
  match fldN w 12 1 with
  | 0 => if fldN w 0 6 == 0 then .ok (.ldo (fld w 21 5) (fld w 16 5) (fld w 14 2) (bit w 13) (fld w 10 2) (fld w 7 3) (bit w 6)) else .error .zeroField
  | 1 => if fldN w 0 6 == 0 && fldN w 13 1 == 0 then .ok (.sto (fld w 21 5) (fld w 16 5) (fld w 14 2) (fld w 10 2) (fld w 7 3) (bit w 6)) else .error .zeroField
  | _ => .error .unusedFunction

/-- Major 0x21 (R242, R243): the function field is bits 4 to 0. -/
def decVint (w : Nat) : Except Reject Instr :=
  match fldN w 0 5 with
  | 0 => .ok (.vadd (fld w 21 5) (fld w 16 5) (fld w 11 5) (fld w 8 3) (bit w 7) (bit w 6) (bit w 5))
  | 1 => .ok (.vsub (fld w 21 5) (fld w 16 5) (fld w 11 5) (fld w 8 3) (bit w 7) (bit w 6) (bit w 5))
  | 2 => .ok (.vmul (fld w 21 5) (fld w 16 5) (fld w 11 5) (fld w 8 3) (bit w 7) (bit w 6) (bit w 5))
  | 3 => .ok (.vmulh (fld w 21 5) (fld w 16 5) (fld w 11 5) (fld w 8 3) (bit w 7) (bit w 6) (bit w 5))
  | 4 => .ok (.vmulhu (fld w 21 5) (fld w 16 5) (fld w 11 5) (fld w 8 3) (bit w 7) (bit w 6) (bit w 5))
  | 5 => .ok (.vand (fld w 21 5) (fld w 16 5) (fld w 11 5) (fld w 8 3) (bit w 7) (bit w 6) (bit w 5))
  | 6 => .ok (.vor (fld w 21 5) (fld w 16 5) (fld w 11 5) (fld w 8 3) (bit w 7) (bit w 6) (bit w 5))
  | 7 => .ok (.vxor (fld w 21 5) (fld w 16 5) (fld w 11 5) (fld w 8 3) (bit w 7) (bit w 6) (bit w 5))
  | 8 => .ok (.vsll (fld w 21 5) (fld w 16 5) (fld w 11 5) (fld w 8 3) (bit w 7) (bit w 6) (bit w 5))
  | 9 => .ok (.vsrl (fld w 21 5) (fld w 16 5) (fld w 11 5) (fld w 8 3) (bit w 7) (bit w 6) (bit w 5))
  | 10 => .ok (.vsra (fld w 21 5) (fld w 16 5) (fld w 11 5) (fld w 8 3) (bit w 7) (bit w 6) (bit w 5))
  | 11 => .ok (.vmin (fld w 21 5) (fld w 16 5) (fld w 11 5) (fld w 8 3) (bit w 7) (bit w 6) (bit w 5))
  | 12 => .ok (.vmax (fld w 21 5) (fld w 16 5) (fld w 11 5) (fld w 8 3) (bit w 7) (bit w 6) (bit w 5))
  | 13 => .ok (.vminu (fld w 21 5) (fld w 16 5) (fld w 11 5) (fld w 8 3) (bit w 7) (bit w 6) (bit w 5))
  | 14 => .ok (.vmaxu (fld w 21 5) (fld w 16 5) (fld w 11 5) (fld w 8 3) (bit w 7) (bit w 6) (bit w 5))
  | 15 => .ok (.vabsd (fld w 21 5) (fld w 16 5) (fld w 11 5) (fld w 8 3) (bit w 7) (bit w 6) (bit w 5))
  | 16 => .ok (.vadds (fld w 21 5) (fld w 16 5) (fld w 11 5) (fld w 8 3) (bit w 7) (bit w 6) (bit w 5))
  | 17 => .ok (.vsubs (fld w 21 5) (fld w 16 5) (fld w 11 5) (fld w 8 3) (bit w 7) (bit w 6) (bit w 5))
  | 18 => .ok (.vaddus (fld w 21 5) (fld w 16 5) (fld w 11 5) (fld w 8 3) (bit w 7) (bit w 6) (bit w 5))
  | 19 => .ok (.vsubus (fld w 21 5) (fld w 16 5) (fld w 11 5) (fld w 8 3) (bit w 7) (bit w 6) (bit w 5))
  | 20 => .ok (.vdot4 (fld w 21 5) (fld w 16 5) (fld w 11 5) (fld w 8 3) (bit w 7) (bit w 6) (bit w 5))
  | 21 => .ok (.vmac (fld w 21 5) (fld w 16 5) (fld w 11 5) (fld w 8 3) (bit w 7) (bit w 6) (bit w 5))
  | _ => .error .unusedFunction

/-- Major 0x22 (R242, R243): the function field is bits 4 to 0. -/
def decVfp (w : Nat) : Except Reject Instr :=
  match fldN w 0 5 with
  | 0 => .ok (.vfadd (fld w 21 5) (fld w 16 5) (fld w 11 5) (fld w 8 3) (bit w 7) (bit w 6) (bit w 5))
  | 1 => .ok (.vfsub (fld w 21 5) (fld w 16 5) (fld w 11 5) (fld w 8 3) (bit w 7) (bit w 6) (bit w 5))
  | 2 => .ok (.vfmul (fld w 21 5) (fld w 16 5) (fld w 11 5) (fld w 8 3) (bit w 7) (bit w 6) (bit w 5))
  | 3 => .ok (.vfma (fld w 21 5) (fld w 16 5) (fld w 11 5) (fld w 8 3) (bit w 7) (bit w 6) (bit w 5))
  | 4 => .ok (.vfnma (fld w 21 5) (fld w 16 5) (fld w 11 5) (fld w 8 3) (bit w 7) (bit w 6) (bit w 5))
  | 5 => .ok (.vfdiv (fld w 21 5) (fld w 16 5) (fld w 11 5) (fld w 8 3) (bit w 7) (bit w 6) (bit w 5))
  | 6 => if fldN w 5 1 == 0 && fldN w 11 5 == 0 then .ok (.vfsqrt (fld w 21 5) (fld w 16 5) (fld w 8 3) (bit w 7) (bit w 6)) else .error .zeroField
  | 7 => .ok (.vfmin (fld w 21 5) (fld w 16 5) (fld w 11 5) (fld w 8 3) (bit w 7) (bit w 6) (bit w 5))
  | 8 => .ok (.vfmax (fld w 21 5) (fld w 16 5) (fld w 11 5) (fld w 8 3) (bit w 7) (bit w 6) (bit w 5))
  | 9 => if fldN w 5 1 == 0 && fldN w 11 5 == 0 then .ok (.vfabs (fld w 21 5) (fld w 16 5) (fld w 8 3) (bit w 7) (bit w 6)) else .error .zeroField
  | 10 => if fldN w 5 1 == 0 && fldN w 11 5 == 0 then .ok (.vfneg (fld w 21 5) (fld w 16 5) (fld w 8 3) (bit w 7) (bit w 6)) else .error .zeroField
  | 11 => .ok (.vfscl (fld w 21 5) (fld w 16 5) (fld w 11 5) (fld w 8 3) (bit w 7) (bit w 6) (bit w 5))
  | _ => .error .unusedFunction

/-- Major 0x23 (R242, R243): the function field is bits 5 to 0. -/
def decVsfu (w : Nat) : Except Reject Instr :=
  match fldN w 0 6 with
  | 0 => if fldN w 11 5 == 0 then .ok (.vsfuExp2 (fld w 21 5) (fld w 16 5) (fld w 8 3) (bit w 7) (bit w 6)) else .error .zeroField
  | 1 => if fldN w 11 5 == 0 then .ok (.vsfuLog2 (fld w 21 5) (fld w 16 5) (fld w 8 3) (bit w 7) (bit w 6)) else .error .zeroField
  | 2 => if fldN w 11 5 == 0 then .ok (.vsfuRcp (fld w 21 5) (fld w 16 5) (fld w 8 3) (bit w 7) (bit w 6)) else .error .zeroField
  | 3 => if fldN w 11 5 == 0 then .ok (.vsfuRsqrt (fld w 21 5) (fld w 16 5) (fld w 8 3) (bit w 7) (bit w 6)) else .error .zeroField
  | 4 => if fldN w 11 5 == 0 then .ok (.vsfuSin (fld w 21 5) (fld w 16 5) (fld w 8 3) (bit w 7) (bit w 6)) else .error .zeroField
  | 5 => if fldN w 11 5 == 0 then .ok (.vsfuCos (fld w 21 5) (fld w 16 5) (fld w 8 3) (bit w 7) (bit w 6)) else .error .zeroField
  | 6 => if fldN w 11 5 == 0 then .ok (.vsfuTanh (fld w 21 5) (fld w 16 5) (fld w 8 3) (bit w 7) (bit w 6)) else .error .zeroField
  | 7 => if fldN w 11 5 == 0 then .ok (.vsfuSigm (fld w 21 5) (fld w 16 5) (fld w 8 3) (bit w 7) (bit w 6)) else .error .zeroField
  | _ => .error .unusedFunction

/-- Major 0x24 (R242, R243): the function field is bits 4 to 4. -/
def decVcmp (w : Nat) : Except Reject Instr :=
  match fldN w 4 1 with
  | 0 => .ok (.vcmp (fld w 21 5) (fld w 16 5) (fld w 11 5) (fld w 8 3) (bit w 7) (bit w 6) (bit w 5) (fld w 0 4))
  | 1 => .ok (.vfcmp (fld w 21 5) (fld w 16 5) (fld w 11 5) (fld w 8 3) (bit w 7) (bit w 6) (bit w 5) (fld w 0 4))
  | _ => .error .unusedFunction

/-- Major 0x25 (R242, R243): the function field is bits 5 to 0. -/
def decVmask (w : Nat) : Except Reject Instr :=
  match fldN w 0 6 with
  | 0 => .ok (.mand (fld w 21 5) (fld w 16 5) (fld w 11 5) (fld w 8 3) (bit w 7) (bit w 6))
  | 1 => .ok (.mor (fld w 21 5) (fld w 16 5) (fld w 11 5) (fld w 8 3) (bit w 7) (bit w 6))
  | 2 => .ok (.mxor (fld w 21 5) (fld w 16 5) (fld w 11 5) (fld w 8 3) (bit w 7) (bit w 6))
  | 3 => .ok (.mandn (fld w 21 5) (fld w 16 5) (fld w 11 5) (fld w 8 3) (bit w 7) (bit w 6))
  | 4 => if fldN w 11 5 == 0 then .ok (.mnot (fld w 21 5) (fld w 16 5) (fld w 8 3) (bit w 7) (bit w 6)) else .error .zeroField
  | 5 => if fldN w 11 5 == 0 then .ok (.mpopc (fld w 21 5) (fld w 16 5) (fld w 8 3) (bit w 7) (bit w 6)) else .error .zeroField
  | 6 => if fldN w 11 5 == 0 then .ok (.mfirst (fld w 21 5) (fld w 16 5) (fld w 8 3) (bit w 7) (bit w 6)) else .error .zeroField
  | 7 => if fldN w 11 10 == 0 then .ok (.mset (fld w 21 5) (fld w 8 3) (bit w 7) (bit w 6)) else .error .zeroField
  | 8 => if fldN w 11 10 == 0 then .ok (.mclr (fld w 21 5) (fld w 8 3) (bit w 7) (bit w 6)) else .error .zeroField
  | _ => .error .unusedFunction

/-- Major 0x26 (R242, R243): the function field is bits 5 to 0. -/
def decVperm (w : Nat) : Except Reject Instr :=
  match fldN w 0 6 with
  | 0 => .ok (.vperm (fld w 21 5) (fld w 16 5) (fld w 11 5) (fld w 8 3) (bit w 7) (bit w 6))
  | 1 => .ok (.vslideup (fld w 21 5) (fld w 16 5) (fld w 11 5) (fld w 8 3) (bit w 7) (bit w 6))
  | 2 => .ok (.vslidedn (fld w 21 5) (fld w 16 5) (fld w 11 5) (fld w 8 3) (bit w 7) (bit w 6))
  | 3 => if fldN w 11 5 == 0 then .ok (.vcompress (fld w 21 5) (fld w 16 5) (fld w 8 3) (bit w 7) (bit w 6)) else .error .zeroField
  | 4 => if fldN w 11 5 == 0 then .ok (.vexpand (fld w 21 5) (fld w 16 5) (fld w 8 3) (bit w 7) (bit w 6)) else .error .zeroField
  | 5 => if bit w 15 then .ok (.vfscan (fld w 21 5) (fld w 16 5) (fld w 11 4) (fld w 8 3) (bit w 7) (bit w 6)) else .ok (.vscan (fld w 21 5) (fld w 16 5) (fld w 11 4) (fld w 8 3) (bit w 7) (bit w 6))
  | 6 => .ok (.vrowbc (fld w 21 5) (fld w 16 5) (fld w 11 5) (fld w 8 3) (bit w 7) (bit w 6))
  | _ => .error .unusedFunction

/-- Major 0x27 (R242, R243): the function field is bits 5 to 0. -/
def decVred (w : Nat) : Except Reject Instr :=
  match fldN w 0 6 with
  | 0 => if fldN w 11 5 == 0 then .ok (.vredSum (fld w 21 5) (fld w 16 5) (fld w 8 3) (bit w 7) (bit w 6)) else .error .zeroField
  | 1 => if fldN w 11 5 == 0 then .ok (.vredMax (fld w 21 5) (fld w 16 5) (fld w 8 3) (bit w 7) (bit w 6)) else .error .zeroField
  | 2 => if fldN w 11 5 == 0 then .ok (.vredMin (fld w 21 5) (fld w 16 5) (fld w 8 3) (bit w 7) (bit w 6)) else .error .zeroField
  | 3 => if fldN w 11 5 == 0 then .ok (.vredAnd (fld w 21 5) (fld w 16 5) (fld w 8 3) (bit w 7) (bit w 6)) else .error .zeroField
  | 4 => if fldN w 11 5 == 0 then .ok (.vredOr (fld w 21 5) (fld w 16 5) (fld w 8 3) (bit w 7) (bit w 6)) else .error .zeroField
  | 5 => if fldN w 11 5 == 0 then .ok (.vredXor (fld w 21 5) (fld w 16 5) (fld w 8 3) (bit w 7) (bit w 6)) else .error .zeroField
  | 6 => if fldN w 11 5 == 0 then .ok (.vredMaxu (fld w 21 5) (fld w 16 5) (fld w 8 3) (bit w 7) (bit w 6)) else .error .zeroField
  | 7 => if fldN w 11 5 == 0 then .ok (.vredMinu (fld w 21 5) (fld w 16 5) (fld w 8 3) (bit w 7) (bit w 6)) else .error .zeroField
  | 16 => if fldN w 11 5 == 0 then .ok (.vfredSum (fld w 21 5) (fld w 16 5) (fld w 8 3) (bit w 7) (bit w 6)) else .error .zeroField
  | 17 => if fldN w 11 5 == 0 then .ok (.vfredMax (fld w 21 5) (fld w 16 5) (fld w 8 3) (bit w 7) (bit w 6)) else .error .zeroField
  | 18 => if fldN w 11 5 == 0 then .ok (.vfredMin (fld w 21 5) (fld w 16 5) (fld w 8 3) (bit w 7) (bit w 6)) else .error .zeroField
  | _ => .error .unusedFunction

/-- Major 0x28 (R242, R243): the function field is bits 5 to 0. -/
def decVcvt (w : Nat) : Except Reject Instr :=
  match fldN w 0 6 with
  | 0 => if fldN w 15 1 == 0 then .ok (.vcvth (fld w 21 5) (fld w 16 5) (bit w 14) (fld w 11 3) (fld w 8 3) (bit w 7) (bit w 6)) else .error .zeroField
  | 1 => .ok (.vcvtd (fld w 21 5) (fld w 16 5) (bit w 15) (bit w 14) (fld w 11 3) (fld w 8 3) (bit w 7) (bit w 6))
  | 2 => if fldN w 11 4 == 0 then .ok (.vcvti2f (fld w 21 5) (fld w 16 5) (bit w 15) (fld w 8 3) (bit w 7) (bit w 6)) else .error .zeroField
  | 3 => if fldN w 11 4 == 0 then .ok (.vcvtf2i (fld w 21 5) (fld w 16 5) (bit w 15) (fld w 8 3) (bit w 7) (bit w 6)) else .error .zeroField
  | 4 => if fldN w 11 5 == 0 then .ok (.vcvt8 (fld w 21 5) (fld w 16 5) (fld w 8 3) (bit w 7) (bit w 6)) else .error .zeroField
  | 5 => if fldN w 11 5 == 0 then .ok (.vcvts (fld w 21 5) (fld w 16 5) (fld w 8 3) (bit w 7) (bit w 6)) else .error .zeroField
  | _ => .error .unusedFunction

/-- Major 0x29 (R242, R243): the function field is bits 5 to 0. -/
def decVmov (w : Nat) : Except Reject Instr :=
  match fldN w 0 6 with
  | 0 => if fldN w 11 5 == 0 then .ok (.vmv (fld w 21 5) (fld w 16 5) (fld w 8 3) (bit w 7) (bit w 6)) else .error .zeroField
  | 1 => if fldN w 11 5 == 0 then .ok (.vbcast (fld w 21 5) (fld w 16 5) (fld w 8 3) (bit w 7) (bit w 6)) else .error .zeroField
  | 2 => if fldN w 8 3 == 0 then .ok (.vextr (fld w 21 5) (fld w 16 5) (fld w 11 5) (bit w 7) (bit w 6)) else .error .zeroField
  | 3 => .ok (.vins (fld w 21 5) (fld w 16 5) (fld w 11 5) (fld w 8 3) (bit w 7) (bit w 6))
  | 4 => .ok (.vsel (fld w 21 5) (fld w 16 5) (fld w 11 5) (fld w 8 3) (bit w 7) (bit w 6))
  | 5 => if fldN w 11 10 == 0 then .ok (.vmrank (fld w 21 5) (fld w 8 3) (bit w 7) (bit w 6)) else .error .zeroField
  | 6 => if fldN w 11 5 == 0 then .ok (.vscld (fld w 21 5) (fld w 16 5) (fld w 8 3) (bit w 7) (bit w 6)) else .error .zeroField
  | 7 => if fldN w 11 5 == 0 then .ok (.vscst (fld w 21 5) (fld w 16 5) (fld w 8 3) (bit w 7) (bit w 6)) else .error .zeroField
  | _ => .error .unusedFunction

/-- Major 0x2a (R242, R243): the function field is bits 5 to 4. -/
def decVld (w : Nat) : Except Reject Instr :=
  match fldN w 4 2 with
  | 0 => if fldN w 11 5 == 0 then .ok (.vld (fld w 21 5) (fld w 16 5) (fld w 8 3) (bit w 7) (bit w 6) (bit w 3) (bit w 2) (fld w 0 2)) else .error .zeroField
  | 1 => .ok (.vldStr (fld w 21 5) (fld w 16 5) (fld w 11 5) (fld w 8 3) (bit w 7) (bit w 6) (bit w 3) (bit w 2) (fld w 0 2))
  | 2 => .ok (.vldX (fld w 21 5) (fld w 16 5) (fld w 11 5) (fld w 8 3) (bit w 7) (bit w 6) (bit w 3) (bit w 2) (fld w 0 2))
  | 3 => .ok (.vldChk (fld w 21 5) (fld w 16 5) (fld w 11 5) (fld w 8 3) (bit w 7) (bit w 6) (bit w 3) (bit w 2) (fld w 0 2))
  | _ => .error .unusedFunction

/-- Major 0x2b (R242, R243): the function field is bits 5 to 4. -/
def decVst (w : Nat) : Except Reject Instr :=
  match fldN w 4 2 with
  | 0 => if fldN w 11 5 == 0 then .ok (.vst (fld w 21 5) (fld w 16 5) (fld w 8 3) (bit w 7) (bit w 6) (bit w 3) (bit w 2) (fld w 0 2)) else .error .zeroField
  | 1 => .ok (.vstStr (fld w 21 5) (fld w 16 5) (fld w 11 5) (fld w 8 3) (bit w 7) (bit w 6) (bit w 3) (bit w 2) (fld w 0 2))
  | 2 => .ok (.vstX (fld w 21 5) (fld w 16 5) (fld w 11 5) (fld w 8 3) (bit w 7) (bit w 6) (bit w 3) (bit w 2) (fld w 0 2))
  | _ => .error .unusedFunction

/-- Major 0x2c (R242, R243): the function field is bits 5 to 3. -/
def decVamo (w : Nat) : Except Reject Instr :=
  match fldN w 3 3 with
  | 0 => if fldN w 0 1 == 0 then .ok (.vamoAdd (fld w 21 5) (fld w 16 5) (fld w 11 5) (fld w 8 3) (bit w 7) (bit w 6) (bit w 2) (bit w 1)) else .error .zeroField
  | 1 => if fldN w 0 1 == 0 then .ok (.vamoMin (fld w 21 5) (fld w 16 5) (fld w 11 5) (fld w 8 3) (bit w 7) (bit w 6) (bit w 2) (bit w 1)) else .error .zeroField
  | 2 => if fldN w 0 1 == 0 then .ok (.vamoMax (fld w 21 5) (fld w 16 5) (fld w 11 5) (fld w 8 3) (bit w 7) (bit w 6) (bit w 2) (bit w 1)) else .error .zeroField
  | 3 => if fldN w 0 1 == 0 then .ok (.vamoOr (fld w 21 5) (fld w 16 5) (fld w 11 5) (fld w 8 3) (bit w 7) (bit w 6) (bit w 2) (bit w 1)) else .error .zeroField
  | 4 => if fldN w 0 1 == 0 then .ok (.vamoFadd (fld w 21 5) (fld w 16 5) (fld w 11 5) (fld w 8 3) (bit w 7) (bit w 6) (bit w 2) (bit w 1)) else .error .zeroField
  | _ => .error .unusedFunction

/-- Major 0x2d (R242, R243): the function field is bits 5 to 0. -/
def decVdb (w : Nat) : Except Reject Instr :=
  match fldN w 0 6 with
  | 0 => .ok (.vhash (fld w 21 5) (fld w 16 5) (fld w 11 5) (fld w 8 3) (bit w 7) (bit w 6))
  | 1 => .ok (.vbucket (fld w 21 5) (fld w 16 5) (fld w 11 5) (fld w 8 3) (bit w 7) (bit w 6))
  | 2 => if fldN w 11 5 == 0 then .ok (.vconf (fld w 21 5) (fld w 16 5) (fld w 8 3) (bit w 7) (bit w 6)) else .error .zeroField
  | 3 => .ok (.vstrcmp (fld w 21 5) (fld w 16 5) (fld w 11 5) (fld w 8 3) (bit w 7) (bit w 6))
  | 4 => .ok (.vstrhash (fld w 21 5) (fld w 16 5) (fld w 11 5) (fld w 8 3) (bit w 7) (bit w 6))
  | _ => .error .unusedFunction

/-- Major 0x2e (R242, R243): the function field is bits 5 to 0. The format gives these words C and T too (R239). A word with C = 1 is no member of a convoy and
raises CONVOY as it issues (R180): its C reaches no instruction; nor does the T of VMERGE and VPARK, which read no register. -/
def decVctl (w : Nat) : Except Reject Instr :=
  match fldN w 0 6 with
  | 0 => if fldN w 8 8 == 0 && fldN w 21 5 == 0 then .ok (.setrc (fld w 16 5) (bit w 6)) else .error .zeroField
  | 1 => if fldN w 8 3 == 0 && fldN w 21 5 == 0 then .ok (.vsplit (fld w 16 5) (fld w 11 5) (bit w 6)) else .error .zeroField
  | 2 => if fldN w 8 18 == 0 then .ok .vmerge else .error .zeroField
  | 3 => if fldN w 8 18 == 0 then .ok .vpark else .error .zeroField
  | _ => .error .unusedFunction

/-- Major 0x33 (R242, R243): the function field is bits 13 to 11. -/
noncomputable def decMacc (w : Nat) : Except Reject Instr :=
  match fldN w 11 3 with
  | 0 => if fldN w 0 11 == 0 && fldN w 16 3 == 0 && fldN w 21 5 == 0 then .ok (.mzero (fld w 19 2) (fld w 14 2)) else .error .zeroField
  | 1 => if fldN w 0 11 == 0 && fldN w 16 3 == 0 then .ok (.macc2v (fld w 21 5) (fld w 19 2) (fld w 14 2)) else .error .zeroField
  | 2 => if fldN w 0 11 == 0 && fldN w 21 5 == 0 then .ok (.macc2t (fld w 19 2) (fld w 16 3) (fld w 14 2)) else .error .zeroField
  | _ => .error .unusedFunction

/-- The instruction a single word stands for, field values not yet checked (R238, R239, R241). -/
noncomputable def decWord (w : Nat) : Except Reject Instr :=
  match fldN w 26 6 with
  | 1 => decIntR w
  | 2 => .ok (.addi (fld w 21 5) (fld w 16 5) (bit w 15) (fld w 0 15))
  | 3 => .ok (.andi (fld w 21 5) (fld w 16 5) (bit w 15) (fld w 0 15))
  | 4 => .ok (.ori (fld w 21 5) (fld w 16 5) (bit w 15) (fld w 0 15))
  | 5 => .ok (.xori (fld w 21 5) (fld w 16 5) (bit w 15) (fld w 0 15))
  | 6 => .ok (.slti (fld w 21 5) (fld w 16 5) (bit w 15) (fld w 0 15))
  | 7 => .ok (.sltiu (fld w 21 5) (fld w 16 5) (bit w 15) (fld w 0 15))
  | 8 => decShi w
  | 9 => .ok (.movhi (fld w 21 5) (fld w 0 21))
  | 10 => .ok (.addpc (fld w 21 5) (fld w 0 21))
  | 11 => decFpR w
  | 12 => decBr w
  | 13 => .ok (.jal (fld w 21 5) (fld w 0 21))
  | 14 => .ok (.jalr (fld w 21 5) (fld w 16 5) (bit w 15) (fld w 0 15))
  | 15 => .ok (.ld (fld w 21 5) (fld w 16 5) (fld w 14 2) (bit w 13) (bit w 12) (fld w 0 12))
  | 16 => if fldN w 13 1 == 0 then .ok (.st (fld w 21 5) (fld w 16 5) (fld w 14 2) (bit w 12) (fld w 0 12)) else .error .zeroField
  | 17 => decAmo w
  | 18 => decRed w
  | 19 => decSync w
  | 20 => decCr w
  | 21 => decSys w
  | 22 => decNest w
  | 23 => decLdstO w
  | 32 => if fldN w 0 1 == 0 then .ok (.setvl (fld w 21 5) (fld w 16 5) (fld w 13 3) (fld w 10 3) (fld w 7 3) (fld w 4 3) (fld w 1 3)) else .error .zeroField
  | 33 => decVint w
  | 34 => decVfp w
  | 35 => decVsfu w
  | 36 => decVcmp w
  | 37 => decVmask w
  | 38 => decVperm w
  | 39 => decVred w
  | 40 => decVcvt w
  | 41 => decVmov w
  | 42 => decVld w
  | 43 => decVst w
  | 44 => decVamo w
  | 45 => decVdb w
  | 46 => decVctl w
  | 48 => if fldN w 0 10 == 0 then .ok (.mld (fld w 23 3) (fld w 21 2) (fld w 16 5) (fld w 11 5) (bit w 10)) else .error .zeroField
  | 49 => if fldN w 0 10 == 0 then .ok (.mst (fld w 23 3) (fld w 21 2) (fld w 16 5) (fld w 11 5) (bit w 10)) else .error .zeroField
  | 50 => if fldN w 0 8 == 0 && fldN w 13 3 == 0 then .ok (.mma (fld w 24 2) (fld w 21 3) (fld w 18 3) (fld w 16 2) (bit w 12) (bit w 11) (bit w 10) (fld w 8 2)) else .error .zeroField
  | 51 => decMacc w
  | 52 => if fldN w 0 22 == 0 then .ok (.msync (fld w 22 4)) else .error .zeroField
  | _ => .error .unusedMajor

/-- The g fields of word 0 of a command (R240). -/
def decRegs (w0 : Nat) : CmdRegs := ⟨fld w0 15 5, fld w0 10 5, fld w0 5 5, fld w0 0 5⟩

/-- The completion fields (R346). -/
def decComp (w2 w3 : Nat) : Comp := ⟨fld w2 0 9, fld w2 9 9, bit w2 18, bit w2 19, fld w2 20 12, fld w3 0 32⟩

/-- The follow-on fields of word 1 of a COPY, present when FM = 1 (R348). -/
def decFollow (w1 : Nat) : Option Follow :=
  if bit w1 16 then
    some ⟨fld w1 17 2, fld w1 19 3, fld w1 22 3, fld w1 25 2, bit w1 27, bit w1 28, bit w1 29, fld w1 30 2⟩
  else none

/-- The counter tag of word 1 of a pod operation (R355). -/
def decTag (w1 : Nat) : Option PodTag :=
  if bit w1 9 then some ⟨fld w1 10 9, fld w1 19 9⟩ else none

/-- c checked, else a non-zero zero field. -/
def zeroIf (c : Bool) (i : Instr) : Except Reject Instr := if c then .ok i else .error .zeroField

/-- COPY (kind 0) by its MODE (R348). -/
noncomputable def decCopy (w0 w1 w2 w3 : Nat) : Except Reject Instr :=
  let r := decRegs w0
  let c := decComp w2 w3
  let f := decFollow w1
  let z := fldN w1 14 2 == 0 && (bit w1 16 || fldN w1 17 15 == 0)
  match fldN w1 0 3 with
  | 0 => zeroIf (z && fldN w1 3 11 == 0) (.copyLin r c f)
  | 1 => zeroIf (z && fldN w1 10 4 == 0) (.copyDeint r c f (fld w1 3 3) (fld w1 6 4))
  | 2 => zeroIf z (.copyPerm r c f (fld w1 3 3) (fld w1 6 8))
  | 3 => zeroIf (z && fldN w1 3 11 == 0) (.copyVreg r c f)
  | 4 => zeroIf (z && fldN w1 3 11 == 0) (.copyTile r c f)
  | _ => .error .unusedFunction

/-- The four words of a command by its kind (R240, R344, R348 to R358). -/
noncomputable def decCommand (w0 w1 w2 w3 : Nat) : Except Reject Instr :=
  let r := decRegs w0
  let c := decComp w2 w3
  let noW23 := w2 % 2 ^ 32 == 0 && w3 % 2 ^ 32 == 0
  let ga := r.ga
  let gd := r.gd
  let noBC := r.gb == 0 && r.gc == 0
  match fldN w0 20 6 with
  | 0 => decCopy w0 w1 w2 w3
  | 1 => zeroIf (noBC && fldN w1 7 25 == 0) (.strm ga gd c (fld w1 0 3) (bit w1 3) (fld w1 4 2) (bit w1 6))
  | 2 => zeroIf (ga == 0 && noBC && gd == 0 && fldN w1 3 29 == 0 && noW23) (.unstrm (fld w1 0 3))
  | 3 => zeroIf (fldN w1 11 21 == 0) (.rsv r c (fld w1 0 3) (bit w1 3) (fld w1 4 2) (fld w1 6 5))
  | 4 => zeroIf (ga == 0 && noBC && fldN w1 0 6 == 0 && fldN w1 11 21 == 0) (.ursv gd c (fld w1 6 5))
  | 5 => zeroIf (noBC && gd == 0 && fldN w1 1 31 == 0 && noW23) (if bit w1 0 then .nodeCmd ga else .nodeNest ga)
  | 6 => zeroIf ((bit w1 9 || fldN w1 10 18 == 0) && fldN w1 28 4 == 0) (.put r c (fld w1 0 9) (decTag w1))
  | 7 => zeroIf (fldN w1 9 23 == 0) (.get r c (fld w1 0 9))
  | 8 => zeroIf (fldN w1 9 19 == 0) (.ramo r c (fld w1 0 9) (fld w1 28 4))
  | 9 => zeroIf (bit w1 9 || fldN w1 10 18 == 0) (.rred r c (fld w1 0 9) (decTag w1) (fld w1 28 4))
  | 10 => zeroIf (fldN w1 8 1 == 0 && (bit w1 9 || fldN w1 10 18 == 0) && fldN w1 28 4 == 0) (.mcast r c (fld w1 0 8) (decTag w1))
  | 11 => zeroIf (gd == 0 && fldN w1 12 20 == 0 && noW23) (.tpost ga r.gb r.gc (fld w1 0 9) (fld w1 9 2) (bit w1 11))
  | 12 => zeroIf (noBC && fldN w1 9 23 == 0 && noW23) (.tcancel ga gd (fld w1 0 9))
  | 13 => zeroIf (noBC && w1 % 2 ^ 32 == 0) (.fcfg ga gd c)
  | 14 => zeroIf (noBC && fldN w1 1 31 == 0) (if bit w1 0 then .frunResume ga gd c else .frun ga gd c)
  | 15 => zeroIf (noBC && w1 % 2 ^ 32 == 0) (.fhalt ga gd c)
  | _ => .error .unusedFunction

/-- A word opens a command (R240). -/
def isCommandWord (w : Nat) : Bool := fldN w 26 6 == 63

/-- The instruction with its field values checked (row 3 of R247). -/
def checkFields (r : Except Reject Instr) : Except Reject Instr :=
  match r with
  | .ok i => if i.wellFormed then .ok i else .error .reservedValue
  | .error e => .error e

/-- The decoder over words: one word, or four where the first opens a command. -/
noncomputable def decode (ws : List (BitVec 32)) : Except Reject Instr :=
  match ws with
  | [] => .error .short
  | w :: rest =>
    if isCommandWord w.toNat then
      match rest with
      | w1 :: w2 :: w3 :: _ => checkFields (decCommand w.toNat w1.toNat w2.toNat w3.toNat)
      | _ => .error .short
    else checkFields (decWord w.toNat)

/-- Little-endian bytes to words (R6, 08: words are 32-bit little-endian). -/
def wordsOfBytes (bs : List (BitVec 8)) : List (BitVec 32) :=
  match bs with
  | b0 :: b1 :: b2 :: b3 :: rest =>
    BitVec.ofNat 32 (b0.toNat + b1.toNat * 0x100 + b2.toNat * 0x10000 + b3.toNat * 0x1000000) :: wordsOfBytes rest
  | _ => []

/-- The bytes of a word, in memory order. -/
def bytesOfWord (w : BitVec 32) : List (BitVec 8) :=
  [fld w.toNat 0 8, fld w.toNat 8 8, fld w.toNat 16 8, fld w.toNat 24 8]

/-- The decoder over the bytes an instruction is stored as. -/
noncomputable def decodeBytes (bs : List (BitVec 8)) : Except Reject Instr := decode (wordsOfBytes bs)

/-- The bytes of the longest instruction whose bits are w, numbered as the opcode table numbers them. -/
def tableBytes (w : Nat) : List (BitVec 8) := (List.range 16).map fun i => fld w (8 * i) 8

/-- The instruction the decoder reads from an instruction whose bits are w; bits above nbits are 0. -/
noncomputable def decodeTableWord (nbits w : Nat) : Option Instr :=
  match decodeBytes (tableBytes (w % 2 ^ nbits)) with
  | .ok i => some i
  | .error _ => none

/-- Word 0 of a command. -/
def cmdWord0 (kind : Nat) (r : CmdRegs) : BitVec 32 :=
  BitVec.ofNat 32 (0xFC000000 + kind * 0x100000 + r.ga.toNat * 0x8000 + r.gb.toNat * 0x400 + r.gc.toNat * 0x20 + r.gd.toNat)

/-- Words 2 and 3 of a command. -/
def compWords (c : Comp) : List (BitVec 32) :=
  [BitVec.ofNat 32 (c.ctr.toNat + c.ctile.toNat * 0x200 + c.oe.toNat * 0x40000 + c.sz.toNat * 0x80000 + c.add.toNat * 0x100000), c.sval]

/-- Bits 31 to 16 of word 1 of a COPY. -/
def followBits (f : Option Follow) : Nat :=
  match f with
  | none => 0
  | some x => 0x10000 + x.macc.toNat * 0x20000 + x.ma.toNat * 0x80000 + x.mb.toNat * 0x400000 + x.mstr.toNat * 0x2000000
      + x.msp.toNat * 0x8000000 + x.mneg.toNat * 0x10000000 + x.mz.toNat * 0x20000000 + x.mty.toNat * 0x40000000

/-- Bits 27 to 9 of word 1 of a pod operation. -/
def tagBits (t : Option PodTag) : Nat :=
  match t with
  | none => 0
  | some x => 0x200 + x.tk.toNat * 0x400 + x.tt.toNat * 0x80000

/-- The words of an instruction, written from the same tables as the decoder; a step of a unit has none. -/
def encode (x : Instr) : List (BitVec 32) :=
  match x with
  | .add d a b t u w => [BitVec.ofNat 32 (0x4000000 + d.toNat * 0x200000 + a.toNat * 0x10000 + b.toNat * 0x800 + t.toNat * 0x400 + u.toNat * 0x200 + w.toNat * 0x100)]
  | .sub d a b t u w => [BitVec.ofNat 32 (0x4000001 + d.toNat * 0x200000 + a.toNat * 0x10000 + b.toNat * 0x800 + t.toNat * 0x400 + u.toNat * 0x200 + w.toNat * 0x100)]
  | .mul d a b t u w => [BitVec.ofNat 32 (0x4000002 + d.toNat * 0x200000 + a.toNat * 0x10000 + b.toNat * 0x800 + t.toNat * 0x400 + u.toNat * 0x200 + w.toNat * 0x100)]
  | .mulh d a b t u => [BitVec.ofNat 32 (0x4000003 + d.toNat * 0x200000 + a.toNat * 0x10000 + b.toNat * 0x800 + t.toNat * 0x400 + u.toNat * 0x200)]
  | .mulhu d a b t u => [BitVec.ofNat 32 (0x4000004 + d.toNat * 0x200000 + a.toNat * 0x10000 + b.toNat * 0x800 + t.toNat * 0x400 + u.toNat * 0x200)]
  | .div d a b t u => [BitVec.ofNat 32 (0x4000005 + d.toNat * 0x200000 + a.toNat * 0x10000 + b.toNat * 0x800 + t.toNat * 0x400 + u.toNat * 0x200)]
  | .divu d a b t u => [BitVec.ofNat 32 (0x4000006 + d.toNat * 0x200000 + a.toNat * 0x10000 + b.toNat * 0x800 + t.toNat * 0x400 + u.toNat * 0x200)]
  | .rem d a b t u => [BitVec.ofNat 32 (0x4000007 + d.toNat * 0x200000 + a.toNat * 0x10000 + b.toNat * 0x800 + t.toNat * 0x400 + u.toNat * 0x200)]
  | .remu d a b t u => [BitVec.ofNat 32 (0x4000008 + d.toNat * 0x200000 + a.toNat * 0x10000 + b.toNat * 0x800 + t.toNat * 0x400 + u.toNat * 0x200)]
  | .and d a b t u => [BitVec.ofNat 32 (0x4000009 + d.toNat * 0x200000 + a.toNat * 0x10000 + b.toNat * 0x800 + t.toNat * 0x400 + u.toNat * 0x200)]
  | .or d a b t u => [BitVec.ofNat 32 (0x400000a + d.toNat * 0x200000 + a.toNat * 0x10000 + b.toNat * 0x800 + t.toNat * 0x400 + u.toNat * 0x200)]
  | .xor d a b t u => [BitVec.ofNat 32 (0x400000b + d.toNat * 0x200000 + a.toNat * 0x10000 + b.toNat * 0x800 + t.toNat * 0x400 + u.toNat * 0x200)]
  | .andn d a b t u => [BitVec.ofNat 32 (0x400000c + d.toNat * 0x200000 + a.toNat * 0x10000 + b.toNat * 0x800 + t.toNat * 0x400 + u.toNat * 0x200)]
  | .orn d a b t u => [BitVec.ofNat 32 (0x400000d + d.toNat * 0x200000 + a.toNat * 0x10000 + b.toNat * 0x800 + t.toNat * 0x400 + u.toNat * 0x200)]
  | .sll d a b t u w => [BitVec.ofNat 32 (0x400000e + d.toNat * 0x200000 + a.toNat * 0x10000 + b.toNat * 0x800 + t.toNat * 0x400 + u.toNat * 0x200 + w.toNat * 0x100)]
  | .srl d a b t u w => [BitVec.ofNat 32 (0x400000f + d.toNat * 0x200000 + a.toNat * 0x10000 + b.toNat * 0x800 + t.toNat * 0x400 + u.toNat * 0x200 + w.toNat * 0x100)]
  | .sra d a b t u w => [BitVec.ofNat 32 (0x4000010 + d.toNat * 0x200000 + a.toNat * 0x10000 + b.toNat * 0x800 + t.toNat * 0x400 + u.toNat * 0x200 + w.toNat * 0x100)]
  | .rol d a b t u w => [BitVec.ofNat 32 (0x4000011 + d.toNat * 0x200000 + a.toNat * 0x10000 + b.toNat * 0x800 + t.toNat * 0x400 + u.toNat * 0x200 + w.toNat * 0x100)]
  | .ror d a b t u w => [BitVec.ofNat 32 (0x4000012 + d.toNat * 0x200000 + a.toNat * 0x10000 + b.toNat * 0x800 + t.toNat * 0x400 + u.toNat * 0x200 + w.toNat * 0x100)]
  | .slt d a b t u => [BitVec.ofNat 32 (0x4000013 + d.toNat * 0x200000 + a.toNat * 0x10000 + b.toNat * 0x800 + t.toNat * 0x400 + u.toNat * 0x200)]
  | .sltu d a b t u => [BitVec.ofNat 32 (0x4000014 + d.toNat * 0x200000 + a.toNat * 0x10000 + b.toNat * 0x800 + t.toNat * 0x400 + u.toNat * 0x200)]
  | .min d a b t u => [BitVec.ofNat 32 (0x4000015 + d.toNat * 0x200000 + a.toNat * 0x10000 + b.toNat * 0x800 + t.toNat * 0x400 + u.toNat * 0x200)]
  | .max d a b t u => [BitVec.ofNat 32 (0x4000016 + d.toNat * 0x200000 + a.toNat * 0x10000 + b.toNat * 0x800 + t.toNat * 0x400 + u.toNat * 0x200)]
  | .minu d a b t u => [BitVec.ofNat 32 (0x4000017 + d.toNat * 0x200000 + a.toNat * 0x10000 + b.toNat * 0x800 + t.toNat * 0x400 + u.toNat * 0x200)]
  | .maxu d a b t u => [BitVec.ofNat 32 (0x4000018 + d.toNat * 0x200000 + a.toNat * 0x10000 + b.toNat * 0x800 + t.toNat * 0x400 + u.toNat * 0x200)]
  | .clz d a t w => [BitVec.ofNat 32 (0x4000019 + d.toNat * 0x200000 + a.toNat * 0x10000 + t.toNat * 0x400 + w.toNat * 0x100)]
  | .ctz d a t w => [BitVec.ofNat 32 (0x400001a + d.toNat * 0x200000 + a.toNat * 0x10000 + t.toNat * 0x400 + w.toNat * 0x100)]
  | .popc d a t w => [BitVec.ofNat 32 (0x400001b + d.toNat * 0x200000 + a.toNat * 0x10000 + t.toNat * 0x400 + w.toNat * 0x100)]
  | .bswap d a t => [BitVec.ofNat 32 (0x400001c + d.toNat * 0x200000 + a.toNat * 0x10000 + t.toNat * 0x400)]
  | .sext d a s t => [BitVec.ofNat 32 (0x400001d + d.toNat * 0x200000 + a.toNat * 0x10000 + s.toNat * 0x800 + t.toNat * 0x400)]
  | .zext d a s t => [BitVec.ofNat 32 (0x400001e + d.toNat * 0x200000 + a.toNat * 0x10000 + s.toNat * 0x800 + t.toNat * 0x400)]
  | .cmov d a b t u => [BitVec.ofNat 32 (0x400001f + d.toNat * 0x200000 + a.toNat * 0x10000 + b.toNat * 0x800 + t.toNat * 0x400 + u.toNat * 0x200)]
  | .hmix d a b t u => [BitVec.ofNat 32 (0x4000020 + d.toNat * 0x200000 + a.toNat * 0x10000 + b.toNat * 0x800 + t.toNat * 0x400 + u.toNat * 0x200)]
  | .crc32c d a b t u => [BitVec.ofNat 32 (0x4000021 + d.toNat * 0x200000 + a.toNat * 0x10000 + b.toNat * 0x800 + t.toNat * 0x400 + u.toNat * 0x200)]
  | .addi d a t i => [BitVec.ofNat 32 (0x8000000 + d.toNat * 0x200000 + a.toNat * 0x10000 + t.toNat * 0x8000 + i.toNat * 0x1)]
  | .andi d a t i => [BitVec.ofNat 32 (0xc000000 + d.toNat * 0x200000 + a.toNat * 0x10000 + t.toNat * 0x8000 + i.toNat * 0x1)]
  | .ori d a t i => [BitVec.ofNat 32 (0x10000000 + d.toNat * 0x200000 + a.toNat * 0x10000 + t.toNat * 0x8000 + i.toNat * 0x1)]
  | .xori d a t i => [BitVec.ofNat 32 (0x14000000 + d.toNat * 0x200000 + a.toNat * 0x10000 + t.toNat * 0x8000 + i.toNat * 0x1)]
  | .slti d a t i => [BitVec.ofNat 32 (0x18000000 + d.toNat * 0x200000 + a.toNat * 0x10000 + t.toNat * 0x8000 + i.toNat * 0x1)]
  | .sltiu d a t i => [BitVec.ofNat 32 (0x1c000000 + d.toNat * 0x200000 + a.toNat * 0x10000 + t.toNat * 0x8000 + i.toNat * 0x1)]
  | .slli d a t n w => [BitVec.ofNat 32 (0x20000000 + d.toNat * 0x200000 + a.toNat * 0x10000 + t.toNat * 0x8000 + n.toNat * 0x40 + w.toNat * 0x20)]
  | .srli d a t n w => [BitVec.ofNat 32 (0x20001000 + d.toNat * 0x200000 + a.toNat * 0x10000 + t.toNat * 0x8000 + n.toNat * 0x40 + w.toNat * 0x20)]
  | .srai d a t n w => [BitVec.ofNat 32 (0x20002000 + d.toNat * 0x200000 + a.toNat * 0x10000 + t.toNat * 0x8000 + n.toNat * 0x40 + w.toNat * 0x20)]
  | .rori d a t n w => [BitVec.ofNat 32 (0x20003000 + d.toNat * 0x200000 + a.toNat * 0x10000 + t.toNat * 0x8000 + n.toNat * 0x40 + w.toNat * 0x20)]
  | .movhi d i => [BitVec.ofNat 32 (0x24000000 + d.toNat * 0x200000 + i.toNat * 0x1)]
  | .addpc d i => [BitVec.ofNat 32 (0x28000000 + d.toNat * 0x200000 + i.toNat * 0x1)]
  | .fadd d a b t u p m => [BitVec.ofNat 32 (0x2c000000 + d.toNat * 0x200000 + a.toNat * 0x10000 + b.toNat * 0x800 + t.toNat * 0x400 + u.toNat * 0x200 + p.toNat * 0x100 + m.toNat * 0x20)]
  | .fsub d a b t u p m => [BitVec.ofNat 32 (0x2c000001 + d.toNat * 0x200000 + a.toNat * 0x10000 + b.toNat * 0x800 + t.toNat * 0x400 + u.toNat * 0x200 + p.toNat * 0x100 + m.toNat * 0x20)]
  | .fmul d a b t u p m => [BitVec.ofNat 32 (0x2c000002 + d.toNat * 0x200000 + a.toNat * 0x10000 + b.toNat * 0x800 + t.toNat * 0x400 + u.toNat * 0x200 + p.toNat * 0x100 + m.toNat * 0x20)]
  | .fdiv d a b t u p m => [BitVec.ofNat 32 (0x2c000003 + d.toNat * 0x200000 + a.toNat * 0x10000 + b.toNat * 0x800 + t.toNat * 0x400 + u.toNat * 0x200 + p.toNat * 0x100 + m.toNat * 0x20)]
  | .fsqrt d a t p m => [BitVec.ofNat 32 (0x2c000004 + d.toNat * 0x200000 + a.toNat * 0x10000 + t.toNat * 0x400 + p.toNat * 0x100 + m.toNat * 0x20)]
  | .fma d a b t u p m => [BitVec.ofNat 32 (0x2c000005 + d.toNat * 0x200000 + a.toNat * 0x10000 + b.toNat * 0x800 + t.toNat * 0x400 + u.toNat * 0x200 + p.toNat * 0x100 + m.toNat * 0x20)]
  | .fnma d a b t u p m => [BitVec.ofNat 32 (0x2c000006 + d.toNat * 0x200000 + a.toNat * 0x10000 + b.toNat * 0x800 + t.toNat * 0x400 + u.toNat * 0x200 + p.toNat * 0x100 + m.toNat * 0x20)]
  | .fmin d a b t u p => [BitVec.ofNat 32 (0x2c000007 + d.toNat * 0x200000 + a.toNat * 0x10000 + b.toNat * 0x800 + t.toNat * 0x400 + u.toNat * 0x200 + p.toNat * 0x100)]
  | .fmax d a b t u p => [BitVec.ofNat 32 (0x2c000008 + d.toNat * 0x200000 + a.toNat * 0x10000 + b.toNat * 0x800 + t.toNat * 0x400 + u.toNat * 0x200 + p.toNat * 0x100)]
  | .feq d a b t u p => [BitVec.ofNat 32 (0x2c000009 + d.toNat * 0x200000 + a.toNat * 0x10000 + b.toNat * 0x800 + t.toNat * 0x400 + u.toNat * 0x200 + p.toNat * 0x100)]
  | .flt d a b t u p => [BitVec.ofNat 32 (0x2c00000a + d.toNat * 0x200000 + a.toNat * 0x10000 + b.toNat * 0x800 + t.toNat * 0x400 + u.toNat * 0x200 + p.toNat * 0x100)]
  | .fle d a b t u p => [BitVec.ofNat 32 (0x2c00000b + d.toNat * 0x200000 + a.toNat * 0x10000 + b.toNat * 0x800 + t.toNat * 0x400 + u.toNat * 0x200 + p.toNat * 0x100)]
  | .fcvt d a s t p m => [BitVec.ofNat 32 (0x2c00000c + d.toNat * 0x200000 + a.toNat * 0x10000 + s.toNat * 0x800 + t.toNat * 0x400 + p.toNat * 0x100 + m.toNat * 0x20)]
  | .fclass d a t p => [BitVec.ofNat 32 (0x2c00000d + d.toNat * 0x200000 + a.toNat * 0x10000 + t.toNat * 0x400 + p.toNat * 0x100)]
  | .beq a b o => [BitVec.ofNat 32 (0x30000000 + a.toNat * 0x200000 + b.toNat * 0x10000 + o.toNat * 0x1)]
  | .bne a b o => [BitVec.ofNat 32 (0x30002000 + a.toNat * 0x200000 + b.toNat * 0x10000 + o.toNat * 0x1)]
  | .blt a b o => [BitVec.ofNat 32 (0x30004000 + a.toNat * 0x200000 + b.toNat * 0x10000 + o.toNat * 0x1)]
  | .bge a b o => [BitVec.ofNat 32 (0x30006000 + a.toNat * 0x200000 + b.toNat * 0x10000 + o.toNat * 0x1)]
  | .bltu a b o => [BitVec.ofNat 32 (0x30008000 + a.toNat * 0x200000 + b.toNat * 0x10000 + o.toNat * 0x1)]
  | .bgeu a b o => [BitVec.ofNat 32 (0x3000a000 + a.toNat * 0x200000 + b.toNat * 0x10000 + o.toNat * 0x1)]
  | .jal d o => [BitVec.ofNat 32 (0x34000000 + d.toNat * 0x200000 + o.toNat * 0x1)]
  | .jalr d a t i => [BitVec.ofNat 32 (0x38000000 + d.toNat * 0x200000 + a.toNat * 0x10000 + t.toNat * 0x8000 + i.toNat * 0x1)]
  | .ld d a z u t o => [BitVec.ofNat 32 (0x3c000000 + d.toNat * 0x200000 + a.toNat * 0x10000 + z.toNat * 0x4000 + u.toNat * 0x2000 + t.toNat * 0x1000 + o.toNat * 0x1)]
  | .st s a z t o => [BitVec.ofNat 32 (0x40000000 + s.toNat * 0x200000 + a.toNat * 0x10000 + z.toNat * 0x4000 + t.toNat * 0x1000 + o.toNat * 0x1)]
  | .ldo d a z u e c t => [BitVec.ofNat 32 (0x5c000000 + d.toNat * 0x200000 + a.toNat * 0x10000 + z.toNat * 0x4000 + u.toNat * 0x2000 + e.toNat * 0x400 + c.toNat * 0x80 + t.toNat * 0x40)]
  | .sto s a z e c t => [BitVec.ofNat 32 (0x5c001000 + s.toNat * 0x200000 + a.toNat * 0x10000 + z.toNat * 0x4000 + e.toNat * 0x400 + c.toNat * 0x80 + t.toNat * 0x40)]
  | .amoSwap d a b z e c t => [BitVec.ofNat 32 (0x44000000 + d.toNat * 0x200000 + a.toNat * 0x10000 + b.toNat * 0x800 + z.toNat * 0x40 + e.toNat * 0x10 + c.toNat * 0x2 + t.toNat * 0x1)]
  | .amoCas d a b z e c t => [BitVec.ofNat 32 (0x44000080 + d.toNat * 0x200000 + a.toNat * 0x10000 + b.toNat * 0x800 + z.toNat * 0x40 + e.toNat * 0x10 + c.toNat * 0x2 + t.toNat * 0x1)]
  | .amoAdd d a b z e c t => [BitVec.ofNat 32 (0x44000100 + d.toNat * 0x200000 + a.toNat * 0x10000 + b.toNat * 0x800 + z.toNat * 0x40 + e.toNat * 0x10 + c.toNat * 0x2 + t.toNat * 0x1)]
  | .amoAnd d a b z e c t => [BitVec.ofNat 32 (0x44000180 + d.toNat * 0x200000 + a.toNat * 0x10000 + b.toNat * 0x800 + z.toNat * 0x40 + e.toNat * 0x10 + c.toNat * 0x2 + t.toNat * 0x1)]
  | .amoOr d a b z e c t => [BitVec.ofNat 32 (0x44000200 + d.toNat * 0x200000 + a.toNat * 0x10000 + b.toNat * 0x800 + z.toNat * 0x40 + e.toNat * 0x10 + c.toNat * 0x2 + t.toNat * 0x1)]
  | .amoXor d a b z e c t => [BitVec.ofNat 32 (0x44000280 + d.toNat * 0x200000 + a.toNat * 0x10000 + b.toNat * 0x800 + z.toNat * 0x40 + e.toNat * 0x10 + c.toNat * 0x2 + t.toNat * 0x1)]
  | .amoMin d a b z e c t => [BitVec.ofNat 32 (0x44000300 + d.toNat * 0x200000 + a.toNat * 0x10000 + b.toNat * 0x800 + z.toNat * 0x40 + e.toNat * 0x10 + c.toNat * 0x2 + t.toNat * 0x1)]
  | .amoMax d a b z e c t => [BitVec.ofNat 32 (0x44000380 + d.toNat * 0x200000 + a.toNat * 0x10000 + b.toNat * 0x800 + z.toNat * 0x40 + e.toNat * 0x10 + c.toNat * 0x2 + t.toNat * 0x1)]
  | .amoMinu d a b z e c t => [BitVec.ofNat 32 (0x44000400 + d.toNat * 0x200000 + a.toNat * 0x10000 + b.toNat * 0x800 + z.toNat * 0x40 + e.toNat * 0x10 + c.toNat * 0x2 + t.toNat * 0x1)]
  | .amoMaxu d a b z e c t => [BitVec.ofNat 32 (0x44000480 + d.toNat * 0x200000 + a.toNat * 0x10000 + b.toNat * 0x800 + z.toNat * 0x40 + e.toNat * 0x10 + c.toNat * 0x2 + t.toNat * 0x1)]
  | .amoFadd d a b z e c t => [BitVec.ofNat 32 (0x44000500 + d.toNat * 0x200000 + a.toNat * 0x10000 + b.toNat * 0x800 + z.toNat * 0x40 + e.toNat * 0x10 + c.toNat * 0x2 + t.toNat * 0x1)]
  | .redAdd b a z e c t => [BitVec.ofNat 32 (0x48000000 + b.toNat * 0x200000 + a.toNat * 0x10000 + z.toNat * 0x800 + e.toNat * 0x200 + c.toNat * 0x40 + t.toNat * 0x20)]
  | .redAnd b a z e c t => [BitVec.ofNat 32 (0x48001000 + b.toNat * 0x200000 + a.toNat * 0x10000 + z.toNat * 0x800 + e.toNat * 0x200 + c.toNat * 0x40 + t.toNat * 0x20)]
  | .redOr b a z e c t => [BitVec.ofNat 32 (0x48002000 + b.toNat * 0x200000 + a.toNat * 0x10000 + z.toNat * 0x800 + e.toNat * 0x200 + c.toNat * 0x40 + t.toNat * 0x20)]
  | .redXor b a z e c t => [BitVec.ofNat 32 (0x48003000 + b.toNat * 0x200000 + a.toNat * 0x10000 + z.toNat * 0x800 + e.toNat * 0x200 + c.toNat * 0x40 + t.toNat * 0x20)]
  | .redMin b a z e c t => [BitVec.ofNat 32 (0x48004000 + b.toNat * 0x200000 + a.toNat * 0x10000 + z.toNat * 0x800 + e.toNat * 0x200 + c.toNat * 0x40 + t.toNat * 0x20)]
  | .redMax b a z e c t => [BitVec.ofNat 32 (0x48005000 + b.toNat * 0x200000 + a.toNat * 0x10000 + z.toNat * 0x800 + e.toNat * 0x200 + c.toNat * 0x40 + t.toNat * 0x20)]
  | .redMinu b a z e c t => [BitVec.ofNat 32 (0x48006000 + b.toNat * 0x200000 + a.toNat * 0x10000 + z.toNat * 0x800 + e.toNat * 0x200 + c.toNat * 0x40 + t.toNat * 0x20)]
  | .redMaxu b a z e c t => [BitVec.ofNat 32 (0x48007000 + b.toNat * 0x200000 + a.toNat * 0x10000 + z.toNat * 0x800 + e.toNat * 0x200 + c.toNat * 0x40 + t.toNat * 0x20)]
  | .redFadd b a z e c t => [BitVec.ofNat 32 (0x48008000 + b.toNat * 0x200000 + a.toNat * 0x10000 + z.toNat * 0x800 + e.toNat * 0x200 + c.toNat * 0x40 + t.toNat * 0x20)]
  | .fence c k e => [BitVec.ofNat 32 (0x4c000000 + c.toNat * 0x200 + k.toNat * 0x20 + e.toNat * 0x10)]
  | .watch a => [BitVec.ofNat 32 (0x4c001000 + a.toNat * 0x200000)]
  | .waitw d a c b => [BitVec.ofNat 32 (0x4c002000 + d.toNat * 0x200000 + a.toNat * 0x10000 + c.toNat * 0x200 + b.toNat * 0x10)]
  | .bar a b c => [BitVec.ofNat 32 (0x4c003000 + a.toNat * 0x200000 + b.toNat * 0x10000 + c.toNat * 0x200)]
  | .arrive a b c => [BitVec.ofNat 32 (0x4c004000 + a.toNat * 0x200000 + b.toNat * 0x10000 + c.toNat * 0x200)]
  | .waitb a b c => [BitVec.ofNat 32 (0x4c005000 + a.toNat * 0x200000 + b.toNat * 0x10000 + c.toNat * 0x200)]
  | .mfc g i => [BitVec.ofNat 32 (0x50000000 + g.toNat * 0x200000 + i.toNat * 0x1)]
  | .mtc g t i => [BitVec.ofNat 32 (0x50040000 + g.toNat * 0x200000 + t.toNat * 0x20000 + i.toNat * 0x1)]
  | .mtci v i => [BitVec.ofNat 32 (0x50080000 + v.toNat * 0x200000 + i.toNat * 0x1)]
  | .crsb g t i => [BitVec.ofNat 32 (0x500c0000 + g.toNat * 0x200000 + t.toNat * 0x20000 + i.toNat * 0x1)]
  | .crcb g t i => [BitVec.ofNat 32 (0x50100000 + g.toNat * 0x200000 + t.toNat * 0x20000 + i.toNat * 0x1)]
  | .tsackRetry _ _ => []
  | .tsackFail _ _ => []
  | .tsackFrame _ _ => []
  | .tsackInvalid _ _ _ => []
  | .nendWrite _ => []
  | .watermarkWrite _ _ => []
  | .trap i => [BitVec.ofNat 32 (0x54000000 + i.toNat * 0x1)]
  | .rfe => [BitVec.ofNat 32 (0x54000800)]
  | .halt g => [BitVec.ofNat 32 (0x54001000 + g.toNat * 0x200000)]
  | .yield g => [BitVec.ofNat 32 (0x54001800 + g.toNat * 0x200000)]
  | .yieldExpire _ => []
  | .brk => [BitVec.ofNat 32 (0x54002000)]
  | .shoot g h => [BitVec.ofNat 32 (0x54002800 + g.toNat * 0x200000 + h.toNat * 0x10000)]
  | .shootBroadcast _ => []
  | .shootDrop _ _ => []
  | .shootAck _ _ => []
  | .shootComplete _ => []
  | .cwb g h => [BitVec.ofNat 32 (0x54003000 + g.toNat * 0x200000 + h.toNat * 0x10000)]
  | .cinv g => [BitVec.ofNat 32 (0x54003800 + g.toNat * 0x200000)]
  | .cinvRange g h => [BitVec.ofNat 32 (0x54003800 + g.toNat * 0x200000 + h.toNat * 0x10000)]
  | .cflush g h => [BitVec.ofNat 32 (0x54004000 + g.toNat * 0x200000 + h.toNat * 0x10000)]
  | .vcdef g h => [BitVec.ofNat 32 (0x54004800 + g.toNat * 0x200000 + h.toNat * 0x10000)]
  | .vcdefProceed _ => []
  | .vcqry g h => [BitVec.ofNat 32 (0x54005000 + g.toNat * 0x200000 + h.toNat * 0x10000)]
  | .launch g h n => [BitVec.ofNat 32 (0x58000000 + g.toNat * 0x200000 + h.toNat * 0x10000 + n.toNat * 0x800)]
  | .retire => [BitVec.ofNat 32 (0x58001000)]
  | .ctradd g h => [BitVec.ofNat 32 (0x58002000 + g.toNat * 0x200000 + h.toNat * 0x10000)]
  | .ctrrd g h => [BitVec.ofNat 32 (0x58003000 + g.toNat * 0x200000 + h.toNat * 0x10000)]
  | .ctrset g h => [BitVec.ofNat 32 (0x58004000 + g.toNat * 0x200000 + h.toNat * 0x10000)]
  | .setvl d a e f l m c => [BitVec.ofNat 32 (0x80000000 + d.toNat * 0x200000 + a.toNat * 0x10000 + e.toNat * 0x2000 + f.toNat * 0x400 + l.toNat * 0x80 + m.toNat * 0x10 + c.toNat * 0x2)]
  | .vadd d a b k c t s => [BitVec.ofNat 32 (0x84000000 + d.toNat * 0x200000 + a.toNat * 0x10000 + b.toNat * 0x800 + k.toNat * 0x100 + c.toNat * 0x80 + t.toNat * 0x40 + s.toNat * 0x20)]
  | .vsub d a b k c t s => [BitVec.ofNat 32 (0x84000001 + d.toNat * 0x200000 + a.toNat * 0x10000 + b.toNat * 0x800 + k.toNat * 0x100 + c.toNat * 0x80 + t.toNat * 0x40 + s.toNat * 0x20)]
  | .vmul d a b k c t s => [BitVec.ofNat 32 (0x84000002 + d.toNat * 0x200000 + a.toNat * 0x10000 + b.toNat * 0x800 + k.toNat * 0x100 + c.toNat * 0x80 + t.toNat * 0x40 + s.toNat * 0x20)]
  | .vmulh d a b k c t s => [BitVec.ofNat 32 (0x84000003 + d.toNat * 0x200000 + a.toNat * 0x10000 + b.toNat * 0x800 + k.toNat * 0x100 + c.toNat * 0x80 + t.toNat * 0x40 + s.toNat * 0x20)]
  | .vmulhu d a b k c t s => [BitVec.ofNat 32 (0x84000004 + d.toNat * 0x200000 + a.toNat * 0x10000 + b.toNat * 0x800 + k.toNat * 0x100 + c.toNat * 0x80 + t.toNat * 0x40 + s.toNat * 0x20)]
  | .vand d a b k c t s => [BitVec.ofNat 32 (0x84000005 + d.toNat * 0x200000 + a.toNat * 0x10000 + b.toNat * 0x800 + k.toNat * 0x100 + c.toNat * 0x80 + t.toNat * 0x40 + s.toNat * 0x20)]
  | .vor d a b k c t s => [BitVec.ofNat 32 (0x84000006 + d.toNat * 0x200000 + a.toNat * 0x10000 + b.toNat * 0x800 + k.toNat * 0x100 + c.toNat * 0x80 + t.toNat * 0x40 + s.toNat * 0x20)]
  | .vxor d a b k c t s => [BitVec.ofNat 32 (0x84000007 + d.toNat * 0x200000 + a.toNat * 0x10000 + b.toNat * 0x800 + k.toNat * 0x100 + c.toNat * 0x80 + t.toNat * 0x40 + s.toNat * 0x20)]
  | .vsll d a b k c t s => [BitVec.ofNat 32 (0x84000008 + d.toNat * 0x200000 + a.toNat * 0x10000 + b.toNat * 0x800 + k.toNat * 0x100 + c.toNat * 0x80 + t.toNat * 0x40 + s.toNat * 0x20)]
  | .vsrl d a b k c t s => [BitVec.ofNat 32 (0x84000009 + d.toNat * 0x200000 + a.toNat * 0x10000 + b.toNat * 0x800 + k.toNat * 0x100 + c.toNat * 0x80 + t.toNat * 0x40 + s.toNat * 0x20)]
  | .vsra d a b k c t s => [BitVec.ofNat 32 (0x8400000a + d.toNat * 0x200000 + a.toNat * 0x10000 + b.toNat * 0x800 + k.toNat * 0x100 + c.toNat * 0x80 + t.toNat * 0x40 + s.toNat * 0x20)]
  | .vmin d a b k c t s => [BitVec.ofNat 32 (0x8400000b + d.toNat * 0x200000 + a.toNat * 0x10000 + b.toNat * 0x800 + k.toNat * 0x100 + c.toNat * 0x80 + t.toNat * 0x40 + s.toNat * 0x20)]
  | .vmax d a b k c t s => [BitVec.ofNat 32 (0x8400000c + d.toNat * 0x200000 + a.toNat * 0x10000 + b.toNat * 0x800 + k.toNat * 0x100 + c.toNat * 0x80 + t.toNat * 0x40 + s.toNat * 0x20)]
  | .vminu d a b k c t s => [BitVec.ofNat 32 (0x8400000d + d.toNat * 0x200000 + a.toNat * 0x10000 + b.toNat * 0x800 + k.toNat * 0x100 + c.toNat * 0x80 + t.toNat * 0x40 + s.toNat * 0x20)]
  | .vmaxu d a b k c t s => [BitVec.ofNat 32 (0x8400000e + d.toNat * 0x200000 + a.toNat * 0x10000 + b.toNat * 0x800 + k.toNat * 0x100 + c.toNat * 0x80 + t.toNat * 0x40 + s.toNat * 0x20)]
  | .vabsd d a b k c t s => [BitVec.ofNat 32 (0x8400000f + d.toNat * 0x200000 + a.toNat * 0x10000 + b.toNat * 0x800 + k.toNat * 0x100 + c.toNat * 0x80 + t.toNat * 0x40 + s.toNat * 0x20)]
  | .vadds d a b k c t s => [BitVec.ofNat 32 (0x84000010 + d.toNat * 0x200000 + a.toNat * 0x10000 + b.toNat * 0x800 + k.toNat * 0x100 + c.toNat * 0x80 + t.toNat * 0x40 + s.toNat * 0x20)]
  | .vsubs d a b k c t s => [BitVec.ofNat 32 (0x84000011 + d.toNat * 0x200000 + a.toNat * 0x10000 + b.toNat * 0x800 + k.toNat * 0x100 + c.toNat * 0x80 + t.toNat * 0x40 + s.toNat * 0x20)]
  | .vaddus d a b k c t s => [BitVec.ofNat 32 (0x84000012 + d.toNat * 0x200000 + a.toNat * 0x10000 + b.toNat * 0x800 + k.toNat * 0x100 + c.toNat * 0x80 + t.toNat * 0x40 + s.toNat * 0x20)]
  | .vsubus d a b k c t s => [BitVec.ofNat 32 (0x84000013 + d.toNat * 0x200000 + a.toNat * 0x10000 + b.toNat * 0x800 + k.toNat * 0x100 + c.toNat * 0x80 + t.toNat * 0x40 + s.toNat * 0x20)]
  | .vdot4 d a b k c t s => [BitVec.ofNat 32 (0x84000014 + d.toNat * 0x200000 + a.toNat * 0x10000 + b.toNat * 0x800 + k.toNat * 0x100 + c.toNat * 0x80 + t.toNat * 0x40 + s.toNat * 0x20)]
  | .vmac d a b k c t s => [BitVec.ofNat 32 (0x84000015 + d.toNat * 0x200000 + a.toNat * 0x10000 + b.toNat * 0x800 + k.toNat * 0x100 + c.toNat * 0x80 + t.toNat * 0x40 + s.toNat * 0x20)]
  | .vfadd d a b k c t s => [BitVec.ofNat 32 (0x88000000 + d.toNat * 0x200000 + a.toNat * 0x10000 + b.toNat * 0x800 + k.toNat * 0x100 + c.toNat * 0x80 + t.toNat * 0x40 + s.toNat * 0x20)]
  | .vfsub d a b k c t s => [BitVec.ofNat 32 (0x88000001 + d.toNat * 0x200000 + a.toNat * 0x10000 + b.toNat * 0x800 + k.toNat * 0x100 + c.toNat * 0x80 + t.toNat * 0x40 + s.toNat * 0x20)]
  | .vfmul d a b k c t s => [BitVec.ofNat 32 (0x88000002 + d.toNat * 0x200000 + a.toNat * 0x10000 + b.toNat * 0x800 + k.toNat * 0x100 + c.toNat * 0x80 + t.toNat * 0x40 + s.toNat * 0x20)]
  | .vfma d a b k c t s => [BitVec.ofNat 32 (0x88000003 + d.toNat * 0x200000 + a.toNat * 0x10000 + b.toNat * 0x800 + k.toNat * 0x100 + c.toNat * 0x80 + t.toNat * 0x40 + s.toNat * 0x20)]
  | .vfnma d a b k c t s => [BitVec.ofNat 32 (0x88000004 + d.toNat * 0x200000 + a.toNat * 0x10000 + b.toNat * 0x800 + k.toNat * 0x100 + c.toNat * 0x80 + t.toNat * 0x40 + s.toNat * 0x20)]
  | .vfdiv d a b k c t s => [BitVec.ofNat 32 (0x88000005 + d.toNat * 0x200000 + a.toNat * 0x10000 + b.toNat * 0x800 + k.toNat * 0x100 + c.toNat * 0x80 + t.toNat * 0x40 + s.toNat * 0x20)]
  | .vfsqrt d a k c t => [BitVec.ofNat 32 (0x88000006 + d.toNat * 0x200000 + a.toNat * 0x10000 + k.toNat * 0x100 + c.toNat * 0x80 + t.toNat * 0x40)]
  | .vfmin d a b k c t s => [BitVec.ofNat 32 (0x88000007 + d.toNat * 0x200000 + a.toNat * 0x10000 + b.toNat * 0x800 + k.toNat * 0x100 + c.toNat * 0x80 + t.toNat * 0x40 + s.toNat * 0x20)]
  | .vfmax d a b k c t s => [BitVec.ofNat 32 (0x88000008 + d.toNat * 0x200000 + a.toNat * 0x10000 + b.toNat * 0x800 + k.toNat * 0x100 + c.toNat * 0x80 + t.toNat * 0x40 + s.toNat * 0x20)]
  | .vfabs d a k c t => [BitVec.ofNat 32 (0x88000009 + d.toNat * 0x200000 + a.toNat * 0x10000 + k.toNat * 0x100 + c.toNat * 0x80 + t.toNat * 0x40)]
  | .vfneg d a k c t => [BitVec.ofNat 32 (0x8800000a + d.toNat * 0x200000 + a.toNat * 0x10000 + k.toNat * 0x100 + c.toNat * 0x80 + t.toNat * 0x40)]
  | .vfscl d a b k c t s => [BitVec.ofNat 32 (0x8800000b + d.toNat * 0x200000 + a.toNat * 0x10000 + b.toNat * 0x800 + k.toNat * 0x100 + c.toNat * 0x80 + t.toNat * 0x40 + s.toNat * 0x20)]
  | .vsfuExp2 d a k c t => [BitVec.ofNat 32 (0x8c000000 + d.toNat * 0x200000 + a.toNat * 0x10000 + k.toNat * 0x100 + c.toNat * 0x80 + t.toNat * 0x40)]
  | .vsfuLog2 d a k c t => [BitVec.ofNat 32 (0x8c000001 + d.toNat * 0x200000 + a.toNat * 0x10000 + k.toNat * 0x100 + c.toNat * 0x80 + t.toNat * 0x40)]
  | .vsfuRcp d a k c t => [BitVec.ofNat 32 (0x8c000002 + d.toNat * 0x200000 + a.toNat * 0x10000 + k.toNat * 0x100 + c.toNat * 0x80 + t.toNat * 0x40)]
  | .vsfuRsqrt d a k c t => [BitVec.ofNat 32 (0x8c000003 + d.toNat * 0x200000 + a.toNat * 0x10000 + k.toNat * 0x100 + c.toNat * 0x80 + t.toNat * 0x40)]
  | .vsfuSin d a k c t => [BitVec.ofNat 32 (0x8c000004 + d.toNat * 0x200000 + a.toNat * 0x10000 + k.toNat * 0x100 + c.toNat * 0x80 + t.toNat * 0x40)]
  | .vsfuCos d a k c t => [BitVec.ofNat 32 (0x8c000005 + d.toNat * 0x200000 + a.toNat * 0x10000 + k.toNat * 0x100 + c.toNat * 0x80 + t.toNat * 0x40)]
  | .vsfuTanh d a k c t => [BitVec.ofNat 32 (0x8c000006 + d.toNat * 0x200000 + a.toNat * 0x10000 + k.toNat * 0x100 + c.toNat * 0x80 + t.toNat * 0x40)]
  | .vsfuSigm d a k c t => [BitVec.ofNat 32 (0x8c000007 + d.toNat * 0x200000 + a.toNat * 0x10000 + k.toNat * 0x100 + c.toNat * 0x80 + t.toNat * 0x40)]
  | .vcmp d a b k c t s n => [BitVec.ofNat 32 (0x90000000 + d.toNat * 0x200000 + a.toNat * 0x10000 + b.toNat * 0x800 + k.toNat * 0x100 + c.toNat * 0x80 + t.toNat * 0x40 + s.toNat * 0x20 + n.toNat * 0x1)]
  | .vfcmp d a b k c t s n => [BitVec.ofNat 32 (0x90000010 + d.toNat * 0x200000 + a.toNat * 0x10000 + b.toNat * 0x800 + k.toNat * 0x100 + c.toNat * 0x80 + t.toNat * 0x40 + s.toNat * 0x20 + n.toNat * 0x1)]
  | .mand d a b k c t => [BitVec.ofNat 32 (0x94000000 + d.toNat * 0x200000 + a.toNat * 0x10000 + b.toNat * 0x800 + k.toNat * 0x100 + c.toNat * 0x80 + t.toNat * 0x40)]
  | .mor d a b k c t => [BitVec.ofNat 32 (0x94000001 + d.toNat * 0x200000 + a.toNat * 0x10000 + b.toNat * 0x800 + k.toNat * 0x100 + c.toNat * 0x80 + t.toNat * 0x40)]
  | .mxor d a b k c t => [BitVec.ofNat 32 (0x94000002 + d.toNat * 0x200000 + a.toNat * 0x10000 + b.toNat * 0x800 + k.toNat * 0x100 + c.toNat * 0x80 + t.toNat * 0x40)]
  | .mandn d a b k c t => [BitVec.ofNat 32 (0x94000003 + d.toNat * 0x200000 + a.toNat * 0x10000 + b.toNat * 0x800 + k.toNat * 0x100 + c.toNat * 0x80 + t.toNat * 0x40)]
  | .mnot d a k c t => [BitVec.ofNat 32 (0x94000004 + d.toNat * 0x200000 + a.toNat * 0x10000 + k.toNat * 0x100 + c.toNat * 0x80 + t.toNat * 0x40)]
  | .mpopc d a k c t => [BitVec.ofNat 32 (0x94000005 + d.toNat * 0x200000 + a.toNat * 0x10000 + k.toNat * 0x100 + c.toNat * 0x80 + t.toNat * 0x40)]
  | .mfirst d a k c t => [BitVec.ofNat 32 (0x94000006 + d.toNat * 0x200000 + a.toNat * 0x10000 + k.toNat * 0x100 + c.toNat * 0x80 + t.toNat * 0x40)]
  | .mset d k c t => [BitVec.ofNat 32 (0x94000007 + d.toNat * 0x200000 + k.toNat * 0x100 + c.toNat * 0x80 + t.toNat * 0x40)]
  | .mclr d k c t => [BitVec.ofNat 32 (0x94000008 + d.toNat * 0x200000 + k.toNat * 0x100 + c.toNat * 0x80 + t.toNat * 0x40)]
  | .vperm d a b k c t => [BitVec.ofNat 32 (0x98000000 + d.toNat * 0x200000 + a.toNat * 0x10000 + b.toNat * 0x800 + k.toNat * 0x100 + c.toNat * 0x80 + t.toNat * 0x40)]
  | .vslideup d a b k c t => [BitVec.ofNat 32 (0x98000001 + d.toNat * 0x200000 + a.toNat * 0x10000 + b.toNat * 0x800 + k.toNat * 0x100 + c.toNat * 0x80 + t.toNat * 0x40)]
  | .vslidedn d a b k c t => [BitVec.ofNat 32 (0x98000002 + d.toNat * 0x200000 + a.toNat * 0x10000 + b.toNat * 0x800 + k.toNat * 0x100 + c.toNat * 0x80 + t.toNat * 0x40)]
  | .vcompress d a k c t => [BitVec.ofNat 32 (0x98000003 + d.toNat * 0x200000 + a.toNat * 0x10000 + k.toNat * 0x100 + c.toNat * 0x80 + t.toNat * 0x40)]
  | .vexpand d a k c t => [BitVec.ofNat 32 (0x98000004 + d.toNat * 0x200000 + a.toNat * 0x10000 + k.toNat * 0x100 + c.toNat * 0x80 + t.toNat * 0x40)]
  | .vscan d a n k c t => [BitVec.ofNat 32 (0x98000005 + d.toNat * 0x200000 + a.toNat * 0x10000 + n.toNat * 0x800 + k.toNat * 0x100 + c.toNat * 0x80 + t.toNat * 0x40)]
  | .vfscan d a n k c t => [BitVec.ofNat 32 (0x98008005 + d.toNat * 0x200000 + a.toNat * 0x10000 + n.toNat * 0x800 + k.toNat * 0x100 + c.toNat * 0x80 + t.toNat * 0x40)]
  | .vrowbc d a b k c t => [BitVec.ofNat 32 (0x98000006 + d.toNat * 0x200000 + a.toNat * 0x10000 + b.toNat * 0x800 + k.toNat * 0x100 + c.toNat * 0x80 + t.toNat * 0x40)]
  | .vredSum d a k c t => [BitVec.ofNat 32 (0x9c000000 + d.toNat * 0x200000 + a.toNat * 0x10000 + k.toNat * 0x100 + c.toNat * 0x80 + t.toNat * 0x40)]
  | .vredMax d a k c t => [BitVec.ofNat 32 (0x9c000001 + d.toNat * 0x200000 + a.toNat * 0x10000 + k.toNat * 0x100 + c.toNat * 0x80 + t.toNat * 0x40)]
  | .vredMin d a k c t => [BitVec.ofNat 32 (0x9c000002 + d.toNat * 0x200000 + a.toNat * 0x10000 + k.toNat * 0x100 + c.toNat * 0x80 + t.toNat * 0x40)]
  | .vredAnd d a k c t => [BitVec.ofNat 32 (0x9c000003 + d.toNat * 0x200000 + a.toNat * 0x10000 + k.toNat * 0x100 + c.toNat * 0x80 + t.toNat * 0x40)]
  | .vredOr d a k c t => [BitVec.ofNat 32 (0x9c000004 + d.toNat * 0x200000 + a.toNat * 0x10000 + k.toNat * 0x100 + c.toNat * 0x80 + t.toNat * 0x40)]
  | .vredXor d a k c t => [BitVec.ofNat 32 (0x9c000005 + d.toNat * 0x200000 + a.toNat * 0x10000 + k.toNat * 0x100 + c.toNat * 0x80 + t.toNat * 0x40)]
  | .vredMaxu d a k c t => [BitVec.ofNat 32 (0x9c000006 + d.toNat * 0x200000 + a.toNat * 0x10000 + k.toNat * 0x100 + c.toNat * 0x80 + t.toNat * 0x40)]
  | .vredMinu d a k c t => [BitVec.ofNat 32 (0x9c000007 + d.toNat * 0x200000 + a.toNat * 0x10000 + k.toNat * 0x100 + c.toNat * 0x80 + t.toNat * 0x40)]
  | .vfredSum d a k c t => [BitVec.ofNat 32 (0x9c000010 + d.toNat * 0x200000 + a.toNat * 0x10000 + k.toNat * 0x100 + c.toNat * 0x80 + t.toNat * 0x40)]
  | .vfredMax d a k c t => [BitVec.ofNat 32 (0x9c000011 + d.toNat * 0x200000 + a.toNat * 0x10000 + k.toNat * 0x100 + c.toNat * 0x80 + t.toNat * 0x40)]
  | .vfredMin d a k c t => [BitVec.ofNat 32 (0x9c000012 + d.toNat * 0x200000 + a.toNat * 0x10000 + k.toNat * 0x100 + c.toNat * 0x80 + t.toNat * 0x40)]
  | .vcvth d a i f k c t => [BitVec.ofNat 32 (0xa0000000 + d.toNat * 0x200000 + a.toNat * 0x10000 + i.toNat * 0x4000 + f.toNat * 0x800 + k.toNat * 0x100 + c.toNat * 0x80 + t.toNat * 0x40)]
  | .vcvtd d a u i f k c t => [BitVec.ofNat 32 (0xa0000001 + d.toNat * 0x200000 + a.toNat * 0x10000 + u.toNat * 0x8000 + i.toNat * 0x4000 + f.toNat * 0x800 + k.toNat * 0x100 + c.toNat * 0x80 + t.toNat * 0x40)]
  | .vcvti2f d a u k c t => [BitVec.ofNat 32 (0xa0000002 + d.toNat * 0x200000 + a.toNat * 0x10000 + u.toNat * 0x8000 + k.toNat * 0x100 + c.toNat * 0x80 + t.toNat * 0x40)]
  | .vcvtf2i d a u k c t => [BitVec.ofNat 32 (0xa0000003 + d.toNat * 0x200000 + a.toNat * 0x10000 + u.toNat * 0x8000 + k.toNat * 0x100 + c.toNat * 0x80 + t.toNat * 0x40)]
  | .vcvt8 d a k c t => [BitVec.ofNat 32 (0xa0000004 + d.toNat * 0x200000 + a.toNat * 0x10000 + k.toNat * 0x100 + c.toNat * 0x80 + t.toNat * 0x40)]
  | .vcvts d a k c t => [BitVec.ofNat 32 (0xa0000005 + d.toNat * 0x200000 + a.toNat * 0x10000 + k.toNat * 0x100 + c.toNat * 0x80 + t.toNat * 0x40)]
  | .vmv d a k c t => [BitVec.ofNat 32 (0xa4000000 + d.toNat * 0x200000 + a.toNat * 0x10000 + k.toNat * 0x100 + c.toNat * 0x80 + t.toNat * 0x40)]
  | .vbcast d a k c t => [BitVec.ofNat 32 (0xa4000001 + d.toNat * 0x200000 + a.toNat * 0x10000 + k.toNat * 0x100 + c.toNat * 0x80 + t.toNat * 0x40)]
  | .vextr d a b c t => [BitVec.ofNat 32 (0xa4000002 + d.toNat * 0x200000 + a.toNat * 0x10000 + b.toNat * 0x800 + c.toNat * 0x80 + t.toNat * 0x40)]
  | .vins d a b k c t => [BitVec.ofNat 32 (0xa4000003 + d.toNat * 0x200000 + a.toNat * 0x10000 + b.toNat * 0x800 + k.toNat * 0x100 + c.toNat * 0x80 + t.toNat * 0x40)]
  | .vsel d a b k c t => [BitVec.ofNat 32 (0xa4000004 + d.toNat * 0x200000 + a.toNat * 0x10000 + b.toNat * 0x800 + k.toNat * 0x100 + c.toNat * 0x80 + t.toNat * 0x40)]
  | .vmrank d k c t => [BitVec.ofNat 32 (0xa4000005 + d.toNat * 0x200000 + k.toNat * 0x100 + c.toNat * 0x80 + t.toNat * 0x40)]
  | .vscld d a k c t => [BitVec.ofNat 32 (0xa4000006 + d.toNat * 0x200000 + a.toNat * 0x10000 + k.toNat * 0x100 + c.toNat * 0x80 + t.toNat * 0x40)]
  | .vscst d a k c t => [BitVec.ofNat 32 (0xa4000007 + d.toNat * 0x200000 + a.toNat * 0x10000 + k.toNat * 0x100 + c.toNat * 0x80 + t.toNat * 0x40)]
  | .vld d a k c t o y e => [BitVec.ofNat 32 (0xa8000000 + d.toNat * 0x200000 + a.toNat * 0x10000 + k.toNat * 0x100 + c.toNat * 0x80 + t.toNat * 0x40 + o.toNat * 0x8 + y.toNat * 0x4 + e.toNat * 0x1)]
  | .vldStr d a b k c t o y e => [BitVec.ofNat 32 (0xa8000010 + d.toNat * 0x200000 + a.toNat * 0x10000 + b.toNat * 0x800 + k.toNat * 0x100 + c.toNat * 0x80 + t.toNat * 0x40 + o.toNat * 0x8 + y.toNat * 0x4 + e.toNat * 0x1)]
  | .vldX d a b k c t o y e => [BitVec.ofNat 32 (0xa8000020 + d.toNat * 0x200000 + a.toNat * 0x10000 + b.toNat * 0x800 + k.toNat * 0x100 + c.toNat * 0x80 + t.toNat * 0x40 + o.toNat * 0x8 + y.toNat * 0x4 + e.toNat * 0x1)]
  | .vldChk d a b k c t o y e => [BitVec.ofNat 32 (0xa8000030 + d.toNat * 0x200000 + a.toNat * 0x10000 + b.toNat * 0x800 + k.toNat * 0x100 + c.toNat * 0x80 + t.toNat * 0x40 + o.toNat * 0x8 + y.toNat * 0x4 + e.toNat * 0x1)]
  | .vst d a k c t o y e => [BitVec.ofNat 32 (0xac000000 + d.toNat * 0x200000 + a.toNat * 0x10000 + k.toNat * 0x100 + c.toNat * 0x80 + t.toNat * 0x40 + o.toNat * 0x8 + y.toNat * 0x4 + e.toNat * 0x1)]
  | .vstStr d a b k c t o y e => [BitVec.ofNat 32 (0xac000010 + d.toNat * 0x200000 + a.toNat * 0x10000 + b.toNat * 0x800 + k.toNat * 0x100 + c.toNat * 0x80 + t.toNat * 0x40 + o.toNat * 0x8 + y.toNat * 0x4 + e.toNat * 0x1)]
  | .vstX d a b k c t o y e => [BitVec.ofNat 32 (0xac000020 + d.toNat * 0x200000 + a.toNat * 0x10000 + b.toNat * 0x800 + k.toNat * 0x100 + c.toNat * 0x80 + t.toNat * 0x40 + o.toNat * 0x8 + y.toNat * 0x4 + e.toNat * 0x1)]
  | .vamoAdd d a b k c t o y => [BitVec.ofNat 32 (0xb0000000 + d.toNat * 0x200000 + a.toNat * 0x10000 + b.toNat * 0x800 + k.toNat * 0x100 + c.toNat * 0x80 + t.toNat * 0x40 + o.toNat * 0x4 + y.toNat * 0x2)]
  | .vamoMin d a b k c t o y => [BitVec.ofNat 32 (0xb0000008 + d.toNat * 0x200000 + a.toNat * 0x10000 + b.toNat * 0x800 + k.toNat * 0x100 + c.toNat * 0x80 + t.toNat * 0x40 + o.toNat * 0x4 + y.toNat * 0x2)]
  | .vamoMax d a b k c t o y => [BitVec.ofNat 32 (0xb0000010 + d.toNat * 0x200000 + a.toNat * 0x10000 + b.toNat * 0x800 + k.toNat * 0x100 + c.toNat * 0x80 + t.toNat * 0x40 + o.toNat * 0x4 + y.toNat * 0x2)]
  | .vamoOr d a b k c t o y => [BitVec.ofNat 32 (0xb0000018 + d.toNat * 0x200000 + a.toNat * 0x10000 + b.toNat * 0x800 + k.toNat * 0x100 + c.toNat * 0x80 + t.toNat * 0x40 + o.toNat * 0x4 + y.toNat * 0x2)]
  | .vamoFadd d a b k c t o y => [BitVec.ofNat 32 (0xb0000020 + d.toNat * 0x200000 + a.toNat * 0x10000 + b.toNat * 0x800 + k.toNat * 0x100 + c.toNat * 0x80 + t.toNat * 0x40 + o.toNat * 0x4 + y.toNat * 0x2)]
  | .vhash d a b k c t => [BitVec.ofNat 32 (0xb4000000 + d.toNat * 0x200000 + a.toNat * 0x10000 + b.toNat * 0x800 + k.toNat * 0x100 + c.toNat * 0x80 + t.toNat * 0x40)]
  | .vbucket d a b k c t => [BitVec.ofNat 32 (0xb4000001 + d.toNat * 0x200000 + a.toNat * 0x10000 + b.toNat * 0x800 + k.toNat * 0x100 + c.toNat * 0x80 + t.toNat * 0x40)]
  | .vconf d a k c t => [BitVec.ofNat 32 (0xb4000002 + d.toNat * 0x200000 + a.toNat * 0x10000 + k.toNat * 0x100 + c.toNat * 0x80 + t.toNat * 0x40)]
  | .vstrcmp d a b k c t => [BitVec.ofNat 32 (0xb4000003 + d.toNat * 0x200000 + a.toNat * 0x10000 + b.toNat * 0x800 + k.toNat * 0x100 + c.toNat * 0x80 + t.toNat * 0x40)]
  | .vstrhash d a b k c t => [BitVec.ofNat 32 (0xb4000004 + d.toNat * 0x200000 + a.toNat * 0x10000 + b.toNat * 0x800 + k.toNat * 0x100 + c.toNat * 0x80 + t.toNat * 0x40)]
  | .setrc a t => [BitVec.ofNat 32 (0xb8000000 + a.toNat * 0x10000 + t.toNat * 0x40)]
  | .vsplit a n t => [BitVec.ofNat 32 (0xb8000001 + a.toNat * 0x10000 + n.toNat * 0x800 + t.toNat * 0x40)]
  | .vmerge => [BitVec.ofNat 32 0xb8000002]
  | .vpark => [BitVec.ofNat 32 0xb8000003]
  | .convoyIssue _ => []
  | .mld n s a b t => [BitVec.ofNat 32 (0xc0000000 + n.toNat * 0x800000 + s.toNat * 0x200000 + a.toNat * 0x10000 + b.toNat * 0x800 + t.toNat * 0x400)]
  | .mst n s a b t => [BitVec.ofNat 32 (0xc4000000 + n.toNat * 0x800000 + s.toNat * 0x200000 + a.toNat * 0x10000 + b.toNat * 0x800 + t.toNat * 0x400)]
  | .mma c a b s p n z y => [BitVec.ofNat 32 (0xc8000000 + c.toNat * 0x1000000 + a.toNat * 0x200000 + b.toNat * 0x40000 + s.toNat * 0x10000 + p.toNat * 0x1000 + n.toNat * 0x800 + z.toNat * 0x400 + y.toNat * 0x100)]
  | .mzero c s => [BitVec.ofNat 32 (0xcc000000 + c.toNat * 0x80000 + s.toNat * 0x4000)]
  | .macc2v d c s => [BitVec.ofNat 32 (0xcc000800 + d.toNat * 0x200000 + c.toNat * 0x80000 + s.toNat * 0x4000)]
  | .macc2t c n s => [BitVec.ofNat 32 (0xcc001000 + c.toNat * 0x80000 + n.toNat * 0x10000 + s.toNat * 0x4000)]
  | .msync m => [BitVec.ofNat 32 (0xd0000000 + m.toNat * 0x400000)]
  | .mmaBegin _ => []
  | .matrixOpComplete _ _ => []
  | .copyLin r c f => cmdWord0 0 r :: BitVec.ofNat 32 (followBits f) :: compWords c
  | .copyDeint r c f esz np => cmdWord0 0 r :: BitVec.ofNat 32 (1 + esz.toNat * 8 + np.toNat * 0x40 + followBits f) :: compWords c
  | .copyPerm r c f esz perm => cmdWord0 0 r :: BitVec.ofNat 32 (2 + esz.toNat * 8 + perm.toNat * 0x40 + followBits f) :: compWords c
  | .copyVreg r c f => cmdWord0 0 r :: BitVec.ofNat 32 (3 + followBits f) :: compWords c
  | .copyTile r c f => cmdWord0 0 r :: BitVec.ofNat 32 (4 + followBits f) :: compWords c
  | .strm ga gd c q file reg dir => cmdWord0 1 ⟨ga, 0, 0, gd⟩ :: BitVec.ofNat 32 (q.toNat + file.toNat * 8 + reg.toNat * 0x10 + dir.toNat * 0x40) :: compWords c
  | .unstrm q => [cmdWord0 2 ⟨0, 0, 0, 0⟩, BitVec.ofNat 32 q.toNat, 0, 0]
  | .rsv r c esz wr mode hunit => cmdWord0 3 r :: BitVec.ofNat 32 (esz.toNat + wr.toNat * 8 + mode.toNat * 0x10 + hunit.toNat * 0x40) :: compWords c
  | .ursv gd c hunit => cmdWord0 4 ⟨0, 0, 0, gd⟩ :: BitVec.ofNat 32 (hunit.toNat * 0x40) :: compWords c
  | .nodeNest ga => [cmdWord0 5 ⟨ga, 0, 0, 0⟩, 0, 0, 0]
  | .nodeCmd ga => [cmdWord0 5 ⟨ga, 0, 0, 0⟩, 1, 0, 0]
  | .put r c dpkg tag => cmdWord0 6 r :: BitVec.ofNat 32 (dpkg.toNat + tagBits tag) :: compWords c
  | .get r c dpkg => cmdWord0 7 r :: BitVec.ofNat 32 dpkg.toNat :: compWords c
  | .ramo r c dpkg func => cmdWord0 8 r :: BitVec.ofNat 32 (dpkg.toNat + func.toNat * 0x10000000) :: compWords c
  | .rred r c dpkg tag func => cmdWord0 9 r :: BitVec.ofNat 32 (dpkg.toNat + tagBits tag + func.toNat * 0x10000000) :: compWords c
  | .mcast r c group tag => cmdWord0 10 r :: BitVec.ofNat 32 (group.toNat + tagBits tag) :: compWords c
  | .tpost ga gb gc k act rel => [cmdWord0 11 ⟨ga, gb, gc, 0⟩, BitVec.ofNat 32 (k.toNat + act.toNat * 0x200 + rel.toNat * 0x800), 0, 0]
  | .tcancel ga gd k => [cmdWord0 12 ⟨ga, 0, 0, gd⟩, BitVec.ofNat 32 k.toNat, 0, 0]
  | .fcfg ga gd c => cmdWord0 13 ⟨ga, 0, 0, gd⟩ :: 0 :: compWords c
  | .frun ga gd c => cmdWord0 14 ⟨ga, 0, 0, gd⟩ :: 0 :: compWords c
  | .frunResume ga gd c => cmdWord0 14 ⟨ga, 0, 0, gd⟩ :: 1 :: compWords c
  | .fhalt ga gd c => cmdWord0 15 ⟨ga, 0, 0, gd⟩ :: 0 :: compWords c
  | .commandAccept _ => []
  | .copyBegin _ => []
  | .copyTransfer _ _ => []
  | .commandComplete _ _ => []
  | .commandNodeBegin _ _ => []
  | .streamEngineAccess _ _ => []
  | .streamComplete _ _ => []
  | .counterRaise _ _ _ => []
  | .postExamine _ _ => []
  | .firedOpHandoff _ => []
  | .counterRunGrant _ _ _ => []
  | .counterRunRevoke _ _ => []
  | .walkComplete _ _ _ _ _ => []
  | .tsqRecordWrite _ => []
  | .gets _ _ => []
  | .getm _ _ => []
  | .upg _ _ => []
  | .puts _ _ => []
  | .putm _ _ _ => []
  | .rdat _ _ _ => []
  | .done _ _ => []
  | .data _ _ _ _ _ => []
  | .gnt _ _ _ => []
  | .inv _ _ _ _ => []
  | .rcls _ _ _ => []
  | .rcli _ _ _ => []
  | .iack _ _ _ => []
  | .pack _ _ => []
  | .err _ _ => []
  | .homeServedAccess _ => []
  | .homeAtomic _ => []
  | .move _ _ _ _ _ _ => []
  | .mack _ _ _ => []
  | .mnak _ _ _ => []
  | .migrationSweep _ _ => []
  | .migrationEnd _ _ => []
  | .drainSweep _ _ => []
  | .drainDone _ _ => []
  | .correctedBankError _ _ => []
  | .uncorrectableBankError _ _ => []
  | .pieceRegister _ => []
  | .positionQuery _ _ => []
  | .positionAnswer _ _ => []
  | .pieceEnd _ => []
  | .hostMemRead _ _ => []
  | .hostMemInv _ => []
  | .hostMemWrite _ _ => []
  | .hostMemCleanEvict _ => []
  | .biResponse _ _ _ => []
  | .biConflict _ => []
  | .h2dSnpData _ => []
  | .h2dSnpInv _ => []
  | .h2dSnpCur _ => []
  | .h2dResponse _ _ => []
  | .heartbeatMiss _ => []
  | .hostLinkFail _ => []
  | .scrubStep _ => []
  | .storeSend _ => []
  | .storeAck _ _ => []
  | .mergeFlushIdle _ _ => []
  | .joinMarkers _ => []
  | .joinMarkerArrive _ _ => []
  | .jackSend _ _ => []
  | .jackArrive _ _ => []
  | .monitorNotify _ => []
  | .watermarkRelease _ => []
  | .loadDataReturn _ => []
  | .dispatchDecision _ => []
  | .poolEntryTaken _ _ => []
  | .pointSetAside _ => []
  | .pointRestore _ _ => []
  | .quantumExpiry _ => []
  | .contextSwapBegin _ => []
  | .contextSwapComplete _ => []
  | .laneStepChange _ _ => []
  | .thermalHalt => []
  | .incomingPut _ _ => []
  | .incomingGet _ _ => []
  | .incomingRamo _ _ _ _ _ => []
  | .incomingRred _ _ _ _ => []
  | .incomingMcast _ _ => []
  | .podAnswer _ _ _ _ _ _ => []
  | .mcastRoute _ _ => []
  | .mcastMemberAnswer _ _ _ _ => []
  | .podMergeSend _ => []
  | .routerContribution _ => []
  | .routerElementTimeout _ _ => []
  | .routerAnswer _ _ _ => []
  | .routerReplicate _ _ _ _ => []
  | .routerEntryWrite _ _ _ _ => []
  | .crossbarDivergence => []
  | .crossbarRetrainDone _ => []
  | .correctedLaneError _ => []
  | .cellFire _ _ => []
  | .awlElement _ _ => []
  | .xlateTranslate _ _ => []
  | .awlExtentAnswer _ _ => []
  | .miuAccess _ _ => []
  | .miuBurstClose _ _ => []
  | .awlLoadReturn _ _ => []
  | .portElement _ _ => []
  | .fabricRunComplete _ => []
  | .cellFreeze _ _ => []
  | .cutWrite _ => []
  | .freezeAbandon _ => []
  | .partitionStart _ => []
  | .partitionRemove _ => []
  | .featureLock _ => []
  | .segmentRevoke _ _ => []
  | .controlSpaceWrite _ _ _ => []
  | .fretiaCsrRead _ => []
  | .fretiaCsrWrite _ _ => []
  | .fretiaBlackboxRead _ => []
  | .fretiaGroupWrite _ _ => []
  | .fretiaAttestation _ => []
  | .coldReset _ => []
  | .warmReset => []
  | .reservedEncoding _ => []
  | .instructionFetchFault _ _ _ => []
  | .agentReadmit _ => []
  | .managementSwap _ => []
  | .scaleUpLinkFailure _ => []

end Sys2Proof
end

