-- ==== Sys2Proof/Machine/Maps.lean ====
section
/-! DEFINITION. Operations on the sparse maps the state is made of, and on bytes and fields of words. -/

namespace Sys2Proof.Machine
open Sys2Proof

/-- The entry of key k, if listed. -/
def mfind {α : Type} (m : SMap α) (k : Nat) : Option α :=
  match m with
  | [] => none
  | (j, v) :: r => if j == k then some v else mfind r k

/-- The entry of key k, or what an unlisted key reads as. -/
def mgetD {α : Type} (m : SMap α) (k : Nat) (d : α) : α :=
  match mfind m k with
  | some v => v
  | none => d

/-- The map with key k listed with v, keys in rising order. -/
def mput {α : Type} (m : SMap α) (k : Nat) (v : α) : SMap α :=
  match m with
  | [] => [(k, v)]
  | (j, w) :: r => if k < j then (k, v) :: (j, w) :: r else if k == j then (k, v) :: r else (j, w) :: mput r k v

/-- The map without key k. -/
def mdel {α : Type} (m : SMap α) (k : Nat) : SMap α :=
  match m with
  | [] => []
  | (j, w) :: r => if j == k then mdel r k else (j, w) :: mdel r k

/-- Key k set to v; a key whose value is the default d is not listed. -/
def mset {α : Type} [DecidableEq α] (d : α) (m : SMap α) (k : Nat) (v : α) : SMap α :=
  if v = d then mdel m k else mput m k v

/-- The canonical form: keys strictly rising, no value equal to the default. -/
def mwf {α : Type} [DecidableEq α] (d : α) (m : SMap α) : Bool :=
  match m with
  | [] => true
  | (j, v) :: r => decide (v ≠ d) && (match r with | [] => true | (i, _) :: _ => decide (j < i)) && mwf d r

/-- The numbers below n that satisfy p, ascending. -/
def below (n : Nat) (p : Nat → Bool) : List Nat := (List.range n).filter p

/-- f applied n times, to 0, 1, up to n - 1 in turn. -/
def loop {α : Type} (n : Nat) (f : Nat → α → α) (a : α) : α :=
  match n with
  | 0 => a
  | k + 1 => f k (loop k f a)

/-- Bits hi down to lo of a word, as a number. -/
def bits (w : Word) (hi lo : Nat) : Nat := w.toNat / 2 ^ lo % 2 ^ (hi + 1 - lo)

/-- Bit i of a word. -/
def bitOf (w : Word) (i : Nat) : Bool := w.toNat / 2 ^ i % 2 == 1

/-- The word with bits hi down to lo replaced by v. -/
def setBits (w : Word) (hi lo v : Nat) : Word :=
  BitVec.ofNat 64 (w.toNat - bits w hi lo * 2 ^ lo + v % 2 ^ (hi + 1 - lo) * 2 ^ lo)

/-- The number a list of bytes stands for, least significant first (R6). -/
def leNat (bs : List Byte) : Nat :=
  match bs with
  | [] => 0
  | b :: r => b.toNat + 256 * leNat r

/-- The n low bytes of a number, least significant first (R6). -/
def leBytes (n v : Nat) : List Byte :=
  match n with
  | 0 => []
  | k + 1 => BitVec.ofNat 8 v :: leBytes k (v / 256)

/-- The number v of n bits, sign-extended to 64 bits. -/
def sext (n v : Nat) : Word :=
  if n == 0 then 0
  else if v / 2 ^ (n - 1) % 2 == 1 then BitVec.ofNat 64 (v % 2 ^ n + (2 ^ 64 - 2 ^ n)) else BitVec.ofNat 64 (v % 2 ^ n)

/-- The number v of n bits as a signed integer. -/
def toSigned (n v : Nat) : Int := if v % 2 ^ n < 2 ^ (n - 1) then (v % 2 ^ n : Nat) else (v % 2 ^ n : Nat) - (2 ^ n : Nat)

/-- The n low bits of an integer, in two's complement. -/
def ofInt (n : Nat) (v : Int) : Nat := (v % (2 ^ n : Nat)).toNat

/-- An address is canonical when bits 63 to 55 copy bit 54 (R14). -/
def canonical (a : Word) : Bool := bits a 63 54 == 0 || bits a 63 54 == 1023

/-- The canonical address with the given low 55 bits. -/
def canon (v : Nat) : Word := sext 55 (v % 2 ^ 55)

end Sys2Proof.Machine
end

