-- ==== Sys2Proof/Machine/Float.lean ====
section
/-! DEFINITION. IEEE 754 arithmetic by exact values (R215 to R220, R230): a value is read exactly, an operation is computed exactly, and
the result is rounded once. Flags are numbers: NV 1, DZ 2, OF 4, UF 8, NX 16, in the order of fcsr [12:8] (R217). -/

namespace Sys2Proof.Machine
open Sys2Proof

/-- An IEEE binary format: exponent and fraction bits (R215). -/
structure FFmt where
  eb : Nat
  fb : Nat
deriving DecidableEq, Repr

def fp64 : FFmt := ⟨11, 52⟩
def fp32 : FFmt := ⟨8, 23⟩
def fp16 : FFmt := ⟨5, 10⟩
def bf16 : FFmt := ⟨8, 7⟩
def FFmt.bias (f : FFmt) : Nat := 2 ^ (f.eb - 1) - 1
def FFmt.width (f : FFmt) : Nat := 1 + f.eb + f.fb
/-- Exponent of the least normal value. -/
def FFmt.emin (f : FFmt) : Int := 1 - (f.bias : Int)
/-- The default NaN (R215). -/
def FFmt.dnan (f : FFmt) : Nat := (2 ^ (f.eb + 1) - 1) * 2 ^ (f.fb - 1)
def FFmt.sgn (f : FFmt) (neg : Bool) : Nat := if neg then 2 ^ (f.eb + f.fb) else 0
def FFmt.infBits (f : FFmt) (neg : Bool) : Nat := f.sgn neg + (2 ^ f.eb - 1) * 2 ^ f.fb
def FFmt.maxBits (f : FFmt) (neg : Bool) : Nat := f.infBits neg - 1

/-- An exact value: NaN (signalling or not), an infinity, or ±m * 2^e; m = 0 is a signed zero. -/
inductive Fp where
  | nan (sig : Bool)
  | inf (neg : Bool)
  | fin (neg : Bool) (m : Nat) (e : Int)
deriving DecidableEq, Repr

/-- The value of the bits in a format (R215). -/
def FFmt.read (f : FFmt) (b : Nat) : Fp :=
  let neg := b / 2 ^ (f.eb + f.fb) % 2 == 1
  let ex := b / 2 ^ f.fb % 2 ^ f.eb
  let fr := b % 2 ^ f.fb
  if ex == 2 ^ f.eb - 1 then (if fr == 0 then .inf neg else .nan (fr < 2 ^ (f.fb - 1)))
  else if ex == 0 then .fin neg fr (f.emin - f.fb)
  else .fin neg (2 ^ f.fb + fr) ((ex : Int) - f.bias - f.fb)

/-- Subnormal in the format: what FTZI flushes (R220). -/
def FFmt.subnormal (f : FFmt) (b : Nat) : Bool := b / 2 ^ f.fb % 2 ^ f.eb == 0 && b % 2 ^ f.fb != 0
/-- An input under FTZI (R220). -/
def FFmt.get (f : FFmt) (ftzi : Bool) (b : Nat) : Fp :=
  if ftzi && f.subnormal b then .fin (b / 2 ^ (f.eb + f.fb) % 2 == 1) 0 0 else f.read b

/-- Rounding modes of R218: 0 RNE, 1 RNA, 2 RTZ, 3 RTP, 4 RTN. Whether a magnitude with remainder rem of 2^sh goes up. -/
def roundsUp (mode : Nat) (neg : Bool) (k rem sh : Nat) : Bool :=
  let half := 2 ^ (sh - 1)
  match mode with
  | 0 => half < rem || (rem == half && k % 2 == 1)
  | 1 => half ≤ rem
  | 2 => false
  | 3 => !neg && rem != 0
  | _ => neg && rem != 0

/-- m * 2^e as a multiple of 2^q, rounded, and whether it is inexact. -/
def roundAt (mode : Nat) (neg : Bool) (m : Nat) (e q : Int) : Nat × Bool :=
  if q ≤ e then (m * 2 ^ (e - q).toNat, false)
  else
    let sh := (q - e).toNat
    let k := m / 2 ^ sh
    let rem := m % 2 ^ sh
    (if rem != 0 && roundsUp mode neg k rem sh then k + 1 else k, rem != 0)

/-- The overflow results of R219. -/
def FFmt.overflow (f : FFmt) (mode : Nat) (neg : Bool) : Nat :=
  if mode == 2 || (mode == 3 && neg) || (mode == 4 && !neg) then f.maxBits neg else f.infBits neg

/-- The exact value ±m * 2^e rounded once into the format (R218 to R220). -/
def FFmt.round (f : FFmt) (mode : Nat) (ftzo neg : Bool) (m : Nat) (e : Int) : Nat × Nat :=
  if m == 0 then (f.sgn neg, 0)
  else
    let lead := e + (m.log2 : Int)
    let qu := lead - f.fb
    let low := f.emin - f.fb
    let q := if qu < low then low else qu
    let (ku, _) := roundAt mode neg m e qu
    let tiny := decide (qu < low) && !(qu + 1 == low && ku == 2 ^ (f.fb + 1))
    let (k, nx) := roundAt mode neg m e q
    if tiny && ftzo then (f.sgn neg, 24)
    else
      let b := (q - low).toNat * 2 ^ f.fb + k
      if (2 ^ f.eb - 1) * 2 ^ f.fb ≤ b then (f.overflow mode neg, 20)
      else (f.sgn neg + b, (if nx then 16 else 0) + (if tiny && nx then 8 else 0))

/-- Any exact value as a result; a NaN is the default NaN (R216). -/
def FFmt.put (f : FFmt) (mode : Nat) (ftzo : Bool) (v : Fp) : Nat × Nat :=
  match v with
  | .nan _ => (f.dnan, 0)
  | .inf n => (f.infBits n, 0)
  | .fin n m e => f.round mode ftzo n m e

/-- NV for a signalling operand (R216). -/
def Fp.snan : Fp → Nat
  | .nan true => 1
  | _ => 0
def Fp.isNan : Fp → Bool
  | .nan _ => true
  | _ => false
def Fp.isInf : Fp → Bool
  | .inf _ => true
  | _ => false
def Fp.isZero : Fp → Bool
  | .fin _ m _ => m == 0
  | _ => false
def Fp.negp : Fp → Bool
  | .nan _ => false
  | .inf n => n
  | .fin n _ _ => n
def Fp.neg : Fp → Fp
  | .nan s => .nan s
  | .inf n => .inf (!n)
  | .fin n m e => .fin (!n) m e

/-- A finite value as a signed multiple of 2^q, for q at most its exponent. -/
def scaled (neg : Bool) (m : Nat) (e q : Int) : Int :=
  let v := ((m * 2 ^ (e - q).toNat : Nat) : Int)
  if neg then -v else v

/-- The exact sum and the flags of the addition itself; an exact zero takes the sign IEEE 754 gives in the mode. -/
def fpAdd (mode : Nat) (a b : Fp) : Fp × Nat :=
  match a, b with
  | .nan _, _ => (.nan false, a.snan ||| b.snan)
  | _, .nan _ => (.nan false, b.snan)
  | .inf x, .inf y => if x == y then (.inf x, 0) else (.nan false, 1)
  | .inf x, _ => (.inf x, 0)
  | _, .inf y => (.inf y, 0)
  | .fin x m e, .fin y n g =>
    let q := min e g
    let v := scaled x m e q + scaled y n g q
    if v == 0 then (.fin (if m == 0 && n == 0 && x == y then x else mode == 4) 0 0, 0)
    else (.fin (decide (v < 0)) v.natAbs q, 0)

/-- The exact product. -/
def fpMul (a b : Fp) : Fp × Nat :=
  let sg := a.negp != b.negp
  if a.isNan || b.isNan then (.nan false, a.snan ||| b.snan)
  else if a.isInf || b.isInf then (if a.isZero || b.isZero then (.nan false, 1) else (.inf sg, 0))
  else match a, b with
    | .fin _ m e, .fin _ n g => (.fin sg (m * n) (e + g), 0)
    | _, _ => (.nan false, 0)

/-- a × b + c with the product exact; 0 × ∞ is invalid whatever c is (R216). -/
def fpFma (mode : Nat) (a b c : Fp) : Fp × Nat :=
  let (p, f) := fpMul a b
  if f % 2 == 1 then (.nan false, 1)
  else
    let (v, g) := fpAdd mode p c
    (v, f ||| g)

/-- The quotient: enough bits for one rounding into the format, with a sticky bit below them (R216). -/
def fpDiv (f : FFmt) (a b : Fp) : Fp × Nat :=
  let sg := a.negp != b.negp
  if a.isNan || b.isNan then (.nan false, a.snan ||| b.snan)
  else match a, b with
    | .inf _, .inf _ => (.nan false, 1)
    | .inf _, _ => (.inf sg, 0)
    | _, .inf _ => (.fin sg 0 0, 0)
    | .fin _ m e, .fin _ n g =>
      if n == 0 then (if m == 0 then (.nan false, 1) else (.inf sg, 2))
      else if m == 0 then (.fin sg 0 0, 0)
      else
        let sh := f.fb + 4 + n.log2
        let q := m * 2 ^ sh / n
        (.fin sg (q * 2 + (if m * 2 ^ sh % n == 0 then 0 else 1)) (e - g - (sh : Int) - 1), 0)
    | _, _ => (.nan false, 0)

/-- The integer square root below 2^n, bit by bit. -/
def isqrt (n v r : Nat) : Nat :=
  match n with
  | 0 => r
  | k + 1 => isqrt k v (if (r + 2 ^ k) * (r + 2 ^ k) ≤ v then r + 2 ^ k else r)

/-- The square root, with a sticky bit (R216). -/
def fpSqrt (f : FFmt) (a : Fp) : Fp × Nat :=
  match a with
  | .nan _ => (.nan false, a.snan)
  | .inf true => (.nan false, 1)
  | .inf false => (.inf false, 0)
  | .fin neg m e =>
    if m == 0 then (.fin neg 0 0, 0)
    else if neg then (.nan false, 1)
    else
      let sh := 2 * (f.fb + 4) + (if e % 2 == 0 then 0 else 1)
      let v := m * 2 ^ sh
      let r := isqrt (v.log2 / 2 + 1) v 0
      (.fin false (r * 2 + (if r * r == v then 0 else 1)) ((e - (sh : Int)) / 2 - 1), 0)

/-- a < b, a = b of numbers, exactly. -/
def fpLt (a b : Fp) : Bool :=
  match a, b with
  | .nan _, _ => false
  | _, .nan _ => false
  | .inf x, .inf y => x && !y
  | .inf x, _ => x
  | _, .inf y => !y
  | .fin x m e, .fin y n g => decide (scaled x m e (min e g) < scaled y n g (min e g))
def fpEq (a b : Fp) : Bool :=
  match a, b with
  | .nan _, _ => false
  | _, .nan _ => false
  | .inf x, .inf y => x == y
  | .inf _, _ => false
  | _, .inf _ => false
  | .fin x m e, .fin y n g => decide (scaled x m e (min e g) = scaled y n g (min e g))

/-- FMIN and FMAX (R216): a lone NaN loses, −0 is below +0. -/
def fpMinMax (max : Bool) (a b : Fp) : Fp × Nat :=
  let fl := a.snan ||| b.snan
  if a.isNan && b.isNan then (.nan false, fl)
  else if a.isNan then (b, fl)
  else if b.isNan then (a, fl)
  else
    let aLess := fpLt a b || (fpEq a b && a.negp && !b.negp)
    (if aLess == max then b else a, fl)

/-- A value rounded to an integer in the mode (R230): NaN gives 0 and an out-of-range value the nearest bound, both with NV. -/
def fpToInt (mode : Nat) (v : Fp) (lo hi : Int) : Int × Nat :=
  match v with
  | .nan _ => (0, 1)
  | .inf n => (if n then lo else hi, 1)
  | .fin n m e =>
    let (k, nx) := roundAt mode n m e 0
    let i : Int := if n then -(k : Int) else k
    if i < lo then (lo, 1) else if hi < i then (hi, 1) else (i, if nx then 16 else 0)

/-- An integer as an exact value. -/
def intFp (i : Int) : Fp := .fin (decide (i < 0)) i.natAbs 0

/-- The class mask of FCLASS (R266). -/
def fpClass (f : FFmt) (b : Nat) : Nat :=
  match f.read b with
  | .nan s => if s then 1 else 2
  | .inf n => if n then 512 else 4
  | .fin n m _ =>
    if m == 0 then (if n then 64 else 32)
    else if f.subnormal b then (if n then 128 else 16)
    else (if n then 256 else 8)

end Sys2Proof.Machine
end

