-- ==== Sys2Proof/Config.lean ====
section
/-! DEFINITION. What one part fixes for the machine, and the values the spec leaves open.
A free value is an opaque constant without a body: no proof can evaluate it, so a statement holds for every value of it. -/

namespace Sys2Proof.Config
open Sys2Proof

/-- FEAT0: the features the ordering code offers (R249, R435); a QQX1-M48 offers bits 5 to 0 (notes/assumptions/5.md). -/
def feat0 : Word := 0x3F

/-- A free 64-bit value; the state's counter of free values is its argument (notes/assumptions/4.md). -/
opaque freeWord : Nat → BitVec 64

/-- A free byte, for a byte whose value the spec calls unspecified (R152, R160, R332; notes/assumptions/4.md). -/
opaque freeByte : Nat → BitVec 8

/-- Which of the FP32 numbers within 2 units in the last place of the exact value a VSFU function gives (R233, R301): free, a function of the
function code 0 to 7, the element width and the operand's bits (notes/assumptions/6.md). -/
opaque sfuPick : Nat → Nat → Nat → BitVec 3

/-- Whether a fired command that is refused at its target raises the counter of its tag there when it says OE = 1: R366 says that it makes no raise there,
and R458 allows that it does (notes/assumptions/45.md); the state's counter of free values is its argument. -/
opaque raiseRefused : Nat → Bool

/-- The attestation signature of the security controller: 3,309 bytes not given by the spec (R437; notes/assumptions/4.md). -/
opaque signature : List (BitVec 8) → Nat → BitVec 8

/-- The device's 16-byte serial number (R437), fixed for the part and not given by the spec. -/
opaque serial : BitVec 128

/-- The measurement of firmware stage n: a SHA3-256 digest the spec gives no value of (R437). -/
opaque measurement : Nat → BitVec 256

/-- How many stages verify before the one that fails (R437); the state's counter of free values is its argument (notes/assumptions/30.md). -/
opaque stagesVerified : Nat → Nat

/-- The ordering code as an attestation report holds it, and the number of firmware stages (R437): not given by the spec. -/
opaque orderingCode : List (BitVec 8)
opaque stages : Nat

/-- Module power in W, averaged over the last millisecond (R443): measured, not determined by the spec. -/
opaque powerNow : Nat → BitVec 12

/-- The hottest die's temperature (R443): measured, not determined by the spec. -/
opaque hottest : Nat → BitVec 8

/-- SCODE of a directory entry, over its bits [127:0]: the code itself is not specified (R96). -/
opaque scode : BitVec 128 → BitVec 9

end Sys2Proof.Config
end

