-- ==== Sys2Proof/Machine/Event.lean ====
section
/-! DEFINITION. The steps of units as the agenda of the state holds them (spec/95), and the instruction constructor each is.
The runtime's limit on constructor tags (244) keeps the 394 constructors of Instr from being built by compiled code, so
the state holds this smaller type; Event.toInstr, which only the kernel evaluates, gives the constructor of Instr. -/

namespace Sys2Proof

/-- A step of a unit, or of the outside of the package, that is under way. -/
inductive Event where
  /-- TSACK_RETRY (R49). -/
  | tsackRetry (id : Nat) (own : Bool)
  /-- TSACK_FAIL (R49). -/
  | tsackFail (id : Nat) (own : Bool)
  /-- TSACK_FRAME (R50). -/
  | tsackFrame (id : Nat) (own : Bool)
  /-- TSACK_INVALID (R49). -/
  | tsackInvalid (id : Nat) (action : Nat) (own : Bool)
  /-- NEND_WRITE (R423). -/
  | nendWrite (addr : BitVec 64)
  /-- WATERMARK_WRITE (R157). -/
  | watermarkWrite (idx : Nat) (val : BitVec 64)
  /-- YIELD_EXPIRE (R417). -/
  | yieldExpire (hart : Nat)
  /-- SHOOT_BROADCAST (R44). -/
  | shootBroadcast (id : Nat)
  /-- SHOOT_DROP (R44). -/
  | shootDrop (id : Nat) (stack : Nat)
  /-- SHOOT_ACK (R44). -/
  | shootAck (id : Nat) (stack : Nat)
  /-- SHOOT_COMPLETE (R44). -/
  | shootComplete (id : Nat)
  /-- VCDEF_PROCEED (R60). -/
  | vcdefProceed (hart : Nat)
  /-- MMA_BEGIN (R331). -/
  | mmaBegin (tile : Nat)
  /-- MATRIX_OP_COMPLETE (R330). -/
  | matrixOpComplete (tile : Nat) (stream : Nat)
  /-- COMMAND_ACCEPT (R345). -/
  | commandAccept (hart : Nat)
  /-- COPY_BEGIN (R345). -/
  | copyBegin (tile : Nat)
  /-- COPY_TRANSFER (R348). -/
  | copyTransfer (tile : Nat) (cmd : Nat)
  /-- COMMAND_COMPLETE (R347). -/
  | commandComplete (tile : Nat) (cmd : Nat)
  /-- COMMAND_NODE_BEGIN (R354). -/
  | commandNodeBegin (part : Nat) (node : BitVec 64)
  /-- STREAM_ENGINE_ACCESS (R351). -/
  | streamEngineAccess (tile : Nat) (q : Nat)
  /-- STREAM_COMPLETE (R351). -/
  | streamComplete (tile : Nat) (q : Nat)
  /-- COUNTER_RAISE (R365). -/
  | counterRaise (tile : Nat) (k : Nat) (amount : BitVec 64)
  /-- POST_EXAMINE (R365). -/
  | postExamine (tile : Nat) (k : Nat)
  /-- FIRED_OP_HANDOFF (R365). -/
  | firedOpHandoff (tile : Nat)
  /-- COUNTER_RUN_GRANT (R362). -/
  | counterRunGrant (tile : Nat) (run : Nat) (part : Nat)
  /-- COUNTER_RUN_REVOKE (R362). -/
  | counterRunRevoke (tile : Nat) (run : Nat)
  /-- WALK_COMPLETE (R27). -/
  | walkComplete (tile : Nat) (part : Nat) (va : BitVec 64) (kind : AccKind) (sup : Bool)
  /-- TSQ_RECORD_WRITE (R47). -/
  | tsqRecordWrite (part : Nat)
  /-- GETS (R101). -/
  | gets (agent : Nat) (gran : Nat)
  /-- GETM (R101). -/
  | getm (agent : Nat) (gran : Nat)
  /-- UPG (R101). -/
  | upg (agent : Nat) (gran : Nat)
  /-- PUTS (R101). -/
  | puts (agent : Nat) (gran : Nat)
  /-- PUTM (R101). -/
  | putm (agent : Nat) (gran : Nat) (d : GData)
  /-- RDAT (R101). -/
  | rdat (agent : Nat) (gran : Nat) (d : Option GData)
  /-- DONE (R101). -/
  | done (agent : Nat) (gran : Nat)
  /-- DATA (R102). -/
  | data (agent : Nat) (gran : Nat) (st : Grant) (acks : Nat) (d : GData)
  /-- GNT (R102). -/
  | gnt (agent : Nat) (gran : Nat) (acks : Nat)
  /-- INV (R102). -/
  | inv (agent : Nat) (gran : Nat) (req : Nat) (part : Nat)
  /-- RCLS (R102). -/
  | rcls (agent : Nat) (gran : Nat) (part : Nat)
  /-- RCLI (R102). -/
  | rcli (agent : Nat) (gran : Nat) (part : Nat)
  /-- IACK (R103). -/
  | iack (req : Nat) (agent : Nat) (gran : Nat)
  /-- PACK (R102). -/
  | pack (agent : Nat) (gran : Nat)
  /-- ERR (R94). -/
  | err (agent : Nat) (gran : Nat)
  /-- HOME_SERVED_ACCESS (R67). -/
  | homeServedAccess (id : Nat)
  /-- HOME_ATOMIC (R106). -/
  | homeAtomic (id : Nat)
  /-- MOVE (R82). -/
  | move (part : Nat) (vcid : Nat) (gran : Nat) (old : Nat) (new : Nat) (dirty : Bool)
  /-- MACK (R82). -/
  | mack (part : Nat) (vcid : Nat) (gran : Nat)
  /-- MNAK (R82). -/
  | mnak (part : Nat) (vcid : Nat) (gran : Nat)
  /-- MIGRATION_SWEEP (R80). -/
  | migrationSweep (part : Nat) (vcid : Nat)
  /-- MIGRATION_END (R83). -/
  | migrationEnd (part : Nat) (vcid : Nat)
  /-- DRAIN_SWEEP (R84). -/
  | drainSweep (part : Nat) (vcid : Nat)
  /-- DRAIN_DONE (R77). -/
  | drainDone (part : Nat) (vcid : Nat)
  /-- CORRECTED_BANK_ERROR (R55). -/
  | correctedBankError (bank : Nat) (seg : Nat)
  /-- UNCORRECTABLE_BANK_ERROR (R55). -/
  | uncorrectableBankError (bank : Nat) (seg : Nat)
  /-- PIECE_REGISTER (R111). -/
  | pieceRegister (piece : Nat)
  /-- POSITION_QUERY (R115). -/
  | positionQuery (piece : Nat) (watch : Option Nat)
  /-- POSITION_ANSWER (R115). -/
  | positionAnswer (piece : Nat) (pos : Nat)
  /-- PIECE_END (R117). -/
  | pieceEnd (piece : Nat)
  /-- HOST_MEM_READ (R122). -/
  | hostMemRead (gran : Nat) (snp : HostSnp)
  /-- HOST_MEM_INV (R122). -/
  | hostMemInv (gran : Nat)
  /-- HOST_MEM_WRITE (R122). -/
  | hostMemWrite (gran : Nat) (d : GData)
  /-- HOST_MEM_CLEAN_EVICT (R122). -/
  | hostMemCleanEvict (gran : Nat)
  /-- BI_RESPONSE (R122). -/
  | biResponse (gran : Nat) (keeps : Bool) (d : Option GData)
  /-- BI_CONFLICT (R123). -/
  | biConflict (gran : Nat)
  /-- H2D_SNP_DATA (R124). -/
  | h2dSnpData (gran : Nat)
  /-- H2D_SNP_INV (R124). -/
  | h2dSnpInv (gran : Nat)
  /-- H2D_SNP_CUR (R124). -/
  | h2dSnpCur (gran : Nat)
  /-- H2D_RESPONSE (R124). -/
  | h2dResponse (gran : Nat) (d : GData)
  /-- HEARTBEAT_MISS (R125). -/
  | heartbeatMiss (agent : Nat)
  /-- HOST_LINK_FAIL (R125). -/
  | hostLinkFail (link : Nat)
  /-- SCRUB_STEP (R127). -/
  | scrubStep (stack : Nat)
  /-- STORE_SEND (R137). -/
  | storeSend (hart : Nat)
  /-- STORE_ACK (R137). -/
  | storeAck (hart : Nat) (id : Nat)
  /-- MERGE_FLUSH_IDLE (R145). -/
  | mergeFlushIdle (tile : Nat) (idx : Nat)
  /-- JOIN_MARKERS (R167). -/
  | joinMarkers (hart : Nat)
  /-- JOIN_MARKER_ARRIVE (R167). -/
  | joinMarkerArrive (join : Nat) (circuit : Nat)
  /-- JACK_SEND (R167). -/
  | jackSend (join : Nat) (circuit : Nat)
  /-- JACK_ARRIVE (R167). -/
  | jackArrive (join : Nat) (circuit : Nat)
  /-- MONITOR_NOTIFY (R279). -/
  | monitorNotify (hart : Nat)
  /-- WATERMARK_RELEASE (R157). -/
  | watermarkRelease (hart : Nat)
  /-- LOAD_DATA_RETURN (R175). -/
  | loadDataReturn (id : Nat)
  /-- DISPATCH_DECISION (R204). -/
  | dispatchDecision (stack : Nat)
  /-- POOL_ENTRY_TAKEN (R202). -/
  | poolEntryTaken (stack : Nat) (level : Nat)
  /-- POINT_SET_ASIDE (R203). -/
  | pointSetAside (hart : Nat)
  /-- POINT_RESTORE (R203). -/
  | pointRestore (tile : Nat) (depth : Nat)
  /-- QUANTUM_EXPIRY (R208). -/
  | quantumExpiry (region : Nat)
  /-- CONTEXT_SWAP_BEGIN (R425). -/
  | contextSwapBegin (region : Nat)
  /-- CONTEXT_SWAP_COMPLETE (R425). -/
  | contextSwapComplete (region : Nat)
  /-- LANE_STEP_CHANGE (R211). -/
  | laneStepChange (tile : Nat) (lanes : Nat)
  /-- THERMAL_HALT (R443). -/
  | thermalHalt
  /-- INCOMING_PUT (R51). -/
  | incomingPut (p : PodIn) (bytes : List (BitVec 8))
  /-- INCOMING_GET (R51). -/
  | incomingGet (p : PodIn) (len : Nat)
  /-- INCOMING_RAMO (R51). -/
  | incomingRamo (p : PodIn) (func : Nat) (dword : Bool) (operand : BitVec 64) (cmp : BitVec 64)
  /-- INCOMING_RRED (R51). -/
  | incomingRred (p : PodIn) (func : Nat) (dword : Bool) (bytes : List (BitVec 8))
  /-- INCOMING_MCAST (R385). -/
  | incomingMcast (p : PodIn) (bytes : List (BitVec 8))
  /-- POD_ANSWER (R355). -/
  | podAnswer (tile : Nat) (cmd : Nat) (neg : Bool) (bytes : List (BitVec 8)) (nneg : Nat) (low : Nat)
  /-- MCAST_ROUTE (R385). -/
  | mcastRoute (tile : Nat) (cmd : Nat)
  /-- MCAST_MEMBER_ANSWER (R385). -/
  | mcastMemberAnswer (tile : Nat) (cmd : Nat) (pkg : Nat) (neg : Bool)
  /-- POD_MERGE_SEND (R383). -/
  | podMergeSend (idx : Nat)
  /-- ROUTER_CONTRIBUTION (R372). -/
  | routerContribution (x : Contrib)
  /-- ROUTER_ELEMENT_TIMEOUT (R374). -/
  | routerElementTimeout (cluster : Nat) (elem : Nat)
  /-- ROUTER_ANSWER (R375). -/
  | routerAnswer (cluster : Nat) (elem : Nat) (neg : Bool)
  /-- ROUTER_REPLICATE (R377). -/
  | routerReplicate (tile : Nat) (part : Nat) (pa : Nat) (bytes : List (BitVec 8))
  /-- ROUTER_ENTRY_WRITE (R371). -/
  | routerEntryWrite (tile : Nat) (part : Nat) (off : Nat) (val : BitVec 64)
  /-- CROSSBAR_DIVERGENCE (R381). -/
  | crossbarDivergence
  /-- CROSSBAR_RETRAIN_DONE (R381). -/
  | crossbarRetrainDone (ok : Bool)
  /-- CORRECTED_LANE_ERROR (R381). -/
  | correctedLaneError (slice : Nat)
  /-- CELL_FIRE (R389). -/
  | cellFire (tile : Nat) (pos : Nat)
  /-- AWL_ELEMENT (R392). -/
  | awlElement (tile : Nat) (awl : Nat)
  /-- XLATE_TRANSLATE (R395). -/
  | xlateTranslate (tile : Nat) (awl : Nat)
  /-- AWL_EXTENT_ANSWER (R396). -/
  | awlExtentAnswer (tile : Nat) (awl : Nat)
  /-- MIU_ACCESS (R397). -/
  | miuAccess (tile : Nat) (awl : Nat)
  /-- MIU_BURST_CLOSE (R397). -/
  | miuBurstClose (tile : Nat) (awl : Nat)
  /-- AWL_LOAD_RETURN (R392). -/
  | awlLoadReturn (tile : Nat) (awl : Nat)
  /-- PORT_ELEMENT (R398). -/
  | portElement (tile : Nat) (q : Nat)
  /-- FABRIC_RUN_COMPLETE (R403). -/
  | fabricRunComplete (tile : Nat)
  /-- CELL_FREEZE (R404). -/
  | cellFreeze (tile : Nat) (pos : Nat)
  /-- CUT_WRITE (R404). -/
  | cutWrite (tile : Nat)
  /-- FREEZE_ABANDON (R406). -/
  | freezeAbandon (tile : Nat)
  /-- PARTITION_START (R432). -/
  | partitionStart (part : Nat)
  /-- PARTITION_REMOVE (R432). -/
  | partitionRemove (part : Nat)
  /-- FEATURE_LOCK (R435). -/
  | featureLock (lock : Bool)
  /-- SEGMENT_REVOKE (R430). -/
  | segmentRevoke (bank : Nat) (seg : Nat)
  /-- CONTROL_SPACE_WRITE (R430). -/
  | controlSpaceWrite (off : Nat) (size : Nat) (val : BitVec 64)
  /-- FRETIA_CSR_READ (R438). -/
  | fretiaCsrRead (off : Nat)
  /-- FRETIA_CSR_WRITE (R438). -/
  | fretiaCsrWrite (off : Nat) (val : BitVec 64)
  /-- FRETIA_BLACKBOX_READ (R438). -/
  | fretiaBlackboxRead (die : Nat)
  /-- FRETIA_GROUP_WRITE (R384). -/
  | fretiaGroupWrite (entry : Nat) (members : BitVec 512)
  /-- FRETIA_ATTESTATION (R437). -/
  | fretiaAttestation (nonce : BitVec 256)
  /-- COLD_RESET (R436). -/
  | coldReset (verified : Bool)
  /-- WARM_RESET (R436). -/
  | warmReset
  /-- AGENT_READMIT (R127). -/
  | agentReadmit (agent : Nat)
  /-- MANAGEMENT_SWAP (R425). -/
  | managementSwap (region : Nat)
  /-- SCALE_UP_LINK_FAILURE (R168). -/
  | scaleUpLinkFailure (dest : Nat)
deriving DecidableEq, Repr

/-- The row of the opcode table that a step is. -/
noncomputable def Event.toInstr (e : Event) : Instr :=
  match e with
  | .tsackRetry id own => .tsackRetry id own
  | .tsackFail id own => .tsackFail id own
  | .tsackFrame id own => .tsackFrame id own
  | .tsackInvalid id action own => .tsackInvalid id action own
  | .nendWrite addr => .nendWrite addr
  | .watermarkWrite idx val => .watermarkWrite idx val
  | .yieldExpire hart => .yieldExpire hart
  | .shootBroadcast id => .shootBroadcast id
  | .shootDrop id stack => .shootDrop id stack
  | .shootAck id stack => .shootAck id stack
  | .shootComplete id => .shootComplete id
  | .vcdefProceed hart => .vcdefProceed hart
  | .mmaBegin tile => .mmaBegin tile
  | .matrixOpComplete tile stream => .matrixOpComplete tile stream
  | .commandAccept hart => .commandAccept hart
  | .copyBegin tile => .copyBegin tile
  | .copyTransfer tile cmd => .copyTransfer tile cmd
  | .commandComplete tile cmd => .commandComplete tile cmd
  | .commandNodeBegin part node => .commandNodeBegin part node
  | .streamEngineAccess tile q => .streamEngineAccess tile q
  | .streamComplete tile q => .streamComplete tile q
  | .counterRaise tile k amount => .counterRaise tile k amount
  | .postExamine tile k => .postExamine tile k
  | .firedOpHandoff tile => .firedOpHandoff tile
  | .counterRunGrant tile run part => .counterRunGrant tile run part
  | .counterRunRevoke tile run => .counterRunRevoke tile run
  | .walkComplete tile part va kind sup => .walkComplete tile part va kind sup
  | .tsqRecordWrite part => .tsqRecordWrite part
  | .gets agent gran => .gets agent gran
  | .getm agent gran => .getm agent gran
  | .upg agent gran => .upg agent gran
  | .puts agent gran => .puts agent gran
  | .putm agent gran d => .putm agent gran d
  | .rdat agent gran d => .rdat agent gran d
  | .done agent gran => .done agent gran
  | .data agent gran st acks d => .data agent gran st acks d
  | .gnt agent gran acks => .gnt agent gran acks
  | .inv agent gran req part => .inv agent gran req part
  | .rcls agent gran part => .rcls agent gran part
  | .rcli agent gran part => .rcli agent gran part
  | .iack req agent gran => .iack req agent gran
  | .pack agent gran => .pack agent gran
  | .err agent gran => .err agent gran
  | .homeServedAccess id => .homeServedAccess id
  | .homeAtomic id => .homeAtomic id
  | .move part vcid gran old new dirty => .move part vcid gran old new dirty
  | .mack part vcid gran => .mack part vcid gran
  | .mnak part vcid gran => .mnak part vcid gran
  | .migrationSweep part vcid => .migrationSweep part vcid
  | .migrationEnd part vcid => .migrationEnd part vcid
  | .drainSweep part vcid => .drainSweep part vcid
  | .drainDone part vcid => .drainDone part vcid
  | .correctedBankError bank seg => .correctedBankError bank seg
  | .uncorrectableBankError bank seg => .uncorrectableBankError bank seg
  | .pieceRegister piece => .pieceRegister piece
  | .positionQuery piece watch => .positionQuery piece watch
  | .positionAnswer piece pos => .positionAnswer piece pos
  | .pieceEnd piece => .pieceEnd piece
  | .hostMemRead gran snp => .hostMemRead gran snp
  | .hostMemInv gran => .hostMemInv gran
  | .hostMemWrite gran d => .hostMemWrite gran d
  | .hostMemCleanEvict gran => .hostMemCleanEvict gran
  | .biResponse gran keeps d => .biResponse gran keeps d
  | .biConflict gran => .biConflict gran
  | .h2dSnpData gran => .h2dSnpData gran
  | .h2dSnpInv gran => .h2dSnpInv gran
  | .h2dSnpCur gran => .h2dSnpCur gran
  | .h2dResponse gran d => .h2dResponse gran d
  | .heartbeatMiss agent => .heartbeatMiss agent
  | .hostLinkFail link => .hostLinkFail link
  | .scrubStep stack => .scrubStep stack
  | .storeSend hart => .storeSend hart
  | .storeAck hart id => .storeAck hart id
  | .mergeFlushIdle tile idx => .mergeFlushIdle tile idx
  | .joinMarkers hart => .joinMarkers hart
  | .joinMarkerArrive join circuit => .joinMarkerArrive join circuit
  | .jackSend join circuit => .jackSend join circuit
  | .jackArrive join circuit => .jackArrive join circuit
  | .monitorNotify hart => .monitorNotify hart
  | .watermarkRelease hart => .watermarkRelease hart
  | .loadDataReturn id => .loadDataReturn id
  | .dispatchDecision stack => .dispatchDecision stack
  | .poolEntryTaken stack level => .poolEntryTaken stack level
  | .pointSetAside hart => .pointSetAside hart
  | .pointRestore tile depth => .pointRestore tile depth
  | .quantumExpiry region => .quantumExpiry region
  | .contextSwapBegin region => .contextSwapBegin region
  | .contextSwapComplete region => .contextSwapComplete region
  | .laneStepChange tile lanes => .laneStepChange tile lanes
  | .thermalHalt => .thermalHalt
  | .incomingPut p bytes => .incomingPut p bytes
  | .incomingGet p len => .incomingGet p len
  | .incomingRamo p func dword operand cmp => .incomingRamo p func dword operand cmp
  | .incomingRred p func dword bytes => .incomingRred p func dword bytes
  | .incomingMcast p bytes => .incomingMcast p bytes
  | .podAnswer tile cmd neg bytes nneg low => .podAnswer tile cmd neg bytes nneg low
  | .mcastRoute tile cmd => .mcastRoute tile cmd
  | .mcastMemberAnswer tile cmd pkg neg => .mcastMemberAnswer tile cmd pkg neg
  | .podMergeSend idx => .podMergeSend idx
  | .routerContribution x => .routerContribution x
  | .routerElementTimeout cluster elem => .routerElementTimeout cluster elem
  | .routerAnswer cluster elem neg => .routerAnswer cluster elem neg
  | .routerReplicate tile part pa bytes => .routerReplicate tile part pa bytes
  | .routerEntryWrite tile part off val => .routerEntryWrite tile part off val
  | .crossbarDivergence => .crossbarDivergence
  | .crossbarRetrainDone ok => .crossbarRetrainDone ok
  | .correctedLaneError slice => .correctedLaneError slice
  | .cellFire tile pos => .cellFire tile pos
  | .awlElement tile awl => .awlElement tile awl
  | .xlateTranslate tile awl => .xlateTranslate tile awl
  | .awlExtentAnswer tile awl => .awlExtentAnswer tile awl
  | .miuAccess tile awl => .miuAccess tile awl
  | .miuBurstClose tile awl => .miuBurstClose tile awl
  | .awlLoadReturn tile awl => .awlLoadReturn tile awl
  | .portElement tile q => .portElement tile q
  | .fabricRunComplete tile => .fabricRunComplete tile
  | .cellFreeze tile pos => .cellFreeze tile pos
  | .cutWrite tile => .cutWrite tile
  | .freezeAbandon tile => .freezeAbandon tile
  | .partitionStart part => .partitionStart part
  | .partitionRemove part => .partitionRemove part
  | .featureLock lock => .featureLock lock
  | .segmentRevoke bank seg => .segmentRevoke bank seg
  | .controlSpaceWrite off size val => .controlSpaceWrite off size val
  | .fretiaCsrRead off => .fretiaCsrRead off
  | .fretiaCsrWrite off val => .fretiaCsrWrite off val
  | .fretiaBlackboxRead die => .fretiaBlackboxRead die
  | .fretiaGroupWrite entry members => .fretiaGroupWrite entry members
  | .fretiaAttestation nonce => .fretiaAttestation nonce
  | .coldReset verified => .coldReset verified
  | .warmReset => .warmReset
  | .agentReadmit agent => .agentReadmit agent
  | .managementSwap region => .managementSwap region
  | .scaleUpLinkFailure dest => .scaleUpLinkFailure dest

end Sys2Proof
end

