-- ==== Sys2Proof/Machine/State.lean ====
section
/-! DEFINITION. The state of the Orold X1 as plain data: everything the spec gives the machine, and the model's own agenda of steps
under way. Physical bytes are numbered pk = HOSTM * 2^52 + physical address (R16); granules of 128 bytes are numbered
gk = pk / 128 (R91). -/

namespace Sys2Proof.Machine
open Sys2Proof

/-- Hart states (R170). -/
inductive HartSt where
  | free
  | running
  | parked
  | halted
deriving DecidableEq, Repr

/-- Why a RUNNING hart is not ready to issue (R170, R210). The word at pc is executed again when the wait may be over. -/
inductive Wait where
  | none
  | reg
  | stream
  | data
  | fence
  | monitor
  | queue
  | pool
  | split
  | matrix
  | shoot
  | slot
  | drain
  | yielding
  | fetch
deriving DecidableEq, Repr

/-- A fault a register or element group is marked with (R459, R314): cause, PROT detail and the access's address. -/
structure Mark where
  cause : Nat
  sub : Nat
  addr : Word
  /-- Physical address of the access that was refused, 0 where there is none (R422). -/
  pa : Nat
deriving DecidableEq, Repr

/-- A run of n bytes within one granule (or one IO word): its physical number pk, its VCID, its virtual address and whether the page is IO. -/
structure Piece where
  pk : Nat
  n : Nat
  vcid : Nat
  va : Word
  io : Bool
deriving DecidableEq, Repr

/-- A translation (R27): virtual page base, page bytes, frame base pk, VCID, IO, PIN and permissions R, W, X, S, and cached D. -/
structure Xlat where
  asid : Nat
  vbase : Nat
  size : Nat
  pbase : Nat
  vcid : Nat
  io : Bool
  pin : Bool
  perm : BitVec 4
  dirty : Bool
deriving DecidableEq, Repr

/-- What an entry of the store buffer, or an atomic, does to memory (R137, R276, R282). -/
inductive MemOp where
  /-- The bytes to write, in the order of the pieces. -/
  | write (bytes : List Byte)
  /-- A read-modify-write of the AMO function f (R276) on 4 or 8 bytes; cmp is the compare value of CAS. -/
  | rmw (f : Nat) (dword : Bool) (b cmp : Word)
  /-- A barrier arrival with N participants (R282). -/
  | arrive (n : Word)
  /-- Adds to a trigger counter (R31). -/
  | raise (tile k : Nat) (amount : Word)
  /-- Sets a trigger counter (R359). -/
  | ctrSet (tile k : Nat) (v : Word)
  /-- Writes the low or the high nibble of a byte, under ownership (R131). -/
  | nibble (hi : Bool) (v : Nat)
deriving DecidableEq, Repr

/-- What orders an access (R135, R139 to R143): its instruction's number, whether a vector instruction made it, acquire, release, LDST.O or IO,
the vector order bit O and the decoupling bit D; sup: the hart's privilege at issue (R460), with which it is translated again after a swap. -/
structure AccOrd where
  ins : Nat
  sup : Bool
  vec : Bool
  acq : Bool
  rel : Bool
  strict : Bool
  inOrder : Bool
  apart : Bool
deriving DecidableEq, Repr

/-- One store-buffer entry: its pieces not yet performed; it retires on its acknowledgement (R137). A vector store is one entry per element, or
per granule that the instruction writes whole (R315, R461: full). -/
structure SbEntry where
  id : Nat
  op : MemOp
  pieces : List Piece
  va : Word
  ord : AccOrd
  full : Bool
  performed : Bool
  /-- A piece of it was refused and is reported: one record a store (R459). -/
  refused : Bool := false
  /-- It is on its way, to a router that combines it (R372) or as a raise to a Harness (R365), and not yet performed. -/
  away : Bool := false
deriving DecidableEq, Repr

/-- Where the value of a pending access goes. -/
inductive Dest where
  /-- g register key (0 to 31 user set, 32 to 35 supervisor g28 to g31), bytes, sign extension. -/
  | g (key n : Nat) (signed : Bool)
  /-- Element i of w bits of row r of a v register in a lane partition. -/
  | v (lanes : BitVec 4) (reg row w i : Nat)
  /-- The place of a sidecar byte, and the element group that fills with it (R228, R310). -/
  | side (place grp : Nat)
  /-- Collected by the hart before a convoy or a push commits, under the access's number (R181, R351). -/
  | buf (id : Nat)
deriving DecidableEq, Repr

/-- A load or atomic in flight (R175): its hart, its pieces, its operation and its destination; chk: it obeys the watermarks (R157). -/
structure Pend where
  id : Nat
  hart : Nat
  op : Option MemOp
  pieces : List Piece
  va : Word
  dest : Dest
  chk : Bool
  ord : AccOrd
  /-- A VCQRY in flight: the slot it reads; it has no pieces (R287). -/
  query : Option Nat := none
  /-- A value on its way to a register, of an instruction that makes no access (R175): VEXTR, MPOPC or MFIRST; it has no pieces. -/
  value : Option Word := none
deriving DecidableEq, Repr

/-- The monitor of a hart: its armed granule and whether it has been notified (R279). Counter granules are numbered from 2^46. -/
structure Monitor where
  gran : Nat
  notified : Bool
deriving DecidableEq, Repr

/-- A join in progress (R167): its id, whether for the pod, markers sent, answers still due, and the circuits joined. -/
structure Join where
  id : Nat
  pod : Bool
  sent : Bool
  due : Nat
  circ : List Nat
deriving DecidableEq, Repr

/-- The point a hart runs (R171, R187): its nest's pool key stack * 2^16 + level * 128 + entry (none for the root) and its depth. -/
structure Point where
  node : Option Nat
  depth : Nat
deriving DecidableEq, Repr

/-- The registers of a vector thread (R194, R291). -/
structure VThread where
  vl : Word
  vlreq : Word
  vtype : Word
  vrc : Word
  vfill : Word
  vrs : Word
  vcsr : Word
  /-- Lane groups held, one bit each. -/
  lanes : BitVec 4
  /-- Lane groups that merged threads have returned to thread 0, which takes them into its rows at its own VMERGE (R171, R184). -/
  back : BitVec 4
  tnum : Nat
  split : Bool
deriving DecidableEq, Repr

/-- The trap registers (R411). -/
structure TrapRegs where
  epc : Word
  ecause : Word
  eaddr : Word
  estat : Word
deriving DecidableEq, Repr

/-- The data of a load collected before the convoy, or the push into a stream, that uses them commits (R181, R351), and the faults met. -/
structure Conv where
  /-- The number of the first of its accesses; values and faults are listed by the numbers of theirs. -/
  first : Nat
  vals : SMap (List Byte)
  marks : SMap Mark
deriving DecidableEq, Repr

/-- Node states (R189). -/
inductive NodeSt where
  | pending
  | ready
  | running
deriving DecidableEq, Repr

/-- A node of a pool, or the captured request for one (R189, R201): a nest record or a command node record; its own number; successors by pool key and
number (R198, R200); points handed out, next step of their order, points running. -/
structure Node where
  id : Nat
  addr : Nat
  part : Nat
  level : Nat
  isCmd : Bool
  recd : List Word
  succ : List (Nat × Nat)
  foot : List (Nat × Nat × Bool)
  derived : List (Nat × Nat)
  st : NodeSt
  preds : Nat
  taint : Bool
  nextP : Nat
  live : Nat
  ended : Bool
  prio : Nat
  pass : Nat
  /-- The clock at which it became READY (R204). -/
  readyAt : Nat
  lastTile : Nat
  tile : Nat
  hart : Nat
  sup : Bool
deriving DecidableEq, Repr

/-- A hart (R194). -/
structure Hart where
  st : HartSt
  pc : Word
  sup : Bool
  /-- Keys 0 to 31: the user set; 32 to 35: supervisor g28 to g31 (R410). -/
  g : SMap Word
  gEmpty : List Nat
  gFault : List (Nat × Mark)
  fcsr : Word
  fmt : SMap Word
  ctab : SMap Word
  wm : SMap Word
  wmb : SMap Word
  ix : SMap Word
  tr : TrapRegs
  v : VThread
  ustr : Option Xlat
  sb : List SbEntry
  monitor : Option Monitor
  join : Option Join
  point : Option Point
  wait : Wait
  /-- The phase of a BAR whose arrival is performed (R282, R411). -/
  barPh : Option (BitVec 31)
  /-- A pending fault: inside the handling of a PAGE or PROT trap (R49). -/
  pfault : Bool
  /-- pfault as it stood before each trap not yet returned from, the newest first: RFE restores it (R49). -/
  pfOuter : List Bool
  /-- The SHOOT in progress (R44). -/
  shoot : Option Nat
  /-- Holds a place among the stalled requests of the pool (R202). -/
  stalled : Bool
  /-- Its stalled request as last captured, and whether the pool took it while the point was set aside (R203). -/
  req : Option Node
  taken : Bool
  /-- Granules, or other parts, that the instruction at pc has already treated (R283). -/
  prog : Nat
  /-- Data being collected by the instruction or convoy at pc. -/
  conv : Option Conv
deriving DecidableEq, Repr

/-- A granted, captured command, queued or in progress (R345, R347). -/
structure Cmd where
  id : Nat
  part : Nat
  tile : Nat
  hart : Nat
  sup : Bool
  /-- 0 a hart issued it, 1 a post fired it, 2 it is a command node. -/
  src : Nat
  node : Nat
  /-- Of a command node: its number, and the address of its record (R48). -/
  nid : Nat
  naddr : Word
  /-- The kind of R344 and, for COPY, the MODE of R348: kind * 8 + mode. -/
  kind : Nat
  ga : Word
  gb : Word
  gc : Word
  gd : Word
  comp : Comp
  esz : Nat
  param : Nat
  dpkg : Nat
  tag : Option PodTag
  func : Nat
  follow : Option Follow
  /-- The registers as captured: row bytes R for VREG, tcfg for TILE. -/
  snap : Word
  begun : Bool
  pos : Nat
  /-- The service request it waits on (R46). -/
  stall : Option Nat
  retry : Bool
  err : Option Mark
  answered : Bool
  buf : List Byte
  /-- Its counter raise, successors and record are made; the answer word and the stamp remain. -/
  raised : Bool
  /-- Answers due from routers and pod merge entries (R375, R383). -/
  due : Nat
  /-- The stamp's value without bit 63, and the answer word written before it (R347, R355). -/
  val : Word
  word : Word
deriving DecidableEq, Repr

/-- An operation of a matrix stream with its snapshot (R329, R330). Kinds: 0 MLD, 1 MST, 2 MMA, 3 MZERO, 4 MACC2V, 5 MACC2T. -/
structure MOp where
  kind : Nat
  hart : Nat
  a : Nat
  b : Nat
  acc : Nat
  vd : Nat
  flags : Nat
  base : Word
  stride : Word
  cfgA : Word
  cfgB : Word
  cfgM : Word
  fmts : SMap Word
  ctabs : SMap Word
  vcsr : Word
  sup : Bool
  lanes : BitVec 4
  begun : Bool
  pos : Nat
  /-- A follow-on MMA waits for this command (R349). -/
  waits : Option Nat
  seq : Nat
  /-- What an MLD has read of the row under way (R332). -/
  buf : List Byte := []
deriving DecidableEq, Repr

/-- One matrix stream (R331, R332). -/
structure MStream where
  err : Option Mark
  ops : List MOp
  stall : Option Nat
  /-- Flags of operations that have completed, which vcsr shows after an MSYNC of the stream (R234, R271). -/
  flags : Nat := 0
deriving DecidableEq, Repr

/-- One stream engine (R350 to R352, R398). -/
structure SEng where
  bound : Bool
  fabric : Bool
  hart : Nat
  part : Nat
  sup : Bool
  vfile : Bool
  reg : Nat
  write : Bool
  recd : List Word
  comp : Comp
  gd : Word
  /-- Next position to fetch or write in memory. -/
  pos : Nat
  /-- Positions popped or pushed by the register's uses. -/
  used : Nat
  data : List Word
  mask : List Bool
  stall : Option Nat
  err : Option Mark
  complete : Bool
deriving DecidableEq, Repr

/-- A posted operation in its slot (R356, R357). -/
structure Post where
  part : Nat
  sup : Bool
  k : Nat
  addr : Word
  thr : Word
  step : Word
  act : Nat
  rel : Bool
  cmd : Option Cmd
deriving DecidableEq, Repr

/-- What a hart has in a merge entry: the numbers of its first and of its latest contribution among the accesses, whether the decoupling bit sets all
of them apart from its scalar accesses (R141, R145), and when the last of them entered. -/
structure MergeC where
  hart : Nat
  first : Nat
  latest : Nat
  apart : Bool
  turn : Nat
deriving DecidableEq, Repr

/-- An entry of the tile merge buffer (R144): words by byte offset; being flushed; contributions due from the router; clock last touched. -/
structure MergeE where
  /-- The number of its first contribution among the accesses (R44). -/
  id : Nat
  part : Nat
  /-- The harts with a contribution in it, the first of them first (R145). -/
  harts : List MergeC
  /-- The privilege of its contributions, with which it is translated again after a swap (R195, R460). -/
  sup : Bool
  gk : Nat
  vcid : Nat
  va : Word
  f : Nat
  dword : Bool
  vals : SMap Word
  going : Bool
  due : Nat
  touched : Nat
deriving DecidableEq, Repr

/-- A token of the fabric (R387): 0 data, 1 end, 2 round marker. -/
structure Tok where
  kind : Nat
  d : BitVec 32
deriving DecidableEq, Repr

/-- An extent token (R38, R395): the virtual address it was requested for, the physical number of that byte (HOSTM in it), the bytes left from there to
the end of the page, the partition tag, the intent and the VCID. -/
structure Extent where
  va0 : Word
  pk : Nat
  left : Nat
  part : Nat
  wr : Bool
  vcid : Nat
deriving DecidableEq, Repr

/-- Accesses of one kind that an awl's memory interface unit gathers in one granule (R397): its place, slot and address, and of stores the bytes written so
far, under mask, with the number of elements; the clock of the last one. Where the elements from the first on write the granule whole and no order output
waits for them, they go home as one write (R461): the burst then stays open until they have. send: it is closed, and its stores are performed next. -/
structure Burst where
  gk : Nat
  vcid : Nat
  va : Word
  store : Bool
  data : BitVec 1024
  mask : BitVec 128
  n : Nat
  last : Nat
  whole : Bool
  send : Bool
deriving DecidableEq, Repr

/-- An awl of a run (R392, R396, R407). -/
structure Awl where
  base : Word
  /-- Elements generated, and leading elements performed. -/
  gen : Nat
  elem : Nat
  /-- The last element is generated. -/
  ended : Bool
  /-- The end token is emitted or consumed. -/
  endSent : Bool
  /-- The extent held. -/
  extent : Option Extent
  /-- A fault answer not yet acted on: its kind, 0 PAGE or 1 PROT. -/
  answer : Option Nat
  /-- The service request it stalls on, and its fault kind. -/
  req : Option Nat
  fkind : Nat
  /-- An access is issued and not yet performed. -/
  busy : Bool
  /-- It has ended with error. -/
  fault : Option Mark
  /-- Values loaded and not yet emitted, by element number; elements emitted. -/
  buf : SMap Word
  emitted : Nat
  /-- Ordering tokens emitted, and the end on the order link. -/
  osent : Nat
  oend : Bool
  burst : Option Burst
  frozen : Bool
deriving DecidableEq, Repr

/-- A stream port of a run (R398): positions completed and the end emitted or consumed; its pattern and requests stand in its engine. -/
structure FPort where
  pos : Nat
  endDone : Bool
  frozen : Bool
deriving DecidableEq, Repr

/-- An FHALT or a context swap freezing a run (R404, R406), since a clock; words of the cut written. -/
structure Freeze where
  swap : Bool
  ga : Word
  gd : Word
  comp : Comp
  sup : Bool
  hart : Nat
  since : Nat
  pos : Nat
deriving DecidableEq, Repr

/-- A run of a fabric configuration (R401 to R407). Queue keys: a cell's POS * 4 + input; 2^15 + awl * 4 + 0 data, 1 index, 2 order;
2^16 + port * 4. err: the first error, its UNIT and its record body (R403, R422). -/
structure FabRun where
  gd : Word
  comp : Comp
  sup : Bool
  hart : Nat
  queues : SMap (List Tok)
  /-- Queues with a round marker in their slot. -/
  marks : List Nat
  acc : SMap (BitVec 32)
  awls : SMap Awl
  ports : SMap FPort
  /-- SINK cells that have consumed their end. -/
  sinks : List Nat
  /-- Frozen cells. -/
  frozen : List Nat
  freeze : Option Freeze
  err : Option (Mark × Nat × Nat)
  stopped : Bool
deriving DecidableEq, Repr

/-- The fabric of a tile (R399): the loaded image with its check word, and the run. The tiles of a joined grid name the tile, lead, that
holds its image and its run. -/
structure Fabric where
  image : List Word
  chk : BitVec 32
  part : Nat
  lead : Nat
  run : Option FabRun
  /-- FHALTs accepted behind the one that freezes the run (R345). -/
  halts : List Freeze
  /-- Leading elements that the awls of the last run performed (R394, R408). -/
  elems : SMap Nat
deriving DecidableEq, Repr

/-- A hart set aside (R203), with the contents of the units granted to it; num is its number until then, stk the stack whose pool its request waits for. -/
structure Aside where
  hart : Hart
  num : Nat
  stk : Nat
  mx : Bool
  fb : Bool
  v : SMap Byte
  vside : SMap Byte
  vFault : List (Nat × Mark)
  m : SMap (BitVec 2048)
  t : SMap Byte
  tside : SMap Byte
  tcfg : SMap Word
  acc : SMap (BitVec 32)
  ms : SMap MStream
  /-- The configuration of its fabric grant with the engines it claims, and those of the other tiles of a joined one (R399). -/
  fab : Option Fabric
  ports : SMap SEng
  joined : List (Nat × Option Fabric × SMap SEng)
  /-- Full/empty bits of its element groups, and its producers held back (R195). -/
  vEmpty : List Nat
  pend : List Pend
deriving DecidableEq, Repr

/-- A line of a scalar L1 (R68, R69): its granule, the agent whose copy it shows, and whether it is registered as agent of its own tile (own), else
sheltered by a line of that agent. -/
structure L1E where
  gk : Nat
  agent : Nat
  own : Bool
deriving DecidableEq, Repr

/-- A tile (R194). -/
structure Tile where
  /-- Byte (reg * 8 + row) * 1024 + b. -/
  v : SMap Byte
  /-- Empty element groups (reg * 8 + row) * 16 + group. -/
  vEmpty : List Nat
  vFault : List (Nat × Mark)
  /-- Sidecar byte (reg * 8 + row) * 256 + j. -/
  vside : SMap Byte
  /-- Mask bits of row reg * 8 + row; lane offsets are bit positions within the tile's row. -/
  m : SMap (BitVec 2048)
  /-- Byte (n * 64 + row) * 256 + b. -/
  t : SMap Byte
  tside : SMap Byte
  tcfg : SMap Word
  /-- Element (a * 64 + i) * 64 + j. -/
  acc : SMap (BitVec 32)
  mx : Option Nat
  fb : Option Nat
  ms : SMap MStream
  mxBusy : Bool
  l1 : List L1E
  /-- L1 instruction cache: granule and its bytes as last filled. -/
  ic : SMap (BitVec 1024)
  gtlb : List (Nat × Xlat)
  itlb : List Xlat
  cq : List Cmd
  se : SMap SEng
  posts : List Post
  fired : List Cmd
  /-- Entries 0 to 31. -/
  merge : SMap MergeE
  usedD : List Nat
  usedP : List Nat
  fab : Option Fabric
  laneStep : Nat
  aside : SMap Aside
  /-- The hart that issued last (R210); 2^13: none. -/
  last : Nat
deriving DecidableEq, Repr

/-- States of a composed-cache slot (R77). -/
inductive SlotSt where
  | empty
  | active
  | migrating
  | draining
  | faulted
deriving DecidableEq, Repr

/-- A line of a composed cache (R64, R74), at its place bank * 2^20 + byte. Its granules' states are its agent's copies. -/
structure Line where
  /-- Line address: pk / line bytes. -/
  addr : Nat
  newmap : Bool
  /-- Being moved to this place (R82). -/
  mv : Option Nat
  /-- Scalar presence: the tile whose L1 holds copies this line shelters, SPT where SP = 1 (R64, R69). -/
  sp : Option Nat
  /-- Landing and claim bits of its 64-byte blocks (stash), and the copies whose claims they are: block and command. -/
  lb : BitVec 4
  cb : BitVec 4
  jobs : List (Nat × Nat)
deriving DecidableEq, Repr

/-- A composed-cache slot (R56, R77). -/
structure Slot where
  st : SlotSt
  recd : List Word
  newRecd : List Word
  /-- A removal, or the install of newRecd, is to follow the drain. -/
  removing : Bool
  pending : Bool
  lines : SMap Line
  /-- Positions of the old placement already visited. -/
  sweep : Nat
deriving DecidableEq, Repr

/-- An unanswered translation service request (R47, R48). -/
structure TsReq where
  id : Nat
  va : Word
  src : Nat
  unit : Nat
  tile : Nat
  acc : Nat
  fk : Nat
  tag : Word
  written : Bool
  cmd : Nat
deriving DecidableEq, Repr

/-- A cut as it was saved: its address, its words, and the pattern record of each port's engine, which the cut does not hold (R398, R407). -/
structure SavedCut where
  ga : Word
  words : List Word
  pats : List (Nat × List Word)
deriving DecidableEq, Repr

/-- A partition (R194, R47, R411, R420). -/
structure Part where
  ptbr : Word
  tsqb : Word
  tscons : Word
  tvec : Word
  fsqb : Word
  fscons : Word
  fsdrop : Word
  tsProduced : Nat
  tsNext : Nat
  tsReqs : List TsReq
  fsProduced : Nat
  slots : SMap Slot
  cid : Nat
  /-- Cuts saved, the newest first, with the pattern records of their ports (notes/assumptions/22.md). -/
  cuts : List SavedCut
  /-- Answers held against the ids of requests while their awls are halted: 0 RETRY, 1 FAIL (R405). -/
  held : SMap Nat
deriving DecidableEq, Repr

/-- States of an agent's copy (R102); no copy is I. -/
inductive CopySt where
  | s
  | e
  | m
  | is
  | im
  | sm
  | si
  | mi
deriving DecidableEq, Repr

/-- An agent's copy of a granule (R102, R103, R107); part: the partition whose request brought it (R93, R96); asker: the step, with the number of its access,
that made the request under way, which alone takes an error answer to it (R94, R116); none: the granule is fetched with another of its line, or for a claim,
and no access waits for its answer (R65, R75). -/
structure Copy where
  st : CopySt
  data : BitVec 1024
  mask : BitVec 128
  psn : Bool
  need : Option Nat
  got : Nat
  part : Nat
  asker : Option (Event × Nat)
deriving DecidableEq, Repr

/-- A directory entry (R96); a granule without one is state I, and one with a transaction is state B. PSN stands in the state's list of poisoned granules.
The identity copies are held as their 35 bits: TAG, HM and OWNP. -/
structure DirE where
  owned : Bool
  coarse : Bool
  ptrs : List Nat
  cv : BitVec 64
  h : Bool
  ida : BitVec 35
  idb : BitVec 35
  idc : BitVec 35
  /-- SCODE reports an uncorrectable error (R108). -/
  bad : Bool
deriving DecidableEq, Repr

/-- What a transaction in B does when its answers are in (R101, R105, R111). Kinds: 0 wait for DONE of req; 1 RCLS for a GETS of req;
2 RCLI for a GETM of req; 3 recall to I and 4 RCLS, for the home or for a snoop of the host (req); 5 uncorrectable entry (R108); 6 GETS and
7 GETM of req that wait for the host's answer (R124); 8 GETM and 9 UPG of the host, whose acknowledgements the home collects; 10 UPG of req that waits
for the host's answer. putm: dirty data have come. -/
structure Txn where
  kind : Nat
  req : Nat
  due : List Nat
  putm : Bool
  leave : List Nat
deriving DecidableEq, Repr

/-- A Cinch at its holder (R109, R353). -/
structure Cinch where
  id : Nat
  /-- CID (R110). -/
  cid : BitVec 16
  part : Nat
  tile : Nat
  unit : Nat
  sup : Bool
  esz : Nat
  wr : Bool
  mode : Nat
  base : Word
  stride : Word
  count : Nat
  /-- Leading elements completed, and those completed beyond them (R115). -/
  pos : Nat
  gone : List Nat
deriving DecidableEq, Repr

/-- A piece at its home (R110); cinch: the command that made its Cinch. Held are the requests that wait at it, with their granules and the numbers of
their accesses, in arrival order (R114). -/
structure PieceT where
  id : Nat
  cinch : Nat
  cid : BitVec 16
  part : Nat
  pk : Nat
  va : Word
  esz : Nat
  wr : Bool
  mode : Nat
  stride : Int
  first : Nat
  count : Nat
  tile : Nat
  unit : Nat
  live : Bool
  released : List Nat
  held : List (Nat × Event × Nat)
  query : Bool
  watch : Option Nat
deriving DecidableEq, Repr

/-- A stack: its pool, its caches and its scrub engine (R33, R127, R201). -/
structure Stack where
  /-- Nodes by level * 128 + entry. -/
  pool : SMap Node
  /-- Stalled requests of each level, in arrival order: hart numbers, or for a set-aside point 2^16 + tile * 8 + depth, and with it (partid + 1) * 2^20
  while its partition is out. -/
  stalls : SMap (List Nat)
  llc : List Xlat
  walk : List (Nat × Nat × Nat)
  stopped : Bool
  scrub : List (Nat × Nat)
deriving DecidableEq, Repr

/-- A SHOOT in progress (R44). -/
structure Shoot where
  id : Nat
  hart : Nat
  part : Nat
  kind : Nat
  lo : Nat
  n : Nat
  sent : Bool
  /-- Stacks that have dropped their entries, with the number of the next access then; stacks that have acknowledged. -/
  dropped : List (Nat × Nat)
  acked : List Nat
deriving DecidableEq, Repr

/-- One entry of a black box (R441). -/
structure BoxE where
  cyc : Nat
  kind : Nat
  part : Nat
  addr : Nat
  data : Nat
  seq : Bool
deriving DecidableEq, Repr

/-- A packet to another package (R380): the fields of its route header, on the crossbar the group entry of a multicast's index header, its data, and the bytes
of padding after them. The check bits of its words and the digests of its check beat are the links' own (notes/assumptions/25.md). -/
structure Packet where
  dest : Nat
  cls : Nat
  ndb : Nat
  index : Option Nat
  data : List Byte
  pad : Nat
deriving DecidableEq, Repr

/-- A message on its way out of the package, or to management or the host. -/
inductive Out where
  /-- Exit code of a HALT (R418). -/
  | exit (part : Nat) (code : Word)
  /-- A notice to management: kind and data (R415, R442). -/
  | notice (kind part data : Nat)
  /-- A pod request: origin tile, command, kind and partition, destination package, its partition there, target address,
  length, packets, tag, raises carried (R375), and of these those made although it is refused (R458). -/
  | pod (tile cmd kind opart dpkg part : Nat) (va : Word) (len : Nat) (packets : List Packet) (tag : Option PodTag) (raises oe : Nat)
  /-- An answer to an incoming pod request (R51). -/
  | podAnswer (pkg tile cmd : Nat) (neg : Bool) (bytes : List Byte)
  /-- A CXL message to the host (R122 to R124). Kinds: 1 Cmp-S, 2 Cmp-E, 3 Cmp-E with ownership, 4 DirtyEvict, 5 CleanEvict, 6 BISnpInv,
  7 BISnpData, 8 completion with poison for an error, 9 RdShared, 10 RdOwn, 11 RdOwnNoData, 12 RspIHitI, 13 RspIFwdM, 14 RspSHitSE,
  15 RspSFwdM, 16 current data, 17 Cmp of a write, 18 BIConflictAck. -/
  | host (kind gran : Nat) (d : Option GData)
  /-- A completion of a host CXL.io request to control space: Unsupported Request, or its data (R430). -/
  | io (ur : Bool) (bytes : List Byte)
  /-- An answer on the Fretia port (R438). -/
  | fretia (bytes : List Byte)
deriving DecidableEq, Repr

/-- An HDM decoder (R429): the host addresses it takes, the device address of the first, and its link: 0 or 1, or 2 for both, interleaved at 256 bytes. -/
structure Hdm where
  base : Nat
  size : Nat
  dpa : Nat
  link : Nat
deriving DecidableEq, Repr

/-- An element in progress in a router (R372, R373): its cluster and id, the stage entry, its target, its tag, and its contributions: tile
position, the value or none for a dropped one, and the origin that waits for the answer. Leaving elements take no more. -/
structure RElem where
  cluster : Nat
  elem : Nat
  part : Nat
  dpkg : Nat
  func : Nat
  entry : Nat
  pa : Nat
  tag : Option PodTag
  vals : List (Nat × Option Nat × Nat)
  born : Nat
  leaving : Bool
  sent : Bool
deriving DecidableEq, Repr

/-- A granule entry of the pod merge buffer (R383): its elements by address, its tag, the commands that wait on it, and whether it must leave before these have
issued all their elements. -/
structure PodM where
  id : Nat
  part : Nat
  dpkg : Nat
  func : Nat
  bytes : Nat
  gran : Nat
  vals : SMap Nat
  tag : Option PodTag
  cmds : List (Nat × Nat)
  going : Bool
  sent : Bool
  /-- Answers due, and whether one was negative. -/
  due : Nat
  neg : Bool
  born : Nat
deriving DecidableEq, Repr

/-- A write that a REPLICATE entry copies (R377): the unit and job whose write it is, its address, the copy that comes next, and whether one was
refused. -/
structure Rep where
  tile : Nat
  unit : Nat
  job : Nat
  part : Nat
  pa : Nat
  stride : Int
  nrep : Nat
  next : Nat
  err : Bool
deriving DecidableEq, Repr

/-- A multicast on its way (R385): the members it counts, those of its first packet; answers due, one a packet and member; negatives; whether packets
remain to be sent. -/
structure McastT where
  tile : Nat
  cmd : Nat
  members : List Nat
  more : Bool
  due : List Nat
  neg : List Nat
deriving DecidableEq, Repr

/-- An incoming pod operation admitted and under way (R434): package, tile and command of origin, its target partition, the address where it goes on, its tag,
and the pieces not yet performed, all translated before the first was (R51); wr: it came on a class 3 circuit (R166). -/
structure PodAdm where
  key : Nat × Nat × Nat
  part : Nat
  at' : Word
  tag : Option PodTag
  pieces : List Piece
  wr : Bool
deriving DecidableEq, Repr

/-- The saved context of a tile for a partition that is out (R426): its harts, its contents and its held producers (R195). -/
structure TileCtx where
  harts : List (Nat × Hart)
  tile : Tile
  pend : List Pend
deriving DecidableEq, Repr

/-- What the region scheduler holds of a region (R208): the running partition (0 none, else partid + 1), a swap in progress, the quantum. -/
structure Region where
  running : Nat
  halting : Bool
  /-- The clock at which the quantum ends. -/
  ends : Nat
deriving DecidableEq, Repr

/-- The machine. -/
structure State where
  /-- Device memory at home: unlisted addresses read 0 (notes/assumptions/1.md). -/
  mem : List Host.Cell
  /-- Host physical memory at the host, as CXL shows it. -/
  hostMem : List Host.Cell
  /-- Poisoned granules at home (R107). -/
  psn : List Nat
  /-- Bytes of poisoned granules that a stream engine or awl has written by parts, by (tile * 32 + unit) * 2^46 + gk (R461). -/
  wrote : SMap (BitVec 128)
  /-- Control space by 8-byte words (R430). -/
  ctl : SMap Word
  /-- Trigger counters tile * 512 + k (R361). -/
  ctr : SMap Word
  harts : SMap Hart
  tiles : SMap Tile
  parts : SMap Part
  stks : SMap Stack
  regions : SMap Region
  /-- Copies by agent * 2^46 + gk. -/
  copies : SMap Copy
  dir : SMap DirE
  txns : SMap Txn
  /-- Error answers that wait for the access that asked: agent * 2^46 + gk, the step that asked with its access's number, cause + 256 * detail
  (R94, R116). -/
  errs : List (Nat × (Event × Nat) × Nat)
  /-- What waits at a granule for its transaction to end, in arrival order: requests, and home-served accesses with their numbers (R101, R192). -/
  waitq : SMap (List (Event × Nat))
  /-- Back-invalidate snoops the host has not answered: granule, and the requester its acknowledgement is for, 1024 for a recall (R122). -/
  bis : List (Nat × Nat)
  fenced : List Nat
  cinches : List Cinch
  pieces : List PieceT
  pend : List Pend
  shoots : List Shoot
  /-- Saved contexts by tile * 64 + partition (R426). -/
  shadow : SMap TileCtx
  offline : List Nat
  /-- Black boxes by die, newest entry first, and entries made since cold reset (R441). -/
  boxes : SMap (List BoxE)
  boxN : SMap Nat
  groups : SMap (BitVec 512)
  relems : List RElem
  podMerge : List PodM
  mcasts : List McastT
  reps : List Rep
  /-- Incoming pod operations admitted and under way, in order of arrival (R166, R434). -/
  admitted : List PodAdm
  /-- Packages whose scale-up link has failed (R168). -/
  linksDown : List Nat
  /-- Crossbar: 0 up, 1 retraining; failed retrains in a row; fenced. -/
  xbarDown : Bool
  xbarFails : Nat
  xbarFenced : Bool
  firmware : Bool
  /-- Firmware stages whose digests are recorded as measurements, where not all of them verified (R437). -/
  stages : Option Nat
  /-- HDM decoders 0 and 1 (R429). -/
  hdm : SMap Hdm
  out : List Out
  /-- Steps of units under way, oldest first: the model's own order of them (notes/assumptions/3.md). -/
  agenda : List Event
  /-- The next step is the agenda's (else a hart's). -/
  evTurn : Bool
  /-- The hart that executes. -/
  cur : Nat
  /-- The tile whose harts were examined last. -/
  last : Nat
  nextId : Nat
  /-- Free values drawn (notes/assumptions/4.md). -/
  free : Nat
  /-- Core clocks: one a step (notes/assumptions/3.md). -/
  clock : Nat
  missed : SMap Nat
deriving DecidableEq, Repr

/-- Why the model stops. -/
inductive Fault where
  /-- Raised by step alone: no hart is RUNNING and no step of a unit is under way, so nothing moves until the outside acts (R193). Safe. -/
  | idle
deriving DecidableEq, Repr

/-- What the model refuses. -/
inductive Refusal where
  /-- Raised by an arm of exec whose instruction has no meaning in the model. Safe. -/
  | notModelled (mnemonic : String)
deriving DecidableEq, Repr

/-- vtype at reset: SEW 3 (R291). -/
def VThread.init : VThread :=
  { vl := 0, vlreq := 0, vtype := 0xC0, vrc := 1, vfill := 0, vrs := 0, vcsr := 0, lanes := 0, back := 0, tnum := 0, split := false }

/-- A hart before any point has entered it (R172; the values of registers: notes/assumptions/2.md). -/
def Hart.init : Hart :=
  { st := .free, pc := 0, sup := false, g := [], gEmpty := [], gFault := [], fcsr := 0, fmt := [], ctab := [], wm := [], wmb := [],
    ix := [], tr := ⟨0, 0, 0, 0⟩, v := VThread.init, ustr := none, sb := [], monitor := none, join := none, point := none,
    wait := .none, barPh := none, pfault := false, pfOuter := [], shoot := none, stalled := false, req := none, taken := false, prog := 0, conv := none }

/-- A tile at reset (contents of its register files: notes/assumptions/2.md). -/
def Tile.init : Tile :=
  { v := [], vEmpty := [], vFault := [], vside := [], m := [], t := [], tside := [], tcfg := [], acc := [], mx := none, fb := none,
    ms := [], mxBusy := false, l1 := [], ic := [], gtlb := [], itlb := [], cq := [], se := [], posts := [], fired := [], merge := [],
    usedD := [], usedP := [], fab := none, laneStep := 64, aside := [], last := 8192 }

/-- An EMPTY slot (R56). -/
def Slot.init : Slot :=
  { st := .empty, recd := [], newRecd := [], removing := false, pending := false, lines := [], sweep := 0 }

/-- A partition before its first start. -/
def Part.init : Part :=
  { ptbr := 0, tsqb := 0, tscons := 0, tvec := 0, fsqb := 0, fscons := 0, fsdrop := 0, tsProduced := 0, tsNext := 0, tsReqs := [],
    fsProduced := 0, slots := [], cid := 0, cuts := [], held := [] }

/-- A stack at reset. -/
def Stack.init : Stack :=
  { pool := [], stalls := [], llc := [], walk := [], stopped := false, scrub := [] }

/-- The machine right after reset (R436): no partition runs; FEAT0 offers the part's features. -/
def State.reset : State :=
  { mem := [], hostMem := [], psn := [], wrote := [], ctl := [(0, Config.feat0)], ctr := [], harts := [], tiles := [], parts := [], stks := [],
    regions := [], copies := [], dir := [], txns := [], errs := [], waitq := [], bis := [], fenced := [], cinches := [], pieces := [], pend := [],
    shoots := [], shadow := [], offline := [], boxes := [], boxN := [], groups := [], relems := [], podMerge := [], mcasts := [], reps := [], admitted := [], linksDown := [],
    xbarDown := false, xbarFails := 0, xbarFenced := false, firmware := true, stages := none, hdm := [], out := [], agenda := [], evTurn := false,
    cur := 0, last := 0, nextId := 0, free := 0, clock := 0, missed := [] }

end Sys2Proof.Machine
end

