-- ==== Sys2Proof/Machine/Ops.lean ====
section
/-! DEFINITION. The named operations over the state: its parts, control space, the black boxes, general registers with their full/empty
bits, the end of an instruction, taking a trap and returning from one. -/

namespace Sys2Proof.Machine
open Sys2Proof

/-! ## The parts of the state -/

def hartOf (s : State) (h : Nat) : Hart := mgetD s.harts h Hart.init
def setHart (s : State) (h : Nat) (x : Hart) : State := { s with harts := mput s.harts h x }
def tileOf (s : State) (t : Nat) : Tile := mgetD s.tiles t Tile.init
def setTile (s : State) (t : Nat) (x : Tile) : State := { s with tiles := mput s.tiles t x }
def partOf (s : State) (p : Nat) : Part := mgetD s.parts p Part.init
def setPart (s : State) (p : Nat) (x : Part) : State := { s with parts := mput s.parts p x }
def stackOf (s : State) (k : Nat) : Stack := mgetD s.stks k Stack.init
def setStack (s : State) (k : Nat) (x : Stack) : State := { s with stks := mput s.stks k x }
def regionOf (s : State) (r : Nat) : Region := mgetD s.regions r { running := 0, halting := false, ends := 0 }
def setRegion (s : State) (r : Nat) (x : Region) : State := { s with regions := mput s.regions r x }

/-- The hart that executes. -/
def curH (s : State) : Hart := hartOf s s.cur
def setCur (s : State) (x : Hart) : State := setHart s s.cur x
/-- The tile of the hart that executes (R170). -/
def curTile (s : State) : Nat := s.cur / 16

/-- Puts a step of a unit at the end of the agenda. -/
def post (s : State) (e : Event) : State := { s with agenda := s.agenda ++ [e] }

/-- An event posted unless it already stands on the agenda. -/
def postOnce (s : State) (e : Event) : State := if s.agenda.contains e then s else post s e

/-- The kind of a command and its mode (R344). -/
def Cmd.k (c : Cmd) : Nat := c.kind / 8
def Cmd.mode (c : Cmd) : Nat := c.kind % 8
def cCOPY : Nat := 0
def cPUT : Nat := 6
def cGET : Nat := 7
def cRAMO : Nat := 8
def cRRED : Nat := 9
def cMCAST : Nat := 10

/-- A fresh id for an access, a command or a join. -/
def newId (s : State) : State := { s with nextId := s.nextId + 1 }

/-- The free value in force; the counter moves on by `drew`. -/
def freeWord (s : State) : Word := Config.freeWord s.free
def freeByte (s : State) : Byte := Config.freeByte s.free
def drew (s : State) : State := { s with free := s.free + 1 }

def send (s : State) (o : Out) : State := { s with out := s.out ++ [o] }

/-! ## Control space (R430) -/

def ctlWord (s : State) (off : Nat) : Word := mgetD s.ctl (off / 8) 0
def setCtl (s : State) (off : Nat) (w : Word) : State := { s with ctl := mset 0 s.ctl (off / 8) w }
def ctlByte (s : State) (off : Nat) : Nat := (ctlWord s off).toNat / 2 ^ (8 * (off % 8)) % 256

/-- Word j of the partition table entry of p (R432). -/
def ptWord (s : State) (p j : Nat) : Word := ctlWord s (0x0C006000 + 64 * p + 8 * j)
def setPt (s : State) (p j : Nat) (w : Word) : State := setCtl s (0x0C006000 + 64 * p + 8 * j) w
/-- STATE of a partition (R432). -/
def ptState (s : State) (p : Nat) : Nat := bits (ptWord s p 0) 2 1
def setPtState (s : State) (p v : Nat) : State := setPt s p 0 (setBits (ptWord s p 0) 2 1 v)

/-- The region of a tile, if it has one (R433). -/
def tileRegion (s : State) (t : Nat) : Option Nat :=
  let w := (ctlWord s (0x0C007000 + 2 * t)).toNat / 2 ^ (16 * (t % 4)) % 2 ^ 16
  if w / 2 ^ 15 == 1 then some (w % 512) else none
def regionMember (s : State) (r p : Nat) : Bool := bitOf (ctlWord s (0x0C008000 + 8 * r)) p
/-- Tile t belongs to the tile set of partition p (R433). -/
def inTileSet (s : State) (p t : Nat) : Bool :=
  match tileRegion s t with
  | some r => regionMember s r p
  | none => false
def tileSet (s : State) (p : Nat) : List Nat := below 512 (inTileSet s p)
/-- The partition that runs on a tile (R172, R208). -/
def tilePart (s : State) (t : Nat) : Option Nat :=
  match tileRegion s t with
  | some r => if (regionOf s r).running == 0 then none else some ((regionOf s r).running - 1)
  | none => none
/-- The number of this package (R431). -/
def ownPkg (s : State) : Nat := bits (ctlWord s 0x0C005000) 8 0
/-- The partition of the hart that executes; a hart that runs is always on a tile of a running partition. -/
def curPart (s : State) : Nat := (tilePart s (curTile s)).getD 0

/-- f applied to the context of partition p on tile t, where it stands: on the tile or in its shadow storage (R426). What f posts for a
context that is out is dropped: its restore posts it anew. -/
def withTile (s : State) (t p : Nat) (f : State → State) : State :=
  if tilePart s t == some p then f s
  else match mfind s.shadow (t * 64 + p) with
    | none => f s
    | some c =>
      let k := f { s with tiles := mput s.tiles t c.tile }
      { k with
        tiles := match mfind s.tiles t with | some x => mput k.tiles t x | none => mdel k.tiles t
        shadow := mput k.shadow (t * 64 + p) { c with tile := tileOf k t }
        agenda := s.agenda }

/-- The harts of a tile issue: its region is not being swapped (R425). -/
def issues (s : State) (t : Nat) : Bool :=
  match tileRegion s t with
  | some r => !(regionOf s r).halting
  | none => true

/-- The grant byte of a 2 MiB region of device memory (R93): stack and byte index by physical address. -/
def homeStack (pk : Nat) : Nat :=
  let a := pk % 2 ^ 52
  if pk / 2 ^ 52 == 0 && a / 2 ^ 41 == 1 then a / 2 ^ 39 % 4 else a / 2 ^ 37 % 4
def regionByte (s : State) (pa : Nat) : Nat :=
  let k := homeStack pa
  if pa < 2 ^ 39 then ctlByte s (0x10000000 + 0x100000 * k + pa % 2 ^ 37 / 2 ^ 21)
  else ctlByte s (0x10010000 + 0x100000 * k + pa % 2 ^ 39 / 2 ^ 21)
/-- The partition a device region is granted to. -/
def regionOwner (s : State) (pa : Nat) : Option Nat :=
  let b := regionByte s pa
  if b / 64 % 2 == 1 then some (b % 64) else none
def hostOk (s : State) (pa : Nat) : Bool := let b := regionByte s pa; b / 128 == 1 && b / 64 % 2 == 1
/-- Device memory: HBM or the capacity tier (R17, R27). -/
def deviceMemory (pa : Nat) : Bool := pa < 2 ^ 39 || (2 ^ 41 ≤ pa && pa < 2 ^ 42)

/-- Counter k of tile t is owned by partition p (R362). -/
def ownsCounter (s : State) (p t k : Nat) : Bool :=
  let b := ctlByte s (0x40000000 + 8 * t + k / 64)
  t < 512 && k < 512 && b / 64 % 2 == 1 && b % 64 == p
/-- Segment seg of a bank is granted to partition p (R54). -/
def ownsSegment (s : State) (p bank seg : Nat) : Bool :=
  let b := ctlByte s (0x08000000 + 16 * bank + seg)
  b / 64 % 2 == 1 && b % 64 == p

/-- A feature's enable bit is in force (R249, R251, R435). -/
def featenWord (s : State) : Word := if bitOf (ctlWord s 0x20) 0 then ctlWord s 0x10 else 0
def featOn (s : State) (n : Nat) : Bool := bitOf (featenWord s) n

/-! ## Black boxes (R441, R442) -/

def boxAdd (s : State) (die kind part addr data : Nat) : State :=
  let n := mgetD s.boxN die 0
  let e : BoxE := { cyc := s.clock, kind, part, addr, data, seq := n / 4096 % 2 == 1 }
  { s with boxes := mput s.boxes die (e :: (mgetD s.boxes die []).take 4095), boxN := mput s.boxN die (n + 1) }
/-- Logs a violation found by a check at a tile, at a home, or at I/O die 0. -/
def logTile (s : State) (t part addr : Nat) : State := boxAdd s (t / 128) 4 part addr 0
def logHome (s : State) (part pk : Nat) : State := boxAdd s (4 + homeStack pk) 4 part (pk % 2 ^ 52) 0
def logIo (s : State) (part addr : Nat) : State := boxAdd s 8 4 part addr 0

/-! ## How an instruction ends -/

/-- Why an instruction does not take effect now. -/
inductive Stop where
  | trap (cause sub : Nat) (addr : Word)
  | wait (w : Wait)
deriving DecidableEq, Repr

/-- What an instruction's body answers: it is done, it is done and control goes elsewhere, or it stops here. -/
inductive Res where
  | ok (s : State)
  | jump (s : State) (target : Word)
  | stop (s : State) (x : Stop)
deriving DecidableEq, Repr

/-- Cause codes (R412). -/
def cILLOP : Nat := 0x01
def cPRIV : Nat := 0x02
def cMISALIGN : Nat := 0x03
def cPAGE : Nat := 0x04
def cPROT : Nat := 0x05
def cEMPTY : Nat := 0x06
def cCONVOY : Nat := 0x07
def cRSVC : Nat := 0x08
def cPOISON : Nat := 0x0A
def cOPERAND : Nat := 0x0B
def cSTREAM : Nat := 0x0C
def cTRAPI : Nat := 0x0D
def cBRK : Nat := 0x0E
def cREMOTE : Nat := 0x10
def cDEPTH : Nat := 0x11

def trapR (s : State) (cause : Nat) (addr : Word) : Res := .stop s (.trap cause 0 addr)
def protR (s : State) (sub : Nat) (addr : Word) : Res := .stop s (.trap cPROT sub addr)
def operandR (s : State) : Res := .stop s (.trap cOPERAND 0 0)
def waitR (s : State) (w : Wait) : Res := .stop s (.wait w)

/-! ## The end of a partition (R50, R108, R362, R415, R418) -/

/-- Stops a hart: HALTED, with nothing of its own under way. -/
def haltHart (h : Hart) : Hart :=
  { h with st := .halted, wait := .none, monitor := none, join := none, shoot := none, stalled := false, req := none, taken := false, barPh := none, conv := none }

/-- The sixteen harts of tile t, stopped (R170, R418). -/
def haltedTile (t : Nat) (m : SMap Hart) : SMap Hart :=
  loop 16 (fun i m => mput m (t * 16 + i) (haltHart (mgetD m (t * 16 + i) Hart.init))) m

/-- Every hart of partition p stops, on its tiles or in a saved context (R418). -/
def haltHarts (s : State) (p : Nat) : State :=
  { s with
    harts := (below 512 fun t => tilePart s t == some p).foldl (fun m t => haltedTile t m) s.harts
    shadow := s.shadow.map fun (k, c) =>
      if k % 64 == p then (k, { c with harts := haltedTile (k / 64) c.harts }) else (k, c) }

/-- The work of partition p on a tile's context goes: own says that the context is p's. -/
def dropTile (p : Nat) (all own : Bool) (t : Tile) : Tile :=
  { t with
    posts := t.posts.filter (·.part != p)
    fired := t.fired.filter (·.part != p)
    cq := t.cq.filter fun c => c.part != p || (c.begun && (!all || c.err.isSome || c.raised))
    se := t.se.map fun (q, e) => if e.part == p && e.bound && all then (q, { e with bound := false, complete := true }) else (q, e)
    fab := t.fab.map fun f => if f.part == p then { f with run := none } else f
    aside := if own then [] else t.aside
    ms := if all && own then [] else t.ms }

/-- Stalled requests find out whether an entry is left for them now (R202). -/
def wakeStalls (s : State) : State :=
  (s.stks.flatMap fun (k, x) => (x.stalls.filter fun q => !q.2.isEmpty).map fun q => Event.poolEntryTaken k q.1).foldl postOnce s

/-- Posts, fired operations and queued commands of partition p are discarded; with `all`, commands in progress too (R362, R418). -/
def dropWork (s : State) (p : Nat) (all : Bool) : State :=
  wakeStalls { s with
    tiles := s.tiles.map fun (i, t) => (i, dropTile p all (tilePart s i == some p) t)
    shadow := s.shadow.map fun (k, c) => if k % 64 == p then (k, { c with tile := dropTile p all true c.tile, pend := [] }) else (k, c)
    stks := s.stks.map fun (k, st) =>
      (k, { st with
        pool := st.pool.filter fun (_, n) => n.part != p
        stalls := st.stalls.map fun (l, hs) => (l, hs.filter fun h => (if h < 2 ^ 20 then tilePart s (if h < 2 ^ 16 then h / 16 else (h - 2 ^ 16) / 8) else some (h / 2 ^ 20 - 1)) != some p) })
    cinches := if all then s.cinches.filter (·.part != p) else s.cinches
    reps := s.reps.filter fun r => r.part != p || (!all && r.unit < 16) }

/-- The counters of partition p are set to 0 (R362). -/
def zeroCounters (s : State) (p : Nat) : State :=
  { s with ctr := s.ctr.filter fun (i, _) => !ownsCounter s p (i / 512) (i % 512) }

/-- Held requests of the pieces of partition p are served once its Cinches end (R117). -/
def endPieces (s : State) (p : Nat) : State :=
  { s with
    pieces := s.pieces.filter (·.part != p)
    agenda := s.agenda ++ ((s.pieces.filter (·.part == p)).flatMap (·.held)).map (·.2.1) }

/-- CB of a line's blocks, as the claims on it make them (R74, R75). -/
def claimBits (jobs : List (Nat × Nat)) : BitVec 4 := jobs.foldl (fun m (b, _) => m ||| BitVec.ofNat 4 (2 ^ b)) 0
/-- The claims of copies that no longer stand in a queue are given up: their blocks become absent (R75). -/
def dropAllClaims (s : State) (p : Nat) : State :=
  let x := partOf s p
  let stands (j : Nat) : Bool := s.tiles.any fun (_, t) => t.cq.any fun c => c.id == j
  let y (z : Line) : Line :=
    let gone := z.jobs.filter fun j => !stands j.2
    if gone.isEmpty then z
    else
      let jobs := z.jobs.filter fun j => stands j.2
      let cb := claimBits jobs
      { z with jobs, cb, lb := z.lb &&& ~~~claimBits gone }
  setPart s p { x with slots := x.slots.map fun (v, l) => (v, { l with lines := l.lines.map fun (k, z) => (k, y z) }) }

/-- A command with nothing in it but whose work it is; others fill it in. -/
def Cmd.blank (id part tile hart : Nat) (sup : Bool) : Cmd :=
  { id, part, tile, hart, sup, src := 0, node := 0, nid := 0, naddr := 0, kind := 0, ga := 0, gb := 0, gc := 0, gd := 0, comp := ⟨0, 0, false, false, 0, 0⟩, esz := 0,
    param := 0, dpkg := 0, tag := none, func := 0, follow := none, snap := 0, begun := false, pos := 0, stall := none, retry := false, err := none,
    answered := false, buf := [], raised := false, due := 0, val := 0, word := 0 }

/-- The mark of work that ends because its partition does (R50). -/
def frameMark : Mark := ⟨0x0F, 0, 0, 0⟩

/-- A command ends with error: its completion actions follow, with bit 63 of the stamp and a fault record. -/
def failCmd (c : Cmd) : Cmd := { c with err := c.err.or (some frameMark), stall := none, begun := true, due := 0 }
/-- Work that is no command of the queue, a stream's or a fabric run's, ends as a command whose record has source src and unit. -/
def failUnit (part tile hart : Nat) (sup : Bool) (src unit : Nat) (gd : Word) (comp : Comp) (s : State) : State × Cmd :=
  (newId s, { Cmd.blank s.nextId part tile hart sup with kind := 15 * 8 + src, param := unit, gd, comp, val := comp.sval.zeroExtend 64, begun := true, err := some frameMark })
/-- The runs of a fabric: the run itself, and the FHALTs that freeze it or wait. -/
def failRun (p t : Nat) (f : Option Fabric) (s : State) : State × List Cmd :=
  match f with
  | some f =>
    match f.run with
    | some u =>
      if f.part != p then (s, [])
      else
        let (s, c) := failUnit p t u.hart u.sup 3 0 u.gd u.comp s
        ((u.freeze.toList ++ f.halts).filter fun z => !z.swap).foldl (fun (s, l) z =>
          let (s, d) := failUnit p t z.hart z.sup 3 0 z.gd z.comp s
          (s, l ++ [d])) (s, [c])
    | none => (s, [])
  | none => (s, [])
/-- The work of partition p in a context of tile t, as commands that end with error: queued and running commands, streams and fabric runs, those of
set-aside points too. Fired operations that no unit accepted end with no stamp and no record (R362). -/
def failedWork (s : State) (p t : Nat) (x : Tile) : State × List Cmd :=
  let cs := (x.cq.filter fun c => c.part == p && !c.raised).map failCmd
  let (s, cs) := (x.se.filter fun (_, e) => e.part == p && e.bound && !e.fabric && !e.complete).foldl (fun (s, l) (q, e) =>
    let (s, c) := failUnit p t e.hart e.sup 1 q e.gd e.comp s
    (s, l ++ [c])) (s, cs)
  (x.fab :: x.aside.map fun (_, a) => a.fab).foldl (fun (s, l) f => let (s, r) := failRun p t f s; (s, l ++ r)) (s, cs)
/-- Those commands stand in the tile's queues and complete there; stamps already due follow. -/
def failTile (p t : Nat) (x : Tile) (s : State) : State :=
  let (s, cs) := failedWork s p t x
  let stamps := (x.cq.filter fun c => c.part == p && c.raised).map fun c => { c with stall := none }
  let y := tileOf s t
  let mine (c : Cmd) : Bool := (cs ++ stamps).any fun d => d.id == c.id
  let s := setTile s t { y with cq := y.cq.filter (fun c => !mine c) ++ stamps ++ cs, fired := y.fired.filter (·.part != p) }
  { s with agenda := s.agenda ++ (stamps ++ cs).map fun c => Event.commandComplete t c.id }
/-- Every engine's work of partition p ends with error, on its tiles and in its saved contexts (R50). -/
def failWork (s : State) (p : Nat) : State :=
  let s := s.tiles.foldl (fun s (t, x) => failTile p t x s) s
  s.shadow.foldl (fun s (k, c) => if k % 64 == p then failTile p (k / 64) c.tile s else s) s

/-- Partition p ends as on FRAME: harts stop, its engines' work ends with error, its service requests lapse, STATE becomes ended and management is
notified (R50). -/
def endPartition (s : State) (p why data : Nat) : State :=
  let s := failWork (haltHarts s p) p
  let s := setPart s p { partOf s p with tsReqs := [], held := [] }
  let s := dropAllClaims (endPieces (zeroCounters (dropWork s p true) p) p) p
  send (setPtState s p 3) (.notice why p data)

/-! ## Traps (R413 to R415) -/

/-- The entry address in tvec (R411). -/
def tvecEntry (w : Word) : Word := canon (bits w 54 2 * 4)

/-- estat after a trap from the given privilege, with the BAR phase if its arrival is performed (R413). -/
def estatOf (sup : Bool) (bar : Option (BitVec 31)) : Word :=
  BitVec.ofNat 64 (sup.toNat + 2 + (match bar with | none => 0 | some p => 4 + p.toNat * 16))

/-- A double trap ends the partition; management receives the code and the hart's epc (R415), which the black box holds as well (R441): the code in the low
byte of DATA, and above it the 55 bits of epc (notes/assumptions/29.md). -/
def doubleTrap (s : State) (cause : Nat) : State :=
  let epc := (curH s).tr.epc.toNat
  let s := boxAdd s (curTile s / 128) 8 (curPart s) epc (cause + epc % 2 ^ 55 * 256)
  endPartition s (curPart s) 8 (cause + (curH s).tr.epc.toNat * 256)

/-- TakeTrap of R413 on the executing hart. -/
def takeTrap (s : State) (cause sub : Nat) (addr resume : Word) : State :=
  let h := curH s
  let tvec := (partOf s (curPart s)).tvec
  if !bitOf tvec 0 || bitOf h.tr.estat 1 then doubleTrap s cause
  else
    setCur s { h with
      tr := ⟨resume, BitVec.ofNat 64 (sub * 256 + cause), addr, estatOf h.sup h.barPh⟩
      sup := true
      pc := tvecEntry tvec
      wait := .none
      barPh := none
      conv := none
      pfault := h.pfault || cause == cPAGE || cause == cPROT
      pfOuter := h.pfault :: h.pfOuter }

/-- RFE of R414, its checks done: pc, privilege and EXL, the BAR phase it resumes with, and the pending fault as the trap found it (R49). -/
def trapReturn (s : State) : State :=
  let h := curH s
  let es := h.tr.estat
  setCur s { h with
    pc := h.tr.epc
    sup := bitOf es 0
    wait := .none
    barPh := if bitOf es 2 then some (BitVec.ofNat 31 (bits es 34 4)) else none
    pfault := h.pfOuter.headD false
    pfOuter := h.pfOuter.drop 1
    tr := { h.tr with estat := setBits (setBits es 1 1 0) 2 2 0 } }

/-- The executing hart goes on at pc. -/
def goTo (s : State) (pc : Word) : State := setCur s { curH s with pc := pc, wait := .none }

/-- Ends an instruction of len bytes at pc: on to the next word, to a target, into a trap, or waiting at the word (R170, R413). -/
def finish (pc : Word) (len : Nat) (r : Res) : Host.Outcome State Fault Refusal :=
  match r with
  | .ok s => .next (goTo s (pc + BitVec.ofNat 64 len))
  | .jump s a => .next (goTo s a)
  | .stop s (.trap c sub a) => .next (takeTrap s c sub a pc)
  | .stop s (.wait w) => .next (setCur s { curH s with wait := w })

/-- Ends an instruction of one word. -/
def finish1 (s : State) (r : Res) : Host.Outcome State Fault Refusal := finish (curH s).pc 4 r
/-- Ends a command of four words (R240). -/
def finish4 (s : State) (r : Res) : Host.Outcome State Fault Refusal := finish (curH s).pc 16 r

/-! ## General registers (R175 to R177, R235, R351, R410, R459) -/

/-- The key a g field names in the hart's mode (R410). -/
def gkey (sup : Bool) (r : BitVec 5) : Nat := if sup && 28 ≤ r.toNat then r.toNat + 4 else r.toNat

/-- The stream engine bound to register r of the executing hart (R351): only the user set is ever bound (R410). -/
def boundTo (s : State) (vfile : Bool) (r : BitVec 5) : Option (Nat × SEng) :=
  if (curH s).sup && !vfile then none
  else (tileOf s (curTile s)).se.find? fun (_, e) =>
    e.bound && !e.fabric && e.hart == s.cur && e.vfile == vfile && e.reg == r.toNat

/-- Counts of a pattern record (R350): 4 used counts, unused ones 1. -/
def patCount (rc : List Word) (d : Nat) : Nat :=
  if d ≤ bits (rc.getD 1 0) 5 4 then bits (rc.getD (2 + d / 2) 0) (32 * (d % 2) + 31) (32 * (d % 2)) else 1
/-- Positions of a pattern record. -/
def patTotal (rc : List Word) : Nat := patCount rc 0 * patCount rc 1 * patCount rc 2 * patCount rc 3
/-- Address of position n of a pattern, dimension 0 innermost (R350). -/
def patAddr (rc : List Word) (n : Nat) : Word :=
  let c0 := patCount rc 0
  let c1 := patCount rc 1
  let c2 := patCount rc 2
  canon (bits (rc.getD 0 0) 54 0) + BitVec.ofNat 64 (n % c0) * rc.getD 4 0 + BitVec.ofNat 64 (n / c0 % c1) * rc.getD 5 0
    + BitVec.ofNat 64 (n / c0 / c1 % c2) * rc.getD 6 0 + BitVec.ofNat 64 (n / c0 / c1 / c2) * rc.getD 7 0
/-- Element bytes of a pattern. -/
def patBytes (rc : List Word) : Nat := 2 ^ bits (rc.getD 1 0) 2 0

/-- How a register stands as a source or a destination. -/
inductive RegSt where
  | ready
  | empty
  | marked (m : Mark)
  | misuse
  | ended
deriving DecidableEq, Repr

/-- A g source (R176, R351, R459). -/
def gSrcSt (s : State) (r : BitVec 5) : RegSt :=
  if r == 0 then .ready
  else match boundTo s false r with
    | some (_, e) =>
      if e.write then .misuse
      else if e.err.isSome || patTotal e.recd ≤ e.used then .ended
      else if e.data.isEmpty then .empty
      else .ready
    | none =>
      if (curH s).gEmpty.contains (gkey (curH s).sup r) then .empty
      else match mfind (curH s).gFault (gkey (curH s).sup r) with
        | some m => .marked m
        | none => .ready

/-- A g destination (R176, R351). The push buffer holds 4 KiB: 512 pushed positions (R351). -/
def gDstSt (s : State) (r : BitVec 5) : RegSt :=
  if r == 0 then .ready
  else match boundTo s false r with
    | some (_, e) =>
      if !e.write then .misuse
      else if e.err.isSome || patTotal e.recd ≤ e.used then .ended
      else if 512 ≤ e.data.length || (curH s).gEmpty.contains (gkey (curH s).sup r) then .empty
      else .ready
    | none => if (curH s).gEmpty.contains (gkey (curH s).sup r) then .empty else .ready

/-- eaddr of EMPTY and STREAM for a g register (R177). -/
def gName (r : BitVec 5) : Word := BitVec.ofNat 64 r.toNat

/-- Row 7 of R247: the first empty source in encoding order, with its trap bit. -/
def srcStop (s : State) (l : List (BitVec 5 × Bool)) : Option Stop :=
  match l with
  | [] => none
  | (r, t) :: rest =>
    match gSrcSt s r with
    | .empty => some (if t then .trap cEMPTY 0 (gName r) else .wait .reg)
    | _ => srcStop s rest

def Mark.stop (m : Mark) : Stop := .trap m.cause m.sub m.addr

/-- Row 8 of R247 for stream-bound sources (R351). -/
def srcMisuse (s : State) (l : List (BitVec 5 × Bool)) : Option Stop :=
  if l.any fun (r, _) => gSrcSt s r == .misuse then some (.trap cOPERAND 0 0) else none
/-- What the first source in encoding order traps with at execution, once every row of R247 has passed: a stream without positions (R351), or the cause of a
faulted register (R459). -/
def srcLate (s : State) (l : List (BitVec 5 × Bool)) : Option Stop :=
  match l with
  | [] => none
  | (r, _) :: rest =>
    match gSrcSt s r with
    | .ended => some (.trap cSTREAM 0 (gName r))
    | .marked m => some m.stop
    | _ => srcLate s rest

/-- An empty destination waits, whatever the trap bits (R176). -/
def dstStop (s : State) (d : Option (BitVec 5)) : Option Stop :=
  match d with
  | none => none
  | some r =>
    match gDstSt s r with
    | .empty => some (.wait .reg)
    | _ => none

/-- A bound destination that takes no write (R351). -/
def dstMisuse (s : State) (d : Option (BitVec 5)) : Option Stop :=
  match d with
  | none => none
  | some r => if gDstSt s r == .misuse then some (.trap cOPERAND 0 0) else none
/-- A bound destination without positions (R351). -/
def dstLate (s : State) (d : Option (BitVec 5)) : Option Stop :=
  match d with
  | none => none
  | some r => if gDstSt s r == .ended then some (.trap cSTREAM 0 (gName r)) else none

/-- The g operands of an instruction: what keeps it from issuing, if anything does (rows 7 and 8 of R247). -/
def rowStop (s : State) (srcs : List (BitVec 5 × Bool)) (dst : Option (BitVec 5)) : Option Stop :=
  (srcStop s srcs).or ((dstStop s dst).or ((srcMisuse s srcs).or (dstMisuse s dst)))
/-- What they trap with once it has issued. -/
def lateStop (s : State) (srcs : List (BitVec 5 × Bool)) (dst : Option (BitVec 5)) : Option Stop := (srcLate s srcs).or (dstLate s dst)
/-- What stops an instruction by its g operands alone. -/
def regStop (s : State) (srcs : List (BitVec 5 × Bool)) (dst : Option (BitVec 5)) : Option Stop := (rowStop s srcs dst).or (lateStop s srcs dst)

/-- The value of g source r (R235): g0 reads zero, a bound register reads its stream's next position. -/
def gVal (s : State) (r : BitVec 5) : Word :=
  if r == 0 then 0
  else match boundTo s false r with
    | some (_, e) => e.data.headD 0
    | none => mgetD (curH s).g (gkey (curH s).sup r) 0

def setEng (s : State) (t q : Nat) (e : SEng) : State := setTile s t { tileOf s t with se := mput (tileOf s t).se q e }

/-- A read stream gives up one position, however often the instruction names the register (R351). -/
def popOne (s : State) (r : BitVec 5) : State :=
  match boundTo s false r with
  | some (q, e) => setEng s (curTile s) q { e with used := e.used + 1, data := e.data.drop 1 }
  | none => s

/-- The stream positions the sources use up. -/
def popSrcs (s : State) (l : List (BitVec 5 × Bool)) : State := ((l.map (·.1)).eraseDups).foldl popOne s

/-- Writes a g register (R235): g0 discards; a bound register pushes; a fault mark is cleared (R459). -/
def setG (s : State) (r : BitVec 5) (v : Word) : State :=
  if r == 0 then s
  else match boundTo s false r with
    | some (q, e) => setEng s (curTile s) q { e with used := e.used + 1, data := e.data ++ [v], mask := e.mask ++ [true] }
    | none =>
      let h := curH s
      setCur s { h with g := mset 0 h.g (gkey h.sup r) v, gFault := mdel h.gFault (gkey h.sup r) }

/-- Marks a g register empty at issue (R175); g0 is always full. -/
def emptyG (s : State) (r : BitVec 5) : State :=
  if r == 0 then s
  else
    let h := curH s
    setCur s { h with gEmpty := gkey h.sup r :: h.gEmpty, gFault := mdel h.gFault (gkey h.sup r) }

/-- The instruction is refused for its operand values (row 8 of R247). -/
def Res.operand (r : Res) : Bool :=
  match r with
  | .stop _ (.trap c _ _) => c == cOPERAND
  | _ => false
/-- An instruction with g sources and destination: kept from issuing by them, or run on the state after its streams are popped. What they trap with at
execution comes after the operand checks of row 8 (R247). -/
def withRegs (s : State) (srcs : List (BitVec 5 × Bool)) (dst : Option (BitVec 5)) (k : State → Res) : Res :=
  match rowStop s srcs dst with
  | some x => .stop s x
  | none =>
    let r := k (popSrcs s srcs)
    match lateStop s srcs dst with
    | some x => if r.operand then r else .stop s x
    | none => r

end Sys2Proof.Machine
end

