-- ==== Sys2Proof/Machine/Operands.lean ====
section
/-! DEFINITION. Operand forms and integer functions of the scalar instructions (R258 to R263, R276): immediates, 32-bit forms, shifts,
counts, hashing, and the functions of atomics. -/

namespace Sys2Proof.Machine
open Sys2Proof

/-- The low 32 bits, sign-extended (W32 of R258). -/
def w32 (x : Word) : Word := (x.truncate 32).signExtend 64
def low32 (x : Word) : BitVec 32 := x.truncate 32
/-- A truth value in a g register. -/
def wordOf (b : Bool) : Word := if b then 1 else 0

/-- The result of an operation in its 64-bit or its W form. -/
def wForm (w : Bool) (full : Word) (half : BitVec 32) : Word := if w then half.signExtend 64 else full

def divS (a b : Word) : Word := if b == 0 then BitVec.allOnes 64 else a.sdiv b
def divU (a b : Word) : Word := if b == 0 then BitVec.allOnes 64 else a / b
def remS (a b : Word) : Word := if b == 0 then a else a.srem b
def remU (a b : Word) : Word := if b == 0 then a else a % b
/-- Bits [127:64] of the signed and the unsigned product. -/
def mulHS (a b : Word) : Word := BitVec.ofInt 64 (a.toInt * b.toInt / 2 ^ 64)
def mulHU (a b : Word) : Word := BitVec.ofNat 64 (a.toNat * b.toNat / 2 ^ 64)

/-- Shift kinds: 0 SLL, 1 SRL, 2 SRA, 3 ROL, 4 ROR, by the low six bits, or the low five in the W form (R258). -/
def shiftOp (k : Nat) (w : Bool) (a : Word) (n : Nat) : Word :=
  let m := n % 64
  let l := n % 32
  let x := low32 a
  match k with
  | 0 => wForm w (a <<< m) (x <<< l)
  | 1 => wForm w (a >>> m) (x >>> l)
  | 2 => wForm w (a.sshiftRight m) (x.sshiftRight l)
  | 3 => wForm w (a.rotateLeft m) (x.rotateLeft l)
  | _ => wForm w (a.rotateRight m) (x.rotateRight l)

/-- Leading zeros of the low n bits. -/
def clzN (n v : Nat) : Nat := if v == 0 then n else n - 1 - v.log2
/-- Trailing zeros of the low n bits. -/
def ctzN (n v : Nat) : Nat :=
  match n with
  | 0 => 0
  | k + 1 => if v % 2 == 1 then 0 else 1 + ctzN k (v / 2)
/-- One bits of the low n bits. -/
def popN (n v : Nat) : Nat :=
  match n with
  | 0 => 0
  | k + 1 => v % 2 + popN k (v / 2)
def bswap64 (a : Word) : Word := BitVec.ofNat 64 (leNat (leBytes 8 a.toNat).reverse)
/-- The byte, half or word a sub-code selects (R258): how many bits. -/
def subBits (s : BitVec 5) : Nat := 8 * 2 ^ s.toNat

/-- Hmix (R259). -/
def hmix64 (a b : Word) : Word :=
  let x := a ^^^ b.rotateLeft 23
  let x := x ^^^ (x >>> 32)
  let x := x * 0x9F3B5A4D71C2E8A7
  let x := x ^^^ (x >>> 29)
  let x := x * 0xE5B13D692A8F47C3
  x ^^^ (x >>> 32)

/-- The CRC-32C step over n low bits of b (R260). -/
def crcBits (n c b : Nat) : Nat :=
  match n with
  | 0 => c
  | k + 1 => crcBits k (if c % 2 != b % 2 then (c / 2) ^^^ 0x82F63B78 else c / 2) (b / 2)
def crc32c (a b : Word) : Word := BitVec.ofNat 64 (crcBits 64 (a.toNat % 2 ^ 32) b.toNat)

/-- Signed and unsigned minima and maxima on n bits. -/
def minS (n a b : Nat) : Nat := if toSigned n a ≤ toSigned n b then a else b
def maxS (n a b : Nat) : Nat := if toSigned n a ≤ toSigned n b then b else a

/-- The atomic functions of R276: 0 SWAP, 1 CAS (with its compare value), 2 ADD, 3 AND, 4 OR, 5 XOR, 6 MIN, 7 MAX, 8 MINU, 9 MAXU, 10 FADD, on
8 or 4 bytes; none where CAS fails. FADD rounds to nearest even, with the default NaN, and sets no flag. -/
def amoNew (f : Nat) (dword : Bool) (old b cmp : Nat) : Option Nat :=
  let n := if dword then 64 else 32
  let ff := if dword then fp64 else fp32
  match f with
  | 0 => some b
  | 1 => if old == cmp then some b else none
  | 2 => some ((old + b) % 2 ^ n)
  | 3 => some (old &&& b)
  | 4 => some (old ||| b)
  | 5 => some (old ^^^ b)
  | 6 => some (minS n old b)
  | 7 => some (maxS n old b)
  | 8 => some (min old b)
  | 9 => some (max old b)
  | _ => some (ff.put 0 false (fpAdd 0 (ff.read old) (ff.read b)).1).1

/-- An atomic as a function on bytes. -/
def amoBytes (f : Nat) (dword : Bool) (b cmp : Word) (old : List Byte) : Option (List Byte) :=
  let n := if dword then 8 else 4
  (amoNew f dword (leNat old) (b.toNat % 2 ^ (8 * n)) (cmp.toNat % 2 ^ (8 * n))).map (leBytes n)

/-- The old value as an AMO writes it to rd (R276). -/
def amoResult (f : Nat) (dword : Bool) (old : Nat) : Word :=
  if dword || f == 10 then BitVec.ofNat 64 old else sext 32 old

end Sys2Proof.Machine
end

