-- ==== Sys2Proof/Machine/Flags.lean ====
section
/-! DEFINITION. The status words of floating point (R217 to R220): rounding mode, flushing, sticky flags, and what a write keeps. -/

namespace Sys2Proof.Machine
open Sys2Proof

/-- FRM, FTZI and FTZO of fcsr or vcsr (R217). -/
def frmOf (w : Word) : Nat := bits w 2 0
def ftziOf (w : Word) : Bool := bitOf w 3
def ftzoOf (w : Word) : Bool := bitOf w 4

/-- The rounding mode an instruction's field gives: 7 is the dynamic one (R218). -/
def modeOf (w : Word) (m : BitVec 3) : Nat := if m == 7 then frmOf w else m.toNat

/-- Sets sticky flags, given in the order of bits [12:8] (R217). -/
def orFlags (w : Word) (fl : Nat) : Word := w ||| BitVec.ofNat 64 (fl % 32 * 256)
/-- vcsr.SAT and vcsr.NANSC (R217). -/
def orSat (w : Word) (b : Bool) : Word := if b then w ||| 0x2000 else w
def orNansc (w : Word) (b : Bool) : Word := if b then w ||| 0x4000 else w
/-- The sticky bits of a vcsr: the flags, SAT and NANSC (R234). -/
def stickyOf (w : Word) : Word := w &&& 0x7F00

/-- A write of fcsr or vcsr: reserved bits are discarded and FRM keeps its value against 5, 6 and 7 (R217, R270). -/
def writeStatus (vec : Bool) (old new : Word) : Word :=
  let w := new &&& (if vec then 0x7F1F else 0x1F1F)
  if 5 ≤ frmOf new then setBits w 2 0 (frmOf old) else w

/-- The executing hart's fcsr takes flags (R257). -/
def addFlags (s : State) (fl : Nat) : State :=
  if fl == 0 then s else setCur s { curH s with fcsr := orFlags (curH s).fcsr fl }

/-- The executing thread's vcsr takes flags. -/
def addVFlags (s : State) (fl : Nat) : State :=
  if fl == 0 then s else setCur s { curH s with v := { (curH s).v with vcsr := orFlags (curH s).v.vcsr fl } }

end Sys2Proof.Machine
end

