-- ==== Sys2Proof/Machine/Translate.lean ====
section
/-! DEFINITION. Physical bytes as the X1 itself reads and writes them, and translation (R14 to R37): page walks with their A and D
updates, the translation caches, and what an access may do to the page it names. -/

namespace Sys2Proof.Machine
open Sys2Proof

/-! ## Circuits -/

/-- Circuits are numbered class * 1024 + destination: dies 0 to 9, or 16 + package (R166). Traffic on one puts it in the tile's used-sets (R167). -/
def useCircuit (s : State) (t c : Nat) : State :=
  let x := tileOf s t
  let x := if c % 1024 < 16 && !x.usedD.contains c then { x with usedD := c :: x.usedD } else x
  setTile s t (if x.usedP.contains c then x else { x with usedP := c :: x.usedP })

/-! ## Home memory and the X1's own accesses -/

/-- A byte of home memory (R16); an unlisted byte reads 0 (notes/assumptions/1.md). -/
def homeByte (s : State) (pk : Nat) : Byte :=
  if pk < 2 ^ 52 then mgetD s.mem pk 0 else mgetD s.hostMem (pk - 2 ^ 52) 0
def setHomeByte (s : State) (pk : Nat) (b : Byte) : State :=
  if pk < 2 ^ 52 then { s with mem := mset 0 s.mem pk b } else { s with hostMem := mset 0 s.hostMem (pk - 2 ^ 52) b }

/-- Key of an agent's copy of a granule. -/
def ckey (agent gk : Nat) : Nat := agent * 2 ^ 46 + gk
/-- A copy in a state that holds the granule (R102). -/
def CopySt.holds (c : CopySt) : Bool := c == .s || c == .e || c == .m || c == .sm
def granByte (d : BitVec 1024) (i : Nat) : Byte := BitVec.ofNat 8 (d.toNat / 2 ^ (8 * i))
def setGranByte (d : BitVec 1024) (i : Nat) (b : Byte) : BitVec 1024 :=
  BitVec.ofNat 1024 (d.toNat - (granByte d i).toNat * 2 ^ (8 * i) + b.toNat * 2 ^ (8 * i))
def maskBit (m : BitVec 128) (i : Nat) : Bool := m.toNat / 2 ^ i % 2 == 1
def setMaskBit (m : BitVec 128) (i : Nat) : BitVec 128 := if maskBit m i then m else BitVec.ofNat 128 (m.toNat + 2 ^ i)

/-- Copies of granule gk, with their agents. -/
def copiesOf (s : State) (gk : Nat) : List (Nat × Copy) :=
  (s.copies.filter fun (k, _) => k % 2 ^ 46 == gk).map fun (k, c) => (k / 2 ^ 46, c)
/-- A write-back of granule gk on its way home, with the byte dirty. -/
def onItsWay (gk i : Nat) (e : Event) : Option Byte :=
  match e with
  | .putm _ g d => if g == gk && maskBit d.mask i then some (granByte d.data i) else none
  | .rdat _ g (some d) => if g == gk && maskBit d.mask i then some (granByte d.data i) else none
  | _ => none
/-- The current value of a byte: in a modified copy, in a write-back on its way, or at home. -/
def peek (s : State) (pk : Nat) : Byte :=
  let gk := pk / 128
  let i := pk % 128
  match (copiesOf s gk).find? fun (_, c) => c.st == .m && maskBit c.mask i with
  | some (_, c) => granByte c.data i
  | none => (s.agenda.findSome? (onItsWay gk i)).getD (homeByte s pk)

/-- The byte as a message on its way carries it. -/
def pokeMsg (gk i : Nat) (b : Byte) (e : Event) : Event :=
  match e with
  | .data a g st n d => if g == gk then .data a g st n { d with data := setGranByte d.data i b } else e
  | .putm a g d => if g == gk then .putm a g { d with data := setGranByte d.data i b } else e
  | .rdat a g (some d) => if g == gk then .rdat a g (some { d with data := setGranByte d.data i b }) else e
  | .h2dResponse g d => if g == gk then .h2dResponse g { d with data := setGranByte d.data i b } else e
  | _ => e
/-- A write by the X1 itself (walker, translation service queue, fault stream; R460): wherever the byte stands, at once. -/
def poke (s : State) (pk : Nat) (b : Byte) : State :=
  let gk := pk / 128
  let i := pk % 128
  let s := setHomeByte s pk b
  { s with
    copies := s.copies.map fun (k, c) => if k % 2 ^ 46 == gk then (k, { c with data := setGranByte c.data i b }) else (k, c)
    agenda := s.agenda.map (pokeMsg gk i b)
    waitq := s.waitq.map fun (k, es) => (k, es.map fun (e, n) => (pokeMsg gk i b e, n)) }
def peek64 (s : State) (pk : Nat) : Word := BitVec.ofNat 64 (leNat ((List.range 8).map fun i => peek s (pk + i)))

/-- The hart's monitor watches the granule. -/
def watches (h : Hart) (gran : Nat) : Bool :=
  match h.monitor with
  | some m => m.gran == gran
  | none => false
/-- The monitors of a granule are notified of a write to it (R279). -/
def notifyGran (s : State) (gran : Nat) : State :=
  { s with agenda := s.agenda ++ (s.harts.filter fun (_, h) => watches h gran).map fun (i, _) => Event.monitorNotify i }

def pokeBytes (s : State) (pk : Nat) (bs : List Byte) : State :=
  match bs with
  | [] => s
  | b :: r => pokeBytes (poke s pk b) (pk + 1) r
/-- The X1 writes bytes within one granule. -/
def pokes (s : State) (pk : Nat) (bs : List Byte) : State := notifyGran (pokeBytes s pk bs) (pk / 128)
/-- The X1 writes for partition p (walks, the translation service queue, the fault stream). A write into a region that is not granted to p is
discarded and logged, so that a root, a table or a queue that p's supervisor sets wrongly changes nothing of another partition (R12; notes/assumptions/38.md). -/
def pokesFor (s : State) (p pk : Nat) (bs : List Byte) : State :=
  if regionOwner s pk == some p then pokes s pk bs else logHome s p pk

/-! ## Page tables (R23 to R28) -/

/-- The answer of a translation. -/
inductive TrRes where
  | ok (s : State) (x : Xlat)
  | fault (s : State) (cause sub : Nat)
deriving DecidableEq, Repr

def needsWrite (k : AccKind) : Bool := k == .write || k == .amo

/-- Permitted of R28, from the R, W, X, S bits (0 to 3). -/
def permitted (perm : BitVec 4) (k : AccKind) (sup : Bool) : Bool :=
  let p := perm.toNat
  let r := p % 2 == 1
  let w := p / 2 % 2 == 1
  let x := p / 4 % 2 == 1
  let sb := p / 8 == 1
  (sup || !sb) && match k with
    | .read => r
    | .write => r && w
    | .amo => r && w
    | .fetch => x && (!sup || sb)

/-- Control space and counter space (R17). -/
def ioRange (pa : Nat) : Bool :=
  (0x40000000000 ≤ pa && pa < 0x40100000000) || (0x40100000000 ≤ pa && pa < 0x40102000000)

/-- A device frame in a reserved range (R17). -/
def frameReserved (pa : Nat) (hostm : Bool) : Bool := !hostm && !deviceMemory pa && !ioRange pa
/-- The IO bit R17 requires of a device frame, R19 of a host one; an instruction fetch takes no IO page (R32). -/
def frameOk (pa : Nat) (hostm io : Bool) (k : AccKind) : Bool :=
  (hostm || (if deviceMemory pa then !io else io)) && !(io && k == .fetch)

/-- The leaf checks of R24 beyond the reserved bits; level 1 never holds a leaf. W without R is malformed (R23). -/
def leafOk (e : Word) (lvl : Nat) (va : Word) : Bool :=
  !(bitOf e 2 && !bitOf e 1) && match lvl with
    | 2 => bits e 30 18 == 0 && !bitOf e 7
    | 3 => !bitOf e 7 || bits e 22 18 == bits va 20 16
    | _ => false

/-- Bytes of the page a leaf maps (R24). -/
def leafBytes (e : Word) (lvl : Nat) : Nat := if lvl == 2 then 2 ^ 29 else if bitOf e 7 then 2 ^ 21 else 2 ^ 16

/-- The translation a leaf gives (R25, R27). -/
def leafXlat (asid : Nat) (e : Word) (lvl : Nat) (va : Word) (dirty : Bool) : Xlat :=
  let n := leafBytes e lvl
  let frame := bits e 53 18 * 2 ^ 16
  { asid, vbase := va.toNat / n * n, size := n, pbase := (if bitOf e 16 then 2 ^ 52 else 0) + frame / n * n, vcid := bits e 15 10,
    io := bitOf e 17, pin := bitOf e 8, perm := BitVec.ofNat 4 (bits e 4 1), dirty }

/-- The range check of R27 for the byte a translation gives: in no reserved range, and under the IO bit its range requires (R17, R32). It is made at
every access, for a large page may span ranges. The PROT detail, if it fails. -/
def rangeFault (pk : Nat) (io : Bool) (k : AccKind) : Option Nat :=
  if frameReserved (pk % 2 ^ 52) (decide (2 ^ 52 ≤ pk)) then some 1
  else if !frameOk (pk % 2 ^ 52) (decide (2 ^ 52 ≤ pk)) io k then some 3
  else none
def Xlat.pk (x : Xlat) (va : Word) : Nat := x.pbase + (va.toNat - x.vbase)

/-- The walk cache names the table of level lvl for an address by that level and the address bits above the table's index (R33). -/
def walkKey (lvl : Nat) (va : Word) : Nat := lvl * 2 ^ 56 + va.toNat % 2 ^ 55 / 2 ^ (68 - 13 * lvl)
/-- The table a walk begins at, with its level: the deepest one the stack's walk cache names, else the root (R33, R36). -/
def walkStart (s : State) (st asid : Nat) (va : Word) (root : Nat) : Nat × Nat :=
  let hit (lvl : Nat) : Option (Nat × Nat) := ((stackOf s st).walk.find? fun w => w.1 == asid && w.2.1 == walkKey lvl va).map fun w => (w.2.2, lvl)
  ((hit 3).or (hit 2)).getD (root, 1)
/-- The pointers a finished walk followed enter the walk cache of 256 pointer entries; the oldest leave a full one (R33). -/
def walkFill (s : State) (st : Nat) (ps : List (Nat × Nat × Nat)) : State :=
  let x := stackOf s st
  setStack s st { x with walk := (ps ++ x.walk.filter fun w => !ps.any fun q => q.1 == w.1 && q.2.1 == w.2.1).take 256 }

/-- The walk of R27 from a table at t, level by level (fuel: levels left), by the walker of stack st for partition p; A and D are set in the walked
leaf (R26). ps: the pointers followed, cached when the walk ends without a fault (R29, R33). -/
def walkFrom (s : State) (st p : Nat) (va : Word) (k : AccKind) (sup : Bool) (t lvl : Nat) (ps : List (Nat × Nat × Nat)) (fuel : Nat) : TrRes :=
  match fuel with
  | 0 => .fault s cPROT 1
  | f + 1 =>
    let asid := bits (partOf s p).ptbr 61 52
    let at' := t + va.toNat / 2 ^ (55 - 13 * lvl) % 2 ^ 13 * 8
    let e := peek64 s at'
    if !bitOf e 0 then .fault s cPAGE 0
    else if bitOf e 9 || bits e 63 54 != 0 then .fault s cPROT 1
    else if bits e 3 1 == 0 then
      if lvl == 3 || bits e 17 4 != 0 || !deviceMemory (bits e 53 18 * 2 ^ 16) then .fault s cPROT 1
      else walkFrom s st p va k sup (bits e 53 18 * 2 ^ 16) (lvl + 1) ((asid, walkKey (lvl + 1) va, bits e 53 18 * 2 ^ 16) :: ps) f
    else if !leafOk e lvl va then .fault s cPROT 1
    else if !permitted (BitVec.ofNat 4 (bits e 4 1)) k sup then .fault s cPROT 0
    else
      let x := leafXlat asid e lvl va (needsWrite k || bitOf e 6)
      match rangeFault (x.pk va) x.io k with
      | some sb => .fault s cPROT sb
      | none =>
        let e' := setBits (if needsWrite k then setBits e 6 6 1 else e) 5 5 1
        .ok (walkFill (if e' == e then s else pokesFor s p at' (leBytes 8 e'.toNat)) st ps) x

/-- ASID and root of a partition's tables (R21). -/
def asidOf (s : State) (p : Nat) : Nat := bits (partOf s p).ptbr 61 52
def rootOf (s : State) (p : Nat) : Nat := bits (partOf s p).ptbr 51 16 * 2 ^ 16

/-- The translation procedure of R27, by the walker of stack st. -/
def walk (s : State) (st p : Nat) (va : Word) (k : AccKind) (sup : Bool) : TrRes :=
  let b := walkStart s st (asidOf s p) va (rootOf s p)
  if !canonical va then .fault s cPROT 2
  else if !deviceMemory b.1 then .fault s cPROT 1
  else walkFrom s st p va k sup b.1 b.2 [] (4 - b.2)

/-! ## Translation caches (R33 to R36) -/

def Xlat.covers (x : Xlat) (asid : Nat) (va : Word) : Bool :=
  x.asid == asid && x.vbase ≤ va.toNat && va.toNat < x.vbase + x.size

/-- An entry put into a cache of n places; the oldest leaves a full one (replacement changes timing only, R36). -/
def cacheAdd (n : Nat) (x : Xlat) (l : List Xlat) : List Xlat :=
  (x :: l.filter fun y => !(y.asid == x.asid && y.vbase == x.vbase && y.size == x.size)).take n

/-- The gather TLB of a tile: banks 0 to 3 (R34). -/
def gtlbBank (va : Word) : Nat := va.toNat / 2 ^ 16 % 4
def gtlbFind (t : Tile) (asid : Nat) (va : Word) : Option Xlat :=
  (t.gtlb.find? fun (b, x) => b == gtlbBank va && x.covers asid va).map (·.2)
def gtlbPut (t : Tile) (b : Nat) (x : Xlat) : Tile :=
  { t with gtlb := (cacheAdd 64 x ((t.gtlb.filter (·.1 == b)).map (·.2))).map (b, ·) ++ t.gtlb.filter (·.1 != b) }
def gtlbAdd (t : Tile) (va : Word) (x : Xlat) : Tile :=
  if x.size == 2 ^ 16 then gtlbPut t (gtlbBank va) x else gtlbPut (gtlbPut (gtlbPut (gtlbPut t 0 x) 1 x) 2 x) 3 x

/-- A cached translation serves the access as it stands: permission granted, and D cached for a write (R26, R29). -/
def serves (x : Xlat) (k : AccKind) (sup : Bool) : Bool := permitted x.perm k sup && (x.dirty || !needsWrite k)
/-- The use of a cached translation: the range check is made for the byte named (R17, R27). -/
def useXlat (s : State) (x : Xlat) (va : Word) (k : AccKind) : TrRes :=
  match rangeFault (x.pk va) x.io k with
  | some sb => .fault s cPROT sb
  | none => .ok s x

/-- The set of the last-level cache a translation lies in, by its page number: 512 sets of 16 ways (R33; notes/assumptions/38.md). -/
def llcSet (x : Xlat) : Nat := x.vbase / x.size % 512
/-- The way a full set gives up: the oldest entry with PIN = 0, or the oldest of all where every one is pinned (R36). -/
def llcVictim (l : List Xlat) : Option Xlat := (l.reverse.find? fun y => !y.pin).or l.getLast?
/-- A translation is installed in the last-level cache (R36). -/
def llcAdd (x : Xlat) (l : List Xlat) : List Xlat :=
  let l := l.filter fun y => !(y.asid == x.asid && y.vbase == x.vbase && y.size == x.size)
  let mates := l.filter fun y => llcSet y == llcSet x
  if mates.length < 16 then x :: l
  else match llcVictim mates with
    | some v => x :: l.filter fun y => !(y.asid == v.asid && y.vbase == v.vbase && y.size == v.size)
    | none => x :: l

/-- The walker of stack st walks, and the answer is installed in the stack's last-level cache (R36). -/
def llcWalk (s : State) (st p : Nat) (va : Word) (k : AccKind) (sup : Bool) : TrRes :=
  match walk s st p va k sup with
  | .ok s x => .ok (setStack s st { stackOf s st with llc := llcAdd x (stackOf s st).llc }) x
  | r => r
/-- The last-level cache of stack st answers, or its walker walks (R36). -/
def llcXlate (s : State) (st p : Nat) (va : Word) (k : AccKind) (sup : Bool) : TrRes :=
  match (stackOf s st).llc.find? fun x => x.covers (asidOf s p) va && serves x k sup with
  | some x => useXlat s x va k
  | none => llcWalk s st p va k sup

/-- The answer of the stack is installed in the tile's gather TLB. -/
def gtlbTake (t : Nat) (va : Word) (r : TrRes) : TrRes :=
  match r with
  | .ok s x => .ok (setTile s t (gtlbAdd (tileOf s t) va x)) x
  | r => r
/-- Translation of a data access through the tile's gather TLB (R27, R29, R33, R36): a cached translation that does not serve is walked again. -/
def xlate (s : State) (t p : Nat) (va : Word) (k : AccKind) (sup : Bool) : TrRes :=
  if !canonical va then .fault s cPROT 2
  else match gtlbFind (tileOf s t) (asidOf s p) va with
    | some x => if serves x k sup then useXlat s x va k else gtlbTake t va (llcWalk s (t / 128) p va k sup)
    | none => gtlbTake t va (llcXlate s (t / 128) p va k sup)

/-- Translation of an instruction fetch through the tile's instruction TLB, and on a miss the last-level cache (R33, R36). -/
def xlateFetch (s : State) (t p : Nat) (va : Word) (sup : Bool) : TrRes :=
  let take (r : TrRes) : TrRes :=
    match r with
    | .ok s x => .ok (setTile s t { tileOf s t with itlb := cacheAdd 16 x (tileOf s t).itlb }) x
    | r => r
  if !canonical va then .fault s cPROT 2
  else match (tileOf s t).itlb.find? fun x => x.covers (asidOf s p) va with
    | some x => if serves x .fetch sup then useXlat s x va .fetch else take (llcWalk s (t / 128) p va .fetch sup)
    | none => take (llcXlate s (t / 128) p va .fetch sup)

/-! ## What a page allows -/

def slotOf (s : State) (p v : Nat) : Slot := mgetD (partOf s p).slots v Slot.init
def setSlot (s : State) (p v : Nat) (x : Slot) : State := setPart s p { partOf s p with slots := mput (partOf s p).slots v x }

/-- Fields of a cache definition record (R57). -/
def recKind (r : List Word) : Nat := bits (r.getD 0 0) 1 0
def recLine (r : List Word) : Nat := 64 * 2 ^ bits (r.getD 0 0) 3 2
def recWays (r : List Word) : Nat := bits (r.getD 0 0) 7 4 + 1
def recPolicy (r : List Word) : Nat := bits (r.getD 0 0) 10 8
def recNsh (r : List Word) : Nat := bits (r.getD 0 0) 14 11
def recIl (r : List Word) : Bool := bitOf (r.getD 0 0) 15
def recWbase (r : List Word) : Word := canon (bits (r.getD 1 0) 54 0)
/-- Share descriptor j as a word (R58). -/
def recShare (r : List Word) (j : Nat) : Nat := bits (r.getD (4 + j / 2) 0) (32 * (j % 2) + 31) (32 * (j % 2))
def shBank (d : Nat) : Nat := d % 2048
def shFirst (d : Nat) : Nat := d / 2048 % 16
def shSegs (d : Nat) : Nat := d / 2 ^ 15 % 16 + 1
def shLg (d : Nat) : Nat := d / 2 ^ 19 % 4
def recShares (r : List Word) : List Nat := (List.range (recNsh r)).map (recShare r)
def recBytes (r : List Word) : Nat := ((recShares r).map fun d => shSegs d * 65536).sum

/-- The record a slot's pages obey: the one in force. -/
def slotRec (x : Slot) : List Word := if x.st == .migrating then x.newRecd else x.recd

/-- Read-only slots refuse writes (R66, R274); a page of a STASH must lie in its window (R72). PROT detail, if refused. -/
def slotRefuses (s : State) (p vcid : Nat) (va : Word) (k : AccKind) : Option Nat :=
  let x := slotOf s p vcid
  if x.st == .empty then none
  else if recKind (slotRec x) == 1 && !decide ((va - recWbase (slotRec x)).toNat < recBytes (slotRec x)) then some 6
  else if recPolicy (slotRec x) == 3 && needsWrite k then some 5
  else none

/-- Which IO accesses an access may make (R31, R32): none, scalar access to any IO space, or counter space alone. -/
inductive IoRule where
  | none
  | scalar
  | counter
deriving DecidableEq, Repr

def isCounterSpace (pk : Nat) : Bool := 0x40100000000 ≤ pk && pk < 0x40102000000
/-- The tile and index of a counter's address (R31). -/
def counterOf (pk : Nat) : Nat × Nat := ((pk - 0x40100000000) / 65536, (pk - 0x40100000000) % 65536 / 8)

/-- The IO rules of R31 and R32 for n bytes at pk: the PROT detail 3 where the access is not one they allow. -/
def ioRefuses (rule : IoRule) (pk n : Nat) : Bool :=
  if isCounterSpace pk then rule == .none || n != 8 || pk % 8 != 0 || 4096 ≤ pk % 65536
  else rule != .scalar || !(n == 4 || n == 8) || pk % n != 0

/-- The answer for a range of bytes: its pieces, or a fault at an address. -/
inductive RangeRes where
  | ok (s : State) (ps : List Piece)
  | fault (s : State) (cause sub : Nat) (va : Word)
deriving DecidableEq, Repr

/-- Bytes [va, va + n) within one page, cut at granules. -/
def cutPiece (x : Xlat) (va : Word) (n : Nat) : List Piece :=
  let pk := x.pk va
  let n1 := min n (128 - pk % 128)
  if n1 == n then [⟨pk, n, x.vcid, va, x.io⟩]
  else [⟨pk, n1, x.vcid, va, x.io⟩, ⟨pk + n1, n - n1, x.vcid, va + BitVec.ofNat 64 n1, x.io⟩]

/-- The bytes of an access that lie in one page, with the translation they use. -/
structure Span where
  va : Word
  n : Nat
  x : Xlat
deriving DecidableEq, Repr
/-- The spans of an access, or the fault of its translation. -/
inductive SpanRes where
  | ok (s : State) (l : List Span)
  | fault (s : State) (cause sub : Nat) (va : Word)
deriving DecidableEq, Repr

/-- Row 2 of R274: every page of [va, va + n), n at most 128, is translated by tr; at most two pages. -/
def spansWith (tr : State → Word → TrRes) (s : State) (va : Word) (n : Nat) : SpanRes :=
  let n1 := min n (65536 - va.toNat % 65536)
  match tr s va with
  | .fault s c sb => .fault s c sb va
  | .ok s x =>
    if n1 == n then .ok s [⟨va, n, x⟩]
    else match tr s (va + BitVec.ofNat 64 n1) with
      | .fault s c sb => .fault s c sb (va + BitVec.ofNat 64 n1)
      | .ok s y => .ok s [⟨va, n1, x⟩, ⟨va + BitVec.ofNat 64 n1, n - n1, y⟩]

/-- Row 3 of R274 for one span: an IO page, or counter space, takes the accesses of R31 and R32 alone, none of which spans pages. -/
def spanIo (s : State) (p : Nat) (io : IoRule) (x : Span) : Bool :=
  let pk := x.x.pk x.va
  x.x.io && (ioRefuses io pk x.n || (isCounterSpace pk && !ownsCounter s p (counterOf pk).1 (counterOf pk).2))
/-- An access to a counter that is not the partition's is logged as a violation (R31). -/
def spanLog (s : State) (t p : Nat) (io : IoRule) (x : Span) : State :=
  if ioRefuses io (x.x.pk x.va) x.n then s else logTile s t p (x.x.pk x.va)
def spanSlot (s : State) (p : Nat) (k : AccKind) (x : Span) : Option (Nat × Word) :=
  if x.x.io then none else (slotRefuses s p x.x.vcid x.va k).map fun sb => (sb, x.va)
def spanPieces (x : Span) : List Piece := if x.x.io then [⟨x.x.pk x.va, x.n, 0, x.va, true⟩] else cutPiece x.x x.va x.n

/-- Every byte of [va, va + n) translated by tr and checked before any is performed, in the order of the rows of R274 (R27, R31, R32, R66, R72, R273). -/
def rangeWith (tr : State → Word → TrRes) (s : State) (t p : Nat) (va : Word) (n : Nat) (k : AccKind) (io : IoRule) : RangeRes :=
  match spansWith tr s va n with
  | .fault s c sb a => .fault s c sb a
  | .ok s l =>
    let io := if l.length == 1 then io else .none
    match l.find? (spanIo s p io) with
    | some x => .fault (spanLog s t p io x) cPROT 3 x.va
    | none =>
      match l.findSome? (spanSlot s p k) with
      | some (sb, a) => .fault s cPROT sb a
      | none => .ok s (l.flatMap spanPieces)

/-- A range of bytes through the tile's gather TLB. -/
def rangeOf (s : State) (t p : Nat) (va : Word) (n : Nat) (k : AccKind) (sup : Bool) (io : IoRule) : RangeRes :=
  rangeWith (fun s a => xlate s t p a k sup) s t p va n k io

end Sys2Proof.Machine
end

