-- ==== Sys2Proof/Machine/Home.lean ====
section
/-! DEFINITION. The home of a granule and the coherence agents: directory, transactions, and what each protocol message does
(R91 to R108), with the resolution of requests that meet a Cinch piece (R109 to R116). -/

namespace Sys2Proof.Machine
open Sys2Proof

/-- The agent id of the host, and the name under which a home collects acknowledgements itself (R92, R105). -/
def hostAgent : Nat := 576
def homeMark : Nat := 1023

def copyOf (s : State) (a gk : Nat) : Option Copy := mfind s.copies (ckey a gk)
def setCopy (s : State) (a gk : Nat) (c : Copy) : State := { s with copies := mput s.copies (ckey a gk) c }

/-! ## Lines of composed caches (R62 to R65) -/

/-- The agent that holds the lines of a bank (R55, R92). -/
def agentOfLoc (loc : Nat) : Nat :=
  let b := loc / 2 ^ 20
  if b < 1024 then b / 2 else 512 + (b - 1024) / 16
/-- The granules a line has bytes in. -/
def lineGrans (l addr : Nat) : List Nat := if l == 256 then [addr * 2, addr * 2 + 1] else [addr * l / 128]
/-- The bytes of granule gk that a line shows: a half of it where lines are 64 bytes (R65). -/
def lineMask (l addr : Nat) : BitVec 128 := if l == 64 then BitVec.ofNat 128 ((2 ^ 64 - 1) * 2 ^ (addr % 2 * 64)) else BitVec.allOnes 128
/-- The 64-byte blocks of a line that lie in granule gk. -/
def granBlocks (l gk : Nat) : List Nat := if l == 64 then [0] else if l == 128 then [0, 1] else [gk % 2 * 2, gk % 2 * 2 + 1]
def blockBitsOf (bs : List Nat) : BitVec 4 := bs.foldl (fun m b => m ||| BitVec.ofNat 4 (2 ^ b)) 0

/-- A line of a slot shows agent a's copy of granule gk. -/
def shows (a gk l loc : Nat) (y : Line) : Bool := agentOfLoc loc == a && (lineGrans l y.addr).contains gk
/-- Some line that shows agent a's copy of granule gk satisfies f; its arguments are the line bytes and the line. -/
def anyLine (s : State) (a gk : Nat) (f : Nat → Line → Bool) : Bool :=
  s.parts.any fun (_, p) => p.slots.any fun (_, x) => x.lines.any fun (loc, y) => shows a gk (recLine (slotRec x)) loc y && f (recLine (slotRec x)) y
/-- Every line that shows agent a's copy of granule gk, changed. -/
def eachLine (s : State) (a gk : Nat) (f : Nat → Line → Line) : State :=
  { s with parts := s.parts.map fun (i, p) => (i, { p with slots := p.slots.map fun (v, x) =>
      (v, { x with lines := x.lines.map fun (loc, y) => (loc, if shows a gk (recLine (slotRec x)) loc y then f (recLine (slotRec x)) y else y) }) }) }

/-- The L1 of tile t holds a copy of one of the granules that agent a's line shelters. -/
def sheltered (s : State) (t a : Nat) (gks : List Nat) : Bool := (tileOf s t).l1.any fun e => !e.own && e.agent == a && gks.contains e.gk
/-- Every stash line that shows agent a's copy of granule gk, changed (R74). -/
def eachStashLine (s : State) (a gk : Nat) (f : Nat → Line → Line) : State :=
  { s with parts := s.parts.map fun (i, p) => (i, { p with slots := p.slots.map fun (v, x) =>
      (v, if recKind (slotRec x) == 1 then
          { x with lines := x.lines.map fun (loc, y) => (loc, if shows a gk (recLine (slotRec x)) loc y then f (recLine (slotRec x)) y else y) }
        else x) }) }
/-- The blocks of a granule that arrives are present, but for those a copy claims (R74). -/
def landBits (s : State) (a gk : Nat) : State :=
  eachStashLine s a gk fun l y => { y with lb := y.lb ||| (blockBitsOf (granBlocks l gk) &&& ~~~y.cb) }
/-- A recall or an invalidation of a granule makes its blocks absent (R74). -/
def liftBits (s : State) (a gk : Nat) : State := eachStashLine s a gk fun l y => { y with lb := y.lb &&& ~~~blockBitsOf (granBlocks l gk) }

/-- An agent's copy goes, and with it every L1 copy that shows it; the blocks of its lines become absent, and SP is cleared where nothing is sheltered any
more (R71, R74). -/
def dropCopy (s : State) (a gk : Nat) : State :=
  let s := { s with
    copies := mdel s.copies (ckey a gk)
    tiles := s.tiles.map fun (i, t) => (i, { t with l1 := t.l1.filter fun e => !(e.gk == gk && e.agent == a) }) }
  eachLine s a gk fun l y =>
    { y with
      lb := y.lb &&& ~~~blockBitsOf (granBlocks l gk)
      sp := y.sp.filter fun t => sheltered s t a (lineGrans l y.addr) }

def homeGran (s : State) (gk : Nat) : BitVec 1024 :=
  BitVec.ofNat 1024 (leNat ((List.range 128).map fun i => homeByte s (gk * 128 + i)))
/-- The masked bytes of a granule written home (R104), with its poison; a full clean one clears PSN (R107). -/
def writeGran (s : State) (gk : Nat) (d : GData) : State :=
  let s := loop 128 (fun i s => if maskBit d.mask i then setHomeByte s (gk * 128 + i) (granByte d.data i) else s) s
  if d.psn then (if s.psn.contains gk then s else { s with psn := gk :: s.psn })
  else if d.mask == BitVec.allOnes 128 then { s with psn := s.psn.filter (· != gk) } else s
def poisonHome (s : State) (gk : Nat) : State := if s.psn.contains gk then s else { s with psn := gk :: s.psn }
def clearPsn (s : State) (gk : Nat) : State := { s with psn := s.psn.filter (· != gk) }
def homeData (s : State) (gk : Nat) : GData := ⟨homeGran s gk, 0, s.psn.contains gk⟩

def dirOf (s : State) (gk : Nat) : Option DirE := mfind s.dir gk
def setDir (s : State) (gk : Nat) (e : DirE) : State := { s with dir := mput s.dir gk e }
def delDir (s : State) (gk : Nat) : State := { s with dir := mdel s.dir gk }

/-- The home stack of a granule (R18, R91). -/
def granStack (gk : Nat) : Nat := homeStack (gk * 128)
def isHostGran (gk : Nat) : Bool := 2 ^ 45 ≤ gk
/-- The die of a granule's home, 8 for host memory's. -/
def granDie (gk : Nat) : Nat := if isHostGran gk then 8 else 4 + granStack gk

/-- The partition whose request an agent makes: a tile's partition; a pool's is known only by the region (R92, R93). -/
def agentPart (s : State) (a : Nat) : Option Nat := if a < 512 then tilePart s a else none
/-- HoldsPool(P, c) of R98. -/
def holdsPool (s : State) (p c : Nat) : Bool :=
  (List.range 256).any fun i => ownsSegment s p (1024 + 16 * c + i / 16) (i % 16)
/-- The partition whose request an agent makes or holds a copy by (R93, R96). -/
def reqPart (s : State) (a gk : Nat) : Option Nat :=
  match copyOf s a gk with
  | some c => some c.part
  | none => agentPart s a
/-- The owning partition of a granule (R93, R96). -/
def granOwner (s : State) (a gk : Nat) : Nat :=
  if isHostGran gk then (reqPart s a gk).getD 0 else (regionOwner s (gk * 128)).getD 0

/-- The identity of an entry: TAG [27:0], HM [28], OWNP [34:29] (R96). -/
def identOf (gk p : Nat) : BitVec 35 := BitVec.ofNat 35 (gk % 2 ^ 45 / 2 ^ 17 + (isHostGran gk).toNat * 2 ^ 28 + p % 64 * 2 ^ 29)
/-- The vote over the three identity copies (R108). -/
def vote (e : DirE) : Option (BitVec 35) :=
  if e.ida == e.idb || e.ida == e.idc then some e.ida else if e.idb == e.idc then some e.idb else none
/-- OWNP after the vote. -/
def ownp (e : DirE) : Nat := match vote e with | some x => x.toNat / 2 ^ 29 | none => 0

/-- A new entry of granule gk owned by, or shared by, the given agents (R96). -/
def newDir (gk : Nat) (owned : Bool) (l : List Nat) (p : Nat) : DirE :=
  { owned, coarse := false, ptrs := l, cv := 0, h := false, ida := identOf gk p, idb := identOf gk p, idc := identOf gk p, bad := false }

/-- An entry as the home holds it (R96): 256 bits with V, ST (2 in B), FMT, NP, PSN, H, pointers, CV, identities, and SCODE, whose value is not specified. -/
def dirBits (s : State) (gk : Nat) (e : DirE) : BitVec 256 :=
  let st := if (mfind s.txns gk).isSome then 2 else e.owned.toNat
  let low := 1 + st * 2 + e.coarse.toNat * 8 + (if e.coarse then 0 else e.ptrs.length % 8 * 16) + (s.psn.contains gk).toNat * 128 + e.h.toNat * 256
    + (if e.coarse then 0 else ((List.range 4).map fun i => e.ptrs.getD i 0 % 1024 * 2 ^ (16 + 10 * i)).sum) + e.cv.toNat * 2 ^ 64
  BitVec.ofNat 256 (low + e.ida.toNat * 2 ^ 128 + e.idb.toNat * 2 ^ 163 + e.idc.toNat * 2 ^ 198 + (Config.scode (BitVec.ofNat 128 low)).toNat * 2 ^ 233)

/-- Marks agent a in a coarse entry (R97). -/
def coarseAdd (e : DirE) (a : Nat) : DirE :=
  if a == hostAgent then { e with h := true }
  else { e with cv := e.cv ||| BitVec.ofNat 64 (2 ^ (if a < 512 then a / 8 else a - 512)) }
/-- Adds a sharer under R97. -/
def addSharer (e : DirE) (a : Nat) : DirE :=
  if e.coarse then coarseAdd e a
  else if e.ptrs.contains a then e
  else if e.ptrs.length < 4 then { e with ptrs := e.ptrs ++ [a] }
  else (e.ptrs ++ [a]).foldl coarseAdd { e with coarse := true, ptrs := [] }
/-- The entry names agent a, or marks its cluster. -/
def names (e : DirE) (a : Nat) : Bool :=
  if e.coarse then (if a == hostAgent then e.h else e.cv.toNat / 2 ^ (if a < 512 then a / 8 else a - 512) % 2 == 1)
  else e.ptrs.contains a

/-- ProbeSet of R98. -/
def probeSet (s : State) (e : DirE) (req : Nat) : List Nat :=
  let p := ownp e
  let l := if e.coarse then
      (below 512 fun t => e.cv.toNat / 2 ^ (t / 8) % 2 == 1 && inTileSet s p t)
        ++ (below 64 fun c => e.cv.toNat / 2 ^ c % 2 == 1 && holdsPool s p c).map (512 + ·)
        ++ (if e.h then [hostAgent] else [])
    else e.ptrs
  l.filter fun a => a != req && !s.fenced.contains a

def posts (s : State) (es : List Event) : State := { s with agenda := s.agenda ++ es }
/-- The requests that waited for the granule's transaction are taken first, in arrival order (R101). -/
def unwait (s : State) (gk : Nat) : State :=
  { s with agenda := (mgetD s.waitq gk []).map (·.1) ++ s.agenda, waitq := mdel s.waitq gk }
/-- A request waits for the granule's transaction, behind those that came before it. -/
def waitOn (s : State) (gk : Nat) (e : Event) : State := { s with waitq := mput s.waitq gk (mgetD s.waitq gk [] ++ [(e, 0)]) }
/-- A home-served access takes its place there, once; the step that tries it again is held in the queue (R192). -/
def waitTurn (s : State) (gk : Nat) (e : Option (Event × Nat)) : State :=
  match e with
  | some x => if (mgetD s.waitq gk []).contains x then s else { s with waitq := mput s.waitq gk (mgetD s.waitq gk [] ++ [x]) }
  | none => s
/-- The step that tries an access again stands in a queue of a granule or of a piece. -/
def queued (s : State) (e : Event × Nat) : Bool :=
  s.waitq.any (fun (_, l) => l.contains e) || s.pieces.any fun x => x.held.any fun y => y.2 == e
/-- An access that must be tried again: its step follows, unless a queue holds it. -/
def retry (s : State) (e : Event × Nat) : State := if queued s e then s else postOnce s e.1
def endTxn (s : State) (gk : Nat) : State := unwait { s with txns := mdel s.txns gk } gk

/-! ## Transactions the home begins for itself -/

/-- Host memory granules that no tile holds any more are given back on CXL.cache (R124): the last dirty copy, or the last clean one. -/
def givenBack (s : State) (gk : Nat) (dirty : Bool) : State :=
  if isHostGran gk && (dirOf s gk).isNone then send s (.host (if dirty then 4 else 5) gk none) else s

/-- Recalls a granule from every holder so that the entry becomes free (R105): I when every answer is in; who asks: the home, or the host by a
snoop (R124), which takes a host granule itself. -/
def recallFor (s : State) (gk who : Nat) : State :=
  match dirOf s gk with
  | none => s
  | some e =>
    let l := probeSet s e homeMark
    let back (s : State) (dirty : Bool) : State := if who == hostAgent then s else givenBack s gk dirty
    if l.isEmpty then (if e.owned then back (poisonHome (delDir s gk) gk) true else back (delDir s gk) false)
    else
      let s := { s with txns := mput s.txns gk { kind := 3, req := who, due := l, putm := false, leave := [] } }
      posts s (l.map fun a => if e.owned then Event.rcli a gk (ownp e) else Event.inv a gk homeMark (ownp e))
def recallAll (s : State) (gk : Nat) : State := recallFor s gk homeMark

/-- RCLS to an owner, who keeps S, so that the home's memory is current (R67, R111, R122, R124, R284). -/
def recallSharedFor (s : State) (gk who : Nat) : State :=
  match dirOf s gk with
  | some e =>
    match e.owned, e.ptrs with
    | true, o :: _ =>
      if s.fenced.contains o then (if who == hostAgent then poisonHome (delDir s gk) gk else givenBack (poisonHome (delDir s gk) gk) gk true)
      else post { s with txns := mput s.txns gk { kind := 4, req := who, due := [o], putm := false, leave := [] } }
        (.rcls o gk (ownp e))
    | _, _ => s
  | none => s
def recallShared (s : State) (gk : Nat) : State := recallSharedFor s gk homeMark

/-- An entry whose code reports an uncorrectable error (R108): every possible holder is invalidated, the granule poisoned. -/
def recallBad (s : State) (gk : Nat) (e : DirE) : State :=
  let p := ownp e
  let l := (tileSet s p ++ (below 64 (holdsPool s p)).map (512 + ·) ++ [hostAgent]).filter fun a => !s.fenced.contains a
  let s := { s with txns := mput s.txns gk { kind := 5, req := homeMark, due := l, putm := false, leave := [] } }
  posts s (l.map fun a => Event.inv a gk homeMark p)

/-- No two identity copies agree: the stack stops and its partitions end as on FRAME (R108). -/
def machineCheck (s : State) (st : Nat) : State :=
  let s := boxAdd (setStack s st { stackOf s st with stopped := true }) (4 + st) 3 0 0 0
  (below 64 fun p => ptState s p == 1 && (tileSet s p).any (· / 128 == st)).foldl (fun s p => endPartition s p 3 st) s

/-! ## Cinch pieces at the home -/

/-- Element bytes lie in granule gk: the greatest such element of the piece, if any (LastTouch of R115). -/
def pieceTouch (x : PieceT) (gk : Nat) : Option Nat :=
  ((List.range x.count).filter fun (i : Nat) => ((x.pk : Int) + x.stride * (i : Int)).toNat / 128 == gk).getLast?
/-- The piece covers the granule (R109, R115). -/
def covers (x : PieceT) (gk : Nat) : Bool := !x.released.contains gk && (pieceTouch x gk).isSome
/-- The piece has a place in its home's table of 1,024: fewer pieces of that home stand before it (R110). -/
def entered (s : State) (x : PieceT) : Bool :=
  decide (((s.pieces.takeWhile fun y => y.id != x.id).filter fun y => granStack (y.pk / 128) == granStack (x.pk / 128)).length < 1024)
/-- A read-intent piece covers the granule: it is one more sharer (R111). -/
def pieceShares (s : State) (gk : Nat) : Bool := s.pieces.any fun x => !x.wr && covers x gk && entered s x
/-- The pieces a request conflicts with (R113), every request during registration (R111); the holder itself never does with its own. -/
def conflicts (s : State) (gk : Nat) (wr : Bool) (tile unit : Nat) : List PieceT :=
  s.pieces.filter fun x => (x.wr || wr || !x.live) && !(x.tile == tile && x.unit == unit && x.live) && covers x gk && entered s x
/-- A live TRAP piece (R116). -/
def PieceT.traps (x : PieceT) : Bool := x.mode == 2 && x.live
/-- The piece that decides how a conflicting request goes on: a TRAP piece where one of them is, else the first; several are met piece by piece (R113). -/
def conflict (s : State) (gk : Nat) (wr : Bool) (tile unit : Nat) : Option PieceT :=
  let l := conflicts s gk wr tile unit
  (l.find? PieceT.traps).or l.head?
def setPiece (s : State) (x : PieceT) : State := { s with pieces := s.pieces.map fun y => if y.id == x.id then x else y }

/-- How a conflicting request goes on (R111, R114 to R116). -/
inductive Clash where
  | free
  | held (s : State)
  | trap
deriving DecidableEq, Repr

/-- A request e for a granule against the pieces: held at WAIT, during registration and at SPLIT (with a position query), in arrival order, or refused at
TRAP (R111, R114 to R116). -/
def clash (s : State) (gk : Nat) (wr : Bool) (tile unit : Nat) (e : Option (Event × Nat)) : Clash :=
  match conflict s gk wr tile unit with
  | none => .free
  | some x =>
    if x.traps then .trap
    else
      let x' := { x with held := match e with | some ev => if ev.2 != 0 && x.held.contains (gk, ev) then x.held else x.held ++ [(gk, ev)] | none => x.held }
      if x.mode == 1 && x.live && !x.query then .held (post (setPiece s { x' with query := true }) (.positionQuery x.id none))
      else .held (setPiece s x')

/-! ## Messages to the home (R101) -/

/-- An error answer (R94): to an agent by ERR, remembered for the access that asked and for no other. -/
def refuse (s : State) (a gk code : Nat) : State :=
  post (match (copyOf s a gk).bind (·.asker) with
    | some e => { s with errs := (ckey a gk, e, code) :: s.errs.filter fun x => !(x.1 == ckey a gk && x.2.1 == e) }
    | none => s) (.err a gk)
/-- The error answer that waits for the access e of agent a. -/
def errFor (s : State) (a gk : Nat) (e : Option (Event × Nat)) : Option (Nat × (Event × Nat) × Nat) :=
  s.errs.find? fun x => x.1 == ckey a gk && some x.2.1 == e

/-- May the request of an agent be performed (R93): the partition it is made for owns the region; for the host, HOSTOK. -/
def homeAllows (s : State) (a gk : Nat) : Bool :=
  isHostGran gk || match regionOwner s (gk * 128) with
    | none => false
    | some p =>
      if a == hostAgent then hostOk s (gk * 128)
      else match copyOf s a gk with
        | some c => c.part == p
        | none => if a < 512 then inTileSet s p a else holdsPool s p (a - 512)
/-- The error answer of a request that the grants do not allow, logged with its partition (R93): after poison for a read (R274). -/
def refuseForeign (s : State) (a gk : Nat) (wr : Bool) : State :=
  refuse (logHome s ((reqPart s a gk).getD 0) (gk * 128)) a gk (if !wr && s.psn.contains gk then cPOISON else cPROT + 256 * 4)

/-- What stands between a request and its service: fenced source, stopped stack, region, Cinch, transaction, bad entry, foreign host granule. -/
inductive Gate where
  | pass
  | done (s : State)
deriving DecidableEq, Repr

def gate (s : State) (a gk : Nat) (wr : Bool) (e : Event) : Gate :=
  if s.fenced.contains a || (stackOf s (granStack gk)).stopped then .done s
  else if (mfind s.txns gk).isSome then .done (waitOn s gk e)
  else match clash s gk wr a 100 (some (e, 0)) with
    | .trap => .done (refuse s a gk cRSVC)
    | .held s => .done s
    | .free =>
      if !homeAllows s a gk then .done (refuseForeign s a gk wr)
      else match dirOf s gk with
      | none => .pass
      | some d =>
        if (vote d).isNone then .done (machineCheck s (granStack gk))
        else if d.bad then .done (waitOn (recallBad s gk d) gk e)
        else if isHostGran gk && reqPart s a gk != some (ownp d) then
          let k := recallAll s gk
          .done (if (mfind k.txns gk).isSome then waitOn k gk e else post k e)
        else .pass

/-- DATA to a requester, from home memory (R101). -/
def sendData (s : State) (a gk : Nat) (g : Grant) (n : Nat) : State := post s (.data a gk g n (homeData s gk))

/-- The entry that stands when a transaction leaves the agents l as sharers; none when they are all gone. -/
def sharedBy (s : State) (gk : Nat) (l : List Nat) (p : Nat) : State :=
  if l.isEmpty then givenBack (delDir s gk) gk false else setDir s gk (newDir gk false l p)
/-- The entry that stands when a transaction leaves the owner of agent a: none of its own when a is fenced meanwhile (R126). -/
def ownedBy (s : State) (gk a p : Nat) : State :=
  if s.fenced.contains a then givenBack (delDir s gk) gk false else setDir s gk (newDir gk true [a] p)

/-- What a recall that the host's snoop asked for answers (R124), or how a host granule that leaves is given back. -/
def recallEnd (s : State) (gk : Nat) (t : Txn) : State :=
  if t.req == hostAgent then
    let s := send s (.host (if t.kind == 3 then (if t.putm then 13 else 12) else if t.putm then 15 else 14) gk none)
    if t.kind == 3 then notifyGran s gk else s
  else givenBack s gk t.putm

/-- Ownership of a granule in S for a tile or pool (R101): INV to the other sharers, and the grant with its count of acknowledgements, with data or without.
The entry is in B until DONE. -/
def grantAll (s : State) (gk a : Nat) (d : DirE) (data : Bool) : State :=
  let l := probeSet s d a
  let s := posts s (l.map fun b => Event.inv b gk a (ownp d))
  let s := { s with txns := mput s.txns gk { kind := 0, req := a, due := [], putm := false, leave := [] } }
  if data then sendData s a gk .modified l.length else post s (.gnt a gk l.length)

/-- The end of a transaction whose answers are all in (R101, R105, R108, R111, R122, R124). -/
def settle (s : State) (gk : Nat) (t : Txn) : State :=
  let p := match dirOf s gk with | some d => ownp d | none => granOwner s t.req gk
  match t.kind with
  | 0 => endTxn (ownedBy s gk t.req p) gk
  | 1 =>
    let o := match dirOf s gk with | some d => d.ptrs.filter fun a => !t.leave.contains a && !s.fenced.contains a | none => []
    endTxn (if s.fenced.contains t.req then sharedBy s gk o p else sharedBy (sendData s t.req gk .shared 0) gk (o ++ [t.req]) p) gk
  | 2 => endTxn (ownedBy (sendData s t.req gk .modified 0) gk t.req p) gk
  | 3 => endTxn (recallEnd (delDir s gk) gk t) gk
  | 4 =>
    match dirOf s gk with
    | some d =>
      let o := d.ptrs.filter fun a => !t.leave.contains a && !s.fenced.contains a
      endTxn (recallEnd (if o.isEmpty then delDir s gk else setDir s gk { d with owned := false, ptrs := o }) gk t) gk
    | none => endTxn s gk
  | 6 => endTxn (if s.fenced.contains t.req then sharedBy s gk [] p else sharedBy (sendData s t.req gk .shared 0) gk [t.req] p) gk
  | 7 =>
    match dirOf s gk with
    | some d =>
      if d.ptrs.isEmpty && !d.coarse then endTxn (ownedBy (sendData s t.req gk .modified 0) gk t.req p) gk
      else if s.fenced.contains t.req then endTxn s gk
      else grantAll s gk t.req d true
    | none => endTxn (ownedBy (sendData s t.req gk .modified 0) gk t.req p) gk
  | 8 => endTxn (ownedBy (sendData s t.req gk .modified 0) gk t.req p) gk
  | 9 => endTxn (ownedBy (post s (.gnt t.req gk 0)) gk t.req p) gk
  | 10 =>
    match dirOf s gk with
    | some d => if s.fenced.contains t.req then endTxn s gk else grantAll s gk t.req d (!names d t.req)
    | none => endTxn (ownedBy (sendData s t.req gk .modified 0) gk t.req p) gk
  | _ => endTxn (givenBack (boxAdd (delDir (poisonHome s gk) gk) (4 + granStack gk) 3 p (gk * 128) 0) gk true) gk

/-- Ownership for the host: the home collects the acknowledgements of the probed agents itself (R122). -/
def collect (s : State) (gk : Nat) (l : List Nat) (p kind : Nat) : State :=
  let t : Txn := { kind, req := hostAgent, due := l, putm := false, leave := [] }
  let s := { s with txns := mput s.txns gk t }
  if l.isEmpty then settle s gk t else posts s (l.map fun b => Event.inv b gk homeMark p)

/-- The entries of a granule's set (R95). -/
def setMates (s : State) (gk : Nat) : List Nat :=
  (s.dir.map (·.1)).filter fun g => g != gk && granStack g == granStack gk && g % 2 ^ 17 == gk % 2 ^ 17
/-- A new entry finds its set of 16 ways full (R105): the entry of a granule not in B is recalled, and the request waits for it. -/
def needsRoom (s : State) (gk : Nat) (e : Event) : Option State :=
  let l := setMates s gk
  if l.length < 16 then none
  else match l.find? fun g => (mfind s.txns g).isNone with
    | some g =>
      match dirOf s g with
      | some d =>
        if (vote d).isNone then some (machineCheck s (granStack g))
        else
          let s := if d.bad then recallBad s g d else recallAll s g
          some (if (mfind s.txns g).isSome then waitOn s g e else post s e)
      | none => some (post s e)
    | none => some (post s e)

/-- The granule, or ownership of it, as the host gives it: a CXL.cache request goes out, and the host's answer comes back (R124). A granule without an
entry takes its way of the set meanwhile. A host that is fenced answers nothing: the data are poisoned (R126). -/
def askHost (s : State) (a gk kind code : Nat) : State :=
  let s := if (dirOf s gk).isNone then setDir s gk (newDir gk false [] (granOwner s a gk)) else s
  let t : Txn := { kind, req := a, due := [hostAgent], putm := false, leave := [] }
  let s := { s with txns := mput s.txns gk t }
  if s.fenced.contains hostAgent then settle (if kind == 10 then s else poisonHome s gk) gk { t with due := [] }
  else post (send s (.host code gk none)) (.h2dResponse gk (homeData s gk))

/-- GETS (R101, R105). Under a read-intent piece, which is a sharer, it is served as in S (R111). The table has no row for a GETS from the agent that the
entry names as owner: it has lost a grant or a copy, and is answered with home data as its owner (notes/assumptions/39.md). -/
def onGets (s : State) (a gk : Nat) : State :=
  match gate s a gk false (.gets a gk) with
  | .done s => s
  | .pass =>
    match dirOf s gk with
    | none =>
      match needsRoom s gk (.gets a gk) with
      | some s => s
      | none =>
        if isHostGran gk then askHost s a gk 6 9
        else if pieceShares s gk then setDir (sendData s a gk .shared 0) gk (newDir gk false [a] (granOwner s a gk))
        else setDir (sendData s a gk .excl 0) gk (newDir gk true [a] (granOwner s a gk))
    | some d =>
      if !d.owned then setDir (sendData s a gk .shared 0) gk (addSharer d a)
      else
        let o := d.ptrs.headD homeMark
        if o == a then sendData s a gk .excl 0
        else if s.fenced.contains o then sharedBy (sendData (poisonHome s gk) a gk .shared 0) gk [a] (ownp d)
        else post { s with txns := mput s.txns gk { kind := 1, req := a, due := [o], putm := false, leave := [] } } (.rcls o gk (ownp d))

/-- GETM, and UPG from an agent that is not listed (R101); host memory needs the host's ownership first (R106, R124). A GETM from the agent that the entry
names as owner is answered with home data (notes/assumptions/39.md). -/
def onGetm (s : State) (a gk : Nat) : State :=
  match gate s a gk true (.getm a gk) with
  | .done s => s
  | .pass =>
    match dirOf s gk with
    | none =>
      match needsRoom s gk (.getm a gk) with
      | some s => s
      | none =>
        if isHostGran gk then askHost s a gk 7 10 else setDir (sendData s a gk .modified 0) gk (newDir gk true [a] (granOwner s a gk))
    | some d =>
      if !d.owned then
        if a == hostAgent then collect s gk (probeSet s d a) (ownp d) 8
        else if isHostGran gk then askHost s a gk 7 10
        else grantAll s gk a d true
      else
        let o := d.ptrs.headD homeMark
        if o == a then sendData s a gk .modified 0
        else if s.fenced.contains o then setDir (sendData (poisonHome s gk) a gk .modified 0) gk (newDir gk true [a] (ownp d))
        else post { s with txns := mput s.txns gk { kind := 2, req := a, due := [o], putm := false, leave := [] } } (.rcli o gk (ownp d))

/-- UPG (R101): ownership without data to an agent the entry names in S. -/
def onUpg (s : State) (a gk : Nat) : State :=
  match gate s a gk true (.upg a gk) with
  | .done s => s
  | .pass =>
    match dirOf s gk with
    | some d =>
      if !d.owned && names d a then
        if a == hostAgent then collect s gk (probeSet s d a) (ownp d) 9
        else if isHostGran gk then askHost s a gk 10 11
        else grantAll s gk a d false
      else onGetm s a gk
    | none => onGetm s a gk

/-- PUTS (R101, R108). -/
def onPuts (s : State) (a gk : Nat) : State :=
  if s.fenced.contains a then s
  else
    let s := post s (.pack a gk)
    match mfind s.txns gk with
    | some t => { s with txns := mput s.txns gk { t with leave := a :: t.leave } }
    | none =>
      match dirOf s gk with
      | none => s
      | some d =>
        if (vote d).isNone then machineCheck s (granStack gk)
        else if d.bad then recallBad s gk d
        else if d.coarse || !d.ptrs.contains a then s
        else if d.owned || d.ptrs.length == 1 then givenBack (delDir s gk) gk false
        else setDir s gk { d with ptrs := d.ptrs.filter (· != a) }

/-- Data of the host are written home; monitors see a write of the host (R279). -/
def hostWrote (s : State) (a gk : Nat) (d : GData) : State :=
  if a == hostAgent && d.mask != 0 then notifyGran (writeGran s gk d) gk else writeGran s gk d

/-- PUTM (R101, R104, R108). The host's own PUTM comes before its BIRsp, which says whether it keeps a copy (R122). The table writes the data of an agent the
entry does not name 'only if the entry is in I or B and the agent is the recalled owner': the model reads the last clause with B alone, so that the data
of any PUTM that meets I are written home (notes/assumptions/39.md). -/
def onPutm (s : State) (a gk : Nat) (d : GData) : State :=
  if s.fenced.contains a then s
  else
    let s := post s (.pack a gk)
    match mfind s.txns gk with
    | some t =>
      if t.due.contains a && t.kind != 0 && t.kind != 5 then
        { hostWrote s a gk d with txns := mput s.txns gk { t with putm := true, leave := if a == hostAgent then t.leave else a :: t.leave } }
      else s
    | none =>
      match dirOf s gk with
      | none => hostWrote s a gk d
      | some e =>
        if (vote e).isNone then machineCheck s (granStack gk)
        else if e.bad then recallBad s gk e
        else if e.owned && e.ptrs.contains a then givenBack (delDir (hostWrote s a gk d) gk) gk true
        else s

/-- An answer of agent a to the home's transaction. -/
def answered (s : State) (a gk : Nat) : State :=
  match mfind s.txns gk with
  | none => s
  | some t =>
    let t' := { t with due := t.due.filter (· != a) }
    if t'.due.isEmpty && t.due.contains a then settle { s with txns := mput s.txns gk t' } gk t'
    else { s with txns := mput s.txns gk t' }

/-- RDAT (R101): dirty data go home; NODATA after a PUTM taken as the answer is just the end of the recall. -/
def onRdat (s : State) (a gk : Nat) (d : Option GData) : State :=
  if s.fenced.contains a then s
  else match mfind s.txns gk with
  | none => s
  | some t =>
    match d with
    | some x =>
      if t.kind == 5 then answered s a gk
      else answered { hostWrote s a gk x with txns := mput s.txns gk { t with putm := true } } a gk
    | none => answered s a gk

/-- DONE (R101, R103). -/
def onDone (s : State) (a gk : Nat) : State :=
  if s.fenced.contains a then s
  else match mfind s.txns gk with
  | some t => if t.kind == 0 && t.req == a then settle s gk t else s
  | none => s

/-! ## Messages to an agent (R102, R103) -/

/-- A tile's message on the class 0 circuit to a granule's home (R166, R167). -/
def toHome (s : State) (a gk : Nat) (e : Event) : State :=
  post (if a < 512 then useCircuit s a (granDie gk) else s) e
/-- The agenda with the accesses that wait put first: a requester performs its access when the grant comes (R103). -/
def isAccess : Event → Bool
  | .loadDataReturn _ => true
  | .storeSend _ => true
  | .homeServedAccess _ => true
  | .homeAtomic _ => true
  | .copyTransfer _ _ => true
  | .streamEngineAccess _ _ => true
  | .miuAccess _ _ => true
  | .awlLoadReturn _ _ => true
  | .portElement _ _ => true
  | .matrixOpComplete _ _ => true
  | _ => false
def promote (s : State) : State := { s with agenda := s.agenda.filter isAccess ++ s.agenda.filter fun e => !isAccess e }


/-- The grant is held and every IACK counted: M, and DONE to the home (R103). -/
def tryOwn (s : State) (a gk : Nat) (c : Copy) : State :=
  match c.need with
  | some n => if n ≤ c.got then promote (toHome (landBits (setCopy s a gk { c with st := .m, need := none, got := 0, asker := none }) a gk) a gk (.done a gk)) else setCopy s a gk c
  | none => setCopy s a gk c

def onData (s : State) (a gk : Nat) (g : Grant) (n : Nat) (d : GData) : State :=
  if a == hostAgent then send s (.host (match g with | .shared => 1 | .excl => 2 | .modified => 3) gk (some d))
  else match copyOf s a gk with
  | some c =>
    match c.st with
    | .is => promote <| landBits (setCopy s a gk { c with st := (if g == .shared then .s else .e), data := d.data, mask := 0, psn := d.psn, asker := none }) a gk
    | .im => tryOwn s a gk { c with data := d.data, mask := 0, psn := d.psn, need := some n }
    | .sm => tryOwn s a gk { c with data := d.data, mask := 0, psn := d.psn, need := some n }
    | _ => s
  | none => s

def onGnt (s : State) (a gk n : Nat) : State :=
  if a == hostAgent then send s (.host 3 gk none)
  else match copyOf s a gk with
  | some c => if c.st == .im || c.st == .sm then tryOwn s a gk { c with need := some n } else s
  | none => s

/-- IACK (R103): to a requester, or to the home that collects them itself (R105). -/
def onIack (s : State) (req a gk : Nat) : State :=
  if req == homeMark then answered s a gk
  else match copyOf s req gk with
  | some c => if c.st == .im || c.st == .sm then tryOwn s req gk { c with got := c.got + 1 } else s
  | none => s

/-- A probe that names another partition than the one that runs on the tile: dropped with no effect on the tile's caches, acknowledged and counted (R98). -/
def foreign (s : State) (a p : Nat) : Bool := a < 512 && tilePart s a != some p
def countForeign (s : State) (a : Nat) : State := setCtl s (0x0C001000 + 8 * a) (ctlWord s (0x0C001000 + 8 * a) + 1)

/-- A back-invalidate snoop goes to the host (R122); dest: whom its answer is for, 1024 for a recall. -/
def backSnoop (s : State) (gk dest code : Nat) : State := send { s with bis := s.bis ++ [(gk, dest)] } (.host code gk none)

def onInv (s : State) (a gk req p : Nat) : State :=
  if s.fenced.contains a then post s (.iack req a gk)
  else if a == hostAgent then backSnoop s gk req 6
  else if foreign s a p then post (countForeign s a) (.iack req a gk)
  else
    let s := match copyOf s a gk with
      | some c =>
        match c.st with
        | .s => dropCopy s a gk
        | .sm => setCopy (dropCopy s a gk) a gk { c with st := .im }
        | .e => dropCopy s a gk
        | .m => dropCopy s a gk
        | _ => s
      | none => s
    post s (.iack req a gk)

def copyData (c : Copy) : GData := ⟨c.data, c.mask, c.psn⟩

/-- RCLS to an owner; the blocks of a stash line are absent after it (R74). At a line that is being moved the probe takes the old position away (R82): the agent keeps nothing, and says so. -/
def onRcls (s : State) (a gk p : Nat) : State :=
  if s.fenced.contains a then answered (poisonHome s gk) a gk
  else if a == hostAgent then backSnoop s gk 1024 7
  else if foreign s a p then toHome (countForeign s a) a gk (.rdat a gk none)
  else match copyOf s a gk with
  | some c =>
    let data : Option GData := if c.st == .m then some (copyData c) else none
    if c.st == .m || c.st == .e then
      if anyLine s a gk fun _ y => y.mv.isSome && !y.newmap then toHome (toHome (dropCopy s a gk) a gk (.puts a gk)) a gk (.rdat a gk data)
      else toHome (liftBits (setCopy s a gk { c with st := .s, mask := 0 }) a gk) a gk (.rdat a gk data)
    else toHome s a gk (.rdat a gk none)
  | none => toHome s a gk (.rdat a gk none)

def onRcli (s : State) (a gk p : Nat) : State :=
  if s.fenced.contains a then answered (poisonHome s gk) a gk
  else if a == hostAgent then backSnoop s gk 1024 6
  else if foreign s a p then toHome (countForeign s a) a gk (.rdat a gk none)
  else match copyOf s a gk with
  | some c =>
    match c.st with
    | .m => toHome (dropCopy s a gk) a gk (.rdat a gk (some (copyData c)))
    | .e => toHome (dropCopy s a gk) a gk (.rdat a gk none)
    | .s => toHome (dropCopy s a gk) a gk (.rdat a gk none)
    | _ => toHome s a gk (.rdat a gk none)
  | none => toHome s a gk (.rdat a gk none)

/-- PACK (R102): SI and MI become I. -/
def onPack (s : State) (a gk : Nat) : State :=
  match copyOf s a gk with
  | some c => if c.st == .si || c.st == .mi then dropCopy s a gk else s
  | none => s

/-- ERR (R94): the request ends; the answer waits for the access that made it. -/
def onErr (s : State) (a gk : Nat) : State :=
  if a == hostAgent then send s (.host 8 gk none)
  else match copyOf s a gk with
  | some c =>
    match c.st with
    | .is => dropCopy s a gk
    | .im => dropCopy s a gk
    | .sm => setCopy s a gk { c with st := .s, asker := none }
    | _ => s
  | none => s

/-- An agent drops a copy with its eviction notice (R102). -/
def evict (s : State) (a gk : Nat) : State :=
  match copyOf s a gk with
  | some c =>
    match c.st with
    | .s => toHome (setCopy (dropCopy s a gk) a gk { c with st := .si }) a gk (.puts a gk)
    | .e => toHome (setCopy (dropCopy s a gk) a gk { c with st := .si }) a gk (.puts a gk)
    | .m => toHome (setCopy (dropCopy s a gk) a gk { c with st := .mi }) a gk (.putm a gk (copyData c))
    | _ => s
  | none => s

/-- An agent asks for the granule for partition p: GETS, GETM or UPG (R102); nothing while a request or an eviction is under way. asker: the access that
waits for the answer, if one does. -/
def request (s : State) (p a gk : Nat) (wr : Bool) (asker : Option (Event × Nat)) : State :=
  match copyOf s a gk with
  | none =>
    toHome (setCopy s a gk { st := if wr then .im else .is, data := 0, mask := 0, psn := false, need := none, got := 0, part := p, asker }) a gk
      (if wr then .getm a gk else .gets a gk)
  | some c => if wr && c.st == .s then toHome (setCopy s a gk { c with st := .sm, asker }) a gk (.upg a gk) else s

end Sys2Proof.Machine
end

