-- ==== Sys2Proof/Machine/Access.lean ====
section
/-! DEFINITION. Where an access to memory is performed and what it meets there: placement in composed caches and stashes, the scalar
L1, moves during a resize, and the read, write and read-modify-write of bytes at a copy or at home (R52 to R76, R79 to R81, R106,
R107, R112, R113, R461). Every unit reaches memory through these operations. -/

namespace Sys2Proof.Machine
open Sys2Proof

/-- Who makes an access: tile, partition, unit (0 to 7 stream engine, 8 copy engine, 16 to 31 awl, 100 anything else: R110) and whether it
goes through the scalar L1 (R68, R70). -/
structure Who where
  tile : Nat
  part : Nat
  unit : Nat
  l1 : Bool
  /-- The command, for the copy engine. -/
  job : Nat := 0
  /-- The step that tries the access again, with the access's number where one step serves several; it stands in the queue of a granule while the access
  waits at the home (R114, R192). -/
  ev : Option (Event × Nat) := none
  /-- The first byte of the piece it reaches, for the log of a refusal (R442). -/
  pk : Nat := 0
deriving DecidableEq, Repr

/-- The step under which an instruction of hart h that waits at a home itself stands in the home's queues (R114, R116): a hart number above every access
number. It gives the hart the next turn (notes/assumptions/3.md). -/
def hartMark : Nat := 2 ^ 64
def hartTurn (h : Nat) : Event × Nat := (.homeServedAccess (hartMark + h), 1)
/-- The turn of a hart's instruction is on its way: it makes no access before it. -/
def turnDue (s : State) (w : Who) : Bool :=
  match w.ev with
  | some e => (match e.1 with | .homeServedAccess id => decide (hartMark ≤ id) | _ => false) && s.agenda.contains e.1
  | none => false

/-- How an access finds its granule: at home, in an agent's copy, not yet, or refused with a cause and PROT detail. -/
inductive Reach where
  | home (s : State)
  | copy (s : State) (agent : Nat)
  | wait (s : State)
  | err (s : State) (cause sub : Nat)
deriving DecidableEq, Repr

/-! ## Positions (R52, R62, R72) -/

/-- The place of byte o of the concatenated shares: bank * 2^20 + byte in the bank. -/
def locIn (shares : List Nat) (o : Nat) : Nat :=
  match shares with
  | [] => 0
  | d :: r => if o < shSegs d * 65536 then shBank d * 2 ^ 20 + shFirst d * 65536 + o else locIn r (o - shSegs d * 65536)

def sharesBytes (l : List Nat) : Nat := (l.map fun d => shSegs d * 65536).sum
/-- The shares of lane group g, or all of them without interleave. -/
def groupShares (r : List Word) (g : Nat) : List Nat := if recIl r then (recShares r).filter (shLg · == g) else recShares r

/-- The positions, way 0 first, that may hold the line of physical byte pk (R62). -/
def waysOf (r : List Word) (pk : Nat) : List Nat :=
  let a := pk % 2 ^ 52
  let l := recLine r
  let sh := groupShares r (a / 256 % 4)
  let n := if recIl r then a / 1024 * (256 / l) + a % 256 / l else a / l
  let sets := sharesBytes sh / (l * recWays r)
  if sets == 0 then [] else (List.range (recWays r)).map fun w => locIn sh ((w * sets + n % sets) * l)

/-- The position of a virtual address in a stash window (R72). -/
def stashLoc (r : List Word) (va : Word) : Nat := locIn (recShares r) ((va - recWbase r).toNat / recLine r * recLine r)

/-! ## Lines and copies -/

def copyLive (s : State) (a gk : Nat) : Bool :=
  match copyOf s a gk with
  | some c => c.st != .si && c.st != .mi
  | none => false
/-- The line holds some granule, or fetches one: a line all of whose granules left by a probe is invalid. -/
def lineLive (s : State) (l loc : Nat) (x : Line) : Bool := (lineGrans l x.addr).any (copyLive s (agentOfLoc loc))
def stableCopy (s : State) (a gk : Nat) : Bool :=
  match copyOf s a gk with
  | some c => c.st == .s || c.st == .e || c.st == .m
  | none => true
/-- None of the line's granules is in a transaction of its agent, and the line is neither being moved nor claimed. -/
def lineStable (s : State) (l loc : Nat) (x : Line) : Bool :=
  x.mv.isNone && x.cb == 0 && (lineGrans l x.addr).all (stableCopy s (agentOfLoc loc))
/-- A new line. -/
def Line.at (addr : Nat) (newmap : Bool) : Line := { addr, newmap, mv := none, sp := none, lb := 0, cb := 0, jobs := [] }

/-- Some line shows agent a's copy of granule gk. -/
def lineShows (s : State) (a gk : Nat) : Bool := anyLine s a gk fun _ _ => true
/-- The tile's L1 holds the granule as its own agent. -/
def l1Own (s : State) (a gk : Nat) : Bool := a < 512 && (tileOf s a).l1.contains ⟨gk, a, true⟩

/-- A line that showed the bytes m of agent a's copy is gone. With no other line that shows the copy, it leaves with its notice, dirty data with it, and
the L1 of the agent's tile keeps none of it (R65, R66, R68, R102); else what is dirty of those bytes is written home, and the agent keeps the rest. -/
def release (s : State) (a gk : Nat) (m : BitVec 128) : State :=
  if lineShows s a gk then
    match copyOf s a gk with
    | some c =>
      if c.st == .m && c.mask &&& m != 0 then setCopy (writeGran s gk ⟨c.data, c.mask &&& m, c.psn⟩) a gk { c with mask := c.mask &&& ~~~m } else s
    | none => s
  else evict s a gk

def setLines (s : State) (p v : Nat) (l : SMap Line) : State := setSlot s p v { slotOf s p v with lines := l }
def putLine (s : State) (p v loc : Nat) (x : Line) : State := setLines s p v (mput (slotOf s p v).lines loc x)

/-- A new line at a position. A fill fetches only the half of a granule that a 64-byte line takes (R65): where the agent has the granule already, for the
other half, the bytes of this one come from home now; the half that a granule's answer brings beside the one asked for is shown by no line, and is fetched
in this way when a line takes it. -/
def newLine (s : State) (p v loc addr : Nat) (newmap : Bool) : State :=
  let l := recLine (slotRec (slotOf s p v))
  let a := agentOfLoc loc
  let gk := addr * l / 128
  let s := putLine s p v loc (Line.at addr newmap)
  match (if l == 64 then copyOf s a gk else none) with
  | some c =>
    if c.st.holds then
      setCopy s a gk { c with
        data := loop 128 (fun i d => if maskBit (lineMask l addr) i && !maskBit c.mask i then setGranByte d i (homeByte s (gk * 128 + i)) else d) c.data
        psn := c.psn || s.psn.contains gk }
    else s
  | none => s

/-- L1 copies sheltered by a line go with it (R71). -/
def dropShelter (s : State) (a : Nat) (sp : Option Nat) (gks : List Nat) : State :=
  match sp with
  | some t => setTile s t { tileOf s t with l1 := (tileOf s t).l1.filter fun e => !(!e.own && e.agent == a && gks.contains e.gk) }
  | none => s

/-- A line leaves its position: written home if dirty, with its notice and its sheltered L1 copies (R66, R71, R80, R84). -/
def evictLine (s : State) (p v loc : Nat) : State :=
  match mfind (slotOf s p v).lines loc with
  | none => s
  | some x =>
    let l := recLine (slotRec (slotOf s p v))
    let gks := lineGrans l x.addr
    let s := setLines s p v (mdel (slotOf s p v).lines loc)
    gks.foldl (fun s gk => release s (agentOfLoc loc) gk (lineMask l x.addr)) (dropShelter s (agentOfLoc loc) x.sp gks)

/-- The tile that holds a bank runs another partition than p: its caches take no line for p meanwhile, since a probe that names p would have no effect on
them (R98; notes/assumptions/40.md). -/
def away (s : State) (p a : Nat) : Bool := a < 512 && tilePart s a != some p

/-- The line of address addr among the given positions, with the NEWMAP asked for. -/
def findLine (x : Slot) (locs : List Nat) (addr : Nat) (nm : Option Bool) : Option (Nat × Line) :=
  locs.findSome? fun loc =>
    match mfind x.lines loc with
    | some y => if y.addr == addr && (nm == none || nm == some y.newmap) then some (loc, y) else none
    | none => none

/-- The line of address addr among the given positions that is valid, or on its way in a move: an invalid line is no line. -/
def heldLine (s : State) (l : Nat) (x : Slot) (locs : List Nat) (addr : Nat) (nm : Option Bool) : Option (Nat × Line) :=
  (findLine x locs addr nm).filter fun (loc, y) => lineLive s l loc y || y.mv.isSome || y.cb != 0

/-- A position free to take a line: not listed, or its line invalid. -/
def freeWay (s : State) (l : Nat) (x : Slot) (locs : List Nat) : Option Nat :=
  locs.find? fun loc => match mfind x.lines loc with
    | some y => !lineLive s l loc y && y.mv.isNone && y.cb == 0
    | none => true

/-- The way a fill takes: a free one, else the first stable one, whose line is evicted (R62: the choice affects timing only); after a demand move that found
no position, one of NEWMAP = 1 where there is one (R81). -/
def fillWay (s : State) (p v l : Nat) (locs : List Nat) (moved : Bool) : Option (State × Nat) :=
  let x := slotOf s p v
  let pick (new : Bool) : Option Nat := locs.find? fun loc => match mfind x.lines loc with | some y => lineStable s l loc y && (!new || y.newmap) | none => false
  match freeWay s l x locs with
  | some loc => some (s, loc)
  | none => (if moved then (pick true).or (pick false) else pick false).map fun loc => (evictLine s p v loc, loc)

/-! ## Moves (R81, R82) -/

/-- The line already sits at its own new position. -/
def atHome (x : Slot) (loc : Nat) (y : Line) : Bool := (waysOf x.newRecd (y.addr * recLine x.newRecd)).contains loc

/-- The position MoveLine chooses (R81): an invalid way of the new set, or that of an unswept line, which is evicted first. A way whose line is in a transaction
of its agent counts as none: where it is the only one, the line to be moved leaves the cache (notes/assumptions/28.md). -/
def movePlace (s : State) (p v loc : Nat) (y : Line) : Option (State × Nat) :=
  let x := slotOf s p v
  let l := recLine x.newRecd
  let locs := (waysOf x.newRecd (y.addr * l)).filter fun n => !away s p (agentOfLoc n)
  match freeWay s l x locs with
  | some n => some (s, n)
  | none =>
    (locs.find? fun n => match mfind x.lines n with
      | some z => !z.newmap && !atHome x n z && lineStable s l n z && n != loc
      | none => false).map fun n => (evictLine s p v n, n)

/-- MoveLine (R81) of a stable line: in place, to the position chosen, or out of the cache when there is none. The move between agents asks the home (R82);
it waits while the new agent has a request of its own for a granule of the line under way, or another line over one of the granules is moving. What other lines of the old agent show of a granule goes
with it, since one agent answers for all of a granule (R65). -/
def moveLine (s : State) (p v loc : Nat) (y : Line) : State :=
  let x := slotOf s p v
  let l := recLine x.newRecd
  if atHome x loc y then putLine s p v loc { y with newmap := true }
  else match movePlace s p v loc y with
    | none => evictLine s p v loc
    | some (k, n) =>
      let a := agentOfLoc loc
      let b := agentOfLoc n
      let gks := (lineGrans l y.addr).filter (copyLive s a)
      if a == b then putLine (setLines k p v (mdel (slotOf k p v).lines loc)) p v n { y with newmap := true }
      else if !gks.all (fun gk => match copyOf k b gk with | some c => c.st == .s | none => true) then s
      else if gks.any (fun gk => anyLine k a gk fun _ z => z.mv.isSome && !z.newmap) then s
      else
        let k := putLine (putLine k p v loc { y with mv := some n }) p v n { y with newmap := true, mv := some loc, sp := none }
        posts k (gks.map fun gk => Event.move p v gk a b (match copyOf k a gk with | some c => c.st == .m && c.mask != 0 | none => false))

/-! ## The agent and the home -/

def wantsWrite (k : AccKind) : Bool := k == .write || k == .amo

/-- The requester's partition holds the region of a device granule (R93). -/
def regionOk (s : State) (p gk : Nat) : Bool := isHostGran gk || regionOwner s (gk * 128) == some p

/-- An access that the grants do not allow (R93), after what comes before that in R274's order: a piece that holds it or traps it, and poison for a load. -/
def refusedReach (s : State) (w : Who) (gk : Nat) (k : AccKind) : Reach :=
  match clash s gk (wantsWrite k) w.tile w.unit w.ev with
  | .trap => .err s cRSVC 0
  | .held s => .wait s
  | .free =>
    let s := logHome s w.part (if w.pk / 128 == gk then w.pk else gk * 128)
    if k == .read && s.psn.contains gk then .err s cPOISON 0 else .err s cPROT 4

/-- An access through agent a: on its copy, or after a request (R102). A copy made for another partition leaves first (R96). -/
def agentReach (s : State) (w : Who) (a gk : Nat) (k : AccKind) : Reach :=
  if s.fenced.contains a then (if w.tile == a then .wait s else .err s cPOISON 0)
  else if !regionOk s w.part gk then refusedReach s w gk k
  else match errFor s a gk w.ev with
  | some x => .err { s with errs := s.errs.erase x } (x.2.2 % 256) (x.2.2 / 256)
  | none =>
    let ask : Reach := .wait (request s w.part a gk (wantsWrite k) w.ev)
    match copyOf s a gk with
    | none => ask
    | some c =>
      if c.part != w.part then .wait (evict s a gk)
      else if !wantsWrite k then (if c.st.holds then .copy s a else .wait s)
      else match c.st with
        | .m => .copy s a
        | .e => .copy (setCopy s a gk { c with st := .m }) a
        | .s => ask
        | _ => .wait s

/-- The unit holds a live piece that covers the granule (R112); with wr, one that lets it write. -/
def ownPiece (s : State) (w : Who) (gk : Nat) (wr : Bool) : Bool :=
  s.pieces.any fun x => x.tile == w.tile && x.unit == w.unit && x.part == w.part && x.live && (x.wr || !wr) && covers x gk

/-- The access waits at the home for its turn (R192). -/
def turn (s : State) (w : Who) (gk : Nat) : Reach := .wait (if (mfind s.txns gk).isSome then waitTurn s gk w.ev else s)

/-- An access performed at home (R67, R106, R112 to R114): the home recalls what stands against it first, and accesses that wait are taken in arrival
order (R192). The holder of a piece makes no directory lookup for what its piece lets it do. A scalar store whose tile's L1 alone holds the granule
clean is performed beside that copy (R68). -/
def homeReach (s : State) (w : Who) (gk : Nat) (k : AccKind) : Reach :=
  let wr := wantsWrite k
  if s.fenced.contains w.tile then .wait s
  else if (stackOf s (granStack gk)).stopped then .wait s
  else if (mfind s.txns gk).isSome then turn s w gk
  else match clash s gk wr w.tile w.unit w.ev with
    | .trap => .err s cRSVC 0
    | .held s => .wait s
    | .free =>
      if !regionOk s w.part gk then refusedReach s w gk k
      else if ownPiece s w gk wr then .home s
      else match dirOf s gk with
      | none => .home s
      | some d =>
        if (vote d).isNone then .wait (machineCheck s (granStack gk))
        else if d.bad then turn (recallBad s gk d) w gk
        else if isHostGran gk && ownp d != w.part then turn (recallAll s gk) w gk
        else if !wr then (if d.owned then turn (recallShared s gk) w gk else .home s)
        else if w.l1 && !d.coarse && d.ptrs == [w.tile] && l1Own s w.tile gk && !lineShows s w.tile gk
            && (match copyOf s w.tile gk with | some c => c.st == .s || c.st == .e | none => false) then .home s
        else turn (recallAll s gk) w gk

/-- A fill of a line fetches its other granule too (R65, R74). -/
def fillRest (s : State) (p a l addr gk : Nat) : State :=
  (lineGrans l addr).foldl (fun s g => if g != gk && regionOk s p g then request s p a g false none else s) s

/-- The line of a CACHE slot that an access meets: in the new placement, or, during a migration, in the old one (R79). -/
def cacheLine (s : State) (p : Nat) (x : Piece) : Option (Nat × Line × Bool) :=
  let sl := slotOf s p x.vcid
  let r := slotRec sl
  let addr := x.pk / recLine r
  match heldLine s (recLine r) sl (waysOf r x.pk) addr (if sl.st == .migrating then some true else none) with
  | some (loc, y) => some (loc, y, false)
  | none =>
    (if sl.st == .migrating then heldLine s (recLine r) sl (waysOf sl.recd x.pk) addr (some false) else none).map fun (loc, y) => (loc, y, true)

/-- The other half of the granule of a piece, where lines are 64 bytes. -/
def otherHalf (x : Piece) : Piece := let o := x.pk % 128; { x with pk := x.pk - o + (if o < 64 then 64 else 0), n := 64 }
/-- A way that may take the line of a piece: in a bank whose tile runs the partition, and, where the cache holds the other half of the granule, in a bank
of the agent that holds it, since the cache is one agent for the granule (R65). -/
def fillWays (s : State) (p : Nat) (x : Piece) : List Nat :=
  let r := slotRec (slotOf s p x.vcid)
  let mate := if recLine r == 64 then (cacheLine s p (otherHalf x)).map fun y => agentOfLoc y.1 else none
  (waysOf r x.pk).filter fun n => !away s p (agentOfLoc n) && (mate.isNone || mate == some (agentOfLoc n))
/-- A miss in a CACHE slot that allocates (R62, R66): the line takes a way, and its granules are fetched. With no way that may take it the access is served
from home. -/
def fillReach (s : State) (w : Who) (x : Piece) (k : AccKind) (moved : Bool) : Reach :=
  let v := x.vcid
  let gk := x.pk / 128
  let sl := slotOf s w.part v
  let l := recLine (slotRec sl)
  let addr := x.pk / l
  let locs := fillWays s w.part x
  if locs.isEmpty then homeReach s w gk k
  else match fillWay s w.part v l locs moved with
    | none => .wait s
    | some (s, loc) =>
      let s := newLine s w.part v loc addr (sl.st == .migrating)
      agentReach (fillRest s w.part (agentOfLoc loc) l addr gk) w (agentOfLoc loc) gk k

/-- Access to a CACHE slot (R62, R66, R79). -/
def cacheReach (s : State) (w : Who) (x : Piece) (k : AccKind) : Reach :=
  let v := x.vcid
  let gk := x.pk / 128
  let sl := slotOf s w.part v
  let r := slotRec sl
  let l := recLine r
  let passes := wantsWrite k && (recPolicy r == 1 || recPolicy r == 2)
  match cacheLine s w.part x with
  | some (loc, y, old) =>
    if y.mv.isSome then .wait s
    else if away s w.part (agentOfLoc loc) then homeReach s w gk k
    else if !old then
      if passes && !copyLive s (agentOfLoc loc) gk then homeReach s w gk k else agentReach s w (agentOfLoc loc) gk k
    else if !wantsWrite k then agentReach s w (agentOfLoc loc) gk k
    else if !lineStable s l loc y then .wait s
    else if atHome sl loc y || (movePlace s w.part v loc y).isSome then .wait (moveLine s w.part v loc y)
    else
      let s := evictLine s w.part v loc
      if passes then homeReach s w gk k else fillReach s w x k true
  | none => if passes then homeReach s w gk k else fillReach s w x k false

/-- The 64-byte blocks of its line that a piece lies in. -/
def pieceBlocks (l : Nat) (x : Piece) : List Nat :=
  (List.range ((x.pk % l + x.n - 1) / 64 - x.pk % l / 64 + 1)).map fun j => x.pk % l / 64 + j
/-- A block of the piece is claimed by a copy other than the one that makes the access (R74, R75). -/
def claimed (w : Who) (y : Line) (bs : List Nat) : Bool :=
  bs.any fun b => y.cb.toNat / 2 ^ b % 2 == 1 && !(w.unit == 8 && y.jobs.contains (b, w.job))

/-- Access to a STASH slot (R72 to R76): a claimed block waits; another line's tag is evicted; an absent block is a first touch, which fetches the whole
line, and LB is set on the blocks of a granule as it arrives. -/
def stashReach (s : State) (w : Who) (x : Piece) (k : AccKind) : Reach :=
  let v := x.vcid
  let gk := x.pk / 128
  let sl := slotOf s w.part v
  let r := slotRec sl
  let l := recLine r
  let addr := x.pk / l
  let loc := stashLoc r x.va
  let a := agentOfLoc loc
  let touch (s : State) : Reach :=
    match agentReach s w a gk k with
    | .copy s a => .copy (landBits s a gk) a
    | .wait s => .wait (fillRest s w.part a l addr gk)
    | r => r
  match mfind sl.lines loc with
  | some y =>
    if y.addr == addr && claimed w y (pieceBlocks l x) then .wait s
    else if away s w.part a then homeReach s w gk k
    else if y.addr == addr then touch s
    else if lineStable s l loc y then .wait (evictLine s w.part v loc)
    else .wait s
  | none =>
    if away s w.part a then homeReach s w gk k
    else touch (newLine s w.part v loc addr false)

/-- The slot serves its pages from home (R67). -/
def servedHome (x : Slot) : Bool :=
  x.st == .empty || x.st == .draining || x.st == .faulted || recNsh (slotRec x) == 0

/-- Where an access to a piece within one line is performed. -/
def reachPart (s : State) (w : Who) (x : Piece) (k : AccKind) : Reach :=
  let gk := x.pk / 128
  let w := { w with pk := x.pk }
  if turnDue s w then .wait s
  else if ownPiece s w gk false then homeReach s w gk k
  else
    let sl := slotOf s w.part x.vcid
    if servedHome sl then
      if w.l1 && !wantsWrite k then agentReach s w w.tile gk k else homeReach s w gk k
    else if recKind (slotRec sl) == 1 then stashReach s w x k
    else cacheReach s w x k

/-- The parts of a piece that lines of its slot take: with 64-byte lines the two halves of a granule are looked up and filled each for itself (R65, R72). -/
def lineParts (s : State) (w : Who) (x : Piece) : List Piece :=
  let sl := slotOf s w.part x.vcid
  let n1 := 64 - x.pk % 64
  if x.io || servedHome sl || recLine (slotRec sl) != 64 || x.n ≤ n1 then [x]
  else [{ x with n := n1 }, { x with pk := x.pk + n1, n := x.n - n1, va := x.va + BitVec.ofNat 64 n1 }]
/-- Where an access to a piece within one granule is performed: at home, or at the agent whose lines take its parts. -/
def reach (s : State) (w : Who) (x : Piece) (k : AccKind) : Reach :=
  match lineParts s w x with
  | [y, z] =>
    match reachPart s w y k with
    | .copy s a =>
      match reachPart s w z k with
      | .copy s b => if a == b then .copy s a else .wait (evict s b (x.pk / 128))
      | .home s => .wait s
      | r => r
    | r => r
  | _ => reachPart s w x k

/-! ## The scalar L1 (R68 to R71) -/

/-- The L1 of tile t holds the granule: the agent whose copy it shows, if that copy is valid. -/
def l1Find (s : State) (t gk : Nat) : Option Nat :=
  match (tileOf s t).l1.find? fun x => x.gk == gk with
  | some e => match copyOf s e.agent gk with
    | some c => if c.st.holds then some e.agent else none
    | none => none
  | none => none

/-- An L1 line goes: its agent leaves with its notice where the L1 alone showed the copy; a line that sheltered nothing else has SP = 0. -/
def l1Leave (s : State) (t : Nat) (e : L1E) : State :=
  let s := setTile s t { tileOf s t with l1 := (tileOf s t).l1.filter fun x => x.gk != e.gk }
  if e.own then (if lineShows s t e.gk then s else evict s t e.gk)
  else eachLine s e.agent e.gk fun l y => { y with sp := y.sp.filter fun u => sheltered s u e.agent (lineGrans l y.addr) }

/-- Room in the L1 (512 lines): the oldest leaves. -/
def l1Room (s : State) (t : Nat) : State :=
  match (tileOf s t).l1.drop 511 with
  | [] => s
  | e :: _ => l1Leave s t e

def l1Add (s : State) (t : Nat) (e : L1E) : State :=
  let s := l1Room s t
  let x := tileOf s t
  setTile s t { x with l1 := e :: x.l1.filter fun y => y.gk != e.gk }

/-- The place of the line that serves an access of partition p, if a slot's line does. -/
def linePlace (s : State) (p : Nat) (x : Piece) : Option Nat :=
  let sl := slotOf s p x.vcid
  if servedHome sl then none
  else if recKind (slotRec sl) == 1 then
    let loc := stashLoc (slotRec sl) x.va
    (mfind sl.lines loc).bind fun y => if y.addr == x.pk / recLine (slotRec sl) then some loc else none
  else (cacheLine s p x).map (·.1)

/-- An L1 fill for partition p from agent a's copy (R69): sheltered by the line, whose SP it sets, or registered as the tile's own agent where the line
shelters another tile's L1, and on a miss served from home. -/
def l1Fill (s : State) (p t a : Nat) (x : Piece) : State :=
  let gk := x.pk / 128
  match linePlace s p x with
  | none => l1Add s t ⟨gk, t, true⟩
  | some loc =>
    match mfind (slotOf s p x.vcid).lines loc with
    | none => s
    | some y =>
      if (tileOf s t).l1.any fun e => e.gk == gk && (e.own || e.agent == a) then s
      else if y.sp == none || y.sp == some t then putLine (l1Add s t ⟨gk, a, false⟩) p x.vcid loc { y with sp := some t }
      else request (l1Add s t ⟨gk, t, true⟩) p t gk false none

/-- The granules of the line that shows the bytes of a piece: two where lines are 256 bytes (R65). -/
def lineMates (s : State) (p : Nat) (x : Piece) : List Nat :=
  let sl := slotOf s p x.vcid
  if servedHome sl then [x.pk / 128] else lineGrans (recLine (slotRec sl)) (x.pk / recLine (slotRec sl))
/-- A vector store or VAMO takes away the tile's sheltered L1 copies of the line, which then has SP = 0 (R70), and the L1's own copy of the granule. -/
def l1Drop (s : State) (w : Who) (a : Nat) (x : Piece) : State :=
  ((tileOf s w.tile).l1.filter fun e => e.gk == x.pk / 128 || (!e.own && e.agent == a && (lineMates s w.part x).contains e.gk)).foldl
    (fun s e => l1Leave s w.tile e) s

/-! ## Bytes -/

/-- The answer of an access. -/
inductive Acc where
  | ok (s : State) (bs : List Byte)
  | wait (s : State)
  | err (s : State) (cause sub : Nat)
deriving DecidableEq, Repr

/-- Bytes of a run from a copy's data. -/
def copyBytes (c : Copy) (x : Piece) : List Byte := (List.range x.n).map fun i => granByte c.data (x.pk % 128 + i)
def homeBytes (s : State) (pk n : Nat) : List Byte := (List.range n).map fun i => homeByte s (pk + i)

/-- Writes bytes at home; a full-granule write of one instruction or command clears PSN (R107, R461). -/
def putHome (s : State) (pk : Nat) (bs : List Byte) : State :=
  match bs with
  | [] => s
  | b :: r => putHome (setHomeByte s pk b) (pk + 1) r
def putCopy (d : BitVec 1024) (m : BitVec 128) (i : Nat) (bs : List Byte) : BitVec 1024 × BitVec 128 :=
  match bs with
  | [] => (d, m)
  | b :: r => putCopy (setGranByte d i b) (setMaskBit m i) (i + 1) r

/-- The slot writes through (R66): the home's bytes follow a store at once, and the line is never dirty. -/
def writesThrough (s : State) (w : Who) (x : Piece) : Bool :=
  let sl := slotOf s w.part x.vcid
  !servedHome sl && recPolicy (slotRec sl) == 1

/-- A stream engine or an awl writes a granule by parts: whether this part completes the bytes of a poisoned one, of which the parts written since count
(R107, R461). -/
def ownWhole (s : State) (w : Who) (x : Piece) (poisoned : Bool) : State × Bool :=
  if !poisoned || !(w.unit < 8 || (16 ≤ w.unit && w.unit < 32)) then (s, false)
  else
    let key := (w.tile * 32 + w.unit) * 2 ^ 46 + x.pk / 128
    let m := mgetD s.wrote key 0 ||| BitVec.ofNat 128 ((2 ^ x.n - 1) * 2 ^ (x.pk % 128))
    if m == BitVec.allOnes 128 then ({ s with wrote := mdel s.wrote key }, true) else ({ s with wrote := mput s.wrote key m }, false)
/-- A command begins at the unit: what the one before wrote counts no more. -/
def forgetWrote (s : State) (tile unit : Nat) : State := { s with wrote := s.wrote.filter fun (k, _) => k / 2 ^ 46 != tile * 32 + unit }

/-- The bytes written at the place reached; monitors of the granule are notified (R279). A granule written whole counts as written at the home too, whose
PSN it clears, though its bytes stay in an agent's copy until they are written back (R66, R107, R461). -/
def writeAt (s : State) (w : Who) (x : Piece) (at' : Option Nat) (bs : List Byte) (full : Bool) : State :=
  let gk := x.pk / 128
  let (s, parts) := ownWhole s w x (match at' with
    | none => s.psn.contains gk
    | some a => match copyOf s a gk with | some c => c.psn | none => false)
  let clears := (full && bs.length == 128) || parts
  let s := match at' with
    | none =>
      let s := putHome s x.pk bs
      let s := if clears then clearPsn s gk else s
      match copyOf s w.tile gk with
      | some c => if l1Own s w.tile gk && w.l1 then setCopy s w.tile gk { c with data := (putCopy c.data 0 (x.pk % 128) bs).1 } else s
      | none => s
    | some a =>
      match copyOf s a gk with
      | none => s
      | some c =>
        let (d, m) := putCopy c.data c.mask (x.pk % 128) bs
        if writesThrough s w x then
          let s := putHome (setCopy s a gk { c with data := d, psn := c.psn && !clears }) x.pk bs
          if clears then clearPsn s gk else s
        else
          let s := setCopy s a gk { c with data := d, mask := m, psn := c.psn && !clears }
          if clears then clearPsn s gk else s
  notifyGran s gk

/-- Reads a piece (R107: poison is an error). -/
def accRead (s : State) (w : Who) (x : Piece) : Acc :=
  match reach s w x .read with
  | .wait s => .wait s
  | .err s c sb => .err s c sb
  | .home s => if s.psn.contains (x.pk / 128) then .err s cPOISON 0 else .ok s (homeBytes s x.pk x.n)
  | .copy s a =>
    match copyOf s a (x.pk / 128) with
    | none => .wait s
    | some c =>
      if c.psn then .err s cPOISON 0
      else .ok (if w.l1 then l1Fill s w.part w.tile a x else s) (copyBytes c x)

/-- Writes a piece. -/
def accWrite (s : State) (w : Who) (x : Piece) (bs : List Byte) (full : Bool) : Acc :=
  match reach s w x .write with
  | .wait s => .wait s
  | .err s c sb => .err s c sb
  | .home s => .ok (writeAt s w x none bs full) []
  | .copy s a => .ok (writeAt (if w.l1 then s else l1Drop s w a x) w x (some a) bs full) []

/-- A read-modify-write of a piece: f gives the bytes to write, if any; answers the old bytes (R106, R107). -/
def accRmw (s : State) (w : Who) (x : Piece) (f : List Byte → Option (List Byte)) : Acc :=
  match reach s { w with l1 := false } x .amo with
  | .wait s => .wait s
  | .err s c sb => .err s c sb
  | .home s =>
    if s.psn.contains (x.pk / 128) then .err s cPOISON 0
    else
      let old := homeBytes s x.pk x.n
      match f old with
      | some bs => .ok (writeAt s { w with l1 := false } x none bs false) old
      | none => .ok s old
  | .copy s a =>
    match copyOf s a (x.pk / 128) with
    | none => .wait s
    | some c =>
      if c.psn then .err s cPOISON 0
      else match f (copyBytes c x) with
        | some bs => .ok (writeAt (if w.l1 then s else l1Drop s w a x) w x (some a) bs false) (copyBytes c x)
        | none => .ok s (copyBytes c x)

/-- A byte with one nibble replaced. -/
def withNibble (hi : Bool) (v : Nat) (old : Byte) : Byte :=
  BitVec.ofNat 8 (if hi then v % 16 * 16 + old.toNat % 16 else old.toNat / 16 * 16 + v % 16)
/-- A 4-bit store writes its nibble of a byte under ownership: a write under a mask, also of a poisoned granule (R107, R131). -/
def accNibble (s : State) (w : Who) (x : Piece) (hi : Bool) (v : Nat) : Acc :=
  let new (old : List Byte) : List Byte := old.map (withNibble hi v)
  match reach s w x .write with
  | .wait s => .wait s
  | .err s c sb => .err s c sb
  | .home s => .ok (writeAt s w x none (new (homeBytes s x.pk 1)) false) []
  | .copy s a =>
    match copyOf s a (x.pk / 128) with
    | none => .wait s
    | some c => .ok (writeAt (l1Drop s w a x) w x (some a) (new (copyBytes c { x with n := 1 })) false) []

/-- Reads the pieces of one access in turn, together (R273). -/
def accReads (s : State) (w : Who) (xs : List Piece) : Acc :=
  match xs with
  | [] => .ok s []
  | x :: r =>
    match accRead s w x with
    | .ok s bs =>
      match accReads s w r with
      | .ok s cs => .ok s (bs ++ cs)
      | e => e
    | e => e

/-- Every piece can be written now, so that the bytes of one access land in one step. -/
def accReady (s : State) (w : Who) (xs : List Piece) (k : AccKind) : Acc :=
  match xs with
  | [] => .ok s []
  | x :: r =>
    match reach s w x k with
    | .wait s => .wait s
    | .err s c sb => .err s c sb
    | .home s => accReady s w r k
    | .copy s _ => accReady s w r k

/-- Writes the pieces of one access; a piece that covers its granule whole is a full-granule write when full says so. -/
def accWrites (s : State) (w : Who) (xs : List Piece) (bs : List Byte) (full : Bool) : Acc :=
  match xs with
  | [] => .ok s []
  | x :: r =>
    match accWrite s w x (bs.take x.n) full with
    | .ok s _ => accWrites s w r (bs.drop x.n) full
    | e => e

/-! ## The slot word (R77) -/

/-- The segments of a share: bank * 16 + segment. -/
def shareSegs (d : Nat) : List Nat := (List.range (shSegs d)).map fun i => shBank d * 16 + shFirst d + i

def slotCode (x : SlotSt) : Nat :=
  match x with
  | .empty => 0
  | .active => 1
  | .migrating => 2
  | .draining => 3
  | .faulted => 4
/-- The record VCQRY reports: during FAULTED the one whose shares are drained, the new one after a migration. -/
def reported (x : Slot) : List Word :=
  match x.st with
  | .migrating => x.newRecd
  | .draining => if x.pending then x.newRecd else x.recd
  | .faulted => if !x.pending && !x.newRecd.isEmpty then x.newRecd else x.recd
  | _ => x.recd
/-- The slot word (R77); a line that a probe has made invalid is drained. -/
def slotWord (s : State) (x : Slot) : Word :=
  let r := reported x
  let todo := match x.st with
    | .migrating => recBytes x.recd / recLine x.recd - x.sweep
    | .draining => (x.lines.filter fun (loc, y) => lineLive s (recLine x.recd) loc y).length
    | .faulted => (x.lines.filter fun (loc, y) => lineLive s (recLine x.recd) loc y).length
    | _ => 0
  let off := ((List.range 8).map fun j => if j < recNsh r && (shareSegs (recShare r j)).any s.offline.contains then 2 ^ j else 0).sum
  if x.st == .empty then 0
  else BitVec.ofNat 64 (slotCode x.st + recKind r * 2 ^ 3 + bits (r.getD 0 0) 3 2 * 2 ^ 5 + recNsh r * 2 ^ 7 + todo % 2 ^ 32 * 2 ^ 16 + off * 2 ^ 48)

end Sys2Proof.Machine
end

