-- ==== Sys2Proof/Machine/Records.lean ====
section
/-! DEFINITION. What the X1 writes to a partition's supervisor: fault records and notices (R420 to R422), BANK records (R87),
translation service requests (R46 to R48); and the counter space of a tile's Harness (R31, R361 to R365). -/

namespace Sys2Proof.Machine
open Sys2Proof

/-! ## The fault stream (R420) -/

/-- A queue register enables a queue of 2^LOG2N records for LOG2N from 4 to 10 (R47, R420): its base and its length. -/
def queueOf (w : Word) : Option (Nat × Nat) :=
  let n := bits w 3 0
  if 4 ≤ n && n ≤ 10 then some (bits w 51 16 * 2 ^ 16, 2 ^ n) else none

/-- A fault record's fields (R421): cause, source, unit, tile, address, tag and the 256-bit body (R422). -/
structure FRec where
  cause : Nat
  src : Nat
  unit : Nat
  tile : Nat
  va : Word
  tag : Word
  body : Nat
deriving DecidableEq, Repr

/-- The 64 bytes of record number seq; a BANK body carries the same SEQ (R87, R422). -/
def FRec.bytes (r : FRec) (seq : Nat) : List Byte :=
  let body := r.body + (if r.src == 5 then seq % 2 ^ 63 * 2 ^ 192 else 0)
  leBytes 8 (r.cause + r.src * 2 ^ 8 + r.unit * 2 ^ 12 + r.tile * 2 ^ 19) ++ leBytes 8 (r.va.toNat % 2 ^ 55) ++ leBytes 8 r.tag.toNat
    ++ leBytes 8 (seq % 2 ^ 63) ++ leBytes 32 body

/-- Delivers a record to partition p's fault stream; with no room it is counted in fsdrop and written to a black box (R420), that of
I/O die 0 (notes/assumptions/20.md). -/
def faultRecord (s : State) (p : Nat) (r : FRec) : State :=
  let x := partOf s p
  let drop : State :=
    let n := min (x.fsdrop.toNat + 1) (2 ^ 32 - 1)
    boxAdd (setPart s p { x with fsdrop := BitVec.ofNat 64 n }) 8 7 p r.va.toNat r.cause
  match queueOf x.fsqb with
  | none => drop
  | some (base, n) =>
    if x.fsProduced - bits x.fscons 62 0 < n then
      let s := pokesFor s p (base + 128 + x.fsProduced % n * 64) (r.bytes x.fsProduced)
      let s := pokesFor s p base (leBytes 8 (x.fsProduced + 1))
      setPart s p { partOf s p with fsProduced := x.fsProduced + 1 }
    else drop

/-- A record of work that fails at an address: body PA and hart (R422). -/
def workRecord (s : State) (p src unit tile : Nat) (m : Mark) (tag : Word) (hart : Nat) : State :=
  faultRecord s p { cause := m.cause, src, unit, tile, va := m.addr, tag, body := m.pa + hart * 2 ^ 64 }

/-- Notices: 1 agent fenced, 2 crossbar path fenced, 3 node ended through nend (R422). -/
def noticeRecord (s : State) (p kind agent : Nat) (tag : Word) (tile : Nat) : State :=
  faultRecord s p { cause := 0, src := 7, unit := 0, tile, va := 0, tag, body := kind + agent * 2 ^ 8 }

/-- The BANK record of a share (R87): slot, descriptor, why, bank, segment, lines dropped and lines poisoned. A share may lie in a bank of no tile: TILE is 0
(notes/assumptions/20.md). -/
def bankRecord (s : State) (p v desc : Nat) (revoked : Bool) (bank seg dropped poisoned : Nat) : State :=
  faultRecord s p
    { cause := 9, src := 5, unit := 0, tile := 0, va := 0, tag := 0
      body := v + desc * 2 ^ 6 + revoked.toNat * 2 ^ 9 + bank * 2 ^ 16 + seg * 2 ^ 27 + dropped * 2 ^ 32 + poisoned * 2 ^ 64 }

/-! ## Translation service requests (R46 to R48) -/

/-- The id a request gets: the first, from the next one to try, that no unanswered request has (R48) and no answer is held against (R405). -/
def freeTsId (x : Part) : Nat :=
  (((List.range (x.tsReqs.length + x.held.length + 1)).map fun j => (x.tsNext + j) % 2 ^ 16).find? fun i =>
    !x.tsReqs.any (·.id == i) && (mfind x.held i).isNone).getD 0

/-- The fault kind of a request: FK in bit 0, and above it the detail of a PROT that a FAIL leaves in ecause.SUB (R48, R341, R411). -/
def faultKind (c sb : Nat) : Nat := if c == cPROT then 1 + 2 * sb else 0

/-- A source asks for service and stalls: its request waits to be written to the queue (R46, R47). -/
def askService (s : State) (p : Nat) (va : Word) (src unit tile acc fk : Nat) (tag : Word) (cmd : Nat) : State :=
  let x := partOf s p
  let id := freeTsId x
  let q : TsReq := ⟨id, va, src, unit, tile, acc, fk, tag, false, cmd⟩
  post (setPart s p { x with tsNext := id + 1, tsReqs := x.tsReqs ++ [q] }) (.tsqRecordWrite p)

/-- The id `askService` gives next. -/
def serviceId (s : State) (p : Nat) : Nat := freeTsId (partOf s p)

/-- The 32 bytes of a request's record (R48). -/
def TsReq.bytes (r : TsReq) (seq : Nat) : List Byte :=
  leBytes 8 (r.va.toNat % 2 ^ 55) ++ leBytes 8 (r.id + r.src * 2 ^ 16 + r.unit % 16 * 2 ^ 20 + r.tile * 2 ^ 24 + r.acc * 2 ^ 33 + r.fk % 2 * 2 ^ 35)
    ++ leBytes 8 r.tag.toNat ++ leBytes 8 (seq % 2 ^ 63)

/-- Writes the oldest held request when the queue is enabled and has room, the producer word last (R47). -/
def tsqWrite (s : State) (p : Nat) : State :=
  let x := partOf s p
  match queueOf x.tsqb, x.tsReqs.find? fun r => !r.written with
  | some (base, n), some r =>
    if x.tsProduced - bits x.tscons 62 0 < n then
      let s := pokesFor s p (base + 128 + x.tsProduced % n * 32) (r.bytes x.tsProduced)
      let s := pokesFor s p base (leBytes 8 (x.tsProduced + 1))
      let x := partOf s p
      let l := x.tsReqs.map fun q => if q.id == r.id then { q with written := true } else q
      setPart s p { x with tsProduced := x.tsProduced + 1, tsReqs := l }
    else s
  | _, _ => s

/-! ## Counters (R31, R361 to R365) -/

def ctrKey (tile k : Nat) : Nat := tile * 512 + k
def counter (s : State) (tile k : Nat) : Word := mgetD s.ctr (ctrKey tile k) 0
/-- The address of a counter in counter space, and the granule number its monitors use (R31, R279). -/
def counterAddr (tile k : Nat) : Nat := 0x40100000000 + tile * 65536 + k * 8
def counterGran (tile k : Nat) : Nat := 2 ^ 46 + counterAddr tile k / 128
/-- A counter's new value: monitors are notified and the Harness examines its posts, before another raise is applied (R279, R357, R360, R365). -/
def setCounter (s : State) (tile k : Nat) (v : Word) : State :=
  let s := notifyGran { s with ctr := mset 0 s.ctr (ctrKey tile k) v } (counterGran tile k)
  if (tileOf s tile).posts.any (·.k == k) then { s with agenda := .postExamine tile k :: s.agenda } else s
/-- A raise applied at the Harness, modulo 2^64 (R363, R364). -/
def raiseCounter (s : State) (tile k : Nat) (amount : Word) : State := setCounter s tile k (counter s tile k + amount)

/-- A raise sent by tile t towards the Harness that holds the counter (R365, class 6 of R166). -/
def sendRaise (s : State) (t tile k : Nat) (amount : Word) : State :=
  post (useCircuit s t (6 * 1024 + tile / 128)) (.counterRaise tile k amount)

end Sys2Proof.Machine
end

