-- ==== Sys2Proof/Machine/VFile.lean ====
section
/-! DEFINITION. The vector register file of a tile as a hart sees it: lane partitions, rows, element groups with their full/empty bits, masks
and sidecars (R173 to R177, R182, R228, R314). -/

namespace Sys2Proof.Machine
open Sys2Proof

/-- The lane groups of a partition, in order (R174). -/
def laneList (l : BitVec 4) : List Nat := below 4 fun g => l.toNat / 2 ^ g % 2 == 1
/-- Row bytes of a hart (R174). -/
def rowBytes (l : BitVec 4) : Nat := 256 * (laneList l).length
/-- The byte of the tile's row that a hart's own row byte b is (R174). -/
def tileByte (l : BitVec 4) (b : Nat) : Nat := (laneList l).getD (b / 256) 0 * 256 + b % 256

def vKey (reg row b : Nat) : Nat := (reg * 8 + row) * 1024 + b
def vByteAt (t : Tile) (l : BitVec 4) (reg row b : Nat) : Byte := mgetD t.v (vKey reg row (tileByte l b)) 0
def setVByteAt (t : Tile) (l : BitVec 4) (reg row b : Nat) (x : Byte) : Tile :=
  { t with v := mset 0 t.v (vKey reg row (tileByte l b)) x }
/-- n row bytes from b on. -/
def vBytesAt (t : Tile) (l : BitVec 4) (reg row b n : Nat) : List Byte := (List.range n).map fun i => vByteAt t l reg row (b + i)
def setVBytesAt (t : Tile) (l : BitVec 4) (reg row b : Nat) (xs : List Byte) : Tile :=
  match xs with
  | [] => t
  | x :: r => setVBytesAt (setVByteAt t l reg row b x) l reg row (b + 1) r

/-- An element of w bits (4, 8, 16, 32 or 64) as a number (R174). -/
def vElem (t : Tile) (l : BitVec 4) (reg row w i : Nat) : Nat :=
  if w == 4 then (vByteAt t l reg row (i / 2)).toNat / (if i % 2 == 0 then 1 else 16) % 16
  else leNat (vBytesAt t l reg row (i * (w / 8)) (w / 8))
def setVElem (t : Tile) (l : BitVec 4) (reg row w i v : Nat) : Tile :=
  if w == 4 then
    let old := (vByteAt t l reg row (i / 2)).toNat
    let new := if i % 2 == 0 then old / 16 * 16 + v % 16 else v % 16 * 16 + old % 16
    setVByteAt t l reg row (i / 2) (BitVec.ofNat 8 new)
  else setVBytesAt t l reg row (i * (w / 8)) (leBytes (w / 8) v)

/-! ## Element groups (R174 to R177, R314) -/

/-- The element group of a row byte of the hart's own row, as the tile numbers it. -/
def groupKey (l : BitVec 4) (reg row b : Nat) : Nat := (reg * 8 + row) * 16 + tileByte l b / 64
/-- Byte of a row at which own group g starts. -/
def groupByte (g : Nat) : Nat := g * 64
def groupsOf (n : Nat) : List Nat := List.range ((n + 63) / 64)

def vEmptyGroup (t : Tile) (k : Nat) : Tile := { t with vEmpty := k :: t.vEmpty.filter (· != k), vFault := mdel t.vFault k }
def vFullGroup (t : Tile) (k : Nat) : Tile := { t with vEmpty := t.vEmpty.filter (· != k) }
def vMarkGroup (t : Tile) (k : Nat) (m : Mark) : Tile := { t with vFault := mput t.vFault k m }
/-- A write of a group clears its fault mark (R314). -/
def vClearMark (t : Tile) (k : Nat) : Tile := { t with vFault := mdel t.vFault k }

/-- Every group of the registers of a lane partition is full. -/
def lanesFull (t : Tile) (l : BitVec 4) : Bool := t.vEmpty.all fun k => !(laneList l).contains (k % 16 / 4)

/-! ## Masks and sidecars -/

/-- The bit of a mask register's row that the hart's position i has: bits keep their numbers at every SEW (R292), each lane group holding 512. -/
def maskPos (l : BitVec 4) (i : Nat) : Nat := (laneList l).getD (i / 512) 0 * 512 + i % 512
def mBit (t : Tile) (l : BitVec 4) (m row i : Nat) : Bool := (mgetD t.m (m * 8 + row) 0).toNat / 2 ^ maskPos l i % 2 == 1
def setMBit (t : Tile) (l : BitVec 4) (m row i : Nat) (b : Bool) : Tile :=
  let old := mgetD t.m (m * 8 + row) 0
  let p := maskPos l i
  let new := old.toNat - (old.toNat / 2 ^ p % 2) * 2 ^ p + b.toNat * 2 ^ p
  { t with m := mset 0 t.m (m * 8 + row) (BitVec.ofNat 2048 new) }

/-- The place of the hart's sidecar byte j of a row, at element width w and block length bl: in the lane group that holds the first element of block j, after
the blocks that begin there before it (R228). A lane group holds 64 of the 256 bytes of a row. The place is that of the vtype in force at each access
(notes/assumptions/37.md). -/
def sidePos (l : BitVec 4) (w bl j : Nat) : Nat := (laneList l).getD (j * bl * w / 2048) 0 * 64 + j % max 1 (2048 / (w * bl))
def sideKey (l : BitVec 4) (w bl reg row j : Nat) : Nat := (reg * 8 + row) * 256 + sidePos l w bl j
def sideByte (t : Tile) (l : BitVec 4) (w bl reg row j : Nat) : Byte := mgetD t.vside (sideKey l w bl reg row j) 0
def setSide (t : Tile) (place : Nat) (x : Byte) : Tile := { t with vside := mset 0 t.vside place x }
def setSideByte (t : Tile) (l : BitVec 4) (w bl reg row j : Nat) (x : Byte) : Tile := setSide t (sideKey l w bl reg row j) x

end Sys2Proof.Machine
end

