-- ==== Sys2Proof/Machine/Router.lean ====
section
/-! DEFINITION. The stage entries of the cluster routers (R370 to R377): what an entry takes, how an element gathers contributions and
combines them, and the writing of entries. -/

namespace Sys2Proof.Machine
open Sys2Proof

/-- A valid peer group joins package n (R431). -/
def joined (s : State) (n : Nat) : Bool :=
  let w := ctlWord s 0x0C005008
  (List.range 3).any fun g => bitOf w (16 * g + 15) && bits w (16 * g + 8) (16 * g) == n
/-- The path to a package: fenced, or waiting for the crossbar to retrain (R381). -/
def pathFenced (s : State) (n : Nat) : Bool := s.linksDown.contains n || (!joined s n && s.xbarFenced)
def pathWaits (s : State) (n : Nat) : Bool := !joined s n && s.xbarDown

/-- Offset in control space of word j of entry e of the router of cluster c (R370). -/
def rtOff (c e j : Nat) : Nat := 0x80000000 + c * 0x1000 + e * 32 + 8 * j
def rtWord (s : State) (c e j : Nat) : Word := ctlWord s (rtOff c e j)
/-- A word of an entry as it is read: reserved bits read zero (R8). They are held as written, for the check of R371. -/
def rtRead (s : State) (off : Nat) : Word := BitVec.ofNat 64 (bits (ctlWord s off) (match off / 8 % 4 with
  | 0 => 31
  | 1 => 54
  | 2 => 42
  | _ => if bitOf (ctlWord s (off - 24)) 1 then 47 else 31) 0)
def rtMask (s : State) (c e : Nat) : Nat := bits (rtWord s c e 0) 16 9
def rtFunc (s : State) (c e : Nat) : Nat := bits (rtWord s c e 0) 5 2
def rtBase (s : State) (c e : Nat) : Nat := bits (rtWord s c e 1) 54 0
def rtLen (s : State) (c e : Nat) : Nat := bits (rtWord s c e 2) 39 0
/-- The entry is active, of a kind, and takes traffic of a tile of partition p to package d within its range (R372, R377). -/
def rtTakes (s : State) (c e kind t p d pa n : Nat) : Bool :=
  let w := rtWord s c e 0
  bitOf w 0 && bits w 1 1 == kind && rtMask s c e / 2 ^ (t % 8) % 2 == 1 && bits w 31 26 == p && bits w 25 17 == d
    && decide (rtBase s c e ≤ pa) && decide (pa + n ≤ rtBase s c e + rtLen s c e)

/-- Bytes of an element of an RRED function (R372). -/
def redBytes (f : Nat) : Nat := if f == 9 then 2 else 4
/-- The RED function f of R277 and R355 on n bytes; 9 is BFADD (R373, R355). -/
def redNew (f n a b : Nat) : Nat :=
  if f == 9 then (bf16.put 0 false (fpAdd 0 (bf16.read a) (bf16.read b)).1).1 else (amoNew (f + 2) (n == 8) a b 0).getD a

/-- The REDUCE entry that takes a contribution (R372). -/
def rtReduce (s : State) (t p d f pa n : Nat) : Option Nat :=
  (List.range 16).find? fun e => rtTakes s (t / 8) e 0 t p d pa n && rtFunc s (t / 8) e == f
/-- The REPLICATE entry that takes a write within the package (R377). -/
def rtReplicate (s : State) (t p pa n : Nat) : Option Nat := (List.range 16).find? fun e => rtTakes s (t / 8) e 1 t p 0x1FF pa n

/-- An engine's write that an entry replicates begins its copies (R377). -/
def replicate (s : State) (w : Who) (pk : Nat) (bs : List Byte) : State :=
  if w.unit == 100 || 2 ^ 52 ≤ pk then s
  else match rtReplicate s w.tile w.part pk bs.length with
    | none => s
    | some e =>
      let c := w.tile / 8
      let r : Rep :=
        { tile := w.tile, unit := w.unit, job := w.job, part := w.part, pa := pk, stride := toSigned 48 (bits (rtWord s c e 3) 47 0)
          nrep := bits (rtWord s c e 2) 42 40, next := 1, err := false }
      post { s with reps := s.reps ++ [r] } (.routerReplicate w.tile w.part pk bs)
def replicateAll (s : State) (w : Who) (xs : List Piece) (bs : List Byte) : State :=
  match xs with
  | [] => s
  | x :: r => replicateAll (replicate s w x.pk (bs.take x.n)) w r (bs.drop x.n)

/-- Copies of a unit's work are under way, or one was refused (R377). -/
def Rep.open' (r : Rep) : Bool := decide (r.next ≤ r.nrep)
def repBusy (s : State) (mine : Rep → Bool) : Bool := s.reps.any fun r => mine r && r.open'
def repErr (s : State) (mine : Rep → Bool) : Bool := s.reps.any fun r => mine r && r.err
def repClear (s : State) (mine : Rep → Bool) : State := { s with reps := s.reps.filter fun r => !mine r }

/-- The value passes the entry's predicate (R373): NaN passes 1 and fails 2 and 3. -/
def rtPasses (s : State) (c e v : Nat) : Bool :=
  let k := bits (rtWord s c e 3) 31 0
  match bits (rtWord s c e 0) 8 6 with
  | 0 => true
  | 1 => match rtFunc s c e with
    | 8 => v % 2 ^ 31 != 0
    | 9 => v % 2 ^ 15 != 0
    | _ => v != 0
  | p => match rtFunc s c e with
    | 8 => if p == 2 then fpLt (fp32.read k) (fp32.read v) else fpLt (fp32.read v) (fp32.read k)
    | 9 => if p == 2 then fpLt (bf16.read (k % 2 ^ 16)) (bf16.read v) else fpLt (bf16.read v) (bf16.read (k % 2 ^ 16))
    | _ => if p == 2 then decide (toSigned 32 k < toSigned 32 v) else decide (toSigned 32 v < toSigned 32 k)

/-- Combine8 of R373 over tile positions. -/
def pairOf (f n : Nat) (a b : Option Nat) : Option Nat :=
  match a, b with
  | none, b => b
  | a, none => a
  | some x, some y => some (redNew f n x y)
def combine8 (f n : Nat) (x : Nat → Option Nat) : Option Nat :=
  pairOf f n (pairOf f n (pairOf f n (x 0) (x 1)) (pairOf f n (x 2) (x 3))) (pairOf f n (pairOf f n (x 4) (x 5)) (pairOf f n (x 6) (x 7)))
/-- What an element sends on, if any contribution remains. -/
def RElem.value (x : RElem) : Option Nat :=
  combine8 x.func (redBytes x.func) fun j => match x.vals.find? fun v => v.1 == j with | some (_, v, _) => v | none => none

/-- An element leaves with what it has (R374). -/
def rtLeave (s : State) (p : RElem → Bool) : State :=
  { s with relems := s.relems.map fun x => if p x then { x with leaving := true } else x }

/-- A new element, its timer with it (R372, R374). -/
def rtOpen (s : State) (x : Contrib) (e : Nat) (v : Option Nat) (leaving : Bool) : State :=
  let id := s.nextId
  let y : RElem :=
    { cluster := x.tile / 8, elem := id, part := x.part, dpkg := x.dpkg, func := x.func, entry := e, pa := x.pa, tag := x.tag,
      vals := [(x.tile % 8, v, x.origin)], born := s.clock, leaving, sent := false }
  post { newId s with relems := s.relems ++ [y] } (.routerElementTimeout (x.tile / 8) id)

/-- A contribution reaches the router (R372 to R375). -/
def rtContribute (s : State) (x : Contrib) : State :=
  let c := x.tile / 8
  match rtReduce s x.tile x.part x.dpkg x.func x.pa x.bytes.length with
  | none => rtOpen s x 16 (some (leNat x.bytes)) true
  | some e =>
    let v := if rtPasses s c e (leNat x.bytes) then some (leNat x.bytes) else none
    let same (y : RElem) : Bool := y.cluster == c && y.entry == e && y.pa == x.pa && !y.leaving
    match s.relems.find? same with
    | none =>
      if 256 ≤ (s.relems.filter fun y => y.cluster == c && !y.leaving).length then rtOpen s x 16 (some (leNat x.bytes)) true
      else rtOpen s x e v (rtMask s c e == 2 ^ (x.tile % 8))
    | some y =>
      if y.tag != x.tag || y.vals.any (fun z => z.1 == x.tile % 8) then
        rtOpen (rtLeave s fun z => z.elem == y.elem) x e v (rtMask s c e == 2 ^ (x.tile % 8))
      else
        let vals := y.vals ++ [(x.tile % 8, v, x.origin)]
        let full := (below 8 fun j => rtMask s c e / 2 ^ j % 2 == 1).all fun j => vals.any fun z => z.1 == j
        let y' := { y with vals, leaving := full }
        { s with relems := s.relems.map fun z => if z.elem == y.elem then y' else z }

/-- Word 0 with V = 1 is acceptable (R371): reserved fields are 0, FUNC and PRED of a REDUCE and NREP of a REPLICATE are not reserved values, the tiles of the
mask are the partition's, and no range with bytes of its own overlaps another's. -/
def rtValid (s : State) (c e p : Nat) (w : Word) : Bool :=
  let kind := bits w 1 1
  let f := bits w 5 2
  let w1 := rtWord s c e 1
  let w2 := rtWord s c e 2
  let w3 := rtWord s c e 3
  let fields := if kind == 0 then bits w3 63 32 == 0 && [0, 4, 5, 8, 9].contains f && decide (bits w 8 6 ≤ 3)
    else bits w2 42 40 != 0 && bits w3 63 48 == 0
  let base := bits w1 54 0
  let len := bits w2 39 0
  bits w 63 32 == 0 && bits w1 63 55 == 0 && bits w2 63 43 == 0 && fields
    && ((below 8 fun j => bits w 16 9 / 2 ^ j % 2 == 1).all fun j => inTileSet s p (c * 8 + j))
    && (List.range 16).all fun i => i == e || !bitOf (rtWord s c i 0) 0 || len == 0 || rtLen s c i == 0 || decide (base + len ≤ rtBase s c i) || decide (rtBase s c i + rtLen s c i ≤ base)

/-- A supervisor's write of a word of an entry (R371); none: refused, with the state that logs it. -/
def rtWrite (s : State) (t p off : Nat) (w : Word) : State × Bool :=
  let o := off - 0x80000000
  let c := o / 0x1000
  let e := o % 0x1000 / 32
  let j := o % 32 / 8
  let here := (List.range 8).any fun i => inTileSet s p (c * 8 + i)
  let ours := if j == 0 then bits w 31 26 == p else bits (rtWord s c e 0) 31 26 == p || !bitOf (rtWord s c e 0) 0
  if 64 ≤ c || 512 ≤ o % 0x1000 then (logIo s p (0x40000000000 + off), true)
  else if !here then (logTile s t p (0x40000000000 + off), false)
  else if !ours || (j == 0 && bitOf w 0 && !rtValid s c e p w) then (boxAdd s (4 + c / 16) 4 p (0x40000000000 + off) 0, false)
  else
    let s := if bitOf (rtWord s c e 0) 0 then rtLeave s fun x => x.cluster == c && x.entry == e else s
    (setCtl s off w, true)

end Sys2Proof.Machine
end

