-- ==== Sys2Proof/Machine/Mem.lean ====
section
/-! DEFINITION. A hart's accesses on their way: loads and atomics in flight, the store buffer, the tile's merge buffer, and the order in which
they may be performed (R135 to R146, R175, R273 to R277, R459). -/

namespace Sys2Proof.Machine
open Sys2Proof

/-! ## IO words (R31, R32, R370, R430) -/

def inRouterWindow (pk : Nat) : Bool := 0x40080000000 ≤ pk && pk < 0x40080040000

/-- A load of an IO word: counter space, host CXL.io space, or the router window; any other control space answers with an error (R430). -/
def ioLoad (s : State) (p : Nat) (x : Piece) : Acc :=
  if 2 ^ 52 ≤ x.pk then .ok s (homeBytes s x.pk x.n)
  else if isCounterSpace x.pk then .ok s (leBytes 8 (counter s (counterOf x.pk).1 (counterOf x.pk).2).toNat)
  else if inRouterWindow x.pk && x.n == 8 then .ok s (leBytes 8 (rtRead s (x.pk - 0x40000000000)).toNat)
  else .err (logIo s p x.pk) cPROT 4

/-- A store of an IO word; in the counting window it adds 1 (R31). -/
def ioStore (s : State) (t p : Nat) (x : Piece) (bs : List Byte) : Acc :=
  if 2 ^ 52 ≤ x.pk then .ok (putHome s x.pk bs) []
  else if isCounterSpace x.pk then .ok (sendRaise s t (counterOf x.pk).1 (counterOf x.pk).2 1) []
  else if inRouterWindow x.pk && x.n == 8 then
    match rtWrite s t p (x.pk - 0x40000000000) (BitVec.ofNat 64 (leNat bs)) with
    | (s, true) => .ok s []
    | (s, false) => .err s cPROT 4
  else .err (logIo s p x.pk) cPROT 4

/-- The stack, or 4 for the host, of the place that would perform a reduction of a piece (R106, R144). -/
def placeStack (s : State) (p : Nat) (x : Piece) : Nat :=
  let home := if 2 ^ 52 ≤ x.pk then 4 else homeStack x.pk
  let of' (loc : Nat) : Nat := let a := agentOfLoc loc; if a < 512 then a / 128 else (a - 512) / 16
  let sl := slotOf s p x.vcid
  let r := slotRec sl
  if servedHome sl then home
  else if recKind r == 1 then of' (stashLoc r x.va)
  else match findLine sl (waysOf r x.pk) (x.pk / recLine r) none with
    | some (loc, _) => of' loc
    | none => if recPolicy r == 1 || recPolicy r == 2 then home else of' ((waysOf r x.pk).headD 0)

/-- The class 3 circuit of an engine's write of partition p ends where the write is performed (R166). -/
def writeCircuit (s : State) (p : Nat) (x : Piece) : Nat := 3 * 1024 + (let st := placeStack s p x; if st == 4 then 8 else 4 + st)

/-! ## Order (R135, R139 to R143, R150) -/

def overlap (xs ys : List Piece) : Bool :=
  xs.any fun x => ys.any fun y => decide (x.pk < y.pk + y.n) && decide (y.pk < x.pk + x.n)
/-- Bytes of the line, of one granule or two, that an access of partition p to the piece meets (R65). -/
def lineSpan (s : State) (p : Nat) (x : Piece) : Nat := 128 * (lineMates s p x).length
/-- Two accesses of partition p meet one line (R70). -/
def sameLine (s : State) (p : Nat) (xs ys : List Piece) : Bool := xs.any fun x => ys.any fun y => x.pk / lineSpan s p x == y.pk / lineSpan s p x
/-- The partition that hart h runs for. -/
def hartPart (s : State) (h : Nat) : Nat := (tilePart s (h / 16)).getD 0

/-- The entry holds a contribution of the hart; one made before its access number id. -/
def MergeE.from (e : MergeE) (h : Nat) : Bool := e.harts.any fun x => x.hart == h
def MergeE.before (e : MergeE) (h id : Nat) : Bool := e.harts.any fun x => x.hart == h && decide (x.first < id)
/-- The hart's latest contribution, at whose place in program order the merged event stands (R145), comes before its access number id: as an RMW it is ordered
before a store of the hart, but for one that its decoupling bit sets apart (R135, R141). -/
def MergeE.precedes (e : MergeE) (h id : Nat) (vec : Bool) : Bool := e.harts.any fun x => x.hart == h && decide (x.latest < id) && (vec || !x.apart)
/-- It holds an element of the hart's instruction ins made before the element id (R140). -/
def MergeE.holdsOf (e : MergeE) (h ins id : Nat) : Bool := e.harts.any fun x => x.hart == h && decide (ins ≤ x.latest) && decide (x.first < id)
/-- The contribution that entered last, at whose place the merged event stands. -/
def MergeE.last (e : MergeE) : MergeC := e.harts.foldl (fun a x => if a.turn ≤ x.turn then x else a) ⟨2 ^ 16, 0, 0, true, 0⟩
/-- Entry y comes before e: the hart of y's last contribution has one in e that entered after it (R135, R145). -/
def MergeE.behind (e y : MergeE) : Bool := e.harts.any fun x => x.hart == y.last.hart && decide (y.last.turn < x.turn)
/-- A contribution of hart h, access number id, enters as number n. -/
def MergeE.add (e : MergeE) (h id : Nat) (apart : Bool) (n : Nat) : List MergeC :=
  if e.from h then
    e.harts.map fun x => if x.hart == h then { x with first := min x.first id, latest := max x.latest id, apart := x.apart && apart, turn := n } else x
  else e.harts ++ [⟨h, id, id, apart, n⟩]
/-- A contribution of the hart made before its access number id is not yet performed: what releases must come after it (R145). -/
def mergeBefore (s : State) (h id : Nat) : Bool := (tileOf s (h / 16)).merge.any fun (_, e) => e.before h id
/-- A merge entry holds back a store, arrival or unmerged reduction e of the hart: it holds an earlier RMW (R135), or an earlier element of the same
instruction with O = 1 (R140). -/
def mergeHolds (h : Nat) (e : SbEntry) (m : MergeE) : Bool :=
  if e.ord.inOrder && m.holdsOf h e.ord.ins e.id then true else m.precedes h e.id e.ord.vec
/-- The hart has a contribution in a merge entry of a granule of the pieces. -/
def mergeHas (s : State) (h : Nat) (xs : List Piece) : Bool :=
  (tileOf s (h / 16)).merge.any fun (_, e) => e.from h && xs.any fun x => x.pk / 128 == e.gk
/-- A flush of a contribution of the hart is under way. -/
def mergeGoing (s : State) (h : Nat) : Bool := (tileOf s (h / 16)).merge.any fun (_, e) => e.from h && e.going
/-- The hart's contributions that satisfy p start on their way (R145). -/
def flushMerge (s : State) (t : Nat) (p : MergeE → Bool) : State :=
  setTile s t { tileOf s t with merge := (tileOf s t).merge.map fun (i, e) => if p e then (i, { e with going := true }) else (i, e) }
def flushHart (s : State) (h : Nat) : State := flushMerge s (h / 16) fun e => e.from h

/-- Entries of the store buffer not yet performed. -/
def unsent (h : Hart) : List SbEntry := h.sb.filter fun e => !e.performed
/-- A strict store before access id is on its way and not yet acknowledged (R275, R359). -/
def strictGoing (s : State) (h id : Nat) : Bool := (hartOf s h).sb.any fun e => decide (e.id < id) && e.performed && e.ord.strict
/-- An earlier load or atomic that orders a later access: not one that the decoupling bit sets apart from a scalar access (R141). -/
def binds (o : AccOrd) (q : AccOrd) : Bool := !(q.apart && !o.vec)

/-- A load or atomic must wait for something of its hart before it in program order. -/
def pendHeld (s : State) (p : Pend) : Bool :=
  let older := s.pend.filter fun q => q.hart == p.hart && decide (q.id < p.id) && q.value.isNone && p.value.isNone && (binds p.ord q.ord || p.ord.rel)
  let es := (unsent (hartOf s p.hart)).filter fun e => decide (e.id < p.id)
  older.any (fun q => q.ord.acq || overlap q.pieces p.pieces || p.op.isSome || (p.ord.acq && q.op.isSome) || (p.ord.strict && q.ord.strict)
      || (p.ord.inOrder && q.ord.ins == p.ord.ins))
    || es.any (fun e => p.ord.rel || (p.ord.acq && e.ord.rel) || (p.ord.strict && e.ord.strict)
      || (overlap e.pieces p.pieces && (p.op.isSome || p.ord.strict || p.ord.vec || match e.op with | .write _ => false | _ => true))
      || (p.ord.vec && !e.ord.vec && sameLine s (hartPart s p.hart) p.pieces e.pieces))
    || mergeHas s p.hart p.pieces || (p.ord.rel && mergeBefore s p.hart p.id) || (p.ord.strict && strictGoing s p.hart p.id)

/-- A VAMO element whose place lies on another stack or at the host enters the merge buffer (R144). -/
def mergeable (s : State) (h : Nat) (e : SbEntry) : Bool :=
  match e.op, e.pieces with
  | .rmw _ _ _ _, x :: _ => e.ord.vec && placeStack s (hartPart s h) x != h / 2048
  | _, _ => false

/-- The entry is an RMW, a load as well as a store (R135). -/
def SbEntry.isRmw (e : SbEntry) : Bool :=
  match e.op with
  | .write _ => false
  | .nibble _ _ => false
  | _ => true

/-- A store, reduction or arrival of hart h must wait: for loads and RMWs before it, its own bytes, releases, and what its order bits name (R135, R140, R141).
A merged reduction is an RMW too: what holds back a later store is its entry, which starts on its way then (notes/assumptions/44.md). -/
def entryHeld (s : State) (h : Nat) (e : SbEntry) : Bool :=
  (s.pend.any fun q => q.hart == h && decide (q.id < e.id) && q.value.isNone && (binds e.ord q.ord || e.ord.rel))
    || ((unsent (hartOf s h)).any fun x => decide (x.id < e.id) &&
        (e.ord.rel || overlap x.pieces e.pieces || (e.ord.strict && x.ord.strict) || (e.ord.inOrder && x.ord.ins == e.ord.ins)
          || (x.isRmw && x.ord.ins != e.ord.ins && binds e.ord x.ord)
          || (e.ord.vec && !x.ord.vec && sameLine s (hartPart s h) e.pieces x.pieces)))
    || (mergeHas s h e.pieces && !mergeable s h e)
    || ((tileOf s (h / 16)).merge.any fun (_, m) => if mergeable s h e then e.ord.inOrder && m.holdsOf h e.ord.ins e.id else mergeHolds h e m)
    || (e.ord.rel && mergeBefore s h e.id) || (e.ord.strict && strictGoing s h e.id)

/-- A release store, reduction, arrival or atomic of the hart is not yet performed (R42). -/
def releasePending (s : State) (h : Nat) : Bool :=
  (unsent (hartOf s h)).any (fun e => e.ord.rel) || s.pend.any fun q => q.hart == h && q.op.isSome && q.ord.rel
/-- Nothing of the hart is in flight: loads have their values, stores are acknowledged, reductions performed (R145, R147, R151). -/
def loadsDone (s : State) (h : Nat) : Bool := !s.pend.any fun q => q.hart == h
def storesDone (s : State) (h : Nat) : Bool := (hartOf s h).sb.isEmpty && !mergeGoing s h && !s.pend.any fun q => q.hart == h && q.op.isSome
def drained (s : State) (h : Nat) : Bool := loadsDone s h && storesDone s h

def whoHart (s : State) (h : Nat) (l1 : Bool) : Who := { tile := h / 16, part := (tilePart s (h / 16)).getD 0, unit := 100, l1 }
/-- The executing hart for an access that its instruction makes while it waits at it (R114, R116). -/
def whoInstr (s : State) : Who := { whoHart s s.cur false with ev := some (hartTurn s.cur) }

/-! ## Where values go (R175, R314, R459) -/

/-- A g register of hart h becomes full with a value; a bound register pushes it (R175, R351). -/
def fillG (s : State) (h key : Nat) (v : Word) : State :=
  let x := hartOf s h
  let s := setHart s h { x with gEmpty := x.gEmpty.filter (· != key) }
  if key == 0 then s
  else match (if 32 ≤ key then none else (tileOf s (h / 16)).se.find? fun (_, e) =>
      e.bound && !e.fabric && e.hart == h && !e.vfile && e.reg == key && e.write) with
    | some (q, e) => setEng s (h / 16) q { e with used := e.used + 1, data := e.data ++ [v], mask := e.mask ++ [true] }
    | none => setHart s h { hartOf s h with g := mset 0 x.g key v, gFault := mdel x.gFault key }
/-- A g register becomes full and is marked faulted (R459); with g0 the fault is discarded. -/
def markG (s : State) (h key : Nat) (m : Mark) : State :=
  let x := hartOf s h
  if key == 0 then s else setHart s h { x with gEmpty := x.gEmpty.filter (· != key), gFault := mput x.gFault key m }

/-- The element group a vector destination lies in. -/
def Dest.group (d : Dest) : Option Nat :=
  match d with
  | .g _ _ _ => none
  | .v l reg row w i => some (groupKey l reg row (i * w / 8))
  | .side _ grp => some grp
  | .buf _ => none

/-- No load still fetches into the group: it becomes full. -/
def settleGroup (s : State) (t : Nat) (k : Nat) : State :=
  if s.pend.any fun q => q.hart / 16 == t && q.dest.group == some k then s else setTile s t (vFullGroup (tileOf s t) k)

/-- The bytes of an access as a vector destination takes them: a 4-bit element takes its nibble of the byte (R311). -/
def putDest (t : Tile) (d : Dest) (bs : List Byte) : Tile :=
  match d with
  | .v l reg row w i => setVElem t l reg row w i (if w == 4 && i % 2 == 1 then leNat bs / 16 else leNat bs)
  | .side place _ => setSide t place (bs.headD 0)
  | _ => t

/-- The bytes of a finished access reach its destination. -/
def deliver (s : State) (p : Pend) (bs : List Byte) : State :=
  let t := p.hart / 16
  match p.dest with
  | .g key n signed =>
    let v := leNat (bs.take n)
    fillG s p.hart key (if signed then sext (8 * n) v else BitVec.ofNat 64 v)
  | .buf i =>
    let h := hartOf s p.hart
    setHart s p.hart { h with conv := h.conv.map fun c => { c with vals := mput c.vals i bs } }
  | d =>
    let s := setTile s t (putDest (tileOf s t) d bs)
    match d.group with
    | some k => settleGroup s t k
    | none => s
/-- A fault of a finished access: the register or element group is marked (R459, R314). -/
def deliverMark (s : State) (p : Pend) (m : Mark) : State :=
  let t := p.hart / 16
  match p.dest with
  | .g key _ _ => markG s p.hart key m
  | .buf i =>
    let h := hartOf s p.hart
    setHart s p.hart { h with conv := h.conv.map fun c => if c.first ≤ p.id then { c with marks := mput c.marks i m } else c }
  | d => match d.group with
    | some k => settleGroup (setTile s t (if (mfind (tileOf s t).vFault k).isSome then tileOf s t else vMarkGroup (tileOf s t) k m)) t k
    | none => s

/-! ## Loads and atomics in flight -/

/-- Bytes of the pieces as the hart's own earlier stores leave them (rfi of R137): none where no buffered store has the byte. -/
def bufferByte (es : List SbEntry) (pk : Nat) : Option Byte :=
  (es.reverse.findSome? fun e =>
    match e.op with
    | .write bs =>
      let rec at' (xs : List Piece) (o : Nat) : Option Byte :=
        match xs with
        | [] => none
        | x :: r => if decide (x.pk ≤ pk) && decide (pk < x.pk + x.n) then bs[o + (pk - x.pk)]? else at' r (o + x.n)
      at' e.pieces 0
    | _ => none)
def pieceAddrs (xs : List Piece) : List Nat := xs.flatMap fun x => (List.range x.n).map (x.pk + ·)
/-- The buffered bytes a load takes from its own hart's earlier stores. -/
def forwarded (s : State) (h id : Nat) (xs : List Piece) : List (Option Byte) :=
  (pieceAddrs xs).map (bufferByte ((unsent (hartOf s h)).filter fun e => decide (e.id < id)))
def patch (fs : List (Option Byte)) (bs : List Byte) : List Byte :=
  match fs, bs with
  | f :: fr, b :: br => f.getD b :: patch fr br
  | f :: fr, [] => f.getD 0 :: patch fr []
  | [], _ => []

/-- The watermarks of a hart allow an element at va of n bytes (R157), made at privilege sup (R460) by the step ev: every enabled one that watches it has its
stamp far enough, or in error. The spec does
not say what a watermark does whose stamp cannot be read, its page unmapped, its bytes poisoned or refused: here it holds nothing back (notes/assumptions/39.md). -/
def watermarkOk (s : State) (h t p : Nat) (va : Word) (n : Nat) (sup : Bool) (ev : Option (Event × Nat)) : State × Bool :=
  (List.range 4).foldl (fun (s, ok) i =>
    let w := mgetD (hartOf s h).wm i 0
    let b := canon (bits (mgetD (hartOf s h).wmb i 0) 54 0)
    if !ok || !bitOf w 0 || va.toNat < b.toNat then (s, ok)
    else match rangeOf s t p (canon (bits w 54 3 * 8)) 8 .read sup .none with
      | .fault s _ _ _ => (s, true)
      | .ok s xs =>
        match accReads s { whoHart s h false with ev } xs with
        | .ok s bs => (s, decide (2 ^ 63 ≤ leNat bs) || decide (va.toNat + n ≤ b.toNat + leNat bs * 2 ^ bits w 58 56))
        | .wait s => (s, false)
        | .err s _ _ => (s, true)) (s, true)

/-- What an arrival does to a barrier word: its new bytes (R282). -/
def arriveBytes (n : Word) (old : List Byte) : List Byte :=
  let x := leNat old
  let c := x % 2 ^ 32 + 1
  let ph := x / 2 ^ 32 % 2 ^ 31
  leBytes 8 (if n.toNat ≤ c then (ph + 1) % 2 ^ 31 * 2 ^ 32 else ph * 2 ^ 32 + c)

/-- The step that performs an access again, as the outside sees it: a load's data, an atomic at home, a vector access served at home. -/
def pendEvent (s : State) (p : Pend) : Event :=
  match p.op, p.pieces with
  | some _, x :: _ => if servedHome (slotOf s ((tilePart s (p.hart / 16)).getD 0) x.vcid) then .homeAtomic p.id else .loadDataReturn p.id
  | none, x :: _ =>
    if p.ord.vec && servedHome (slotOf s ((tilePart s (p.hart / 16)).getD 0) x.vcid) then .homeServedAccess p.id else .loadDataReturn p.id
  | _, [] => .loadDataReturn p.id

/-- Performs a load or atomic at its place; a VCQRY reads its slot (R287), and a value without an access arrives. -/
def perform (s : State) (p : Pend) : Acc :=
  let w := { whoHart s p.hart (!p.ord.vec) with ev := some (pendEvent s p, p.id + 1) }
  if let some v := p.value then .ok s (leBytes 8 v.toNat) else
  if let some v := p.query then .ok s (leBytes 8 (slotWord s (slotOf s w.part v)).toNat) else
  match p.op, p.pieces with
  | none, xs =>
    match xs.find? (·.io) with
    | some x => ioLoad s w.part x
    | none =>
      let fs := forwarded s p.hart p.id xs
      if fs.all (·.isSome) then .ok s (patch fs [])
      else match accReads s w xs with
        | .ok s bs => .ok s (patch fs bs)
        | r => r
  | some (.rmw f d b cmp), x :: _ => accRmw s w x (amoBytes f d b cmp)
  | some _, _ => .ok s []

/-- The step of an access follows. -/
def pendAgain (s : State) (p : Pend) : State := post s (pendEvent s p)
def dropPend (s : State) (id : Nat) : State := { s with pend := s.pend.filter fun q => q.id != id }

/-- A load or atomic is performed, if it may be (R135, R157, R175); if not, it is tried again when `again` says so. -/
def pendTry (s : State) (id : Nat) (again : Bool) : State :=
  match s.pend.find? fun q => q.id == id with
  | none => s
  | some p =>
    let h := hartOf s p.hart
    let t := p.hart / 16
    let ev := (pendEvent s p, id + 1)
    let retry (s : State) : State := if again then retry s ev else s
    if h.st == .free then dropPend s id
    else if pendHeld s p then
      retry (flushMerge s t fun e => (e.from p.hart && p.pieces.any fun x => x.pk / 128 == e.gk) || (p.ord.rel && e.before p.hart id))
    else
      let (s, ok) := if p.chk then watermarkOk s p.hart t ((tilePart s t).getD 0) p.va ((p.pieces.map (·.n)).sum) p.ord.sup (some ev) else (s, true)
      if !ok then retry s
      else match perform s p with
        | .wait s => retry s
        | .ok s bs => deliver (dropPend s id) p bs
        | .err s c sb => deliverMark (dropPend s id) p ⟨c, sb, p.va, 0⟩

def pendStep (s : State) (id : Nat) : State := pendTry s id true

/-- Issues a load or atomic of the executing hart. -/
def issuePend (s : State) (op : Option MemOp) (xs : List Piece) (va : Word) (dest : Dest) (chk : Bool) (o : AccOrd) (query : Option Nat := none) : State :=
  let p : Pend := { id := s.nextId, hart := s.cur, op, pieces := xs, va, dest, chk, ord := o, query }
  let s := { newId s with pend := s.pend ++ [p] }
  post s (pendEvent s p)

/-- The order of a scalar access. -/
def scalarOrd (s : State) (acq rel strict : Bool) : AccOrd :=
  { ins := s.nextId, sup := (curH s).sup, vec := false, acq, rel, strict, inOrder := false, apart := false }

/-- A g register marked empty at issue receives a value that no access fetches (R175). -/
def issueValue (s : State) (r : BitVec 5) (v : Word) : State :=
  let k := emptyG s r
  let p : Pend :=
    { id := k.nextId, hart := k.cur, op := none, pieces := [], va := 0, dest := .g (gkey (curH k).sup r) 8 false, chk := false
      ord := scalarOrd k false false false, value := some v }
  post { newId k with pend := k.pend ++ [p] } (pendEvent k p)

/-! ## The store buffer (R137) -/

def setEntry (s : State) (h : Nat) (e : SbEntry) : State :=
  setHart s h { hartOf s h with sb := (hartOf s h).sb.map fun x => if x.id == e.id then e else x }
/-- An entry is performed: it retires on its acknowledgement. -/
def entryDone (s : State) (h : Nat) (e : SbEntry) : State := post (setEntry s h { e with performed := true }) (.storeAck h e.id)

/-- The router of tile t takes a reduction to a place outside the cluster (R372). -/
def routed (s : State) (t p f : Nat) (x : Piece) : Bool := x.n == 4 && (rtReduce s t p 0x1FF f x.pk 4).isSome

/-- The free entry of the merge buffer. -/
def mergeFree (t : Tile) : Option Nat := (List.range 32).find? fun i => (mfind t.merge i).isNone
/-- An entry that takes the reduction, or one for its granule with another function or size. -/
def mergeHit (t : Tile) (p gk f : Nat) (d : Bool) : Option (Nat × MergeE) :=
  t.merge.find? fun (_, e) => !e.going && e.part == p && e.gk == gk && e.f == f && e.dword == d

/-- A reduction, access number id of the hart, enters the merge buffer; none: no entry is free yet, the oldest is being flushed (R144, R145). -/
def mergeRed (s : State) (h id : Nat) (o : AccOrd) (x : Piece) (f : Nat) (d : Bool) (b : Word) : State × Bool :=
  let t := h / 16
  let p := (tilePart s t).getD 0
  let gk := x.pk / 128
  let key := x.pk % 128
  match mergeHit (tileOf s t) p gk f d with
  | some (i, e) =>
    let v := match mfind e.vals key with
      | some old => BitVec.ofNat 64 ((amoNew f d old.toNat (b.toNat % 2 ^ (8 * x.n)) 0).getD 0)
      | none => BitVec.ofNat 64 (b.toNat % 2 ^ (8 * x.n))
    let e' := { e with vals := mput e.vals key v, harts := e.add h id o.apart s.nextId, sup := e.sup || o.sup, touched := s.clock }
    (setTile (newId s) t { tileOf s t with merge := mput (tileOf s t).merge i e' }, true)
  | none =>
    let s := flushMerge s t fun e => e.part == p && e.gk == gk
    match mergeFree (tileOf s t) with
    | some i =>
      let e : MergeE :=
        { id := s.nextId, part := p, harts := [⟨h, id, id, o.apart, s.nextId⟩], sup := o.sup, gk, vcid := x.vcid, va := x.va - BitVec.ofNat 64 key, f, dword := d
          vals := [(key, BitVec.ofNat 64 (b.toNat % 2 ^ (8 * x.n)))], going := false, due := 0, touched := s.clock }
      (post (setTile (newId s) t { tileOf s t with merge := mput (tileOf s t).merge i e }) (.mergeFlushIdle t i), true)
    | none =>
      let old := (tileOf s t).merge.foldl (fun a (_, e) => min a e.touched) s.clock
      (if (tileOf s t).merge.any fun (_, e) => e.going then s else flushMerge s t fun e => e.touched == old, false)

/-- How a try to perform an entry ends. -/
inductive Sent where
  | done (s : State)
  | wait (s : State)
deriving DecidableEq, Repr

/-- A store, reduction or arrival refused at its place is discarded with a fault record (R459). -/
def refuseEntry (s : State) (h : Nat) (e : SbEntry) (x : Piece) (c : Nat) : State :=
  let t := h / 16
  let p := (tilePart s t).getD 0
  let s := match e.op with
    | .write _ => s
    | .nibble _ _ => s
    | _ => if c == cPROT then s else logHome s p x.pk
  faultRecord s p { cause := c, src := 8, unit := 0, tile := t, va := e.va, tag := 0, body := x.pk % 2 ^ 52 + h * 2 ^ 64 }

/-- Performs the first piece of an entry. -/
def sendPiece (s : State) (h : Nat) (e : SbEntry) (x : Piece) : Acc :=
  let t := h / 16
  let p := (tilePart s t).getD 0
  let w := { whoHart s h (!e.ord.vec) with ev := some (.storeSend h, e.id + 1) }
  match e.op with
  | .write bs => if x.io then ioStore s t p x (bs.take x.n) else accWrite s w x (bs.take x.n) e.full
  | .nibble hi v => accNibble s w x hi v
  | .rmw f d b cmp =>
    if mergeable s h e then
      match mergeRed s h e.id e.ord x f d b with
      | (s, true) => .ok s []
      | (s, false) => .wait s
    else if routed s t p (f - 2) x then
      .ok (post s (.routerContribution
        { tile := t, part := p, dpkg := 0x1FF, func := f - 2, pa := x.pk, bytes := leBytes 4 b.toNat, tag := none, origin := e.id * 4 + 1 })) []
    else accRmw s w x (amoBytes f d b cmp)
  | .arrive n => accRmw s w x fun old => some (arriveBytes n old)
  | .raise tl k a => .ok (sendRaise s t tl k a) []
  | .ctrSet tl k v => .ok (setCounter s tl k v) []

/-- What the first piece of an entry sends is performed elsewhere, later: a reduction that a router takes (R372), or a raise (R159). -/
def sendsAway (s : State) (h : Nat) (e : SbEntry) (x : Piece) : Bool :=
  match e.op with
  | .rmw f _ _ _ => !mergeable s h e && routed s (h / 16) (hartPart s h) (f - 2) x
  | .raise _ _ _ => true
  | .write _ => x.io && x.pk < 2 ^ 52 && isCounterSpace x.pk
  | _ => false
/-- The entry is on its way; a raise is acknowledged behind the raise itself. -/
def entryAway (s : State) (h : Nat) (e : SbEntry) : State :=
  let s := setEntry s h { e with away := true }
  match e.op with
  | .rmw _ _ _ _ => s
  | _ => post s (.storeAck h e.id)

/-- Sends an entry as far as it goes: each piece is an event of its own or lies in its own granule (R273). -/
def sendPieces (s : State) (h : Nat) (e : SbEntry) (xs : List Piece) : Sent :=
  match xs with
  | [] => .done (entryDone s h { e with pieces := [] })
  | x :: r =>
    let e' := { e with pieces := r, op := match e.op with | .write bs => .write (bs.drop x.n) | o => o }
    match sendPiece s h e x with
    | .wait s => .wait (setEntry s h e)
    | .ok k _ => if sendsAway s h e x then .done (entryAway k h e) else sendPieces k h e' r
    | .err s c _ => sendPieces (if e.refused then s else refuseEntry s h e x c) h { e' with refused := true } r

/-- The entry waits at a home for its turn (R192). -/
def parked (s : State) (h : Nat) (e : SbEntry) : Bool := queued s (.storeSend h, e.id + 1)
/-- The first entry that may be performed, in order of entry, is, or takes its place at a home. -/
def sendFirst (s : State) (h : Nat) (es : List SbEntry) : Sent :=
  match es with
  | [] => .wait s
  | e :: r =>
    if entryHeld s h e || e.away || parked s h e then sendFirst s h r
    else match sendPieces s h e e.pieces with
      | .done s => .done s
      | .wait s => if parked s h e then .done s else sendFirst s h r

/-- STORE_SEND (R137). Merge entries that hold back a store start on their way; entries that are held at no home are tried again. -/
def storeStep (s : State) (h : Nat) : State :=
  let es := unsent (hartOf s h)
  if es.isEmpty then s
  else match sendFirst s h es with
    | .done s => if (unsent (hartOf s h)).any fun e => !e.away && !parked s h e then postOnce s (.storeSend h) else s
    | .wait s =>
      let s := flushMerge s (h / 16) fun m =>
        es.any fun e => (m.from h && e.pieces.any fun y => y.pk / 128 == m.gk) || (e.ord.rel && m.before h e.id) || mergeHolds h e m
      if es.all fun e => e.away || parked s h e then s else post s (.storeSend h)

/-- Puts an entry into the executing hart's store buffer. The buffer may merge two stores to one 8-byte word (R138): the model's never does
(notes/assumptions/39.md). -/
def putEntry (s : State) (op : MemOp) (xs : List Piece) (va : Word) (o : AccOrd) (full : Bool) : State :=
  let e : SbEntry := { id := s.nextId, op, pieces := xs, va, ord := o, full, performed := false }
  let h := curH s
  post (setCur (newId s) { h with sb := h.sb ++ [e] }) (.storeSend s.cur)

/-! ## The merge buffer (R144 to R146) -/

/-- The die that performs a reduction of a piece (R106, R144). -/
def placeDie (s : State) (p : Nat) (x : Piece) : Nat := let st := placeStack s p x; if st == 4 then 8 else 4 + st
/-- A word of a merge entry, and its class 5 circuit, which ends where the word is performed (R144, R166). -/
def MergeE.word (e : MergeE) (o : Nat) : Piece := ⟨e.gk * 128 + o, if e.dword then 8 else 4, e.vcid, e.va + BitVec.ofNat 64 o, false⟩
def mergeCircuit (s : State) (e : MergeE) (x : Piece) : Nat := 5 * 1024 + placeDie s e.part x
/-- The merge entry i of tile t sends its next word (R145), after older entries of its granule (R166) and those that program order puts first (R135); a refused word is reported with SRC 6 (R146). -/
def mergeStep (s : State) (t i : Nat) : State :=
  match mfind (tileOf s t).merge i with
  | none => s
  | some e =>
    let put (s : State) (e : MergeE) : State :=
      if e.vals.isEmpty && e.due == 0 then setTile s t { tileOf s t with merge := mdel (tileOf s t).merge i }
      else post (setTile s t { tileOf s t with merge := mput (tileOf s t).merge i e }) (.mergeFlushIdle t i)
    if !e.going && s.clock < e.touched + 4096 then post s (.mergeFlushIdle t i)
    else if (tileOf s t).merge.any fun (_, y) => (y.gk == e.gk && decide (y.id < e.id)) || e.behind y then
      post (flushMerge s t fun y => (y.gk == e.gk && decide (y.id < e.id)) || e.behind y) (.mergeFlushIdle t i)
    else
      match e.vals with
      | [] => put s { e with going := true }
      | (o, v) :: r =>
        let x := e.word o
        let e' := { e with going := true, vals := r }
        let s := useCircuit s t (mergeCircuit s e x)
        if routed s t e.part (e.f - 2) x then
          put (post s (.routerContribution
            { tile := t, part := e.part, dpkg := 0x1FF, func := e.f - 2, pa := x.pk, bytes := leBytes 4 v.toNat, tag := none, origin := i * 4 }))
            { e' with due := e.due + 1 }
        else match accRmw s { tile := t, part := e.part, unit := 100, l1 := false, ev := some (.mergeFlushIdle t i, e.id + 1) } x (amoBytes e.f e.dword v 0) with
          | .ok s _ => put s e'
          | .wait s => retry (setTile s t { tileOf s t with merge := mput (tileOf s t).merge i { e with going := true } }) (.mergeFlushIdle t i, e.id + 1)
          | .err s c _ =>
            let s := if c == cPROT then s else logHome s e.part x.pk
            put (faultRecord s e.part
              { cause := c, src := 6, unit := 0, tile := t, va := x.va, tag := 0, body := x.pk % 2 ^ 52 + (e.harts.headD ⟨0, 0, 0, true, 0⟩).hart * 2 ^ 64 }) e'

end Sys2Proof.Machine
end

