-- ==== Sys2Proof/Machine/Narrow.lean ====
section
/-! DEFINITION. The narrow and codebook formats, block scales and conversions (R223 to R230), and the special functions (R233, R301). Flags are
those of Float.lean, and 64 for NANSC. -/

namespace Sys2Proof.Machine
open Sys2Proof

/-! ## fmt registers (R223) -/

def nfE (f : Word) : Nat := bits f 3 0
def nfM (f : Word) : Nat := bits f 7 4
def nfS (f : Word) : Bool := bitOf f 8
def nfBias (f : Word) : Int := toSigned 7 (bits f 15 9)
def nfSp (f : Word) : Bool := bitOf f 16
def nfSat (f : Word) : Bool := bitOf f 17
def nfCb (f : Word) : Bool := bitOf f 18
def nfWidth (f : Word) : Nat := (nfS f).toNat + nfE f + nfM f

/-- The register is valid for elements of ew bits (R223). -/
def nfOk (f : Word) (ew : Nat) : Bool :=
  let n := nfE f + nfM f
  nfE f ≤ 7 && nfM f ≤ 7 && 1 ≤ n && 1 + n ≤ 8 && bits f 63 19 == 0 && (!nfSp f || 2 ≤ nfE f) && (nfSp f || nfSat f || 2 ≤ n)
    && (!nfCb f || (nfWidth f ≤ 4 && nfBias f == 0 && !nfSp f && !nfSat f))
    && (if nfWidth f ≤ 4 then ew == 4 else ew == 8)

/-- Entry c of the table in ctab0 to ctab3 (R226). -/
def cbEntry (ctab : SMap Word) (c : Nat) : Nat := bits (mgetD ctab (c / 4) 0) (16 * (c % 4) + 15) (16 * (c % 4))

/-- NarrowValue (R224). -/
def nfRead (f : Word) (ctab : SMap Word) (x : Nat) : Fp :=
  let c := x % 2 ^ nfWidth f
  if nfCb f then bf16.read (cbEntry ctab c)
  else
    let e := nfE f
    let m := nfM f
    let neg := nfS f && c / 2 ^ (e + m) % 2 == 1
    let ex := c / 2 ^ m % 2 ^ e
    let mt := c % 2 ^ m
    if nfSp f && ex == 2 ^ e - 1 then (if mt == 0 then .inf neg else .nan false)
    else if !nfSp f && !nfSat f && c % 2 ^ (e + m) == 2 ^ (e + m) - 1 then .nan false
    else if e == 0 then .fin neg mt (-(nfBias f))
    else if ex == 0 then .fin neg mt (1 - nfBias f - m)
    else .fin neg (2 ^ m + mt) (ex - nfBias f - m)

/-- A value times 2^n. -/
def Fp.scale (v : Fp) (n : Int) : Fp :=
  match v with
  | .fin s m e => .fin s m (e + n)
  | x => x

/-- A finite value whose magnitude lies below FP32's least normal number, flushed by FTZI (R220). -/
def flush32 (ftzi : Bool) (v : Fp) : Fp :=
  match v with
  | .fin s m e => if ftzi && m != 0 && e + (m.log2 : Int) < -126 then .fin s 0 0 else v
  | x => x

/-- An element under its block scale (R228): a scale of 0xFF reads as a quiet NaN with NANSC. -/
def scaledBy (v : Fp) (x : Nat) (ftzi : Bool) : Fp × Nat :=
  if x == 255 then (.nan false, 64) else (flush32 ftzi (v.scale ((x : Int) - 127)), 0)

/-! ## Into narrow formats (R225, R226) -/

/-- Magnitude code of the largest finite value. -/
def nfTop (f : Word) : Nat :=
  let n := nfE f + nfM f
  if nfSp f then (2 ^ nfE f - 1) * 2 ^ nfM f - 1 else if nfSat f then 2 ^ n - 1 else 2 ^ n - 2

/-- RoundToFormat for a format without codebook (R225). With M = 0 every normal significand is 1, so that an RNE tie between two of them goes to the greater
magnitude: the evenness of R218 is that of the significand, not of the code (notes/assumptions/43.md). -/
def nfRound (f : Word) (mode : Nat) (v : Fp) : Nat × Nat :=
  let e := nfE f
  let m := nfM f
  let n := e + m
  let sg (neg : Bool) : Nat := if neg && nfS f then 2 ^ n else 0
  let nanCode := if nfSp f || !nfSat f then 2 ^ n - 1 else 0
  match v with
  | .nan sig => (nanCode, if nfSp f || !nfSat f then sig.toNat else 1)
  | .inf neg =>
    if neg && !nfS f then (0, 1)
    else if nfSp f then (sg neg + (2 ^ e - 1) * 2 ^ m, 0)
    else if nfSat f then (sg neg + nfTop f, 0)
    else (sg neg + nanCode, 1)
  | .fin neg k g =>
    if k == 0 then (sg neg, 0)
    else if neg && !nfS f then (0, 1)
    else
      let lead := g + (k.log2 : Int)
      let low : Int := if e == 0 then -(nfBias f) else 1 - nfBias f - m
      let qu := lead - m
      let q := if e == 0 || qu < low then low else qu
      let (ku, _) := roundAt mode neg k g qu
      let tiny := e != 0 && decide (qu < low) && !(qu + 1 == low && ku == 2 ^ (m + 1))
      let (r, nx) := roundAt mode neg k g q
      let b := (q - low).toNat * 2 ^ m + r
      if nfTop f < b then
        let toMax := nfSat f || mode == 2 || (mode == 3 && neg) || (mode == 4 && !neg)
        if nfSp f then (sg neg + (if toMax then nfTop f else (2 ^ e - 1) * 2 ^ m), 20)
        else if nfSat f then (sg neg + nfTop f, 20)
        else (sg neg + nanCode, 20)
      else (sg neg + b, (if nx then 16 else 0) + (if tiny && nx then 8 else 0))

/-- The distance of two finite values, as a multiple of 2^q. -/
def fpDist (a b : Fp) (q : Int) : Nat :=
  match a, b with
  | .fin s m e, .fin t n g => (scaled s m e q - scaled t n g q).natAbs
  | _, _ => 0
def fpExp (a : Fp) : Int :=
  match a with
  | .fin _ _ e => e
  | _ => 0

/-- Entries of a codebook that are not NaN: code and value. -/
def cbValues (f : Word) (ctab : SMap Word) : List (Nat × Fp) :=
  ((List.range (2 ^ nfWidth f)).map fun c => (c, bf16.read (cbEntry ctab c))).filter fun x => !x.2.isNan

/-- The best of a list by a strict order, the first of equals. -/
def bestOf {α : Type} (better : α → α → Bool) (l : List α) : Option α :=
  l.foldl (fun b x => match b with | none => some x | some y => if better x y then some x else some y) none

/-- The code a codebook takes (R226). -/
def cbRound (f : Word) (ctab : SMap Word) (v : Fp) : Nat × Nat :=
  let l := cbValues f ctab
  match v with
  | .nan sig =>
    match (List.range (2 ^ nfWidth f)).find? fun c => (bf16.read (cbEntry ctab c)).isNan with
    | some c => (c, sig.toNat)
    | none => (0, 1)
  | .inf neg =>
    match bestOf (fun (_, x) (_, y) => if neg then fpLt x y else fpLt y x) l with
    | some (c, x) => (c, if x == .inf neg then 0 else 16)
    | none => (0, 1)
  | .fin _ _ e =>
    let fins := l.filter fun x => !x.2.isInf
    let q := fins.foldl (fun a x => min a (fpExp x.2)) e
    match bestOf (fun (_, x) (_, y) => decide (fpDist x v q < fpDist y v q)) fins with
    | some (c, x) => (c, if fpEq x v then 0 else 16)
    | none =>
      -- every entry that is not a NaN lies infinitely far: a tie
      match l with
      | (c, _) :: _ => (c, 16)
      | [] => (0, 1)

/-- RoundToFormat (R225, R226). -/
def narrowPut (f : Word) (ctab : SMap Word) (mode : Nat) (v : Fp) : Nat × Nat :=
  if nfCb f then cbRound f ctab v else nfRound f mode v

/-- Floor of the base-2 logarithm of a finite magnitude. -/
def fpLog2 (v : Fp) : Option Int :=
  match v with
  | .fin _ m e => if m == 0 then none else some (e + (m.log2 : Int))
  | _ => none

/-- EmaxOf (R229). Of a codebook whose entries that are neither zero nor a NaN are all infinities, which R229 does not name, it is 0 as where there is none
(notes/assumptions/43.md). -/
def emaxOf (f : Word) (ctab : SMap Word) : Int :=
  if nfCb f then
    let ls := (cbValues f ctab).filterMap fun x => fpLog2 x.2
    match ls with
    | [] => 0
    | a :: r => r.foldl max a
  else (fpLog2 (nfRead f ctab (nfTop f))).getD 0

/-- BlockScale (R229). -/
def blockScale (f : Word) (ctab : SMap Word) (xs : List Fp) : Nat :=
  if xs.any fun v => v.isNan || v.isInf then 255
  else match xs.filterMap fpLog2 with
    | [] => 0
    | a :: r =>
      let x := r.foldl max a - emaxOf f ctab + 127
      if x < 0 then 0 else if 254 < x then 254 else x.toNat

/-! ## Special functions (R233, R301) -/

/-- Fixed-point numbers with p fraction bits. -/
def fxMul (p : Nat) (a b : Int) : Int := a * b / 2 ^ p
/-- The sum of n terms from t on, each the one before times x over its number: an exponential series. -/
def fxSeries (p : Nat) (n k : Nat) (x t : Int) : Int :=
  match n with
  | 0 => 0
  | j + 1 => t + fxSeries p j (k + 1) x (fxMul p t x / (k : Int))
/-- exp x for a fixed-point x of magnitude below 1. -/
def fxExp (p : Nat) (x : Int) : Int := fxSeries p 80 1 x (2 ^ p)
/-- The terms of sin x (from x) or cos x (from 1). -/
def fxTrig (p : Nat) (n k : Nat) (x2 t : Int) : Int :=
  match n with
  | 0 => 0
  | j + 1 => t + fxTrig p j (k + 2) x2 (-(fxMul p t x2) / ((k * (k + 1) : Nat) : Int))
/-- ln 2 and π with p fraction bits, for p at most 400. -/
def fxAtanInv (p n k q : Nat) (t : Int) (alt : Bool) : Int :=
  match n with
  | 0 => 0
  | j + 1 => t / (2 * (k : Int) + 1) + (if alt then -1 else 1) * fxAtanInv p j (k + 1) q (t / ((q * q : Nat) : Int)) alt
def fxLn2 (p : Nat) : Int := 2 * fxAtanInv p (p / 3 + 4) 0 3 (2 ^ p / 3) false
def fxPi (p : Nat) : Int := 4 * (4 * fxAtanInv p (p / 4 + 4) 0 5 (2 ^ p / 5) true - fxAtanInv p (p / 15 + 4) 0 239 (2 ^ p / 239) true)
/-- A finite value as a fixed-point number, for magnitudes below 2^16. -/
def fxOf (p : Nat) (v : Fp) : Int :=
  match v with
  | .fin s m e => let a : Int := if 0 ≤ e + p then ((m * 2 ^ (e + p).toNat : Nat) : Int) else ((m / 2 ^ (-(e + p)).toNat : Nat) : Int); if s then -a else a
  | _ => 0
/-- A fixed-point number as a value, times 2^n. -/
def fxFp (p : Nat) (a n : Int) : Fp := .fin (decide (a < 0)) a.natAbs (n - p)
/-- Fraction bits of log2 of m / 2^p in [1, 2), by squaring. -/
def fxLog (p n : Nat) (m r : Nat) : Nat :=
  match n with
  | 0 => r
  | k + 1 =>
    let q := m * m / 2 ^ p
    if 2 ^ (p + 1) ≤ q then fxLog p k (q / 2) (r * 2 + 1) else fxLog p k q (r * 2)
/-- 2^x for a finite x of magnitude below 2^16. -/
def fxExp2 (p : Nat) (v : Fp) : Fp :=
  let x := fxOf p v
  fxFp p (fxExp p (fxMul p (x % 2 ^ p) (fxLn2 p))) (x / 2 ^ p)
/-- sin 2πf for a fixed-point f of magnitude at most 1/8, and cos 2πf. -/
def fxSin8 (p : Nat) (f : Int) : Int := let x := fxMul p f (2 * fxPi p); fxTrig p 60 2 (fxMul p x x) x
def fxCos8 (p : Nat) (f : Int) : Int := let x := fxMul p f (2 * fxPi p); fxTrig p 60 1 (fxMul p x x) (2 ^ p)
/-- sin 2πf for f in [0, 1), by eighths of a turn. -/
def fxTurn (p : Nat) (f : Int) : Int :=
  let o := (f * 8 + 2 ^ p) / 2 ^ (p + 1)
  let d := f - o * 2 ^ p / 4
  match (o % 4).toNat with
  | 0 => fxSin8 p d
  | 1 => fxCos8 p d
  | 2 => -(fxSin8 p d)
  | _ => -(fxCos8 p d)

/-- The special cases of R301: the exact result and its flags. Functions: 0 EXP2, 1 LOG2, 2 RCP, 3 RSQRT, 4 SIN, 5 COS, 6 TANH, 7 SIGM. -/
def sfuSpecial (fn : Nat) (v : Fp) : Option (Fp × Nat) :=
  let one : Fp := .fin false 1 0
  let whole : Bool := match v with | .fin _ m e => 0 ≤ e || m % 2 ^ (-e).toNat == 0 | _ => false
  match v with
  | .nan sig => some (.nan false, sig.toNat)
  | .inf neg =>
    match fn with
    | 0 => some (if neg then .fin false 0 0 else .inf false, 0)
    | 1 => some (if neg then (.nan false, 1) else (.inf false, 0))
    | 2 => some (.fin neg 0 0, 0)
    | 3 => some (if neg then (.nan false, 1) else (.fin false 0 0, 0))
    | 4 => some (.nan false, 1)
    | 5 => some (.nan false, 1)
    | 6 => some (.fin neg 1 0, 0)
    | _ => some (if neg then .fin false 0 0 else one, 0)
  | .fin neg m _ =>
    match fn with
    | 1 => if m == 0 then some (.inf true, 2) else if neg then some (.nan false, 1) else if fpEq v one then some (.fin false 0 0, 0) else none
    | 2 => if m == 0 then some (.inf neg, 2) else none
    | 3 => if m == 0 then some (.inf neg, 2) else if neg then some (.nan false, 1) else none
    | 4 => if whole then some (.fin neg 0 0, 0) else none
    | 5 => if whole then some (one, 0) else none
    | _ => none

/-- The function's value to far more digits than FP32 holds (R301: the exact value that the result lies near). -/
def sfuValue (fn : Nat) (v : Fp) : Fp :=
  let p := 240
  let l := (fpLog2 v).getD 0
  let neg := v.negp
  let abs : Fp := if neg then v.neg else v
  match fn with
  | 0 => if 8 ≤ l then (.fin false 1 (if neg then -400 else 400)) else fxExp2 p v
  | 1 =>
    match v with
    | .fin _ m e =>
      let a : Int := ((fxLog p 150 (m * 2 ^ (p - m.log2)) 0 : Nat) : Int) * 2 ^ (p - 150)
      fxFp p (a + (e + (m.log2 : Int)) * 2 ^ p) 0
    | x => x
  | 2 => (fpDiv fp64 (.fin false 1 0) v).1
  | 3 => (fpDiv fp64 (.fin false 1 0) (fpSqrt ⟨11, 80⟩ v).1).1
  | 4 => let r := fxFp p (fxTurn p (fxOf p abs % 2 ^ p)) 0; if neg then r.neg else r
  | 5 => fxFp p (fxTurn p ((fxOf p abs + 2 ^ (p - 2)) % 2 ^ p)) 0
  | 6 =>
    -- below x by less than any number FP32 holds tells apart, as x - x^3 / 3 is
    if l < -40 then (match v with | .fin s m e => .fin s (m * 2 ^ 200 - 1) (e - 200) | x => x)
    else
      -- 2^(2|x| / ln 2)
      let y : Int := if 5 ≤ l then 128 * 2 ^ p else 2 * fxOf p abs * 2 ^ p / fxLn2 p
      let ex := max 1 (fxOf p (fxExp2 p (fxFp p (-y) 0)))
      let r := fxFp p ((2 ^ p - ex) * 2 ^ p / (2 ^ p + ex)) 0
      if neg then r.neg else r
  | _ =>
    let y : Int := if 8 ≤ l then 400 * 2 ^ p else fxOf p abs * 2 ^ p / fxLn2 p
    let ex := fxExp2 p (fxFp p (-y) 0)
    let den := fxFp p (2 ^ p + max 1 (fxOf p ex)) 0
    (fpDiv fp64 (if neg then ex else .fin false 1 0) den).1

/-- FP32 bits c, of a positive number or of infinity taken as 2^128, lie within 2 units in the last place of m * 2^e, a unit being that of the binade the
value lies in (R301). -/
def sfuWithin (m : Nat) (e : Int) (c : Nat) : Bool :=
  let u : Int := max (e + (m.log2 : Int) - 23) (-149)
  let q : Int := min e (-149)
  let r : Fp := if fp32.infBits false ≤ c then .fin false 1 128 else fp32.read c
  decide (c ≤ fp32.infBits false) && decide (fpDist r (.fin false m e) q ≤ 2 ^ (u + 1 - q).toNat)
/-- The FP32 numbers within 2 units in the last place of m * 2^e: those of them that lie next to its bits b, rounded towards 0; of a value of 0, those next to
it on both sides. -/
def sfuNearby (m : Nat) (e : Int) (b : Nat) : List Nat :=
  if m == 0 then [0, 1, 2, 2 ^ 31, 2 ^ 31 + 1, 2 ^ 31 + 2] else (List.range 8).filterMap fun j => if 4 ≤ b + j && sfuWithin m e (b + j - 4) then some (b + j - 4) else none
/-- One of the FP32 numbers within 2 units in the last place of a value: which one is free (R233; notes/assumptions/6.md). A result below the normal numbers is
tiny, unless the value is 0 (R219). -/
def sfuNear (pick mode : Nat) (ftzo : Bool) (v : Fp) : Nat × Nat :=
  match v with
  | .fin neg m e =>
    let (b, fl) := fp32.round 2 false false m e
    let l := sfuNearby m e b
    let c := l.getD (pick % l.length) b
    if fl / 4 % 2 == 1 || c == fp32.infBits false then (fp32.overflow mode neg, 20)
    else if m == 0 then (if ftzo then c / 2 ^ 31 * 2 ^ 31 else c, 16)
    else if c < 2 ^ 23 then (if ftzo then fp32.sgn neg else fp32.sgn neg + c, 24)
    else (fp32.sgn neg + c, 16)
  | x => (fp32.put mode ftzo x)

/-- A special function on an element of a format (R301): FP32 as it is; FP16 and BF16 from the FP32 result by one rounding. -/
def sfuOp (fn : Nat) (f : FFmt) (mode : Nat) (ftzi ftzo : Bool) (x : Nat) : Nat × Nat :=
  let v := f.get ftzi x
  match sfuSpecial fn v with
  | some (r, fl) => (f.put mode false r |>.1, fl)
  | none =>
    let (b, fl) := sfuNear (Config.sfuPick fn f.width x).toNat mode (ftzo && f == fp32) (sfuValue fn v)
    if f == fp32 then (b, fl)
    else
      let (r, g) := f.put mode ftzo (fp32.read b)
      (r, fl ||| g)

end Sys2Proof.Machine
end

