-- ==== Sys2Proof/Machine/VecOps.lean ====
section
/-! DEFINITION. What each vector instruction that makes no memory access computes (R291 to R309, R317 to R321), as a function of the thread's
registers: the elements, mask bits, sidecar bytes, g value and flags it writes. -/

namespace Sys2Proof.Machine
open Sys2Proof

/-! ## Words and threads -/

/-- The fields of a vector word (R239): major, vd, va, vb, mask, T and func6. -/
structure VW where
  maj : Nat
  d : BitVec 5
  a : BitVec 5
  b : BitVec 5
  k : BitVec 3
  t : Bool
  f : Nat
deriving DecidableEq, Repr

/-- Operand b is a g register, in VINT, VFP and VCMP (R295). -/
def VW.gb (x : VW) : Bool := x.f / 32 % 2 == 1
/-- The function, without S. -/
def VW.fn (x : VW) : Nat := x.f % 32

/-- Fields of vtype (R291). -/
def vtEw (w : Word) : Nat := 4 * 2 ^ bits w 8 6
def vtFsel (w : Word) : Nat := bits w 5 3
def vtBl (w : Word) : Nat := if bits w 2 0 == 0 then 0 else 4 * 2 ^ bits w 2 0
def vtRm (w : Word) : Nat := bits w 11 9

/-- What a vector instruction sees as it issues. -/
structure VC where
  l : BitVec 4
  ew : Nat
  fsel : Nat
  bl : Nat
  vl : Nat
  req : Nat
  rows : Nat
  mode : Nat
  ftzi : Bool
  ftzo : Bool
  fill : Nat
  vrs : Word
  t : Tile
  fmt : SMap Word
  ctab : SMap Word
deriving DecidableEq, Repr

/-- The registers of a thread in front of a tile's files. -/
def vcOf (h : Hart) (t : Tile) : VC :=
  let v := h.v
  { l := v.lanes, ew := vtEw v.vtype, fsel := vtFsel v.vtype, bl := vtBl v.vtype, vl := bits v.vl 11 0, req := bits v.vlreq 11 0
    rows := bits v.vrc 3 0, mode := (if vtRm v.vtype == 7 then frmOf v.vcsr else vtRm v.vtype), ftzi := ftziOf v.vcsr, ftzo := ftzoOf v.vcsr
    fill := v.vfill.toNat, vrs := v.vrs, t, fmt := h.fmt, ctab := h.ctab }

/-- Row capacity in elements of w bits (R174). -/
def VC.cap (c : VC) (w : Nat) : Nat := rowBytes c.l * 8 / w
def VC.el (c : VC) (r : BitVec 5) (row i : Nat) : Nat := vElem c.t c.l r.toNat row c.ew i
/-- Element i of row r is active under mask field k (R292). -/
def VC.act (c : VC) (k : BitVec 3) (row i : Nat) : Bool := k == 0 || mBit c.t c.l k.toNat row i
def VC.pad (c : VC) (i : Nat) : Bool := c.req ≤ i

/-- An IEEE type at a width (R221). -/
def ieeeAt (ew fsel : Nat) : Option FFmt :=
  match ew, fsel with
  | 16, 0 => some fp16
  | 16, 1 => some bf16
  | 32, 0 => some fp32
  | 64, 0 => some fp64
  | _, _ => none
def VC.ff (c : VC) : Option FFmt := ieeeAt c.ew c.fsel
/-- An element type as a conversion names it: an IEEE format, or the contents of a valid fmt register (R221, R223). -/
inductive VTy where
  | ieee (f : FFmt)
  | narrow (f : Word)
deriving DecidableEq, Repr
def VC.ty (c : VC) (ew fsel : Nat) : Option VTy :=
  if ew ≤ 8 then
    let f := mgetD c.fmt fsel 0
    if fsel != 0 && nfOk f ew then some (.narrow f) else none
  else (ieeeAt ew fsel).map .ieee

/-! ## Results -/

/-- An element written: its row, its index, its bits and the flags it sets (flags of Float.lean, 32 SAT, 64 NANSC). -/
structure Elt where
  r : Nat
  i : Nat
  v : Nat
  fl : Nat
deriving DecidableEq, Repr

/-- What an instruction writes: elements of w bits of vd, bits of a mask register, sidecar bytes of vd, a g register, and further flags. -/
structure VRes where
  w : Nat
  xs : List Elt
  ms : List (Nat × Nat × Bool)
  side : List (Nat × Nat × Nat)
  g : Option Word
  fl : Nat
deriving DecidableEq, Repr

def VRes.elems (w : Nat) (xs : List Elt) : VRes := { w, xs, ms := [], side := [], g := none, fl := 0 }
def VRes.mask (ms : List (Nat × Nat × Bool)) (fl : Nat) : VRes := { w := 8, xs := [], ms, side := [], g := none, fl }
def VRes.greg (v : Word) : VRes := { w := 8, xs := [], ms := [], side := [], g := some v, fl := 0 }
/-- All flags of a result. -/
def VRes.flags (r : VRes) : Nat := r.xs.foldl (fun a e => a ||| e.fl) r.fl

/-- The positions of the sweep (R173), row by row. -/
def VC.sweep (c : VC) : List (Nat × Nat) := (List.range c.rows).flatMap fun r => (List.range c.vl).map fun i => (r, i)
/-- Every active position's element is f of its row and index (R173, R296). -/
def VC.each (c : VC) (k : BitVec 3) (f : Nat → Nat → Nat × Nat) : VRes :=
  .elems c.ew ((c.sweep.filter fun (r, i) => c.act k r i).map fun (r, i) => let (v, fl) := f r i; ⟨r, i, v, fl⟩)

/-! ## Integers (R299) -/

/-- A signed, or unsigned, value clamped to n bits, with SAT when clamped. -/
def clampS (n : Nat) (v : Int) : Nat × Nat :=
  let hi : Int := 2 ^ (n - 1) - 1
  if hi < v then (ofInt n hi, 32) else if v < -(2 ^ (n - 1) : Int) then (ofInt n (-(2 ^ (n - 1) : Int)), 32) else (ofInt n v, 0)
def clampU (n : Nat) (v : Int) : Nat × Nat :=
  if (2 ^ n : Int) ≤ v then (2 ^ n - 1, 32) else if v < 0 then (0, 32) else (v.toNat, 0)

/-- VINT of n-bit elements a and b, with the old element d (R299). -/
def vintFun (f n a b d : Nat) : Nat × Nat :=
  let sa := toSigned n a
  let sb := toSigned n b
  match f with
  | 0 => ((a + b) % 2 ^ n, 0)
  | 1 => (ofInt n ((a : Int) - b), 0)
  | 2 => (a * b % 2 ^ n, 0)
  | 3 => (ofInt n (sa * sb / 2 ^ n), 0)
  | 4 => (a * b / 2 ^ n, 0)
  | 5 => (a &&& b, 0)
  | 6 => (a ||| b, 0)
  | 7 => (a ^^^ b, 0)
  | 8 => (a * 2 ^ (b % n) % 2 ^ n, 0)
  | 9 => (a / 2 ^ (b % n), 0)
  | 10 => (ofInt n (sa / 2 ^ (b % n)), 0)
  | 11 => (minS n a b, 0)
  | 12 => (maxS n a b, 0)
  | 13 => (min a b, 0)
  | 14 => (max a b, 0)
  | 15 => ((sa - sb).natAbs % 2 ^ n, 0)
  | 16 => clampS n (sa + sb)
  | 17 => clampS n (sa - sb)
  | 18 => clampU n ((a : Int) + b)
  | 19 => clampU n ((a : Int) - b)
  | 20 => (ofInt n ((d : Int) + ((List.range 4).map fun j => toSigned 8 (a / 256 ^ j) * toSigned 8 (b / 256 ^ j)).sum), 0)
  | _ => ((d + a * b) % 2 ^ n, 0)

/-- Operand b of VINT, VFP and VCMP (R295). -/
def VC.opB (c : VC) (x : VW) (gb : Word) (r i : Nat) : Nat := if x.gb then gb.toNat % 2 ^ c.ew else c.el x.b r i

def vintRes (x : VW) (c : VC) (gb : Word) : VRes :=
  c.each x.k fun r i => vintFun x.fn c.ew (c.el x.a r i) (c.opB x gb r i) (if 20 ≤ x.fn then c.el x.d r i else 0)

/-! ## Floating point (R297, R300) -/

/-- VFP on elements a, b and d, and n for VFSCL (R300). -/
def vfpFun (fn : Nat) (f : FFmt) (c : VC) (a b d : Nat) (n : Int) : Nat × Nat :=
  let ga := f.get c.ftzi a
  let gb := f.get c.ftzi b
  let gd := f.get c.ftzi d
  let put (p : Fp × Nat) : Nat × Nat := let (v, fl) := f.put c.mode c.ftzo p.1; (v, fl ||| p.2)
  match fn with
  | 0 => put (fpAdd c.mode ga gb)
  | 1 => put (fpAdd c.mode ga gb.neg)
  | 2 => put (fpMul ga gb)
  | 3 => put (fpFma c.mode ga gb gd)
  | 4 => put (fpFma c.mode ga.neg gb gd)
  | 5 => put (fpDiv f ga gb)
  | 6 => put (fpSqrt f ga)
  | 7 => put (fpMinMax false ga gb)
  | 8 => put (fpMinMax true ga gb)
  | 9 => ((f.put 0 false (if ga.negp then ga.neg else ga)).1, 0)
  | 10 => ((f.put 0 false ga.neg).1, 0)
  | _ => put (ga.scale (max (-8192) (min 8192 n)), ga.snan)

def vfpRes (x : VW) (c : VC) (gb : Word) (f : FFmt) : VRes :=
  let unary := x.fn == 6 || x.fn == 9 || x.fn == 10
  c.each x.k fun r i =>
    let b := if unary then 0 else c.opB x gb r i
    vfpFun x.fn f c (c.el x.a r i) (if x.fn == 11 then 0 else b) (if x.fn == 3 || x.fn == 4 then c.el x.d r i else 0)
      (if x.gb then gb.toInt else toSigned c.ew b)

/-- VSFU (R301). -/
def vsfuRes (x : VW) (c : VC) (f : FFmt) : VRes := c.each x.k fun r i => sfuOp x.f f c.mode c.ftzi c.ftzo (c.el x.a r i)

/-! ## Compares and masks (R302, R303) -/

def icmpFun (cond n a b : Nat) : Bool :=
  match cond with
  | 0 => a == b
  | 1 => a != b
  | 2 => decide (toSigned n a < toSigned n b)
  | 3 => decide (toSigned n a ≤ toSigned n b)
  | 4 => decide (toSigned n b < toSigned n a)
  | 5 => decide (toSigned n b ≤ toSigned n a)
  | 6 => decide (a < b)
  | _ => decide (a ≤ b)

def fcmpFun (cond : Nat) (a b : Fp) : Bool × Nat :=
  let nan := a.isNan || b.isNan
  let sig := a.snan ||| b.snan
  match cond with
  | 0 => (fpEq a b, sig)
  | 1 => (!fpEq a b, sig)
  | 2 => (fpLt a b, nan.toNat)
  | 3 => (fpLt a b || fpEq a b, nan.toNat)
  | 4 => (fpLt b a, nan.toNat)
  | 5 => (fpLt b a || fpEq a b, nan.toNat)
  | _ => (nan, sig)

/-- VCMP: [4] of func6 is F, [3:0] the condition. -/
def vcmpRes (x : VW) (c : VC) (gb : Word) : VRes :=
  let pos := c.sweep.filter fun (r, i) => c.act x.k r i
  let one (r i : Nat) : Bool × Nat :=
    match (if x.f / 16 % 2 == 1 then c.ff else none) with
    | some f => fcmpFun (x.f % 16) (f.get c.ftzi (c.el x.a r i)) (f.get c.ftzi (c.opB x gb r i))
    | none => (icmpFun (x.f % 16) c.ew (c.el x.a r i) (c.opB x gb r i), 0)
  .mask (pos.map fun (r, i) => (r, i, (one r i).1)) (pos.foldl (fun fl (r, i) => fl ||| (one r i).2) 0)

/-- VMASK (R303). -/
def vmaskRes (x : VW) (c : VC) : VRes :=
  let pos := c.sweep.filter fun (r, i) => c.act x.k r i
  let ma (r i : Nat) : Bool := mBit c.t c.l x.a.toNat r i
  let mb (r i : Nat) : Bool := mBit c.t c.l x.b.toNat r i
  let hits := pos.filter fun (r, i) => !c.pad i && ma r i
  let bit (f : Nat → Nat → Bool) : VRes := .mask (pos.map fun (r, i) => (r, i, f r i)) 0
  match x.f with
  | 0 => bit fun r i => ma r i && mb r i
  | 1 => bit fun r i => ma r i || mb r i
  | 2 => bit fun r i => ma r i != mb r i
  | 3 => bit fun r i => ma r i && !mb r i
  | 4 => bit fun r i => !ma r i
  | 5 => .greg (BitVec.ofNat 64 hits.length)
  | 6 => .greg (match hits with | (r, i) :: _ => BitVec.ofNat 64 (r * c.vl + i) | [] => BitVec.allOnes 64)
  | 7 => bit fun _ _ => true
  | _ => bit fun _ _ => false

/-! ## Reductions, scans and permutes (R232, R233, R304, R305) -/

/-- The combination of VRED and VSCAN, with its identity: integers, or a format. Functions: 0 SUM, 1 MAX, 2 MIN, 3 AND, 4 OR, 5 XOR, 6 MAXU, 7 MINU. -/
def redIdent (fn n : Nat) (f : Option FFmt) : Nat :=
  match f, fn with
  | some g, 1 => g.infBits true
  | some g, 2 => g.infBits false
  | some _, _ => 0
  | none, 1 => 2 ^ (n - 1)
  | none, 2 => 2 ^ (n - 1) - 1
  | none, 3 => 2 ^ n - 1
  | none, 7 => 2 ^ n - 1
  | none, _ => 0
def redFun (fn n : Nat) (f : Option FFmt) (c : VC) (a b : Nat) : Nat × Nat :=
  match f with
  | some g => vfpFun (match fn with | 0 => 0 | 1 => 8 | _ => 7) g c a b 0 0
  | none => vintFun (match fn with | 0 => 0 | 1 => 12 | 2 => 11 | 3 => 5 | 4 => 6 | 5 => 7 | 6 => 14 | _ => 13) n a b 0

/-- An element that a reduction of one element, or a scan at its first position, gives with nothing to combine it with: a floating-point one is still an input
and a result of the operation (R216, R220). -/
def redOne (f : Option FFmt) (c : VC) (v : Nat) : Nat × Nat :=
  match f with
  | some g => let a := g.get c.ftzi v; let (b, fl) := g.put c.mode c.ftzo a; (b, fl ||| a.snan)
  | none => (v, 0)

/-- One level of the tree: neighbours combined. -/
def pairUp (f : Nat → Nat → Nat × Nat) (l : List Nat) : List Nat × Nat :=
  match l with
  | a :: b :: r =>
    let (v, fl) := f a b
    let (vs, g) := pairUp f r
    (v :: vs, fl ||| g)
  | l => (l, 0)
/-- TreeReduce over a list of 2^n values (R232). -/
def treeReduce (f : Nat → Nat → Nat × Nat) (n : Nat) (l : List Nat) (fl : Nat) : Nat × Nat :=
  match n with
  | 0 => (l.headD 0, fl)
  | k + 1 => let (r, g) := pairUp f l; treeReduce f k r (fl ||| g)
/-- The least n with k at most 2^n. -/
def ceilLog2 (k : Nat) : Nat := if k ≤ 1 then 0 else (k - 1).log2 + 1

/-- An element as a reduction or a scan takes it: masked-off the identity, pads zero (R232, R233). -/
def VC.redEl (c : VC) (x : VW) (id' r i : Nat) : Nat := if !c.act x.k r i then id' else if c.pad i then 0 else c.el x.a r i

def vredRes (x : VW) (c : VC) : VRes :=
  let f := if x.f / 16 % 2 == 1 then c.ff else none
  let id' := redIdent (x.f % 16) c.ew f
  let n := ceilLog2 c.vl
  .elems c.ew (if c.vl == 0 then [] else (List.range c.rows).map fun r =>
    let l := ((List.range c.vl).map (c.redEl x id' r)) ++ List.replicate (2 ^ n - c.vl) id'
    let (v, fl) := if n == 0 then redOne f c (l.headD 0) else treeReduce (redFun (x.f % 16) c.ew f c) n l 0
    ⟨r, 0, v, fl⟩)

/-- The inclusive prefix of a row from index i on, after y; one: what the first position gives. -/
def scanRow (one : Nat → Nat × Nat) (f : Nat → Nat → Nat × Nat) (r i : Nat) (y : Option Nat) (l : List Nat) : List Elt :=
  match l with
  | [] => []
  | v :: t =>
    let (z, fl) := match y with | none => one v | some y => f y v
    ⟨r, i, z, fl⟩ :: scanRow one f r (i + 1) (some z) t

/-- Element i of a row of va, or vfill beyond vl (R304). -/
def VC.x (c : VC) (a : BitVec 5) (r : Nat) (i : Int) : Nat :=
  if 0 ≤ i && i < c.vl then c.el a r i.toNat else c.fill % 2 ^ c.ew

def vpermRes (x : VW) (c : VC) (gb : Word) : VRes :=
  let n : Int := gb.toNat
  match x.f with
  | 0 => c.each x.k fun r i => (c.x x.a r (c.el x.b r i), 0)
  | 1 => c.each x.k fun r i => (c.x x.a r ((i : Int) - n), 0)
  | 2 => c.each x.k fun r i => (c.x x.a r ((i : Int) + n), 0)
  | 3 => .elems c.ew ((List.range c.rows).flatMap fun r =>
      (((List.range c.vl).filter fun i => c.act x.k r i).zipIdx).map fun (i, j) => ⟨r, j, c.el x.a r i, 0⟩)
  | 4 => .elems c.ew ((List.range c.rows).flatMap fun r =>
      (((List.range c.vl).filter fun i => c.act x.k r i).zipIdx).map fun (i, j) => ⟨r, i, c.el x.a r j, 0⟩)
  | 5 =>
    let f := if x.b.toNat / 16 == 1 then c.ff else none
    let fn := x.b.toNat % 16
    let id' := redIdent fn c.ew f
    .elems c.ew ((List.range c.rows).flatMap fun r => scanRow (redOne f c) (redFun fn c.ew f c) r 0 none ((List.range c.vl).map (c.redEl x id' r)))
  | _ => c.each x.k fun _ i => (c.el x.a gb.toNat i, 0)

/-! ## Conversions (R306 to R308) -/

/-- The value of an element of a type, under its block scale where it has one (R228). -/
def VC.value (c : VC) (ty : VTy) (scale : Option Nat) (v : Nat) : Fp × Nat :=
  match ty with
  | .ieee f => (f.get c.ftzi v, 0)
  | .narrow f =>
    let x := nfRead f c.ctab v
    match scale with
    | none => (flush32 c.ftzi x, 0)
    | some b => scaledBy x b c.ftzi
/-- A value rounded into a type (R230). -/
def VC.round (c : VC) (ty : VTy) (v : Fp) : Nat × Nat :=
  match ty with
  | .ieee f => let (b, fl) := f.put c.mode c.ftzo v; (b, fl ||| v.snan)
  | .narrow f => narrowPut f c.ctab c.mode v

/-- The scale byte of element i of a row, if vtype has blocks (R228). -/
def VC.scale (c : VC) (reg : BitVec 5) (row i : Nat) : Option Nat :=
  if c.bl == 0 then none else some (sideByte c.t c.l c.ew c.bl reg.toNat row (i / c.bl)).toNat

/-- VCVTH and VCVTD on one element: from the types at the source and destination widths, or as integers with I = 1. -/
def cvElem (x : VW) (c : VC) (dw r i : Nat) : Nat × Nat :=
  let v := c.el x.a r i
  let f := x.b.toNat
  if f / 8 % 2 == 1 then ((if dw < c.ew || f / 16 % 2 == 1 then v else ofInt dw (toSigned c.ew v)) % 2 ^ dw, 0)
  else match c.ty c.ew c.fsel, c.ty dw (f % 8) with
    | some st, some dt =>
      let (y, fl) := c.value st (c.scale x.a r i) v
      let (b, g) := c.round dt y
      (b, fl ||| g)
    | _, _ => (0, 0)

/-- VCVTH: element i of source row 2r + k goes to position k × V + i of row r. -/
def vcvthRes (x : VW) (c : VC) : VRes :=
  let dw := c.ew / 2
  .elems dw ((List.range (2 * c.rows)).flatMap fun r => ((List.range c.vl).filter fun i => c.act x.k r i).map fun i =>
    let (v, fl) := cvElem x c dw r i; ⟨r / 2, r % 2 * c.cap c.ew + i, v, fl⟩)
/-- VCVTD: element i of row r goes to position i mod (V/2) of row 2r + i div (V/2). -/
def vcvtdRes (x : VW) (c : VC) : VRes :=
  let dw := c.ew * 2
  let half := c.cap c.ew / 2
  .elems dw ((List.range c.rows).flatMap fun r => ((List.range c.vl).filter fun i => c.act x.k r i).map fun i =>
    let (v, fl) := cvElem x c dw r i; ⟨2 * r + i / half, i % half, v, fl⟩)

/-- VCVT8 and VCVTS (R308, R229): a block's scale from its active inputs, and its codes. NV for a signalling input of a block without a scale is VCVT8's
alone: VCVTS, which converts no element, sets no flag (notes/assumptions/43.md). -/
def vcvt8Block (x : VW) (c : VC) (f : Word) (blk : Nat) : List Elt × Nat × Nat :=
  let v32 := rowBytes c.l / 4
  let js := (List.range c.bl).map (blk * c.bl + ·)
  let src (j : Nat) : Fp := fp32.get c.ftzi (vElem c.t c.l x.a.toNat (j / v32) 32 (j % v32))
  let ins := (js.filter fun j => decide (j < c.vl) && c.act x.k 0 j && !c.pad j).map src
  let s := blockScale f c.ctab ins
  let codes := (js.filter fun j => decide (j < c.vl) && c.act x.k 0 j).map fun j =>
    if s == 255 then (⟨0, j, 0, 0⟩ : Elt)
    else let (b, fl) := narrowPut f c.ctab c.mode ((src j).scale (127 - s)); ⟨0, j, b, fl⟩
  (codes, s, if s == 255 && ins.any (·.snan == 1) then 1 else 0)

def vcvt8Res (x : VW) (c : VC) (codes : Bool) : VRes :=
  match c.ty c.ew c.fsel with
  | some (.narrow f) =>
    let bs := (List.range ((c.vl + c.bl - 1) / c.bl)).map fun b => (b, vcvt8Block x c f b)
    { w := c.ew, xs := if codes then bs.flatMap (·.2.1) else [], ms := [], side := bs.map fun (b, y) => (0, b, y.2.1), g := none
      fl := if codes then bs.foldl (fun a y => a ||| y.2.2.2) 0 else 0 }
  | _ => .elems c.ew []

def vcvtRes (x : VW) (c : VC) : VRes :=
  match x.f with
  | 0 => vcvthRes x c
  | 1 => vcvtdRes x c
  | 2 => match c.ff with
    | some f => c.each x.k fun r i =>
        f.put c.mode c.ftzo (intFp (if x.b.toNat / 16 == 1 then (c.el x.a r i : Int) else toSigned c.ew (c.el x.a r i)))
    | none => .elems c.ew []
  | 3 => match c.ff with
    | some f => c.each x.k fun r i =>
        let u := x.b.toNat / 16 == 1
        let lo : Int := if u then 0 else -(2 ^ (c.ew - 1) : Int)
        let hi : Int := if u then 2 ^ c.ew - 1 else 2 ^ (c.ew - 1) - 1
        let (v, fl) := fpToInt c.mode (f.get c.ftzi (c.el x.a r i)) lo hi
        (ofInt c.ew v, fl)
    | none => .elems c.ew []
  | 4 => vcvt8Res x c true
  | _ => vcvt8Res x c false

/-! ## Moves (R309) and database primitives (R317 to R321) -/

def vmovRes (x : VW) (c : VC) (ga gb : Word) : VRes :=
  match x.f with
  | 0 => c.each x.k fun r i => (c.el x.a r i, 0)
  | 1 => c.each x.k fun _ _ => (ga.toNat % 2 ^ c.ew, 0)
  | 2 =>
    let v := if gb.toNat < c.vl then c.el x.a 0 gb.toNat else c.fill % 2 ^ c.ew
    .greg (if c.fsel == 0 then sext c.ew v else BitVec.ofNat 64 v)
  | 3 => .elems c.ew (if gb.toNat < c.vl && c.act x.k 0 gb.toNat then [⟨0, gb.toNat, ga.toNat % 2 ^ c.ew, 0⟩] else [])
  | 4 => .elems c.ew (c.sweep.map fun (r, i) => ⟨r, i, if c.act x.k r i then c.el x.a r i else c.el x.b r i, 0⟩)
  | _ => .elems c.ew (c.sweep.map fun (r, i) => ⟨r, i, ((List.range i).filter fun j => c.act x.k r j).length % 2 ^ c.ew, 0⟩)

/-- StrCmp over the bytes of two chunk rows: −1, +1, or none where they are equal (R320). -/
def strCmp (l : List (Nat × Nat)) : Option Bool :=
  match l with
  | [] => none
  | (x, y) :: r => if x == y then strCmp r else some (x < y)

def vstrcmpRes (x : VW) (c : VC) : VRes :=
  let pos := (List.range c.vl).filter fun i => c.act x.k 0 i
  let cmp (i : Nat) : Option Bool := strCmp ((List.range c.rows).flatMap fun r => (List.range 8).map fun k =>
    (c.el x.a r i / 256 ^ k % 256, c.el x.b r i / 256 ^ k % 256))
  { w := c.ew, xs := pos.map fun i => ⟨0, i, match cmp i with | none => 0 | some true => 2 ^ 64 - 1 | some false => 1, 0⟩
    ms := if x.k == 0 then [] else (pos.filter fun i => (cmp i).isSome).map fun i => (0, i, false)
    side := [], g := none, fl := 0 }

def vstrhashRes (x : VW) (c : VC) : VRes :=
  .elems c.ew (((List.range c.vl).filter fun i => c.act x.k 0 i).map fun i =>
    let n := c.el x.b 0 i / 2 ^ 40
    let h := (List.range c.rows).foldl (fun h r =>
      if 8 * (bits c.vrs 20 0 + r) < n then hmix64 (BitVec.ofNat 64 (c.el x.a r i)) h else h) (BitVec.ofNat 64 (c.el x.d 0 i))
    ⟨0, i, h.toNat, 0⟩)

def vdbRes (x : VW) (c : VC) (gb : Word) : VRes :=
  match x.f with
  | 0 => c.each x.k fun r i => ((hmix64 (BitVec.ofNat 64 (c.el x.a r i)) (BitVec.ofNat 64 (c.el x.b r i))).toNat % 2 ^ c.ew, 0)
  | 1 => c.each x.k fun r i => (c.el x.a r i * gb.toNat / 2 ^ c.ew, 0)
  | 2 => c.each x.k fun r i =>
      (if c.pad i then 0 else ((List.range i).filter fun j => c.act x.k r j && !c.pad j && c.el x.a r j == c.el x.a r i).length % 2 ^ c.ew, 0)
  | 3 => vstrcmpRes x c
  | _ => vstrhashRes x c

/-- The result of a vector instruction that makes no memory access. -/
def vecRes (x : VW) (c : VC) (ga gb : Word) : VRes :=
  match x.maj with
  | 0x21 => vintRes x c gb
  | 0x22 => match c.ff with | some f => vfpRes x c gb f | none => .elems c.ew []
  | 0x23 => match c.ff with | some f => vsfuRes x c f | none => .elems c.ew []
  | 0x24 => vcmpRes x c gb
  | 0x25 => vmaskRes x c
  | 0x26 => vpermRes x c gb
  | 0x27 => vredRes x c
  | 0x28 => vcvtRes x c
  | 0x29 => vmovRes x c ga gb
  | _ => vdbRes x c gb

end Sys2Proof.Machine
end

