-- ==== Sys2Proof/Machine/VecMem.lean ====
section
/-! DEFINITION. How vector words issue: their sources and destinations, the checks at issue, streams bound to v registers, vector memory
(R310 to R316, R37), and convoys (R178 to R181). -/

namespace Sys2Proof.Machine
open Sys2Proof

/-! ## Sources and destinations (R176) -/

/-- A source: a g register, or rows lo to lo + n − 1 of a v register. -/
inductive VSrc where
  | g (r : BitVec 5)
  | v (r : BitVec 5) (lo n : Nat)
deriving DecidableEq, Repr

/-- Bits of func6 of VLD, VST and VAMO (R239). -/
def VW.vmode (x : VW) : Nat := x.f / 16 % 4
def VW.isLoad (x : VW) : Bool := x.maj == 0x2A || (x.maj == 0x29 && x.f == 6)
def VW.isStore (x : VW) : Bool := x.maj == 0x2B || (x.maj == 0x29 && x.f == 7)
def VW.isAmo (x : VW) : Bool := x.maj == 0x2C
def VW.isMem (x : VW) : Bool := x.isLoad || x.isStore || x.isAmo

/-- Sources in encoding order (R177); krow: the row VROWBC names. -/
def vSources (x : VW) (rows ew krow : Nat) : List VSrc :=
  let va : VSrc := .v x.a 0 rows
  let vb : VSrc := .v x.b 0 rows
  let vd : VSrc := .v x.d 0 rows
  let gs : VSrc := if x.gb then .g x.b else vb
  match x.maj with
  | 0x21 => [va, gs] ++ (if 20 ≤ x.fn then [vd] else [])
  | 0x22 => [va] ++ (if x.fn == 6 || x.fn == 9 || x.fn == 10 then [] else [gs]) ++ (if x.fn == 3 || x.fn == 4 then [vd] else [])
  | 0x23 => [va]
  | 0x24 => [va, gs]
  | 0x26 => (match x.f with
    | 0 => [va, vb]
    | 1 => [va, .g x.b]
    | 2 => [va, .g x.b]
    | 6 => [.v x.a krow 1, .g x.b]
    | _ => [va])
  | 0x27 => [va]
  | 0x28 => (match x.f with
    | 0 => [.v x.a 0 (2 * rows)]
    | 4 => [.v x.a 0 (if ew == 4 then 8 else 4)]
    | 5 => [.v x.a 0 (if ew == 4 then 8 else 4)]
    | _ => [va])
  | 0x29 => (match x.f with
    | 0 => [va]
    | 1 => [.g x.a]
    | 2 => [.v x.a 0 1, .g x.b]
    | 3 => [.g x.a, .g x.b]
    | 4 => [va, vb]
    | 5 => []
    | 6 => [.g x.a]
    | _ => [.g x.a, vd])
  | 0x2A => [.g x.a] ++ (match x.vmode with | 0 => [] | 1 => [.g x.b] | 2 => [vb] | _ => [.v x.b 0 1])
  | 0x2B => [.g x.a] ++ (match x.vmode with | 0 => [] | 1 => [.g x.b] | _ => [vb]) ++ [vd]
  | 0x2C => [.g x.a, vb, vd]
  | 0x2D => (match x.f with
    | 0 => [va, vb]
    | 1 => [va, .g x.b]
    | 2 => [va]
    | 3 => [va, vb]
    | _ => [va, .v x.b 0 1, .v x.d 0 1])
  | _ => []

/-- The v destination and how many of its rows are written. -/
def vDest (x : VW) (rows : Nat) : Option (BitVec 5 × Nat) :=
  match x.maj with
  | 0x24 => none
  | 0x25 => none
  | 0x28 => some (x.d, match x.f with | 1 => 2 * rows | 4 => 1 | 5 => 1 | _ => rows)
  | 0x29 => (match x.f with | 2 => none | 3 => some (x.d, 1) | 7 => none | _ => some (x.d, rows))
  | 0x2B => none
  | 0x2C => none
  | 0x2D => some (x.d, if 3 ≤ x.f then 1 else rows)
  | _ => some (x.d, rows)
/-- The g destination of VEXTR, MPOPC and MFIRST. -/
def vgDest (x : VW) : Option (BitVec 5) :=
  if (x.maj == 0x29 && x.f == 2) || (x.maj == 0x25 && (x.f == 5 || x.f == 6)) then some x.d else none

/-- A use of element i of row `row` of v register `reg`, at width w. -/
structure VUse where
  reg : BitVec 5
  row : Nat
  w : Nat
  i : Nat
deriving DecidableEq, Repr

/-- The elements a vector instruction reads of its v sources, as R294, R296, R304 to R310, R315 and R319 to R321 give them: its active elements, without the
pads where pads are skipped or stand as zero; the elements a permute names; and, for a scaled element, the first of its block, with which its scale lies (R310). -/
def vUses (x : VW) (c : VC) (gb : Word) : List VUse :=
  let act := c.sweep.filter fun (r, i) => c.act x.k r i
  let live := act.filter fun (_, i) => !c.pad i
  let row0 := (List.range c.vl).filter fun i => c.act x.k 0 i
  let at' (r : BitVec 5) (l : List (Nat × Nat)) : List VUse := l.map fun (row, i) => ⟨r, row, c.ew, i⟩
  let moved (f : Nat → Nat → Int) : List VUse :=
    at' x.a (act.filterMap fun (r, i) => let j := f r i; if 0 ≤ j && j < c.vl then some (r, j.toNat) else none)
  let scaled (l : List (Nat × Nat)) : List VUse :=
    if c.bl == 0 || 8 < c.ew then at' x.a l else l.flatMap fun (r, i) => at' x.a [(r, i), (r, i / c.bl * c.bl)]
  let rows (n : Nat) (l : List Nat) : List (Nat × Nat) := (List.range n).flatMap fun r => l.map fun i => (r, i)
  match x.maj with
  | 0x21 => at' x.a act ++ (if x.gb then [] else at' x.b act) ++ (if 20 ≤ x.fn then at' x.d act else [])
  | 0x22 => at' x.a act ++ (if x.gb || x.fn == 6 || x.fn == 9 || x.fn == 10 then [] else at' x.b act) ++ (if x.fn == 3 || x.fn == 4 then at' x.d act else [])
  | 0x23 => at' x.a act
  | 0x24 => at' x.a act ++ (if x.gb then [] else at' x.b act)
  | 0x26 => (match x.f with
    | 0 => moved (fun r i => c.el x.b r i) ++ at' x.b act
    | 1 => moved fun _ i => (i : Int) - gb.toNat
    | 2 => moved fun _ i => (i : Int) + gb.toNat
    | 3 => at' x.a act
    | 4 => at' x.a ((List.range c.rows).flatMap fun r => (((List.range c.vl).filter fun i => c.act x.k r i).zipIdx).map fun (_, j) => (r, j))
    | 5 => at' x.a live
    | _ => at' x.a (act.map fun (_, i) => (gb.toNat, i)))
  | 0x27 => at' x.a live
  | 0x28 => (match x.f with
    | 0 => scaled ((rows (2 * c.rows) (List.range c.vl)).filter fun (r, i) => c.act x.k r i)
    | 1 => scaled act
    | 4 => row0.map fun j => ⟨x.a, j / (rowBytes c.l / 4), 32, j % (rowBytes c.l / 4)⟩
    | 5 => (row0.filter fun j => !c.pad j).map fun j => ⟨x.a, j / (rowBytes c.l / 4), 32, j % (rowBytes c.l / 4)⟩
    | _ => at' x.a act)
  | 0x29 => (match x.f with
    | 0 => at' x.a act
    | 2 => if gb.toNat < c.vl then at' x.a [(0, gb.toNat)] else []
    | 4 => at' x.a act ++ at' x.b (c.sweep.filter fun (r, i) => !c.act x.k r i)
    | 7 => at' x.d (live.filter fun (_, i) => i % c.bl == 0)
    | _ => [])
  | 0x2A => (match x.vmode with | 2 => at' x.b live | 3 => at' x.b (live.map fun (_, i) => (0, i)) | _ => [])
  | 0x2B => (if x.vmode == 2 then at' x.b live else []) ++ at' x.d live
  | 0x2C => at' x.b live ++ at' x.d live
  | 0x2D => (match x.f with
    | 0 => at' x.a act ++ at' x.b act
    | 1 => at' x.a act
    | 2 => at' x.a live
    | 3 => at' x.a (rows c.rows row0) ++ at' x.b (rows c.rows row0)
    | _ => at' x.a ((rows c.rows row0).filter fun (r, i) => 8 * (bits c.vrs 20 0 + r) < c.el x.b 0 i / 2 ^ 40) ++ at' x.b (rows 1 row0) ++ at' x.d (rows 1 row0))
  | _ => []

/-- The first faulted group or g register the instruction reads, in the order of its sources (R314, R459): taken once every row of R247 has passed. -/
def vMark (s : State) (x : VW) (c : VC) (srcs : List VSrc) (gb : Word) : Option Mark :=
  if (tileOf s (curTile s)).vFault.isEmpty && (curH s).gFault.isEmpty then none
  else
    let uses := vUses x c gb
    srcs.findSome? fun y => match y with
      | .g r => (match gSrcSt s r with | .marked m => some m | _ => none)
      | .v r _ _ => if (boundTo s true r).isSome then none else
          (uses.filter fun u => u.reg == r).findSome? fun u => mfind (tileOf s (curTile s)).vFault (groupKey c.l r.toNat u.row (u.i * u.w / 8))

/-! ## Checks at issue: rows 6 to 8 of R247 -/

/-- eaddr of EMPTY and STREAM for a v register (R177). -/
def vName (r : BitVec 5) (row grp : Nat) : Word := BitVec.ofNat 64 (r.toNat + 32 + row * 2 ^ 8 + grp * 2 ^ 11)

/-- The first of the own groups of some rows that is empty. -/
def groupStop (t : Tile) (l : BitVec 4) (r : BitVec 5) (trap : Bool) (rows : List Nat) : Option Stop :=
  rows.findSome? fun row => (List.range (rowBytes l / 64)).findSome? fun g =>
    if t.vEmpty.contains (groupKey l r.toNat row (g * 64)) then some (if trap then .trap cEMPTY 0 (vName r row g) else .wait .reg) else none

/-- Positions a v use of a stream needs, and those it has left (R351). -/
def streamNeed (c : VC) (e : SEng) : Nat := min (c.rows * c.req) (patTotal e.recd - e.used)

/-- Row 7 for a v source: a bound register is empty until the positions it needs are fetched (R351). -/
def vSrcStop (s : State) (c : VC) (r : BitVec 5) (lo n : Nat) (trap : Bool) : Option Stop :=
  match boundTo s true r with
  | some (_, e) =>
    if !e.write && e.err.isNone && e.data.length < streamNeed c e then some (if trap then .trap cEMPTY 0 (vName r 0 0) else .wait .stream) else none
  | none => groupStop c.t c.l r trap (((List.range n).map (lo + ·)).filter (· < 8))
/-- Row 8 for a bound v register, and for a register of a convoy's member that is bound (R351). -/
def vMisuse (s : State) (c : VC) (r : BitVec 5) (write convoy : Bool) : Option Stop :=
  match boundTo s true r with
  | none => none
  | some (_, e) => if convoy || e.write != write || c.ew != 8 * patBytes e.recd then some (.trap cOPERAND 0 0) else none
def gMisuse (s : State) (r : BitVec 5) (convoy : Bool) (other : Option Stop) : Option Stop :=
  if convoy && r != 0 && (boundTo s false r).isSome then some (.trap cOPERAND 0 0) else other
/-- A bound v register has no position left, which traps once every row has passed. -/
def vLate (s : State) (r : BitVec 5) : Option Stop :=
  match boundTo s true r with
  | none => none
  | some (_, e) => if e.err.isSome || patTotal e.recd ≤ e.used then some (.trap cSTREAM 0 (vName r 0 0)) else none

/-- The element types and operand values an instruction takes (row 8, R298). -/
def vOperandsOk (x : VW) (c : VC) (gb : Word) : Bool :=
  match x.maj with
  | 0x21 => x.fn != 20 || c.ew == 32
  | 0x22 => c.ff.isSome
  | 0x23 => c.ff.isSome && c.ew != 64
  | 0x24 => x.f / 16 % 2 == 0 || c.ff.isSome
  | 0x26 => (match x.f with | 5 => x.b.toNat / 16 == 0 || c.ff.isSome | 6 => gb.toNat < 8 | _ => true)
  | 0x27 => x.f / 16 % 2 == 0 || c.ff.isSome
  | 0x28 =>
    let f := x.b.toNat
    let both (dw : Nat) : Bool := f / 8 % 2 == 1 || ((c.ty c.ew c.fsel).isSome && (c.ty dw (f % 8)).isSome)
    (match x.f with
    | 0 => 8 ≤ c.ew && c.rows ≤ 4 && both (c.ew / 2)
    | 1 => c.ew ≤ 32 && c.rows ≤ 4 && both (c.ew * 2)
    | 2 => c.ff.isSome
    | 3 => c.ff.isSome
    | _ => c.ew ≤ 8 && c.bl != 0 && c.rows == 1 && (c.ty c.ew c.fsel).isSome)
  | 0x29 => x.f < 6 || c.bl != 0
  | 0x2A => (match x.vmode with | 0 => true | 3 => c.ew == 64 | _ => 8 ≤ c.ew)
  | 0x2B => x.vmode == 0 || 8 ≤ c.ew
  | 0x2C => c.ew == 32 || c.ew == 64
  | 0x2D => (match x.f with
    | 0 => c.ew == 32 || c.ew == 64
    | 1 => (c.ew == 32 && gb.toNat ≤ 2 ^ 32 || c.ew == 64) && gb != 0
    | 2 => true
    | _ => c.ew == 64)
  | _ => true

/-- Rows 6 to 8 of R247 for one vector word, and after them what a stream without positions traps with. Of a convoy, a group that an earlier member writes was full when that member's destination was checked, so that a
reader of it neither waits nor traps (R181). -/
def vPre (s : State) (x : VW) (convoy : Bool) : Option Stop :=
  let c := vcOf (curH s) (tileOf s (curTile s))
  if c.l == 0 then some (.trap cOPERAND 0 0)
  else
    let gb := gVal s x.b
    let srcs := vSources x c.rows c.ew (gb.toNat % 8)
    let row7 := srcs.findSome? fun y => match y with
      | .g r => srcStop s [(r, x.t)]
      | .v r lo n => vSrcStop s c r lo n x.t
    let dst7 := match vDest x c.rows with
      | some (r, n) =>
        match boundTo s true r with
          | some (_, e) => if e.write && e.err.isNone && 4096 ≤ e.data.length * patBytes e.recd then some (Stop.wait .stream) else none
          | none => groupStop c.t c.l r false ((List.range n).filter (· < 8))
      | none => dstStop s (vgDest x)
    let row8 := srcs.findSome? fun y => match y with
      | .g r => gMisuse s r convoy (srcMisuse s [(r, x.t)])
      | .v r _ _ => vMisuse s c r false convoy
    let dst8 := match vDest x c.rows with
      | some (r, _) => vMisuse s c r true convoy
      | none => dstMisuse s (vgDest x)
    let late := srcs.findSome? fun y => match y with
      | .g r => (match gSrcSt s r with | .ended => some (Stop.trap cSTREAM 0 (gName r)) | _ => none)
      | .v r _ _ => vLate s r
    let dstL := match vDest x c.rows with
      | some (r, _) => vLate s r
      | none => dstLate s (vgDest x)
    row7.or (dst7.or (row8.or (dst8.or ((if vOperandsOk x c gb then none else some (.trap cOPERAND 0 0)).or (late.or dstL)))))

/-! ## Streams bound to v registers (R351) -/

/-- The tile as a word's sources see it: a bound register's rows hold the positions this use pops, zero past them. -/
def popTile (s : State) (c : VC) (srcs : List VSrc) : Tile :=
  srcs.foldl (fun t y => match y with
    | .g _ => t
    | .v r _ _ => match boundTo s true r with
      | none => t
      | some (_, e) => (List.range c.rows).foldl (fun t row => (List.range c.vl).foldl (fun t i =>
          setVElem t c.l r.toNat row c.ew i (if i < c.req then (e.data.getD (row * c.req + i) 0).toNat else 0)) t) t) c.t
/-- The positions its v sources use up. -/
def popVStreams (s : State) (c : VC) (srcs : List VSrc) : State :=
  (srcs.foldl (fun l y => match y with | .v r _ _ => if l.contains r then l else r :: l | .g _ => l) ([] : List (BitVec 5))).foldl
    (fun s r => match boundTo s true r with
      | some (q, e) => let n := streamNeed c e; setEng s (curTile s) q { e with used := e.used + n, data := e.data.drop n }
      | none => s) s
/-- Every stream position the sources use up. -/
def popAll (s : State) (x : VW) (c : VC) (srcs : List VSrc) : State :=
  popVStreams (popSrcs s (srcs.filterMap fun y => match y with | .g r => some (r, x.t) | .v _ _ _ => none)) c srcs

/-- The elements written go to a bound write stream: vrc × vlreq positions, those not written use up theirs. -/
def pushElems (s : State) (c : VC) (q : Nat) (e : SEng) (xs : List Elt) : State :=
  let pos := ((List.range c.rows).flatMap fun r => (List.range c.req).map fun i => (r, i)).take (streamNeed c e)
  let vals : List (Option Elt) := pos.map fun (r, i) => xs.find? fun y => y.r == r && y.i == i
  setEng s (curTile s) q { e with used := e.used + pos.length
                                  data := e.data ++ vals.map (fun y => match y with | some y => BitVec.ofNat 64 y.v | none => 0)
                                  mask := e.mask ++ vals.map (·.isSome) }

/-! ## Committing a result -/

/-- Elements put into rows of a register; a group written whole loses its fault mark (R314). -/
def putElts (t : Tile) (l : BitVec 4) (d w : Nat) (xs : List Elt) : Tile :=
  let t' := xs.foldl (fun t e => setVElem t l d e.r w e.i e.v) t
  if t.vFault.isEmpty then t'
  else
    { t' with vFault := t.vFault.filter fun (k, _) =>
        decide ((xs.filter fun e => groupKey l d e.r (e.i * w / 8) == k).length < 512 / w) }

/-- The v registers, masks, sidecars, g register and flags a result writes. -/
def vCommit (s : State) (x : VW) (c : VC) (r : VRes) : State :=
  let ti := curTile s
  let s := match boundTo s true x.d, (vDest x c.rows).isSome with
    | some (q, e), true => pushElems s c q e r.xs
    | _, _ => setTile s ti (putElts (tileOf s ti) c.l x.d.toNat r.w r.xs)
  let mreg := if x.maj == 0x2D then x.k.toNat else x.d.toNat
  let t := r.ms.foldl (fun t (row, i, b) => setMBit t c.l mreg row i b) (tileOf s ti)
  let t := r.side.foldl (fun t (row, j, b) => setSideByte t c.l c.ew c.bl x.d.toNat row j (BitVec.ofNat 8 b)) t
  let s := setTile s ti t
  let s := match r.g with | some v => issueValue s x.d v | none => s
  let h := curH s
  setCur s { h with v := { h.v with vcsr := h.v.vcsr ||| BitVec.ofNat 64 (r.flags % 128 * 256) } }

/-! ## The accesses of a vector memory instruction (R310 to R313, R316) -/

/-- One access: its element's row and index, its address and bytes, and where a load puts it. -/
structure VAcc where
  r : Nat
  i : Nat
  va : Word
  n : Nat
  dest : Dest
deriving DecidableEq, Repr

def VC.live (c : VC) (k : BitVec 3) (r i : Nat) : Bool := c.act k r i && !c.pad i

/-- Accesses of VSCLD and VSCST (R310). -/
def sideAccs (x : VW) (c : VC) (base : Word) : List VAcc :=
  let nb := (c.vl + c.bl - 1) / c.bl
  (List.range c.rows).flatMap fun r => ((List.range nb).filter fun j => c.live x.k r (j * c.bl)).map fun j =>
    ⟨r, j * c.bl, base + BitVec.ofNat 64 (r * nb + j), 1, .side (sideKey c.l c.ew c.bl x.d.toNat r j) (groupKey c.l x.d.toNat r (j * c.bl * c.ew / 8))⟩

/-- Accesses of VLD, VST and VAMO in element order (R311, R312, R316). -/
def vAccs (x : VW) (c : VC) (ga gb : Word) : List VAcc :=
  if x.maj == 0x29 then sideAccs x c ga
  else
    let mode := if x.isAmo then 2 else x.vmode
    (c.sweep.filter fun (r, i) => c.live x.k r i).flatMap fun (r, i) =>
      let row := ga + BitVec.ofNat 64 r * c.vrs
      let one (va : Word) : List VAcc := [⟨r, i, va, (c.ew + 7) / 8, .v c.l x.d.toNat r c.ew i⟩]
      match mode with
      | 0 => one (row + BitVec.ofNat 64 (i * c.ew / 8))
      | 1 => one (row + BitVec.ofNat 64 i * gb)
      | 2 => one (row + BitVec.ofNat 64 (c.el x.b r i))
      | _ =>
        let desc := c.el x.b 0 i
        let o := bits c.vrs 20 0 + r
        ((List.range 8).filter fun k => 8 * o + k < desc / 2 ^ 40).map fun k =>
          ⟨r, i, ga + BitVec.ofNat 64 (desc % 2 ^ 40 + 8 * o + k), 1, .v c.l x.d.toNat r 8 (8 * i + k)⟩

/-- An access must be aligned to its element (R311, R316). -/
def vAligned (x : VW) (c : VC) : Bool := x.maj != 0x29 && c.ew != 4 && !(x.maj == 0x2A && x.vmode == 3)

/-- What the probe finds (R37, R313). -/
inductive Probe where
  | ok (s : State) (l : List (VAcc × List Piece))
  | stop (s : State) (x : Stop)
deriving DecidableEq, Repr

/-- Each access in element order: alignment, translation by tr, and TRAP Cinch pieces (R116). -/
def vProbeBy (tr : State → Word → TrRes) (s : State) (aligned : Bool) (k : AccKind) (io : IoRule) (l : List VAcc) : Probe :=
  match l with
  | [] => .ok s []
  | y :: r =>
    if aligned && y.va.toNat % y.n != 0 then .stop s (.trap cMISALIGN 0 y.va)
    else match rangeWith tr s (curTile s) (curPart s) y.va y.n k io with
      | .fault s c sb a => .stop s (.trap c sb a)
      | .ok s xs =>
        if xs.any (fun p => !p.io && (conflicts s (p.pk / 128) (wantsWrite k) (curTile s) 100).any PieceT.traps) then .stop s (.trap cRSVC 0 y.va)
        else match vProbeBy tr s aligned k io r with
          | .ok s z => .ok s ((y, xs) :: z)
          | z => z

/-- The unit-stride register serves an access all of whose bytes lie in its page (R35); one that lacks a permission, or D, is walked again (R26, R29). -/
def ustrServes (s : State) (k : AccKind) (l : List VAcc) : Option Xlat :=
  let asid := asidOf s (curPart s)
  (curH s).ustr.filter fun x =>
    serves x k (curH s).sup && l.all fun y => x.covers asid y.va && x.covers asid (y.va + BitVec.ofNat 64 (y.n - 1))
/-- The last byte an access touches that lies highest. -/
def topByte (l : List VAcc) : Option Word :=
  l.foldl (fun b y =>
    let e := y.va + BitVec.ofNat 64 (y.n - 1)
    match b with | some a => if a.toNat < e.toNat then some e else b | none => some e) none
/-- The register is reloaded with the translation of the highest-addressed page touched (R35). -/
def ustrLoad (s : State) (l : List VAcc) : State :=
  match topByte l with
  | none => s
  | some a => match gtlbFind (tileOf s (curTile s)) (asidOf s (curPart s)) a with
    | some x => setCur s { curH s with ustr := some x }
    | none => s

/-- The probe of a vector memory instruction (R35, R37, R313); unit: a unit-stride VLD or VST, which uses the hart's unit-stride register. -/
def vProbe (s : State) (unit aligned : Bool) (k : AccKind) (io : IoRule) (l : List VAcc) : Probe :=
  let banks (s : State) (a : Word) : TrRes := xlate s (curTile s) (curPart s) a k (curH s).sup
  if !unit then vProbeBy banks s aligned k io l
  else match ustrServes s k l with
    | some x => vProbeBy (fun s a => useXlat s x a k) s aligned k io l
    | none => match vProbeBy banks s aligned k io l with
      | .ok s z => .ok (ustrLoad s l) z
      | z => z
/-- The state a probe leaves, its translations installed (R37). -/
def Probe.state (p : Probe) : State :=
  match p with
  | .ok s _ => s
  | .stop s _ => s

/-- A unit-stride access whose base is misaligned traps even where no element is accessed (R311): eaddr is the first accessed element's address, else the
base (notes/assumptions/32.md). -/
def baseStop (x : VW) (c : VC) (ga : Word) (l : List VAcc) : Option Stop :=
  if (x.maj == 0x2A || x.maj == 0x2B) && x.vmode == 0 && c.ew != 4 && ga.toNat % (c.ew / 8) != 0 then
    some (.trap cMISALIGN 0 (match l with | y :: _ => y.va | [] => ga))
  else none

/-! ## Loads -/

/-- What a load writes without an access: pad elements, or their sidecar bytes, and the bytes a chunk row does not have. -/
def padWrites (x : VW) (c : VC) : VRes :=
  if x.maj == 0x29 then
    let nb := (c.vl + c.bl - 1) / c.bl
    { w := 8, xs := [], ms := [], g := none, fl := 0
      side := (List.range c.rows).flatMap fun r => ((List.range nb).filter fun j => c.act x.k r (j * c.bl) && c.pad (j * c.bl)).map fun j => (r, j, 0) }
  else .elems c.ew ((c.sweep.filter fun (r, i) => c.act x.k r i && (c.pad i || x.vmode == 3)).map fun (r, i) => ⟨r, i, 0, 0⟩)

/-- The order of a vector access (R139 to R142). -/
def vecOrd (s : State) (x : VW) : AccOrd :=
  { ins := s.nextId, sup := (curH s).sup, vec := true, acq := x.maj == 0x2A && x.f % 4 == 1, rel := x.maj == 0x2B && x.f % 4 == 1, strict := false
    inOrder := if x.maj == 0x29 then false else if x.isAmo then x.f / 4 % 2 == 1 else x.f / 8 % 2 == 1
    apart := if x.maj == 0x29 then false else if x.isAmo then x.f / 2 % 2 == 1 else x.f / 4 % 2 == 1 }

/-- Groups a load writes become empty; one written whole loses its mark (R175, R314). -/
def emptyGroups (t : Tile) (c : VC) (x : VW) (ks : List Nat) : Tile :=
  let written := c.sweep.filter fun (r, i) => c.act x.k r i
  ks.foldl (fun t k =>
    let t := { t with vEmpty := k :: t.vEmpty.filter (· != k) }
    if x.maj == 0x2A && (written.filter fun (r, i) => groupKey c.l x.d.toNat r (i * c.ew / 8) == k).length == 512 / c.ew then vClearMark t k else t) t

/-- The accesses of a load go out. -/
def issueLoads (s : State) (chk : Bool) (o : AccOrd) (l : List (Dest × Word × List Piece)) : State :=
  l.foldl (fun s (d, va, xs) => issuePend s none xs va d chk o) s

def loadGo (s : State) (x : VW) (c : VC) (l : List (VAcc × List Piece)) : State :=
  let o := vecOrd s x
  let s := vCommit s x c (padWrites x c)
  let ks := l.foldl (fun ks (y, _) => match y.dest.group with | some k => if ks.contains k then ks else k :: ks | none => ks) ([] : List Nat)
  let s := setTile s (curTile s) (emptyGroups (tileOf s (curTile s)) c x ks)
  issueLoads s true o (l.map fun (y, xs) => (y.dest, y.va, xs))

/-- Groups whose collected elements are faulted are marked, as a load marks them (R314). -/
def markLoaded (s : State) (cv : Conv) (l : List VAcc) : State :=
  l.zipIdx.foldl (fun s (y, j) => match mfind cv.marks (cv.first + j), y.dest.group with
    | some m, some k => if (mfind (tileOf s (curTile s)).vFault k).isSome then s else setTile s (curTile s) (vMarkGroup (tileOf s (curTile s)) k m)
    | _, _ => s) s
/-- The collected data of a load as a result (R181, R351). -/
def loadUse (s : State) (x : VW) (c : VC) (cv : Conv) (l : List VAcc) : State :=
  markLoaded (
  let t := l.zipIdx.foldl (fun t (y, j) => putDest t y.dest (mgetD cv.vals (cv.first + j) [])) (putElts c.t c.l x.d.toNat c.ew (padWrites x c).xs)
  if x.maj == 0x29 then
    setTile (vCommit s x c (padWrites x c)) (curTile s) (l.zipIdx.foldl (fun t (y, j) => putDest t y.dest (mgetD cv.vals (cv.first + j) []))
      (tileOf (vCommit s x c (padWrites x c)) (curTile s)))
  else vCommit s x c (.elems c.ew ((c.sweep.filter fun (r, i) => c.act x.k r i).map fun (r, i) => ⟨r, i, vElem t c.l x.d.toNat r c.ew i, 0⟩))) cv l

/-! ## Stores and VAMO -/

/-- One store of an element or sidecar byte (R311, R131). -/
def storeItem (x : VW) (c : VC) (y : VAcc) : MemOp :=
  if x.maj == 0x29 then .write [sideByte c.t c.l c.ew c.bl x.d.toNat y.r (y.i / c.bl)]
  else if x.isAmo then
    .rmw (match x.f / 8 with | 0 => 2 | 1 => 6 | 2 => 7 | 3 => 4 | _ => 10) (c.ew == 64) (BitVec.ofNat 64 (c.el x.d y.r y.i)) 0
  else if c.ew == 4 then .nibble (y.i % 2 == 1) (c.el x.d y.r y.i)
  else .write (leBytes (c.ew / 8) (c.el x.d y.r y.i))

/-- The nibbles of a granule that an item writes. -/
def itemMask (op : MemOp) (xs : List Piece) : Nat :=
  match op, xs with
  | .write _, [x] => (4 ^ x.n - 1) * 4 ^ (x.pk % 128)
  | .nibble hi _, [x] => (if hi then 2 else 1) * 4 ^ (x.pk % 128)
  | _, _ => 0
/-- The granules that the items write whole (R461). -/
def wholeGrans (l : List (MemOp × List Piece × Word)) : List Nat :=
  (l.foldl (fun m (op, xs, _) => match xs with | x :: _ => if x.io then m else mput m (x.pk / 128) (mgetD m (x.pk / 128) 0 ||| itemMask op xs) | [] => m)
    ([] : SMap Nat)).filterMap fun (g, m) => if m == 2 ^ 256 - 1 then some g else none
/-- The bytes the items leave in granule g. -/
def wholeBytes (l : List (MemOp × List Piece × Word)) (g : Nat) : List Byte :=
  let d := l.foldl (fun d (op, xs, _) => match op, xs with
    | .write bs, x :: _ => if x.pk / 128 == g then (putCopy d 0 (x.pk % 128) bs).1 else d
    | .nibble hi v, x :: _ => if x.pk / 128 == g then setGranByte d (x.pk % 128) (withNibble hi v (granByte d (x.pk % 128))) else d
    | _, _ => d) (0 : BitVec 1024)
  (List.range 128).map (granByte d)

/-- The items of a store enter the store buffer in element order, a granule written whole as one entry, which with O = 1 stands at the place of its first
element (R140, R461; notes/assumptions/32.md). -/
def storeGo (s : State) (x : VW) (c : VC) (l : List (VAcc × List Piece)) : State :=
  let o := vecOrd s x
  let items := l.map fun (y, xs) => (storeItem x c y, xs, y.va)
  let whole := if x.isAmo then [] else wholeGrans items
  let s := if o.rel || items.any fun (_, xs, _) => xs.any (·.io) then flushHart s s.cur else s
  (items.foldl (fun (s, done) (op, xs, va) =>
    match xs with
    | p :: _ =>
      if whole.contains (p.pk / 128) then
        (if done.contains (p.pk / 128) then (s, done)
         else (putEntry s (.write (wholeBytes items (p.pk / 128))) [⟨p.pk / 128 * 128, 128, p.vcid, va - BitVec.ofNat 64 (p.pk % 128), false⟩]
            (va - BitVec.ofNat 64 (p.pk % 128)) o true, p.pk / 128 :: done))
      else (putEntry s op xs va { o with rel := o.rel || p.io, strict := p.io } false, done)
    | [] => (s, done)) (s, ([] : List Nat))).1

/-! ## Running members -/

/-- The accesses of a vector memory instruction, and what the probe is told of them. -/
def VW.accs (x : VW) (s : State) : List VAcc :=
  let c0 := vcOf (curH s) (tileOf s (curTile s))
  let ga := gVal s x.a
  let gb := gVal s x.b
  vAccs x { c0 with t := popTile s c0 (vSources x c0.rows c0.ew (gb.toNat % 8)) } ga gb
def VW.accKind (x : VW) : AccKind := if x.isLoad then .read else if x.isAmo then .amo else .write
def VW.unitStride (x : VW) : Bool := (x.maj == 0x2A || x.maj == 0x2B) && x.vmode == 0
/-- The probe of instruction x on state s. -/
def VW.probe (x : VW) (s : State) (l : List VAcc) : Probe :=
  let c := vcOf (curH s) (tileOf s (curTile s))
  vProbe s x.unitStride (vAligned x c) x.accKind (if x.maj == 0x2B && c.ew == 64 then .counter else .none) l

/-- What one member does on the state its predecessors leave: done, with the pieces it reads and writes; its data must be collected first; stopped. -/
inductive VStep where
  | ok (s : State) (rd wr : List Piece)
  | need (l : List (Word × List Piece)) (chk : Bool) (o : AccOrd)
  | stop (s : State) (x : Stop)
deriving DecidableEq, Repr

/-- A member on a trial state; cv: the data its load has collected; collect: it must not go on without them. -/
def vRun (s : State) (x : VW) (collect : Bool) (cv : Option Conv) : VStep :=
  let c0 := vcOf (curH s) (tileOf s (curTile s))
  let ga := gVal s x.a
  let gb := gVal s x.b
  let srcs := vSources x c0.rows c0.ew (gb.toNat % 8)
  let c := { c0 with t := popTile s c0 srcs }
  match vMark s x c srcs gb with
  | some m => .stop s m.stop
  | none =>
  if !x.isMem then .ok (vCommit (popAll s x c srcs) x c (vecRes x c ga gb)) [] []
  else
    let l := x.accs s
    match baseStop x c ga l with
    | some z => .stop s z
    | none =>
      match x.probe s l with
      | .stop s z => .stop s z
      | .ok s z =>
        let ps := z.flatMap (·.2)
        if x.isLoad then
          match collect, cv with
          | false, _ => .ok (loadGo (popAll s x c srcs) x c z) ps []
          | true, some cv =>
            (match (boundTo s true x.d).isSome, cv.marks with
            | true, (_, m) :: _ => .stop s m.stop
            | _, _ => .ok (loadUse (popAll s x c srcs) x c cv l) ps [])
          | true, none => if z.isEmpty then .ok (loadGo (popAll s x c srcs) x c z) [] [] else .need (z.map fun (y, xs) => (y.va, xs)) true (vecOrd s x)
        else .ok (storeGo (popAll s x c srcs) x c z) [] ps

/-- A later member reads or writes the register that a load writes: the load's data must be there first. -/
def touches (x : VW) (r : BitVec 5) (rows ew : Nat) : Bool :=
  (vSources x rows ew 0).any (fun y => match y with | .v q _ _ => q == r | .g _ => false)
    || (match vDest x rows with | some (q, _) => q == r | none => false)

/-- The probes of members, made again on the state before the convoy: what they install stays when a member faults or waits for data (R37). -/
def reprobe (s : State) (ps : List (VW × List VAcc)) : State := ps.foldl (fun s (x, l) => (x.probe s l).state) s

/-- The members in turn on a trial state (R178, R181). orig: the state before the convoy; ps: the memory members so far with their accesses. -/
def vMembers (orig s : State) (pc : Word) (j : Nat) (rd wr : Option (Nat × List Piece)) (ps : List (VW × List VAcc)) (xs : List VW) : Res :=
  match xs with
  | [] => .ok (setCur s { curH s with conv := none })
  | x :: rest =>
    let collect := x.isLoad && ((boundTo s true x.d).isSome || rest.any fun y => touches y x.d (bits (curH s).v.vrc 3 0) (vtEw (curH s).v.vtype))
    let ps' := if x.isMem then ps ++ [(x, x.accs s)] else ps
    match vRun s x collect (curH orig).conv with
    | .stop _ z => .stop (reprobe orig ps') z
    | .need l chk o =>
      let s := reprobe orig ps'
      let s := setCur s { curH s with conv := some { first := s.nextId, vals := [], marks := [] } }
      waitR (issueLoads s chk o (l.zipIdx.map fun ((va, ps), n) => (.buf (orig.nextId + n), va, ps))) .data
    | .ok s' r w =>
      let rd := if x.isLoad then some (j, r) else rd
      let wr := if x.isMem && !x.isLoad then some (j, w) else wr
      match rd, wr with
      | some (a, p), some (b, q) =>
        if overlap p q then .stop (reprobe orig ps') (.trap cCONVOY 0 (pc + BitVec.ofNat 64 (4 * min a b))) else vMembers orig s' pc (j + 1) rd wr ps' rest
      | _, _ => vMembers orig s' pc (j + 1) rd wr ps' rest

/-- Rows 6 to 8 for each member in order. -/
def vPres (s : State) (xs : List VW) : Option Stop := xs.findSome? fun x => vPre s x (decide (1 < xs.length))

/-- One vector word, or a convoy whose structure is sound: its checks, the collecting of its data, its effect (R181, R247). -/
def vBody (xs : List VW) (s : State) : Res :=
  let h := curH s
  match vPres s xs with
  | some z => .stop s z
  | none =>
    match h.conv with
    | some cv =>
      if s.pend.any fun q => q.hart == s.cur && decide (cv.first ≤ q.id) && (match q.dest with | .buf _ => true | _ => false) then waitR s .data
      else vMembers s s h.pc 0 none none [] xs
    | none => vMembers s s h.pc 0 none none [] xs

/-- Row 2: major 0x2D and the string chunk mode need VDB (R249). -/
def vGated (s : State) (x : VW) : Bool := (x.maj == 0x2D || (x.maj == 0x2A && x.vmode == 3)) && !featOn s 2

/-- A vector word alone; with C = 1 it follows no convoy (R180). -/
def vIssue (c : Bool) (x : VW) (s : State) : Host.Outcome State Fault Refusal :=
  finish1 s (if vGated s x then trapR s cILLOP 0 else if c then trapR s cCONVOY (curH s).pc else vBody [x] s)

/-! ## Convoys (R178 to R180) -/

/-- The fields of a vector word. -/
def vwOf (w : Nat) : VW := ⟨fldN w 26 6, fld w 21 5, fld w 16 5, fld w 11 5, fld w 8 3, bit w 6, fldN w 0 6⟩

/-- The word is an instruction of its major (row 3 of R247). -/
def vwOk (w : Nat) : Bool :=
  let d := match fldN w 26 6 with
    | 0x21 => decVint w
    | 0x22 => decVfp w
    | 0x23 => decVsfu w
    | 0x24 => decVcmp w
    | 0x25 => decVmask w
    | 0x26 => decVperm w
    | 0x27 => decVred w
    | 0x28 => decVcvt w
    | 0x29 => decVmov w
    | 0x2A => decVld w
    | 0x2B => decVst w
    | 0x2C => decVamo w
    | 0x2D => decVdb w
    | _ => decVctl w
  match checkFields d with
  | .ok _ => true
  | .error _ => false

/-- The pipe of a member (R179): 0 arithmetic, 1 special, 2 cross-lane, 3 load, 4 store; none: not a member. -/
def pipeOf (x : VW) : Option Nat :=
  if x.isLoad then some 3
  else if x.isStore || x.isAmo then some 4
  else if (vgDest x).isSome || x.maj == 0x2E then none
  else match x.maj with
    | 0x23 => some 1
    | 0x2D => some 1
    | 0x26 => some 2
    | 0x27 => some 2
    | _ => some 0

/-- Registers read away from the member's own element: v registers, and masks as 32 + m (R180). The governing mask is read so by those whose result at one
position depends on its bits at others: VCOMPRESS, VEXPAND, VSCAN, every VRED, the conversions that move elements between positions, and VCONF (R304, R305,
R307, R308, R319). -/
def crossReads (x : VW) : List Nat :=
  let mask := if x.k != 0 then [32 + x.k.toNat] else []
  match x.maj with
  | 0x26 => x.a.toNat :: (if x.f == 3 || x.f == 4 || x.f == 5 then mask else [])
  | 0x27 => x.a.toNat :: mask
  | 0x28 => if x.f == 2 || x.f == 3 then [] else x.a.toNat :: mask
  | 0x2D => (match x.f with | 2 => x.a.toNat :: mask | 3 => [x.a.toNat, x.b.toNat] | _ => [])
  | _ => []
def memberWrites (x : VW) : List Nat :=
  (match vDest x 1 with | some (r, _) => [r.toNat] | none => [])
    ++ (if x.maj == 0x24 || (x.maj == 0x25 && (vgDest x).isNone) then [32 + x.d.toNat] else [])
    ++ (if x.maj == 0x2D && x.f == 3 && x.k != 0 then [32 + x.k.toNat] else [])

/-- The member at which the count of some pipe is exceeded. -/
def overPipe (xs : List VW) : Option Nat :=
  (List.range xs.length).find? fun j =>
    match xs[j]? with
    | some x => match pipeOf x with
      | some p => decide ((if p == 0 then 2 else 1) < (((xs.take (j + 1)).filter fun y => pipeOf y == some p).length))
      | none => false
    | none => false
/-- A word that is no member, or the fifth word. -/
def misplaced (xs : List VW) : Option Nat :=
  (List.range xs.length).find? fun j => 4 ≤ j || (match xs[j]? with | some x => (pipeOf x).isNone | none => false)
/-- The first member that takes part in a cross-lane conflict: the earliest writer of what a later member reads across lanes. -/
def crossClash (xs : List VW) : Option Nat :=
  (List.range xs.length).find? fun j =>
    match xs[j]? with
    | some x => (xs.drop (j + 1)).any fun y => (crossReads y).any (memberWrites x).contains
    | none => false

/-- The convoy's faulty word, if its structure is not sound; startC: its first word has C = 1. Which case names the word where several of R180 apply is the
model's choice: an over-subscribed pipe, then a misplaced or fifth word, then a cross-lane read (notes/assumptions/32.md). -/
def convoyFault (startC : Bool) (xs : List VW) : Option Nat :=
  if startC then some 0 else (overPipe (xs.take 4)).or ((misplaced xs).or (crossClash xs))

/-- A vector word refused by rows 2 or 3 of R247: VTHR gates the VCTL functions but SETRC (R249). -/
def illWord (s : State) (w : Nat) : Bool := vGated s (vwOf w) || ((vwOf w).maj == 0x2E && (vwOf w).f != 0 && !featOn s 5) || !vwOk w

/-- A convoy as fetched: rows 2 and 3 for each word, its structure, then its members as one (R178 to R181, R247). -/
def convoyBody (ws : List Nat) (s : State) : Res :=
  let xs := ws.map vwOf
  if ws.any (illWord s) then trapR s cILLOP 0
  else match convoyFault (ws.headD 0 / 128 % 2 == 1) xs with
    | some j => trapR s cCONVOY ((curH s).pc + BitVec.ofNat 64 (4 * j))
    | none => vBody xs s

end Sys2Proof.Machine
end

