-- ==== Sys2Proof/Machine/Nodes.lean ====
section
/-! DEFINITION. The accesses of engines (R45, R46, R460), the nodes of the pools (R189, R190, R196 to R202), and the stamps of finished work (R347). -/

namespace Sys2Proof.Machine
open Sys2Proof

/-! ## An engine's access -/

/-- How an engine's access ends: done, not yet, a fault that asks for service (access kind and fault kind of R48), or an error that ends the work. -/
inductive EngR where
  | ok (s : State) (bs : List Byte)
  | wait (s : State)
  | serve (s : State) (va : Word) (acc fk : Nat)
  | err (s : State) (m : Mark)
deriving DecidableEq, Repr

def accCode (k : AccKind) : Nat :=
  match k with
  | .read => 0
  | .write => 1
  | .amo => 2
  | .fetch => 0

/-- The translation under which the copy engine's command has claimed the stash block of an address: a copy still landing writes the physical addresses it
translated, whatever its page has become (R75, R89). -/
def claimXlat (s : State) (w : Who) (va : Word) : Option Xlat :=
  if w.unit != 8 then none
  else (partOf s w.part).slots.findSome? fun (v, x) =>
    let r := slotRec x
    let b := va.toNat / 64 * 64
    if x.st == .empty || recKind r != 1 || recBytes r ≤ (va - recWbase r).toNat then none
    else match mfind x.lines (stashLoc r va) with
      | some y =>
        if y.jobs.contains (b % recLine r / 64, w.job) then
          some { asid := 0, vbase := b, size := 64, pbase := y.addr * recLine r + b % recLine r, vcid := v, io := false, pin := false, perm := 15, dirty := true }
        else none
      | none => none
/-- The translation of an engine's access. -/
def engTr (w : Who) (k : AccKind) (sup : Bool) (s : State) (va : Word) : TrRes :=
  match (if k == .write then claimXlat s w va else none) with
  | some x => .ok s x
  | none => xlate s w.tile w.part va k sup

/-- Translation for an engine: IO and counter space, read-only slots and stash windows are error completions (R31, R32, R66, R72); a fault of the
translation itself, a leaf whose IO bit its range does not have among them (R17, R27), goes to the translation service (R46). -/
def engXlate (s : State) (w : Who) (sup : Bool) (va : Word) (n : Nat) (k : AccKind) (f : State → List Piece → EngR) : EngR :=
  match rangeWith (engTr w k sup) s w.tile w.part va n k .none with
  | .ok s xs => f s xs
  | .fault s c sb a =>
    match xlate s w.tile w.part a k sup with
    | .ok _ y => .err s ⟨c, sb, a, y.pk a % 2 ^ 52⟩
    | .fault _ _ _ => .serve s a (accCode k) (faultKind c sb)

/-- The answer of an access to the places xs of address va: an error names va and the place its first byte lies at. -/
def engOf (a : Acc) (va : Word) (xs : List Piece) : EngR :=
  match a with
  | .ok s bs => .ok s bs
  | .wait s => .wait s
  | .err s c sb => .err s ⟨c, sb, va, match xs with | x :: _ => x.pk % 2 ^ 52 | [] => 0⟩

/-- Leading elements completed: pos moves over those in gone. -/
def leadOn (pos : Nat) (gone : List Nat) (fuel : Nat) : Nat :=
  match fuel with
  | 0 => pos
  | f + 1 => if gone.contains pos then leadOn (pos + 1) gone f else pos

/-- Elements of a Cinch whose last byte lies in [va, va + n): an access of the holder completes them (R115). -/
def cinchHits (x : Cinch) (va : Word) (n : Nat) : List Nat :=
  let st := x.stride.toInt
  if st == 0 then (if decide (va.toNat ≤ x.base.toNat) && decide (x.base.toNat < va.toNat + n) && x.pos < x.count then [x.pos] else [])
  else (List.range n).filterMap fun o =>
    let d := (va + BitVec.ofNat 64 o - x.base - BitVec.ofNat 64 (2 ^ x.esz - 1)).toInt
    if d % st == 0 && decide (0 ≤ d / st) && decide ((d / st).toNat < x.count) then some (d / st).toNat else none

/-- The holder's position after its access (R115). -/
def cinchTouch (s : State) (w : Who) (va : Word) (n : Nat) (wr : Bool) : State :=
  { s with cinches := s.cinches.map fun x =>
      if x.tile != w.tile || x.unit != w.unit || x.part != w.part || x.wr != wr then x
      else
        let g := x.gone ++ (cinchHits x va n).filter fun i => x.pos ≤ i && !x.gone.contains i
        let p := leadOn x.pos g g.length
        { x with pos := p, gone := g.filter (p ≤ ·) } }

/-- A finished access moves the position of the Cinch its unit holds. -/
def engTouch (r : EngR) (w : Who) (va : Word) (n : Nat) (wr : Bool) : EngR :=
  match r with
  | .ok s bs => .ok (if s.cinches.isEmpty then s else cinchTouch s w va n wr) bs
  | r => r

/-- An engine's writes go out on class 3 circuits (R166, R167). -/
def useCircuits (s : State) (w : Who) (xs : List Piece) : State :=
  if 512 ≤ w.tile then s else xs.foldl (fun s x => useCircuit s w.tile (writeCircuit s w.part x)) s
/-- An engine reads, or writes, n bytes, at most 128. -/
def engRead (s : State) (w : Who) (sup : Bool) (va : Word) (n : Nat) : EngR :=
  if n == 0 then .ok s [] else engTouch (engXlate s w sup va n .read fun s xs => engOf (accReads s w xs) va xs) w va n false
def engWrite (s : State) (w : Who) (sup : Bool) (va : Word) (bs : List Byte) : EngR :=
  if bs.isEmpty then .ok s []
  else engTouch (engXlate s w sup va bs.length .write fun s xs =>
    engOf (match accReady s w xs .write with
      | .ok s _ =>
        match accWrites (useCircuits s w xs) w xs bs true with
        | .ok s r => .ok (replicateAll s w xs bs) r
        | r => r
      | r => r) va xs) w va bs.length true

/-- Reads bytes whose addresses are given, run by run. -/
def engGather (s : State) (w : Who) (sup : Bool) (runs : List (Word × Nat)) : EngR :=
  match runs with
  | [] => .ok s []
  | (a, n) :: r =>
    match engRead s w sup a n with
    | .ok s bs =>
      match engGather s w sup r with
      | .ok s cs => .ok s (bs ++ cs)
      | e => e
    | e => e
/-- Reads runs of bytes as far as they can be read now: the outcome, and the bytes read so far. -/
def engGatherSome (s : State) (w : Who) (sup : Bool) (runs : List (Word × Nat)) (got : List Byte) : EngR × List Byte :=
  match runs with
  | [] => (.ok s got, got)
  | (a, n) :: r =>
    match engRead s w sup a n with
    | .ok s bs => engGatherSome s w sup r (got ++ bs)
    | e => (e, got)
/-- Every run can be written now. -/
def engReady (s : State) (w : Who) (sup : Bool) (runs : List (Word × List Byte)) : EngR :=
  match runs with
  | [] => .ok s []
  | (a, bs) :: r =>
    match engXlate s w sup a bs.length .write fun s xs => engOf (accReady s w xs .write) a xs with
    | .ok s _ => engReady s w sup r
    | e => e
def engWrites (s : State) (w : Who) (sup : Bool) (runs : List (Word × List Byte)) : EngR :=
  match runs with
  | [] => .ok s []
  | (a, bs) :: r =>
    match engWrite s w sup a bs with
    | .ok s _ => engWrites s w sup r
    | e => e
/-- Writes runs of bytes, in one step. -/
def engScatter (s : State) (w : Who) (sup : Bool) (runs : List (Word × List Byte)) : EngR :=
  match engReady s w sup runs with
  | .ok s _ => engWrites s w sup runs
  | e => e

/-! ## Commands in the queues of a tile -/

/-- The copy engine carries the command (R345): COPY and the pod operations. -/
def Cmd.copyEngine (c : Cmd) : Bool := c.k == 0 || (6 ≤ c.k && c.k ≤ 10)
def cmdOf (s : State) (t id : Nat) : Option Cmd := (tileOf s t).cq.find? fun c => c.id == id
def setCmd (s : State) (c : Cmd) : State :=
  setTile s c.tile { tileOf s c.tile with cq := (tileOf s c.tile).cq.map fun d => if d.id == c.id then c else d }
def addCmd (s : State) (c : Cmd) : State := setTile s c.tile { tileOf s c.tile with cq := (tileOf s c.tile).cq ++ [c] }
/-- Commands that take a place of the copy engine's queue of 64 (R345). -/
def copyQueue (s : State) (t : Nat) : List Cmd := (tileOf s t).cq.filter fun c => c.copyEngine && !c.raised

/-- A stamp alone: of a node, a stream, a Cinch or a fabric command whose other completion actions are made. -/
def addStamp (s : State) (part tile hart : Nat) (sup : Bool) (src : Nat) (naddr gd val : Word) (err : Option Mark) : State :=
  if gd == 0 then s
  else
    let c := { Cmd.blank s.nextId part tile hart sup with src, naddr, kind := 15 * 8, gd, val, err, begun := true, raised := true }
    post (addCmd (newId s) c) (.commandComplete tile c.id)

/-! ## Pools and nodes -/

/-- Pool keys: stack * 2^16 + level * 128 + entry. -/
def nodeAt (s : State) (k : Nat) : Option Node := mfind (stackOf s (k / 2 ^ 16)).pool (k % 2 ^ 16)
/-- The number of the node at a pool key. -/
def nodeId (s : State) (k : Nat) : Nat := match nodeAt s k with | some n => n.id | none => 0
def setNode (s : State) (k : Nat) (n : Node) : State :=
  let x := stackOf s (k / 2 ^ 16)
  setStack s (k / 2 ^ 16) { x with pool := mput x.pool (k % 2 ^ 16) n }
/-- All nodes, with their keys. -/
def allNodes (s : State) : List (Nat × Node) := s.stks.flatMap fun (k, x) => x.pool.map fun (i, n) => (k * 2 ^ 16 + i, n)
/-- The node of a partition known by a record address, in a state that p accepts (R198). Of several nodes submitted with one record the address names the
first in pool order (notes/assumptions/42.md). -/
def findNode (s : State) (part addr : Nat) (p : NodeSt → Bool) : Option Nat :=
  ((allNodes s).find? fun (_, n) => n.part == part && n.addr == addr && p n.st).map (·.1)
/-- The lowest free entry of a level. -/
def freeEntry (s : State) (st lvl : Nat) : Option Nat :=
  ((List.range 128).find? fun i => (mfind (stackOf s st).pool (lvl * 128 + i)).isNone).map fun i => st * 2 ^ 16 + lvl * 128 + i

/-- Fields of a nest record (R196). -/
def nestAddr (w : Word) : Word := canon (bits w 54 0)
def nestBound (r : List Word) (d : Nat) : Nat := bits (r.getD (6 + d / 2) 0) (32 * (d % 2) + 31) (32 * (d % 2))
def nestDims (r : List Word) : Nat := bits (r.getD 8 0) 1 0 + 1
def nestStack (r : List Word) : Nat := bits (r.getD 10 0) 1 0
/-- The tiles of a nest's placement, ascending. -/
def nestTiles (r : List Word) : List Nat :=
  (below 128 fun j => bitOf (r.getD (11 + j / 64) 0) (j % 64)).map fun j => 128 * nestStack r + j
/-- Points of a nest (R197). -/
def nestPoints (r : List Word) : Nat := ((List.range (nestDims r)).map (nestBound r)).foldl (· * ·) 1

/-- A node whose count is 0 becomes READY (R189): a nest waits for its walker, a command node for the copy engine. -/
def readyNode (s : State) (k : Nat) (n : Node) : State :=
  let st := k / 2 ^ 16
  let n := { n with st := .ready, readyAt := s.clock, prio := bits (n.recd.getD 8 0) 18 16, pass := 0 }
  let s := setNode s k n
  if n.isCmd && !n.taint then post s (.commandNodeBegin n.part (BitVec.ofNat 64 n.addr)) else post s (.dispatchDecision st)

/-- A predecessor of the node with number id at key k completes (R189); it has no effect where that node is gone. -/
def decrNode (s : State) (k id : Nat) (taint : Bool) : State :=
  match nodeAt s k with
  | some n =>
    if n.st != .pending || n.id != id then s
    else
      let n := { n with preds := n.preds - 1, taint := n.taint || taint }
      if n.preds == 0 then readyNode s k n else setNode s k n
  | none => s

/-- A stalled request of the level takes the freed entry (R202). -/
def entryFreed (s : State) (k : Nat) : State :=
  let st := k / 2 ^ 16
  let lvl := k % 2 ^ 16 / 128
  if (mgetD (stackOf s st).stalls lvl []).isEmpty then s else post s (.poolEntryTaken st lvl)

/-- The quantum of a partition (R439). -/
def quantumOf (s : State) (p : Nat) : Nat := bits (ctlWord s (0x0C000000 + 8 * p)) 32 0
/-- A nest of the running partition completes in the clock of an expiry, which is the one in which the region scheduler would act on it: the expiry is
discarded and the count of each region of its placement starts again (R209). -/
def winQuantum (s : State) (n : Node) : State :=
  ((nestTiles n.recd).filterMap (tileRegion s)).eraseDups.foldl (fun s r =>
    let x := regionOf s r
    if x.running == n.part + 1 && !x.halting && decide (x.ends ≤ s.clock) then setRegion s r { x with ends := s.clock + quantumOf s n.part } else s) s

/-- A node is DONE (R190): the raise its record asks for, its successors, its entry, and its stamp. A command node's raise is its command's. -/
def completeNode (s : State) (k : Nat) (err : Bool) : State :=
  match nodeAt s k with
  | none => s
  | some n =>
    let w9 := n.recd.getD 9 0
    let s := if n.isCmd then s else winQuantum s n
    let s := if !n.isCmd && bitOf w9 0 then sendRaise s n.tile (bits w9 32 24) (bits w9 16 8) (BitVec.ofNat 64 (bits w9 55 40)) else s
    let s := if n.isCmd && err && n.st != .running && n.recd.length != 0 && bits (n.recd.getD 1 0) 31 20 != 0 then
        sendRaise s n.tile (bits (n.recd.getD 1 0) 17 9) (bits (n.recd.getD 1 0) 8 0) (BitVec.ofNat 64 (bits (n.recd.getD 1 0) 31 20)) else s
    let s := (n.succ ++ n.derived).foldl (fun s (j, id) => decrNode s j id err) s
    let st := k / 2 ^ 16
    let s := setStack s st { stackOf s st with pool := mdel (stackOf s st).pool (k % 2 ^ 16) }
    let s := entryFreed s k
    let s := if n.foot.isEmpty then s else wakeStalls s
    let gd := if n.isCmd then (if n.st == .running then 0 else n.recd.getD 5 0) else nestAddr (n.recd.getD 2 0)
    let val := if n.isCmd then BitVec.ofNat 64 (bits (n.recd.getD 1 0) 63 32) else BitVec.ofNat 64 (bits (n.recd.getD 3 0) 62 0)
    addStamp s n.part n.tile n.hart n.sup 2 (BitVec.ofNat 64 n.addr) gd val (if err then some ⟨0, 0, 0, 0⟩ else none)

/-- The regions overlap with a write in one of them (R200). -/
def footClash (a b : List (Nat × Nat × Bool)) : Bool :=
  a.any fun (x, n, w) => b.any fun (y, m, v) => (w || v) && decide (x < y + m) && decide (y < x + n)

/-- The partition holds as many nodes with footprints as it may, and the node has some (R200). -/
def footFull (s : State) (n : Node) : Bool :=
  !n.foot.isEmpty && decide (256 ≤ ((allNodes s).filter fun (_, m) => m.part == n.part && !m.foot.isEmpty).length)
/-- Enters a node at pool key k; a NODE's derived edges are found among the partition's earlier nodes (R200). -/
def enterNode (s : State) (k : Nat) (n : Node) : State :=
  let n := { n with id := s.nextId }
  let s := newId s
  let from' := if n.foot.isEmpty then [] else (allNodes s).filter fun (_, a) => a.part == n.part && footClash a.foot n.foot
  let s := from'.foldl (fun s (j, a) => setNode s j { a with derived := a.derived ++ [(k, n.id)] }) s
  let n := { n with preds := n.preds + from'.length }
  if n.preds == 0 then readyNode (setNode s k n) k n else setNode s k n

/-- A violation found at a tile by work of a partition. -/
def releaseNode (s : State) (t p addr : Nat) : State :=
  match findNode s p addr (· == .pending) with
  | some k => decrNode s k (nodeId s k) false
  | none => logTile s t p addr

end Sys2Proof.Machine
end

