-- ==== Sys2Proof/Machine/Work.lean ====
section
/-! DEFINITION. The copy engine: what a COPY moves, one granule or row at a time, the local side of pod operations, and the completion of
commands (R75, R151 to R153, R345 to R349, R355, R366, R380, R383). -/

namespace Sys2Proof.Machine
open Sys2Proof

def whoCmd (c : Cmd) : Who :=
  { tile := c.tile, part := c.part, unit := 8, l1 := false, job := c.id, ev := some (if c.raised then .commandComplete c.tile c.id else .copyTransfer c.tile c.id, 0) }
/-- SRC of service requests and of fault records of a command (R48, R421). -/
def Cmd.srcCode (c : Cmd) : Nat := if c.src == 1 then 4 else if c.k == 15 then c.mode else 0
/-- TAG of its service requests: the node record or the stamp (R48). -/
def tagOf (c : Cmd) : Word :=
  if c.src == 2 then c.naddr else c.gd

/-- Earlier accesses of the issuing hart are performed (R151): those made before the access or command number id. -/
def drainedBefore (s : State) (h id : Nat) : Bool :=
  !(s.pend.any fun q => q.hart == h && decide (q.id < id)) && !((hartOf s h).sb.any fun e => decide (e.id < id)) && !mergeBefore s h id
/-- What holds them back in the merge buffer starts on its way (R145). -/
def flushBefore (s : State) (h id : Nat) : State := flushMerge s (h / 16) fun e => e.before h id

/-- A command stalls on a fault and asks for service (R46). -/
def stallCmd (s : State) (c : Cmd) (va : Word) (acc fk : Nat) : State :=
  let id := serviceId s c.part
  let s := askService s c.part va c.srcCode 0 c.tile acc fk (tagOf c) c.id
  setCmd s { c with stall := some id }

/-! ## What a COPY moves (R348) -/

def eBytes (c : Cmd) : Nat := 2 ^ c.esz
/-- DEINT: N planes, M records, plane stride P. -/
def deintN (c : Cmd) : Nat := c.param % 16 + 1
def deintM (c : Cmd) : Nat := bits c.gc 31 0
def deintP (c : Cmd) : Nat := bits c.gc 63 32
/-- PERM: dimension d, and the permutation p. -/
def permD (c : Cmd) (d : Nat) : Nat := bits c.gc (16 * d + 15) (16 * d)
def permP (c : Cmd) (j : Nat) : Nat := c.param / 4 ^ j % 4
def permTotal (c : Cmd) : Nat := permD c 0 * permD c 1 * permD c 2 * permD c 3

/-- The destination intervals of a memory copy: base and length. A GET writes its answer to gb. -/
def copySpans (c : Cmd) : List (Word × Nat) :=
  if c.k == cGET then [(c.gb, c.gc.toNat)]
  else match c.mode with
    | 0 => [(c.gb, c.gc.toNat)]
    | 1 => (List.range (deintN c)).map fun k => (c.gb + BitVec.ofNat 64 (k * deintP c), deintM c * eBytes c)
    | _ => [(c.gb, permTotal c * eBytes c)]

/-- The source byte that byte o of destination interval i takes. -/
def copySource (c : Cmd) (i o : Nat) : Word :=
  let e := eBytes c
  match c.mode with
  | 0 => c.ga + BitVec.ofNat 64 o
  | 1 => c.ga + BitVec.ofNat 64 ((o / e * deintN c + i) * e + o % e)
  | _ =>
    let l := o / e
    let q (j : Nat) : Nat := permD c (permP c j)
    let dst (j : Nat) : Nat := match j with | 0 => l % q 0 | 1 => l / q 0 % q 1 | 2 => l / q 0 / q 1 % q 2 | _ => l / q 0 / q 1 / q 2
    let idx (d : Nat) : Nat := match (List.range 4).find? fun j => permP c j == d with | some j => dst j | none => 0
    c.ga + BitVec.ofNat 64 (e * (idx 0 + permD c 0 * (idx 1 + permD c 1 * (idx 2 + permD c 2 * idx 3))) + o % e)

/-- The source range, for R152. -/
def sourceSpan (c : Cmd) : Nat :=
  match c.mode with
  | 0 => c.gc.toNat
  | 1 => deintM c * deintN c * eBytes c
  | _ => permTotal c * eBytes c
def inSpan (b : Word) (n : Nat) (a : Word) : Bool := decide (b.toNat ≤ a.toNat) && decide (a.toNat < b.toNat + n)

/-- The granules of interval i of a copy. -/
def spanGrans (x : Word × Nat) : Nat := if x.2 == 0 then 0 else (x.1.toNat % 128 + x.2 + 127) / 128
/-- An earlier interval reaches into virtual granule g. -/
def earlier (l : List (Word × Nat)) (i g : Nat) : Bool :=
  (l.take i).any fun (b, n) => n != 0 && decide (b.toNat / 128 ≤ g) && decide (g ≤ (b.toNat + n - 1) / 128)
/-- Positions are interval * 2^64 + granule: the next one that has work, from position p on. -/
def nextPos (l : List (Word × Nat)) (p fuel : Nat) : Option Nat :=
  match fuel with
  | 0 => none
  | f + 1 =>
    match l[p / 2 ^ 64]? with
    | none => none
    | some x =>
      if spanGrans x ≤ p % 2 ^ 64 then nextPos l ((p / 2 ^ 64 + 1) * 2 ^ 64) f
      else if earlier l (p / 2 ^ 64) (x.1.toNat / 128 + p % 2 ^ 64) then nextPos l (p + 1) f
      else some p

/-- The interval and offset whose byte lies at offset b of virtual granule g. -/
def spanByte (l : List (Word × Nat)) (g b : Nat) : Option (Nat × Nat) :=
  (List.range l.length).findSome? fun i =>
    match l[i]? with
    | some (base, n) => if inSpan base n (BitVec.ofNat 64 (g * 128 + b)) then some (i, g * 128 + b - base.toNat) else none
    | none => none

/-- Bytes of a granule that the copy writes, with what each takes: offset, interval and offset in the interval. -/
def granPlan (l : List (Word × Nat)) (g : Nat) : List (Nat × Nat × Nat) :=
  (List.range 128).filterMap fun b => (spanByte l g b).map fun (i, o) => (b, i, o)

/-- Consecutive addresses joined into runs. -/
def joinRuns (l : List Word) : List (Word × Nat) :=
  match l with
  | [] => []
  | a :: r =>
    match joinRuns r with
    | (b, n) :: t => if b == a + 1 then (a, n + 1) :: t else (a, 1) :: (b, n) :: t
    | [] => [(a, 1)]
def joinBytes (l : List (Word × Byte)) : List (Word × List Byte) :=
  match l with
  | [] => []
  | (a, x) :: r =>
    match joinBytes r with
    | (b, bs) :: t => if b == a + 1 then (a, x :: bs) :: t else (a, [x]) :: (b, bs) :: t
    | [] => [(a, [x])]

/-- Bytes whose value R152 leaves open: the destination or its source byte lies where source and destination overlap (notes/assumptions/4.md). -/
def openBytes (c : Cmd) (l : List (Word × Nat)) (src dst : List Word) (free : Nat) (bs : List Byte) : List Byte :=
  ((src.zip dst).zip bs).zipIdx.map fun (((a, d), x), j) =>
    if c.k == cCOPY && (inSpan c.ga (sourceSpan c) d || l.any fun (b, n) => inSpan b n a) then Config.freeByte (free + j) else x

/-! ## Claims of a stash (R75) -/

/-- The 64-byte blocks of virtual granule g that hold bytes of the copy's destination, by their addresses. -/
def spanBlocks (g : Nat) (xs : List (Word × Nat)) : List Nat :=
  ((List.range 2).filter fun h => (List.range 64).any fun b => (spanByte xs g (h * 64 + b)).isSome).map fun h => g * 128 + h * 64

/-- A block of a stash that a copy claims: slot, place, line address, granule, and the block's number in its line. -/
structure ClaimPos where
  v : Nat
  loc : Nat
  addr : Nat
  gk : Nat
  b : Nat
deriving DecidableEq, Repr

/-- The blocks of a partition's stashes that take the destination of a copy, each at its own line's position. A page is translated when the copy is accepted; the spec does not
say what a copy claims of a page that has no valid translation then, and here it claims nothing of it, also when the page is mapped later
(notes/assumptions/39.md). -/
def overClaims (s : State) (c : Cmd) : State × List ClaimPos :=
  if c.k != cCOPY || 3 ≤ c.mode then (s, [])
  else
    let xs := copySpans c
    let stashes := (partOf s c.part).slots.filter fun (_, x) => x.st == .active && recKind (slotRec x) == 1
    stashes.foldl (fun a (v, x) =>
      let r := slotRec x
      loop (recBytes r / 128) (fun j (s, ps) =>
        let g := (recWbase r).toNat / 128 + j
        let bs := if xs.any fun (b, n) => n != 0 && decide (b.toNat / 128 ≤ g) && decide (g ≤ (b.toNat + n - 1) / 128) then spanBlocks g xs else []
        if bs.isEmpty then (s, ps)
        else match xlate s c.tile c.part (BitVec.ofNat 64 (g * 128)) .write c.sup with
          | .ok s y =>
            let pos (b : Nat) : ClaimPos :=
              let va := BitVec.ofNat 64 b
              ⟨v, stashLoc r va, y.pk va / recLine r, y.pk va / 128, b % recLine r / 64⟩
            (s, if y.vcid == v && !y.io then ps ++ bs.map pos else ps)
          | .fault _ _ _ => (s, ps)) a) (s, [])

/-- A position that the copy is to claim holds another line that cannot leave yet: acceptance waits for it. -/
def claimsWait (s : State) (c : Cmd) : Bool :=
  let (s, ps) := overClaims s c
  ps.any fun p => match mfind (slotOf s c.part p.v).lines p.loc with
    | some y => y.addr != p.addr && !lineStable s (recLine (slotRec (slotOf s c.part p.v))) p.loc y
    | none => false

/-- At acceptance every destination block is claimed, CB = 1 and LB = 0, and ownership of its granule is asked for (R75). Two copies may claim one block: it
is present once both have landed there (notes/assumptions/39.md). -/
def claimBlocks (s : State) (c : Cmd) : State :=
  let (s, ps) := overClaims s c
  ps.foldl (fun s p =>
    let s := match mfind (slotOf s c.part p.v).lines p.loc with
      | some y => if y.addr != p.addr then evictLine s c.part p.v p.loc else s
      | none => s
    let s := if (mfind (slotOf s c.part p.v).lines p.loc).isSome then s else newLine s c.part p.v p.loc p.addr false
    let y := (mfind (slotOf s c.part p.v).lines p.loc).getD (Line.at p.addr false)
    let jobs := y.jobs ++ [(p.b, c.id)]
    let s := putLine s c.part p.v p.loc { y with jobs, cb := claimBits jobs, lb := y.lb &&& ~~~blockBitsOf [p.b] }
    let a := agentOfLoc p.loc
    if away s c.part a || !regionOk s c.part p.gk then s else request s c.part a p.gk true none) s

/-- Bytes m of an agent's copy become the home's again. -/
def revertBytes (s : State) (a gk : Nat) (m : BitVec 128) : State :=
  match copyOf s a gk with
  | some c =>
    let home := homeGran s gk
    setCopy s a gk { c with
      data := loop 128 (fun i d => if maskBit m i then setGranByte d i (granByte home i) else d) c.data
      mask := c.mask &&& ~~~m }
  | none => s
/-- The bytes of a granule that blocks of its line show. -/
def blockBytes (l gk : Nat) (bs : List Nat) : BitVec 128 :=
  ((granBlocks l gk).zipIdx.filter fun (b, _) => bs.contains b).foldl
    (fun m (_, i) => m ||| BitVec.ofNat 128 ((2 ^ 64 - 1) * 2 ^ (64 * i))) 0
/-- The half of the granule a 64-byte line shows, else the blocks themselves. -/
def shownBytes (l addr gk : Nat) (bs : List Nat) : BitVec 128 := if l == 64 then lineMask l addr else blockBytes l gk bs

/-- The blocks the copy still claims are given up: absent, and what the stash held of them is the home's contents again (R75). -/
def dropClaims (s : State) (c : Cmd) : State :=
  (partOf s c.part).slots.foldl (fun s (v, x) =>
    let l := recLine (slotRec x)
    (x.lines.filter fun (_, y) => y.jobs.any fun j => j.2 == c.id).foldl (fun s (loc, y) =>
      let bs := (y.jobs.filter fun j => j.2 == c.id).map (·.1)
      let jobs := y.jobs.filter fun j => j.2 != c.id
      let s := (lineGrans l y.addr).foldl (fun s gk => revertBytes s (agentOfLoc loc) gk (shownBytes l y.addr gk bs)) s
      putLine s c.part v loc { y with jobs, cb := claimBits jobs, lb := y.lb &&& ~~~blockBitsOf bs }) s) s

/-- A block that the copy has claimed lands: LB = 1, CB = 0. -/
def landBlock (c : Cmd) (s : State) (va : Nat) : State :=
  match claimXlat s (whoCmd c) (BitVec.ofNat 64 va) with
  | none => s
  | some y =>
    let r := slotRec (slotOf s c.part y.vcid)
    let loc := stashLoc r (BitVec.ofNat 64 va)
    match mfind (slotOf s c.part y.vcid).lines loc with
    | some z =>
      let b := va % recLine r / 64
      let jobs := z.jobs.filter fun j => j != (b, c.id)
      putLine s c.part y.vcid loc { z with jobs, cb := claimBits jobs, lb := z.lb ||| (blockBitsOf [b] &&& ~~~claimBits jobs) }
    | none => s
/-- The claimed blocks of a granule land. -/
def landGran (s : State) (c : Cmd) (g : Nat) : State := (spanBlocks g (copySpans c)).foldl (landBlock c) s

/-! ## The steps of a copy -/

def again (s : State) (c : Cmd) : State := post (setCmd s c) (.copyTransfer c.tile c.id)
def toEnd (s : State) (c : Cmd) : State := post (setCmd s c) (.commandComplete c.tile c.id)
/-- What follows an access of a command: go on, try again, ask for service, or end with error. -/
def pursue (c : Cmd) (r : EngR) (k : State → List Byte → State) : State :=
  match r with
  | .ok s bs => k s bs
  | .wait s => retry (setCmd s c) (.copyTransfer c.tile c.id, 0)
  | .serve s va acc fk => stallCmd s c va acc fk
  | .err s m => toEnd s { c with err := some m }

/-- One granule of a memory copy, or of a GET's answer. What a copy has read of it stays in the engine until the granule is written. -/
def copyGran (s : State) (c : Cmd) : State :=
  let l := copySpans c
  match nextPos l c.pos ((l.map spanGrans).sum + l.length + 1) with
  | none => toEnd s c
  | some p =>
    let base := match l[p / 2 ^ 64]? with | some x => x.1.toNat / 128 | none => 0
    let g := base + p % 2 ^ 64
    let plan := granPlan l g
    let dst := plan.map fun (b, _, _) => BitVec.ofNat 64 (g * 128 + b)
    let src := plan.map fun (_, i, o) => copySource c i o
    let put (buf : List Byte) (s : State) (bs : List Byte) : State :=
      let out := openBytes c l src dst s.free bs
      pursue { c with buf := if c.k == cGET then c.buf else bs }
        (engScatter { s with free := s.free + 128 } (whoCmd c) c.sup (joinBytes (dst.zip out))) fun s _ =>
          again (landGran s c g) { c with pos := p + 1, buf := buf }
    if c.k == cGET then put c.buf s (plan.map fun (_, _, o) => c.buf.getD o 0)
    else
      let q := engGatherSome s (whoCmd c) c.sup (joinRuns (src.drop c.buf.length)) c.buf
      pursue { c with buf := q.2 } q.1 (put [])

/-- Lanes of a VREG copy, captured at acceptance (R348). -/
def cmdLanes (c : Cmd) : BitVec 4 := BitVec.ofNat 4 c.snap.toNat

/-- One element group of a VREG copy. -/
def copyVreg (s : State) (c : Cmd) : State :=
  if c.gc.toNat ≤ c.pos * 64 then toEnd s c
  else
    let b := c.pos * 64
    let r := rowBytes (cmdLanes c)
    pursue c (engRead s (whoCmd c) c.sup (c.ga + BitVec.ofNat 64 b) 64) fun s bs =>
      let t := setVBytesAt (tileOf s c.tile) (cmdLanes c) (c.gb.toNat % 32 + b / (8 * r)) (b / r % 8) (b % r) bs
      again (setTile s c.tile t) { c with pos := c.pos + 1 }

/-- Fields of a tcfg (R328, R329). -/
def tcEw (w : Word) : Nat := 4 * 2 ^ bits w 1 0
def tcRows (w : Word) : Nat := bits w 9 4 + 1
def tcCols (w : Word) : Nat := bits w 20 12 + 1
def tcSel (w : Word) : Nat := bits w 26 24
def tcInt (w : Word) : Bool := bitOf w 27
def tcUns (w : Word) : Bool := bitOf w 28
def tcBl (w : Word) : Nat := if bits w 31 29 == 0 then 0 else 4 * 2 ^ bits w 31 29
/-- Bytes of a row, and scales of a row. -/
def tcBytes (w : Word) : Nat := tcCols w * tcEw w / 8
def tcScales (w : Word) : Nat := if tcBl w == 0 then 0 else tcCols w / tcBl w

def tKey (n row b : Nat) : Nat := (n * 64 + row) * 256 + b
def tByteAt (t : Tile) (n row b : Nat) : Byte := mgetD t.t (tKey n row b) 0
def setTBytes (t : Tile) (n row b : Nat) (bs : List Byte) : Tile :=
  match bs with
  | [] => t
  | x :: r => setTBytes { t with t := mset 0 t.t (tKey n row b) x } n row (b + 1) r
def tSide (t : Tile) (n row j : Nat) : Byte := mgetD t.tside ((n * 64 + row) * 64 + j) 0
def setTSide (t : Tile) (n row j : Nat) (bs : List Byte) : Tile :=
  match bs with
  | [] => t
  | x :: r => setTSide { t with tside := mset 0 t.tside ((n * 64 + row) * 64 + j) x } n row (j + 1) r

/-- n bytes from a on, in reads of at most 128 within one granule. -/
def byRuns (a : Word) (n : Nat) (fuel : Nat) : List (Word × Nat) :=
  match fuel with
  | 0 => []
  | f + 1 => if n == 0 then [] else let m := min n (128 - a.toNat % 128); (a, m) :: byRuns (a + BitVec.ofNat 64 m) (n - m) f

/-- One row of a tile register from memory (R333), its bytes and its scales, of which buf has been read: the outcome, and what has been read when it does not
end here. A fault is resumed at its address (R332). -/
def loadRow (s : State) (w : Who) (sup : Bool) (cfg : Word) (n row : Nat) (a : Word) (buf : List Byte) : EngR × List Byte :=
  let k := tcBytes cfg
  let q := engGatherSome s w sup (byRuns (a + BitVec.ofNat 64 buf.length) (k + tcScales cfg - buf.length) 8) buf
  match q.1 with
  | .ok s bs => (.ok (setTile s w.tile (setTSide (setTBytes (tileOf s w.tile) n row 0 (bs.take k)) n row 0 (bs.drop k))) [], [])
  | r => (r, q.2)
/-- Byte o of a row as an MST writes it: elements, then scales. -/
def rowByte (t : Tile) (cfg : Word) (n row o : Nat) : Byte := if o < tcBytes cfg then tByteAt t n row o else tSide t n row (o - tcBytes cfg)
def rowLen (cfg : Word) : Nat := tcBytes cfg + tcScales cfg
/-- The offset in row j of byte b of virtual granule g, where the row lies there; a row may wrap (R333). -/
def rowAt (cfg base stride : Word) (g j b : Nat) : Option Nat :=
  let o := (BitVec.ofNat 64 (g * 128 + b) - (base + BitVec.ofNat 64 j * stride)).toNat
  if o < rowLen cfg then some o else none
def rowMeets (cfg base stride : Word) (g j : Nat) : Bool :=
  let a := base + BitVec.ofNat 64 j * stride
  let x := BitVec.ofNat 64 (g * 128)
  decide ((x - a).toNat < rowLen cfg) || (decide (0 < rowLen cfg) && decide ((a - x).toNat < 128))
/-- What the rows of an MST from row j on write to virtual granule g, a later row over an earlier one. -/
def granRows (t : Tile) (cfg base stride : Word) (n g j : Nat) : List (Word × Byte) :=
  let rows := ((List.range (tcRows cfg - j)).map (j + ·)).reverse.filter (rowMeets cfg base stride g)
  (List.range 128).filterMap fun b => rows.findSome? fun r => (rowAt cfg base stride g r b).map fun o => (BitVec.ofNat 64 (g * 128 + b), rowByte t cfg n r o)
/-- One row of a tile register to memory (R333), and with it what later rows write to the same granules, so that a granule written whole goes home as one
write (R461). -/
def storeRow (s : State) (w : Who) (sup : Bool) (cfg : Word) (n row : Nat) (base stride : Word) : EngR :=
  let gs := (byRuns (base + BitVec.ofNat 64 row * stride) (rowLen cfg) 8).map fun (a, _) => a.toNat / 128
  let new := gs.filter fun g => !(List.range row).any (rowMeets cfg base stride g)
  engScatter s w sup (new.flatMap fun g => joinBytes (granRows (tileOf s w.tile) cfg base stride n g row))

/-- One row of a TILE copy. -/
def copyTile (s : State) (c : Cmd) : State :=
  if tcRows c.snap ≤ c.pos then toEnd s c
  else
    let q := loadRow s (whoCmd c) c.sup c.snap (c.gb.toNat % 8) c.pos (c.ga + BitVec.ofNat 64 c.pos * c.gc) c.buf
    pursue { c with buf := q.2 } q.1 fun s _ => again s { c with pos := c.pos + 1, buf := [] }

/-! ## Pod operations at their origin (R355, R366, R379 to R383) -/

/-- The partition on package n that p exchanges traffic with (R434). -/
def peerOf (s : State) (p n : Nat) : Option Nat :=
  let b := ctlByte s (0x0C010000 + 512 * p + n)
  if b / 64 % 2 == 1 then some (b % 64) else none
/-- A command of a tile, there or in a saved context. -/
def anyCmd (s : State) (t id : Nat) : Option Cmd :=
  (cmdOf s t id).or (s.shadow.findSome? fun (k, c) => if k / 64 == t then c.tile.cq.find? fun d => d.id == id else none)

/-- A router's element carries elements of command id of tile t (R375). -/
def RElem.carries (y : RElem) (t id : Nat) : Bool := y.cluster == t / 8 && y.vals.any fun z => z.1 == t % 8 && z.2.2 == id * 4 + 2
/-- What carries elements of an RRED and has not left: contributions on their way to the router, its elements, and entries of the pod merge buffer. -/
def unsentOf (s : State) (t id : Nat) : Nat :=
  (s.agenda.filter fun e => match e with | .routerContribution x => x.tile == t && x.origin == id * 4 + 2 | _ => false).length
    + (s.relems.filter fun y => !y.sent && y.carries t id).length + (s.podMerge.filter fun m => !m.sent && m.cmds.contains (t, id)).length
/-- Of what has left, some is not answered. -/
def sentOf (s : State) (t id : Nat) : Bool := s.relems.any (fun y => y.sent && y.carries t id) || s.podMerge.any fun m => m.sent && m.cmds.contains (t, id)
/-- The raises that the last elements of tagged commands take with them, and those of them made although the element is refused (R364, R375, R458): of a
command whose elements are all issued, none refused and no other still to leave; none while some that have left are not answered, which the raise follows
(R159, R366). -/
def raisesOf (s : State) (tag : Option PodTag) (l : List (Nat × Nat)) : Option (Nat × Nat) :=
  let cs := (l.eraseDups.filter fun c => unsentOf s c.1 c.2 ≤ 1).filterMap fun c => anyCmd s c.1 c.2
  let cs := cs.filter fun c => c.retry && c.err.isNone
  if tag.isNone then some (0, 0)
  else if cs.any fun c => sentOf s c.tile c.id then none
  else some (cs.length, (cs.filter fun c => c.src == 1 && c.comp.oe).length)

/-- Packets of an MCAST (R455). -/
def mcastPackets (c : Cmd) : Nat := max 1 ((c.gc.toNat + 255) / 256)
/-- All of a pod operation has been sent, its raise with it. -/
def wholeSent (s : State) (c : Cmd) : Bool :=
  c.retry && (c.k != cMCAST || decide (mcastPackets c ≤ c.pos)) && (c.k != cRRED || unsentOf s c.tile c.id == 0)
/-- An earlier-accepted tagged command to the same target counter has not yet been sent (R366). -/
def raiseHeld (s : State) (c : Cmd) : Bool :=
  match c.tag with
  | none => false
  | some g => (tileOf s c.tile).cq.any fun d =>
      decide (d.id < c.id) && d.part == c.part && d.tag == some g && (d.dpkg == c.dpkg || d.k == cMCAST || c.k == cMCAST) && !d.raised && !d.answered
        && d.err.isNone && !wholeSent s d

/-- The packets of a message: 256 bytes of data each, padded to whole pairs of beats (R380, R455). -/
def packetsOf (dest cls : Nat) (index : Option Nat) (bs : List Byte) (fuel : Nat) : List Packet :=
  match fuel with
  | 0 => []
  | f + 1 =>
    let data := bs.take 256
    let n := max 1 ((data.length + 15) / 16)
    { dest, cls, ndb := n - 1, index, data, pad := 16 * n - data.length } :: (if bs.length ≤ 256 then [] else packetsOf dest cls index (bs.drop 256) f)
/-- Beats of a packet, on the crossbar or on a peer port (R380). -/
def Packet.beats (p : Packet) (peer : Bool) : Nat := if peer then 1 + 2 * (p.ndb + 1) else 8 + (if p.index.isSome then 8 else 0) + 2 * (p.ndb + 1) + 1

/-- The I/O die whose pod merge buffer takes a granule (notes/assumptions/25.md). -/
def podDie (gran : Nat) : Nat := gran % 2
/-- Entries of partition p that have not left a buffer (R383). -/
def podRoom (s : State) (p gran : Nat) : List PodM := s.podMerge.filter fun m => !m.sent && m.part == p && podDie m.gran == podDie gran
/-- An element of an RRED enters the pod merge buffer (R383), merging under R146: the command then waits for the entry's answer. Where the buffer of 64 is
full its oldest entry must leave first: none. -/
def podMerge (s : State) (c : Cmd) (va v n : Nat) : State × Option Cmd :=
  let g := va / 128
  let hit (m : PodM) : Bool := !m.sent && m.part == c.part && m.dpkg == c.dpkg && m.func == c.func && m.bytes == n && m.gran == g && m.tag == c.tag
  match s.podMerge.find? hit with
  | some m =>
    let new := match mfind m.vals (va % 128) with | some old => redNew c.func n old v | none => v
    let mine := m.cmds.contains (c.tile, c.id)
    let m' := { m with vals := mput m.vals (va % 128) new, cmds := if mine then m.cmds else (c.tile, c.id) :: m.cmds }
    ({ s with podMerge := s.podMerge.map fun x => if x.id == m.id then m' else x }, some (if mine then c else { c with due := c.due + 1 }))
  | none =>
    match podRoom s c.part g with
    | x :: r =>
      if 63 ≤ r.length then ({ s with podMerge := s.podMerge.map fun y => if y.id == x.id then { y with going := true } else y }, none)
      else (podOpen s c g va v n, some { c with due := c.due + 1 })
    | [] => (podOpen s c g va v n, some { c with due := c.due + 1 })
where
  podOpen (s : State) (c : Cmd) (g va v n : Nat) : State :=
    let m : PodM :=
      { id := s.nextId, part := c.part, dpkg := c.dpkg, func := c.func, bytes := n, gran := g, vals := [(va % 128, v)], tag := c.tag
        cmds := [(c.tile, c.id)], going := false, sent := false, due := 0, neg := false, born := s.clock }
    post { newId s with podMerge := s.podMerge ++ [m] } (.podMergeSend s.nextId)

/-- Elements of an RRED from c.pos on, at most count of them, go out: through a REDUCE entry of the cluster's router, or the pod merge buffer (R372, R383). -/
def rredOut (s : State) (c : Cmd) (n count : Nat) (bs : List Byte) : State × Cmd :=
  match count with
  | 0 => (s, c)
  | k + 1 =>
    let va := (c.gb + BitVec.ofNat 64 (c.pos * n)).toNat
    let v := leNat (bs.take n)
    if !c.comp.sz && (rtReduce s c.tile c.part c.dpkg c.func (va % 2 ^ 55) n).isSome then
      let x : Contrib := { tile := c.tile, part := c.part, dpkg := c.dpkg, func := c.func, pa := va % 2 ^ 55, bytes := leBytes n v, tag := c.tag, origin := c.id * 4 + 2 }
      rredOut (post s (.routerContribution x)) { c with pos := c.pos + 1, due := c.due + 1 } n k (bs.drop n)
    else match podMerge s c va v n with
      | (s, none) => (s, c)
      | (s, some c) => rredOut s { c with pos := c.pos + 1 } n k (bs.drop n)

/-- Element bytes of an RRED. -/
def rredBytes (c : Cmd) : Nat := if c.func == 9 then 2 else if c.comp.sz then 8 else 4

/-- A pod operation leaves its package, its source bytes gathered. -/
def podSend (s : State) (c : Cmd) : State :=
  match peerOf s c.part c.dpkg with
  | none => toEnd s { c with err := some ⟨cREMOTE, 0, c.gb, 0⟩ }
  | some q =>
    if pathFenced s c.dpkg then toEnd s { c with err := some ⟨cREMOTE, 0, c.gb, 0⟩ }
    else if pathWaits s c.dpkg || raiseHeld s c then again s c
    else
      let s := if c.k == cGET then s else useCircuit s c.tile (3 * 1024 + 16 + c.dpkg)
      let r := c.tag.isSome.toNat
      let msg (va : Word) (len : Nat) (bs : List Byte) : State :=
        let ps := packetsOf c.dpkg (if c.k == cGET then 4 else 3) none bs (bs.length / 256 + 1)
        setCmd (send s (.pod c.tile c.id (c.k + 16 * c.func + 256 * c.comp.sz.toNat) c.part c.dpkg q va len ps c.tag r (if c.src == 1 && c.comp.oe then r else 0)))
          { c with retry := true }
      if c.k == cGET then msg c.ga c.gc.toNat []
      else if c.k == cRAMO then msg c.gb 0 (leBytes 8 c.ga.toNat ++ leBytes 8 c.gc.toNat)
      else if c.k == cRRED && c.gc != 0 then
        let n := rredBytes c
        let (s, c) := rredOut s c n (min 64 (c.gc.toNat / n - c.pos)) (c.buf.drop (c.pos * n))
        if c.pos < c.gc.toNat / n then again s c
        else if c.due == 0 then again s { c with retry := true, answered := true }
        else setCmd s { c with retry := true }
      else msg c.gb c.gc.toNat c.buf

/-- The next run of a pod operation's local source, and its sending. A zero length without a tag completes at once (R347). -/
def podStep (s : State) (c : Cmd) : State :=
  let reads := c.k == cPUT || c.k == cRRED || c.k == cMCAST
  if c.answered then
    if c.k == cGET then copyGran s c else toEnd s c
  else if c.retry then (if c.k != cMCAST || wholeSent s c then setCmd s c else postOnce (setCmd s c) (.mcastRoute c.tile c.id))
  else if c.k != cRAMO && c.gc == 0 && c.tag.isNone then toEnd s { c with answered := true }
  else if reads && c.buf.length < c.gc.toNat then
    let a := c.ga + BitVec.ofNat 64 c.buf.length
    let n := min (128 - a.toNat % 128) (c.gc.toNat - c.buf.length)
    pursue c (engRead s (whoCmd c) c.sup a n) fun s bs => again s { c with buf := c.buf ++ bs }
  else if c.k == cMCAST then postOnce (setCmd s { c with retry := true }) (.mcastRoute c.tile c.id)
  else podSend s c

/-- COPY_TRANSFER: the next part of a begun command's work. -/
def transfer (s : State) (t id : Nat) : State :=
  match cmdOf s t id with
  | none => s
  | some c =>
    if !c.begun || c.stall.isSome || c.raised then s
    else if c.err.isSome then (if c.due == 0 then toEnd s c else setCmd s { c with retry := true })
    else if c.k == cCOPY then
      match c.mode with
      | 3 => copyVreg s c
      | 4 => copyTile s c
      | _ => copyGran s c
    else podStep s c

/-- COPY_BEGIN: the next command in acceptance order, with up to 8 in progress and the issuing hart's earlier accesses performed (R151, R345). -/
def beginNext (s : State) (t : Nat) : State :=
  let q := copyQueue s t
  match q.find? fun c => !c.begun with
  | none => s
  | some c =>
    if 8 ≤ (q.filter (·.begun)).length then s
    else if c.src == 0 && !drainedBefore s c.hart c.id then post (flushBefore s c.hart c.id) (.copyBegin t)
    else again s { c with begun := true }

/-! ## Completion (R347, R349) -/

/-- The fault record of a command that ends with error (R347, R421, R422); that of a fabric run ended by FRAME names no awl and no cell. -/
def cmdRecord (s : State) (c : Cmd) (m : Mark) : State :=
  if c.srcCode == 3 then workRecord s c.part 3 0 c.tile { m with pa := 0 } (tagOf c) 0
  else workRecord s c.part c.srcCode (if c.k == 15 then c.param else 0) c.tile m (tagOf c) (if c.src == 1 then 0 else c.hart)

/-- The element groups of a VREG copy's destination. -/
def vregGroups (c : Cmd) : List Nat :=
  let r := rowBytes (cmdLanes c)
  if r == 0 then [] else (List.range (c.gc.toNat / 64)).map fun j =>
    groupKey (cmdLanes c) (c.gb.toNat % 32 + j * 64 / (8 * r)) (j * 64 / r % 8) (j * 64 % r)

/-- The follow-on MMA of a copy, whose last byte has landed, is issued, with the vcsr its hart has then (R220, R331, R349), or its stream takes the copy's
error. -/
def followOn (s : State) (c : Cmd) : State :=
  match c.follow with
  | none => s
  | some f =>
    let t := tileOf s c.tile
    let st := f.mstr.toNat
    let x := mgetD t.ms st { err := none, ops := [], stall := none }
    let x := match c.err with
      | none => { x with ops := x.ops.map fun o => if o.waits == some c.id then { o with waits := none, seq := s.nextId, vcsr := (hartOf s o.hart).v.vcsr } else o }
      | some m => { x with ops := x.ops.filter (fun o => o.waits != some c.id), err := x.err.or (some m) }
    post (newId (setTile s c.tile { t with ms := mput t.ms st x })) (.matrixOpComplete c.tile st)

/-- The actions before the stamp: full bits, the raise, the fault record, and for a node its successors. -/
def raiseOf (s : State) (c : Cmd) : State :=
  let s := if c.k == cCOPY && c.mode == 3 then (vregGroups c).foldl (fun s k => setTile s c.tile (vFullGroup (tileOf s c.tile) k)) s else s
  let s := if c.err.isSome then dropClaims s c else s
  let s := followOn s c
  let s := if c.comp.add != 0 && !(c.src == 1 && c.err.isSome && !c.comp.oe) then
      sendRaise s c.tile c.comp.ctile.toNat c.comp.ctr.toNat (BitVec.ofNat 64 c.comp.add.toNat) else s
  let s := match c.err with
    | some m => if m.cause == 0 then s else cmdRecord s c m
    | none => s
  if c.src == 2 && nodeId s c.node == c.nid then completeNode s c.node c.err.isSome else s

/-- A finished command leaves the queue; the next one begins, and harts that wait for a place may take it. -/
def leaveQueue (s : State) (c : Cmd) : State :=
  let s := setTile s c.tile { tileOf s c.tile with cq := (tileOf s c.tile).cq.filter fun d => d.id != c.id }
  let s := if (copyQueue s c.tile).any fun d => !d.begun then post s (.copyBegin c.tile) else s
  let s := if (tileOf s c.tile).fired.isEmpty then s else post s (.firedOpHandoff c.tile)
  posts s ((s.harts.filter fun (i, h) => i / 16 == c.tile && h.wait == .queue).map fun (i, _) => Event.commandAccept i)

/-- The words written at the end: the answer word of RAMO and MCAST at gd + 8, and then the stamp (R347, R355). -/
def lastWords (c : Cmd) : List (Word × List Byte) :=
  let stamp := BitVec.ofNat 64 (c.val.toNat % 2 ^ 63 + (if c.err.isSome then 2 ^ 63 else 0))
  (if (c.k == cRAMO && c.err.isNone) || (c.k == cMCAST && c.answered) then [(c.gd + 8, leBytes 8 c.word.toNat)] else []) ++ [(c.gd, leBytes 8 stamp.toNat)]

/-- An URSV whose pieces still stand at their homes (R353). -/
def ursvBusy (s : State) (c : Cmd) : Bool := c.k == 4 && s.pieces.any fun x => x.tile == c.tile && x.unit == c.param && x.part == c.part
/-- An URSV before its pieces leave: an RSV of its unit is ahead of it in the port's queue, or the hart's earlier accesses are not performed (R117, R151,
R345). -/
def ursvWaits (s : State) (c : Cmd) : Bool :=
  ((tileOf s c.tile).cq.any fun d => d.k == 3 && d.param == c.param && d.part == c.part && !d.raised && d.id < c.id) || !drainedBefore s c.hart c.id
/-- The pieces of an URSV's unit leave their homes (R117). -/
def ursvBegin (s : State) (c : Cmd) : State :=
  let l := s.pieces.filter fun y => y.tile == c.tile && y.unit == c.param && y.part == c.part
  let s := posts (l.foldl (fun s y => useCircuit s y.tile (granDie (y.pk / 128))) s) (l.map fun y => Event.pieceEnd y.id)
  toEnd s { c with begun := true }
/-- The unit of a finished URSV holds no Cinch. -/
def dropCinch (s : State) (c : Cmd) : State :=
  if c.k == 4 then { s with cinches := s.cinches.filter fun x => !(x.tile == c.tile && x.unit == c.param && x.part == c.part) } else s

/-- The copies a router makes of a command's writes (R377). -/
def ofCmd (c : Cmd) (r : Rep) : Bool := r.tile == c.tile && r.unit == 8 && r.job == c.id

/-- COMMAND_COMPLETE: the completion actions, once; then the stamp, as often as its write must be tried. -/
def complete (s : State) (t id : Nat) : State :=
  match cmdOf s t id with
  | none => s
  | some c =>
    if c.stall.isSome then s
    else if c.k == 4 && !c.begun then (if ursvWaits s c then post (flushBefore s c.hart c.id) (.commandComplete t id) else ursvBegin s c)
    else if !c.raised && ursvBusy s c then post s (.commandComplete t id)
    else if !c.raised && repBusy s (ofCmd c) then post s (.commandComplete t id)
    else if !c.raised then
      let c := if repErr s (ofCmd c) then { c with err := c.err.or (some ⟨cPROT, 4, c.gb, 0⟩) } else c
      let s := repClear s (ofCmd c)
      let c' := { c with raised := true }
      let s := raiseOf (dropCinch (setCmd s c') c) c
      if c.gd == 0 then leaveQueue s c' else post s (.commandComplete t id)
    else match engScatter s (whoCmd c) c.sup (lastWords c) with
      | .ok s _ => leaveQueue s c
      | .wait s => retry s (.commandComplete t id, 0)
      | .serve s va acc fk => if ptState s c.part == 3 then leaveQueue s c else stallCmd s c va acc fk
      | .err s m => leaveQueue (cmdRecord s c m) c

/-- The answer to a pod operation has come (R355). -/
def podAnswered (s : State) (t id : Nat) (neg : Bool) (bs : List Byte) (word : Word) : State :=
  match cmdOf s t id with
  | none => s
  | some c =>
    let c := { c with due := c.due - 1, answered := decide (c.due ≤ 1) && c.retry }
    let c := if neg then { c with err := some ⟨cREMOTE, 0, if c.k == cGET then c.ga else c.gb, 0⟩ } else c
    let c := { c with word, buf := if c.k == cGET then bs else c.buf }
    if c.answered then post (setCmd s c) (.copyTransfer t id) else setCmd s c

end Sys2Proof.Machine
end

