-- ==== Sys2Proof/Machine/Matrix.lean ====
section
/-! DEFINITION. The matrix instructions, the streams of the array and the work of the operations in them (R231, R327 to R343). -/

namespace Sys2Proof.Machine
open Sys2Proof

/-! ## tcfg (R328, R329) -/

/-- The type of a tile register's elements: integers, or a type as conversions name it. -/
def tcTy (w : Word) (fmt : SMap Word) : Option VTy :=
  let f := tcSel w
  if tcEw w ≤ 8 then (if f != 0 && nfOk (mgetD fmt f 0) (tcEw w) then some (.narrow (mgetD fmt f 0)) else none)
  else (ieeeAt (tcEw w) f).map .ieee

/-- A valid tcfg (R329). -/
def tcOk (w : Word) (fmt : SMap Word) : Bool :=
  let k := tcCols w * tcEw w
  let bl := bits w 31 29
  k % 8 == 0 && k ≤ 2048 && bl ≤ 5
    && (if tcInt w then tcSel w == 0 && bl == 0 else !tcUns w && (tcTy w fmt).isSome)
    && (bl == 0 || (!tcInt w && tcEw w ≤ 8 && tcCols w % tcBl w == 0))

/-- Element j of a row of a tile register (R327). -/
def tElem (t : Tile) (n row w j : Nat) : Nat :=
  if w == 4 then (tByteAt t n row (j / 2)).toNat / (if j % 2 == 0 then 1 else 16) % 16
  else leNat ((List.range (w / 8)).map fun i => tByteAt t n row (j * (w / 8) + i))
def setTElem (t : Tile) (n row w j v : Nat) : Tile :=
  if w == 4 then
    let old := (tByteAt t n row (j / 2)).toNat
    setTBytes t n row (j / 2) [BitVec.ofNat 8 (if j % 2 == 0 then old / 16 * 16 + v % 16 else v % 16 * 16 + old % 16)]
  else setTBytes t n row (j * (w / 8)) (leBytes (w / 8) v)

def accKey (a i j : Nat) : Nat := (a * 64 + i) * 64 + j
def accAt (t : Tile) (a i j : Nat) : Nat := (mgetD t.acc (accKey a i j) 0).toNat
def setAcc (t : Tile) (a i j v : Nat) : Tile := { t with acc := mset 0 t.acc (accKey a i j) (BitVec.ofNat 32 v) }

/-! ## Products (R231, R334, R335) -/

/-- Val of an element, with the flags of reading it (R220, R228). -/
def tVal (t : Tile) (o : MOp) (cfg : Word) (n i k : Nat) : Fp × Nat :=
  let v := tElem t n i (tcEw cfg) k
  let ftzi := ftziOf o.vcsr
  match tcTy cfg o.fmts with
  | some (.ieee f) => (f.get ftzi v, 0)
  | some (.narrow f) =>
    let x := nfRead f o.ctabs v
    if tcBl cfg == 0 then (flush32 ftzi x, 0) else scaledBy x (tSide t n i (k / tcBl cfg)).toNat ftzi
  | none => (.nan false, 0)
def tIntVal (t : Tile) (cfg : Word) (n i k : Nat) : Int :=
  let v := tElem t n i (tcEw cfg) k
  if tcUns cfg then v else toSigned (tcEw cfg) v

/-- Where the stored values of row i of A lie: logical k and column; SP is bit 0 of the operation's flags (R335). -/
def aTerms (t : Tile) (o : MOp) (i : Nat) : List (Nat × Nat) :=
  let cols := tcCols o.cfgA
  if o.flags % 2 == 1 then
    (List.range (cols / 2)).flatMap fun g =>
      let m := tElem t ((o.a + 1) % 8) i 4 g
      [(4 * g + m % 4, 2 * g), (4 * g + m / 4, 2 * g + 1)]
  else (List.range cols).map fun k => (k, k)

/-- The exact sum of a group's products, and NV (R231). A position without a stored value adds no term, so that a group whose stored products are all −0 is −0
(notes/assumptions/43.md). -/
def groupSum (l : List (Fp × Fp)) : Fp × Nat :=
  let ps := l.map fun (a, b) => fpMul a b
  let nv := if ps.any (fun p => p.2 % 2 == 1) || (ps.any (·.1 == .inf true) && ps.any (·.1 == .inf false)) then 1 else 0
  if nv == 1 || ps.any (·.1.isNan) then (.nan false, nv)
  else match ps.find? (·.1.isInf) with
    | some p => (p.1, 0)
    | none => match ps with
      | [] => (.fin false 0 0, 0)
      | p :: r => (r.foldl (fun a q => (fpAdd 0 a q.1).1) p.1, 0)

/-- The groups of an element in order of k, each added with one rounding. -/
def sumGroups (o : MOp) (g n : Nat) (terms : List (Nat × Fp × Fp)) (s fl : Nat) : Nat × Nat :=
  (List.range n).foldl (fun (s, fl) j =>
    let (t, nv) := groupSum ((terms.filter fun x => x.1 / g == j).map fun x => x.2)
    let t := if o.flags / 2 % 2 == 1 then t.neg else t
    let (v, f1) := fpAdd 0 (fp32.read s) t
    let (b, f2) := fp32.put 0 (ftzoOf o.vcsr) v
    (b, fl ||| nv ||| f1 ||| f2)) (s, fl)

/-- Element (i, j) of an MMA, and its flags. Flags of an operation: 1 SP, 2 NEG, 4 Z, 8 INT32. -/
def mmaElem (t : Tile) (o : MOp) (i j : Nat) : Nat × Nat :=
  let terms := aTerms t o i
  let old := if o.flags / 4 % 2 == 1 then 0 else accAt t o.acc i j
  if o.flags / 8 % 2 == 1 then
    let s := (terms.map fun (k, c) => tIntVal t o.cfgA o.a i c * tIntVal t o.cfgB o.b j k).sum
    (ofInt 32 ((old : Int) + (if o.flags / 2 % 2 == 1 then -s else s)), 0)
  else
    let vals := terms.map fun (k, c) => (k, tVal t o o.cfgA o.a i c, tVal t o o.cfgB o.b j k)
    let g := if tcEw o.cfgA == 16 then 16 else if tcEw o.cfgA == 8 then 32 else 64
    let depth := tcCols o.cfgB
    let fl := vals.foldl (fun a (_, x, y) => a ||| x.2 ||| y.2) 0
    sumGroups o g ((depth + g - 1) / g) (vals.map fun (k, x, y) => (k, x.1, y.1)) old fl

/-- All elements of an MMA, computed from the tile as it stands. -/
def mmaAll (t : Tile) (o : MOp) : Tile × Nat :=
  ((List.range (tcRows o.cfgA)).flatMap fun i => (List.range (tcRows o.cfgB)).map fun j => (i, j)).foldl (fun (t', fl) (i, j) =>
    let (v, f) := mmaElem t o i j
    (setAcc t' o.acc i j v, fl ||| f)) (t, 0)

/-! ## Accumulator moves (R339, R340) -/

/-- Registers MACC2V writes, and where accumulator element f goes. -/
def macc2vRegs (l : BitVec 4) : Nat := if rowBytes l == 0 then 0 else 4096 * 4 / (8 * rowBytes l)
def macc2vGroups (l : BitVec 4) (vd : Nat) : List Nat :=
  (List.range (macc2vRegs l)).flatMap fun r => (List.range 8).flatMap fun row =>
    (List.range (rowBytes l / 64)).map fun g => groupKey l (vd + r) row (g * 64)
def macc2vAll (t : Tile) (o : MOp) : Tile :=
  let v := rowBytes o.lanes / 4
  let t := (List.range 4096).foldl (fun t f =>
    setVElem t o.lanes (o.vd + f / (8 * v)) (f / v % 8) 32 (f % v) (accAt t o.acc (f / 64) (f % 64))) t
  (macc2vGroups o.lanes o.vd).foldl (fun t k => vClearMark (vFullGroup t k) k) t
/-- The groups become full and faulted (R332). -/
def macc2vFail (t : Tile) (o : MOp) (m : Mark) : Tile := (macc2vGroups o.lanes o.vd).foldl (fun t k => vMarkGroup (vFullGroup t k) k m) t

/-- One row of MACC2T: codes, scales and flags. -/
def macc2tRow (t : Tile) (o : MOp) (i : Nat) : List Nat × List Nat × Nat :=
  let cfg := o.cfgM
  let ew := tcEw cfg
  let xs := (List.range (tcCols cfg)).map fun j => accAt t o.acc i j
  if tcInt cfg then
    let r := xs.map fun x => if tcUns cfg then clampU ew (toSigned 32 x) else clampS ew (toSigned 32 x)
    (r.map (·.1), [], r.foldl (fun a y => a ||| y.2) 0)
  else
    let ftzi := ftziOf o.vcsr
    let vs := xs.map fun x => fp32.get ftzi x
    match tcTy cfg o.fmts with
    | some (.ieee f) =>
      let r := vs.map fun v => let (b, fl) := f.put 0 (ftzoOf o.vcsr) v; (b, fl ||| v.snan)
      (r.map (·.1), [], r.foldl (fun a y => a ||| y.2) 0)
    | some (.narrow f) =>
      if tcBl cfg == 0 then
        let r := vs.map (narrowPut f o.ctabs 0)
        (r.map (·.1), [], r.foldl (fun a y => a ||| y.2) 0)
      else
        let blocks := (List.range (tcScales cfg)).map fun b => (vs.drop (b * tcBl cfg)).take (tcBl cfg)
        let r := blocks.map fun l =>
          let s := blockScale f o.ctabs l
          (s, l.map fun v => if s == 255 then (0, v.snan) else narrowPut f o.ctabs 0 (v.scale (127 - s)))
        (r.flatMap fun y => y.2.map (·.1), r.map (·.1), r.foldl (fun a y => y.2.foldl (fun a z => a ||| z.2) a) 0)
    | none => ([], [], 0)
def macc2tAll (t : Tile) (o : MOp) : Tile × Nat :=
  (List.range (tcRows o.cfgM)).foldl (fun (t', fl) i =>
    let (codes, scales, f) := macc2tRow t o i
    let t' := codes.zipIdx.foldl (fun t' (c, j) => setTElem t' o.a i (tcEw o.cfgM) j c) t'
    (setTSide t' o.a i 0 (scales.map (BitVec.ofNat 8)), fl ||| f)) (t, 0)

/-! ## Streams (R330 to R332) -/

def streamAt (t : Tile) (k : Nat) : MStream := mgetD t.ms k { err := none, ops := [], stall := none }
def setStream (s : State) (t k : Nat) (x : MStream) : State := setTile s t { tileOf s t with ms := mput (tileOf s t).ms k x }

/-- The step that moves stream k on: an MMA at its head waits for the array. -/
def moveStream (s : State) (t k : Nat) : State :=
  let x := streamAt (tileOf s t) k
  match x.ops with
  | [] => s
  | o :: _ => if o.kind == 2 && !o.begun && x.err.isNone then post s (.mmaBegin t) else post s (.matrixOpComplete t k)

/-- An operation leaves its stream. -/
def popOp (s : State) (t k : Nat) : State :=
  let x := streamAt (tileOf s t) k
  moveStream (setStream s t k { x with ops := x.ops.drop 1 }) t k

/-- Flags of a completed operation: its thread's vcsr shows them after an MSYNC of the stream (R234, R271, R334). -/
def opFlags (s : State) (t k fl : Nat) : State :=
  let x := streamAt (tileOf s t) k
  setStream s t k { x with flags := x.flags ||| fl % 128 }
/-- The flags of the named streams become visible in vcsr (R341). -/
def showFlags (s : State) (l : List Nat) : State :=
  l.foldl (fun s k =>
    let x := streamAt (tileOf s (curTile s)) k
    let h := curH s
    setCur (setStream s (curTile s) k { x with flags := 0 }) { h with v := { h.v with vcsr := h.v.vcsr ||| BitVec.ofNat 64 (x.flags % 128 * 256) } }) s

/-- The oldest MMA that is ready to begin: at the head of its stream, its copy landed, its stream without error. -/
def readyMma (t : Tile) : Option (Nat × MOp) :=
  (t.ms.filterMap fun (k, x) => match x.ops with
    | o :: _ => if o.kind == 2 && !o.begun && o.waits.isNone && x.err.isNone then some (k, o) else none
    | [] => none).foldl (fun b (k, o) => match b with
      | none => some (k, o)
      | some (j, p) => if o.seq < p.seq then some (k, o) else some (j, p)) none

/-- MMA_BEGIN (R331). -/
def mmaStart (s : State) (t : Nat) : State :=
  let x := tileOf s t
  if x.mxBusy || !issues s t then s
  else match readyMma x with
    | none => s
    | some (k, o) =>
      let st := streamAt x k
      let s := setTile s t { x with mxBusy := true, ms := mput x.ms k { st with ops := { o with begun := true } :: st.ops.drop 1 } }
      post s (.matrixOpComplete t k)

/-- An operation that completes with no effect (R332). -/
def failOp (s : State) (t k : Nat) (o : MOp) (m : Mark) : State :=
  let s := if o.kind == 4 then setTile s t (macc2vFail (tileOf s t) o m) else s
  let s := if o.kind == 2 && o.begun then post (setTile s t { tileOf s t with mxBusy := false }) (.mmaBegin t) else s
  popOp s t k

/-- The unit that moves the rows of an operation; its writes travel on class 3 (R166). -/
def whoRows (s : State) (t k : Nat) (o : MOp) : Who :=
  { tile := t, part := (tilePart s t).getD 0, unit := 102, l1 := false, job := o.seq, ev := some (.matrixOpComplete t k, 0) }
/-- The copies a router makes of an operation's writes (R377). -/
def ofRows (t : Nat) (o : MOp) (r : Rep) : Bool := r.tile == t && r.unit == 102 && r.job == o.seq

/-- One row of an MLD or MST, which begins once the earlier accesses of its hart are performed (R154); it ends when a router's copies of its writes are
acknowledged, and with error when one was refused (R377). -/
def moveRow (s : State) (t k : Nat) (x : MStream) (o : MOp) : State :=
  if tcRows o.cfgA ≤ o.pos then
    if repBusy s (ofRows t o) then postOnce s (.matrixOpComplete t k)
    else if repErr s (ofRows t o) then popOp (setStream (repClear s (ofRows t o)) t k { x with err := x.err.or (some ⟨cPROT, 4, o.base, 0⟩) }) t k
    else popOp (repClear s (ofRows t o)) t k
  else if !o.begun && !drainedBefore s o.hart o.seq then post (flushBefore s o.hart o.seq) (.matrixOpComplete t k)
  else
    let p := (tilePart s t).getD 0
    let w := whoRows s t k o
    let put (s : State) (o : MOp) : State := setStream s t k { x with ops := o :: x.ops.drop 1 }
    let (r, buf) := if o.kind == 0 then loadRow s w o.sup o.cfgA o.a o.pos (o.base + BitVec.ofNat 64 o.pos * o.stride) o.buf
      else (storeRow s w o.sup o.cfgA o.a o.pos o.base o.stride, [])
    let o := { o with begun := true, buf }
    match r with
    | .ok s _ => post (put s { o with pos := o.pos + 1, buf := [] }) (.matrixOpComplete t k)
    | .wait s => retry (put s o) (.matrixOpComplete t k, 0)
    | .serve s va acc fk =>
      let id := serviceId s p
      setStream (askService s p va 2 k t acc fk 0 0) t k { x with ops := o :: x.ops.drop 1, stall := some id }
    | .err s m => popOp (setStream s t k { x with err := x.err.or (some m) }) t k

/-- MATRIX_OP_COMPLETE (R330): the head of a stream moves on, completes, or completes with no effect. -/
def matrixStep (s : State) (t k : Nat) : State :=
  let x := streamAt (tileOf s t) k
  match x.ops with
  | [] => s
  | o :: _ =>
    if x.stall.isSome || (!o.begun && !issues s t) then s
    else match x.err with
      | some m => failOp s t k o m
      | none =>
        match o.kind with
        | 2 =>
          if o.waits.isSome then s
          else if !o.begun then post s (.mmaBegin t)
          else
            let (t', fl) := mmaAll (tileOf s t) o
            post (popOp (opFlags (setTile s t { t' with mxBusy := false }) t k fl) t k) (.mmaBegin t)
        | 3 => popOp (setTile s t { tileOf s t with acc := (tileOf s t).acc.filter fun (i, _) => i / 4096 != o.acc }) t k
        | 4 => popOp (setTile s t (macc2vAll (tileOf s t) o)) t k
        | 5 =>
          let (t', fl) := macc2tAll (tileOf s t) o
          popOp (opFlags (setTile s t t') t k fl) t k
        | _ => moveRow s t k x o

/-! ## Issue -/

/-- An operation of the executing hart with its snapshot. -/
def blankOp (s : State) (kind : Nat) : MOp :=
  let h := curH s
  { kind, hart := s.cur, a := 0, b := 0, acc := 0, vd := 0, flags := 0, base := 0, stride := 0, cfgA := 0, cfgB := 0, cfgM := 0, fmts := h.fmt, ctabs := h.ctab
    vcsr := h.v.vcsr, sup := h.sup, lanes := h.v.lanes, begun := false, pos := 0, waits := none, seq := s.nextId }
def tcfgOf (s : State) (n : Nat) : Word := mgetD (tileOf s (curTile s)).tcfg n 0
def streamFull (s : State) (k : Nat) : Bool := 8 ≤ (streamAt (tileOf s (curTile s)) k).ops.length
def mxHeld (s : State) : Bool := (tileOf s (curTile s)).mx == some s.cur

/-- The operation enters its stream; the first of a stream moves at once. -/
def enterOp (s : State) (k : Nat) (o : MOp) : State :=
  let t := curTile s
  let x := streamAt (tileOf s t) k
  let s := setStream (newId s) t k { x with ops := x.ops ++ [o] }
  if x.ops.isEmpty then moveStream s t k else s

/-- The operands an MMA may have (R336). -/
def mmaOk (s : State) (a b : Nat) (sp int32 : Bool) : Bool :=
  let ca := tcfgOf s a
  let cb := tcfgOf s b
  let cm := tcfgOf s (a + 1)
  let fmt := (curH s).fmt
  tcOk ca fmt && tcOk cb fmt && tcEw ca == tcEw cb && tcEw ca != 32
    && (if int32 then tcInt ca && tcInt cb && tcEw ca != 16 else !tcInt ca && !tcInt cb)
    && (if sp then
        tcEw ca == 16 && a != 7 && b != a + 1 && tcCols ca % 2 == 0 && tcCols cb == 2 * tcCols ca
          && tcOk cm fmt && tcInt cm && tcEw cm == 4 && tcRows cm == tcRows ca && tcCols cm == tcCols ca / 2
      else tcCols ca == tcCols cb)

/-- The operation an MMA issues. -/
def mmaOp (s : State) (acc a b : Nat) (sp neg z int32 : Bool) : MOp :=
  { blankOp s 2 with a, b, acc, cfgA := tcfgOf s a, cfgB := tcfgOf s b, cfgM := tcfgOf s (a + 1)
                     flags := sp.toNat + 2 * neg.toNat + 4 * z.toNat + 8 * int32.toNat }

/-- MLD and MST (R333). -/
def rowsOp (kind : Nat) (n : BitVec 3) (k : BitVec 2) (a b : BitVec 5) (t : Bool) (s : State) : Host.Outcome State Fault Refusal :=
  finish1 s (
    if !mxHeld s then operandR s
    else withRegs s [(a, t), (b, t)] none fun y =>
      let cfg := tcfgOf s n.toNat
      let m := max 1 (tcEw cfg / 8)
      if !tcOk cfg (curH s).fmt then operandR s
      else if (gVal s a).toNat % m != 0 || (gVal s b).toNat % m != 0 then trapR s cMISALIGN (gVal s a)
      else if streamFull s k.toNat then waitR s .matrix
      else .ok (enterOp y k.toNat { blankOp s kind with a := n.toNat, base := gVal s a, stride := gVal s b, cfgA := cfg }))

/-- MLD (R333). -/
def execMld (n : BitVec 3) (x : BitVec 2) (a b : BitVec 5) (t : Bool) (s : State) : Host.Outcome State Fault Refusal :=
  rowsOp 0 n x a b t s

/-- MST (R333). -/
def execMst (n : BitVec 3) (x : BitVec 2) (a b : BitVec 5) (t : Bool) (s : State) : Host.Outcome State Fault Refusal :=
  rowsOp 1 n x a b t s

/-- MMA (R334 to R336): SP = 1 needs SPARSE (R249). -/
def execMma (c : BitVec 2) (a b : BitVec 3) (x : BitVec 2) (p n z : Bool) (y : BitVec 2) (s : State) : Host.Outcome State Fault Refusal :=
  finish1 s (
    if p && !featOn s 3 then trapR s cILLOP 0
    else if !mxHeld s || !mmaOk s a.toNat b.toNat p (y == 1) then operandR s
    else if streamFull s x.toNat then waitR s .matrix
    else .ok (enterOp s x.toNat (mmaOp s c.toNat a.toNat b.toNat p n z (y == 1))))

/-- MZERO (R338). -/
def execMzero (c x : BitVec 2) (s : State) : Host.Outcome State Fault Refusal :=
  finish1 s (
    if !mxHeld s then operandR s
    else if streamFull s x.toNat then waitR s .matrix
    else .ok (enterOp s x.toNat { blankOp s 3 with acc := c.toNat }))

/-- MACC2V (R339): waits for empty destination groups, and marks them empty. -/
def execMacc2v (d : BitVec 5) (c x : BitVec 2) (s : State) : Host.Outcome State Fault Refusal :=
  finish1 s (
    let v := (curH s).v
    let n := macc2vRegs v.lanes
    let t := tileOf s (curTile s)
    let gs := macc2vGroups v.lanes d.toNat
    if !mxHeld s || v.lanes == 0 || (v.split && v.tnum != 0) then operandR s
    else if gs.any t.vEmpty.contains then waitR s .reg
    else if 32 < d.toNat + n || (List.range n).any fun r => (boundTo s true (BitVec.ofNat 5 (d.toNat + r))).isSome then operandR s
    else if streamFull s x.toNat then waitR s .matrix
    else
      let s := enterOp s x.toNat { blankOp s 4 with acc := c.toNat, vd := d.toNat }
      .ok (setTile s (curTile s) (gs.foldl vEmptyGroup (tileOf s (curTile s)))))

/-- MACC2T (R340). -/
def execMacc2t (c : BitVec 2) (n : BitVec 3) (x : BitVec 2) (s : State) : Host.Outcome State Fault Refusal :=
  finish1 s (
    let cfg := tcfgOf s n.toNat
    if !mxHeld s || !tcOk cfg (curH s).fmt || 64 < tcCols cfg then operandR s
    else if streamFull s x.toNat then waitR s .matrix
    else .ok (enterOp s x.toNat { blankOp s 5 with acc := c.toNat, a := n.toNat, cfgM := cfg }))

/-- MSYNC (R341): waits for the named streams, reports and clears the error of the lowest-numbered one in error, and shows their flags. -/
def execMsync (m : BitVec 4) (s : State) : Host.Outcome State Fault Refusal :=
  finish1 s (
    let t := tileOf s (curTile s)
    let named := below 4 fun k => m.toNat / 2 ^ k % 2 == 1
    if !mxHeld s then operandR s
    else if named.any fun k => !(streamAt t k).ops.isEmpty then waitR s .matrix
    else match named.findSome? fun k => (streamAt t k).err.map fun e => (k, e) with
      | some (k, e) => .stop (setStream s (curTile s) k { streamAt t k with err := none }) (.trap e.cause e.sub e.addr)
      | none => .ok (showFlags s named))

/-- MMA_BEGIN (R331). -/
def execMmaBegin (tile : Nat) (s : State) : Host.Outcome State Fault Refusal := .next (mmaStart s tile)

/-- MATRIX_OP_COMPLETE (R330, R332). -/
def execMatrixOpComplete (tile stream : Nat) (s : State) : Host.Outcome State Fault Refusal := .next (matrixStep s tile stream)

end Sys2Proof.Machine
end

