-- ==== Sys2Proof/Machine/MemInstr.lean ====
section
/-! DEFINITION. The scalar memory, ordering, waiting, barrier and cache-maintenance instructions (R273 to R285), and the steps of the units that
complete them: the store buffer, the merge buffer, joins and monitors (R137, R145, R157, R167, R279). -/

namespace Sys2Proof.Machine
open Sys2Proof

/-! ## Shapes -/

/-- The agents whose copies the tile's L1 shows of every piece, if it holds them all (R68). -/
def l1Holds (s : State) (xs : List Piece) : Bool := xs.all fun x => !x.io && (l1Find s (curTile s) (x.pk / 128)).isSome
/-- The bytes of a hit, or none where the line is poisoned. -/
def l1Bytes (s : State) (xs : List Piece) : Option (List Byte) :=
  match xs with
  | [] => some []
  | x :: r =>
    match (l1Find s (curTile s) (x.pk / 128)).bind fun a => copyOf s a (x.pk / 128) with
    | some c => if c.psn then none else (l1Bytes s r).map (copyBytes c x ++ ·)
    | none => none

/-- LD and the LDST.O load (R273, R275): a hit in the L1 writes rd at once; otherwise rd is empty until the data return. -/
def loadOp (srcs : List (BitVec 5 × Bool)) (d : BitVec 5) (z : BitVec 2) (u : Bool) (va : Word) (ldsto acq : Bool) (s : State) :
    Host.Outcome State Fault Refusal :=
  finish1 s (withRegs s srcs (some d) fun _ =>
    let n := 2 ^ z.toNat
    if ldsto && va.toNat % n != 0 then trapR s cMISALIGN va
    else match rangeOf s (curTile s) (curPart s) va n .read (curH s).sup .scalar with
      | .fault s c sb a => .stop s (.trap c sb a)
      | .ok s xs =>
        let o := scalarOrd s acq false (ldsto || xs.any (·.io))
        let dest := Dest.g (gkey (curH s).sup d) n !u
        let p : Pend := { id := s.nextId, hart := s.cur, op := none, pieces := xs, va, dest, chk := false, ord := o }
        let k := popSrcs s srcs
        if l1Holds s xs && !pendHeld s p then
          match l1Bytes s xs with
          | none => trapR s cPOISON va
          | some bs =>
            let v := leNat (patch (forwarded s s.cur s.nextId xs) bs)
            .ok (setG k d (if u then BitVec.ofNat 64 v else sext (8 * n) v))
        else .ok (issuePend (emptyG k d) none xs va dest false o))

/-- ST and the LDST.O store (R273, R275): the bytes enter the store buffer. A store in the counting window is a release (R135, R159). -/
def storeOp (r a : BitVec 5) (z : BitVec 2) (t : Bool) (va : Word) (ldsto rel : Bool) (s : State) : Host.Outcome State Fault Refusal :=
  finish1 s (withRegs s [(a, t), (r, t)] none fun _ =>
    let n := 2 ^ z.toNat
    if ldsto && va.toNat % n != 0 then trapR s cMISALIGN va
    else match rangeOf s (curTile s) (curPart s) va n .write (curH s).sup .scalar with
      | .fault s c sb a => .stop s (.trap c sb a)
      | .ok s xs =>
        let rel := rel || xs.any fun x => x.io && isCounterSpace x.pk
        let v := (gVal s r).toNat % 2 ^ (8 * n)
        let k := popSrcs s [(a, t), (r, t)]
        let k := if rel then flushHart k s.cur else k
        .ok (putEntry k (.write (leBytes n v)) xs va (scalarOrd s false rel (ldsto || xs.any (·.io))) false))

/-- An AMO of function f (R276): one read-modify-write in flight, rd empty until the old value is there. -/
def amoOp (f : Nat) (d a b : BitVec 5) (z : Bool) (e : BitVec 2) (t : Bool) (s : State) : Host.Outcome State Fault Refusal :=
  let srcs := if f == 1 then [(a, t), (b, t), (d, false)] else [(a, t), (b, t)]
  finish1 s (withRegs s srcs (some d) fun _ =>
    let n := if z then 8 else 4
    let va := gVal s a
    if va.toNat % n != 0 then trapR s cMISALIGN va
    else match rangeOf s (curTile s) (curPart s) va n .amo (curH s).sup .none with
      | .fault s c sb a => .stop s (.trap c sb a)
      | .ok s xs =>
        let rel := 2 ≤ e.toNat
        let o := scalarOrd s (e.toNat % 2 == 1) rel false
        let k := emptyG (popSrcs s srcs) d
        let k := if rel then flushHart k s.cur else k
        .ok (issuePend k (some (.rmw f z (gVal s b) (gVal s d))) xs va (.g (gkey (curH s).sup d) n (!z && f != 10)) false o))

/-- A RED of function f of R276 (R277): merged when it is relaxed and its place lies on another stack or at the host, else sent at once. -/
def redOp (f : Nat) (b a : BitVec 5) (z : Bool) (e : BitVec 2) (t : Bool) (s : State) : Host.Outcome State Fault Refusal :=
  finish1 s (withRegs s [(a, t), (b, t)] none fun _ =>
    let n := if z then 8 else 4
    let va := gVal s a
    if va.toNat % n != 0 then trapR s cMISALIGN va
    else match rangeOf s (curTile s) (curPart s) va n .amo (curH s).sup .none with
      | .fault s c sb a => .stop s (.trap c sb a)
      | .ok s xs =>
        let v := gVal s b
        let st := match xs with | x :: _ => placeStack s (curPart s) x | [] => 4
        let far := st != curTile s / 128
        if e == 0 && far then
          if (s.pend.any fun q => q.hart == s.cur && !q.ord.apart) || (unsent (curH s)).any fun x => overlap x.pieces xs || (x.isRmw && !x.ord.apart) then waitR s .data
          else match xs with
            | x :: _ =>
              match mergeRed (popSrcs s [(a, t), (b, t)]) s.cur s.nextId (scalarOrd s false false false) x f z v with
              | (k, true) => .ok k
              | (_, false) => waitR (mergeRed s s.cur s.nextId (scalarOrd s false false false) x f z v).1 .slot
            | [] => .ok s
        else
          let k := popSrcs s [(a, t), (b, t)]
          let k := if e != 0 then flushHart k s.cur else k
          let k := if far then useCircuit k (curTile s) (5 * 1024 + 4 + st) else k
          .ok (putEntry k (.rmw f z v 0) xs va (scalarOrd s false (e != 0) false) false))

/-! ## Loads and stores (R273, R275) -/

/-- LD (R273). -/
def execLd (d a : BitVec 5) (z : BitVec 2) (u t : Bool) (o : BitVec 12) (s : State) : Host.Outcome State Fault Refusal :=
  loadOp [(a, t)] d z u (gVal s a + o.signExtend 64) false false s

/-- ST (R273). -/
def execSt (r a : BitVec 5) (z : BitVec 2) (t : Bool) (o : BitVec 12) (s : State) : Host.Outcome State Fault Refusal :=
  storeOp r a z t (gVal s a + o.signExtend 64) false false s

/-- The LDST.O load (R275). -/
def execLdo (d a : BitVec 5) (z : BitVec 2) (u : Bool) (e : BitVec 2) (_c : BitVec 3) (t : Bool) (s : State) : Host.Outcome State Fault Refusal :=
  loadOp [(a, t)] d z u (gVal s a) true (e == 1) s

/-- The LDST.O store (R275). -/
def execSto (r a : BitVec 5) (z : BitVec 2) (e : BitVec 2) (_c : BitVec 3) (t : Bool) (s : State) : Host.Outcome State Fault Refusal :=
  storeOp r a z t (gVal s a) true (e == 2) s

/-! ## Atomics (R276) and reductions (R277) -/

/-- AMO SWAP (R276). -/
def execAmoSwap (d a b : BitVec 5) (z : Bool) (e : BitVec 2) (_c : BitVec 3) (t : Bool) (s : State) : Host.Outcome State Fault Refusal :=
  amoOp 0 d a b z e t s

/-- AMO CAS (R276). -/
def execAmoCas (d a b : BitVec 5) (z : Bool) (e : BitVec 2) (_c : BitVec 3) (t : Bool) (s : State) : Host.Outcome State Fault Refusal :=
  amoOp 1 d a b z e t s

/-- AMO ADD (R276). -/
def execAmoAdd (d a b : BitVec 5) (z : Bool) (e : BitVec 2) (_c : BitVec 3) (t : Bool) (s : State) : Host.Outcome State Fault Refusal :=
  amoOp 2 d a b z e t s

/-- AMO AND (R276). -/
def execAmoAnd (d a b : BitVec 5) (z : Bool) (e : BitVec 2) (_c : BitVec 3) (t : Bool) (s : State) : Host.Outcome State Fault Refusal :=
  amoOp 3 d a b z e t s

/-- AMO OR (R276). -/
def execAmoOr (d a b : BitVec 5) (z : Bool) (e : BitVec 2) (_c : BitVec 3) (t : Bool) (s : State) : Host.Outcome State Fault Refusal :=
  amoOp 4 d a b z e t s

/-- AMO XOR (R276). -/
def execAmoXor (d a b : BitVec 5) (z : Bool) (e : BitVec 2) (_c : BitVec 3) (t : Bool) (s : State) : Host.Outcome State Fault Refusal :=
  amoOp 5 d a b z e t s

/-- AMO MIN (R276). -/
def execAmoMin (d a b : BitVec 5) (z : Bool) (e : BitVec 2) (_c : BitVec 3) (t : Bool) (s : State) : Host.Outcome State Fault Refusal :=
  amoOp 6 d a b z e t s

/-- AMO MAX (R276). -/
def execAmoMax (d a b : BitVec 5) (z : Bool) (e : BitVec 2) (_c : BitVec 3) (t : Bool) (s : State) : Host.Outcome State Fault Refusal :=
  amoOp 7 d a b z e t s

/-- AMO MINU (R276). -/
def execAmoMinu (d a b : BitVec 5) (z : Bool) (e : BitVec 2) (_c : BitVec 3) (t : Bool) (s : State) : Host.Outcome State Fault Refusal :=
  amoOp 8 d a b z e t s

/-- AMO MAXU (R276). -/
def execAmoMaxu (d a b : BitVec 5) (z : Bool) (e : BitVec 2) (_c : BitVec 3) (t : Bool) (s : State) : Host.Outcome State Fault Refusal :=
  amoOp 9 d a b z e t s

/-- AMO FADD (R276). -/
def execAmoFadd (d a b : BitVec 5) (z : Bool) (e : BitVec 2) (_c : BitVec 3) (t : Bool) (s : State) : Host.Outcome State Fault Refusal :=
  amoOp 10 d a b z e t s

/-- RED ADD (R277). -/
def execRedAdd (b a : BitVec 5) (z : Bool) (e : BitVec 2) (_c : BitVec 3) (t : Bool) (s : State) : Host.Outcome State Fault Refusal :=
  redOp 2 b a z e t s

/-- RED AND (R277). -/
def execRedAnd (b a : BitVec 5) (z : Bool) (e : BitVec 2) (_c : BitVec 3) (t : Bool) (s : State) : Host.Outcome State Fault Refusal :=
  redOp 3 b a z e t s

/-- RED OR (R277). -/
def execRedOr (b a : BitVec 5) (z : Bool) (e : BitVec 2) (_c : BitVec 3) (t : Bool) (s : State) : Host.Outcome State Fault Refusal :=
  redOp 4 b a z e t s

/-- RED XOR (R277). -/
def execRedXor (b a : BitVec 5) (z : Bool) (e : BitVec 2) (_c : BitVec 3) (t : Bool) (s : State) : Host.Outcome State Fault Refusal :=
  redOp 5 b a z e t s

/-- RED MIN (R277). -/
def execRedMin (b a : BitVec 5) (z : Bool) (e : BitVec 2) (_c : BitVec 3) (t : Bool) (s : State) : Host.Outcome State Fault Refusal :=
  redOp 6 b a z e t s

/-- RED MAX (R277). -/
def execRedMax (b a : BitVec 5) (z : Bool) (e : BitVec 2) (_c : BitVec 3) (t : Bool) (s : State) : Host.Outcome State Fault Refusal :=
  redOp 7 b a z e t s

/-- RED MINU (R277). -/
def execRedMinu (b a : BitVec 5) (z : Bool) (e : BitVec 2) (_c : BitVec 3) (t : Bool) (s : State) : Host.Outcome State Fault Refusal :=
  redOp 8 b a z e t s

/-- RED MAXU (R277). -/
def execRedMaxu (b a : BitVec 5) (z : Bool) (e : BitVec 2) (_c : BitVec 3) (t : Bool) (s : State) : Host.Outcome State Fault Refusal :=
  redOp 9 b a z e t s

/-- RED FADD (R277). -/
def execRedFadd (b a : BitVec 5) (z : Bool) (e : BitVec 2) (_c : BitVec 3) (t : Bool) (s : State) : Host.Outcome State Fault Refusal :=
  redOp 10 b a z e t s

/-! ## Fences and joins (R147, R167, R278) -/

/-- The hart's prior commands and matrix memory operations are complete (R147). -/
def enginesDone (s : State) (h : Nat) : Bool :=
  let t := tileOf s (h / 16)
  !(t.cq.any fun c => c.hart == h && c.src == 0)
    && !(t.se.any fun (_, e) => e.bound && !e.fabric && e.hart == h && !e.complete)
    && (match t.fab with | some f => (match f.run with | some r => r.hart != h | none => true) | none => true)
    && !(t.mx == some h && t.ms.any fun (_, m) => m.ops.any fun o => o.kind ≤ 1)

/-- The prior set of a FENCE is complete (R147): kind bits, E. -/
def fenceReady (s : State) (h : Nat) (k : BitVec 4) (e : Bool) : Bool :=
  let loads := k.toNat / 8 % 2 == 1
  let stores := k.toNat / 4 % 2 == 1
  (!loads || loadsDone s h) && (!stores || storesDone s h) && (!(e && (loads || stores)) || enginesDone s h)

/-- FENCE (R278): waits for its prior set, and at domain, pod and system scope for its join. -/
def execFence (c : BitVec 3) (k : BitVec 4) (e : Bool) (s : State) : Host.Outcome State Fault Refusal :=
  finish1 s (
    if k == 0 then .ok s
    else
      let stores := k.toNat / 4 % 2 == 1
      let joins := 4 ≤ c.toNat && (stores || e)
      match (curH s).join with
      | some j =>
        if j.sent && j.due == 0 then
          let t := tileOf s (curTile s)
          let t := { t with usedD := t.usedD.filter fun x => !j.circ.contains x
                            usedP := if j.pod then t.usedP.filter fun x => !j.circ.contains x else t.usedP }
          let s := setTile s (curTile s) t
          .ok (setCur s { curH s with join := none })
        else waitR s .fence
      | none =>
        let s := if stores then flushHart s s.cur else s
        if !fenceReady s s.cur k e then waitR s .fence
        else if joins then
          let j : Join := { id := s.nextId, pod := c.toNat == 5, sent := false, due := 0, circ := [] }
          let s := newId s
          waitR (post (setCur s { curH s with join := some j }) (.joinMarkers s.cur)) .fence
        else .ok s)

/-- JOIN_MARKERS (R167): a marker goes out on each circuit of the scope's used-set. -/
def execJoinMarkers (hart : Nat) (s : State) : Host.Outcome State Fault Refusal :=
  let h := hartOf s hart
  match h.join with
  | none => .next s
  | some j =>
    let cs := if j.pod then (tileOf s (hart / 16)).usedP else (tileOf s (hart / 16)).usedD
    .next (posts (setHart s hart { h with join := some { j with sent := true, due := cs.length, circ := cs } })
      (cs.map fun c => Event.joinMarkerArrive j.id c))

/-- The hart whose join has this id. -/
def joinHart (s : State) (id : Nat) : Option Nat :=
  (s.harts.find? fun (_, h) => match h.join with | some j => j.id == id | none => false).map (·.1)

/-- The class 0 message of agent a to a home die. -/
def isToHome (a die : Nat) (e : Event) : Bool :=
  let there (b g : Nat) : Bool := b == a && granDie g == die
  match e with
  | .gets b g => there b g
  | .getm b g => there b g
  | .upg b g => there b g
  | .puts b g => there b g
  | .putm b g _ => there b g
  | .rdat b g _ => there b g
  | .done b g => there b g
  | _ => false
/-- The step of an engine of tile t, whose writes travel on class 3. -/
def ofEngine (t : Nat) (e : Event) : Bool :=
  match e with
  | .copyTransfer u _ => u == t
  | .commandComplete u _ => u == t
  | .streamEngineAccess u _ => u == t
  | .miuAccess u _ => u == t
  | .portElement u _ => u == t
  | .matrixOpComplete u _ => u == t
  | .cutWrite u => u == t
  | _ => false
/-- A step that satisfies f waits at die for its granule, or for a piece that holds it. -/
def waitsAt (s : State) (die : Nat) (f : Event → Bool) : Bool :=
  s.waitq.any (fun (gk, l) => granDie gk == die && l.any fun e => f e.1) || s.pieces.any fun x => x.held.any fun e => granDie e.1 == die && f e.2.1

/-- The path of a pod circuit: a peer group's, or the crossbar's, which multicasts to the own package's number take: fenced, or retraining (R379 to R381). -/
def circuitFenced (s : State) (n : Nat) : Bool := if n == ownPkg s then s.xbarFenced else pathFenced s n
def circuitWaits (s : State) (n : Nat) : Bool := if n == ownPkg s then s.xbarDown else pathWaits s n

/-- Something sent ahead of a marker on circuit c of tile t is not yet performed (R167, R374, R383). -/
def aheadOf (s : State) (t c : Nat) : Bool :=
  let die := c % 1024
  match c / 1024 with
  | 0 => waitsAt s die (isToHome t die) || s.pieces.any fun x => x.tile == t && !x.live && granDie (x.pk / 128) == die
  | 3 =>
    if die < 16 then waitsAt s die (ofEngine t)
    else !circuitFenced s (die - 16) && (tileOf s t).cq.any fun x => x.retry && !x.answered && (if x.k == cMCAST then ownPkg s else x.dpkg) + 16 == die
  | 5 =>
    let p := (tilePart s t).getD 0
    (tileOf s t).merge.any (fun (_, e) => e.going && (e.due != 0 || e.vals.any fun (o, _) => mergeCircuit s e (e.word o) == c))
    || (s.harts.any fun (i, h) => i / 16 == t && (unsent h).any fun e =>
          (match e.op with | .rmw _ _ _ _ => true | _ => false) && e.pieces.any fun x => placeDie s p x == die)
    || s.relems.any fun x => x.cluster == t / 8 && x.vals.any fun v => v.1 == t % 8
  | _ => s.agenda.any fun e => match e with | .counterRaise u _ _ => u / 128 == die | _ => false

/-- JOIN_MARKER_ARRIVE (R167): answered once every message ahead of it is performed, on the crossbar after it has retrained (R381, R386); contributions of the tile
leave the router and the pod merge buffer first (R374, R383). -/
def execJoinMarkerArrive (join circuit : Nat) (s : State) : Host.Outcome State Fault Refusal :=
  match joinHart s join with
  | none => .next s
  | some h =>
    let t := h / 16
    let s := if circuit / 1024 == 5 || circuit / 1024 == 3 then rtLeave s fun x => x.cluster == t / 8 && x.vals.any fun v => v.1 == t % 8 else s
    let s := if circuit / 1024 == 3 && 16 ≤ circuit % 1024 then
        { s with podMerge := s.podMerge.map fun m => if m.dpkg == circuit % 1024 - 16 && m.cmds.any (fun c => c.1 == t) then { m with going := true } else m }
      else s
    .next (if aheadOf s t circuit || (16 ≤ circuit % 1024 && circuitWaits s (circuit % 1024 - 16)) then post s (.joinMarkerArrive join circuit) else post s (.jackSend join circuit))

/-- JACK_SEND (R167). -/
def execJackSend (join circuit : Nat) (s : State) : Host.Outcome State Fault Refusal := .next (post s (.jackArrive join circuit))

/-- JACK_ARRIVE (R167): the join counts its answers. -/
def execJackArrive (join _circuit : Nat) (s : State) : Host.Outcome State Fault Refusal :=
  match joinHart s join with
  | none => .next s
  | some h =>
    let x := hartOf s h
    .next (setHart s h { x with join := x.join.map fun j => { j with due := j.due - 1 } })

/-! ## Watching and waiting (R279, R280) -/

/-- The granule a monitor names for a piece: counters have granules of their own. -/
def monitorGran (x : Piece) : Nat := if x.io then 2 ^ 46 + x.pk / 128 else x.pk / 128
def armed (s : State) (g : Nat) : Bool := watches (curH s) g
def arm (s : State) (g : Nat) : State := setCur s { curH s with monitor := some ⟨g, false⟩ }

/-- WATCH (R279). -/
def execWatch (a : BitVec 5) (s : State) : Host.Outcome State Fault Refusal :=
  finish1 s (withRegs s [(a, false)] none fun _ =>
    let va := gVal s a
    match rangeOf s (curTile s) (curPart s) va (if va.toNat % 8 == 0 then 8 else 1) .read (curH s).sup .counter with
    | .fault s c sb x => .stop s (.trap c sb x)
    | .ok s xs =>
      match xs with
      | x :: _ => .ok (arm (popSrcs s [(a, false)]) (monitorGran x))
      | [] => .ok s)

/-- MONITOR_NOTIFY (R279): a write to the watched granule reaches the monitor. -/
def execMonitorNotify (hart : Nat) (s : State) : Host.Outcome State Fault Refusal :=
  let h := hartOf s hart
  .next (setHart s hart { h with monitor := h.monitor.map fun m => { m with notified := true }
                                 wait := if h.wait == .monitor then .none else h.wait })

/-- The wait of WAITW and WAITB on a translated 8-byte word (R280, R282): arm, read once everything that orders the read is performed (R135), and sleep until the monitor is notified, until the
value passes; k ends the instruction. -/
def waitWord (s : State) (x : Piece) (va : Word) (passes : Nat → Bool) (k : State → Nat → Res) : Res :=
  let g := monitorGran x
  let h := curH s
  if armed s g && h.wait == .monitor && !(match h.monitor with | some m => m.notified | none => true) then waitR s .monitor
  else
    let s := arm s g
    let read : Pend := { id := s.nextId, hart := s.cur, op := none, pieces := [x], va, dest := .buf 0, chk := false, ord := scalarOrd s true false x.io }
    if pendHeld s read || (unsent (curH s)).any fun e => overlap e.pieces [x] then
      waitR (flushMerge s (curTile s) fun e => e.from s.cur && e.gk == x.pk / 128) .data
    else match (if x.io then ioLoad s (curPart s) x else accRead s (whoInstr s) x) with
      | .wait s => waitR s .data
      | .err s c sb => .stop s (.trap c sb va)
      | .ok s bs => if passes (leNat bs) then k s (leNat bs) else waitR s .monitor

/-- WAITW (R280). -/
def execWaitw (d a : BitVec 5) (_c : BitVec 3) (b : BitVec 5) (s : State) : Host.Outcome State Fault Refusal :=
  let srcs := [(a, false), (b, false)]
  finish1 s (withRegs s srcs (some d) fun _ =>
    let va := gVal s a
    if va.toNat % 8 != 0 then trapR s cMISALIGN va
    else match rangeOf s (curTile s) (curPart s) va 8 .read (curH s).sup .counter with
      | .fault s c sb x => .stop s (.trap c sb x)
      | .ok s xs =>
        match xs with
        | x :: _ => waitWord s x va (fun v => decide ((gVal s b).toNat ≤ v)) fun s v => .ok (setG (popSrcs s srcs) d (BitVec.ofNat 64 v))
        | [] => .ok s)

/-! ## Barriers (R281, R282) -/

/-- The barrier word's piece: aligned, with R and W permission, no IO page. -/
def barrierWord (s : State) (va : Word) (k : State → Piece → Res) : Res :=
  if va.toNat % 8 != 0 then trapR s cMISALIGN va
  else match rangeOf s (curTile s) (curPart s) va 8 .amo (curH s).sup .none with
    | .fault s c sb x => .stop s (.trap c sb x)
    | .ok s xs => match xs with
      | x :: _ => k s x
      | [] => .ok s

/-- The participant count is from 1 to 2^32 - 1 (R282). -/
def countOk (n : Word) : Bool := 1 ≤ n.toNat && n.toNat < 2 ^ 32
/-- The phase of a barrier word. -/
def phaseOf (v : Nat) : Nat := v / 2 ^ 32 % 2 ^ 31

/-- ARRIVE (R282): a release; the hart goes on. -/
def execArrive (a b : BitVec 5) (_c : BitVec 3) (s : State) : Host.Outcome State Fault Refusal :=
  let srcs := [(a, false), (b, false)]
  finish1 s (withRegs s srcs none fun _ =>
    if !countOk (gVal s b) then operandR s
    else barrierWord s (gVal s a) fun s x =>
      .ok (putEntry (flushHart (popSrcs s srcs) s.cur) (.arrive (gVal s b)) [x] (gVal s a) (scalarOrd s false true false) false))

/-- WAITB (R282): waits until the phase differs from bits [30:0] of rb. -/
def execWaitb (a b : BitVec 5) (_c : BitVec 3) (s : State) : Host.Outcome State Fault Refusal :=
  let srcs := [(a, false), (b, false)]
  finish1 s (withRegs s srcs none fun _ =>
    barrierWord s (gVal s a) fun s x =>
      waitWord s x (gVal s a) (fun v => phaseOf v != (gVal s b).toNat % 2 ^ 31) fun s _ => .ok (popSrcs s srcs))

/-- BAR (R282): arrives once, then waits for its phase to end; an interrupted BAR resumes at its wait. -/
def execBar (a b : BitVec 5) (_c : BitVec 3) (s : State) : Host.Outcome State Fault Refusal :=
  let srcs := [(a, false), (b, false)]
  finish1 s (withRegs s srcs none fun _ =>
    if !countOk (gVal s b) then operandR s
    else barrierWord s (gVal s a) fun s x =>
      match (curH s).barPh with
      | some q =>
        waitWord s x (gVal s a) (fun v => phaseOf v != q.toNat) fun s _ =>
          let s := popSrcs s srcs
          .ok (setCur s { curH s with barPh := none })
      | none =>
        let s := flushHart s s.cur
        if !drained s s.cur then waitR s .data
        else match accRmw s (whoInstr s) x fun old => some (arriveBytes (gVal s b) old) with
          | .wait s => waitR s .data
          | .err s c sb => .stop s (.trap c sb (gVal s a))
          | .ok s old => waitR (setCur s { curH s with barPh := some (BitVec.ofNat 31 (phaseOf (leNat old))) }) .data)

/-! ## Cache maintenance (R283 to R285) -/

/-- What a granule's treatment answers: done, not yet, or a cause with its PROT detail: a conflict with a TRAP piece (R116), or the error response of a
home whose region is another's (R93, R459). -/
inductive Treat where
  | done (s : State)
  | wait (s : State)
  | stop (s : State) (cause sub : Nat)
deriving DecidableEq, Repr

/-- What comes before a granule's treatment: a transaction under way, a covering write-intent piece, which holds the request (R284), a region of another
partition (R93), and an entry in error (R108). -/
def treatGate (s : State) (gk : Nat) (k : State → Treat) : Treat :=
  let w := whoInstr s
  if (stackOf s (granStack gk)).stopped || turnDue s w then .wait s
  else if (mfind s.txns gk).isSome then .wait (waitTurn s gk w.ev)
  else match clash s gk false (curTile s) 100 w.ev with
    | .trap => .stop s cRSVC 0
    | .held s => .wait s
    | .free =>
      if !regionOk s (curPart s) gk then .stop (logHome s (curPart s) (gk * 128)) cPROT 4
      else match dirOf s gk with
        | none => k s
        | some d =>
          if (vote d).isNone then .wait (machineCheck s (granStack gk))
          else if d.bad then .wait (recallBad s gk d)
          else k s

/-- CFLUSH of a granule: recalled from every holder (R284). -/
def flushGran (s : State) (gk : Nat) : Treat :=
  treatGate s gk fun s => if (dirOf s gk).isNone then .done s else .wait (recallAll s gk)
/-- CWB of a granule: its owner's data go home and copies stay clean; host memory that a tile may hold dirty goes back to the host (R284). -/
def writeBackGran (s : State) (gk : Nat) : Treat :=
  treatGate s gk fun s => match dirOf s gk with
    | none => .done s
    | some d =>
      if !d.owned then .done s
      else if isHostGran gk then .wait (recallAll s gk) else .wait (recallShared s gk)
/-- CINV of a granule: every copy is dropped with no write-back, and the home frees the entry (R285); a host granule that another partition's copies hold is
recalled from them first (R96). -/
def discardGran (s : State) (gk : Nat) : Treat :=
  treatGate s gk fun s =>
    if (match dirOf s gk with | some d => isHostGran gk && ownp d != curPart s | none => false) then .wait (recallAll s gk)
    else if (copiesOf s gk).any fun (_, c) => !c.st.holds || c.st == .sm then .wait s
    else
      let s := (copiesOf s gk).foldl (fun s (a, _) => dropCopy s a gk) s
      let s := setTile s (curTile s) { tileOf s (curTile s) with ic := mdel (tileOf s (curTile s)).ic gk }
      .done (if (dirOf s gk).isSome then givenBack (delDir s gk) gk false else s)

/-- Translation with read permission, and W too for CINV, which writes nothing: D stays as it is (R283, R285). -/
def treatXlate (rw : Bool) (s : State) (a : Word) : TrRes :=
  let t := curTile s
  let sup := (curH s).sup
  match xlate s t (curPart s) a .read sup with
  | .fault s c sb => .fault s c sb
  | .ok s x =>
    if !rw || permitted x.perm .write sup then .ok s x
    else match gtlbTake t a (llcWalk s (t / 128) (curPart s) a .read sup) with
      | .fault s c sb => .fault s c sb
      | .ok s x => if permitted x.perm .write sup then .ok s x else .fault s cPROT 0

/-- The bytes of the page of va, by the leaf its tables hold; 64 KiB where they hold none (notes/assumptions/38.md). -/
def pageBytes (s : State) (va : Word) (t lvl fuel : Nat) : Nat :=
  match fuel with
  | 0 => 65536
  | f + 1 =>
    let e := peek64 s (t + va.toNat / 2 ^ (55 - 13 * lvl) % 2 ^ 13 * 8)
    if !bitOf e 0 then 65536
    else if bits e 3 1 == 0 then (if lvl == 3 then 65536 else pageBytes s va (bits e 53 18 * 2 ^ 16) (lvl + 1) f)
    else leafBytes e lvl
/-- The first address of the page of va. -/
def pageFirst (s : State) (va : Word) : Word :=
  let n := pageBytes s va (rootOf s (curPart s)) 1 3
  BitVec.ofNat 64 (va.toNat / n * n)

/-- A range instruction treats granule after granule of [va, va + len), or the one granule of va (R283); prog counts those treated. A fault names the
first address of its page. -/
def treatRange (s : State) (srcs : List (BitVec 5 × Bool)) (va : Word) (len : Nat) (rw : Bool) (treat : State → Nat → Treat) : Res :=
  let first := va.toNat / 128
  let n := if len == 0 then 1 else (va.toNat + len - 1) / 128 - first + 1
  let i := (curH s).prog
  let setP (s : State) (i : Nat) : State := setCur s { curH s with prog := i }
  let a := if i == 0 then va else BitVec.ofNat 64 ((first + i) * 128)
  if n ≤ i then .ok (setP (popSrcs s srcs) 0)
  else match rangeWith (treatXlate rw) s (curTile s) (curPart s) a 1 .read .none with
    | .fault s c sb x => .stop (setP s 0) (.trap c sb (if canonical x then pageFirst s x else x))
    | .ok s xs =>
      match xs with
      | [] => .ok s
      | x :: _ =>
        match treat s (x.pk / 128) with
        | .done s => if n ≤ i + 1 then .ok (setP (popSrcs s srcs) 0) else waitR (setP s (i + 1)) .data
        | .wait s => waitR s .data
        | .stop s c sb => .stop (setP s 0) (.trap c sb a)

/-- A range of CWB and CFLUSH is at most 2^32 bytes and within the canonical half of its start (R283). -/
def rangeBad (va : Word) (len : Nat) : Bool :=
  decide (2 ^ 32 < len) || (canonical va && len != 0 && va.toNat % 2 ^ 54 + len > 2 ^ 54)

/-- CWB (R284). -/
def execCwb (g h : BitVec 5) (s : State) : Host.Outcome State Fault Refusal :=
  let srcs := [(g, false), (h, false)]
  finish1 s (withRegs s srcs none fun _ =>
    if rangeBad (gVal s g) (gVal s h).toNat then operandR s
    else treatRange s srcs (gVal s g) (gVal s h).toNat false writeBackGran)

/-- CFLUSH (R284). -/
def execCflush (g h : BitVec 5) (s : State) : Host.Outcome State Fault Refusal :=
  let srcs := [(g, false), (h, false)]
  finish1 s (withRegs s srcs none fun _ =>
    if rangeBad (gVal s g) (gVal s h).toNat then operandR s
    else treatRange s srcs (gVal s g) (gVal s h).toNat false flushGran)

/-- CINV, user form (R285): the tile's instruction-cache copy of the granule goes once the hart's earlier stores, its reductions and atomics among them,
are performed. -/
def execCinv (g : BitVec 5) (s : State) : Host.Outcome State Fault Refusal :=
  finish1 s (withRegs s [(g, false)] none fun _ =>
    let va := gVal s g
    match xlateFetch s (curTile s) (curPart s) va (curH s).sup with
    | .fault s c sb => .stop s (.trap c sb va)
    | .ok s x =>
      match slotRefuses s (curPart s) x.vcid va .fetch with
      | some sb => .stop s (.trap cPROT sb va)
      | none =>
        let s := flushHart s s.cur
        if !storesDone s s.cur then waitR s .fence
        else
          let s := popSrcs s [(g, false)]
          .ok (setTile s (curTile s) { tileOf s (curTile s) with ic := mdel (tileOf s (curTile s)).ic (x.pk va / 128) }))

/-- CINV, privileged form (R285): the range is granule-aligned, of 128 to 2^32 bytes, with R and W. -/
def execCinvRange (g h : BitVec 5) (s : State) : Host.Outcome State Fault Refusal :=
  let srcs := [(g, false), (h, false)]
  if !(curH s).sup then finish1 s (trapR s cPRIV 0)
  else finish1 s (withRegs s srcs none fun _ =>
    let va := gVal s g
    let n := (gVal s h).toNat
    if va.toNat % 128 != 0 || n % 128 != 0 || n == 0 || decide (2 ^ 32 < n) then operandR s
    else treatRange s srcs va n true discardGran)

/-! ## Steps of the units (R106, R137, R145, R157, R175) -/

/-- LOAD_DATA_RETURN (R175). -/
def execLoadDataReturn (id : Nat) (s : State) : Host.Outcome State Fault Refusal := .next (pendStep s id)
/-- A hart whose instruction waited at a home has the next turn (R114, R192; notes/assumptions/3.md). -/
def giveTurn (s : State) (h : Nat) : State :=
  let t := h / 16
  { setTile s t { tileOf s t with last := if h == 0 then 8192 else h - 1 } with last := if t == 0 then 2 ^ 20 else t - 1 }
/-- HOME_SERVED_ACCESS (R67): an access in flight, or one that a hart's instruction makes while the hart waits at it. -/
def execHomeServedAccess (id : Nat) (s : State) : Host.Outcome State Fault Refusal :=
  .next (if hartMark ≤ id then giveTurn s (id - hartMark) else pendStep s id)
/-- HOME_ATOMIC (R106). -/
def execHomeAtomic (id : Nat) (s : State) : Host.Outcome State Fault Refusal := .next (pendStep s id)
/-- STORE_SEND (R137). -/
def execStoreSend (hart : Nat) (s : State) : Host.Outcome State Fault Refusal := .next (storeStep s hart)
/-- STORE_ACK (R137): the entry retires. -/
def execStoreAck (hart id : Nat) (s : State) : Host.Outcome State Fault Refusal :=
  let h := hartOf s hart
  .next (setHart s hart { h with sb := h.sb.filter fun e => e.id != id })
/-- MERGE_FLUSH_IDLE (R145). -/
def execMergeFlushIdle (tile idx : Nat) (s : State) : Host.Outcome State Fault Refusal := .next (mergeStep s tile idx)
/-- WATERMARK_RELEASE (R157): the hart's waiting load elements are examined again. -/
def execWatermarkRelease (hart : Nat) (s : State) : Host.Outcome State Fault Refusal :=
  .next ((s.pend.filter fun p => p.hart == hart && p.chk).foldl (fun s p => pendTry s p.id false) s)

end Sys2Proof.Machine
end

