-- ==== Sys2Proof/Machine/Commands.lean ====
section
/-! DEFINITION. How commands issue and are accepted (R344 to R346), the copy engine's commands COPY, PUT, GET, RAMO, RRED and MCAST
(R348, R349, R355), posted operations and the trigger counters (R356, R357, R359 to R368), and the steps that complete them. -/

namespace Sys2Proof.Machine
open Sys2Proof

/-! ## Records read at acceptance (R11, R345) -/

/-- A record as it is captured: its bytes, or what stops the instruction that names it. -/
inductive Rd where
  | ok (s : State) (bs : List Byte)
  | stop (s : State) (x : Stop)
deriving DecidableEq, Repr

/-- Reads runs of bytes for the executing hart, each within a granule. -/
def readRec (s : State) (runs : List (Word × Nat)) : Rd :=
  match runs with
  | [] => .ok s []
  | (a, n) :: r =>
    match rangeOf s (curTile s) (curPart s) a n .read (curH s).sup .none with
    | .fault s c sb x => .stop s (.trap c sb x)
    | .ok s xs =>
      match accReads s (whoInstr s) xs with
      | .wait s => .stop s (.wait .data)
      | .err s c sb => .stop s (.trap c sb a)
      | .ok s bs =>
        match readRec s r with
        | .ok s cs => .ok s (bs ++ cs)
        | e => e

/-- The first n words of a list of bytes. -/
def wordsOf (n : Nat) (bs : List Byte) : List Word := (List.range n).map fun i => BitVec.ofNat 64 (leNat ((bs.drop (8 * i)).take 8))

/-- A record of n words at va, captured. -/
def record (s : State) (va : Word) (n : Nat) (k : State → List Word → Res) : Res :=
  match readRec s (byRuns va (8 * n) (n / 16 + 2)) with
  | .ok s bs => k s (wordsOf n bs)
  | .stop s x => .stop s x

/-- Everything the executing hart did before is performed (R151). -/
def afterDrain (s : State) (k : State → Res) : Res :=
  let s := flushHart s s.cur
  if drained s s.cur then k s else waitR s .drain

/-- A record that is refused (R10, R412). -/
def refuseRecord (s : State) (va : Word) : Res := .stop s (.trap cOPERAND 0 va)

/-! ## Issue of commands (R344 to R346) -/

def cmdSrcs (r : CmdRegs) : List (BitVec 5 × Bool) := [(r.ga, false), (r.gb, false), (r.gc, false), (r.gd, false)]

/-- A command of the executing hart with its registers captured. -/
def hartCmd (s : State) (kind mode : Nat) (r : CmdRegs) (c : Comp) : Cmd :=
  { Cmd.blank s.nextId (curPart s) (curTile s) s.cur (curH s).sup with
      kind := kind * 8 + mode, ga := gVal s r.ga, gb := gVal s r.gb, gc := gVal s r.gc, gd := gVal s r.gd, comp := c, val := c.sval.zeroExtend 64 }

/-- The stamp address and the counter of completion fields are acceptable (R346). -/
def compBad (s : State) (p : Nat) (gd : Word) (c : Comp) : Bool :=
  (gd != 0 && !canonical gd) || (c.add != 0 && !ownsCounter s p c.ctile.toNat c.ctr.toNat)

/-- A completion counter the partition does not own is a violation (R346, R442). -/
def logComp (s : State) (c : Comp) : State :=
  if c.add != 0 && !ownsCounter s (curPart s) c.ctile.toNat c.ctr.toNat then
    logTile s (curTile s) (curPart s) (counterAddr c.ctile.toNat c.ctr.toNat)
  else s

/-- v registers a VREG copy reaches. -/
def vregCount (c : Cmd) : Nat := let n := 8 * rowBytes (cmdLanes c); if n == 0 then 0 else (c.gc.toNat + n - 1) / n

/-- The parameters of a COPY or pod operation that raise OPERAND at issue (R348, R355). -/
def cmdBad (s : State) (c : Cmd) : Bool :=
  let e := eBytes c
  let odd (w : Word) (n : Nat) : Bool := w.toNat % n != 0
  let far := c.dpkg == ownPkg s
  let n := rredBytes c
  compBad s c.part c.gd c.comp || (match c.k with
    | 0 => (match c.mode with
      | 0 => decide (2 ^ 40 ≤ c.gc.toNat)
      | 1 => odd c.ga e || odd c.gb e || (1 < deintN c && deintP c % e != 0)
      | 2 => odd c.ga e || odd c.gb e || !((List.range 4).all fun d => (List.range 4).any fun j => permP c j == d)
      | 3 => odd c.gc 64 || decide (32 ≤ c.gb.toNat) || decide (32 < c.gb.toNat + vregCount c)
          || (List.range (vregCount c)).any fun j => (boundTo s true (BitVec.ofNat 5 (c.gb.toNat + j))).isSome
      | _ => decide (8 ≤ c.gb.toNat) || !tcOk c.snap (curH s).fmt)
    | 8 => far || odd c.gb (if c.comp.sz then 8 else 4)
    | 9 => far || odd c.ga n || odd c.gb n || odd c.gc n || decide (2 ^ 32 < c.gc.toNat) || (c.func == 9 && c.comp.sz)
    | 10 => decide (2 ^ 32 < c.gc.toNat) || !bitOf (ptWord s c.part 0) 24
    | _ => far || decide (2 ^ 32 < c.gc.toNat))

/-- A COPY needs a grant that its hart does not hold (R171, R348, R349). -/
def copyGrantless (s : State) (c : Cmd) : Bool :=
  (c.k == 0 && c.mode == 3 && cmdLanes c == 0) || (((c.k == 0 && c.mode == 4) || c.follow.isSome) && !mxHeld s)

/-- The combination of the follow-on MMA is refused (R349). -/
def followBad (s : State) (c : Cmd) : Bool :=
  match c.follow with
  | none => false
  | some f => !mmaOk s f.ma.toNat f.mb.toNat f.msp (f.mty == 1)

/-- The command needs a feature that is not enabled (R249). -/
def cmdGated (s : State) (c : Cmd) : Bool :=
  match c.k with
  | 0 => (match c.follow with | some f => f.msp && !featOn s 3 | none => false)
  | 10 => !featOn s 0
  | _ => if joined s c.dpkg then !featOn s 1 else !featOn s 0

/-- The misaligned address of a command, if any (R346, R348). -/
def cmdMisaligned (c : Cmd) : Option Word :=
  if c.gd.toNat % 8 != 0 then some c.gd
  else if c.k == 0 && c.mode == 4 then
    let m := max 1 (tcEw c.snap / 8)
    if c.ga.toNat % m != 0 || c.gc.toNat % m != 0 then some c.ga else none
  else none

/-- Acceptance by the copy engine: claims in stashes (R75), destination groups empty (R175), the follow-on's place in its stream (R349). -/
def acceptCopy (s : State) (c : Cmd) : State :=
  let s := claimBlocks (newId (addCmd s c)) c
  let s := if c.k == 0 && c.mode == 3 then setTile s c.tile ((vregGroups c).foldl vEmptyGroup (tileOf s c.tile)) else s
  let s := match c.follow with
    | some f =>
      enterOp s f.mstr.toNat { mmaOp s f.macc.toNat f.ma.toNat f.mb.toNat f.msp f.mneg f.mz (f.mty == 1) with waits := some c.id }
    | none => s
  post s (.copyBegin c.tile)

/-- Issue of a COPY or pod operation. -/
def copyIssue (r : CmdRegs) (c : Cmd) (s : State) : Host.Outcome State Fault Refusal :=
  finish4 s (
    if cmdGated s c then trapR s cILLOP 0
    else if copyGrantless s c then operandR s
    else withRegs s (cmdSrcs r) none fun _ =>
      if cmdBad s c || followBad s c then operandR (logComp s c.comp)
      else match cmdMisaligned c with
        | some a => trapR s cMISALIGN a
        | none =>
          let t := tileOf s c.tile
          let s := flushHart s s.cur
          if c.k == 0 && c.mode == 3 && (vregGroups c).any t.vEmpty.contains then waitR s .reg
          else if (match c.follow with | some f => streamFull s f.mstr.toNat | none => false) then waitR s .matrix
          else if 64 ≤ (copyQueue s c.tile).length || claimsWait s c then waitR s .queue
          else .ok (acceptCopy (popSrcs s (cmdSrcs r)) c))

/-- COPY in mode LIN (R348). -/
def execCopyLin (r : CmdRegs) (c : Comp) (f : Option Follow) (s : State) : Host.Outcome State Fault Refusal :=
  copyIssue r { hartCmd s 0 0 r c with follow := f } s

/-- COPY in mode DEINT (R348). -/
def execCopyDeint (r : CmdRegs) (c : Comp) (f : Option Follow) (esz : BitVec 3) (np : BitVec 4) (s : State) : Host.Outcome State Fault Refusal :=
  copyIssue r { hartCmd s 0 1 r c with follow := f, esz := esz.toNat, param := np.toNat } s

/-- COPY in mode PERM (R348). -/
def execCopyPerm (r : CmdRegs) (c : Comp) (f : Option Follow) (esz : BitVec 3) (perm : BitVec 8) (s : State) : Host.Outcome State Fault Refusal :=
  copyIssue r { hartCmd s 0 2 r c with follow := f, esz := esz.toNat, param := perm.toNat } s

/-- COPY in mode VREG (R348): the hart's lane partition is captured. -/
def execCopyVreg (r : CmdRegs) (c : Comp) (f : Option Follow) (s : State) : Host.Outcome State Fault Refusal :=
  copyIssue r { hartCmd s 0 3 r c with follow := f, snap := (curH s).v.lanes.zeroExtend 64 } s

/-- COPY in mode TILE (R348): the tile register's tcfg is captured. -/
def execCopyTile (r : CmdRegs) (c : Comp) (f : Option Follow) (s : State) : Host.Outcome State Fault Refusal :=
  copyIssue r { hartCmd s 0 4 r c with follow := f, snap := tcfgOf s (gVal s r.gb).toNat } s

/-- PUT (R355). -/
def execPut (r : CmdRegs) (c : Comp) (dpkg : BitVec 9) (tag : Option PodTag) (s : State) : Host.Outcome State Fault Refusal :=
  copyIssue r { hartCmd s cPUT 0 r c with dpkg := dpkg.toNat, tag } s

/-- GET (R355). -/
def execGet (r : CmdRegs) (c : Comp) (dpkg : BitVec 9) (s : State) : Host.Outcome State Fault Refusal :=
  copyIssue r { hartCmd s cGET 0 r c with dpkg := dpkg.toNat } s

/-- RAMO (R355). -/
def execRamo (r : CmdRegs) (c : Comp) (dpkg : BitVec 9) (func : BitVec 4) (s : State) : Host.Outcome State Fault Refusal :=
  copyIssue r { hartCmd s cRAMO 0 r c with dpkg := dpkg.toNat, func := func.toNat } s

/-- RRED (R355). -/
def execRred (r : CmdRegs) (c : Comp) (dpkg : BitVec 9) (tag : Option PodTag) (func : BitVec 4) (s : State) : Host.Outcome State Fault Refusal :=
  copyIssue r { hartCmd s cRRED 0 r c with dpkg := dpkg.toNat, tag, func := func.toNat } s

/-- MCAST (R355): the destination field names a group. -/
def execMcast (r : CmdRegs) (c : Comp) (group : BitVec 8) (tag : Option PodTag) (s : State) : Host.Outcome State Fault Refusal :=
  copyIssue r { hartCmd s cMCAST 0 r c with dpkg := group.toNat, tag } s

/-! ## The steps of the copy engine (R345, R347, R348) -/

/-- COMMAND_ACCEPT (R345): a place is free, and the hart that waits at its command issues it. -/
def execCommandAccept (hart : Nat) (s : State) : Host.Outcome State Fault Refusal :=
  let h := hartOf s hart
  .next (if h.wait == .queue then setHart s hart { h with wait := .none } else s)

/-- COPY_BEGIN (R345). -/
def execCopyBegin (tile : Nat) (s : State) : Host.Outcome State Fault Refusal := .next (beginNext s tile)

/-- COPY_TRANSFER (R348). -/
def execCopyTransfer (tile cmd : Nat) (s : State) : Host.Outcome State Fault Refusal := .next (transfer s tile cmd)

/-- COMMAND_COMPLETE (R347). -/
def execCommandComplete (tile cmd : Nat) (s : State) : Host.Outcome State Fault Refusal := .next (complete s tile cmd)

/-! ## Commands in records (R354, R356) -/

/-- The command a node record or post record holds in its words 0 to 5: none where its words are not those of one it may hold. -/
def recParse (p tile hart : Nat) (sup : Bool) (src node : Nat) (w : List Word) : Option Cmd :=
  let w0 := bits (w.getD 0 0) 31 0
  let w1 := bits (w.getD 0 0) 63 32
  let c := decComp (bits (w.getD 1 0) 31 0) (bits (w.getD 1 0) 63 32)
  let k := fldN w0 20 6
  let x : Cmd :=
    { Cmd.blank 0 p tile hart sup with
        src, node, ga := w.getD 2 0, gb := w.getD 3 0, gc := w.getD 4 0, gd := w.getD 5 0, comp := c, val := c.sval.zeroExtend 64 }
  let pod (f : Nat) (tag : Option PodTag) : Cmd := { x with kind := k * 8, dpkg := fldN w1 0 9, tag, func := f }
  let ok : Option Cmd :=
    match k with
    | 0 =>
      if fldN w1 14 18 != 0 then none
      else match fldN w1 0 3 with
        | 0 => if fldN w1 3 11 == 0 then some { x with kind := 0 } else none
        | 1 => if fldN w1 10 4 == 0 then some { x with kind := 1, esz := fldN w1 3 3, param := fldN w1 6 4 } else none
        | 2 => some { x with kind := 2, esz := fldN w1 3 3, param := fldN w1 6 8 }
        | _ => none
    | 6 => if (bit w1 9 || fldN w1 10 18 == 0) && fldN w1 28 4 == 0 then some (pod 0 (decTag w1)) else none
    | 7 => if fldN w1 9 23 == 0 then some (pod 0 none) else none
    | 8 => if fldN w1 9 19 == 0 && fldN w1 28 4 ≤ 10 then some (pod (fldN w1 28 4) none) else none
    | 9 => if (bit w1 9 || fldN w1 10 18 == 0) && fldN w1 28 4 ≤ 9 then some (pod (fldN w1 28 4) (decTag w1)) else none
    | 10 => if fldN w1 8 1 == 0 && (bit w1 9 || fldN w1 10 18 == 0) && fldN w1 28 4 == 0 then some (pod 0 (decTag w1)) else none
    | _ => none
  if fldN w0 26 6 != 63 || fldN w0 0 20 != 0 then none
  else ok.filter fun _ => compOk c (k == 8 || k == 9)

/-- The violation of a record's completion counter, if that is what is wrong with it. -/
def logRecord (s : State) (w : List Word) : State :=
  match recParse (curPart s) (curTile s) s.cur (curH s).sup 1 0 w with
  | some y => logComp s y.comp
  | none => s

/-- The command of a record with the checks of its acceptance (R354, R356). -/
def recCmd (s : State) (p tile hart : Nat) (sup : Bool) (src : Nat) (w : List Word) : Option Cmd :=
  (recParse p tile hart sup src 0 w).filter fun y => !cmdGated s y && !cmdBad s y && y.gd.toNat % 8 == 0

/-! ## Posts (R356, R357, R365 to R368) -/

/-- Slots in use: posts, and fired operations that hold theirs until they are accepted (R365). -/
def slotsUsed (t : Tile) : Nat := t.posts.length + (t.fired.filter fun c => c.node == 1).length

/-- TPOST (R356): rel is OP = 1. -/
def execTpost (ga gb gc : BitVec 5) (k : BitVec 9) (act : BitVec 2) (rel : Bool) (s : State) : Host.Outcome State Fault Refusal :=
  let srcs := [(ga, false), (gb, false), (gc, false)]
  finish4 s (withRegs s srcs none fun _ =>
    let a := gVal s ga
    let t := curTile s
    let p := curPart s
    let put (s : State) (c : Option Cmd) : Res :=
      let x : Post := { part := p, sup := (curH s).sup, k := k.toNat, addr := a, thr := gVal s gb, step := gVal s gc, act := act.toNat, rel, cmd := c }
      let s := popSrcs s srcs
      .ok (post (setTile s t { tileOf s t with posts := (tileOf s t).posts ++ [x] }) (.postExamine t k.toNat))
    if !ownsCounter s p t k.toNat || (act == 1 && gVal s gc == 0) then operandR s
    else if !rel && a.toNat % 64 != 0 then trapR s cMISALIGN a
    else if 4096 ≤ slotsUsed (tileOf s t) then waitR s .queue
    else afterDrain s fun s =>
      if rel then (if (findNode s p a.toNat (· == .pending)).isSome then put s none else operandR s)
      else record s a 8 fun s w =>
        match recCmd s p t s.cur (curH s).sup 1 w with
        | some c => if w.getD 6 0 == 0 && w.getD 7 0 == 0 then put s (some c) else refuseRecord s a
        | none => refuseRecord (logRecord s w) a)

/-- TCANCEL (R357): the posts go; their number is the stamp. -/
def execTcancel (ga gd : BitVec 5) (k : BitVec 9) (s : State) : Host.Outcome State Fault Refusal :=
  let srcs := [(ga, false), (gd, false)]
  finish4 s (withRegs s srcs none fun _ =>
    let a := gVal s ga
    let g := gVal s gd
    if g != 0 && !canonical g then operandR s
    else if g.toNat % 8 != 0 then trapR s cMISALIGN g
    else afterDrain s fun s =>
      let t := curTile s
      let hit (x : Post) : Bool := x.part == curPart s && x.k == k.toNat && x.addr == a
      let n := ((tileOf s t).posts.filter hit).length
      let s := popSrcs s srcs
      let s := setTile s t { tileOf s t with posts := (tileOf s t).posts.filter fun x => !hit x }
      .ok (addStamp s (curPart s) t s.cur (curH s).sup 0 0 g (BitVec.ofNat 64 n) none))

/-- A post fires (R357, R365): its command waits for the copy engine, with its counter's run above its parameters, or its node is released. -/
def firePost (s : State) (t : Nat) (x : Post) : State :=
  match x.cmd with
  | none => releaseNode s t x.part x.addr.toNat
  | some c =>
    let c := { c with node := if x.act == 0 || x.act == 2 then 1 else 0, param := c.param % 2 ^ 16 + (x.k / 64 + 1) * 2 ^ 16 }
    post (setTile s t { tileOf s t with fired := (tileOf s t).fired ++ [c] }) (.firedOpHandoff t)

/-- One pass over the posts of counter k (R357): those left, in order, and the state after the firings. -/
def examine (t k : Nat) (l : List Post) (s : State) : State × List Post :=
  match l with
  | [] => (s, [])
  | x :: r =>
    let v := counter s t k
    if x.k != k || v.toNat < x.thr.toNat then
      let (s, l) := examine t k r s
      (s, x :: l)
    else
      let s := firePost s t x
      let write (s : State) (v : Word) : State := { s with ctr := mset 0 s.ctr (ctrKey t k) v }
      match x.act with
      | 0 => examine t k r s
      | 1 => let (s, l) := examine t k r s; (s, { x with thr := x.thr + x.step } :: l)
      | 2 => examine t k r (write s 0)
      | _ => let (s, l) := examine t k r (write s (v - x.thr)); (s, x :: l)

/-- POST_EXAMINE (R357, R365): a pass that altered the counter is followed by another. -/
def execPostExamine (tile k : Nat) (s : State) : Host.Outcome State Fault Refusal :=
  let v := counter s tile k
  let (s, l) := examine tile k (tileOf s tile).posts s
  let s := setTile s tile { tileOf s tile with posts := l }
  .next (if counter s tile k == v then s else setCounter s tile k (counter s tile k))

/-- FIRED_OP_HANDOFF (R365): the first fired operation enters the copy engine's queue. -/
def execFiredOpHandoff (tile : Nat) (s : State) : Host.Outcome State Fault Refusal :=
  match (tileOf s tile).fired with
  | [] => .next s
  | c :: r =>
    if 64 ≤ (copyQueue s tile).length then .next s
    else if claimsWait s c then .next (post s (.firedOpHandoff tile))
    else
      let s := setTile s tile { tileOf s tile with fired := r }
      let s := acceptCopy s { c with id := s.nextId, node := 0, param := c.param % 2 ^ 16 }
      .next (if r.isEmpty then s else post s (.firedOpHandoff tile))

/-- COUNTER_RAISE (R365). -/
def execCounterRaise (tile k : Nat) (amount : BitVec 64) (s : State) : Host.Outcome State Fault Refusal := .next (raiseCounter s tile k amount)

/-! ## Grants of counters (R362) -/

def setCtlByte (s : State) (off v : Nat) : State := setCtl s off (setBits (ctlWord s off) (8 * (off % 8) + 7) (8 * (off % 8)) v)
/-- The counters of run r of tile t are 0. -/
def zeroRun (s : State) (t r : Nat) : State := { s with ctr := s.ctr.filter fun (i, _) => i / 64 != t * 8 + r }

/-- A refused write of management or the host: logged on I/O die 0 (R442). -/
def refuseCtl (s : State) (off : Nat) : State := logIo s 0 (0x40000000000 + off)
/-- Management acts once bring-up has passed the verification of the firmware (R436). -/
def broughtUp (s : State) (off : Nat) (k : State) : State := if s.firmware then k else refuseCtl s off

/-- COUNTER_RUN_GRANT (R362): a run in use keeps its partition; another is granted it only after its revocation (R430). -/
def execCounterRunGrant (tile run part : Nat) (s : State) : Host.Outcome State Fault Refusal :=
  let off := 0x40000000 + 8 * tile + run % 8
  let old := ctlByte s off
  .next (broughtUp s off (if old / 64 % 2 == 1 then (if old % 64 == part % 64 then s else refuseCtl s off)
    else zeroRun (setCtlByte s off (0x40 + part % 64)) tile (run % 8)))

/-- A fired operation not yet accepted ends: its stamp in error, and its record (R362). -/
def endFired (s : State) (c : Cmd) : State :=
  let s := cmdRecord s c ⟨cPROT, 0, 0, 0⟩
  addStamp s c.part c.tile c.hart c.sup 1 0 c.gd c.val (some ⟨cPROT, 0, 0, 0⟩)

/-- COUNTER_RUN_REVOKE (R362): posts on the run go, fired operations of the partition not yet accepted end with error. -/
def execCounterRunRevoke (tile run : Nat) (s : State) : Host.Outcome State Fault Refusal :=
  let off := 0x40000000 + 8 * tile + run % 8
  let b := ctlByte s off
  let t := tileOf s tile
  let mine (c : Cmd) : Bool := b / 64 % 2 == 1 && c.part == b % 64 && c.param / 2 ^ 16 == run % 8 + 1
  let ends := t.fired.filter mine
  let k := setTile s tile
    { t with posts := t.posts.filter (fun x => x.k / 64 != run % 8), fired := t.fired.filter fun c => !mine c }
  .next (broughtUp s off (zeroRun (setCtlByte (ends.foldl endFired k) off 0) tile (run % 8)))

/-! ## CTRADD, CTRRD and CTRSET (R359) -/

/-- The counter g[h] names: its tile, its index and the piece of its word, which is named by number and not translated: slot 64. -/
def ctrInstr (srcs : List (BitVec 5 × Bool)) (d : Option (BitVec 5)) (h : BitVec 5) (s : State) (f : State → Nat → Nat → Piece → State) :
    Host.Outcome State Fault Refusal :=
  finish1 s (withRegs s srcs d fun y =>
    let n := gVal s h
    let t := bits n 17 9
    let k := bits n 8 0
    let a := counterAddr t k
    if bits n 63 18 != 0 then operandR s
    else if !ownsCounter s (curPart s) t k then protR (logTile s (curTile s) (curPart s) a) 3 (BitVec.ofNat 64 a)
    else .ok (f y t k ⟨a, 8, 64, BitVec.ofNat 64 a, true⟩))

/-- CTRADD (R359): one raise, a release. -/
def execCtradd (g h : BitVec 5) (s : State) : Host.Outcome State Fault Refusal :=
  ctrInstr [(g, false), (h, false)] none h s fun y t k x =>
    putEntry (flushHart y y.cur) (.raise t k (gVal s g)) [x] x.va (scalarOrd y false true true) false

/-- CTRRD (R359): a relaxed read that leaves g empty until the value returns. -/
def execCtrrd (g h : BitVec 5) (s : State) : Host.Outcome State Fault Refusal :=
  ctrInstr [(h, false)] (some g) h s fun y _ _ x =>
    issuePend (emptyG y g) none [x] x.va (.g (gkey (curH s).sup g) 8 false) false (scalarOrd y false false true)

/-- CTRSET (R359): releases nothing. -/
def execCtrset (g h : BitVec 5) (s : State) : Host.Outcome State Fault Refusal :=
  ctrInstr [(g, false), (h, false)] none h s fun y t k x =>
    putEntry y (.ctrSet t k (gVal s g)) [x] x.va (scalarOrd y false false true) false

end Sys2Proof.Machine
end

