-- ==== Sys2Proof/Machine/Streams.lean ====
section
/-! DEFINITION. Stream bindings: STRM and UNSTRM, the steps of a stream engine and a stream's completion (R350 to R352). -/

namespace Sys2Proof.Machine
open Sys2Proof

/-- A pattern record that raises OPERAND (R10, R350). -/
def patBad (w : List Word) : Bool :=
  let w1 := w.getD 1 0
  let used := bits w1 5 4 + 1
  let e := 2 ^ bits w1 2 0
  3 < bits w1 2 0 || bits w1 63 6 != 0 || bits (w.getD 0 0) 54 0 % e != 0
    || (List.range 4).any fun d =>
        let n := bits (w.getD (2 + d / 2) 0) (32 * (d % 2) + 31) (32 * (d % 2))
        let st := w.getD (4 + d) 0
        if d < used then st.toNat % e != 0 else n != 0 || st != 0

/-- The register to be bound still awaits a value. -/
def bindBusy (s : State) (vfile : Bool) (r : Nat) : Bool :=
  if vfile then (tileOf s (curTile s)).vEmpty.any fun k => k / 128 == r && (laneList (curH s).v.lanes).contains (k % 16 / 4)
  else (curH s).gEmpty.contains r

/-- STRM (R350, R351). -/
def execStrm (ga gd : BitVec 5) (c : Comp) (q : BitVec 3) (file : Bool) (reg : BitVec 2) (dir : Bool) (s : State) : Host.Outcome State Fault Refusal :=
  let srcs := [(ga, false), (gd, false)]
  finish4 s (if file && (curH s).v.lanes == 0 then operandR s else withRegs s srcs none fun _ =>
    let t := curTile s
    let a := gVal s ga
    let g := gVal s gd
    let r := 28 + reg.toNat
    let same (e : SEng) : Bool := e.bound && !e.fabric && e.hart == s.cur && e.vfile == file && e.reg == r
    if compBad s (curPart s) g c || (match mfind (tileOf s t).se q.toNat with | some e => e.bound | none => false)
        || ((tileOf s t).se.any fun (_, e) => same e) then operandR (logComp s c)
    else if g.toNat % 8 != 0 then trapR s cMISALIGN g
    else if a.toNat % 64 != 0 then trapR s cMISALIGN a
    else if bindBusy s file r then waitR s .reg
    else afterDrain s fun s => record s a 8 fun s w =>
      if patBad w then refuseRecord s a
      else
        let e : SEng :=
          { bound := true, fabric := false, hart := s.cur, part := curPart s, sup := (curH s).sup, vfile := file, reg := r, write := dir, recd := w
            comp := c, gd := g, pos := 0, used := 0, data := [], mask := [], stall := none, err := none, complete := false }
        .ok (post (setEng (forgetWrote (popSrcs s srcs) t q.toNat) t q.toNat e) (.streamEngineAccess t q.toNat)))

def whoEng (e : SEng) (t q : Nat) (ev : Event) : Who := { tile := t, part := e.part, unit := q, l1 := false, ev := some (ev, 0) }

/-- The completion actions of a stream, once (R347, R351). -/
def streamEnd (s : State) (t q : Nat) (e : SEng) : State :=
  if e.complete then s
  else
    let s := setEng s t q { e with complete := true }
    let s := if e.comp.add != 0 then sendRaise s t e.comp.ctile.toNat e.comp.ctr.toNat (BitVec.ofNat 64 e.comp.add.toNat) else s
    let s := match e.err with
      | some m => workRecord s e.part 1 q t m e.gd e.hart
      | none => s
    addStamp s e.part t e.hart e.sup 0 0 e.gd (e.comp.sval.zeroExtend 64) e.err

/-- What follows an access of a stream engine. -/
def engStep (t q : Nat) (e : SEng) (r : EngR) (k : State → List Byte → State) : State :=
  let again (s : State) : State := post s (.streamEngineAccess t q)
  match r with
  | .ok s bs => again (k s bs)
  | .wait s => retry s (.streamEngineAccess t q, 0)
  | .serve s va acc fk =>
    let id := serviceId s e.part
    setEng (askService s e.part va 1 q t acc fk e.gd 0) t q { e with stall := some id }
  | .err s m => post (setEng s t q { e with err := e.err.or (some m) }) (.streamComplete t q)

/-- The value of a fetched position: extended under U for a g register (R350). -/
def popValue (e : SEng) (bs : List Byte) : Word :=
  if e.vfile || bitOf (e.recd.getD 1 0) 3 then BitVec.ofNat 64 (leNat bs) else sext (8 * patBytes e.recd) (leNat bs)

/-- A read stream fetches up to 4 KiB ahead, and what a waiting use needs (R351). -/
def fetchRoom (s : State) (e : SEng) : Bool := decide (e.data.length * patBytes e.recd < 4096) || (hartOf s e.hart).wait == .stream

/-- The positions of a write stream from pos on, of those its engine may hold, that lie in the granule of the first (R351). -/
def samePos (recd : List Word) (pos : Nat) : List Nat :=
  let g := (patAddr recd pos).toNat / 128
  (List.range (min (4096 / patBytes recd) (patTotal recd - pos))).filter fun j => (patAddr recd (pos + j)).toNat / 128 == g
/-- Those positions write the granule whole. -/
def wholePos (recd : List Word) (pos : Nat) : Option (List Nat) :=
  let l := samePos recd pos
  if (l.map fun j => (patAddr recd (pos + j)).toNat % 128).eraseDups.length * patBytes recd == 128 then some l else none
/-- The positions, counted from pos, that are written next: the oldest one, or all that write its granule whole, which go home as one write (R461); none
while some of these may still be pushed. -/
def nextPush (recd : List Word) (pos : Nat) (data : List Word) (mask : List Bool) (more : Bool) : Option (List Nat) :=
  match wholePos recd pos with
  | some l =>
    if !l.all (fun j => mask.getD j true) then some [0]
    else if l.all (· < data.length) then some l
    else if more then none else some [0]
  | none => some [0]
/-- Where the positions l are written, and their bytes, a later one over an earlier one. -/
def pushBytes (recd : List Word) (pos : Nat) (data : List Word) (l : List Nat) : Word × List Byte :=
  let n := patBytes recd
  let a := patAddr recd pos
  if l.length == 1 then (a, leBytes n (data.getD 0 0).toNat)
  else
    let d := l.foldl (fun d j => (putCopy d 0 ((patAddr recd (pos + j)).toNat % 128) (leBytes n (data.getD j 0).toNat)).1) (0 : BitVec 1024)
    (BitVec.ofNat 64 (a.toNat / 128 * 128), (List.range 128).map (granByte d))
/-- The oldest position leaves the engine; others written with it use up their turns without a write. -/
def dropPush (e : SEng) (l : List Nat) : SEng :=
  { e with data := e.data.drop 1, mask := (e.mask.zipIdx.map fun (b, j) => b && !l.contains j).drop 1 }
/-- The hart may push more: it neither waits at UNSTRM or a fence nor has ended. -/
def pushesMore (s : State) (e : SEng) : Bool :=
  let h := hartOf s e.hart
  h.st == .running && h.wait != .stream && h.wait != .drain && h.wait != .fence

/-- STREAM_ENGINE_ACCESS (R351): the next position is fetched, or the oldest pushed one written, or all of a granule's (R461). -/
def execStreamEngineAccess (tile q : Nat) (s : State) : Host.Outcome State Fault Refusal :=
  match mfind (tileOf s tile).se q with
  | none => .next s
  | some e =>
    let n := patBytes e.recd
    let a := patAddr e.recd e.pos
    if !e.bound || e.fabric || e.complete || e.stall.isSome then .next s
    else if e.err.isSome || patTotal e.recd ≤ e.pos then .next (post s (.streamComplete tile q))
    else if !e.write then
      if fetchRoom s e then
        .next (engStep tile q e (engRead s (whoEng e tile q (.streamEngineAccess tile q)) e.sup a n) fun s bs =>
          setEng s tile q { e with pos := e.pos + 1, data := e.data ++ [popValue e bs] })
      else .next (post s (.streamEngineAccess tile q))
    else
      match e.data with
      | [] => .next (post s (.streamEngineAccess tile q))
      | _ :: _ =>
        let next (l : List Nat) : SEng := { dropPush e l with pos := e.pos + 1 }
        if !e.mask.headD true then .next (post (setEng s tile q (next [0])) (.streamEngineAccess tile q))
        else match nextPush e.recd e.pos e.data e.mask (pushesMore s e) with
          | none => .next (post s (.streamEngineAccess tile q))
          | some l =>
            let (va, bs) := pushBytes e.recd e.pos e.data l
            .next (engStep tile q e (engWrite s (whoEng e tile q (.streamEngineAccess tile q)) e.sup va bs) fun s _ => setEng s tile q (next l))

/-- STREAM_COMPLETE (R351). -/
def execStreamComplete (tile q : Nat) (s : State) : Host.Outcome State Fault Refusal :=
  match mfind (tileOf s tile).se q with
  | some e =>
    let mine (r : Rep) : Bool := r.tile == tile && r.unit == q
    if repBusy s mine then .next (postOnce s (.streamComplete tile q))
    else
      let e := if repErr s mine then { e with err := e.err.or (some ⟨cPROT, 4, patAddr e.recd 0, 0⟩) } else e
      .next (if e.bound && !e.fabric then streamEnd (repClear s mine) tile q e else s)
  | none => .next s

/-- Pushed positions of a write stream still to be performed. -/
def pushesLeft (e : SEng) : Bool := e.write && e.err.isNone && !e.complete && !e.data.isEmpty

/-- The end of a binding (R352): completion actions if they are still due, and the register is ordinary again. -/
def unbind (s : State) (t q : Nat) (e : SEng) : State :=
  let s := match e.stall with
    | some id => setPart s e.part { partOf s e.part with tsReqs := (partOf s e.part).tsReqs.filter fun r => r.id != id }
    | none => s
  let s := streamEnd s t q e
  match mfind (tileOf s t).se q with
  | some e => setEng s t q { e with bound := false, data := [], mask := [], stall := none }
  | none => s

/-- What the end of a binding waits for (R352): pushed positions not performed, a router's copies of them (R377), and a value on its way to the register,
which it will push. -/
def bindingBusy (s : State) (t q : Nat) (e : SEng) : Bool :=
  pushesLeft e || (e.write && !e.vfile && (hartOf s e.hart).gEmpty.contains e.reg) || (!e.complete && repBusy s fun r => r.tile == t && r.unit == q)
/-- A use of the register waits on data, which comes before the end of its binding by another hart (R360). -/
def useWaits (s : State) (e : SEng) : Bool :=
  let h := hartOf s e.hart
  e.hart != s.cur && !e.complete && e.err.isNone && (h.conv.isSome || (h.wait == (if e.vfile then .stream else .reg)
    && (if e.write then 4096 ≤ e.data.length * patBytes e.recd
      else if e.vfile then e.data.length < patTotal e.recd - e.used
      else e.data.isEmpty && e.used < patTotal e.recd)))

/-- UNSTRM (R352). -/
def execUnstrm (q : BitVec 3) (s : State) : Host.Outcome State Fault Refusal :=
  finish4 s (match mfind (tileOf s (curTile s)).se q.toNat with
    | none => .ok s
    | some e =>
      if !e.bound || e.fabric then .ok s
      else if bindingBusy s (curTile s) q.toNat e || useWaits s e then waitR s .drain
      else .ok (unbind s (curTile s) q.toNat e))

end Sys2Proof.Machine
end

