-- ==== Sys2Proof/Machine/Launch.lean ====
section
/-! DEFINITION. Work submitted to the pools: LAUNCH and NODE with the checks of their records (R196 to R202, R288, R354), the beginning of a
command node, and RETIRE (R188, R289). -/

namespace Sys2Proof.Machine
open Sys2Proof

/-! ## Places in the pool (R201, R202) -/

/-- Depth of the point the hart runs. -/
def pointDepth (s : State) : Nat :=
  match (curH s).point with
  | some p => p.depth
  | none => 0

/-- Entries of a level in use. -/
def levelUsed (s : State) (st lvl : Nat) : Nat := ((stackOf s st).pool.filter fun (i, _) => i / 128 == lvl).length
/-- A request of hart h finds an entry left for it: those that stalled before it take theirs first. -/
def levelRoom (s : State) (st lvl h : Nat) : Bool :=
  let q := mgetD (stackOf s st).stalls lvl []
  (q.takeWhile (· != h)).length + levelUsed s st lvl < 128

/-- The hart joins the stalled requests of a level, its request as captured now; prog holds the clock of that moment, from which the walker counts (R203). -/
def stallOn (s : State) (st lvl : Nat) (n : Node) : State :=
  let x := stackOf s st
  let q := mgetD x.stalls lvl []
  if q.contains s.cur then setCur s { curH s with req := some n }
  else
    postOnce (setCur (setStack s st { x with stalls := mput x.stalls lvl (q ++ [s.cur]) }) { curH s with stalled := true, req := some n, prog := s.clock })
      (.dispatchDecision (curTile s / 128))
/-- Hart h is no longer among the stalled requests. -/
def unstall (s : State) (h : Nat) : State :=
  if !(hartOf s h).stalled then s
  else
    wakeStalls (setHart { s with stks := s.stks.map fun (k, x) => (k, { x with stalls := x.stalls.map fun (l, q) => (l, q.filter (· != h)) }) } h
      { hartOf s h with stalled := false, req := none, prog := 0 })
/-- An instruction that submits a node: one that traps gives up its place among the stalled requests; one whose request the pool took while its point was set
aside is done (R203). -/
def submitting (s : State) (done : State → Nat → Res) (r : Res) : Res :=
  if (curH s).taken then done (setCur s { curH s with taken := false }) 0
  else match r with
    | .stop s (.trap c sb a) => .stop (unstall s s.cur) (.trap c sb a)
    | r => r

/-- The outcomes of R202 for the node n of a record at a, on stack st: it enters the pool, or a status of NB = 1. -/
def place (s : State) (st : Nat) (a : Word) (nb : Bool) (n : Node) (done : State → Nat → Res) : Res :=
  let d := pointDepth s
  if 7 ≤ d then (if nb then done s 2 else .stop s (.trap cDEPTH 0 a))
  else if levelRoom s st (d + 1) s.cur then
    match freeEntry s st (d + 1) with
    | some k => done (enterNode (unstall s s.cur) k n) 0
    | none => waitR s .pool
  else if nb then done s 1
  else waitR (stallOn s st (d + 1) n) .pool

/-! ## Records (R196 to R199, R354) -/

/-- PERM names each of the first n dimensions once, and its later fields are 0 (R197). -/
def permOk (w8 n : Nat) : Bool :=
  let f (j : Nat) : Nat := w8 / 2 ^ (4 + 2 * j) % 4
  (List.range 4).all fun j => if j < n then (List.range n).any fun i => f i == j else f j == 0

/-- A nest record that raises OPERAND, its lists apart (R10, R197). -/
def nestBad (s : State) (w : List Word) (nd : Bool) : Bool :=
  let w8 := w.getD 8 0
  let w9 := w.getD 9 0
  let w10 := w.getD 10 0
  let n := bits w8 1 0 + 1
  bits (w.getD 3 0) 63 63 != 0 || bits w8 23 19 != 0 || bits w8 63 53 != 0 || bits w9 7 1 != 0 || bits w9 23 17 != 0 || bits w9 39 33 != 0
    || bits w9 63 56 != 0 || bits w10 63 2 != 0 || w.getD 13 0 != 0 || w.getD 14 0 != 0 || w.getD 15 0 != 0 || (nd && 16 < bits w8 52 48)
    || bits (w.getD 0 0) 1 0 != 0 || bits (w.getD 2 0) 2 0 != 0 || bits (w.getD 4 0) 2 0 != 0 || (nd && bits (w.getD 5 0) 3 0 != 0)
    || ((List.range 4).any fun d => n ≤ d && nestBound w d != 0)
    || (if bits w8 3 2 == 3 then !permOk w8.toNat n else bits w8 11 4 != 0)
    || (nestTiles w).isEmpty || ((nestTiles w).any fun t => !inTileSet s (curPart s) t)
    || (bitOf w9 0 && (bits w9 55 40 == 0 || !ownsCounter s (curPart s) (bits w9 32 24) (bits w9 16 8)))

/-- Reserved or misaligned fields of a command node record (R354). -/
def nodeBad (w : List Word) : Bool :=
  let w8 := w.getD 8 0
  bits w8 63 29 != 0 || ((List.range 7).any fun i => w.getD (9 + i) 0 != 0) || 16 < bits w8 28 24
    || bits (w.getD 6 0) 2 0 != 0 || bits (w.getD 7 0) 3 0 != 0

/-- The pool keys and numbers of the successors a list names: none where one is not PENDING (R198). -/
def succKeys (s : State) (l : List Word) : Option (List (Nat × Nat)) :=
  match l with
  | [] => some []
  | a :: r =>
    match findNode s (curPart s) (nestAddr a).toNat (· == .pending), succKeys s r with
    | some k, some ks => some ((k, nodeId s k) :: ks)
    | _, _ => none

/-- The regions of a footprint list: base, length, written; none where an entry has LEN = 0 or a reserved bit (R199). -/
def footList (l : List Word) (fuel : Nat) : Option (List (Nat × Nat × Bool)) :=
  match fuel, l with
  | f + 1, a :: b :: r =>
    if bits b 39 0 == 0 || bits b 62 40 != 0 then none
    else (footList r f).map fun t => ((nestAddr a).toNat, bits b 39 0, bitOf b 63) :: t
  | _, _ => some []

/-- The lists of a record, read, and the node entered: at the given stack, with PRED, or the outcomes of R202. A node with footprints first waits until the
partition holds fewer than 256 of them, whatever R202 then says of it (R200; notes/assumptions/42.md). -/
def submit (s : State) (a : Word) (w : List Word) (isCmd : Bool) (st preds : Nat) (succ foot : Word) (ns nf : Nat) (nb : Bool)
    (done : State → Nat → Res) : Res :=
  match readRec s (byRuns succ (8 * ns) (ns / 16 + 2)) with
  | .stop s x => .stop s x
  | .ok s sb =>
    match readRec s (byRuns foot (16 * nf) (nf / 8 + 2)) with
    | .stop s x => .stop s x
    | .ok s fb =>
      match succKeys s (wordsOf ns sb), footList (wordsOf (2 * nf) fb) nf with
      | some ks, some fs =>
        let n : Node :=
            { id := 0, addr := a.toNat, part := curPart s, level := pointDepth s + 1, isCmd, recd := w, succ := ks, foot := fs, derived := [], st := .pending, preds
              taint := false, nextP := 0, live := 0, ended := false, prio := 0, pass := 0, readyAt := 0, lastTile := 512, tile := curTile s, hart := s.cur
              sup := (curH s).sup }
        if footFull s n then waitR s .pool else place s st a nb n done
      | _, _ => refuseRecord s a

/-- A nest record at a, captured and submitted (R196, R197). -/
def submitNest (s : State) (a : Word) (nd nb : Bool) (done : State → Nat → Res) : Res :=
  submitting s done (
    if a.toNat % 128 != 0 then trapR s cMISALIGN a
    else afterDrain s fun s => record s a 16 fun s w =>
      if nestBad s w nd then refuseRecord s a
      else
        let w8 := w.getD 8 0
        submit s a w false (nestStack w) (bits w8 47 32) (nestAddr (w.getD 4 0)) (nestAddr (w.getD 5 0)) (bits w8 31 24) (if nd then bits w8 52 48 else 0) nb done)

/-- LAUNCH (R288). -/
def execLaunch (g h : BitVec 5) (n : Bool) (s : State) : Host.Outcome State Fault Refusal :=
  let srcs := [(h, false)]
  finish1 s (withRegs s srcs (some g) fun _ =>
    submitNest s (gVal s h) false n fun s x => .ok (setG (popSrcs s srcs) g (BitVec.ofNat 64 x)))

/-- NODE with TYPE = 0 (R354). -/
def execNodeNest (ga : BitVec 5) (s : State) : Host.Outcome State Fault Refusal :=
  finish4 s (withRegs s [(ga, false)] none fun _ => submitNest s (gVal s ga) true false fun s _ => .ok (popSrcs s [(ga, false)]))

/-- NODE with TYPE = 1 (R354). -/
def execNodeCmd (ga : BitVec 5) (s : State) : Host.Outcome State Fault Refusal :=
  finish4 s (withRegs s [(ga, false)] none fun _ =>
    let a := gVal s ga
    let done (s : State) (_ : Nat) : Res := .ok (popSrcs s [(ga, false)])
    submitting s done (
      if a.toNat % 128 != 0 then trapR s cMISALIGN a
      else afterDrain s fun s => record s a 16 fun s w =>
        if nodeBad w || (recCmd s (curPart s) (curTile s) s.cur (curH s).sup 2 w).isNone then refuseRecord (logRecord s w) a
        else
          let w8 := w.getD 8 0
          submit s a w true (curTile s / 128) (bits w8 23 8) (nestAddr (w.getD 6 0)) (nestAddr (w.getD 7 0)) (bits w8 7 0) (bits w8 28 24) false done))

/-- COMMAND_NODE_BEGIN (R189, R354): the copy engine of the issuing tile takes a READY command node. -/
def execCommandNodeBegin (part : Nat) (node : BitVec 64) (s : State) : Host.Outcome State Fault Refusal :=
  match findNode s part node.toNat (· == .ready) with
  | none => .next s
  | some k =>
    match nodeAt s k with
    | none => .next s
    | some n =>
      if !n.isCmd || n.taint then .next s
      else if 64 ≤ (copyQueue s n.tile).length then .next (post s (.commandNodeBegin part node))
      else match recParse n.part n.tile n.hart n.sup 2 k n.recd with
        | some c =>
          if claimsWait s c then .next (post s (.commandNodeBegin part node))
          else .next (acceptCopy (setNode s k { n with st := .running }) { c with id := s.nextId, nid := n.id, naddr := BitVec.ofNat 64 n.addr })
        | none => .next s

/-! ## RETIRE (R188, R289) -/

/-- The nest of a point that has ended: it completes with its last point (R189), else its walker goes on. -/
def pointDone (s : State) (k : Nat) : State :=
  match nodeAt s k with
  | none => s
  | some n =>
    let n := { n with live := n.live - 1 }
    let s := setNode s k n
    if n.live == 0 && (n.ended || nestPoints n.recd ≤ n.nextP) then completeNode s k n.ended else s

/-- The engines a configuration claimed are released, unless its run still uses them (R398). -/
def releasePorts (x : Tile) : Tile :=
  if (match x.fab with | some f => f.run.isSome | none => false) then x
  else { x with se := x.se.map fun (q, e) => if e.fabric then (q, { e with bound := false, fabric := false }) else (q, e) }
/-- The fabric grants of hart h are returned: of its tile, and of the cluster where it joined the grids (R399). -/
def returnFabric (s : State) (h : Nat) : State :=
  { s with tiles := s.tiles.map fun (i, x) => if x.fb == some h then (i, releasePorts { x with fb := none }) else (i, x) }

/-- Hart h returns its grants and becomes FREE. -/
def freeHart (s : State) (h : Nat) : State :=
  let t := h / 16
  let x := tileOf s t
  let s := returnFabric (setTile s t { x with mx := if x.mx == some h then none else x.mx }) h
  let p := (hartOf s h).point
  let s := setHart s h Hart.init
  let s := match p with
    | some ⟨some k, _⟩ => pointDone s k
    | _ => s
  post s (.dispatchDecision (t / 128))

/-- The stream bindings of hart h. -/
def boundEngines (s : State) (h : Nat) : List (Nat × SEng) := (tileOf s (h / 16)).se.filter fun (_, e) => e.bound && !e.fabric && e.hart == h

/-- Errors of the matrix streams still set at RETIRE (R422). -/
def streamErrors (s : State) (h : Nat) : State :=
  if (tileOf s (h / 16)).mx != some h then s
  else
    let s := (tileOf s (h / 16)).ms.foldl (fun s (k, x) =>
      match x.err with
      | some m => workRecord s ((tilePart s (h / 16)).getD 0) 2 k (h / 16) m 0 h
      | none => s) s
    setTile s (h / 16) { tileOf s (h / 16) with ms := [] }

/-- The hart's destinations are full, its streams of the matrix array empty (R188). -/
def retireReady (s : State) (h : Nat) : Bool :=
  let x := hartOf s h
  let t := tileOf s (h / 16)
  drained s h && x.gEmpty.isEmpty && lanesFull t x.v.lanes && !(t.mx == some h && t.ms.any fun (_, m) => !m.ops.isEmpty)

/-- The hart's point ends. -/
def retireHart (s : State) (h : Nat) : State :=
  let s := (boundEngines s h).foldl (fun s (q, e) => unbind s (h / 16) q e) s
  freeHart (streamErrors s h) h

/-- RETIRE (R289). -/
def execRetire (s : State) : Host.Outcome State Fault Refusal :=
  let v := (curH s).v
  if v.split || v.tnum != 0 then finish1 s (operandR s)
  else
    let s := flushHart s s.cur
    if !retireReady s s.cur then finish1 s (waitR s .drain)
    else if (boundEngines s s.cur).any fun (q, e) => bindingBusy s (curTile s) q e then finish1 s (waitR s .drain)
    else .next (retireHart s s.cur)

end Sys2Proof.Machine
end

