-- ==== Sys2Proof/Machine/System.lean ====
section
/-! DEFINITION. Control registers (R236, R237, R270), the supervisor's answers to service requests (R49, R50), the ending of nodes (R423), and the
system instructions TRAP, RFE, HALT, YIELD, BRK and SHOOT with the steps of a shootdown (R43 to R45, R414 to R418). -/

namespace Sys2Proof.Machine
open Sys2Proof

/-! ## Answers to service requests (R49, R50) -/

/-- An answer to an awl's request, or to that of a cut's write (R402); one that arrives while the awl is halted is held against the request's id, wherever the
cut is resumed (R405). -/
def answerAwl (s : State) (p : Nat) (r : TsReq) (fail : Bool) (m : Mark) : State :=
  let hold : State := setPart s p { partOf s p with held := mput (partOf s p).held r.id fail.toNat }
  match (tileOf s r.tile).fab.bind fun f => (tileOf s f.lead).fab with
  | none => if r.cmd == 2 ^ 20 then s else hold
  | some f =>
    match (if f.part == p then f.run else none) with
    | none => if r.cmd == 2 ^ 20 then s else hold
    | some u =>
      let put (u : FabRun) : State := setTile s f.lead { tileOf s f.lead with fab := some { f with run := some u } }
      if r.cmd == 2 ^ 20 then
        if fail then post (put { u with stopped := true, err := u.err.or (some (m, 0, 0)) }) (.freezeAbandon f.lead) else post s (.cutWrite f.lead)
      else match mfind u.awls r.cmd with
        | none => hold
        | some a =>
          if a.req != some r.id || a.frozen then hold
          else post (put { u with awls := mput u.awls r.cmd { a with req := none, fault := if fail then some m else none } })
            (if fail then .awlExtentAnswer f.lead r.cmd else .xlateTranslate f.lead r.cmd)

/-- The stream that waits for request id goes on, or ends with error: in the tile's array, or in a point that is set aside (R203, R332). -/
def answerStream (x : MStream) (id : Nat) (fail : Bool) (m : Mark) : MStream :=
  if x.stall != some id then x else { x with stall := none, err := if fail then x.err.or (some m) else x.err }
def answerEngine (e : SEng) (id : Nat) (fail : Bool) (m : Mark) : SEng :=
  if e.stall != some id then e else { e with stall := none, err := if fail then some m else e.err }
/-- The source of request r of partition p translates again (RETRY) or ends with error (FAIL). -/
def answerSource (s : State) (p : Nat) (r : TsReq) (fail : Bool) : State :=
  let m : Mark := ⟨if r.fk % 2 == 0 then cPAGE else cPROT, r.fk / 2, r.va, 0⟩
  let t := tileOf s r.tile
  match r.src with
  | 1 =>
    let s := setTile s r.tile { t with
      se := t.se.map fun (q, e) => (q, if q == r.unit then answerEngine e r.id fail m else e)
      aside := t.aside.map fun (d, a) => (d, { a with ports := a.ports.map fun (q, e) => (q, if q == r.unit then answerEngine e r.id fail m else e) }) }
    match mfind t.se r.unit with
    | some e => if e.stall == some r.id then post s (if e.fabric then .portElement r.tile r.unit else .streamEngineAccess r.tile r.unit) else s
    | none => s
  | 2 =>
    let s := setTile s r.tile { t with
      ms := t.ms.map fun (k, x) => (k, answerStream x r.id fail m)
      aside := t.aside.map fun (d, a) => (d, { a with ms := a.ms.map fun (k, x) => (k, answerStream x r.id fail m) }) }
    post s (.matrixOpComplete r.tile r.unit)
  | 3 => answerAwl s p r fail m
  | _ =>
    match cmdOf s r.tile r.cmd with
    | some c =>
      let c := { c with stall := none }
      if c.raised then (if fail then leaveQueue (cmdRecord (setCmd s c) c m) c else post (setCmd s c) (.commandComplete c.tile c.id))
      else if fail then toEnd s { c with err := some m } else again s c
    | none => s

/-- A write to tsack with H = 0 (R49). -/
def tsackById (s : State) (p id action : Nat) : State :=
  match (partOf s p).tsReqs.find? fun r => r.id == id with
  | none => logTile s (curTile s) p (id + action * 2 ^ 16)
  | some r =>
    if action == 2 then endPartition s p 15 0
    else withTile (setPart s p { partOf s p with tsReqs := (partOf s p).tsReqs.filter fun q => q.id != id }) (if r.src == 4 then 512 else r.tile) p fun s => answerSource s p r (action == 1)

/-- The write to tsack: the hart's own fault with H = 1, else the named request (R49, R50). -/
def tsackWrite (s : State) (id action : Nat) (own : Bool) : State :=
  let p := curPart s
  if own then
    if (curH s).pfault && action != 3 then (if action == 2 then endPartition s p 15 0 else s)
    else logTile s (curTile s) p (2 ^ 18 + action * 2 ^ 16)
  else if action == 3 then logTile s (curTile s) p (id + 3 * 2 ^ 16)
  else tsackById s p id action

/-! ## Ending a node (R423) -/

/-- Work of a command that nend ends: as FAIL, without a record. -/
def failNodeCmd (s : State) (c : Cmd) : State :=
  let s := match c.stall with
    | some id => setPart s c.part { partOf s c.part with tsReqs := (partOf s c.part).tsReqs.filter fun q => q.id != id }
    | none => s
  toEnd s { c with stall := none, begun := true, err := some ⟨0, 0, 0, 0⟩ }
/-- The command of a RUNNING command node ends, on its tile or in the saved context of a partition that is out. -/
def endCmd (s : State) (k : Nat) : State :=
  let ours (c : Cmd) : Bool := c.src == 2 && c.node == k && c.nid == nodeId s k && !c.raised
  match (s.tiles.flatMap fun (_, t) => t.cq).find? ours with
  | some c => failNodeCmd s c
  | none =>
    match (s.shadow.flatMap fun (i, x) => (x.tile.cq.filter ours).map fun c => (i, c)).head? with
    | some (i, c) => withTile s (i / 64) (i % 64) fun s => failNodeCmd s c
    | none => completeNode s k true

/-- The write to nend: a PENDING, READY or RUNNING node ends with error and a notice record; a nest that runs ends when its harts have
stopped. -/
def nendOp (s : State) (addr : Nat) : State :=
  let p := curPart s
  match findNode s p addr (fun _ => true) with
  | none => logTile s (curTile s) p addr
  | some k =>
    match nodeAt s k with
    | none => s
    | some n =>
      if n.ended then logTile s (curTile s) p addr
      else
        let s := noticeRecord s p 3 0 (BitVec.ofNat 64 addr) (curTile s)
        if n.isCmd then
          if n.st == .running then endCmd (setNode s k { n with ended := true }) k else completeNode s k true
        else if n.live == 0 then postOnce (completeNode s k true) (.dispatchDecision (k / 2 ^ 16))
        else post (setNode s k { n with ended := true, taint := true }) (.dispatchDecision (k / 2 ^ 16))

/-! ## Control registers (R236, R237) -/

def crPartition : List Nat := [0x800, 0x801, 0x802, 0x803, 0x804, 0x810, 0x811, 0x812, 0x813]
def crAssigned (i : Nat) : Bool :=
  i ≤ 4 || (0x11 ≤ i && i ≤ 0x1B) || (0x20 ≤ i && i ≤ 0x2F) || (0x400 ≤ i && i ≤ 0x402) || (0x408 ≤ i && i ≤ 0x40B)
    || (0x410 ≤ i && i ≤ 0x414) || i == 0x418 || i == 0x419 || (0x805 ≤ i && i ≤ 0x808) || crPartition.contains i
def crWriteOnly (i : Nat) : Bool := i == 0x803 || i == 0x813

/-- The checks of R236, in order, for an access that reads, writes, or both. -/
def crCheck (s : State) (i : Nat) (reads writes : Bool) : Option Nat :=
  let h := curH s
  let cls := i / 0x400
  if cls == 3 then some cILLOP
  else if cls == 2 && !h.sup then some cPRIV
  else if !crAssigned i then some cILLOP
  else if (writes && cls == 1) || (reads && crWriteOnly i) then some cILLOP
  else if 0x20 ≤ i && i ≤ 0x27 && (tileOf s (curTile s)).mx != some s.cur then some cOPERAND
  else if ((1 ≤ i && i ≤ 4) || (0x400 ≤ i && i ≤ 0x402)) && h.v.lanes == 0 then some cOPERAND
  else none

/-- The value of a control register. -/
def crRead (s : State) (i : Nat) : Word :=
  let h := curH s
  let t := tileOf s (curTile s)
  let p := partOf s (curPart s)
  if 0x11 ≤ i && i ≤ 0x17 then mgetD h.fmt (i - 0x10) 0
  else if 0x18 ≤ i && i ≤ 0x1B then mgetD h.ctab (i - 0x18) 0
  else if 0x20 ≤ i && i ≤ 0x27 then mgetD t.tcfg (i - 0x20) 0
  else if 0x28 ≤ i && i ≤ 0x2B then mgetD h.wm (i - 0x28) 0
  else if 0x2C ≤ i && i ≤ 0x2F then canon (mgetD h.wmb (i - 0x2C) 0).toNat
  else if 0x408 ≤ i && i ≤ 0x40B then mgetD h.ix (i - 0x408) 0
  else match i with
    | 0x000 => h.fcsr
    | 0x001 => h.v.vcsr
    | 0x002 => h.v.vrc
    | 0x003 => h.v.vfill
    | 0x004 => h.v.vrs
    | 0x400 => h.v.vl
    | 0x401 => h.v.vlreq
    | 0x402 => h.v.vtype
    | 0x410 => BitVec.ofNat 64 s.cur
    | 0x411 => BitVec.ofNat 64 (curTile s)
    | 0x412 => BitVec.ofNat 64 (curPart s)
    | 0x413 => BitVec.ofNat 64 t.laneStep
    | 0x414 => BitVec.ofNat 64 s.clock
    | 0x418 => featenWord s &&& 0x3F
    | 0x800 => p.ptbr
    | 0x801 => p.tsqb
    | 0x802 => p.tscons
    | 0x804 => p.tvec
    | 0x805 => h.tr.epc
    | 0x806 => h.tr.ecause
    | 0x807 => h.tr.eaddr
    | 0x808 => h.tr.estat
    | 0x810 => p.fsqb
    | 0x811 => p.fscons
    | 0x812 => p.fsdrop
    | _ => 0

/-- A watermark register takes a value, and the elements that wait on it are examined again (R157). -/
def watermarkOp (s : State) (i : Nat) (v : Word) : State :=
  let h := curH s
  let h := if i < 0x2C then { h with wm := mset 0 h.wm (i - 0x28) (v &&& 0x077FFFFFFFFFFFF9) }
    else { h with wmb := mset 0 h.wmb (i - 0x2C) (v &&& 0x007FFFFFFFFFFFFF) }
  post (setCur s h) (.watermarkRelease s.cur)

/-- tsqb, and fsqb: a queue that is enabled begins its count of records at 0 (R48, R421). -/
def queueReg (v : Word) : Word := v &&& 0x000FFFFFFFFF000F

/-- A write of a control register, field by field (R270). -/
def crWrite (s : State) (i : Nat) (v : Word) : State :=
  let h := curH s
  let t := tileOf s (curTile s)
  let pn := curPart s
  let p := partOf s pn
  if 0x11 ≤ i && i ≤ 0x17 then setCur s { h with fmt := mset 0 h.fmt (i - 0x10) (v &&& 0x7FFFF) }
  else if 0x18 ≤ i && i ≤ 0x1B then setCur s { h with ctab := mset 0 h.ctab (i - 0x18) v }
  else if 0x20 ≤ i && i ≤ 0x27 then setTile s (curTile s) { t with tcfg := mset 0 t.tcfg (i - 0x20) (v &&& 0xFF1FF3F3) }
  else if 0x28 ≤ i && i ≤ 0x2F then watermarkOp s i v
  else match i with
    | 0x000 => setCur s { h with fcsr := writeStatus false h.fcsr v }
    | 0x001 => setCur s { h with v := { h.v with vcsr := writeStatus true h.v.vcsr v } }
    | 0x002 => if 1 ≤ bits v 3 0 && bits v 3 0 ≤ 8 then setCur s { h with v := { h.v with vrc := v &&& 0xF } } else s
    | 0x003 => setCur s { h with v := { h.v with vfill := v } }
    | 0x004 => setCur s { h with v := { h.v with vrs := v } }
    | 0x800 => setPart s pn { p with ptbr := setBits p.ptbr 51 16 (bits v 51 16) }
    | 0x801 =>
      let on := (queueOf p.tsqb).isNone && (queueOf v).isSome
      post (setPart s pn { p with tsqb := queueReg v, tsProduced := if on then 0 else p.tsProduced }) (.tsqRecordWrite pn)
    | 0x802 => post (setPart s pn { p with tscons := v &&& 0x7FFFFFFFFFFFFFFF }) (.tsqRecordWrite pn)
    | 0x803 => tsackWrite s (bits v 15 0) (bits v 17 16) (bitOf v 18)
    | 0x804 => setPart s pn { p with tvec := v &&& 0x007FFFFFFFFFFFFD }
    | 0x805 => setCur s { h with tr := { h.tr with epc := v } }
    | 0x806 => setCur s { h with tr := { h.tr with ecause := v &&& 0xFFFF } }
    | 0x807 => setCur s { h with tr := { h.tr with eaddr := v } }
    | 0x808 => setCur s { h with tr := { h.tr with estat := v &&& 0x7FFFFFFF7 } }
    | 0x810 =>
      let on := (queueOf p.fsqb).isNone && (queueOf v).isSome
      setPart s pn { p with fsqb := queueReg v, fsProduced := if on then 0 else p.fsProduced }
    | 0x811 => setPart s pn { p with fscons := v &&& 0x7FFFFFFFFFFFFFFF }
    | 0x812 => setPart s pn { p with fsdrop := v &&& 0xFFFFFFFF }
    | 0x813 => nendOp s (canon (bits v 54 0)).toNat
    | _ => s

/-- A write of vcsr that clears flags clears those of completed matrix operations with them, seen or not (R234): the flags of m stay. -/
def keepMatrixFlags (s : State) (i : Nat) (m : Word) : State :=
  if i != 1 || (tileOf s (curTile s)).mx != some s.cur then s
  else setTile s (curTile s) { tileOf s (curTile s) with ms := (tileOf s (curTile s)).ms.map fun (k, x) => (k, { x with flags := x.flags &&& bits m 14 8 }) }

/-- A control-register instruction: the checks of R236, its g operands, and its effect. A write of tsack waits as RFE does (R42). -/
def crOp (i : BitVec 12) (reads writes : Bool) (srcs : List (BitVec 5 × Bool)) (d : Option (BitVec 5)) (f : State → State) (s : State) :
    Host.Outcome State Fault Refusal :=
  finish1 s (match crCheck s i.toNat reads writes with
    | some c => trapR s c 0
    | none => withRegs s srcs d fun k => if i == 0x803 && releasePending s s.cur then waitR s .drain else .ok (f k))

/-- MFC (R270). -/
def execMfc (g : BitVec 5) (i : BitVec 12) (s : State) : Host.Outcome State Fault Refusal :=
  crOp i true false [] (some g) (fun k => setG k g (crRead s i.toNat)) s

/-- MTC (R270). -/
def execMtc (g : BitVec 5) (t : Bool) (i : BitVec 12) (s : State) : Host.Outcome State Fault Refusal :=
  crOp i false true [(g, t)] none (fun k => crWrite (keepMatrixFlags k i.toNat (gVal s g)) i.toNat (gVal s g)) s

/-- MTCI (R270). -/
def execMtci (v : BitVec 5) (i : BitVec 12) (s : State) : Host.Outcome State Fault Refusal :=
  crOp i false true [] none (fun k => crWrite (keepMatrixFlags k i.toNat (v.zeroExtend 64)) i.toNat (v.zeroExtend 64)) s

/-- CRSB (R270). -/
def execCrsb (g : BitVec 5) (t : Bool) (i : BitVec 12) (s : State) : Host.Outcome State Fault Refusal :=
  crOp i true true [(g, t)] none (fun k => crWrite k i.toNat (crRead s i.toNat ||| gVal s g)) s

/-- CRCB (R270). -/
def execCrcb (g : BitVec 5) (t : Bool) (i : BitVec 12) (s : State) : Host.Outcome State Fault Refusal :=
  crOp i true true [(g, t)] none (fun k => crWrite (keepMatrixFlags k i.toNat (~~~(gVal s g))) i.toNat (crRead s i.toNat &&& ~~~(gVal s g))) s

/-- TSACK_RETRY (R49): the write to tsack by the hart in turn. -/
def execTsackRetry (id : Nat) (own : Bool) (s : State) : Host.Outcome State Fault Refusal := .next (tsackWrite s id 0 own)
/-- TSACK_FAIL (R49). -/
def execTsackFail (id : Nat) (own : Bool) (s : State) : Host.Outcome State Fault Refusal := .next (tsackWrite s id 1 own)
/-- TSACK_FRAME (R50). -/
def execTsackFrame (id : Nat) (own : Bool) (s : State) : Host.Outcome State Fault Refusal := .next (tsackWrite s id 2 own)
/-- TSACK_INVALID (R49): no effect on any source; logged as a violation. -/
def execTsackInvalid (id action : Nat) (_own : Bool) (s : State) : Host.Outcome State Fault Refusal :=
  .next (logTile s (curTile s) (curPart s) (id + action * 2 ^ 16))
/-- NEND_WRITE (R423). -/
def execNendWrite (addr : BitVec 64) (s : State) : Host.Outcome State Fault Refusal := .next (nendOp s (canon (bits addr 54 0)).toNat)
/-- WATERMARK_WRITE (R157): idx is the register's index, 0x28 to 0x2F. -/
def execWatermarkWrite (idx : Nat) (val : BitVec 64) (s : State) : Host.Outcome State Fault Refusal :=
  .next (if 0x28 ≤ idx && idx ≤ 0x2F then watermarkOp s idx val else s)

/-! ## TRAP, RFE, HALT, YIELD, BRK (R414 to R418) -/

/-- TRAP (R417). -/
def execTrap (i : BitVec 11) (s : State) : Host.Outcome State Fault Refusal :=
  .next (takeTrap s cTRAPI 0 (i.zeroExtend 64) ((curH s).pc + 4))

/-- RFE (R414). It waits for a release that the hart has issued, so that page-table stores the release orders are visible to the walks of the source it
resumes (R42). -/
def execRfe (s : State) : Host.Outcome State Fault Refusal :=
  if !(curH s).sup then finish1 s (trapR s cPRIV 0)
  else if bits (curH s).tr.epc 1 0 != 0 then finish1 s (trapR s cMISALIGN (curH s).tr.epc)
  else if releasePending s s.cur then finish1 s (waitR s .drain)
  else .next (trapReturn s)

/-- Partition p halts with an exit code (R418, R432): its harts stop, work not yet begun is discarded, its Cinches end (R117), STATE is 2. -/
def haltPartition (s : State) (p : Nat) (code : Word) : State :=
  let s := endPieces { s with cinches := s.cinches.filter (·.part != p) } p
  let s := setPt s p 3 (BitVec.ofNat 64 (code.toNat % 2 ^ 32))
  send (setPtState (dropAllClaims (dropWork (haltHarts s p) p false) p) p 2) (.exit p code)

/-- HALT (R418). -/
def execHalt (g : BitVec 5) (s : State) : Host.Outcome State Fault Refusal :=
  if !(curH s).sup then finish1 s (trapR s cPRIV 0)
  else
    match regStop s [(g, false)] none with
    | some x => finish1 s (.stop s x)
    | none =>
      let k := flushHart s s.cur
      if storesDone k k.cur then .next (haltPartition (popSrcs k [(g, false)]) (curPart s) (gVal s g)) else finish1 s (waitR k .drain)

/-- YIELD (R417): prog holds the clock at which the hart is ready again. -/
def execYield (g : BitVec 5) (s : State) : Host.Outcome State Fault Refusal :=
  finish1 s (
    if (curH s).wait == .yielding then waitR s .yielding
    else withRegs s [(g, false)] none fun k =>
      let n := min (gVal s g).toNat 65535
      if n == 0 then .ok k else waitR (post (setCur k { curH k with prog := s.clock + n }) (.yieldExpire s.cur)) .yielding)

/-- YIELD_EXPIRE (R417): once the count has run out, the hart goes on after its YIELD. -/
def execYieldExpire (hart : Nat) (s : State) : Host.Outcome State Fault Refusal :=
  let h := hartOf s hart
  if h.wait != .yielding then .next s
  else if s.clock < h.prog then .next (post s (.yieldExpire hart))
  else .next (setHart s hart { h with wait := .none, prog := 0, pc := h.pc + 4 })

/-- BRK (R417). -/
def execBrk (s : State) : Host.Outcome State Fault Refusal := finish1 s (trapR s cBRK 0)

/-! ## SHOOT (R43 to R45) -/

/-- The operands of SHOOT that raise OPERAND (R43). -/
def shootBad (g h : Word) : Bool :=
  let kind := bits h 1 0
  let n := bits h 40 16
  let top := g.toNat / 2 ^ 16 * 2 ^ 16 % 2 ^ 54 + n * 2 ^ 16
  kind == 3 || bits h 15 2 != 0 || bits h 63 41 != 0 || (kind != 2 && !canonical g) || (kind == 1 && (n == 0 || decide (2 ^ 54 < top)))

/-- A translation that a shootdown removes. -/
def shootHits (x : Shoot) (asid : Nat) (y : Xlat) : Bool :=
  y.asid == asid && match x.kind with
    | 0 => decide (y.vbase ≤ x.lo) && decide (x.lo < y.vbase + y.size)
    | 1 => decide (y.vbase < x.lo + x.n) && decide (x.lo < y.vbase + y.size)
    | _ => true
/-- An access at va may have used a removed translation: the widest page is 2^29 bytes. -/
def shootTouches (x : Shoot) (va : Word) : Bool :=
  match x.kind with
  | 0 => va.toNat / 2 ^ 29 == x.lo / 2 ^ 29
  | 1 => decide (x.lo / 2 ^ 29 ≤ va.toNat / 2 ^ 29) && decide (va.toNat / 2 ^ 29 ≤ (x.lo + x.n - 1) / 2 ^ 29)
  | _ => true

/-- SHOOT (R43, R44): after the hart's prior stores the shootdown goes out; the hart issues nothing until it completes. -/
def execShoot (g h : BitVec 5) (s : State) : Host.Outcome State Fault Refusal :=
  let srcs := [(g, false), (h, false)]
  if !(curH s).sup then finish1 s (trapR s cPRIV 0)
  else finish1 s (withRegs s srcs none fun _ =>
    match (curH s).shoot with
    | some id =>
      if s.shoots.any fun x => x.id == id then waitR s .shoot
      else let k := popSrcs s srcs; .ok (setCur k { curH k with shoot := none })
    | none =>
      let a := gVal s g
      let e := gVal s h
      if shootBad a e then operandR s
      else
        let s := flushHart s s.cur
        if !storesDone s s.cur then waitR s .drain
        else
          let x : Shoot :=
            { id := s.nextId, hart := s.cur, part := curPart s, kind := bits e 1 0
              lo := if bits e 1 0 == 1 then a.toNat / 2 ^ 16 * 2 ^ 16 else a.toNat, n := bits e 40 16 * 2 ^ 16
              sent := false, dropped := [], acked := [] }
          let s := setCur s { curH s with shoot := some s.nextId }
          waitR (post { newId s with shoots := s.shoots ++ [x] } (.shootBroadcast x.id)) .shoot)

def shootOf (s : State) (id : Nat) : Option Shoot := s.shoots.find? fun x => x.id == id
def setShoot (s : State) (x : Shoot) : State := { s with shoots := s.shoots.map fun y => if y.id == x.id then x else y }

/-- SHOOT_BROADCAST (R44, R45): each stack accepts up to 16 at a time. -/
def execShootBroadcast (id : Nat) (s : State) : Host.Outcome State Fault Refusal :=
  match shootOf s id with
  | none => .next s
  | some x =>
    if 16 ≤ (s.shoots.filter (·.sent)).length then .next (post s (.shootBroadcast id))
    else .next (posts (setShoot s { x with sent := true }) ((List.range 4).map (Event.shootDrop id)))

/-- The unit-stride register of a hart after a SHOOT. -/
def shootHart (x : Shoot) (asid : Nat) (h : Hart) : Hart := { h with ustr := h.ustr.filter fun y => !shootHits x asid y }

/-- A tile drops its matching translations, those of set-aside points among them (R44 step 3). -/
def shootTile (x : Shoot) (asid : Nat) (t : Tile) : Tile :=
  { t with gtlb := (t.gtlb.filter fun (_, y) => !shootHits x asid y), itlb := (t.itlb.filter fun y => !shootHits x asid y)
           aside := t.aside.map fun (d, a) => (d, { a with hart := shootHart x asid a.hart }) }

/-- A merge entry of the partition holds words of a matching page: it is flushed, so that the shootdown can end (R44). -/
def shootMerges (x : Shoot) (e : MergeE) : Bool := e.part == x.part && shootTouches x e.va

/-- The awls of the partition's fabric on a tile give up their extents, to ask anew at their next elements, and close their bursts (R39, R44). -/
def shootFabric (s : State) (x : Shoot) (t : Nat) : State :=
  match (tileOf s t).fab with
  | some f =>
    match f.run with
    | some u =>
      if f.part != x.part then s
      else
        setTile s t { tileOf s t with fab := some { f with run := some { u with awls := u.awls.map fun (i, a) => (i, { a with extent := none, burst := a.burst.map fun b => { b with send := true } }) } } }
    | none => s
  | none => s

/-- The saved contexts of a partition that is out keep no matching translation either. -/
def shootSaved (x : Shoot) (asid : Nat) (c : TileCtx) : TileCtx :=
  { c with harts := (c.harts.map fun (j, h) => (j, shootHart x asid h)), tile := shootTile x asid c.tile }

/-- SHOOT_DROP (R44): the stack's translation caches, walk cache, unit-stride registers and extents. -/
def execShootDrop (id stack : Nat) (s : State) : Host.Outcome State Fault Refusal :=
  match shootOf s id with
  | none => .next s
  | some x =>
    let asid := asidOf s x.part
    let k := stackOf s stack
    let s := setStack s stack { k with llc := k.llc.filter (fun y => !shootHits x asid y), walk := k.walk.filter (fun w => w.1 != asid) }
    let s := { s with
      tiles := s.tiles.map (fun (i, t) => if i / 128 == stack then (i, shootTile x asid t) else (i, t))
      harts := s.harts.map (fun (i, h) => (i, if i / 2048 == stack then shootHart x asid h else h))
      shadow := s.shadow.map fun (i, c) => (i, if i / 64 / 128 == stack then shootSaved x asid c else c) }
    let s := (s.tiles.filter (fun y => y.1 / 128 == stack)).foldl (fun s y => shootFabric (flushMerge s y.1 (shootMerges x)) x y.1) s
    .next (post (setShoot s { x with dropped := x.dropped ++ [(stack, s.nextId)] }) (.shootAck id stack))

/-- An awl of the partition's fabric on a tile holds stores back whose extent is gone (R44). -/
def shootBursts (x : Shoot) (t : Tile) : Bool :=
  match t.fab with
  | some f => f.part == x.part && (match f.run with
    | some u => u.awls.any fun (_, a) => (match a.burst with | some b => b.store && b.send && shootTouches x b.va | none => false)
    | none => false)
  | none => false

/-- SHOOT_ACK (R44): the stack acknowledges once every access that may have used a removed translation is performed: loads, atomics, stores and
reductions of its harts, contributions in its merge buffers, and incoming pod operations it translated. An access saved with a partition that is out
is translated again when it is re-issued (R195). -/
def execShootAck (id stack : Nat) (s : State) : Host.Outcome State Fault Refusal :=
  match shootOf s id with
  | none => .next s
  | some x =>
    let mark := match x.dropped.find? fun d => d.1 == stack with | some d => d.2 | none => 0
    let ours (h : Nat) : Bool := h / 2048 == stack && tilePart s (h / 16) == some x.part
    let busy := (s.pend.any fun q => ours q.hart && decide (q.id < mark) && q.pieces.any fun y => shootTouches x y.va)
      || (s.harts.any fun (i, h) => ours i && h.sb.any fun e => decide (e.id < mark) && shootTouches x e.va)
      || (s.tiles.any fun (t, y) => t / 128 == stack && y.merge.any fun (_, e) => decide (e.id < mark) && shootMerges x e)
      || (s.tiles.any fun (t, y) => t / 128 == stack && shootBursts x y)
      || s.admitted.any fun a => a.part == x.part && a.pieces.any fun y => homeStack y.pk == stack && shootTouches x y.va
    if busy then .next (post s (.shootAck id stack))
    else
      let x := { x with acked := stack :: x.acked }
      let s := setShoot s x
      .next (if (List.range 4).all x.acked.contains then post s (.shootComplete id) else s)

/-- SHOOT_COMPLETE (R44): the last acknowledgement is in. -/
def execShootComplete (id : Nat) (s : State) : Host.Outcome State Fault Refusal := .next { s with shoots := s.shoots.filter fun x => x.id != id }

/-! ## The walker and the translation service queue (R27, R47) -/

/-- WALK_COMPLETE (R27): the answer of a walk is installed in the tile's gather TLB and the stack's last-level cache (R36). -/
def execWalkComplete (tile part : Nat) (va : BitVec 64) (kind : AccKind) (sup : Bool) (s : State) : Host.Outcome State Fault Refusal :=
  match xlate s tile part va kind sup with
  | .ok s _ => .next s
  | .fault s _ _ => .next s

/-- TSQ_RECORD_WRITE (R47): one held request is written; the next follows. -/
def execTsqRecordWrite (part : Nat) (s : State) : Host.Outcome State Fault Refusal :=
  let k := tsqWrite s part
  .next (if (partOf k part).tsProduced != (partOf s part).tsProduced && (partOf k part).tsReqs.any (fun r => !r.written)
    then post k (.tsqRecordWrite part) else k)

end Sys2Proof.Machine
end

