-- ==== Sys2Proof/Machine/Sched.lean ====
section
/-! DEFINITION. The walkers (R186, R187, R203 to R207), stalled requests and set-aside points, the lane step and the thermal halt (R202, R203, R211,
R443). -/

namespace Sys2Proof.Machine
open Sys2Proof

/-! ## The order of a nest's points (R205) -/

/-- Dimensions, innermost first, for orders other than Morton. -/
def dimOrder (r : List Word) : List Nat :=
  let w8 := r.getD 8 0
  let n := nestDims r
  (List.range n).map fun j => match bits w8 3 2 with
    | 0 => n - 1 - j
    | 1 => j
    | _ => bits w8 (5 + 2 * j) (4 + 2 * j)

/-- The index of dimension d in the k-th tuple counted with dimensions o, innermost first. -/
def radixAt (r : List Word) (o : List Nat) (k d : Nat) : Nat :=
  match o with
  | [] => 0
  | e :: rest => if e == d then k % nestBound r e else radixAt r rest (k / nestBound r e) d

/-- The first child whose points, with those before it, exceed k: its number, and the points that remain to skip in it. -/
def pickChild (size : Nat → Nat) (l : List Nat) (k : Nat) : Nat × Nat :=
  match l with
  | [] => (0, k)
  | q :: r => if k < size q then (q, k) else pickChild size r (k - size q)

/-- The k-th in-bounds tuple of Morton order among those that share the bits of base from level lvl up. -/
def mortonAt (b : List Nat) (lvl k : Nat) (base : List Nat) : List Nat :=
  match lvl with
  | 0 => base
  | l + 1 =>
    let child (q : Nat) : List Nat := base.zipIdx.map fun (x, d) => x + q / 2 ^ d % 2 * 2 ^ l
    let size (q : Nat) : Nat := (((child q).zip b).map fun (x, m) => min (2 ^ l) (m - x)).foldl (· * ·) 1
    let (q, k) := pickChild size (List.range (2 ^ b.length)) k
    mortonAt b l k (child q)

/-- The point handed out k-th: its index in dimensions 0 to 3. -/
def nestPoint (r : List Word) (k : Nat) : List Nat :=
  let n := nestDims r
  if bits (r.getD 8 0) 3 2 == 2 then mortonAt ((List.range n).map (nestBound r)) 32 k (List.replicate n 0)
  else (List.range n).map (radixAt r (dimOrder r) k)

/-! ## Placing a point (R186, R206) -/

/-- The lane groups of a hart: its own, and those that threads of its split have returned to it (R184). -/
def heldLanes (v : VThread) : BitVec 4 := v.lanes ||| v.back
/-- Lane groups of a tile that no hart holds. -/
def freeGroups (s : State) (t : Nat) : Nat :=
  (s.harts.filter fun (i, h) => i / 16 == t && h.st != .free).foldl (fun m (_, h) => m &&& (15 - (heldLanes h.v).toNat)) 15
/-- The lane groups a fraction takes: none if they are not free. -/
def pickLanes (free frac : Nat) : Option (BitVec 4) :=
  let has (m : Nat) : Bool := free &&& m == m
  match frac with
  | 0 => some 0
  | 1 => ([1, 2, 4, 8].find? has).map (BitVec.ofNat 4)
  | 2 => ([3, 12].find? has).map (BitVec.ofNat 4)
  | _ => if has 15 then some 15 else none
def freeHartOf (s : State) (t : Nat) : Option Nat := ((List.range 16).map (16 * t + ·)).find? fun h => (hartOf s h).st == .free

def needLanes (n : Node) : Nat := bits (n.recd.getD 8 0) 13 12
def needMx (n : Node) : Bool := bitOf (n.recd.getD 8 0) 14
def needFb (n : Node) : Bool := bitOf (n.recd.getD 8 0) 15
/-- Points are left to hand out. -/
def pointsLeft (n : Node) : Bool := !n.isCmd && n.st != .pending && !n.taint && !n.ended && decide (n.nextP < nestPoints n.recd)
/-- The partition runs on tile t, and the region is not being swapped. -/
def runsOn (s : State) (p t : Nat) : Bool :=
  tilePart s t == some p && (match tileRegion s t with | some r => !(regionOf s r).halting | none => false)

/-- A FREE hart of the tile with free grants that meet the needs: the hart and its lane groups. -/
def grantsFit (s : State) (n : Node) (t : Nat) : Option (Nat × BitVec 4) :=
  let x := tileOf s t
  if !runsOn s n.part t || (needMx n && x.mx.isSome) || (needFb n && x.fb.isSome) then none
  else match freeHartOf s t, pickLanes (freeGroups s t) (needLanes n) with
    | some h, some l => some (h, l)
    | _, _ => none

/-- The key of a set-aside point among the stalled requests. -/
def asideKey (t d : Nat) : Nat := 2 ^ 16 + t * 8 + d
/-- A stalled request, in arrival order, has an entry (R202). -/
def hasEntry (s : State) (st lvl key : Nat) : Bool :=
  let q := mgetD (stackOf s st).stalls lvl []
  q.contains key && decide ((q.takeWhile (· != key)).length + levelUsed s st lvl < 128)
/-- The hart and grants that a set-aside point needs are free: on tile t, and on the tiles of the cluster whose fabrics it had joined. -/
def restoreFits (s : State) (t : Nat) (a : Aside) : Option Nat :=
  let x := tileOf s t
  let l := (heldLanes a.hart.v).toNat
  if freeGroups s t &&& l != l || (a.mx && x.mx.isSome) || (a.fb && x.fb.isSome) || a.joined.any (fun (i, _) => (tileOf s i).fb.isSome) then none
  else freeHartOf s t

/-- A request answered while its point was set aside is asked for again. -/
def askedStill (s : State) (p : Nat) (r : Option Nat) : Option Nat := r.filter fun id => (partOf s p).tsReqs.any (·.id == id)
def askAgain (s : State) (p : Nat) (f : Fabric) : Fabric :=
  { f with run := f.run.map fun u => { u with awls := u.awls.map fun (n, x) =>
      (n, if x.req.any fun r => (mfind (partOf s p).held r).isSome then x else { x with req := askedStill s p x.req }) } }
/-- A set-aside point of the tile whose request has taken its entry is due to be restored, which takes precedence over dispatch there (R203): over every
nest while what it needs is free, and before that over nests that are no deeper than the point. A deeper one can always obtain a hart and grants: it may be
what the others wait for. -/
def restoreDue (s : State) (t : Nat) (n : Node) : Bool :=
  (tileOf s t).aside.any fun (d, a) => a.hart.taken && (decide (n.level ≤ d) || (restoreFits s t a).isSome)

/-- A nest at priority 7 with a full pass count keeps the grants it needs on its placement from others (R207). -/
def reserves (n : Node) : Bool := pointsLeft n && n.prio == 7 && decide (2 ^ 20 ≤ n.pass)
def takesFrom (n r : Node) : Bool :=
  (needLanes n != 0 && needLanes r != 0) || (needMx n && needMx r) || (needFb n && needFb r)
def reservedFrom (l : List (Nat × Node)) (k : Nat) (n : Node) (t : Nat) : Bool :=
  l.any fun (j, r) => j != k && reserves r && (nestTiles r.recd).contains t && takesFrom n r

/-- The nests of a stack's pool, with their keys. -/
def stackNests (s : State) (st : Nat) : List (Nat × Node) :=
  ((stackOf s st).pool.map fun (i, n) => (st * 2 ^ 16 + i, n)).filter fun (_, n) => !n.isCmd
/-- The tiles of the placement, after the one that received the nest's previous point, wrapping (R206). -/
def tileTurn (n : Node) : List Nat :=
  let l := nestTiles n.recd
  if 512 ≤ n.lastTile then l else l.filter (n.lastTile < ·) ++ l.filter (· ≤ n.lastTile)
/-- Where the nest's next point would go: tile, hart, lane groups. -/
def findPlace (s : State) (l : List (Nat × Node)) (k : Nat) (n : Node) : Option (Nat × Nat × BitVec 4) :=
  (tileTurn n).findSome? fun t =>
    if restoreDue s t n || reservedFrom l k n t then none else (grantsFit s n t).map fun (h, g) => (t, h, g)

/-- The state in which a hart begins a point (R187). -/
def entryHart (k : Nat) (n : Node) (idx : List Nat) (lanes : BitVec 4) : Hart :=
  let r := n.recd
  let ix (d : Nat) : Word := BitVec.ofNat 64 (idx.getD d 0)
  let put (m : SMap Word) (i : Nat) (w : Word) : SMap Word := mset 0 m i w
  { Hart.init with
    st := .running
    pc := nestAddr (r.getD 0 0)
    g := put (put (put (put (put (put [] 1 (ix 0)) 2 (ix 1)) 3 (ix 2)) 4 (ix 3)) 5 (r.getD 1 0)) 6 (nestAddr (r.getD 2 0))
    ix := put (put (put (put [] 0 (ix 0)) 1 (ix 1)) 2 (ix 2)) 3 (ix 3)
    v := { VThread.init with lanes := lanes }
    point := some ⟨some k, n.level⟩ }

/-- The nest's next point goes to hart h of tile t. -/
def handOut (s : State) (k : Nat) (n : Node) (t h : Nat) (lanes : BitVec 4) : State :=
  let s := setHart s h (entryHart k n (nestPoint n.recd n.nextP) lanes)
  let x := tileOf s t
  let s := setTile s t { x with mx := if needMx n then some h else x.mx, fb := if needFb n then some h else x.fb }
  setNode s k { n with st := .running, nextP := n.nextP + 1, live := n.live + 1, lastTile := t, pass := 0 }

/-- A decision passes a nest over: its count rises, and at 2^20 its priority (R207). A nest that is no candidate counts up to its reservation, which stays
until its next point is placed. -/
def passOver (n : Node) (candidate : Bool) : Node :=
  if reserves n then n
  else if n.pass + 1 < 2 ^ 20 then { n with pass := n.pass + 1 }
  else if n.prio < 7 then { n with pass := 0, prio := n.prio + 1 }
  else { n with pass := if candidate then 0 else 2 ^ 20 }

/-- A READY nest without points whose partition runs on a tile of its placement. -/
def emptyNest (s : State) (n : Node) : Bool :=
  n.st == .ready && !n.taint && nestPoints n.recd == 0 && (nestTiles n.recd).any (runsOn s n.part)

/-- The candidates of a decision, with their places (R204). -/
def candidates (s : State) (l : List (Nat × Node)) : List (Nat × Node × Nat × Nat × BitVec 4) :=
  l.filterMap fun (k, n) =>
    if emptyNest s n then some (k, n, 512, 0, 0)
    else if pointsLeft n then (findPlace s l k n).map fun (t, h, g) => (k, n, t, h, g) else none
/-- The highest effective priority, then the one READY first, then the lower entry. -/
def better (a b : Nat × Node × Nat × Nat × BitVec 4) : Bool :=
  decide (b.2.1.prio < a.2.1.prio) || (a.2.1.prio == b.2.1.prio && (decide (a.2.1.readyAt < b.2.1.readyAt) ||
    (a.2.1.readyAt == b.2.1.readyAt && decide (a.1 ≤ b.1))))

/-! ## Nests with no points, tainted nests and ended nests (R189, R197, R423) -/

/-- The nodes of a stack that complete with error without running: tainted when READY (R189). -/
def taintedNode (s : State) (st : Nat) : Option Nat :=
  ((stackOf s st).pool.find? fun (_, n) => n.taint && n.st == .ready && !n.ended).map fun (i, _) => st * 2 ^ 16 + i

/-- The stores of a hart that stops are acknowledged, atomics and what its matrix streams had begun to store among them; a copy into registers that stand with
the hart has ended (R188, R423). -/
def stopReady (s : State) (h : Nat) : Bool :=
  let x := tileOf s (h / 16)
  storesDone s h && !(x.mx == some h && x.ms.any fun (_, m) => !m.ops.isEmpty)
    && !x.cq.any fun c => c.hart == h && c.src == 0 && !c.raised && c.k == 0 && (c.mode == 3 || c.mode == 4 || c.follow.isSome)
/-- What a hart that stops no longer waits for goes: its loads, and the operations of its matrix streams that have not begun. -/
def dropReads (s : State) (h : Nat) : State :=
  let t := h / 16
  let x := tileOf s t
  let x := { x with
    vEmpty := x.vEmpty.filter fun k => !(laneList (hartOf s h).v.lanes).contains (k % 16 / 4)
    ms := if x.mx == some h then x.ms.map fun (k, m) => (k, { m with ops := m.ops.filter (fun o => o.begun && m.stall.isNone), stall := none }) else x.ms }
  setTile { s with pend := s.pend.filter fun q => q.hart != h || q.op.isSome } t x
/-- A hart of an ended nest stops at its next boundary; once its stores are acknowledged it becomes FREE. -/
def stopHart (s : State) (h : Nat) : State :=
  let s := flushHart (unstall s h) h
  let s := dropReads (setHart s h (haltHart (hartOf s h))) h
  if stopReady s h then retireHart s h else s
/-- The harts of an ended nest stop; its set-aside points are dropped. -/
def stopNest (s : State) (k : Nat) : State :=
  let asides := s.tiles.flatMap fun (t, x) => (x.aside.filter fun (_, a) => (match a.hart.point with | some p => p.node == some k | none => false)).map fun (d, _) => (t, d)
  let s := asides.foldl (fun s (t, d) =>
    pointDone (setTile s t { tileOf s t with aside := mdel (tileOf s t).aside d }) k) s
  ((s.harts.filter fun (_, h) => h.st != .free && (match h.point with | some p => p.node == some k | none => false)).map (·.1)).foldl stopHart s
def endedNests (s : State) (st : Nat) : List Nat := ((stackNests s st).filter fun (_, n) => n.ended && n.live != 0).map (·.1)

/-! ## Set-aside points (R203) -/

/-- A nest of the stack deeper than d that cannot be dispatched for want of a hart and grants, and names tile t, where its partition runs. -/
def blockedBelow (s : State) (l : List (Nat × Node)) (t d : Nat) : Bool :=
  l.any fun (_, n) => pointsLeft n && decide (d < n.level) && (nestTiles n.recd).contains t && runsOn s n.part t
    && (nestTiles n.recd).all fun u => (grantsFit s n u).isNone
/-- The stack and level whose pool hart h waits for. -/
def stalledOn (s : State) (h : Nat) : Option Nat := (s.stks.find? fun (_, x) => x.stalls.any fun (_, q) => q.contains h).map (·.1)

/-- The hart may be set aside: its request has stalled and no entry is left for it, the slot of its depth is empty, and a deeper nest is
blocked on its tile. -/
def mayAside (s : State) (h : Nat) : Bool :=
  let x := hartOf s h
  let t := h / 16
  match x.point with
  | some p =>
    x.stalled && x.st == .running && !(hasEntry s ((stalledOn s h).getD (t / 128)) (p.depth + 1) h) && decide (p.depth ≤ 6) && (mfind (tileOf s t).aside p.depth).isNone
      && runsOn s ((tilePart s t).getD 0) t && blockedBelow s (stackNests s (t / 128)) t p.depth
  | none => false
/-! ## The steps -/

/-- One decision of a walker: at most one point is handed out, or one nest completes without running. -/
def decide1 (s : State) (st : Nat) : State × Bool :=
  let l := stackNests s st
  match taintedNode s st with
  | some k => (completeNode s k true, true)
  | none =>
    let cs := candidates s l
    let best := cs.foldl (fun b c => match b with | none => some c | some d => if better d c then some d else some c) none
    match best with
    | none => (s, false)
    | some (k, n, t, h, g) =>
      let s := l.foldl (fun s (j, m) =>
        if j == k then s
        else if cs.any fun c => c.1 == j then setNode s j (passOver m true)
        else if pointsLeft m && (nestTiles m.recd).contains t && tilePart s t == some m.part then setNode s j (passOver m false)
        else s) s
      (if t == 512 then completeNode s k false else handOut s k n t h g, true)

/-- A stalled point of the stack's tiles that is shallower than a blocked nest. -/
def asideWanted (s : State) (st : Nat) : List Nat :=
  (s.harts.filter fun (h, x) => x.stalled && h / 2048 == st && mayAside s h).map (·.1)

/-- DISPATCH_DECISION (R204): the walker of a stack decides; it decides again while there is something it may dispatch. -/
def execDispatchDecision (stack : Nat) (s : State) : Host.Outcome State Fault Refusal :=
  let s := (endedNests s stack).foldl stopNest s
  let (s, did) := decide1 s stack
  let w := asideWanted s stack
  let s := (w.filter fun h => (hartOf s h).prog + 4096 ≤ s.clock).foldl (fun s h => postOnce s (.pointSetAside h)) s
  .next (if did || !w.isEmpty || !(endedNests s stack).isEmpty then postOnce s (.dispatchDecision stack) else s)

/-- The stalled request of a set-aside point takes an entry of the level: its record as last captured enters the pool, and the point is to be restored
(R203). -/
def takeAside (s : State) (st lvl key : Nat) : State :=
  let t := (key % 2 ^ 20 - 2 ^ 16) / 8
  let d := key % 8
  match mfind (tileOf s t).aside d, freeEntry s st lvl with
  | some a, some k =>
    (match a.hart.req with
    | some n =>
      if footFull s n then s
      else
        let x := stackOf s st
        let s := setStack s st { x with stalls := mput x.stalls lvl ((mgetD x.stalls lvl []).filter (· != key)) }
        let a := { a with hart := { a.hart with req := none, taken := true, stalled := false, prog := 0 } }
        postOnce (enterNode (setTile s t { tileOf s t with aside := mput (tileOf s t).aside d a }) k n) (.pointRestore t d)
    | none => s)
  | _, _ => s
/-- POOL_ENTRY_TAKEN (R202): stalled requests of the level take freed entries in arrival order: a hart goes on, a set-aside point's node enters the pool. -/
def execPoolEntryTaken (stack level : Nat) (s : State) : Host.Outcome State Fault Refusal :=
  let q := (mgetD (stackOf s stack).stalls level []).take (128 - levelUsed s stack level)
  .next (q.foldl (fun s k =>
    if k < 2 ^ 16 then setHart s k { hartOf s k with wait := if (hartOf s k).wait == .pool then .none else (hartOf s k).wait }
    else if k < 2 ^ 20 then takeAside s stack level k
    else withTile s ((k % 2 ^ 20 - 2 ^ 16) / 8) (k / 2 ^ 20 - 1) fun s => takeAside s stack level k) s)

/-- LANE_STEP_CHANGE (R211, R443): the power controller sets a tile's step, counts it and logs it. -/
def execLaneStepChange (tile lanes : Nat) (s : State) : Host.Outcome State Fault Refusal :=
  if !([64, 48, 32, 16].contains lanes) || 512 ≤ tile || (tileOf s tile).laneStep == lanes then .next s
  else
    let s := setTile s tile { tileOf s tile with laneStep := lanes }
    let w := ctlWord s 0x0C004000
    let s := setCtl s 0x0C004000 (setBits w 51 20 (bits w 51 20 + 1))
    .next (boxAdd s (tile / 128) 9 ((tilePart s tile).getD 0) tile lanes)

/-- THERMAL_HALT (R443): every partition halts as by HALT, with exit code 0xFFFF_FFFF. -/
def execThermalHalt (s : State) : Host.Outcome State Fault Refusal :=
  .next ((List.range 64).foldl (fun s p => if ptState s p == 1 then haltPartition s p 0xFFFFFFFF else s) s)

end Sys2Proof.Machine
end

