-- ==== Sys2Proof/Machine/Fabric.lean ====
section
/-! DEFINITION. The spatial fabric: the image and its checks (R399, R400), cells and queues (R387 to R391), awls and their accesses (R392 to R397),
ports (R398), the run, its freeze and its cut (R401 to R407), and FCFG, FRUN and FHALT (R358). -/

namespace Sys2Proof.Machine
open Sys2Proof

/-! ## The image (R400) -/

structure FCell where
  pos : Nat
  op : Nat
  cmask : Nat
  loop : Nat
  imm : BitVec 32
  src : List Nat
  param : Nat
  rsv : Nat
deriving DecidableEq, Repr

structure FAwl where
  n : Nat
  store : Bool
  idx : Bool
  esz : Nat
  u : Bool
  dims : Nat
  xsrc : Nat
  dsrc : Nat
  isrc : Nat
  oout : Bool
  oscope : Nat
  bslot : Nat
  oin : Option Nat
  boff : Word
  counts : List Nat
  strides : List Word
  /-- Reserved bits and values, all 0. -/
  rsv : Nat
deriving DecidableEq, Repr

structure FPortE where
  q : Nat
  write : Bool
  pslot : Nat
  dsrc : Nat
  rsv : Nat
deriving DecidableEq, Repr

structure FImg where
  join : Bool
  ncell : Nat
  nawl : Nat
  qmask : Nat
  narg : Nat
  rsv : Nat
  cells : List FCell
  awls : List FAwl
  ports : List FPortE
deriving DecidableEq, Repr

def cellEntry (a b : Word) : FCell :=
  { pos := bits a 12 0, op := bits a 18 13, cmask := bits a 22 19, loop := bits a 26 23, imm := BitVec.ofNat 32 (bits a 63 32)
    src := [bits b 12 0, bits b 25 13, bits b 38 26, bits b 51 39], param := bits b 59 52, rsv := bits a 31 27 + bits b 63 60 }
def awlEntry (w : List Word) : FAwl :=
  let a := w.getD 0 0
  let b := w.getD 1 0
  let half (i d : Nat) : Nat := bits (w.getD (i + d / 2) 0) (32 * (d % 2) + 31) (32 * (d % 2))
  { n := bits a 6 0, store := bits a 9 8 == 1, idx := bitOf a 10, esz := bits a 12 11, u := bitOf a 13, dims := bits a 15 14 + 1
    xsrc := bits a 28 16, dsrc := bits a 41 29, isrc := bits a 54 42, oout := bitOf a 55, oscope := bits a 58 56, bslot := bits a 63 59
    oin := if bitOf b 7 then some (bits b 6 0) else none, boff := w.getD 2 0
    counts := (List.range 4).map (half 3), strides := (List.range 4).map fun d => sext 32 (half 5 d)
    rsv := bits a 7 7 + bits a 9 9 + (if bits a 12 11 == 3 || bits a 58 56 == 7 then 1 else 0) + bits b 63 8 + (w.getD 7 0).toNat }
def portEntry (a : Word) : FPortE :=
  { q := bits a 2 0, write := bitOf a 3, pslot := bits a 8 4, dsrc := bits a 21 9, rsv := bits a 63 22 }

def cellEntries (n : Nat) (w : List Word) : List FCell × List Word :=
  match n, w with
  | k + 1, a :: b :: r => let (l, t) := cellEntries k r; (cellEntry a b :: l, t)
  | _, w => ([], w)
def awlEntries (n : Nat) (w : List Word) : List FAwl × List Word :=
  match n with
  | 0 => ([], w)
  | k + 1 => let (l, t) := awlEntries k (w.drop 8); (awlEntry (w.take 8) :: l, t)

/-- The image as its records say. -/
def imgOf (w : List Word) : FImg :=
  let h := w.getD 0 0
  let (cells, r) := cellEntries (bits h 20 8) (w.drop 8)
  let (awls, r) := awlEntries (bits h 28 21) r
  { join := bitOf h 0, ncell := bits h 20 8, nawl := bits h 28 21, qmask := bits h 39 32, narg := bits h 44 40
    rsv := bits h 7 1 + bits h 31 29 + bits h 63 45 + ((w.drop 1).take 7).foldl (fun n x => n + x.toNat) 0
    cells, awls, ports := r.map portEntry }

/-- Words of an image with this header word. -/
def imgWords (h : Word) : Nat := 8 + 2 * bits h 20 8 + 8 * bits h 28 21 + popN 8 (bits h 39 32)
/-- The header alone already exceeds the grid (R400). -/
def headBad (h : Word) : Bool :=
  if bitOf h 0 then decide (4096 < bits h 20 8) || decide (128 < bits h 28 21) else decide (512 < bits h 20 8) || decide (16 < bits h 28 21)

/-- CHK of an image (R400). -/
def imgChk (w : List Word) : BitVec 32 := ~~~ (low32 (w.foldl crc32c 0xFFFFFFFF))

def opNOP : Nat := 0
def opMUX : Nat := 27
def opACC : Nat := 28
def opXLATE : Nat := 29
def opSINK : Nat := 30
/-- Inputs an operation uses; XLATE uses those that name an awl (R390). -/
def opInputs (op : Nat) : Nat :=
  match op with
  | 0 => 0
  | 1 => 1
  | 16 => 3
  | 20 => 3
  | 24 => 1
  | 27 => 3
  | 28 => 1
  | 29 => 4
  | 30 => 1
  | _ => 2
/-- The PARAM column of R390. -/
def paramOk (op p : Nat) : Bool :=
  match op with
  | 15 => p < 8
  | 23 => p ≤ 5 || p == 8
  | 24 => p ≤ 3
  | 28 => p ≤ 5
  | 29 => p ≤ 1
  | _ => p == 0

def noSrc : Nat := 0x1FFF
def awlSrc (a : Nat) : Nat := 0x1000 + a
def portSrc (q : Nat) : Nat := 0x1080 + q
def FCell.const (c : FCell) (n : Nat) : Bool := c.cmask / 2 ^ n % 2 == 1
def FCell.fed (c : FCell) (n : Nat) : Bool := n < opInputs c.op && !c.const n && c.src.getD n noSrc != noSrc
def FCell.fedInputs (c : FCell) : List Nat := below 4 c.fed
def FImg.awl (i : FImg) (a : Nat) : Option FAwl := i.awls.find? fun x => x.n == a
def FImg.cell (i : FImg) (p : Nat) : Option FCell := i.cells.find? fun x => x.pos == p

/-- A code names a listed source of tokens. -/
def FImg.source (i : FImg) (code : Nat) : Bool :=
  if code < 0x1000 then i.cells.any fun c => c.pos == code && c.op != opNOP && c.op != opSINK && c.op != opXLATE
  else if code < 0x1080 then i.awls.any fun a => awlSrc a.n == code && !a.store
  else i.ports.any fun p => portSrc p.q == code && !p.write

/-- An input of a cell is refused. -/
def inputBad (i : FImg) (c : FCell) (n : Nat) : Bool :=
  let k := c.const n
  let l := c.loop / 2 ^ n % 2 == 1
  let src := c.src.getD n noSrc
  if opInputs c.op ≤ n then src != noSrc || k || l
  else if c.op == opXLATE then
    if src == noSrc then k || l else k || !(i.awls.any fun a => awlSrc a.n == src && a.xsrc == c.pos)
  else if k then l || src != noSrc
  else !i.source src
def cellBad (i : FImg) (c : FCell) : Bool :=
  c.rsv != 0 || 30 < c.op || !paramOk c.op c.param || (!i.join && decide (512 ≤ c.pos)) || (i.join && decide (4096 ≤ c.pos))
    || (List.range 4).any (inputBad i c) || (c.op != opNOP && c.fedInputs.isEmpty)

/-- Following order links from awl a comes back to it. -/
def orderLoop (i : FImg) (a b fuel : Nat) : Bool :=
  match fuel with
  | 0 => false
  | f + 1 =>
    match i.awl b with
    | some x => (match x.oin with | some c => c == a || orderLoop i a c f | none => false)
    | none => false
def awlBad (i : FImg) (a : FAwl) : Bool :=
  a.rsv != 0 || (if i.join then decide (128 ≤ a.n) else decide (16 ≤ a.n)) || decide (i.narg ≤ a.bslot)
    || (if a.store then !i.source a.dsrc else a.dsrc != noSrc) || (if a.idx then !i.source a.isrc else a.isrc != noSrc)
    || (match i.cell a.xsrc with
      | some c => c.op != opXLATE || !c.src.contains (awlSrc a.n) || (a.store && c.param != 1)
      | none => true)
    || (match a.oin with
      | some b => b == a.n || !(match i.awl b with | some x => x.oout | none => false)
      | none => false)
    || ((List.range 4).any fun d => a.dims ≤ d && (a.counts.getD d 0 != 0 || a.strides.getD d 0 != 0))
    || orderLoop i a.n a.n 129
def portBad (i : FImg) (p : FPortE) : Bool :=
  p.rsv != 0 || decide (i.narg ≤ p.pslot) || (if p.write then !i.source p.dsrc else p.dsrc != noSrc)

/-- An image that FCFG refuses (R400). -/
def imgBad (i : FImg) : Bool :=
  let pos := i.cells.map (·.pos)
  let ns := i.awls.map (·.n)
  i.rsv != 0 || i.cells.any (cellBad i) || i.awls.any (awlBad i) || i.ports.any (portBad i)
    || pos.eraseDups.length != pos.length || ns.eraseDups.length != ns.length
    || i.ports.map (·.q) != below 8 (fun q => i.qmask / 2 ^ q % 2 == 1)
    || !(i.cells.any (·.op == opSINK) || i.awls.any (·.store) || i.ports.any (·.write))

/-! ## Places of a joined grid (R399) -/

def tileOfAwl (i : FImg) (lead a : Nat) : Nat := if i.join then lead / 8 * 8 + a / 16 else lead
def tileOfCell (i : FImg) (lead p : Nat) : Nat := if i.join then lead / 8 * 8 + p / 64 / 16 * 2 + p % 64 / 32 else lead
def clusterTiles (t : Nat) : List Nat := (List.range 8).map (t / 8 * 8 + ·)

/-! ## The run and its queues (R387, R388) -/

def fabOf (s : State) (t : Nat) : Option Fabric := (tileOf s t).fab
/-- The tile's fabric, or the joined fabric it is part of, runs. -/
def fabBusy (s : State) (t : Nat) : Bool :=
  match fabOf s t with
  | some f => (match fabOf s f.lead with | some g => g.run.isSome | none => false)
  | none => false
def setRun (s : State) (t : Nat) (u : FabRun) : State :=
  setTile s t { tileOf s t with fab := (fabOf s t).map fun f => { f with run := some u } }
/-- What a step does to the run held by tile t, if there is one. -/
def withRun (s : State) (t : Nat) (k : Fabric → FImg → FabRun → State) : State :=
  match fabOf s t with
  | some f => (match f.run with | some u => k f (imgOf f.image) u | none => s)
  | none => s

def cellQ (pos n : Nat) : Nat := pos * 4 + n
def awlQ (a k : Nat) : Nat := 2 ^ 15 + a * 4 + k
def portQ (q : Nat) : Nat := 2 ^ 16 + q * 4

/-- The queues a source feeds. -/
def feeds (i : FImg) (code : Nat) : List Nat :=
  (i.cells.flatMap fun c => if c.op == opXLATE then [] else (c.fedInputs.filter fun n => c.src.getD n noSrc == code).map (cellQ c.pos))
    ++ (i.awls.flatMap fun a => (if a.store && a.dsrc == code then [awlQ a.n 0] else []) ++ (if a.idx && a.isrc == code then [awlQ a.n 1] else []))
    ++ (i.ports.filter fun p => p.write && p.dsrc == code).map fun p => portQ p.q
/-- The order queues that awl a's order output reaches. -/
def orderFeeds (i : FImg) (a : Nat) : List Nat := (i.awls.filter fun x => x.oin == some a).map fun x => awlQ x.n 2

def queueAt (u : FabRun) (k : Nat) : List Tok := mgetD u.queues k []
def setQueue (u : FabRun) (k : Nat) (l : List Tok) : FabRun := { u with queues := if l.isEmpty then mdel u.queues k else mput u.queues k l }
def headAt (u : FabRun) (k : Nat) : Option Tok := (queueAt u k).head?
def popQ (u : FabRun) (k : Nat) : FabRun := setQueue u k ((queueAt u k).drop 1)
/-- Every queue has room for n tokens more (R388). -/
def room (u : FabRun) (ks : List Nat) (n : Nat) : Bool := ks.all fun k => decide ((queueAt u k).length + n ≤ 4)
def push (u : FabRun) (ks : List Nat) (x : Tok) : FabRun := ks.foldl (fun u k => setQueue u k (queueAt u k ++ [x])) u
/-- A round marker in the slot of each queue (R404). -/
def mark (u : FabRun) (ks : List Nat) : FabRun := { u with marks := u.marks ++ ks.filter fun k => !u.marks.contains k }
def unmark (u : FabRun) (ks : List Nat) : FabRun := { u with marks := u.marks.filter fun k => !ks.contains k }
/-- A marker has reached the head of the queue. -/
def markHead (u : FabRun) (k : Nat) : Bool := (queueAt u k).isEmpty && u.marks.contains k

def dataTok (d : BitVec 32) : Tok := ⟨0, d⟩
def endTok : Tok := ⟨1, 0⟩
/-- An error end (R387). -/
def errTok (cause : Nat) : Tok := ⟨1, BitVec.ofNat 32 (2 ^ 31 + cause)⟩
def Tok.isEnd (x : Tok) : Bool := x.kind == 1
def Tok.isErr (x : Tok) : Bool := x.kind == 1 && x.d.toNat / 2 ^ 31 == 1
/-- The end that replaces consumed ends: an error end, with its cause, if any was (R389). -/
def endOf (l : List Tok) : Tok := (l.find? Tok.isErr).getD endTok

/-- The first error of a run: its mark, UNIT and record body (R403, R422). -/
def noteErr (u : FabRun) (m : Mark) (unit body : Nat) : FabRun := { u with err := u.err.or (some (m, unit, body)) }
/-- A mismatch stops the run at once (R403). -/
def mismatch (u : FabRun) (unit body : Nat) : FabRun := { noteErr u ⟨cOPERAND, 0, 0, 0⟩ unit body with stopped := true }
def cellBody (pos : Nat) : Nat := pos * 2 ^ 128 + 2 ^ 141
/-- A sink consumes an end: an error end makes the run complete with error. -/
def sinkEnd (u : FabRun) (x : Tok) (unit body : Nat) : FabRun :=
  if x.isErr then noteErr u ⟨x.d.toNat % 256, 0, 0, 0⟩ unit body else u

/-! ## Cells (R389 to R391) -/

def fget (x : BitVec 32) : Fp := fp32.get false x.toNat
def fput (v : Fp) : BitVec 32 := BitVec.ofNat 32 (fp32.put 0 false v).1
/-- A shift by b[4:0]. -/
def sh5 (b : BitVec 32) : Nat := b.toNat % 32

/-- The result of an element-wise operation (R390). -/
def opVal (op p : Nat) (a b c : BitVec 32) : BitVec 32 :=
  let bool (x : Bool) : BitVec 32 := if x then 1 else 0
  match op with
  | 2 => a + b
  | 3 => a - b
  | 4 => a * b
  | 5 => a &&& b
  | 6 => a ||| b
  | 7 => a ^^^ b
  | 8 => a <<< sh5 b
  | 9 => a >>> sh5 b
  | 10 => a.sshiftRight (sh5 b)
  | 11 => if a.toInt ≤ b.toInt then a else b
  | 12 => if a.toInt ≤ b.toInt then b else a
  | 13 => if a.toNat ≤ b.toNat then a else b
  | 14 => if a.toNat ≤ b.toNat then b else a
  | 15 => bool (icmpFun p 32 a.toNat b.toNat)
  | 16 => if c != 0 then a else b
  | 17 => fput (fpAdd 0 (fget a) (fget b)).1
  | 18 => fput (fpAdd 0 (fget a) (fget b).neg).1
  | 19 => fput (fpMul (fget a) (fget b)).1
  | 20 => fput (fpFma 0 (fget a) (fget b) (fget c)).1
  | 21 => fput (fpMinMax false (fget a) (fget b)).1
  | 22 => fput (fpMinMax true (fget a) (fget b)).1
  | 23 => bool (fcmpFun p (fget a) (fget b)).1
  | 24 => (match p with
    | 0 => fput (intFp a.toInt)
    | 1 => fput (intFp a.toNat)
    | 2 => BitVec.ofInt 32 (fpToInt 0 (fget a) (-2147483648) 2147483647).1
    | _ => BitVec.ofInt 32 (fpToInt 0 (fget a) 0 4294967295).1)
  | 25 => low32 (hmix64 (a.zeroExtend 64) (b.zeroExtend 64))
  | _ => a

/-- The accumulator's function (R391). -/
def accVal (f : Nat) (acc a : BitVec 32) : BitVec 32 :=
  match f with
  | 0 => opVal 2 0 acc a 0
  | 1 => opVal 17 0 acc a 0
  | 2 => opVal 11 0 acc a 0
  | 3 => opVal 12 0 acc a 0
  | 4 => opVal 13 0 acc a 0
  | _ => opVal 14 0 acc a 0

/-- The head token of input n: a constant reads IMM; none where nothing is there. -/
def inputHead (u : FabRun) (c : FCell) (n : Nat) : Option Tok :=
  if c.const n then some (dataTok c.imm) else headAt u (cellQ c.pos n)
/-- Consumes the heads of the fed inputs among ns. -/
def consume (u : FabRun) (c : FCell) (ns : List Nat) : FabRun := (ns.filter c.fed).foldl (fun u n => popQ u (cellQ c.pos n)) u

/-- MUX (R391). One whose in2 is constant has no end there to act on: it ends once its fed in0 and in1 all hold ends, and while the selected one alone does it
waits (notes/assumptions/22.md). -/
def fireMux (i : FImg) (u : FabRun) (c : FCell) : FabRun :=
  let out := feeds i c.pos
  let h := inputHead u c
  let endsAt (ns : List Nat) : Bool := (ns.filter c.fed).all fun n => match h n with | some x => x.isEnd | none => false
  match h 2 with
  | none => u
  | some x =>
    if x.isEnd || (c.const 2 && endsAt [0, 1]) then
      if endsAt [0, 1] && room u out 1 then
        push (consume u c [0, 1, 2]) out (endOf ((c.fedInputs.map h).filterMap id))
      else u
    else
      let n := if x.d != 0 then 0 else 1
      match h n with
      | none => u
      | some y =>
        if y.isEnd then (if c.const 2 then u else mismatch u 0 (cellBody c.pos))
        else if room u out 1 then push (consume u c [n, 2]) out y else u

/-- A firing of a cell other than MUX and XLATE (R389, R391). -/
def fireCell (i : FImg) (u : FabRun) (c : FCell) : FabRun :=
  let out := feeds i c.pos
  let fed := c.fedInputs
  let hs := (fed.map (inputHead u c)).filterMap id
  if hs.length != fed.length then u
  else if hs.any Tok.isEnd then
    if !hs.all Tok.isEnd then mismatch u 0 (cellBody c.pos)
    else if c.op == opSINK then
      let u := sinkEnd (consume u c fed) (endOf hs) 0 0
      { u with sinks := c.pos :: u.sinks }
    else if c.op == opACC then
      if room u out 2 then
        let u := push (push (consume u c fed) out (dataTok (mgetD u.acc c.pos c.imm))) out (endOf hs)
        { u with acc := mput u.acc c.pos c.imm }
      else u
    else if room u out 1 then push (consume u c fed) out (endOf hs) else u
  else
    let v (n : Nat) : BitVec 32 := match inputHead u c n with | some x => x.d | none => 0
    if c.op == opSINK then consume u c fed
    else if c.op == opACC then { consume u c fed with acc := mput u.acc c.pos (accVal c.param (mgetD u.acc c.pos c.imm) (v 0)) }
    else if c.op == 26 && v 1 == 0 then consume u c fed
    else if room u out 1 then push (consume u c fed) out (dataTok (opVal c.op c.param (v 0) (v 1) (v 2))) else u

/-- A cell fires only while no head is a marker (R404). -/
def cellStep (i : FImg) (u : FabRun) (c : FCell) : FabRun :=
  if u.stopped || u.frozen.contains c.pos || c.fedInputs.any fun n => markHead u (cellQ c.pos n) then u
  else if c.op == opMUX then fireMux i u c else fireCell i u c

/-- The cell freezes once every fed input but those in LOOP holds a marker (R404 step 2). -/
def freezeCell (i : FImg) (u : FabRun) (c : FCell) : FabRun :=
  let ks := (c.fedInputs.filter fun n => c.loop / 2 ^ n % 2 == 0).map (cellQ c.pos)
  if u.frozen.contains c.pos || !ks.all u.marks.contains then u
  else { mark (unmark u ks) (feeds i c.pos) with frozen := c.pos :: u.frozen }

/-! ## Awls (R392 to R396) -/

/-- Elements of an awl's loop. -/
def awlTotal (a : FAwl) : Nat := (a.counts.take a.dims).foldl (· * ·) 1
/-- The loop counters at element n; the outermost used one counts on to its bound (R407). -/
def awlCounters (a : FAwl) (n : Nat) : List Nat :=
  let sub (d : Nat) : Nat := n / (a.counts.take d).foldl (· * ·) 1
  (List.range 4).map fun d => if a.dims ≤ d then 0 else if d + 1 == a.dims then sub d else sub d % a.counts.getD d 0
/-- The body of a record that names an awl (R422). -/
def awlBody (a : FAwl) (n : Nat) : Nat := ((awlCounters a n).zipIdx.map fun (c, d) => c % 2 ^ 32 * 2 ^ (32 * d)).sum
/-- The address of element n, with its index token (R392). -/
def awlAddr (a : FAwl) (base : Word) (n : Nat) (x : BitVec 32) : Word :=
  let v := (awlCounters a n).zipIdx.foldl (fun v (c, d) => v + BitVec.ofNat 64 c * a.strides.getD d 0) base
  if a.idx then v + x.signExtend 64 else v

def setAwl (u : FabRun) (n : Nat) (x : Awl) : FabRun := { u with awls := mput u.awls n x }
/-- The awl has an access issued and not yet performed: in its memory interface unit, or a store in an open burst (R397). -/
def Awl.open (x : Awl) : Bool := x.busy || (match x.burst with | some b => b.store | none => false)
/-- The token queues an awl reads. -/
def awlInputs (a : FAwl) : List Nat :=
  (if a.store then [awlQ a.n 0] else []) ++ (if a.idx then [awlQ a.n 1] else []) ++ (if a.oin.isSome then [awlQ a.n 2] else [])
/-- An awl ends with error at its next element (R402, R403). -/
def awlFail (u : FabRun) (a : FAwl) (x : Awl) (m : Mark) : FabRun :=
  noteErr (setAwl u a.n { x with fault := some m, busy := false }) m a.n (awlBody a x.gen)
/-- The end an awl sends: an error end after a fault. -/
def awlEnd (x : Awl) : Tok :=
  match x.fault with
  | some m => errTok m.cause
  | none => endTok

/-- Ordering tokens, then the end of the order link (R393). -/
def sendOrder (i : FImg) (u : FabRun) (a : FAwl) (x : Awl) : FabRun :=
  let ks := orderFeeds i a.n
  if !a.oout || (u.freeze.isSome && !a.store) || !room u ks 1 then u
  else if x.osent < x.elem then setAwl (push u ks (dataTok 0)) a.n { x with osent := x.osent + 1 }
  else if !x.oend && !x.open && (x.ended || x.fault.isSome) then setAwl (push u ks (awlEnd x)) a.n { x with oend := true }
  else u

/-- A load awl emits its values in element order, then its end (R392, R402). -/
def emit (i : FImg) (u : FabRun) (a : FAwl) (x : Awl) : FabRun :=
  let ks := feeds i (awlSrc a.n)
  if a.store || u.freeze.isSome || x.endSent || !room u ks 1 then u
  else if x.emitted < x.gen then
    match mfind x.buf x.emitted with
    | some v => setAwl (push u ks (dataTok (low32 v))) a.n { x with buf := mdel x.buf x.emitted, emitted := x.emitted + 1 }
    | none => u
  else if x.ended || x.fault.isSome then setAwl (push u ks (awlEnd x)) a.n { x with endSent := true }
  else u

/-- What an awl whose loop has finished, or that has ended with error, does with its inputs: after an error data are discarded; the ends are
consumed together; data after the loop is a mismatch (R392, R402). -/
def takeEnds (u : FabRun) (a : FAwl) (x : Awl) : FabRun :=
  let ks := awlInputs a
  let hs := ks.map (headAt u)
  let isData (h : Option Tok) : Bool := match h with | some t => !t.isEnd | none => false
  if hs.any isData then
    if x.fault.isSome then (ks.filter fun k => isData (headAt u k)).foldl popQ u else mismatch u a.n (awlBody a x.gen)
  else if hs.all Option.isSome && !(a.store && x.endSent) then
    let u := sinkEnd (ks.foldl popQ u) (if a.store then endOf (hs.filterMap id) else endTok) a.n (awlBody a x.gen)
    if a.store then setAwl u a.n { x with endSent := true } else u
  else u

/-- The awl's part of a freeze (R404 steps 1 and 3): a load freezes once its issued loads are performed; a store acts as a cell does. -/
def freezeAwl (i : FImg) (u : FabRun) (a : FAwl) (x : Awl) : FabRun :=
  if x.open || x.frozen then u
  else if !a.store then setAwl u a.n { x with frozen := true }
  else if (awlInputs a).all u.marks.contains then
    setAwl (mark (unmark u (awlInputs a)) (if a.oout then orderFeeds i a.n else [])) a.n { x with frozen := true }
  else u

/-- What the awl's element needs next. -/
inductive AwlNext where
  | none (u : FabRun)
  | xlate (u : FabRun)
  | access (u : FabRun)
deriving DecidableEq, Repr

/-- The awl generates its next element (R392, R393, R396). An end that has come to any of its inputs by then is a mismatch. -/
def nextElement (u : FabRun) (a : FAwl) (x : Awl) : AwlNext :=
  if x.endSent || (u.freeze.isSome && !a.store) || (awlInputs a).any (markHead u) then .none u
  else
    let hs := (awlInputs a).map (headAt u)
    if hs.any fun h => (match h with | some t => t.isEnd | Option.none => false) then .none (mismatch u a.n (awlBody a x.gen))
    else if hs.any (· == Option.none) || (!a.store && 64 ≤ x.gen - x.emitted) then .none u
    else
      let ix : BitVec 32 := match headAt u (awlQ a.n 1) with | some t => t.d | Option.none => 0
      let va := awlAddr a x.base x.gen ix
      if va.toNat % 2 ^ a.esz != 0 then .none (awlFail u a x ⟨cMISALIGN, 0, va, 0⟩)
      else match x.extent with
        | some y => if (va - y.va0).toNat < y.left then .access (setAwl u a.n { x with busy := true }) else .xlate u
        | Option.none => .xlate u

/-- The address of the element in hand. -/
def nowAddr (u : FabRun) (a : FAwl) (x : Awl) : Word :=
  awlAddr a x.base x.gen (match headAt u (awlQ a.n 1) with | some t => t.d | Option.none => 0)

/-! ## When a run is over (R403) and when it is frozen (R404) -/

def sinksDone (i : FImg) (u : FabRun) : Bool :=
  (i.cells.all fun c => c.op != opSINK || u.sinks.contains c.pos)
    && (i.awls.all fun a => !a.store || (match mfind u.awls a.n with | some x => x.endSent | none => true))
    && i.ports.all fun p => !p.write || (match mfind u.ports p.q with | some x => x.endDone | none => true)
def noAccess (u : FabRun) : Bool := u.awls.all fun (_, x) => !x.open
def runOver (i : FImg) (u : FabRun) : Bool := (u.stopped || sinksDone i u) && noAccess u
def cellsOf (i : FImg) : List FCell := i.cells.filter fun c => c.op != opNOP && c.op != opXLATE
def allFrozen (i : FImg) (u : FabRun) : Bool :=
  (cellsOf i).all (fun c => u.frozen.contains c.pos) && noAccess u && u.awls.all (fun (_, x) => x.frozen) && u.ports.all fun (_, x) => x.frozen

/-- The run is put back, and its completion follows once it is over. -/
def putRun (s : State) (t : Nat) (i : FImg) (u : FabRun) : State :=
  let s := setRun s t u
  if runOver i u then postOnce s (.fabricRunComplete t) else s

/-! ## The steps of a run -/

/-- CELL_FIRE (R389). -/
def execCellFire (tile pos : Nat) (s : State) : Host.Outcome State Fault Refusal :=
  .next (withRun s tile fun _ i u =>
    match i.cell pos with
    | none => s
    | some c => if u.stopped || u.frozen.contains pos then s else postOnce (putRun s tile i (cellStep i u c)) (.cellFire tile pos))

/-- AWL_ELEMENT (R392): order tokens, values and ends go out, ends are taken, and the next element is begun. -/
def execAwlElement (tile awl : Nat) (s : State) : Host.Outcome State Fault Refusal :=
  .next (withRun s tile fun _ i u =>
    match i.awl awl, mfind u.awls awl with
    | some a, some x =>
      if u.stopped || x.frozen || x.req.isSome || x.busy then s
      else
        let at' (u : FabRun) : Awl := mgetD u.awls awl x
        let x := if awlTotal a ≤ x.gen then { x with ended := true } else x
        let u := setAwl u awl x
        let u := sendOrder i u a (at' u)
        let u := emit i u a (at' u)
        let u := if u.freeze.isSome then freezeAwl i u a (at' u) else u
        let x := at' u
        if x.frozen then putRun s tile i u
        else if x.ended || x.fault.isSome then postOnce (putRun s tile i (takeEnds u a x)) (.awlElement tile awl)
        else match nextElement u a x with
          | .none u => postOnce (putRun s tile i u) (.awlElement tile awl)
          | .xlate u => postOnce (setRun s tile u) (.xlateTranslate tile awl)
          | .access u => postOnce (setRun s tile u) (.miuAccess tile awl)
    | _, _ => s)

/-- The intent of the XLATE cell an awl names. -/
def awlIntent (i : FImg) (a : FAwl) : AccKind :=
  match i.cell a.xsrc with
  | some c => if c.param == 1 then .write else .read
  | none => .read

/-- The extent token of a translation for address va (R38, R395). -/
def extentOf (y : Xlat) (va : Word) (part : Nat) (intent : AccKind) : Extent :=
  { va0 := va, pk := y.pk va, left := y.vbase + y.size - va.toNat, part, wr := intent == .write, vcid := y.vcid }

/-- XLATE_TRANSLATE (R38, R395): the cell translates through its own tile's gather TLB; an IO page answers a fault of kind PROT. -/
def execXlateTranslate (tile awl : Nat) (s : State) : Host.Outcome State Fault Refusal :=
  .next (withRun s tile fun f i u =>
    match i.awl awl, mfind u.awls awl with
    | some a, some x =>
      let va := nowAddr u a x
      let back (s : State) (x : Awl) : State := postOnce (setRun s tile (setAwl u awl x)) (.awlExtentAnswer tile awl)
      if u.stopped || x.frozen || x.req.isSome then s
      else match xlate s (tileOfCell i tile a.xsrc) f.part va (awlIntent i a) u.sup with
        | .ok s y => back s (if y.io then { x with answer := some 1 } else { x with extent := some (extentOf y va f.part (awlIntent i a)) })
        | .fault s c _ => back s { x with extent := none, answer := some (if c == cPROT then 1 else 0) }
    | _, _ => s)

/-- AWL_EXTENT_ANSWER (R396, R402): an extent lets the element go on; a fault asks the translation service, but for a load once the
freeze has begun, which generates no more (R404); a FAIL ends the awl. -/
def execAwlExtentAnswer (tile awl : Nat) (s : State) : Host.Outcome State Fault Refusal :=
  .next (withRun s tile fun f i u =>
    match i.awl awl, mfind u.awls awl with
    | some a, some x =>
      let go (u : FabRun) : State := postOnce (setRun s tile u) (.awlElement tile awl)
      if u.stopped || x.frozen then s
      else match x.fault, x.answer with
        | some m, _ => go (awlFail u a { x with answer := none } m)
        | none, some k =>
          if u.freeze.isSome && !a.store then go (setAwl u awl { x with answer := none })
          else
            let id := serviceId s f.part
            let s := setRun s tile (setAwl u awl { x with answer := none, req := some id, fkind := k })
            askService s f.part (nowAddr u a x) 3 (awl % 16) (tileOfAwl i tile awl) (if a.store then 1 else 0) k u.gd awl
        | none, none => go u
    | _, _ => s)

/-- The place of the element's access (R396). -/
def awlPiece (a : FAwl) (y : Extent) (va : Word) : Piece := ⟨y.pk + (va - y.va0).toNat, 2 ^ a.esz, y.vcid, va, false⟩
def whoAwl (f : Fabric) (i : FImg) (lead a : Nat) (ev : Event) : Who :=
  { tile := tileOfAwl i lead a, part := f.part, unit := 16 + a % 16, l1 := false, ev := some (ev, 0) }

/-- The position of a Cinch that awl a holds is the number of its leading elements performed (R394). -/
def awlMoved (s : State) (t : Nat) (f : Fabric) (i : FImg) (a : FAwl) (n : Nat) : State :=
  { s with cinches := s.cinches.map fun c =>
      if c.tile == tileOfAwl i t a.n && c.unit == 16 + a.n % 16 && c.part == f.part && c.wr == a.store then { c with pos := min n c.count } else c }
/-- What awl number n of the tile's unit has performed of its run, or of the last one (R394, R408). -/
def awlPosition (s : State) (t u p : Nat) (wr : Bool) : Nat :=
  match (fabOf s t).bind fun f => fabOf s f.lead with
  | none => 0
  | some f =>
    let i := imgOf f.image
    let n := (if i.join then t % 8 * 16 else 0) + u % 16
    match i.awl n with
    | none => 0
    | some a =>
      if f.part != p || a.store != wr then 0
      else match f.run.bind fun r => mfind r.awls n with
        | some x => x.elem
        | none => mgetD f.elems n 0

/-- A load's element is performed: its tokens are consumed. -/
def elementDone (s : State) (t : Nat) (f : Fabric) (i : FImg) (u : FabRun) (a : FAwl) (x : Awl) : State :=
  let u := (awlInputs a).foldl popQ u
  let x := { x with gen := x.gen + 1, elem := x.elem + 1, busy := false, ended := awlTotal a ≤ x.gen + 1 }
  postOnce (putRun (awlMoved s t f i a x.elem) t i (setAwl u a.n x)) (.awlElement t a.n)

/-- The checks of a memory interface unit (R40) — the bytes within the extent, its partition tag, its intent — and of the slot (R66, R72): none, or the
detail of the refusal. -/
def miuRefuses (s : State) (f : Fabric) (a : FAwl) (y : Extent) (va : Word) : Option Nat :=
  if y.left < (va - y.va0).toNat + 2 ^ a.esz || y.part != f.part || (a.store && !y.wr) then some 0
  else slotRefuses s f.part y.vcid va (if a.store then .write else .read)

/-- The elements from the next one on write the granule of address va whole, one after another, and none of them is waited for (R393, R461). -/
def fillsGran (a : FAwl) (x : Awl) (va : Word) : Bool :=
  let k := 128 / 2 ^ a.esz
  let l := (List.range k).map fun j => (awlAddr a x.base (x.gen + j) 0).toNat
  !a.idx && !a.oout && decide (x.gen + k ≤ awlTotal a) && l.all (· / 128 == va.toNat / 128) && l.eraseDups.length == k
/-- The burst that the awl's next access, to place p, joins: none where its burst must close first (R397). -/
def joinBurst (a : FAwl) (x : Awl) (p : Piece) : Option Burst :=
  match x.burst with
  | some b => if b.gk == p.pk / 128 && b.vcid == p.vcid then some b else none
  | none =>
    some { gk := p.pk / 128, vcid := p.vcid, va := p.va - BitVec.ofNat 64 (p.pk % 128), store := a.store, data := 0, mask := 0, n := 0, last := 0
           whole := a.store && fillsGran a x p.va, send := false }
/-- A store's element joins the burst: its tokens are consumed. The burst closes when the granule is whole and when the loop has finished. -/
def burstStore (s : State) (t : Nat) (i : FImg) (u : FabRun) (a : FAwl) (x : Awl) (p : Piece) (b : Burst) : State :=
  let d := match headAt u (awlQ a.n 0) with | some y => y.d.toNat | none => 0
  let (data, mask) := putCopy b.data b.mask (p.pk % 128) (leBytes (2 ^ a.esz) d)
  let ended := decide (awlTotal a ≤ x.gen + 1)
  let b := { b with data, mask, n := b.n + 1, last := s.clock, send := b.send || mask == BitVec.allOnes 128 || ended }
  postOnce (postOnce (putRun s t i (setAwl ((awlInputs a).foldl popQ u) a.n { x with gen := x.gen + 1, busy := false, ended, burst := some b }))
    (.miuBurstClose t a.n)) (.awlElement t a.n)

/-- MIU_ACCESS (R40, R397): the unit checks the element, and it joins a burst: a load's data follow, a store is performed when the burst closes. -/
def execMiuAccess (tile awl : Nat) (s : State) : Host.Outcome State Fault Refusal :=
  .next (withRun s tile fun f i u =>
    match i.awl awl, mfind u.awls awl with
    | some a, some x =>
      if !x.busy then s
      else
        let va := nowAddr u a x
        let redo (u : FabRun) : State := postOnce (putRun s tile i u) (.awlElement tile awl)
        match x.extent with
        | none => redo (setAwl u awl { x with busy := false })
        | some y =>
          match miuRefuses s f a y va with
          | some sb =>
            let s := if sb == 0 then logTile s (tileOfAwl i tile awl) f.part va.toNat else s
            postOnce (putRun s tile i (awlFail u a x ⟨cPROT, sb, va, 0⟩)) (.awlElement tile awl)
          | none =>
            let p := awlPiece a y va
            match joinBurst a x p with
            | none => postOnce (setRun s tile (setAwl u awl { x with burst := x.burst.map fun b => { b with send := true } })) (.miuBurstClose tile awl)
            | some b =>
              if a.store then burstStore s tile i u a x p b
              else postOnce (postOnce (setRun s tile (setAwl u awl { x with burst := some { b with last := s.clock } })) (.miuBurstClose tile awl)) (.awlLoadReturn tile awl)
    | _, _ => s)

/-- The burst closes (R397): it was closed, the run stops or freezes, the awl has failed, or 4 clocks have passed without an access. One that will be a whole granule
is kept for it (R461). -/
def burstDue (s : State) (u : FabRun) (x : Awl) (b : Burst) : Bool :=
  b.send || u.freeze.isSome || u.stopped || x.fault.isSome || (!b.whole && decide (b.last + 4 ≤ s.clock))
/-- The runs of bytes that a burst of stores writes. -/
def burstRuns (b : Burst) : List (Word × List Byte) :=
  joinBytes (((List.range 128).filter (maskBit b.mask)).map fun o => (b.va + BitVec.ofNat 64 o, granByte b.data o))
def burstPieces (b : Burst) : List Piece :=
  (burstRuns b).map fun (va, bs) => ⟨b.gk * 128 + (va - b.va).toNat, bs.length, b.vcid, va, false⟩
/-- Its stores are performed in one step. -/
def burstWrite (s : State) (w : Who) (b : Burst) : Acc :=
  let xs := burstPieces b
  let bs := (burstRuns b).flatMap (·.2)
  match accReady s w xs .write with
  | .ok s _ =>
    match accWrites (useCircuits s w xs) w xs bs true with
    | .ok s _ => .ok (replicateAll s w xs bs) []
    | r => r
  | r => r

/-- MIU_BURST_CLOSE (R397): once its burst closes, an awl's stores are performed, and its next access goes on. An error ends the awl at the burst's first
element. -/
def execMiuBurstClose (tile awl : Nat) (s : State) : Host.Outcome State Fault Refusal :=
  .next (withRun s tile fun f i u =>
    match i.awl awl, mfind u.awls awl with
    | some a, some x =>
      match x.burst with
      | none => s
      | some b =>
        let go (s : State) (u : FabRun) : State := postOnce (putRun s tile i u) (if x.busy then .miuAccess tile awl else .awlElement tile awl)
        if !burstDue s u x b then postOnce s (.miuBurstClose tile awl)
        else if !b.store then
          (if b.send then go s (setAwl u awl { x with burst := none }) else setRun s tile (setAwl u awl { x with burst := none }))
        else match burstWrite s (whoAwl f i tile awl (.miuBurstClose tile awl)) b with
          | .ok s _ => go (awlMoved s tile f i a (x.elem + b.n)) (setAwl u awl { x with elem := x.elem + b.n, burst := none })
          | .wait s => retry s (.miuBurstClose tile awl, 0)
          | .err s c sb =>
            postOnce (putRun s tile i (awlFail u a { x with gen := x.gen - b.n, ended := false, burst := none }
              ⟨c, sb, b.va + BitVec.ofNat 64 (match burstPieces b with | p :: _ => p.pk % 128 | [] => 0), 0⟩)) (.awlElement tile awl)
    | _, _ => s)

/-- AWL_LOAD_RETURN (R392): the load is performed and its value, extended, joins the awl's values. -/
def execAwlLoadReturn (tile awl : Nat) (s : State) : Host.Outcome State Fault Refusal :=
  .next (withRun s tile fun f i u =>
    match i.awl awl, mfind u.awls awl with
    | some a, some x =>
      let va := nowAddr u a x
      match x.busy, x.extent with
      | true, some y =>
        match accRead s (whoAwl f i tile awl (.awlLoadReturn tile awl)) (awlPiece a y va) with
        | .ok s bs =>
          let v := if a.u then BitVec.ofNat 64 (leNat bs) else sext (8 * 2 ^ a.esz) (leNat bs)
          elementDone s tile f i u a { x with buf := mput x.buf x.gen v }
        | .wait s => retry s (.awlLoadReturn tile awl, 0)
        | .err s c sb => postOnce (putRun s tile i (awlFail u a x ⟨c, sb, va, 0⟩)) (.awlElement tile awl)
      | true, none => postOnce (setRun s tile (setAwl u awl { x with busy := false })) (.awlElement tile awl)
      | _, _ => s
    | _, _ => s)

/-! ## Ports (R398) -/

def setPort (u : FabRun) (q : Nat) (x : FPort) : FabRun := { u with ports := mput u.ports q x }
/-- An engine's answer for a port: e' is the engine after the access. -/
def portStep (t q : Nat) (i : FImg) (u : FabRun) (e e' : SEng) (r : EngR) (k : List Byte → FabRun) : State :=
  match r with
  | .ok s bs => postOnce (putRun (setEng s t q e') t i (k bs)) (.portElement t q)
  | .wait s => retry s (.portElement t q, 0)
  | .serve s va acc fk =>
    let id := serviceId s e.part
    setEng (askService s e.part va 1 q t acc fk e.gd 0) t q { e with stall := some id }
  | .err s m => postOnce (setRun (setEng s t q { e with err := some m, data := [], mask := [] }) t (noteErr u m 0 0)) (.portElement t q)

/-- A read port emits its next position, or its end (R398). -/
def readPort (s : State) (t q : Nat) (i : FImg) (u : FabRun) (x : FPort) (e : SEng) : State :=
  let ks := feeds i (portSrc q)
  let more (u : FabRun) : State := postOnce (putRun s t i u) (.portElement t q)
  if u.freeze.isSome then putRun s t i (setPort u q { x with frozen := true })
  else if x.endDone || !room u ks 1 then more u
  else match e.err with
    | some m => more (setPort (push u ks (errTok m.cause)) q { x with endDone := true })
    | none =>
      if patTotal e.recd ≤ x.pos then more (setPort (push u ks endTok) q { x with endDone := true })
      else portStep t q i u e e (engRead s (whoEng e t q (.portElement t q)) e.sup (patAddr e.recd x.pos) (patBytes e.recd)) fun bs =>
        setPort (push u ks (dataTok (low32 (popValue e bs)))) q { x with pos := x.pos + 1 }

/-- A write port takes tokens, and writes them or consumes its end (R398). Its engine holds tokens only for a granule that they will write whole (R461): it
takes the first of them when the granule's page is translated. -/
def writePort (s : State) (t q : Nat) (i : FImg) (u : FabRun) (x : FPort) (e : SEng) : State :=
  let k := portQ q
  let w := whoEng e t q (.portElement t q)
  let more (u : FabRun) : State := postOnce (putRun s t i u) (.portElement t q)
  let frozen := u.freeze.isSome && u.marks.contains k
  let next := match headAt u k with | some y => if y.isEnd then none else some y.d | none => none
  let left := patTotal e.recd - (x.pos + e.data.length)
  let taken (d : BitVec 32) : SEng := { e with data := e.data ++ [d.zeroExtend 64], mask := e.mask ++ [true] }
  let write (va : Word) (bs : List Byte) (e' : SEng) (u : FabRun) : State :=
    portStep t q i u e e' (engWrite s w e.sup va bs) fun _ => setPort u q { x with pos := x.pos + 1 }
  if e.err.isNone && !e.data.isEmpty then
    match (if left == 0 || 4096 ≤ e.data.length * patBytes e.recd then none else next) with
    | some d => postOnce (putRun (setEng s t q (taken d)) t i (popQ u k)) (.portElement t q)
    | none =>
      if !e.mask.headD true then postOnce (putRun (setEng s t q (dropPush e [0])) t i (setPort u q { x with pos := x.pos + 1 })) (.portElement t q)
      else match nextPush e.recd x.pos e.data e.mask (left != 0 && (headAt u k).isNone && !frozen) with
        | none => more u
        | some l => let (va, bs) := pushBytes e.recd x.pos e.data l; write va bs (dropPush e l) u
  else match headAt u k with
    | none => if frozen then putRun s t i (setPort (unmark u [k]) q { x with frozen := true }) else more u
    | some y =>
      if y.isEnd then
        if x.endDone || (e.err.isNone && x.pos < patTotal e.recd) then more (mismatch u 0 0)
        else more (setPort (sinkEnd (popQ u k) y 0 0) q { x with endDone := true })
      else if e.err.isSome then more (popQ u k)
      else if left == 0 then more (mismatch u 0 0)
      else
        let va := patAddr e.recd x.pos
        let n := patBytes e.recd
        if (wholePos e.recd x.pos).isSome && !frozen then
          portStep t q i u e (taken y.d) (engXlate s w e.sup va n .write fun s _ => .ok s []) fun _ => popQ u k
        else write va (leBytes n y.d.toNat) e (popQ u k)

/-- PORT_ELEMENT (R398): a read port emits its next position, or its end; a write port writes tokens, or consumes its end. -/
def execPortElement (tile q : Nat) (s : State) : Host.Outcome State Fault Refusal :=
  .next (withRun s tile fun _ i u =>
    match (i.ports.find? (·.q == q)), mfind u.ports q, mfind (tileOf s tile).se q with
    | some p, some x, some e =>
      let u := match e.err with | some m => noteErr u m 0 0 | none => u
      if u.stopped || x.frozen || e.stall.isSome then s
      else if p.write then writePort s tile q i u x e else readPort s tile q i u x e
    | _, _, _ => s)

/-! ## Completion (R347, R358, R403) -/

/-- The completion actions of a fabric command: its raise and its stamp. -/
def fabActions (s : State) (part tile hart : Nat) (sup : Bool) (gd : Word) (c : Comp) (err : Option Mark) : State :=
  let s := if c.add != 0 then sendRaise s tile c.ctile.toNat c.ctr.toNat (BitVec.ofNat 64 c.add.toNat) else s
  addStamp s part tile hart sup 0 0 gd (c.sval.zeroExtend 64) err
/-- FHALT completes, with an error where the freeze was abandoned. -/
def endFreeze (s : State) (t part : Nat) (z : Freeze) (err : Option Mark) : State :=
  if z.swap then s
  else
    let s := match err with
      | some m => faultRecord s part { cause := m.cause, src := 3, unit := 0, tile := t, va := m.addr, tag := z.gd, body := 0 }
      | none => s
    fabActions s part t z.hart z.sup z.gd z.comp err
/-- The fabric is idle, its configuration loaded: what its awls performed stands, the requests of the run are gone, and where the hart has retired since, the engines of
the ports are bound no more (R394, R398, R403). -/
def idleFabric (s : State) (t : Nat) (f : Fabric) (u : FabRun) (asked : Bool) : State :=
  let s := setTile s t { tileOf s t with fab := some { f with run := none, halts := [], elems := u.awls.map fun (n, x) => (n, x.elem) } }
  let s := if asked then s else setPart s f.part { partOf s f.part with
    tsReqs := (partOf s f.part).tsReqs.filter fun r => !(r.src == 3 && u.awls.any fun (n, x) => x.req == some r.id && r.cmd == n) }
  let s := setPart s f.part { partOf s f.part with tsReqs := (partOf s f.part).tsReqs.filter fun r => !(r.src == 3 && r.cmd == 2 ^ 20 && r.tile == t) }
  if (tileOf s t).fb.isNone then setTile s t (releasePorts (tileOf s t)) else s
/-- The run ends; its tokens are discarded and the configuration stays loaded. -/
def endRun (s : State) (t : Nat) (f : Fabric) (u : FabRun) : State :=
  let s := idleFabric s t f u false
  let s := match u.err with
    | some (m, unit, body) => faultRecord s f.part { cause := m.cause, src := 3, unit, tile := t, va := m.addr, tag := u.gd, body }
    | none => s
  fabActions s f.part t u.hart u.sup u.gd u.comp (u.err.map (·.1))
/-- FHALTs that waited find the fabric idle, and save nothing (R345, R358). -/
def endHalts (s : State) (t part : Nat) (l : List Freeze) : State := l.foldl (fun s z => endFreeze s t part z none) s

/-- FABRIC_RUN_COMPLETE (R403): every sink has consumed its end, or a mismatch stopped the run, and every access issued is performed. A freeze
that it meets finds the fabric idle (R408). -/
def execFabricRunComplete (tile : Nat) (s : State) : Host.Outcome State Fault Refusal :=
  .next (withRun s tile fun f i u =>
    let mine (r : Rep) : Bool := r.part == f.part && r.tile / 8 == tile / 8 && r.unit != 8 && decide (r.unit < 100)
    if !runOver i u then s
    else if repBusy s mine then postOnce s (.fabricRunComplete tile)
    else
      let u := if repErr s mine then noteErr u ⟨cPROT, 4, 0, 0⟩ 0 0 else u
      let s := endRun (repClear s mine) tile f u
      endHalts s tile f.part (u.freeze.toList ++ f.halts))

/-! ## The freeze and the cut (R404 to R407) -/

/-- CELL_FREEZE (R404 step 2). -/
def execCellFreeze (tile pos : Nat) (s : State) : Host.Outcome State Fault Refusal :=
  .next (withRun s tile fun _ i u =>
    match i.cell pos, u.freeze with
    | some c, some _ =>
      let u := freezeCell i u c
      if u.frozen.contains pos then setRun s tile u else postOnce s (.cellFreeze tile pos)
    | _, _ => s)

/-- The freeze begins (R404 step 1): load awls and read ports stop and put markers in every queue they feed; an awl stalled on a request
freezes at its element (R405). -/
def beginFreeze (s : State) (t : Nat) (i : FImg) (u : FabRun) (z : Freeze) : State :=
  let loads := (i.awls.filter fun a => !a.store).flatMap fun a => feeds i (awlSrc a.n) ++ orderFeeds i a.n
  let reads := (i.ports.filter fun p => !p.write).flatMap fun p => feeds i (portSrc p.q)
  let stalled := (i.awls.filter fun a => a.store && (match mfind u.awls a.n with | some x => x.req.isSome | none => false)).flatMap fun a => orderFeeds i a.n
  let u := mark { u with freeze := some z } (loads ++ reads ++ stalled)
  let u := { u with
    awls := u.awls.map fun (n, x) => (n, if x.req.isSome then { x with frozen := true } else x)
    ports := u.ports.map fun (q, x) => (q, if i.ports.any fun p => p.q == q && (!p.write || (match mfind (tileOf s t).se q with | some e => e.stall.isSome && e.data.isEmpty | none => false)) then { x with frozen := true } else x) }
  let s := (cellsOf i).foldl (fun s c => postOnce s (.cellFreeze t c.pos)) (setRun s t u)
  postOnce s (.freezeAbandon t)

def tokWord (x : Tok) : Word := BitVec.ofNat 64 (x.d.toNat + (if x.isEnd then 2 ^ 32 else 0))
def padWords (n : Nat) (l : List Word) : List Word := (List.range n).map fun i => l.getD i 0
def sumBits (l : List (Nat × Nat)) : Word := BitVec.ofNat 64 ((l.map fun (v, p) => v * 2 ^ p).sum)

def cutCell (u : FabRun) (c : FCell) : List Word :=
  let qs := (List.range 4).map fun n => if c.fed n && c.op != opXLATE then queueAt u (cellQ c.pos n) else []
  sumBits ([((if c.op == opACC then mgetD u.acc c.pos c.imm else 0).toNat, 0)] ++ (qs.zipIdx.map fun (q, n) => (q.length, 32 + 3 * n))
      ++ [((c.op == opSINK && u.sinks.contains c.pos).toNat, 44)])
    :: qs.flatMap fun q => padWords 4 (q.map tokWord)
def cutAwl (u : FabRun) (a : FAwl) (x : Awl) : List Word :=
  let cs := awlCounters a x.gen
  let at' (d : Nat) : Nat := cs.getD d 0 % 2 ^ 32
  let dq := queueAt u (awlQ a.n 0)
  let iq := if a.store then queueAt u (awlQ a.n 1) else []
  let nbuf := if a.store then dq.length else x.gen - x.emitted
  let nord := (queueAt u (awlQ a.n 2)).filter fun t => !t.isEnd
  let buf := if a.store then padWords 4 (dq.map tokWord) ++ padWords 4 (iq.map tokWord)
    else (List.range (x.gen - x.emitted)).map fun j => (low32 (mgetD x.buf (x.emitted + j) 0)).zeroExtend 64
  [x.base, sumBits [(at' 0, 0), (at' 1, 32)], sumBits [(at' 2, 0), (at' 3, 32)],
   sumBits [(x.elem % 2 ^ 32, 0), (x.ended.toNat, 32), (x.endSent.toNat, 33), (x.req.isSome.toNat, 34), (x.req.getD 0, 35), (nord.length, 51), (nbuf, 54),
     (if x.req.isSome then x.fkind else 0, 61)],
   sumBits [(x.osent % 2 ^ 32, 0), (iq.length, 32)], 0, 0, 0] ++ padWords 64 buf
def cutPort (u : FabRun) (p : FPortE) (x : FPort) : List Word :=
  let q := if p.write then queueAt u (portQ p.q) else []
  [BitVec.ofNat 64 x.pos, sumBits [(x.endDone.toNat, 0), (q.length, 1)]] ++ padWords 4 (q.map tokWord) ++ [0, 0]

/-- The cut of a frozen run (R407). -/
def cutWords (f : Fabric) (i : FImg) (u : FabRun) : List Word :=
  padWords 8 [sumBits [(f.chk.toNat, 0), (i.join.toNat, 32)]] ++ i.cells.flatMap (cutCell u)
    ++ (i.awls.flatMap fun a => match mfind u.awls a.n with | some x => cutAwl u a x | none => List.replicate 72 0)
    ++ i.ports.flatMap fun p => match mfind u.ports p.q with | some x => cutPort u p x | none => List.replicate 8 0

/-- The cut of a run is saved at z.ga: the X1 keeps with it which pattern record each port's engine ran (notes/assumptions/22.md). -/
def keepCut (s : State) (t : Nat) (f : Fabric) (i : FImg) (u : FabRun) (z : Freeze) : State :=
  let x := partOf s f.part
  let pats := i.ports.map fun p => (p.q, match mfind (tileOf s t).se p.q with | some e => e.recd | none => [])
  if i.ports.isEmpty then s
  else setPart s f.part { x with cuts := ⟨z.ga, cutWords f i u, pats⟩ :: x.cuts.filter fun c => c.ga != z.ga }

/-- The unit that writes a cut, and the copies a router makes of its writes (R377). -/
def whoCut (tile p : Nat) : Who := { tile, part := p, unit := 103, l1 := false, ev := some (.cutWrite tile, 0) }
def ofCut (tile : Nat) (r : Rep) : Bool := r.tile == tile && r.unit == 103

/-- CUT_WRITE (R404 step 4): once everything is frozen the cut is written, 128 bytes at a time, and the FHALT completes; the run ends with no
completion action (R358). A translation fault of the write asks for service as an awl does, with UNIT 0 and the FHALT's stamp address as TAG
(notes/assumptions/22.md). -/
def execCutWrite (tile : Nat) (s : State) : Host.Outcome State Fault Refusal :=
  .next (withRun s tile fun f i u =>
    match u.freeze with
    | none => s
    | some z =>
      if z.swap then s
      else if runOver i u then postOnce s (.fabricRunComplete tile)
      else if !allFrozen i u then postOnce s (.cutWrite tile)
      else
        let ws := (cutWords f i u).drop z.pos
        if ws.isEmpty then
          if repBusy s (ofCut tile) then postOnce s (.cutWrite tile)
          else
            let e : Option Mark := if repErr s (ofCut tile) then some ⟨cPROT, 4, z.ga, 0⟩ else none
            let s := idleFabric (keepCut (repClear s (ofCut tile)) tile f i u z) tile f u true
            endHalts (endFreeze s tile f.part z e) tile f.part f.halts
        else
          match engWrite s (whoCut tile f.part) z.sup (z.ga + BitVec.ofNat 64 (8 * z.pos)) ((ws.take 16).flatMap fun x => leBytes 8 x.toNat) with
          | .ok s _ => postOnce (setRun s tile { u with freeze := some { z with pos := z.pos + 16 } }) (.cutWrite tile)
          | .wait s => retry s (.cutWrite tile, 0)
          | .serve s va acc fk => askService s f.part va 3 0 tile acc fk z.gd (2 ^ 20)
          | .err s m => postOnce (setRun s tile { noteErr u m 0 0 with stopped := true }) (.freezeAbandon tile))

/-- FREEZE_ABANDON (R406): a freeze not complete within 65,536 clocks, or whose cut cannot be written, ends; the run and the FHALT complete with
error. -/
def execFreezeAbandon (tile : Nat) (s : State) : Host.Outcome State Fault Refusal :=
  .next (withRun s tile fun f i u =>
    match u.freeze with
    | none => s
    | some z =>
      let give (m : Mark) : State := endHalts (endFreeze (endRun s tile f (noteErr u m 0 0)) tile f.part z (some m)) tile f.part f.halts
      if allFrozen i u then
        if !z.swap && u.stopped then give (match u.err with | some (m, _, _) => m | none => ⟨cOPERAND, 0, 0, 0⟩) else s
      else if s.clock < z.since + 65536 then postOnce s (.freezeAbandon tile)
      else give ⟨cOPERAND, 0, 0, 0⟩)

/-! ## Starting and resuming a run (R401, R407) -/

/-- The steps of every node of the run are on their way. -/
def startNodes (s : State) (t : Nat) (i : FImg) : State :=
  let s := (cellsOf i).foldl (fun s c => postOnce s (.cellFire t c.pos)) s
  let s := i.awls.foldl (fun s a => postOnce s (.awlElement t a.n)) s
  i.ports.foldl (fun s p => postOnce s (.portElement t p.q)) s

def newAwl (base : Word) : Awl :=
  { base, gen := 0, elem := 0, ended := false, endSent := false, extent := none, answer := none, req := none, fkind := 0, busy := false, fault := none
    buf := [], emitted := 0, osent := 0, oend := false, burst := none, frozen := false }
def newRun (s : State) (gd : Word) (c : Comp) : FabRun :=
  { gd, comp := c, sup := (curH s).sup, hart := s.cur, queues := [], marks := [], acc := [], awls := [], ports := [], sinks := [], frozen := []
    freeze := none, err := none, stopped := false }

/-- A Base or a used stride is not a multiple of the element bytes. -/
def baseBad (args : List Word) (a : FAwl) : Bool :=
  (args.getD a.bslot 0 + a.boff).toNat % 2 ^ a.esz != 0 || (a.strides.take a.dims).any fun w => w.toNat % 2 ^ a.esz != 0

/-- Pattern records of the ports, read and checked in ascending q (R350, R398). For the address of one that is not 64-byte aligned the spec names no cause: it is
MISALIGN, as for STRM (notes/assumptions/22.md). -/
def readPats (s : State) (args : List Word) (ps : List FPortE) (got : List (Nat × List Word)) (k : State → List (Nat × List Word) → Res) : Res :=
  match ps with
  | [] => k s got
  | p :: r =>
    let a := args.getD p.pslot 0
    if a.toNat % 64 != 0 then trapR s cMISALIGN a
    else match readRec s (byRuns a 64 2) with
      | .stop s x => .stop s x
      | .ok s bs =>
        let w := wordsOf 8 bs
        if patBad w || 4 < patBytes w then refuseRecord s a else readPats s args r (got ++ [(p.q, w)]) k

/-- The engines of the ports take their pattern records. -/
def setPats (s : State) (t : Nat) (i : FImg) (gd : Word) (pats : List (Nat × List Word)) : State :=
  pats.foldl (fun s (q, w) =>
    let wr := i.ports.any fun p => p.q == q && p.write
    setEng s t q
      { bound := true, fabric := true, hart := s.cur, part := curPart s, sup := (curH s).sup, vfile := false, reg := 0, write := wr, recd := w
        comp := ⟨0, 0, false, false, 0, 0⟩, gd, pos := 0, used := 0, data := [], mask := [], stall := none, err := none, complete := false }) s

/-- The fabric of the executing hart's tile, loaded, idle and its own. -/
def ownFabric (s : State) : Option Fabric :=
  match fabOf s (curTile s) with
  | some f => if f.lead == curTile s && f.part == curPart s && f.run.isNone then some f else none
  | none => none

/-- The checks FCFG, FRUN and FHALT share, in order: the feature, the grant, the operands, the completion fields and the fabric's state (refused), alignment
of the stamp and of ga (R247, R358). -/
def fabIssue (ga gd : BitVec 5) (c : Comp) (align : Nat) (refused : State → Bool) (k : State → Word → Word → Res) (s : State) : Host.Outcome State Fault Refusal :=
  let srcs := [(ga, false), (gd, false)]
  finish4 s (
    if !featOn s 4 then trapR s cILLOP 0
    else if (tileOf s (curTile s)).fb != some s.cur then operandR s
    else withRegs s srcs none fun _ =>
      let a := gVal s ga
      let g := gVal s gd
      if compBad s (curPart s) g c then operandR (logComp s c)
      else if refused s then operandR s
      else if g.toNat % 8 != 0 then trapR s cMISALIGN g
      else if a.toNat % align != 0 then trapR s cMISALIGN a
      else match k s a g with
        | .ok s => .ok (popSrcs s srcs)
        | r => r)

/-- What keeps FCFG from taking the cluster for a joined image (R399). -/
def joinBad (s : State) : Bool :=
  (clusterTiles (curTile s)).any fun t =>
    !inTileSet s (curPart s) t || tilePart s t != some (curPart s) || fabBusy s t || (t != curTile s && (tileOf s t).fb.isSome)
/-- An engine the image claims is bound to a register. -/
def claimBad (s : State) (i : FImg) : Bool :=
  i.ports.any fun p => match mfind (tileOf s (curTile s)).se p.q with | some e => e.bound && !e.fabric | none => false

/-- A configuration that named tile t, or the cluster it is joined in, is replaced: its engines and the grants of the other tiles are released. -/
def dropConfig (s : State) (t : Nat) : State :=
  match fabOf s t with
  | none => s
  | some f =>
    postOnce { s with tiles := s.tiles.map fun (j, x) =>
        match x.fab with
        | some g =>
          if g.lead == f.lead then
            (j, releasePorts { x with fab := none, fb := if j != t && x.fb == some s.cur then none else x.fb })
          else (j, x)
        | none => (j, x) } (.dispatchDecision (t / 128))

/-- The image is loaded (R398 to R400). -/
def loadImage (s : State) (w : List Word) (i : FImg) : State :=
  let t := curTile s
  let s := dropConfig s t
  let own : Fabric := { image := w, chk := imgChk w, part := curPart s, lead := t, run := none, halts := [], elems := [] }
  let s := if i.join then (clusterTiles t).foldl (fun s j =>
      setTile (dropConfig s j) j { tileOf (dropConfig s j) j with fb := some s.cur, fab := some { own with image := [] } }) s
    else s
  let s := setTile s t { tileOf s t with fab := some own }
  setPats s t i 0 (i.ports.map fun p => (p.q, []))

/-- FCFG (R358, R400). -/
def execFcfg (ga gd : BitVec 5) (c : Comp) (s : State) : Host.Outcome State Fault Refusal :=
  fabIssue ga gd c 128 (fun s => fabBusy s (curTile s)) (fun s a g =>
    afterDrain s fun s => record s a 8 fun s h =>
      if headBad (h.getD 0 0) then refuseRecord s a
      else record s a (imgWords (h.getD 0 0)) fun s w =>
        let i := imgOf w
        if imgBad i then refuseRecord s a
        else if (i.join && joinBad s) || claimBad s i then operandR s
        else .ok (fabActions (loadImage s w i) (curPart s) (curTile s) s.cur (curH s).sup g c none)) s

/-- FRUN with RES = 0 (R358, R401). -/
def execFrun (ga gd : BitVec 5) (c : Comp) (s : State) : Host.Outcome State Fault Refusal :=
  fabIssue ga gd c 8 (fun s => (ownFabric s).isNone) (fun s a g =>
    match ownFabric s with
    | none => operandR s
    | some f =>
      let i := imgOf f.image
      afterDrain s fun s => record s a i.narg fun s args =>
        if i.awls.any (baseBad args) then operandR s
        else readPats s args i.ports [] fun s pats =>
          let t := curTile s
          let u := { newRun s g c with
            acc := (i.cells.filter fun x => x.op == opACC).foldl (fun m x => mput m x.pos x.imm) []
            awls := i.awls.foldl (fun m x => mput m x.n (newAwl (args.getD x.bslot 0 + x.boff))) []
            ports := i.ports.foldl (fun m p => mput m p.q { pos := 0, endDone := false, frozen := false }) [] }
          let s := i.awls.foldl (fun s x => awlMoved (forgetWrote s (tileOfAwl i t x.n) (16 + x.n % 16)) t f i x 0) s
          let s := i.ports.foldl (fun s p => forgetWrote s t p.q) s
          .ok (startNodes (setRun (setPats s t i g pats) t u) t i)) s

/-! ### The cut read back -/

def tokOf (w : Word) : Tok := ⟨if bitOf w 32 then 1 else 0, BitVec.ofNat 32 (bits w 31 0)⟩
def tokBad (w : Word) : Bool := bits w 63 33 != 0

def cellCutBad (w : List Word) : Bool :=
  let h := w.getD 0 0
  bits h 63 45 != 0 || ((List.range 4).any fun n => 4 < bits h (34 + 3 * n) (32 + 3 * n)) || (w.drop 1).any tokBad
def awlCutBad (a : FAwl) (w : List Word) : Bool :=
  let w3 := w.getD 3 0
  let w4 := w.getD 4 0
  bits w3 63 62 != 0 || bits w4 63 35 != 0 || ((w.drop 5).take 3).any (· != 0) || 4 < bits w3 53 51 || 64 < bits w3 60 54 || 4 < bits w4 34 32
    || (if a.store then 4 < bits w3 60 54 || ((w.drop 8).take 8).any tokBad || (w.drop 16).any (· != 0)
        else bits w4 34 32 != 0 || (w.drop 8).any fun x => bits x 63 32 != 0)
def portCutBad (w : List Word) : Bool :=
  bits (w.getD 1 0) 63 4 != 0 || 4 < bits (w.getD 1 0) 3 1 || ((w.drop 2).take 4).any tokBad || (w.drop 6).any (· != 0)

/-- The record of n words at offset o. -/
def recAt (w : List Word) (o n : Nat) : List Word := (w.drop o).take n
def cutAwlAt (i : FImg) : Nat := 8 + 17 * i.ncell
def cutPortAt (i : FImg) : Nat := cutAwlAt i + 72 * i.nawl
def cutSize (i : FImg) : Nat := cutPortAt i + 8 * i.ports.length

/-- A cut that FRUN refuses (R407). -/
def cutBad (f : Fabric) (i : FImg) (w : List Word) : Bool :=
  let h := w.getD 0 0
  bits h 31 0 != f.chk.toNat || bitOf h 32 != i.join || bits h 63 33 != 0 || ((w.take 8).drop 1).any (· != 0)
    || ((List.range i.ncell).any fun j => cellCutBad (recAt w (8 + 17 * j) 17))
    || (i.awls.zipIdx.any fun (a, j) => awlCutBad a (recAt w (cutAwlAt i + 72 * j) 72))
    || (List.range i.ports.length).any fun j => portCutBad (recAt w (cutPortAt i + 8 * j) 8)

/-- A cell's record restored. -/
def restoreCell (u : FabRun) (c : FCell) (w : List Word) : FabRun :=
  let h := w.getD 0 0
  let u := if c.op == opACC then { u with acc := mput u.acc c.pos (BitVec.ofNat 32 (bits h 31 0)) } else u
  let u := if c.op == opSINK && bitOf h 44 then { u with sinks := c.pos :: u.sinks } else u
  (List.range 4).foldl (fun u n =>
    if c.fed n && c.op != opXLATE then setQueue u (cellQ c.pos n) ((recAt w (1 + 4 * n) (bits h (34 + 3 * n) (32 + 3 * n))).map tokOf) else u) u

/-- The answer to the request of a stalled awl: held, still to come, or lost (R405). -/
inductive Ans where
  | held (fail : Bool)
  | due
  | lost
deriving DecidableEq, Repr
def answerOf (s : State) (p id : Nat) : Ans :=
  match mfind (partOf s p).held id with
  | some k => .held (k == 1)
  | none => if (partOf s p).tsReqs.any fun r => r.id == id && r.src == 3 then .due else .lost
/-- The request is now that of awl a of the fabric led by tile t; an answer held against it is used up. -/
def claimAnswer (s : State) (p id t a : Nat) : State :=
  let x := partOf s p
  setPart s p { x with
    held := mdel x.held id
    tsReqs := x.tsReqs.map fun r => if r.id == id && r.src == 3 then { r with tile := t, cmd := a } else r }

/-- An awl's record restored. The cut has no field for an error that the awl had met, nor for tokens at the index input of a load: they are gone
(notes/assumptions/22.md). -/
def restoreAwl (s : State) (p : Nat) (u : FabRun) (a : FAwl) (w : List Word) : FabRun :=
  let w3 := w.getD 3 0
  let w4 := w.getD 4 0
  let c (d : Nat) : Nat := bits (w.getD (1 + d / 2) 0) (32 * (d % 2) + 31) (32 * (d % 2))
  let gen := ((List.range a.dims).map fun d => c d * (a.counts.take d).foldl (· * ·) 1).sum
  let nb := bits w3 60 54
  let id := bits w3 50 35
  let x := { newAwl (w.getD 0 0) with
    gen, elem := bits w3 31 0, ended := bitOf w3 32, endSent := bitOf w3 33, osent := bits w4 31 0, fkind := bits w3 61 61
    emitted := if a.store then 0 else gen - nb
    buf := if a.store then [] else ((recAt w 8 nb).zipIdx.foldl (fun m (v, j) => mput m (gen - nb + j) v) []) }
  let m : Mark := ⟨if bits w3 61 61 == 1 then cPROT else cPAGE, 0, nowAddr u a x, 0⟩
  let x := if !bitOf w3 34 then x
    else match answerOf s p id with
      | .held true => { x with fault := some m }
      | .due => { x with req := some id }
      | _ => x
  let u := setQueue u (awlQ a.n 2) (List.replicate (bits w3 53 51) (dataTok 0))
  let u := if a.store then setQueue (setQueue u (awlQ a.n 0) ((recAt w 8 nb).map tokOf)) (awlQ a.n 1) ((recAt w 12 (bits w4 34 32)).map tokOf) else u
  if x.fault.isSome then awlFail u a x m else setAwl u a.n x

/-- The pattern records of the ports of a cut read from ga: those of the run that was saved with these words, there or elsewhere. -/
def cutPats (s : State) (p : Nat) (ga : Word) (w : List Word) (ps : List FPortE) : Option (List (Nat × List Word)) :=
  let l := (partOf s p).cuts.filter fun c => c.words == w
  if ps.isEmpty then some [] else ((l.find? fun c => c.ga == ga).or l.head?).map (·.pats)

/-- The run a cut describes (R407). -/
def restoreRun (s : State) (f : Fabric) (i : FImg) (u : FabRun) (w : List Word) : FabRun :=
  let u := i.cells.zipIdx.foldl (fun u (c, j) => restoreCell u c (recAt w (8 + 17 * j) 17)) u
  let u := i.awls.zipIdx.foldl (fun u (a, j) => restoreAwl s f.part u a (recAt w (cutAwlAt i + 72 * j) 72)) u
  i.ports.zipIdx.foldl (fun u (p, j) =>
    let r := recAt w (cutPortAt i + 8 * j) 8
    let u := setPort u p.q { pos := (r.getD 0 0).toNat, endDone := bitOf (r.getD 1 0) 0, frozen := false }
    if p.write then setQueue u (portQ p.q) ((recAt r 2 (bits (r.getD 1 0) 3 1)).map tokOf) else u) u

/-- FRUN with RES = 1 (R358, R405, R407). -/
def execFrunResume (ga gd : BitVec 5) (c : Comp) (s : State) : Host.Outcome State Fault Refusal :=
  fabIssue ga gd c 128 (fun s => (ownFabric s).isNone) (fun s a g =>
    match ownFabric s with
    | none => operandR s
    | some f =>
      let i := imgOf f.image
      afterDrain s fun s => record s a (cutSize i) fun s w =>
        if cutBad f i w then refuseRecord s a
        else match cutPats s f.part a w i.ports with
          | none => operandR s
          | some pats =>
            let t := curTile s
            let u := restoreRun s f i (newRun s g c) w
            let s := i.awls.zipIdx.foldl (fun s (x, j) =>
              let w3 := w.getD (cutAwlAt i + 72 * j + 3) 0
              let s := awlMoved s t f i x (bits w3 31 0)
              if bitOf w3 34 then claimAnswer s f.part (bits w3 50 35) (tileOfAwl i t x.n) x.n else s) s
            let s := startNodes (putRun (setPats s t i g pats) t i u) t i
            .ok s) s

/-- FHALT (R151, R345, R358, R404): an idle fabric completes it at once; behind a freeze it waits in the fabric's queue of 4. -/
def execFhalt (ga gd : BitVec 5) (c : Comp) (s : State) : Host.Outcome State Fault Refusal :=
  fabIssue ga gd c 128 (fun _ => false) (fun s a g =>
    afterDrain s fun s =>
      let t := curTile s
      let z : Freeze := { swap := false, ga := a, gd := g, comp := c, sup := (curH s).sup, hart := s.cur, since := s.clock, pos := 0 }
      match (fabOf s t).bind fun f => (fabOf s f.lead).map fun l => (f.lead, l) with
      | none => .ok (endFreeze s t (curPart s) z none)
      | some (lead, f) =>
        match f.run with
        | none => .ok (endFreeze s t (curPart s) z none)
        | some u =>
          let i := imgOf f.image
          if u.freeze.isSome then
            if 3 ≤ f.halts.length then waitR s .queue
            else .ok (setTile s lead { tileOf s lead with fab := some { f with halts := f.halts ++ [z] } })
          else if u.stopped || runOver i u then .ok (endFreeze s t (curPart s) z none)
          else .ok (postOnce (beginFreeze s lead i u z) (.cutWrite lead))) s

/-- The first FHALT that waits freezes the run. -/
def nextHalt (s : State) (t : Nat) : State :=
  withRun s t fun f i u =>
    match f.halts with
    | [] => s
    | z :: r =>
      let s := setTile s t { tileOf s t with fab := some { f with halts := r } }
      postOnce (beginFreeze s t i u { z with since := s.clock }) (.cutWrite t)

/-- A run frozen by a context swap goes on in place (R358, R407, R427): markers are gone and extents are asked for anew. -/
def unfreeze (s : State) (t : Nat) : State :=
  withRun s t fun f i u0 =>
    let u := u0
    match u.freeze with
    | none => s
    | some z =>
      if !z.swap then s
      else
        let held := (partOf s f.part).held
        let awl (n : Nat) (x : Awl) : Awl :=
          let x := { x with frozen := false, extent := none }
          match x.req.bind (mfind held) with
          | some 1 => { x with req := none, fault := some ⟨if x.fkind == 1 then cPROT else cPAGE, 0, match i.awl n with | some a => nowAddr u a x | none => 0, 0⟩ }
          | some _ => { x with req := none }
          | none => x
        let u := { u with
          freeze := none, marks := [], frozen := []
          awls := u.awls.map fun (n, x) => (n, awl n x)
          ports := u.ports.map fun (q, x) => (q, { x with frozen := false }) }
        let u := i.awls.foldl (fun u a => match mfind u.awls a.n with
          | some x => (match x.fault with | some m => noteErr u m a.n (awlBody a x.gen) | none => u)
          | none => u) u
        let s := setPart s f.part { partOf s f.part with held := u0.awls.foldl (fun m (_, x) => match x.req with | some id => mdel m id | none => m) held }
        nextHalt (startNodes (setRun s t u) t i) t

end Sys2Proof.Machine
end

