-- ==== Sys2Proof/Machine/Cinches.lean ====
section
/-! DEFINITION. Cinches: RSV and URSV, the registration and the end of pieces at their homes, and position queries (R109 to R119, R353). -/

namespace Sys2Proof.Machine
open Sys2Proof

/-! ## RSV (R353) -/

/-- The range of a Cinch leaves its canonical half (R353). -/
def cinchRangeBad (base stride : Word) (count esz : Nat) : Bool :=
  let b := base.toInt
  let last := b + stride.toInt * ((count : Int) - 1)
  let lo := min b last
  let hi := max b last + (2 ^ esz : Nat)
  count != 0 && !((decide (0 ≤ lo) && decide (hi ≤ 2 ^ 54)) || (decide (-(2 ^ 54) ≤ lo) && decide (hi ≤ 0)))

/-- The pieces of a range, one per page: first byte, first element, elements, virtual address; or what stops the RSV. -/
inductive Cut where
  | ok (s : State) (l : List (Nat × Nat × Nat × Word))
  | stop (s : State) (x : Stop)
deriving DecidableEq, Repr

/-- Elements i, i + 1, … of a range, page by page, translated with the intent's permission; a read-only slot takes no write intent, and a page of a
STASH lies in its window (R66, R72): both raise PROT for the hart that issues the RSV. A page of a STASH is wider than the window only where its ends
lie outside, so its first and its last element are checked. -/
def cutPages (s : State) (base stride : Word) (count : Nat) (kind : AccKind) (i fuel : Nat) : Cut :=
  match fuel with
  | 0 => .ok s []
  | f + 1 =>
    if count ≤ i then .ok s []
    else
      let va := base + BitVec.ofNat 64 i * stride
      match xlate s (curTile s) (curPart s) va kind (curH s).sup with
      | .fault s c sb => .stop s (.trap c sb va)
      | .ok s x =>
        if x.io then .stop s (.trap cPROT 3 va)
        else
          let off := va.toNat - x.vbase
          let st := stride.toInt
          let m := if st == 0 then count else if 0 < st then (x.size - 1 - off) / st.toNat + 1 else off / (-st).toNat + 1
          let m := min m (count - i)
          match ([va, va + BitVec.ofNat 64 (m - 1) * stride].findSome? fun a => (slotRefuses s (curPart s) x.vcid a kind).map fun sb => (sb, a)) with
          | some (sb, a) => .stop s (.trap cPROT sb a)
          | none =>
            match cutPages s base stride count kind (i + m) f with
            | .ok s l => .ok s ((x.pk va, i, m, va) :: l)
            | r => r

/-- Commands of the tile's Cinch port under way (R345). -/
def portQueue (s : State) (t : Nat) : Nat := ((tileOf s t).cq.filter fun c => (c.k == 3 || c.k == 4) && !c.raised).length
def unitCinch (s : State) (t u : Nat) : Option Cinch := s.cinches.find? fun x => x.tile == t && x.unit == u && x.part == curPart s

/-- The pieces enter their homes' tables. -/
def addPieces (s : State) (x : Cinch) (l : List (Nat × Nat × Nat × Word)) : State :=
  match l with
  | [] => s
  | (pk, first, n, va) :: r =>
    let p : PieceT :=
      { id := s.nextId, cinch := x.id, part := x.part, pk, va, esz := x.esz, wr := x.wr, mode := x.mode, stride := x.stride.toInt, first, count := n
        cid := x.cid, tile := x.tile, unit := x.unit, live := false, released := [], held := [], query := false, watch := none }
    let s := useCircuit s x.tile (granDie (pk / 128))
    addPieces (post (newId { s with pieces := s.pieces ++ [p] }) (.pieceRegister s.nextId)) x r

/-- The next Cinch id that no living Cinch of the partition has (R110). -/
def freeCid (s : State) (p c fuel : Nat) : Nat :=
  match fuel with
  | 0 => c
  | f + 1 => if s.cinches.any fun x => x.part == p && x.cid == BitVec.ofNat 16 c then freeCid s p ((c + 1) % 2 ^ 16) f else c

/-- RSV (R353): an awl answers for the elements it has performed already (R394). -/
def execRsv (r : CmdRegs) (c : Comp) (esz : BitVec 3) (wr : Bool) (mode : BitVec 2) (hunit : BitVec 5) (s : State) : Host.Outcome State Fault Refusal :=
  finish4 s (if 16 ≤ hunit.toNat && (tileOf s (curTile s)).fb != some s.cur then operandR s else withRegs s (cmdSrcs r) none fun _ =>
    let x := hartCmd s 3 0 r c
    let t := x.tile
    let e := 2 ^ esz.toNat
    let count := x.gc.toNat
    let u := hunit.toNat
    if compBad s x.part x.gd c || (unitCinch s t u).isSome || x.ga.toNat % e != 0 || x.gb.toNat % e != 0
        || 2 ^ 32 ≤ count || cinchRangeBad x.ga x.gb count esz.toNat then operandR (logComp s c)
    else if x.gd.toNat % 8 != 0 then trapR s cMISALIGN x.gd
    else if 16 ≤ portQueue s t then waitR s .queue
    else afterDrain s fun s => match cutPages s x.ga x.gb count (if wr then .write else .read) 0 count with
      | .stop s y => .stop s y
      | .ok s l =>
        let cid := freeCid s x.part (partOf s x.part).cid s.cinches.length
        let s := newId (addCmd (popSrcs s (cmdSrcs r)) { x with param := u, begun := true })
        let y : Cinch :=
          { id := x.id, cid := BitVec.ofNat 16 cid, part := x.part, tile := t, unit := u, sup := x.sup, esz := esz.toNat, wr, mode := mode.toNat, base := x.ga, stride := x.gb, count
            pos := if 16 ≤ u then min (awlPosition s t u x.part wr) count else 0, gone := [] }
        let s := setPart { s with cinches := s.cinches ++ [y] } x.part { partOf s x.part with cid := (cid + 1) % 2 ^ 16 }
        .ok (if l.isEmpty then post s (.commandComplete t x.id) else addPieces s y l))

/-- URSV (R353) enters the port's queue, behind the RSV of its unit; the unit's pieces then leave their homes, and its completion follows them. -/
def execUrsv (gd : BitVec 5) (c : Comp) (hunit : BitVec 5) (s : State) : Host.Outcome State Fault Refusal :=
  let srcs := [(gd, false)]
  finish4 s (withRegs s srcs none fun _ =>
    let x := hartCmd s 4 0 ⟨0, 0, 0, gd⟩ c
    let u := hunit.toNat
    if compBad s x.part x.gd c then operandR (logComp s c)
    else if x.gd.toNat % 8 != 0 then trapR s cMISALIGN x.gd
    else if 16 ≤ portQueue s x.tile then waitR s .queue
    else
      let s := flushHart s s.cur
      .ok (post (newId (addCmd (popSrcs s srcs) { x with param := u })) (.commandComplete x.tile x.id)))

/-! ## Pieces at their homes (R110, R111, R117, R118) -/

def pieceOf (s : State) (id : Nat) : Option PieceT := s.pieces.find? fun x => x.id == id
/-- The granules a piece covers. -/
def pieceGrans (x : PieceT) : List Nat :=
  (((List.range x.count).flatMap fun (i : Nat) =>
    let a := ((x.pk : Int) + x.stride * (i : Int)).toNat
    [a / 128]).eraseDups).filter (covers x)
/-- Requests held at a piece are taken in arrival order. -/
def takeHeld (s : State) (l : List (Nat × Event × Nat)) : State := { s with agenda := l.map (·.2.1) ++ s.agenda }

/-- An RSV ends with error: no piece of it stays registered (R118). -/
def rsvFail (s : State) (x : PieceT) (cause sub : Nat) : State :=
  let ours (y : PieceT) : Bool := y.cinch == x.cinch && y.tile == x.tile
  let s := takeHeld { s with pieces := s.pieces.filter fun y => !ours y, cinches := s.cinches.filter fun y => y.id != x.cinch }
    ((s.pieces.filter ours).flatMap (·.held))
  match cmdOf s x.tile x.cinch with
  | some c => toEnd s { c with err := some ⟨cause, sub, x.va, x.pk % 2 ^ 52⟩ }
  | none => s

/-- The next granule whose home memory is not yet current for the piece, recalled (R111). -/
def makeCurrent (s : State) (x : PieceT) (l : List Nat) : State × Bool :=
  match l with
  | [] => (s, true)
  | g :: r =>
    if (mfind s.txns g).isSome then (s, false)
    else match dirOf s g with
      | none => makeCurrent s x r
      | some d =>
        if (vote d).isNone then (machineCheck s (granStack g), false)
        else if d.bad then (recallBad s g d, false)
        else if x.wr then (recallAll s g, false)
        else if d.owned then (recallShared s g, false)
        else makeCurrent s x r

/-- PIECE_REGISTER (R111): waits for room in the home's table of 1,024, fails in a region of another partition (R93) and against a live piece (R118), makes the
home current, and is live. -/
def execPieceRegister (piece : Nat) (s : State) : Host.Outcome State Fault Refusal :=
  match pieceOf s piece with
  | none => .next s
  | some x =>
    if x.live then .next s
    else if !entered s x then .next (post s (.pieceRegister piece))
    else
      let l := pieceGrans x
      if !l.all (regionOk s x.part) then .next (rsvFail (logHome s x.part x.pk) x cPROT 4)
      else if s.pieces.any fun y => y.live && (y.wr || x.wr) && l.any (covers y) then .next (rsvFail s x cRSVC 0)
      else
        let (s, ok) := makeCurrent s x l
        if !ok then .next (post s (.pieceRegister piece))
        else
          let s := takeHeld (setPiece s { x with live := true, held := [] }) x.held
          .next (if s.pieces.all fun y => y.cinch != x.cinch || y.live then post s (.commandComplete x.tile x.cinch) else s)

/-- PIECE_END (R117). -/
def execPieceEnd (piece : Nat) (s : State) : Host.Outcome State Fault Refusal :=
  match pieceOf s piece with
  | none => .next s
  | some x => .next (takeHeld { s with pieces := s.pieces.filter fun y => y.id != piece } x.held)

/-! ## Position queries (R115, R119) -/

/-- POSITION_QUERY (R115): the holder answers; a watch once its position has passed it. -/
def execPositionQuery (piece : Nat) (watch : Option Nat) (s : State) : Host.Outcome State Fault Refusal :=
  match pieceOf s piece with
  | none => .next s
  | some x =>
    let p := match s.cinches.find? fun y => y.id == x.cinch with | some y => y.pos | none => x.first + x.count
    let answer := post (useCircuit s x.tile (granDie (x.pk / 128))) (.positionAnswer piece p)
    match watch with
    | none => .next answer
    | some w => .next (if w < p then answer else post s (.positionQuery piece (some w)))

/-- POSITION_ANSWER (R115): lines below the position leave the piece; requests for lines that stay are held, with a watch: the holder's position passes the
least of their last touches first, and its answer then sets the next. -/
def execPositionAnswer (piece pos : Nat) (s : State) : Host.Outcome State Fault Refusal :=
  match pieceOf s piece with
  | none => .next s
  | some x =>
    let below' := (pieceGrans x).filter fun g => match pieceTouch x g with | some i => x.first + i < pos | none => false
    let x := { x with released := x.released ++ below', query := false, watch := none }
    let stays (e : Nat × Event × Nat) : Bool := covers x e.1
    let go := x.held.filter fun e => !stays e
    let keep := x.held.filter stays
    let w := ((keep.filterMap fun e => pieceTouch x e.1).min?).map (x.first + ·)
    let s := takeHeld (setPiece s { x with held := keep, watch := w }) go
    .next (match w with
      | some n => post s (.positionQuery piece (some n))
      | none => s)

end Sys2Proof.Machine
end

