-- ==== Sys2Proof/Machine/Swap.lean ====
section
/-! DEFINITION. The region scheduler and the partition context swap (R195, R208, R209, R342, R425 to R427). -/

namespace Sys2Proof.Machine
open Sys2Proof

/-- The tiles of region r. -/
def regionTiles (s : State) (r : Nat) : List Nat := below 512 fun t => tileRegion s t == some r
/-- The next partition in ascending partid after p, wrapping, that shares the region and runs (R208): one that is not started, or has ended, has nothing to be
swapped in and is passed over like a HALTED one (notes/assumptions/42.md). -/
def nextPart (s : State) (r p : Nat) : Option Nat :=
  ((List.range 64).map fun j => (p + 1 + j) % 64).find? fun q => q != p && regionMember s r q && ptState s q == 1
/-- A quantum of partition p begins in region r. -/
def startQuantum (s : State) (r p : Nat) : State :=
  postOnce (setRegion s r { running := p + 1, halting := false, ends := s.clock + quantumOf s p }) (.quantumExpiry r)

/-! ## The caches of a tile whose region changes partition (R98) -/

/-- No copy of the tile's agent is in a transaction, and no line of its banks is being moved. -/
def cachesQuiet (s : State) (t : Nat) : Bool :=
  (s.copies.all fun (k, c) => k / 2 ^ 46 != t || (c.st != .is && c.st != .im && c.st != .sm))
    && s.parts.all fun (_, p) => p.slots.all fun (_, x) => x.lines.all fun (loc, y) =>
      y.mv.isNone || (agentOfLoc loc != t && !y.mv.any fun n => agentOfLoc n == t)
/-- The caches of a tile empty before another partition runs on it, since from then on a probe that names this one has no effect on them (R98): its L1, the
lines of its banks but those that a copy has claimed, whose blocks become absent, and what is left of its copies, dirty data going home
(notes/assumptions/40.md). -/
def flushTile (s : State) (t : Nat) : State :=
  let s := (tileOf s t).l1.foldl (fun s e => l1Leave s t e) s
  let s := s.parts.foldl (fun s (p, x) => x.slots.foldl (fun s (v, y) => y.lines.foldl (fun s (loc, z) =>
    if agentOfLoc loc == t && z.cb == 0 then evictLine s p v loc else s) s) s) s
  (s.copies.filter fun (k, _) => k / 2 ^ 46 == t).foldl (fun s (k, _) => evict s t (k % 2 ^ 46)) s

/-- The swap of a region to its next partition begins: its harts stop at their next boundaries; with no other partition a new quantum begins. -/
def beginSwap (s : State) (r : Nat) : State :=
  let x := regionOf s r
  if x.running == 0 || x.halting then s
  else match nextPart s r (x.running - 1) with
    | some _ => postOnce (setRegion s r { x with halting := true }) (.contextSwapBegin r)
    | none => startQuantum s r (x.running - 1)

/-- QUANTUM_EXPIRY (R208): once the count has run out. -/
def execQuantumExpiry (region : Nat) (s : State) : Host.Outcome State Fault Refusal :=
  let x := regionOf s region
  .next (
    if x.running == 0 || x.halting then s
    else if s.clock < x.ends then postOnce s (.quantumExpiry region)
    else beginSwap s region)

/-- MANAGEMENT_SWAP (R425): management starts the swap. -/
def execManagementSwap (region : Nat) (s : State) : Host.Outcome State Fault Refusal := .next (beginSwap s region)

/-! ## What is completed before the save (R195, R342) -/

/-- Fabric runs of the tiles freeze (R404, R406). -/
def freezeTile (s : State) (t : Nat) : State :=
  withRun s t fun _ i u =>
    if u.freeze.isSome then s
    else beginFreeze s t i u
      { swap := true, ga := 0, gd := 0, comp := ⟨0, 0, false, false, 0, 0⟩, sup := false, hart := 0, since := s.clock, pos := 0 }
/-- Data being collected for an instruction not yet executed is given up: the instruction starts again (R427). -/
def dropCollected (s : State) (t : Nat) : State :=
  { s with
    pend := s.pend.filter fun p => p.hart / 16 != t || (match p.dest with | .buf _ => false | _ => true)
    harts := s.harts.map fun (i, h) => if i / 16 == t then (i, { h with conv := none }) else (i, h) }

/-- CONTEXT_SWAP_BEGIN (R425): merge buffers flush, fabrics freeze, and what R195 names goes on to its end. -/
def execContextSwapBegin (region : Nat) (s : State) : Host.Outcome State Fault Refusal :=
  if !(regionOf s region).halting then .next s
  else
    let l := regionTiles s region
    let s := l.foldl (fun s t => freezeTile (dropCollected (flushMerge s t fun _ => true) t) t) s
    .next (postOnce s (.contextSwapComplete region))

/-- The landing or claim of a block of a stash holds back an access (R74). -/
def claimHolds (s : State) (p : Nat) (x : Piece) : Bool :=
  let sl := slotOf s p x.vcid
  let r := slotRec sl
  let w : Who := { tile := 0, part := p, unit := 100, l1 := false }
  sl.st != .empty && recKind r == 1 && (lineParts s w x).any fun z => match mfind sl.lines (stashLoc r z.va) with
    | some y => y.addr == z.pk / recLine r && claimed w y (pieceBlocks (recLine r) z)
    | none => false
/-- A held producer: by a claimed block, by a watermark, or behind one of those in the order of its hart (R195). -/
def heldPend (s : State) (t p : Nat) (q : Pend) : Bool :=
  pendHeld s q || (q.chk && !(watermarkOk s q.hart t p q.va ((q.pieces.map (·.n)).sum) q.ord.sup none).2) || q.pieces.any (claimHolds s p)
/-- A store that cannot be performed before the partition is back. -/
def heldStore (s : State) (p h : Nat) (e : SbEntry) : Bool :=
  !e.performed && !e.away && (entryHeld s h e || e.pieces.any (claimHolds s p))

def hartQuiet (s : State) (p h : Nat) (x : Hart) : Bool :=
  (match x.join with | some j => j.sent && j.due == 0 | none => true)
    && (match x.shoot with | some id => !s.shoots.any (·.id == id) | none => true)
    && x.sb.all (heldStore s p h)
def streamQuiet (x : MStream) : Bool :=
  match x.ops with
  | [] => true
  | o :: _ => !o.begun || x.stall.isSome
def fabricQuiet (x : Tile) : Bool :=
  match x.fab with
  | none => true
  | some f =>
    match f.run with
    | none => true
    | some u => (match u.freeze with | some z => z.swap | none => false) && allFrozen (imgOf f.image) u
def mergeQuiet (s : State) (e : MergeE) : Bool :=
  e.due == 0 && e.vals.any fun (o, _) => claimHolds s e.part ⟨e.gk * 128 + o, 4, e.vcid, e.va + BitVec.ofNat 64 o, false⟩

/-- Tile t holds nothing that must end before the save. -/
def tileQuiet (s : State) (t p : Nat) : Bool :=
  let x := tileOf s t
  (s.harts.all fun (i, h) => i / 16 != t || hartQuiet s p i h)
    && (s.pend.all fun q => q.hart / 16 != t || heldPend s t p q)
    && x.merge.all (fun (_, e) => mergeQuiet s e) && !x.mxBusy && x.ms.all (fun (_, m) => streamQuiet m) && fabricQuiet x

/-! ## Saving and restoring a tile (R426, R427) -/

/-- A hart as it is saved: it stands before the word it stopped at, its monitor unarmed (R279, R427); a YIELD is over (R428). -/
def saveHart (h : Hart) : Hart :=
  { h with
    pc := if h.wait == .yielding then h.pc + 4 else h.pc
    prog := if h.wait == .yielding || h.stalled then 0 else h.prog
    wait := .none, monitor := none, stalled := false, req := none, conv := none }

/-- The part of a tile that a swap moves; commands fired by posts stay, as posts do (R361). -/
def movedPart (x : Tile) (p : Nat) : Tile :=
  { x with
    posts := [], fired := [], usedD := [], usedP := [], l1 := [], ic := [], gtlb := [], itlb := []
    cq := x.cq.filter fun c => c.part == p && c.src != 1 }
/-- A tile whose moved part is that of y. -/
def withMoved (x y : Tile) (p : Nat) : Tile :=
  { y with
    posts := x.posts, fired := x.fired, usedD := x.usedD, usedP := x.usedP, l1 := x.l1, ic := x.ic, gtlb := x.gtlb, itlb := x.itlb
    laneStep := x.laneStep, last := x.last, cq := y.cq ++ x.cq.filter fun c => !(c.part == p && c.src != 1) }

/-- The number of a stalled request whose partition leaves its tile, its place kept, and the number it had (R203). -/
def awayKey (p k : Nat) : Nat := (p + 1) * 2 ^ 20 + k
/-- The context of partition p leaves tile t for its shadow storage; its harts make their stalled requests anew, its set-aside points keep their places. -/
def saveTile (s : State) (p : Nat) (t : Nat) : State :=
  let x := tileOf s t
  let keys := (s.harts.filter fun (i, _) => i / 16 == t).map (·.1)
  let asides := x.aside.map fun (d, _) => asideKey t d
  let c : TileCtx :=
    { harts := (s.harts.filter fun (i, _) => i / 16 == t).map fun (i, h) => (i, saveHart h)
      tile := movedPart x p
      pend := s.pend.filter fun q => q.hart / 16 == t }
  wakeStalls { setTile s t (withMoved x Tile.init p) with
    shadow := mput s.shadow (t * 64 + p) c
    harts := s.harts.filter fun (i, _) => i / 16 != t
    pend := s.pend.filter fun q => q.hart / 16 != t
    stks := s.stks.map fun (k, y) => (k, { y with stalls := y.stalls.map fun (l, q) =>
      (l, (q.filter fun j => !keys.contains j).map fun j => if asides.contains j then awayKey p j else j) }) }

/-- A stalled request's number changed, its place kept. -/
def renameStall (s : State) (h k : Nat) : State :=
  { s with stks := s.stks.map fun (i, x) => (i, { x with stalls := x.stalls.map fun (l, q) => (l, q.map fun y => if y == h then k else y) }) }
/-- Set-aside points stand among the stalled requests as before, or are restored (R203). -/
def rejoin (s : State) (t p d : Nat) (a : Aside) : State :=
  if a.hart.taken then postOnce s (.pointRestore t d)
  else postOnce (renameStall s (awayKey p (asideKey t d)) (asideKey t d)) (.poolEntryTaken a.stk (d + 1))

/-- A command goes on from where it stood (R427). -/
def resumeCmd (s : State) (c : Cmd) : State :=
  if c.raised || c.k == 4 then postOnce s (.commandComplete c.tile c.id)
  else if c.k == 3 then
    (if s.pieces.all fun y => y.cinch != c.id || y.live then postOnce s (.commandComplete c.tile c.id) else s)
  else if c.begun then postOnce s (.copyTransfer c.tile c.id)
  else postOnce s (.copyBegin c.tile)

/-! ## Producers re-issued (R195) -/

/-- A piece of a saved access is translated again, with the privilege of its issue; a counter that an instruction names by number needs no translation. -/
def reissuePiece (s : State) (t p : Nat) (k : AccKind) (sup : Bool) (x : Piece) : RangeRes :=
  if x.vcid == 64 then .ok s [x] else rangeOf s t p x.va x.n k sup (if x.io then .scalar else .none)
def reissuePieces (s : State) (t p : Nat) (k : AccKind) (sup : Bool) (xs : List Piece) : RangeRes :=
  match xs with
  | [] => .ok s []
  | x :: r =>
    match reissuePiece s t p k sup x with
    | .ok s ys => match reissuePieces s t p k sup r with
      | .ok s zs => .ok s (ys ++ zs)
      | e => e
    | e => e
/-- A load or atomic that was held is re-issued for what it has not filled yet; a fault of its translation marks its destination (R459). -/
def reissuePend (p : Nat) (s : State) (q : Pend) : State :=
  match reissuePieces s (q.hart / 16) p (if q.op.isSome then .amo else .read) q.ord.sup q.pieces with
  | .ok s xs =>
    let q' := { q with pieces := xs }
    pendAgain { s with pend := s.pend.map fun y => if y.id == q.id then q' else y } q'
  | .fault s c sb a => deliverMark (dropPend s q.id) q ⟨c, sb, a, 0⟩
/-- A store that was held is translated again; one whose page is gone is discarded with its record (R459). -/
def reissueStore (p h : Nat) (s : State) (e : SbEntry) : State :=
  if e.performed || e.away then s
  else match reissuePieces s (h / 16) p (match e.op with | .write _ => .write | .nibble _ _ => .write | _ => .amo) e.ord.sup e.pieces with
    | .ok s xs => setEntry s h { e with pieces := xs }
    | .fault s c _ _ => match e.pieces with
      | x :: _ => entryDone (refuseEntry s h e x c) h { e with pieces := [] }
      | [] => s
def reissueHart (p h : Nat) (s : State) : State :=
  let s := (hartOf s h).sb.foldl (reissueStore p h) s
  if (unsent (hartOf s h)).isEmpty then s else postOnce s (.storeSend h)

/-- A saved merge entry is translated again; where its page is gone, its words are refused, each with its record (R146, R459). -/
def reissueMerge (s : State) (t p i : Nat) : State :=
  match mfind (tileOf s t).merge i with
  | none => s
  | some e =>
    let put (s : State) (e : MergeE) : State := postOnce (setTile s t { tileOf s t with merge := mput (tileOf s t).merge i e }) (.mergeFlushIdle t i)
    match e.vals with
    | [] => put s e
    | (o, _) :: _ =>
      match rangeOf s t p (e.va + BitVec.ofNat 64 o) 4 .amo e.sup .none with
      | .ok s xs => put s (match xs with | x :: _ => { e with gk := x.pk / 128, vcid := x.vcid } | [] => e)
      | .fault s c _ _ =>
        put (e.vals.foldl (fun s (o, _) => faultRecord s p
          { cause := c, src := 6, unit := 0, tile := t, va := e.va + BitVec.ofNat 64 o, tag := 0, body := (e.harts.headD ⟨0, 0, 0, true, 0⟩).hart * 2 ^ 64 }) s)
          { e with vals := [], going := true }

/-- What stood under way on tile t goes on (R427). -/
def resumeTile (s : State) (t p : Nat) : State :=
  let x := tileOf s t
  let s := (s.pend.filter fun q => q.hart / 16 == t).foldl (reissuePend p) s
  let s := (s.harts.filter fun (i, h) => i / 16 == t && !(unsent h).isEmpty).foldl (fun s (i, _) => reissueHart p i s) s
  let s := x.merge.foldl (fun s (i, _) => reissueMerge s t p i) s
  let s := (x.cq.filter fun c => c.part == p && c.src != 1).foldl resumeCmd s
  let s := (x.se.filter fun (_, e) => e.bound && !e.fabric).foldl (fun s (q, _) => postOnce s (.streamEngineAccess t q)) s
  let s := x.ms.foldl (fun s (k, _) => postOnce s (.matrixOpComplete t k)) s
  let s := x.aside.foldl (fun s (d, a) => rejoin s t p d a) s
  unfreeze (postOnce s (.mmaBegin t)) t

/-- The context of partition p enters tile t: as saved, or as of a partition that has not yet run there. -/
def restoreTile (s : State) (p : Nat) (t : Nat) : State :=
  match mfind s.shadow (t * 64 + p) with
  | none => s
  | some c =>
    let s := setTile s t (withMoved (tileOf s t) c.tile p)
    { s with
      shadow := mdel s.shadow (t * 64 + p)
      harts := c.harts.foldl (fun m (i, h) => mput m i h) s.harts
      pend := s.pend ++ c.pend }

/-- CONTEXT_SWAP_COMPLETE (R425): with everything that R195 names ended, the contexts change places and the quantum begins. -/
def execContextSwapComplete (region : Nat) (s : State) : Host.Outcome State Fault Refusal :=
  let x := regionOf s region
  let p := x.running - 1
  let l := regionTiles s region
  if !x.halting then .next s
  else if !l.all fun t => tileQuiet s t p && cachesQuiet s t then .next (postOnce s (.contextSwapComplete region))
  else
    let q := (nextPart s region p).getD p
    let s := if q == p then s else l.foldl (fun s t => restoreTile (saveTile (flushTile s t) p t) q t) s
    let s := startQuantum s region q
    let s := l.foldl (fun s t => resumeTile s t q) s
    .next ((List.range 4).foldl (fun s k => postOnce s (.dispatchDecision k)) s)

end Sys2Proof.Machine
end

