-- ==== Sys2Proof/Machine/Aside.lean ====
section
/-! DEFINITION. Points set aside while their requests wait for the pool, and their restoring (R203). -/

namespace Sys2Proof.Machine
open Sys2Proof

/-! ## What a set-aside point takes with it -/

/-- Keys of a register file that lie in the lane groups l. -/
def inLanes (l : BitVec 4) (perGroup rowLen k : Nat) : Bool := (laneList l).contains (k % rowLen / perGroup)
/-- Entries of m that p accepts taken from n instead. -/
def mixMap {α : Type} (p : Nat → Bool) (m n : SMap α) : SMap α :=
  (n.filter fun x => p x.1).foldl (fun m x => mput m x.1 x.2) (m.filter fun x => !p x.1)
/-- The mask bits of the lane groups taken from n. -/
def mixMasks (l : BitVec 4) (m n : SMap (BitVec 2048)) : SMap (BitVec 2048) :=
  let w := (laneList l).foldl (fun a g => a + (2 ^ 512 - 1) * 2 ^ (512 * g)) 0
  let b := BitVec.ofNat 2048 w
  (List.range 64).foldl (fun m i => mset 0 m i ((mgetD m i 0 &&& ~~~b) ||| (mgetD n i 0 &&& b))) m

/-- Engines and matrix operations of hart h under another hart number. -/
def renameEngines (t : Tile) (h k : Nat) : Tile :=
  { t with se := t.se.map fun (q, e) => if e.bound && !e.fabric && e.hart == h then (q, { e with hart := k }) else (q, e) }
def renameOps (ms : SMap MStream) (k : Nat) : SMap MStream := ms.map fun (i, x) => (i, { x with ops := x.ops.map fun o => { o with hart := k } })
/-- Commands that hart h issued, and the run of a fabric, under another hart number. -/
def renameCmds (t : Tile) (h k : Nat) : Tile := { t with cq := t.cq.map fun c => if c.hart == h && c.src == 0 then { c with hart := k } else c }
def renameRun (f : Option Fabric) (h k : Nat) : Option Fabric :=
  f.map fun f => { f with run := f.run.map fun u => { u with
    hart := if u.hart == h then k else u.hart, freeze := u.freeze.map fun z => if z.hart == h then { z with hart := k } else z } }

/-- The engines that a tile's configuration claims. -/
def claimedPorts (x : Tile) : SMap SEng := x.se.filter fun (_, e) => e.fabric
/-- The fabric grant of a tile returned, with its configuration and the engines it claims. -/
def yieldFabric (x : Tile) : Tile := { x with fb := none, fab := none, se := x.se.filter fun (_, e) => !e.fabric }
/-- The fabric grant of a tile given back to hart h as it was. -/
def regainFabric (x : Tile) (h : Nat) (fab : Option Fabric) (ports : SMap SEng) : Tile :=
  { x with fb := some h, fab, se := ports.foldl (fun m (q, e) => mput m q e) x.se }

/-! ## Setting aside -/

/-- A command of the hart still needs the registers or the place of its point: it writes registers, it waits for the hart's own accesses, or an operation of
a matrix stream waits for it. -/
def needsPoint (s : State) (h : Nat) (c : Cmd) : Bool :=
  c.hart == h && c.src == 0 && !c.raised
    && (c.follow.isSome || (c.k == 0 && (c.mode == 3 || c.mode == 4)) || !drainedBefore s h c.id)
/-- What R195 lets a swap save is all that is left under way of the hart: producers held back, streams and a fabric run at rest. -/
def asideReady (s : State) (h : Nat) : Bool :=
  let t := h / 16
  let x := tileOf s t
  let p := (tilePart s t).getD 0
  (s.pend.all fun q => q.hart != h || heldPend s t p q) && (hartOf s h).sb.all (heldStore s p h) && !(x.merge.any fun (_, e) => e.from h)
    && !(x.cq.any (needsPoint s h)) && (x.mx != some h || (!x.mxBusy && x.ms.all fun (_, m) => streamQuiet m)) && (x.fb != some h || fabricQuiet x)

/-- Saves the point of hart h into its slot, returns its grants and frees the hart. -/
def setAside (s : State) (h d : Nat) : State :=
  let t := h / 16
  let x := tileOf s t
  let y := hartOf s h
  let mx := x.mx == some h
  let fb := x.fb == some h
  let l := heldLanes y.v
  let others := if fb then s.tiles.filter fun (i, z) => i != t && z.fb == some h else []
  let a : Aside :=
    { hart := { y with monitor := y.monitor.map (fun m => { m with notified := true }) }
      num := h, stk := (stalledOn s h).getD (t / 128), mx, fb
      v := x.v.filter fun (k, _) => inLanes l 256 1024 k
      vside := x.vside.filter fun (k, _) => inLanes l 64 256 k
      vFault := x.vFault.filter fun (k, _) => inLanes l 4 16 k
      vEmpty := x.vEmpty.filter (inLanes l 4 16)
      m := x.m
      t := if mx then x.t else [], tside := if mx then x.tside else [], tcfg := if mx then x.tcfg else [], acc := if mx then x.acc else []
      ms := if mx then x.ms else [], fab := if fb then x.fab else none, ports := if fb then claimedPorts x else []
      joined := others.map fun (i, z) => (i, z.fab, claimedPorts z)
      pend := s.pend.filter (·.hart == h) }
  let x := if fb then yieldFabric x else x
  let x := { x with
    aside := mput x.aside d a, mx := (if mx then none else x.mx), ms := (if mx then [] else x.ms)
    vEmpty := x.vEmpty.filter fun k => !inLanes l 4 16 k }
  let x := renameCmds (renameEngines x h (asideKey t d)) h (asideKey t d)
  let s := others.foldl (fun s (i, z) => setTile s i (yieldFabric z)) s
  let s := setHart (setTile { s with pend := s.pend.filter (·.hart != h) } t x) h Hart.init
  postOnce (renameStall s h (asideKey t d)) (.dispatchDecision (t / 128))

/-- POINT_SET_ASIDE (R203): a run of its fabric is frozen as for a swap (R406), and goes on where the point stays after all. -/
def execPointSetAside (hart : Nat) (s : State) : Host.Outcome State Fault Refusal :=
  let t := hart / 16
  let fb := (tileOf s t).fb == some hart
  if !mayAside s hart || s.clock < (hartOf s hart).prog + 4096 then
    .next (if fb && runsOn s ((tilePart s t).getD 0) t then unfreeze s t else s)
  else
    let s := flushHart s hart
    let s := if fb then freezeTile s t else s
    if !asideReady s hart then .next (postOnce s (.pointSetAside hart))
    else match (hartOf s hart).point with
      | some p => .next (setAside s hart p.depth)
      | none => .next s

/-! ## Restoring -/

/-- The point of slot d resumes on hart h with its g registers, full/empty bits and the contents of its grants as saved; its held producers are issued
again. -/
def restorePoint (s : State) (t d h : Nat) (a : Aside) : State :=
  let x := tileOf s t
  let p := (tilePart s t).getD 0
  let l := heldLanes a.hart.v
  let x := { x with
    aside := mdel x.aside d
    v := mixMap (inLanes l 256 1024) x.v a.v
    vside := mixMap (inLanes l 64 256) x.vside a.vside
    vFault := mixMap (inLanes l 4 16) x.vFault a.vFault
    vEmpty := a.vEmpty ++ x.vEmpty.filter fun k => !inLanes l 4 16 k
    m := mixMasks l x.m a.m
    mx := if a.mx then some h else x.mx
    t := if a.mx then a.t else x.t, tside := if a.mx then a.tside else x.tside
    tcfg := if a.mx then a.tcfg else x.tcfg, acc := if a.mx then a.acc else x.acc
    ms := if a.mx then (renameOps a.ms h).map fun (k, m) => (k, { m with stall := askedStill s p m.stall }) else x.ms }
  let x := if a.fb then regainFabric x h ((renameRun a.fab a.num h).map (askAgain s p)) a.ports else x
  let s := setHart (setTile s t (renameCmds (renameEngines x (asideKey t d) h) (asideKey t d) h)) h { a.hart with wait := .none }
  let s := a.joined.foldl (fun s (i, f, ps) => setTile s i (regainFabric (tileOf s i) h f ps)) s
  let s := { s with pend := s.pend ++ a.pend.map (fun q : Pend => { q with hart := h }) }
  let s := (s.pend.filter fun q => q.hart == h).foldl (reissuePend p) s
  let s := reissueHart p h s
  let s := a.ms.foldl (fun s (k, _) => postOnce s (.matrixOpComplete t k)) s
  let s := if a.fb then unfreeze s t else s
  postOnce (postOnce s (.mmaBegin t)) (.dispatchDecision (t / 128))

/-- POINT_RESTORE (R203): once its request has taken an entry, as soon as what it needs is free. -/
def execPointRestore (tile depth : Nat) (s : State) : Host.Outcome State Fault Refusal :=
  match mfind (tileOf s tile).aside depth with
  | none => .next s
  | some a =>
    if !a.hart.taken then .next s
    else match restoreFits s tile a with
      | some h => .next (restorePoint s tile depth h a)
      | none => .next (postOnce s (.pointRestore tile depth))

end Sys2Proof.Machine
end

