-- ==== Sys2Proof/Machine/Slots.lean ====
section
/-! DEFINITION. Composed-cache slots: VCDEF and VCQRY, migrations and drains, move notices, and shares that go offline (R54 to R60,
R77 to R88, R286, R287). -/

namespace Sys2Proof.Machine
open Sys2Proof

/-! ## Records (R57 to R59) -/

/-- The segments of a record: bank * 16 + segment. -/
def recSegs (r : List Word) : List Nat := (recShares r).flatMap shareSegs

def powerOf2 (n : Nat) : Bool := n != 0 && 2 ^ n.log2 == n
/-- Sets of a group of shares (R59). -/
def setCount (r : List Word) (sh : List Nat) : Nat := sharesBytes sh / (recLine r * recWays r)

/-- Reserved fields and encodings of a record and of the descriptors in use, and the field rules of R59. -/
def recordFieldsBad (v : Nat) (r : List Word) : Bool :=
  let w0 := r.getD 0 0
  let w1 := r.getD 1 0
  let kind := recKind r
  bits w0 31 16 != 0 || bits w0 63 47 != 0 || r.getD 2 0 != 0 || r.getD 3 0 != 0 || decide (2 ≤ kind) || bits w0 3 2 == 3
    || decide (4 ≤ recPolicy r) || decide (9 ≤ recNsh r) || (kind == 1 && v == 0)
    || ((recShares r).any fun d => d / 2 ^ 21 != 0 || decide (16 < shFirst d + shSegs d) || (!recIl r && shLg d != 0))
    || (if kind == 1 then
          recWays r != 1 || recIl r || (recPolicy r != 0 && recPolicy r != 3) || recNsh r == 0 || bits w1 15 0 != 0
        else w1 != 0)

/-- The shape rules of R59: lane groups, set counts, and the one tile of a stash. -/
def recordShapeBad (r : List Word) : Bool :=
  let sh := recShares r
  if recKind r == 1 then
    sh.any fun d => decide (1024 ≤ shBank d) || shBank d / 2 != shBank (sh.headD 0) / 2
  else if recIl r then
    (List.range 4).any fun g =>
      let x := groupShares r g
      x.isEmpty || sharesBytes x != sharesBytes (groupShares r 0) || !powerOf2 (setCount r x)
  else recNsh r != 0 && !powerOf2 (setCount r sh)

/-- Overlapping descriptors, or a segment not granted to the partition: logged as a violation (R59). -/
def recordForeign (s : State) (p : Nat) (r : List Word) : Bool :=
  let l := recSegs r
  l.eraseDups.length != l.length || l.any fun k => !ownsSegment s p (k / 16) (k % 16)

/-- The segments that are leaving a slot (R78, R84). -/
def departing (x : Slot) : List Nat :=
  match x.st with
  | .empty => []
  | .active => []
  | .migrating => (recSegs x.recd).filter fun k => !(recSegs x.newRecd).contains k
  | _ =>
    if x.removing then recSegs x.recd
    else if x.pending then (recSegs x.recd).filter fun k => !(recSegs x.newRecd).contains k
    else []
/-- The segments a slot has, the leaving ones among them. -/
def slotSegs (x : Slot) : List Nat := if x.st == .empty then [] else recSegs x.recd ++ recSegs x.newRecd

def otherSlots (s : State) (p v : Nat) : List Slot := ((partOf s p).slots.filter (·.1 != v)).map (·.2)
/-- A named segment belongs to another slot and is not leaving it (R59). -/
def recordTaken (s : State) (p v : Nat) (r : List Word) : Bool :=
  (recSegs r).any fun k => (otherSlots s p v).any fun x => (slotSegs x).contains k && !(departing x).contains k
/-- A named segment is still leaving another slot (R60). -/
def recordWaits (s : State) (p v : Nat) (r : List Word) : Bool :=
  (recSegs r).any fun k => (otherSlots s p v).any fun x => (departing x).contains k
def recordOffline (s : State) (r : List Word) : Bool := (recSegs r).any s.offline.contains

/-! ## Slot transitions (R77, R78, R86) -/

/-- A migration or a drain of the slot has not ended (R60, R77). -/
def slotBusy (x : Slot) : Bool :=
  x.st == .migrating || x.st == .draining || (x.st == .faulted && (!x.lines.isEmpty || x.pending || x.removing))

/-- The old and the new record let the cache be resized live (R77, R78). -/
def sameShape (a b : List Word) : Bool :=
  recKind a == 0 && recKind b == 0 && recLine a == recLine b && recPolicy a == recPolicy b && recIl a == recIl b

def oldMap (l : SMap Line) : SMap Line := l.map fun (k, y) => (k, { y with newmap := false })

/-- The transition an install (a record) or a removal begins; the slot is not busy. -/
def slotChange (s : State) (p v : Nat) (r : Option (List Word)) : State :=
  let x := slotOf s p v
  match x.st, r with
  | .active, some r =>
    if sameShape x.recd r then
      post (setSlot s p v { x with st := .migrating, newRecd := r, lines := oldMap x.lines, sweep := 0 }) (.migrationSweep p v)
    else post (setSlot s p v { x with st := .draining, newRecd := r, pending := true }) (.drainSweep p v)
  | .active, none => post (setSlot s p v { x with st := .draining, removing := true }) (.drainSweep p v)
  | _, some r => setSlot s p v { Slot.init with st := .active, recd := r }
  | _, none => setSlot s p v Slot.init

/-- VCDEF (R60, R286). -/
def execVcdef (g h : BitVec 5) (s : State) : Host.Outcome State Fault Refusal :=
  let srcs := [(g, false), (h, false)]
  if !(curH s).sup then finish1 s (trapR s cPRIV 0)
  else finish1 s (withRegs s srcs none fun _ =>
    let q := gVal s h
    let a := gVal s g
    let p := curPart s
    let v := bits q 5 0
    if bits q 7 6 != 0 || bits q 63 9 != 0 then operandR s
    else if bitOf q 8 then
      if v == 0 then operandR s
      else if slotBusy (slotOf s p v) then waitR s .slot
      else .ok (slotChange (popSrcs s srcs) p v none)
    else if a.toNat % 64 != 0 then trapR s cMISALIGN a
    else afterDrain s fun s => record s a 8 fun s r =>
      if recordFieldsBad v r then refuseRecord s a
      else if recordForeign s p r then refuseRecord (logTile s (curTile s) p a.toNat) a
      else if recordShapeBad r || recordTaken s p v r || recordOffline s r then refuseRecord s a
      else if slotBusy (slotOf s p v) || recordWaits s p v r then waitR s .slot
      else .ok (slotChange (popSrcs s srcs) p v (some r)))

/-- VCDEF_PROCEED (R60): the hart tries its VCDEF again. -/
def execVcdefProceed (hart : Nat) (s : State) : Host.Outcome State Fault Refusal :=
  let h := hartOf s hart
  .next (if h.wait == .slot then setHart s hart { h with wait := .none } else s)

/-- The harts of the partition that wait for a slot may go on. -/
def wakeSlots (s : State) (p : Nat) : State :=
  posts s ((s.harts.filter fun (i, h) => h.wait == .slot && tilePart s (i / 16) == some p).map fun (i, _) => Event.vcdefProceed i)

/-! ## VCQRY (R77, R287) -/

/-- VCQRY (R287): rd is empty until the slot's word returns (R175). -/
def execVcqry (g h : BitVec 5) (s : State) : Host.Outcome State Fault Refusal :=
  finish1 s (withRegs s [(h, false)] (some g) fun y =>
    let q := gVal s h
    if bits q 63 6 != 0 then operandR s
    else .ok (issuePend (emptyG y g) none [] 0 (.g (gkey (curH s).sup g) 8 false) false (scalarOrd y false false false) (some (bits q 5 0))))

/-! ## Migration (R79 to R83) -/

/-- MIGRATION_SWEEP (R80): the next position of the old placement; a line in transit is waited for. -/
def execMigrationSweep (part vcid : Nat) (s : State) : Host.Outcome State Fault Refusal :=
  let x := slotOf s part vcid
  let l := recLine x.recd
  let loc := locIn (recShares x.recd) (x.sweep * l)
  let on (s : State) : State :=
    post (setSlot s part vcid { slotOf s part vcid with sweep := x.sweep + 1 }) (.migrationSweep part vcid)
  .next (if x.st != .migrating then s
    else if recBytes x.recd / l ≤ x.sweep then post s (.migrationEnd part vcid)
    else match mfind x.lines loc with
      | none => on s
      | some y =>
        if y.newmap || y.mv.isSome then on s
        else if !lineLive s l loc y then on (setLines s part vcid (mdel x.lines loc))
        else if lineStable s l loc y then on (moveLine s part vcid loc y)
        else post s (.migrationSweep part vcid))

/-- MIGRATION_END (R83): no move is unanswered and no line is left in the old placement. -/
def execMigrationEnd (part vcid : Nat) (s : State) : Host.Outcome State Fault Refusal :=
  let x := slotOf s part vcid
  let l := recLine x.recd
  let again (s : State) : State := post s (.migrationEnd part vcid)
  .next (if x.st != .migrating then s
    else if x.lines.any fun (_, y) => y.mv.isSome then again s
    else match x.lines.find? fun (_, y) => !y.newmap with
      | some (loc, y) =>
        if !lineLive s l loc y then again (setLines s part vcid (mdel x.lines loc))
        else if lineStable s l loc y then again (moveLine s part vcid loc y)
        else again s
      | none => wakeSlots (setSlot s part vcid { Slot.init with st := .active, recd := x.newRecd, lines := oldMap x.lines }) part)

/-! ## Move notices (R82) -/

/-- The line of a slot whose move asks about the granule: its old position and its new one. -/
def movingLine (x : Slot) (gk : Nat) : Option (Nat × Nat × Line) :=
  x.lines.findSome? fun (loc, y) =>
    match y.mv with
    | some n => if !y.newmap && (lineGrans (recLine x.recd) y.addr).contains gk then some (loc, n, y) else none
    | none => none

/-- A move notice of one granule is still on its way. -/
def isMove (p v gk : Nat) (e : Event) : Bool :=
  match e with
  | .move q w g _ _ _ => q == p && w == v && g == gk
  | .mack q w g => q == p && w == v && g == gk
  | .mnak q w g => q == p && w == v && g == gk
  | _ => false

/-- The last answer for a line is in: its old position goes, and with it what was not moved; the new one stands if it holds anything. -/
def endMove (s : State) (p v loc n : Nat) (y : Line) : State :=
  let l := recLine (slotOf s p v).recd
  let gks := lineGrans l y.addr
  let a := agentOfLoc loc
  let b := agentOfLoc n
  if gks.any fun g => s.agenda.any (isMove p v g) then s
  else
    let s := setLines s p v (mdel (slotOf s p v).lines loc)
    let s := gks.foldl (fun s g => release s a g (lineMask l y.addr)) (dropShelter s a y.sp gks)
    match mfind (slotOf s p v).lines n with
    | some z =>
      if lineLive s l n z then putLine s p v n { z with mv := none, sp := if sheltered s b b gks then some b else none }
      else setLines s p v (mdel (slotOf s p v).lines n)
    | none => s

/-- A copy passes from agent a to agent b, and with it the L1 copy of tile b that a's line sheltered; other L1 copies of it go (R71). -/
def passCopy (s : State) (a b gk : Nat) : State :=
  match copyOf s a gk with
  | none => s
  | some c =>
    let s := { s with
      tiles := s.tiles.map fun (i, t) =>
        if i == b then (i, { t with l1 := t.l1.map fun (e : L1E) => if e == ⟨gk, a, false⟩ then ⟨gk, b, false⟩ else e }) else (i, t) }
    setCopy (dropCopy s a gk) b gk c

/-- MOVE (R82) at the home: an entry that names the old agent names the new one. -/
def execMove (part vcid gran old new : Nat) (_dirty : Bool) (s : State) : Host.Outcome State Fault Refusal :=
  .next (match dirOf s gran with
    | some d =>
      if (mfind s.txns gran).isSome || s.fenced.contains old then post s (.mnak part vcid gran)
      else if (vote d).isNone then post (machineCheck s (granStack gran)) (.mnak part vcid gran)
      else if d.bad then post (recallBad s gran d) (.mnak part vcid gran)
      else if !names d old then post s (.mnak part vcid gran)
      else
        let d := if d.coarse then coarseAdd d new else { d with ptrs := (d.ptrs.map fun a => if a == old then new else a).eraseDups }
        post (setDir s gran d) (.mack part vcid gran)
    | none => post s (.mnak part vcid gran))

/-- MACK (R82): the copy is valid at the new position, and the old one is free. -/
def execMack (part vcid gran : Nat) (s : State) : Host.Outcome State Fault Refusal :=
  .next (match movingLine (slotOf s part vcid) gran with
    | none => s
    | some (loc, n, y) => endMove (passCopy s (agentOfLoc loc) (agentOfLoc n) gran) part vcid loc n y)

/-- MNAK (R82): the pending copy is discarded; what a probe left at the old position goes too. -/
def execMnak (part vcid gran : Nat) (s : State) : Host.Outcome State Fault Refusal :=
  .next (match movingLine (slotOf s part vcid) gran with
    | none => s
    | some (loc, n, y) => endMove s part vcid loc n y)

/-! ## Drains (R84, R86) -/

/-- DRAIN_SWEEP (R84): one line leaves; lines in transit, in a move or claimed by a copy are waited for. -/
def execDrainSweep (part vcid : Nat) (s : State) : Host.Outcome State Fault Refusal :=
  let x := slotOf s part vcid
  let l := recLine x.recd
  let again (s : State) : State := post s (.drainSweep part vcid)
  .next (if x.st != .draining && x.st != .faulted then s
    else if x.lines.isEmpty then post s (.drainDone part vcid)
    else match x.lines.find? fun (loc, y) => y.mv.isNone && y.cb == 0 && !lineLive s l loc y with
      | some (loc, _) => again (setLines s part vcid (mdel x.lines loc))
      | none => match x.lines.find? fun (loc, y) => lineStable s l loc y with
        | some (loc, _) => again (evictLine s part vcid loc)
        | none => again s)

/-- DRAIN_DONE (R77, R86): the removal or the install that began the drain takes effect; an install that names a segment gone offline, or one that the
partition no longer owns (R54), does not, and the slot stays with the record it drained. -/
def execDrainDone (part vcid : Nat) (s : State) : Host.Outcome State Fault Refusal :=
  let x := slotOf s part vcid
  .next (if !x.lines.isEmpty || (x.st != .draining && x.st != .faulted) then s
    else if x.removing then wakeSlots (setSlot s part vcid Slot.init) part
    else if x.pending && !recordOffline s x.newRecd && !recordForeign s part x.newRecd then
      wakeSlots (setSlot s part vcid { Slot.init with st := .active, recd := x.newRecd }) part
    else wakeSlots (setSlot s part vcid { x with pending := false, newRecd := if x.pending then [] else x.newRecd }) part)

/-! ## Bank errors and shares that go offline (R55, R85 to R87) -/

/-- The die of a bank (R52). -/
def bankDie (bank : Nat) : Nat := if bank < 1024 then bank / 256 else 4 + (bank - 1024) / 256
/-- The partition a segment is granted to. -/
def segOwner (s : State) (bank seg : Nat) : Option Nat :=
  let b := ctlByte s (0x08000000 + 16 * bank + seg)
  if b / 64 % 2 == 1 then some (b % 64) else none

/-- CORRECTED_BANK_ERROR (R55): fixed in place and logged. -/
def execCorrectedBankError (bank seg : Nat) (s : State) : Host.Outcome State Fault Refusal :=
  .next (boxAdd s (bankDie bank) 1 ((segOwner s bank seg).getD 0) 0 0)

/-- A place lies in a share. -/
def inShare (d loc : Nat) : Bool :=
  loc / 2 ^ 20 == shBank d && decide (shFirst d * 65536 ≤ loc % 2 ^ 20) && decide (loc % 2 ^ 20 < (shFirst d + shSegs d) * 65536)

/-- A copy has dirty bytes among those a line shows. -/
def dirtyAt (s : State) (a gk : Nat) (m : BitVec 128) : Bool :=
  match copyOf s a gk with
  | some c => c.st == .m && c.mask &&& m != 0
  | none => false
/-- The dirty bytes m of an agent's copy are lost: what else of it is dirty goes home, the granule is poisoned there, and the directory no longer names the
agent (R85). -/
def loseCopy (s : State) (a gk : Nat) (m : BitVec 128) : State :=
  match copyOf s a gk with
  | some c => delDir (poisonHome (writeGran (dropCopy s a gk) gk ⟨c.data, c.mask &&& ~~~m, true⟩) gk) gk
  | none => s

/-- One line of a share that goes offline, with the counts of clean lines dropped and of dirty lines poisoned. A line in transit is left to the drain. -/
def loseLine (p v l loc : Nat) (y : Line) (a : State × Nat × Nat) : State × Nat × Nat :=
  let (s, dropped, poisoned) := a
  let gks := lineGrans l y.addr
  let ag := agentOfLoc loc
  let m := lineMask l y.addr
  if y.mv.isSome || (mfind (slotOf s p v).lines loc).isNone then a
  else
    let dirty := gks.any fun g => dirtyAt s ag g m
    let live := lineLive s l loc y
    let k := gks.foldl (fun s g => if dirtyAt s ag g m then loseCopy s ag g m else s) (dropShelter s ag y.sp gks)
    let stable := lineStable k l loc y
    (if stable then evictLine k p v loc else k, if !dirty && live && stable then dropped + 1 else dropped, if dirty then poisoned + 1 else poisoned)

/-- The shares of a slot's records that include a segment: descriptor numbers and descriptors, a share of both records once. -/
def sharesOf (x : Slot) (k : Nat) : List (Nat × Nat) :=
  if x.st == .empty then []
  else
    let find (r : List Word) : List (Nat × Nat) := ((List.range (recNsh r)).map fun j => (j, recShare r j)).filter fun y => (shareSegs y.2).contains k
    let new := find x.newRecd
    new ++ (find x.recd).filter fun y => !new.any fun z => z.2 == y.2

/-- A share of a slot goes offline: its lines go, and the supervisor has its record (R85, R87). -/
def loseShare (p v bank seg : Nat) (revoked : Bool) (s : State) (y : Nat × Nat) : State :=
  let x := slotOf s p v
  let (s, dropped, poisoned) := (x.lines.filter fun z => inShare y.2 z.1).foldl (fun a z => loseLine p v (recLine x.recd) z.1 z.2 a) (s, 0, 0)
  bankRecord s p v y.1 revoked bank seg dropped poisoned

/-- SHARE_OFFLINE (R85 to R87) of one slot: each of its shares that includes the segment goes offline, with one record for each that was not offline
before; the slot is FAULTED and drains. Segments in off were offline before. -/
def shareOffline (s : State) (p v bank seg : Nat) (off : List Nat) (revoked : Bool) : State :=
  match sharesOf (slotOf s p v) (bank * 16 + seg) with
  | [] => s
  | l =>
    let s := setSlot s p v { slotOf s p v with st := .faulted }
    let s := (l.filter fun y => !(shareSegs y.2).any off.contains).foldl (loseShare p v bank seg revoked) s
    postOnce s (.drainSweep p v)

/-- A segment goes offline, and with it every share that includes it. -/
def segmentOffline (s : State) (bank seg : Nat) (revoked : Bool) : State :=
  let s := boxAdd s (bankDie bank) 2 ((segOwner s bank seg).getD 0) 0 0
  let k := bank * 16 + seg
  let off := s.offline
  let s := { s with offline := if off.contains k then off else k :: off }
  s.parts.foldl (fun s (p, x) => x.slots.foldl (fun s (v, _) => shareOffline s p v bank seg off revoked) s) s

/-- UNCORRECTABLE_BANK_ERROR (R55, R85). -/
def execUncorrectableBankError (bank seg : Nat) (s : State) : Host.Outcome State Fault Refusal :=
  .next (if s.offline.contains (bank * 16 + seg) then s else segmentOffline s bank seg false)

end Sys2Proof.Machine
end

