-- ==== Sys2Proof/Machine/Coherence.lean ====
section
/-! DEFINITION. The steps of the coherence protocol (R99 to R105), of the host over CXL (R121 to R124), and of agents that die (R125 to R129). -/

namespace Sys2Proof.Machine
open Sys2Proof

/-! ## Messages (R101 to R103, R94) -/

/-- GETS (R101). -/
def execGets (agent gran : Nat) (s : State) : Host.Outcome State Fault Refusal := .next (onGets s agent gran)
/-- GETM (R101). -/
def execGetm (agent gran : Nat) (s : State) : Host.Outcome State Fault Refusal := .next (onGetm s agent gran)
/-- UPG (R101). -/
def execUpg (agent gran : Nat) (s : State) : Host.Outcome State Fault Refusal := .next (onUpg s agent gran)
/-- PUTS (R101). -/
def execPuts (agent gran : Nat) (s : State) : Host.Outcome State Fault Refusal := .next (onPuts s agent gran)
/-- PUTM (R101, R104). -/
def execPutm (agent gran : Nat) (d : GData) (s : State) : Host.Outcome State Fault Refusal := .next (onPutm s agent gran d)
/-- RDAT (R101). -/
def execRdat (agent gran : Nat) (d : Option GData) (s : State) : Host.Outcome State Fault Refusal := .next (onRdat s agent gran d)
/-- DONE (R101). -/
def execDone (agent gran : Nat) (s : State) : Host.Outcome State Fault Refusal := .next (onDone s agent gran)
/-- DATA (R102, R103). -/
def execData (agent gran : Nat) (st : Grant) (acks : Nat) (d : GData) (s : State) : Host.Outcome State Fault Refusal :=
  .next (onData s agent gran st acks d)
/-- GNT (R102, R103). -/
def execGnt (agent gran acks : Nat) (s : State) : Host.Outcome State Fault Refusal := .next (onGnt s agent gran acks)
/-- INV (R98, R102). -/
def execInv (agent gran req part : Nat) (s : State) : Host.Outcome State Fault Refusal := .next (onInv s agent gran req part)
/-- RCLS (R102). -/
def execRcls (agent gran part : Nat) (s : State) : Host.Outcome State Fault Refusal := .next (onRcls s agent gran part)
/-- RCLI (R102). -/
def execRcli (agent gran part : Nat) (s : State) : Host.Outcome State Fault Refusal := .next (onRcli s agent gran part)
/-- IACK (R103). -/
def execIack (req agent gran : Nat) (s : State) : Host.Outcome State Fault Refusal := .next (onIack s req agent gran)
/-- PACK (R102). -/
def execPack (agent gran : Nat) (s : State) : Host.Outcome State Fault Refusal := .next (onPack s agent gran)
/-- ERR (R94). -/
def execErr (agent gran : Nat) (s : State) : Host.Outcome State Fault Refusal := .next (onErr s agent gran)

/-! ## The host over CXL.mem (R122, R123) -/

/-- The granule's current data, wherever they stand, with its poison. -/
def currentData (s : State) (gk : Nat) : GData :=
  { data := BitVec.ofNat 1024 (leNat ((List.range 128).map fun i => peek s (gk * 128 + i))), mask := 0
    psn := s.psn.contains gk || (copiesOf s gk).any fun (_, c) => c.st == .m && c.psn }

/-- HOST_MEM_READ (R122): SnpData is GETS, SnpInv GETM of agent 576; the others take the current data and leave the entry. -/
def execHostMemRead (gran : Nat) (snp : HostSnp) (s : State) : Host.Outcome State Fault Refusal :=
  let now (s : State) : State := send s (.host 16 gran (some (currentData s gran)))
  .next (match snp with
    | .data => onGets s hostAgent gran
    | .inv => onGetm s hostAgent gran
    | _ =>
      match gate s hostAgent gran false (.hostMemRead gran snp) with
      | .done s => s
      | .pass =>
        match dirOf s gran with
        | some d =>
          if d.owned && d.ptrs.headD hostAgent != hostAgent then
            let k := recallShared s gran
            if (mfind k.txns gran).isSome then waitOn k gran (.hostMemRead gran snp) else now k
          else now s
        | none => now s)

/-- HOST_MEM_INV (R122): UPG of agent 576. -/
def execHostMemInv (gran : Nat) (s : State) : Host.Outcome State Fault Refusal := .next (onUpg s hostAgent gran)

/-- HOST_MEM_WRITE (R122): PUTM of agent 576 under its byte mask; a full line clears PSN (R107). Dirty data that come before the host's answer to a
back-invalidate snoop belong to that answer: no piece holds them. -/
def execHostMemWrite (gran : Nat) (d : GData) (s : State) : Host.Outcome State Fault Refusal :=
  .next (if s.fenced.contains hostAgent then s
    else match (if s.bis.any fun x => x.1 == gran then .free else clash s gran true hostAgent 100 (some (.hostMemWrite gran d, 0))) with
      | .trap => refuse s hostAgent gran cRSVC
      | .held s => s
      | .free =>
        if isHostGran gran || !homeAllows s hostAgent gran then refuse (logHome s 0 (gran * 128)) hostAgent gran (cPROT + 256 * 4)
        else send (onPutm s hostAgent gran d) (.host 17 gran none))

/-- HOST_MEM_CLEAN_EVICT (R122): PUTS of agent 576, subject to HOSTOK (R93). -/
def execHostMemCleanEvict (gran : Nat) (s : State) : Host.Outcome State Fault Refusal :=
  .next (if s.fenced.contains hostAgent then s
    else if isHostGran gran || !homeAllows s hostAgent gran then refuse (logHome s 0 (gran * 128)) hostAgent gran (cPROT + 256 * 4)
    else onPuts s hostAgent gran)

/-- BI_RESPONSE (R122): the host's acknowledgement of an invalidation, or its answer to a recall with the dirty data that came before it. -/
def execBiResponse (gran : Nat) (keeps : Bool) (d : Option GData) (s : State) : Host.Outcome State Fault Refusal :=
  .next (match s.bis.find? fun x => x.1 == gran with
    | none => s
    | some x =>
      let s := { s with bis := s.bis.erase x }
      if x.2 != 1024 then post s (.iack x.2 hostAgent gran)
      else
        let s := match mfind s.txns gran with
          | some t => if keeps then s else { s with txns := mput s.txns gran { t with leave := hostAgent :: t.leave } }
          | none => s
        onRdat s hostAgent gran d)

/-- BI_CONFLICT (R123): the crossing request counts as later than the snoop's answer: it waits in B, and the host is told. -/
def execBiConflict (gran : Nat) (s : State) : Host.Outcome State Fault Refusal := .next (send s (.host 18 gran none))

/-! ## The host over CXL.cache (R124) -/

/-- What stands before a snoop of a host granule: a transaction, a Cinch piece, an entry in error; none: it is served now. -/
def snoopGate (s : State) (gk : Nat) (wr : Bool) (e : Event) : Option State :=
  if (mfind s.txns gk).isSome then some (waitOn s gk e)
  else match clash s gk wr hostAgent 100 (some (e, 0)) with
    | .trap => some (send s (.host 8 gk none))
    | .held s => some s
    | .free =>
      match dirOf s gk with
      | none => none
      | some d =>
        if (vote d).isNone then some (machineCheck s (granStack gk))
        else if d.bad then some (waitOn (recallBad s gk d) gk e)
        else none

/-- H2D_SNP_DATA (R124): RCLS to the owner, or none. -/
def execH2dSnpData (gran : Nat) (s : State) : Host.Outcome State Fault Refusal :=
  .next (if s.fenced.contains hostAgent then s else match snoopGate s gran false (.h2dSnpData gran) with
    | some s => s
    | none =>
      let k := recallSharedFor s gran hostAgent
      if (mfind k.txns gran).isSome then k else send k (.host 14 gran none))

/-- H2D_SNP_INV (R124): every holder is invalidated, then the answer goes; the host may write the granule from then on, which monitors are told (R279). -/
def execH2dSnpInv (gran : Nat) (s : State) : Host.Outcome State Fault Refusal :=
  .next (if s.fenced.contains hostAgent then s else match snoopGate s gran true (.h2dSnpInv gran) with
    | some s => s
    | none =>
      let k := recallFor s gran hostAgent
      if (mfind k.txns gran).isSome then k else notifyGran (send k (.host 12 gran none)) gran)

/-- H2D_SNP_CUR (R124): the current data; states unchanged. -/
def execH2dSnpCur (gran : Nat) (s : State) : Host.Outcome State Fault Refusal :=
  .next (if s.fenced.contains hostAgent then s else match snoopGate s gran false (.h2dSnpCur gran) with
    | some s => s
    | none => send s (.host 16 gran (some (currentData s gran))))

/-- H2D_RESPONSE (R124): the host's data, or the ownership alone, for a request that waits; the host's memory holds that value. -/
def execH2dResponse (gran : Nat) (d : GData) (s : State) : Host.Outcome State Fault Refusal :=
  .next (if s.fenced.contains hostAgent then s else match mfind s.txns gran with
    | some t =>
      if t.kind == 6 || t.kind == 7 then settle (notifyGran (writeGran s gran { d with mask := BitVec.allOnes 128 }) gran) gran t
      else if t.kind == 10 then settle s gran t
      else s
    | none => s)

/-! ## Dead agents (R125 to R129) -/

/-- A probe of the agent for the granule, or its acknowledgement to the home, is on its way. -/
def probing (a gk : Nat) (e : Event) : Bool :=
  match e with
  | .inv b g _ _ => b == a && g == gk
  | .rcls b g _ => b == a && g == gk
  | .rcli b g _ => b == a && g == gk
  | .iack r b g => r == homeMark && b == a && g == gk
  | _ => false

/-- The home answers for the fenced agent in one transaction (R126): a recall with poison, an invalidation, the host's data, which are poisoned, or the DONE
it owes. -/
def fenceTxn (a : Nat) (s : State) (x : Nat × Txn) : State :=
  let (gk, t) := x
  if t.due.contains a then
    if s.agenda.any (probing a gk) then s
    else if t.kind == 6 || t.kind == 7 then answered (poisonHome s gk) a gk
    else if match dirOf s gk with | some d => d.owned | none => false then answered (if t.kind == 5 then s else poisonHome s gk) a gk
    else answered s a gk
  else if t.kind == 0 && t.req == a then settle s gk t
  else s

/-- A Cinch piece of a fenced holder ends (R128): unreleased lines of write intent are poisoned; held requests are served. -/
def fencePiece (s : State) (x : PieceT) : State :=
  let s := if x.wr then (pieceGrans x).foldl poisonHome s else s
  takeHeld { s with pieces := s.pieces.filter fun y => y.id != x.id } x.held

/-- The partitions whose supervisors are told of an agent (R125). -/
def agentParts (s : State) (a : Nat) : List Nat :=
  below 64 fun p => ptState s p == 1 && (if a < 512 then inTileSet s p a else if a < hostAgent then holdsPool s p (a - 512) else true)
def agentDie (a : Nat) : Nat := if a < 512 then a / 128 else if a < hostAgent then 4 + (a - 512) / 16 else 8

/-- AGENT_FENCE (R125, R126): the homes answer for it, its Cinches end, it is logged and told, and the scrub begins. -/
def fenceAgent (s : State) (a : Nat) : State :=
  if s.fenced.contains a then s
  else
    let l := agentParts s a
    let s := boxAdd { s with fenced := a :: s.fenced } (agentDie a) 5 (l.headD 0) 0 a
    let s := send s (.notice 5 (l.headD 0) a)
    let s := l.foldl (fun s p => noticeRecord s p 1 a 0 0) s
    let s := s.txns.foldl (fenceTxn a) s
    let s := if a == hostAgent then
        { s with bis := [], agenda := s.agenda ++ (s.bis.filter fun x => x.2 < homeMark).map fun x => Event.iack x.2 a x.1 }
      else s
    let s := if a < 512 then (s.pieces.filter fun x => x.tile == a).foldl fencePiece { s with cinches := s.cinches.filter fun x => x.tile != a } else s
    (List.range 4).foldl (fun s k => postOnce (setStack s k { stackOf s k with scrub := (stackOf s k).scrub ++ [(a, 0)] }) (.scrubStep k)) s

/-- HEARTBEAT_MISS (R125): misses are consecutive when less than two periods of 240,000 clocks lie between them; missed holds 4 * clock + misses. -/
def execHeartbeatMiss (agent : Nat) (s : State) : Host.Outcome State Fault Refusal :=
  let m := mgetD s.missed agent 0
  let n := (if s.clock < m / 4 + 480000 then m % 4 else 0) + 1
  .next (if 3 ≤ n then fenceAgent { s with missed := mdel s.missed agent } agent
    else { s with missed := mput s.missed agent (4 * s.clock + n) })

/-- HOST_LINK_FAIL (R125). -/
def execHostLinkFail (_link : Nat) (s : State) : Host.Outcome State Fault Refusal := .next (fenceAgent s hostAgent)

/-- The entry of one granule meets the scrub for agent a (R127); the entry is read as for a request (R108, R129). -/
def scrubEntry (a : Nat) (s : State) (gk : Nat) : State :=
  match dirOf s gk with
  | none => s
  | some d =>
    if (mfind s.txns gk).isSome then s
    else if (vote d).isNone then machineCheck s (granStack gk)
    else if d.bad then recallBad s gk d
    else if d.coarse || !d.ptrs.contains a then s
    else if d.owned then givenBack (delDir (poisonHome s gk) gk) gk true
    else if d.ptrs.length == 1 then givenBack (delDir s gk) gk false
    else setDir s gk { d with ptrs := d.ptrs.filter (· != a) }

/-- SCRUB_STEP (R127): entry after entry; the model treats the 16 ways of a set as it reaches the first. -/
def execScrubStep (stack : Nat) (s : State) : Host.Outcome State Fault Refusal :=
  let x := stackOf s stack
  .next (match x.scrub with
    | [] => s
    | (a, i) :: r =>
      let s := if i % 16 == 0 then
          ((s.dir.map (·.1)).filter fun g => granStack g == stack && g % 2 ^ 17 == i / 16).foldl (scrubEntry a) s
        else s
      let l := if i + 1 == 2 ^ 21 then r else (a, i + 1) :: r
      let s := setStack s stack { stackOf s stack with scrub := l }
      if l.isEmpty then s else post s (.scrubStep stack))

/-- AGENT_READMIT (R127): once every home has scrubbed, the agent returns, its caches empty. -/
def execAgentReadmit (agent : Nat) (s : State) : Host.Outcome State Fault Refusal :=
  let busy := (List.range 4).any fun k => (stackOf s k).scrub.any fun x => x.1 == agent
  .next (if busy || !s.fenced.contains agent then s
    else
      let s := { s with
        fenced := s.fenced.filter (· != agent), missed := mdel s.missed agent
        copies := s.copies.filter fun (k, _) => k / 2 ^ 46 != agent
        tiles := s.tiles.map fun (i, t) => (i, { t with l1 := t.l1.filter fun x => x.agent != agent }) }
      if agent < 512 then setTile s agent { tileOf s agent with l1 := [], ic := [], gtlb := [], itlb := [] } else s)

end Sys2Proof.Machine
end

