-- ==== Sys2Proof/Machine/Pod.lean ====
section
/-! DEFINITION. Pod operations between packages: those that arrive (R51, R434), answers, the pod merge buffer (R383), multicast (R384, R385), the
elements of the cluster routers (R370 to R377), and the crossbar and the links (R168, R381). -/

namespace Sys2Proof.Machine
open Sys2Proof

/-! ## Operations that arrive (R51, R364, R434) -/

/-- The unit that performs incoming operations at a home: it is no agent. -/
def whoPod (q : Nat) (ev : Event) : Who := { tile := 1000, part := q, unit := 100, l1 := false, ev := some (ev, 0) }
def podKey (p : PodIn) : Nat × Nat × Nat := (p.pkg, p.otile, p.ocmd)
/-- The admitted operation is this message's: it goes on where the message does. -/
def PodAdm.isOf (a : PodAdm) (p : PodIn) : Bool := a.key == podKey p && a.at' == p.va

/-- The peer mapping admits the operation, and its partition runs (R434). -/
def podAdmits (s : State) (p : PodIn) : Bool :=
  p.pkg != ownPkg s && decide (p.part < 64) && bitOf (ptWord s p.part 0) 0 && ptState s p.part == 1 && peerOf s p.part p.pkg == some p.opart
/-- The counter of its tag is the target partition's (R364). -/
def podTagOk (s : State) (p : PodIn) : Bool :=
  match p.tag with
  | none => true
  | some g => ownsCounter s p.part g.tt.toNat g.tk.toNat

/-- The stack an incoming operation is homed on: that of the byte its partition's tables name (R33, R51); where they name none, the stack of bits [38:37]
of the address, as nothing is performed then (notes/assumptions/38.md). -/
def podStack (s : State) (q : Nat) (va : Word) (k : AccKind) : Nat :=
  let at' (x : Xlat) : Nat := homeStack (x.pk va)
  match (List.range 4).findSome? fun st => (stackOf s st).llc.find? fun x => x.covers (asidOf s q) va && at' x == st with
  | some x => at' x
  | none => match walk s 0 q va k false with
    | .ok _ x => at' x
    | .fault _ _ _ => va.toNat / 2 ^ 37 % 4

/-- Translation of an incoming access in user mode by its target stack: a memory page with PIN = 1; one walk again where a cached translation fails
(R51). -/
def podXlate (s : State) (q : Nat) (va : Word) (k : AccKind) : TrRes :=
  let st := podStack s q va k
  let fits (x : Xlat) : Bool := x.pin && !x.io
  let again (s : State) : TrRes :=
    match llcWalk s st q va k false with
    | .ok s x => if fits x then .ok s x else .fault s cPROT 0
    | r => r
  if !canonical va then .fault s cPROT 2
  else match (stackOf s st).llc.find? fun x => x.covers (asidOf s q) va with
    | some x => if serves x k false && fits x then useXlat s x va k else again s
    | none => again s

/-- Pieces an incoming operation translates to, or the address that is refused. -/
inductive PodTr where
  | ok (s : State) (xs : List Piece)
  | bad (s : State) (va : Word)
deriving DecidableEq, Repr

/-- The pieces of [va, va + n), granule by granule, served at their homes, or the first address where a page refuses. -/
def podPieces (s : State) (q : Nat) (va : Word) (n : Nat) (k : AccKind) (fuel : Nat) : PodTr :=
  match fuel with
  | 0 => .ok s []
  | f + 1 =>
    if n == 0 then .ok s []
    else
      let m := min n (128 - va.toNat % 128)
      match podXlate s q va k with
      | .fault s _ _ => .bad s va
      | .ok s x =>
        match podPieces s q (va + BitVec.ofNat 64 m) (n - m) k f with
        | .ok s l => .ok s (⟨x.pk va, m, 64, va, false⟩ :: l)
        | r => r

/-- The answer goes back to the origin. -/
def podDone (s : State) (p : PodIn) (neg : Bool) (bs : List Byte) : State :=
  send { s with admitted := s.admitted.filter fun a => !a.isOf p } (.podAnswer p.pkg p.otile p.ocmd neg bs)
/-- A refused operation is logged at the home die of the address va that refuses it, and answered negatively (R51, R442). -/
def podRefuse (s : State) (p : PodIn) (va : Word) (k : AccKind) : State :=
  podDone (boxAdd s (4 + podStack s p.part va k) 4 p.part va.toNat 0) p true []
/-- n raises of an operation's tag. -/
def podRaise (s : State) (p : PodIn) (n : Nat) : State :=
  match p.tag with
  | some g => if n == 0 then s else post s (.counterRaise g.tt.toNat g.tk.toNat (BitVec.ofNat 64 n))
  | none => s
/-- Performed: the raises of the tag follow the payload (R159, R364). -/
def podPerformed (s : State) (p : PodIn) (bs : List Byte) : State := podDone (podRaise s p p.raises) p false bs
/-- A page refuses an admitted operation: those of its raises that say OE = 1 may be made all the same (R366, R458). -/
def podPageRefused (s : State) (p : PodIn) (va : Word) (k : AccKind) : State :=
  if p.oe == 0 then podRefuse s p va k
  else podRefuse (podRaise (drew s) p (if Config.raiseRefused s.free then p.oe else 0)) p va k

def admittedOp (s : State) (p : PodIn) : Option PodAdm := s.admitted.find? (·.isOf p)
/-- The pieces an admitted operation has still to perform, from address va on; a new one takes its place in the order of arrival. -/
def letIn (s : State) (p : PodIn) (va : Word) (xs : List Piece) (wr : Bool) : State :=
  { s with admitted := if s.admitted.any (·.isOf p) then s.admitted.map fun a => if a.isOf p then { a with pieces := xs, at' := va } else a
                       else s.admitted ++ [⟨podKey p, p.part, va, p.tag, xs, wr⟩] }
/-- An operation that came before it on the same circuit has bytes of its own there still to perform (R166). -/
def podBehind (s : State) (p : PodIn) (xs : List Piece) : Bool :=
  (s.admitted.takeWhile fun a => !a.isOf p).any fun a => a.wr && a.key.1 == p.pkg && a.key.2.1 == p.otile && overlap a.pieces xs
/-- Its raises wait for the payloads, and with them the raises, of what came before it from that package for the same counter (R159, R366). -/
def raisesWait (s : State) (p : PodIn) : Bool :=
  p.raises != 0 && p.tag.isSome && (s.admitted.takeWhile fun a => !a.isOf p).any fun a => a.wr && a.key.1 == p.pkg && a.part == p.part && a.tag == p.tag

/-- The checks before anything is performed: the peer mapping, the tag, and the translation of every page, so that an operation that fails one has no
effect on memory (R51, R434). An operation already admitted goes on with its pieces; one whose bytes overlap an earlier one of its circuit waits for
that (R166). ev is the operation itself. -/
def podEnter (s : State) (p : PodIn) (n : Nat) (k : AccKind) (ev : Event) (f : State → List Piece → State) : State :=
  let go (s : State) (xs : List Piece) : State := if k != .read && podBehind s p xs then postOnce s ev else f s xs
  match admittedOp s p with
  | some a => go s a.pieces
  | none =>
    if !podAdmits s p || !podTagOk s p then podRefuse s p p.va k
    else match podPieces s p.part p.va n k (n / 128 + 2) with
      | .bad s va => podPageRefused s p va k
      | .ok s xs => go (letIn s p p.va xs (k != .read)) xs

/-- One granule of an operation that writes; the rest, or the raises it waits with, follow as an event of their own. -/
def podPart (p : PodIn) (xs : List Piece) (s : State) (act : Piece → Acc) (again : PodIn → Nat → Event) : State :=
  match xs with
  | [] => if raisesWait s p then postOnce s (again p 0) else podPerformed s p []
  | x :: r =>
    match act x with
    | .wait s => retry s (again p 0, 0)
    | .err s _ _ => podDone s p true []
    | .ok s _ =>
      let va := p.va + BitVec.ofNat 64 x.n
      if r.isEmpty && !raisesWait s p then podPerformed s p [] else post (letIn s p va r true) (again { p with va } x.n)

/-- INCOMING_PUT (R51). -/
def execIncomingPut (p : PodIn) (bytes : List (BitVec 8)) (s : State) : Host.Outcome State Fault Refusal :=
  .next (podEnter s p bytes.length .write (.incomingPut p bytes) fun s xs =>
    podPart p xs s (fun x => accWrite s (whoPod p.part (.incomingPut p bytes)) x (bytes.take x.n) true) fun p n => .incomingPut p (bytes.drop n))

/-- INCOMING_MCAST (R385): a member writes and answers. -/
def execIncomingMcast (p : PodIn) (bytes : List (BitVec 8)) (s : State) : Host.Outcome State Fault Refusal :=
  .next (podEnter s p bytes.length .write (.incomingMcast p bytes) fun s xs =>
    podPart p xs s (fun x => accWrite s (whoPod p.part (.incomingMcast p bytes)) x (bytes.take x.n) true) fun p n => .incomingMcast p (bytes.drop n))

/-- INCOMING_GET (R51). -/
def execIncomingGet (p : PodIn) (len : Nat) (s : State) : Host.Outcome State Fault Refusal :=
  .next (podEnter s p len .read (.incomingGet p len) fun s xs =>
    match accReads s (whoPod p.part (.incomingGet p len)) xs with
    | .wait s => retry s (.incomingGet p len, 0)
    | .err s _ _ => podDone s p true []
    | .ok s bs => podPerformed s p bs)

/-- INCOMING_RAMO (R51, R106): at the home's atomic unit; the old value is returned. -/
def execIncomingRamo (p : PodIn) (func : Nat) (dword : Bool) (operand cmp : BitVec 64) (s : State) : Host.Outcome State Fault Refusal :=
  .next (podEnter s p (if dword then 8 else 4) .amo (.incomingRamo p func dword operand cmp) fun s xs =>
    match xs with
    | [x] =>
      match accRmw s (whoPod p.part (.incomingRamo p func dword operand cmp)) x (amoBytes func dword operand cmp) with
      | .wait s => retry s (.incomingRamo p func dword operand cmp, 0)
      | .err s _ _ => podDone s p true []
      | .ok s bs => podPerformed s p bs
    | _ => podRefuse s p p.va .amo)

/-- The elements of one granule of an RRED, one RMW each. -/
def rredPiece (s : State) (w : Who) (f n : Nat) (x : Piece) (bs : List Byte) (fuel : Nat) : Acc :=
  match fuel with
  | 0 => .ok s []
  | k + 1 =>
    if x.n < n then .ok s []
    else match accRmw s w { x with n := n } fun old => some (leBytes n (redNew f n (leNat old) (leNat (bs.take n)))) with
      | .ok s _ => rredPiece s w f n { x with pk := x.pk + n, n := x.n - n, va := x.va + BitVec.ofNat 64 n } (bs.drop n) k
      | r => r

/-- INCOMING_RRED (R51). -/
def execIncomingRred (p : PodIn) (func : Nat) (dword : Bool) (bytes : List (BitVec 8)) (s : State) : Host.Outcome State Fault Refusal :=
  let n := if func == 9 then 2 else if dword then 8 else 4
  .next (podEnter s p bytes.length .amo (.incomingRred p func dword bytes) fun s xs =>
    podPart p xs s (fun x => rredPiece s (whoPod p.part (.incomingRred p func dword bytes)) func n x bytes 64) fun p m => .incomingRred p func dword (bytes.drop m))

/-! ## Answers (R355, R375, R383) -/

/-- The partition whose command, on the tile or in a saved context, has this number. -/
def cmdPart (s : State) (t id : Nat) : Option Nat :=
  match cmdOf s t id with
  | some c => some c.part
  | none => (s.shadow.find? fun (k, c) => k / 64 == t && c.tile.cq.any fun d => d.id == id).map fun (k, _) => k % 64

/-- The answer of a command's pod operation: the word it may write is the old value of a RAMO as an AMO extends it, or the count of a MCAST. -/
def commandAnswer (s : State) (t id : Nat) (neg : Bool) (bs : List Byte) (nneg low : Nat) : State :=
  match cmdPart s t id with
  | none => s
  | some p => withTile s t p fun s =>
    match cmdOf s t id with
    | none => s
    | some c =>
      let word := if c.k == cRAMO then amoResult c.func c.comp.sz (leNat bs) else BitVec.ofNat 64 (nneg + (if nneg == 0 then 0 else low * 2 ^ 16))
      podAnswered s t id (neg || nneg != 0) bs word

/-- An entry of the pod merge buffer is answered: once for each message it went out in. -/
def mergeAnswer (s : State) (id : Nat) (neg : Bool) : State :=
  match s.podMerge.find? fun m => m.id == id with
  | none => s
  | some m =>
    if 1 < m.due then { s with podMerge := s.podMerge.map fun x => if x.id == id then { m with due := m.due - 1, neg := m.neg || neg } else x }
    else m.cmds.foldl (fun s c => commandAnswer s c.1 c.2 (m.neg || neg) [] 0 0) { s with podMerge := s.podMerge.filter fun x => x.id != id }

/-- One contribution of an element is answered (R375): a merge entry (origin 4 i), a store-buffer entry (4 i + 1) or a command (4 i + 2). -/
def originAnswer (s : State) (y : RElem) (neg : Bool) (z : Nat × Option Nat × Nat) : State :=
  let t := y.cluster * 8 + z.1
  let id := z.2.2 / 4
  let neg := neg && z.2.1.isSome
  match z.2.2 % 4 with
  | 0 => withTile s t y.part fun s =>
    match mfind (tileOf s t).merge id with
    | none => s
    | some e =>
      let s := setTile s t { tileOf s t with merge := mput (tileOf s t).merge id { e with due := e.due - 1 } }
      if neg then faultRecord s y.part
          { cause := cPROT, src := 6, unit := 0, tile := t, va := e.va + BitVec.ofNat 64 (y.pa % 128), tag := 0, body := y.pa % 2 ^ 52 + (e.harts.headD ⟨0, 0, 0, true, 0⟩).hart * 2 ^ 64 }
      else s
  | 1 =>
    match s.harts.find? fun (i, h) => i / 16 == t && h.sb.any fun e => e.id == id with
    | none => s
    | some (i, h) =>
      match h.sb.find? fun e => e.id == id with
      | none => s
      | some e => entryDone (if neg then refuseEntry s i e ⟨y.pa, 4, 64, e.va, false⟩ cPROT else s) i e
  | _ => commandAnswer s t id neg [] 0 0

/-- ROUTER_ANSWER (R375): the element's answer completes everything it carries. -/
def relemAnswer (s : State) (cluster elem : Nat) (neg : Bool) : State :=
  match s.relems.find? fun y => y.cluster == cluster && y.elem == elem with
  | none => s
  | some y => y.vals.foldl (fun s z => originAnswer s y neg z) { s with relems := s.relems.filter fun x => !(x.cluster == cluster && x.elem == elem) }
def execRouterAnswer (cluster elem : Nat) (neg : Bool) (s : State) : Host.Outcome State Fault Refusal := .next (relemAnswer s cluster elem neg)

/-- POD_ANSWER (R355): for a command of a tile, an element of cluster tile - 512, or a pod merge entry (tile 1024). -/
def execPodAnswer (tile cmd : Nat) (neg : Bool) (bytes : List (BitVec 8)) (nneg low : Nat) (s : State) : Host.Outcome State Fault Refusal :=
  .next (if 1024 ≤ tile then mergeAnswer s cmd neg
    else if 512 ≤ tile then relemAnswer s (tile - 512) cmd neg
    else commandAnswer s tile cmd neg bytes nneg low)

/-! ## The pod merge buffer (R383) -/

/-- The elements of an entry as runs of consecutive ones: offset and bytes. -/
def mergeRuns (n : Nat) (l : SMap Nat) : List (Nat × List Byte) :=
  match l with
  | [] => []
  | (o, v) :: r =>
    match mergeRuns n r with
    | (o', bs) :: q => if o + n == o' then (o, leBytes n v ++ bs) :: q else (o, leBytes n v) :: (o', bs) :: q
    | [] => [(o, leBytes n v)]

/-- An entry of the pod merge buffer may leave (R383): every command with an element in it has issued all of them, its room is needed or a join marker is
about to pass it, or 4,096 clocks have passed. -/
def mergeReady (s : State) (m : PodM) : Bool :=
  m.going || decide (m.born + 4096 ≤ s.clock) || m.cmds.all fun c => match anyCmd s c.1 c.2 with | some c => c.retry | none => true

/-- POD_MERGE_SEND (R383): the entry goes out, one message for each run of elements; the raises go with the last. -/
def execPodMergeSend (idx : Nat) (s : State) : Host.Outcome State Fault Refusal :=
  .next (match s.podMerge.find? fun m => m.id == idx with
    | none => s
    | some m =>
      if m.sent then s
      else match peerOf s m.part m.dpkg with
        | none => mergeAnswer s idx true
        | some q =>
          if pathFenced s m.dpkg then mergeAnswer s idx true
          else if pathWaits s m.dpkg || !mergeReady s m then post s (.podMergeSend idx)
          else match raisesOf s m.tag m.cmds with
            | none => post s (.podMergeSend idx)
            | some (n, oe) =>
              let runs := mergeRuns m.bytes m.vals
              let s := { s with podMerge := s.podMerge.map fun x => if x.id == idx then { m with sent := true, due := runs.length } else x }
              (runs.zipIdx).foldl (fun s ((o, bs), i) =>
                let last (k : Nat) : Nat := if i + 1 == runs.length then k else 0
                send s (.pod 1024 idx (cRRED + 16 * m.func + 256 * (m.bytes == 8).toNat) m.part m.dpkg q (BitVec.ofNat 64 (m.gran * 128 + o)) bs.length
                  (packetsOf m.dpkg 3 none bs 1) m.tag (last n) (last oe))) s)

/-! ## Multicast (R384, R385) -/

/-- The entry of a partition's group, and its members, the origin package left out. -/
def groupIndex (s : State) (p g : Nat) : Nat := bits (ptWord s p 0) 39 32 * 256 + g
def groupMembers (s : State) (p g : Nat) : List Nat :=
  let m := mgetD s.groups (groupIndex s p g) 0
  below 512 fun n => m.toNat / 2 ^ n % 2 == 1 && n != ownPkg s

/-- The switch's one answer to the origin, when every member has answered every packet (R385, R455). -/
def mcastDone (s : State) (m : McastT) : State :=
  if m.more || !m.due.isEmpty then { s with mcasts := s.mcasts.map fun x => if x.tile == m.tile && x.cmd == m.cmd then m else x }
  else post { s with mcasts := s.mcasts.filter fun x => !(x.tile == m.tile && x.cmd == m.cmd) } (.podAnswer m.tile m.cmd false [] m.neg.length (m.neg.foldl min 511))

/-- A packet of an MCAST to member n, or the answer given for it where it has no mapping or no path reaches it. The last packet raises the tag's counter at the
members that have answered no packet negatively. -/
def mcastTo (s : State) (c : Cmd) (m : McastT) (i : Nat) (n : Nat) : State :=
  let bs := (c.buf.drop (256 * i)).take 256
  let r := if !m.more && c.tag.isSome && m.members.contains n && !m.neg.contains n then 1 else 0
  let no : State := post s (.mcastMemberAnswer c.tile c.id n true)
  match peerOf s c.part n with
  | some q =>
    if s.xbarFenced || s.linksDown.contains n then no
    else send s (.pod c.tile c.id cMCAST c.part n q (c.gb + BitVec.ofNat 64 (256 * i)) bs.length (packetsOf (ownPkg s) 3 (some (groupIndex s c.part c.dpkg)) bs 1) c.tag r 0)
  | none => no

/-- MCAST_ROUTE (R380, R385, R455): the headers of the next packet reach the slices, which read the group entry as it then stands and replicate the packet; of a command
that is swapped out the rest waits. The members counted are those of the first packet; the last packet of a tagged MCAST waits for their answers to the others. -/
def execMcastRoute (tile cmd : Nat) (s : State) : Host.Outcome State Fault Refusal :=
  .next (match cmdOf s tile cmd with
    | none => s
    | some c =>
      let i := c.pos
      if c.k != cMCAST || c.answered || mcastPackets c ≤ i then s
      else
        let l := groupMembers s c.part c.dpkg
        let m := (s.mcasts.find? fun m => m.tile == tile && m.cmd == cmd).getD { tile, cmd, members := l, more := true, due := [], neg := [] }
        let more := decide (i + 1 < mcastPackets c)
        if s.xbarDown || raiseHeld s c || (!more && c.tag.isSome && !m.due.isEmpty) then postOnce s (.mcastRoute tile cmd)
        else
          let m := { m with more, due := m.due ++ l.filter m.members.contains }
          let s := useCircuit { s with mcasts := if i == 0 then s.mcasts ++ [m] else s.mcasts } tile (3 * 1024 + 16 + ownPkg s)
          let s := mcastDone (l.foldl (fun s n => mcastTo s c m i n) (setCmd s { c with pos := i + 1 })) m
          if more then postOnce s (.mcastRoute tile cmd) else s)

/-- MCAST_MEMBER_ANSWER (R385): a member's answer to a packet reaches the slices, which count it once. -/
def execMcastMemberAnswer (tile cmd pkg : Nat) (neg : Bool) (s : State) : Host.Outcome State Fault Refusal :=
  .next (match s.mcasts.find? fun m => m.tile == tile && m.cmd == cmd with
    | none => s
    | some m =>
      if !m.due.contains pkg then s
      else mcastDone s { m with due := m.due.erase pkg, neg := if neg && !m.neg.contains pkg then pkg :: m.neg else m.neg })

/-! ## The cluster routers (R371 to R377) -/

/-- ROUTER_CONTRIBUTION (R372, R373). -/
def execRouterContribution (x : Contrib) (s : State) : Host.Outcome State Fault Refusal := .next (rtContribute s x)

/-- An element that leaves: its combined value goes to its target, or nothing is sent (R373 to R375). -/
def elementOut (s : State) (y : RElem) : State :=
  let ans (s : State) (neg : Bool) : State := post s (.routerAnswer y.cluster y.elem neg)
  let ev : Event := .routerElementTimeout y.cluster y.elem
  let wait (s : State) : State := retry s (ev, 0)
  let gone (s : State) : State := { s with relems := s.relems.map fun x => if x.cluster == y.cluster && x.elem == y.elem then { y with sent := true } else x }
  let n := redBytes y.func
  match y.value with
  | none => ans (gone s) false
  | some v =>
    if y.dpkg == 0x1FF then
      match accRmw s { tile := y.cluster * 8, part := y.part, unit := 100, l1 := false, ev := some (ev, 0) } ⟨y.pa, n, 64, 0, false⟩
          fun old => some (leBytes n (redNew y.func n (leNat old) v)) with
      | .ok s _ => ans (gone s) false
      | .wait s => wait s
      | .err s _ _ => ans (gone s) true
    else match peerOf s y.part y.dpkg with
      | none => ans (gone s) true
      | some q =>
        if pathFenced s y.dpkg then ans (gone s) true
        else if pathWaits s y.dpkg then wait s
        else match raisesOf s y.tag (y.vals.filterMap fun z => if z.2.2 % 4 == 2 then some (y.cluster * 8 + z.1, z.2.2 / 4) else none) with
          | none => wait s
          | some (r, oe) =>
            send (gone s) (.pod (512 + y.cluster) y.elem (cRRED + 16 * y.func) y.part y.dpkg q (BitVec.ofNat 64 y.pa) n (packetsOf y.dpkg 3 none (leBytes n v) 1) y.tag r oe)

/-- ROUTER_ELEMENT_TIMEOUT (R374): an element leaves complete, flushed, or 4,096 clocks after its first contribution. -/
def execRouterElementTimeout (cluster elem : Nat) (s : State) : Host.Outcome State Fault Refusal :=
  .next (match s.relems.find? fun y => y.cluster == cluster && y.elem == elem with
    | none => s
    | some y =>
      if y.sent then s
      else if y.leaving || y.born + 4096 ≤ s.clock then elementOut s { y with leaving := true }
      else post s (.routerElementTimeout cluster elem))

/-- A write of the router within the package: at its home, if its region is the partition's (R93, R377). -/
def copyWrite (s : State) (t p a : Nat) (bs : List Byte) (ev : Event) : Acc :=
  if !deviceMemory a then .err s cPROT 4
  else
    let n := 128 - a % 128
    let xs : List Piece := if bs.length ≤ n then [⟨a, bs.length, 64, 0, false⟩] else [⟨a, n, 64, 0, false⟩, ⟨a + n, bs.length - n, 64, 0, false⟩]
    accWrites s { tile := t, part := p, unit := 100, l1 := false, ev := some (ev, 0) } xs bs true

/-- ROUTER_REPLICATE (R377): the write is performed, then its copies one after another; a refused copy is remembered for the command. -/
def execRouterReplicate (tile part pa : Nat) (bytes : List (BitVec 8)) (s : State) : Host.Outcome State Fault Refusal :=
  let ev : Event := .routerReplicate tile part pa bytes
  let again (s : State) : State := retry s (ev, 0)
  let mine (r : Rep) : Bool := r.tile == tile && r.part == part && r.pa == pa && r.open'
  .next (match s.reps.find? mine with
    | none =>
      match copyWrite s tile part pa bytes ev with
      | .wait s => again s
      | .err s _ _ => s
      | .ok s _ => replicate s { tile, part, unit := 101, l1 := false } pa bytes
    | some r =>
      let next (s : State) (bad : Bool) : State :=
        let r' := { r with next := r.next + 1, err := r.err || bad }
        let s := { s with reps := (s.reps.erase r) ++ (if r'.unit == 101 && !r'.open' then [] else [r']) }
        if s.reps.any mine then again s else s
      let a := (r.pa : Int) + r.stride * (r.next : Int)
      if a < 0 then next s true
      else match copyWrite s tile part a.toNat bytes ev with
        | .wait s => again s
        | .err s _ _ => next s true
        | .ok s _ => next s false)

/-- ROUTER_ENTRY_WRITE (R371): off is the word's offset in control space. -/
def execRouterEntryWrite (tile part off : Nat) (val : BitVec 64) (s : State) : Host.Outcome State Fault Refusal :=
  .next (if 0x80000000 ≤ off && off < 0x80040000 && off % 8 == 0 then (rtWrite s tile part off val).1 else s)

/-! ## The crossbar and the links (R168, R381) -/

/-- An answer that never comes: everything in flight to the packages is answered negatively for them, multicasts, which take the crossbar, to those that
hitM names. -/
def failPath (s : State) (hit hitM : Nat → Bool) : State :=
  let cmds := (s.tiles.flatMap fun (_, t) => t.cq) ++ s.shadow.flatMap fun (_, c) => c.tile.cq
  let lost := cmds.filter fun c => c.begun && c.retry && !c.answered && c.due == 0 && (c.k == cPUT || c.k == cGET || c.k == cRAMO || c.k == cRRED) && hit c.dpkg
  posts s ((lost.map fun c => Event.podAnswer c.tile c.id true [] 0 0)
    ++ ((s.podMerge.filter fun m => m.sent && hit m.dpkg).flatMap fun m => List.replicate m.due (Event.podAnswer 1024 m.id true [] 0 0))
    ++ ((s.relems.filter fun y => y.sent && y.dpkg != 0x1FF && hit y.dpkg).map fun y => Event.routerAnswer y.cluster y.elem true)
    ++ s.mcasts.flatMap fun m => (m.due.filter hitM).map fun n => Event.mcastMemberAnswer m.tile m.cmd n true)

/-- A count of the crossbar in control space (R381, R430): word 0 divergences, word 1 corrected lanes. -/
def countXbar (s : State) (j : Nat) : State := setCtl s (0x0C002000 + 8 * j) (ctlWord s (0x0C002000 + 8 * j) + 1)

/-- CROSSBAR_DIVERGENCE (R381): traffic waits while the slices retrain. -/
def execCrossbarDivergence (s : State) : Host.Outcome State Fault Refusal :=
  .next (boxAdd (countXbar { s with xbarDown := !s.xbarFenced } 0) 8 6 0 0 0)

/-- CROSSBAR_RETRAIN_DONE (R381): traffic goes on; a third failed retrain in a row fences the path. -/
def execCrossbarRetrainDone (ok : Bool) (s : State) : Host.Outcome State Fault Refusal :=
  .next (if !s.xbarDown then s
    else if ok then { s with xbarDown := false, xbarFails := 0 }
    else if s.xbarFails + 1 < 3 then { s with xbarFails := s.xbarFails + 1 }
    else
      let s := send { s with xbarDown := false, xbarFails := 0, xbarFenced := true } (.notice 6 0 0)
      let s := (below 64 fun p => ptState s p == 1).foldl (fun s p => noticeRecord s p 2 0 0 0) s
      failPath s (fun n => !joined s n) fun _ => true)

/-- CORRECTED_LANE_ERROR (R381): counted, no retrain. -/
def execCorrectedLaneError (_slice : Nat) (s : State) : Host.Outcome State Fault Refusal := .next (countXbar s 1)

/-- SCALE_UP_LINK_FAILURE (R168): the fencing point answers for package dest from now on. -/
def execScaleUpLinkFailure (dest : Nat) (s : State) : Host.Outcome State Fault Refusal :=
  .next (failPath { s with linksDown := dest :: s.linksDown.filter (· != dest) } (· == dest) (· == dest))

end Sys2Proof.Machine
end

