-- ==== Sys2Proof/Machine/Manage.lean ====
section
/-! DEFINITION. Control space as management and the host write it (R430 to R435, R439), the start and removal of partitions (R172, R432), the Fretia
port (R437, R438), resets (R436), and the words a hart cannot execute (R241 to R248). -/

namespace Sys2Proof.Machine
open Sys2Proof

/-! ## The words a hart traps at (R241 to R248) -/

/-- RESERVED_ENCODING (R9, R241 to R244, R248): ILLOP at the word. -/
def execReservedEncoding (_word : BitVec 32) (s : State) : Host.Outcome State Fault Refusal := finish1 s (trapR s cILLOP 0)
/-- INSTRUCTION_FETCH_FAULT (R247, R268): the fetch's fault is taken at the word. -/
def execInstructionFetchFault (cause sub : Nat) (addr : BitVec 64) (s : State) : Host.Outcome State Fault Refusal :=
  finish1 s (.stop s (.trap cause sub addr))

/-! ## Starting and removing partitions (R172, R432) -/

def ptOff (p j : Nat) : Nat := 0x0C006000 + 64 * p + 8 * j
def running (s : State) (p : Nat) : Bool := ptState s p == 1
def anyRunning (s : State) : Bool := (List.range 64).any (running s)
def ptAsid (s : State) (p : Nat) : Nat := bits (ptWord s p 0) 17 8
def quantumOk (w : Word) : Bool := decide (2 ^ 10 ≤ w.toNat) && decide (w.toNat ≤ 2 ^ 32)

/-- START is discarded (R432). ENTRY is the address of its 55 bits, canonical where bit 54 is 0 (notes/assumptions/27.md). -/
def startRefused (s : State) (p : Nat) : Bool :=
  !s.firmware || !bitOf (ptWord s p 0) 0 || !bitOf (ctlWord s 0x20) 0
    || (List.range 64).any (fun q => q != p && bitOf (ptWord s q 0) 0 && ptAsid s q == ptAsid s p)
    || (tileSet s p).isEmpty || !quantumOk (ctlWord s (0x0C000000 + 8 * p)) || bits (ptWord s p 2) 1 0 != 0 || bitOf (ptWord s p 2) 54
    || !deviceMemory (bits (ptWord s p 1) 51 16 * 2 ^ 16) || running s p

/-- The root point (R172, R187). -/
def rootHart (s : State) (p : Nat) : Hart :=
  { Hart.init with
    st := .running, sup := true, pc := canon (bits (ptWord s p 2) 54 0), g := mset 0 [] 5 (ptWord s p 4)
    v := { VThread.init with lanes := 15 }, point := some ⟨none, 0⟩ }

/-- The largest power of two up to n, for n at least 1. -/
def floorPow2 (n : Nat) : Nat := 2 ^ n.log2
/-- Runs of consecutive segments of one bank: first segment (bank * 16 + segment) and length. -/
def segRuns (l : List Nat) : List (Nat × Nat) :=
  match l with
  | [] => []
  | k :: r =>
    match segRuns r with
    | (a, n) :: q => if a == k + 1 && a % 16 != 0 then (k, n + 1) :: q else (k, 1) :: (a, n) :: q
    | [] => [(k, 1)]
def shareWord (x : Nat × Nat) : Nat := x.1 / 16 + x.1 % 16 * 2 ^ 11 + (x.2 - 1) * 2 ^ 15

/-- The default cache of a partition (R56): CACHE, 128-byte lines, 16 ways, write-back. Which of the granted pool segments management means for it
is not given: the model takes the first run of them in one bank, cut to a power of two and to four. -/
def defaultRecord (s : State) (p : Nat) : List Word :=
  let segs := (List.range (1024 * 16)).filterMap fun i => if ownsSegment s p (1024 + i / 16) (i % 16) && !s.offline.contains (16384 + i) then some (16384 + i) else none
  let (nsh, d) : Nat × Nat := match segRuns segs with
    | (a, n) :: _ => (1, shareWord (a, min 4 (floorPow2 n)))
    | [] => (0, 0)
  [BitVec.ofNat 64 (0x4 + 0xF0 + nsh * 2 ^ 11), 0, 0, 0, BitVec.ofNat 64 d, 0, 0, 0]

/-- VCID 0 is installed when nothing of the partition is (R56). -/
def installDefault (s : State) (p : Nat) : State :=
  if (slotOf s p 0).st == .empty then setSlot s p 0 { Slot.init with st := .active, recd := defaultRecord s p } else s

/-- The register files of a tile as last left, every group full (R187). -/
def keptFiles (x : Tile) : Tile :=
  { Tile.init with v := x.v, vFault := x.vFault, vside := x.vside, m := x.m, t := x.t, tside := x.tside, tcfg := x.tcfg, acc := x.acc }
/-- What a restarted partition finds on a tile: its registers as last left there (R187), commands begun before its HALT, which run to completion, and
reductions that leave the merge buffer (R418). -/
def keptTile (s : State) (p t : Nat) : Tile :=
  let here := tilePart s t == some p
  let old := if here then tileOf s t else match mfind s.shadow (t * 64 + p) with | some c => c.tile | none => Tile.init
  { keptFiles old with
    cq := ((if here then [] else old.cq) ++ (tileOf s t).cq).filter fun c => c.part == p && c.src != 1
    merge := old.merge.filter fun (_, e) => e.part == p }

/-- Tile t of a partition that starts: every hart is FREE but the root point's, on the tile or, where another partition runs there, in shadow
storage. -/
def startTile (p root : Nat) (s : State) (t : Nat) : State :=
  let hs : List (Nat × Hart) := if t == root then [(t * 16, rootHart s p)] else []
  let k := keptTile s p t
  let x : Tile := if t == root then { k with mx := some (t * 16), fb := some (t * 16) } else k
  match tilePart s t with
  | some q =>
    if q != p && running s q then { s with shadow := mput s.shadow (t * 64 + p) { harts := hs, tile := x, pend := [] } }
    else startHere p t hs x s
  | none => startHere p t hs x s
where
  startHere (p t : Nat) (hs : List (Nat × Hart)) (x : Tile) (s : State) : State :=
    let s := match tilePart s t with
      | some q => if q == p then s else { s with shadow := mput s.shadow (t * 64 + q) { harts := [], tile := keptFiles (tileOf s t), pend := [] } }
      | none => s
    { setTile s t (withMoved (tileOf s t) x p) with
      harts := hs.foldl (fun m (i, h) => mput m i h) (s.harts.filter fun (i, _) => i / 16 != t)
      pend := s.pend.filter fun y => y.hart / 16 != t
      shadow := mdel s.shadow (t * 64 + p) }

/-- A region where no other partition runs goes to the one that starts; what another left in its caches leaves them first. -/
def startRegion (p : Nat) (s : State) (r : Nat) : State :=
  let x := regionOf s r
  if x.running == p + 1 then startQuantum s r p
  else if x.running != 0 && running s (x.running - 1) then s
  else startQuantum ((regionTiles s r).foldl flushTile s) r p

/-- PARTITION_START (R172, R432). -/
def startPartition (s : State) (p : Nat) : State :=
  if 64 ≤ p || startRefused s p then refuseCtl s (ptOff p 0)
  else
    let l := tileSet s p
    let x := partOf s p
    let ptbr := BitVec.ofNat 64 (bits (ptWord s p 1) 51 16 * 2 ^ 16 + ptAsid s p * 2 ^ 52)
    let kept := ptState s p == 2
    let s := setPart s p { x with ptbr, tsqb := 0, fsqb := 0, tsReqs := (if kept then x.tsReqs else []), held := (if kept then x.held else []), cuts := (if kept then x.cuts else []) }
    let s := installDefault s p
    let s := l.foldl (startTile p (l.headD 0)) s
    let s := ((l.filterMap (tileRegion s)).eraseDups).foldl (startRegion p) s
    setPtState s p 1
def execPartitionStart (part : Nat) (s : State) : Host.Outcome State Fault Refusal := .next (startPartition s part)

/-- Every translation with the ASID goes, as by a SHOOT of kind ASID (R432). -/
def dropAsid (s : State) (asid : Nat) : State :=
  let keep (x : Xlat) : Bool := x.asid != asid
  { s with
    tiles := s.tiles.map fun (i, t) => (i, { t with gtlb := t.gtlb.filter fun x => keep x.2, itlb := t.itlb.filter keep })
    stks := s.stks.map fun (k, x) => (k, { x with llc := x.llc.filter keep, walk := x.walk.filter fun w => w.1 != asid })
    harts := s.harts.map fun (i, h) => (i, { h with ustr := h.ustr.filter keep })
    shadow := s.shadow.map fun (k, c) => (k, { c with harts := c.harts.map fun (i, h) => (i, { h with ustr := h.ustr.filter keep }) }) }

/-- The slots of a partition that is removed are emptied: their lines go home, so that a partition created under its number begins with the default
cache alone (R56). -/
def clearSlots (s : State) (p : Nat) : State :=
  let s := (partOf s p).slots.foldl (fun s (v, x) => x.lines.foldl (fun s (loc, _) => evictLine s p v loc) s) s
  setPart s p { partOf s p with slots := [] }

/-- What goes with the V of a partition that does not run: its slots, its translations, and the elements that its router entries hold (R374, R432). -/
def dropPart (s : State) (p : Nat) : State :=
  dropAsid (clearSlots (rtLeave s fun x => x.entry < 16 && bits (rtWord s x.cluster x.entry 0) 31 26 == p) p) (ptAsid s p)
/-- PARTITION_REMOVE (R432): V is cleared, unless the partition runs. -/
def removePartition (s : State) (p : Nat) : State :=
  if 64 ≤ p || running s p || !s.firmware then refuseCtl s (ptOff p 0)
  else if !bitOf (ptWord s p 0) 0 then s
  else setPt (dropPart s p) p 0 (setBits (ptWord s p 0) 0 0 0)
def execPartitionRemove (part : Nat) (s : State) : Host.Outcome State Fault Refusal := .next (removePartition s part)

/-- FEATURE_LOCK (R435). -/
def lockFeatures (s : State) (lock : Bool) : State :=
  if lock then setCtl s 0x20 1 else if anyRunning s then refuseCtl s 0x20 else setCtl s 0x20 0
def execFeatureLock (lock : Bool) (s : State) : Host.Outcome State Fault Refusal := .next (broughtUp s 0x20 (lockFeatures s lock))

/-! ## Grants (R362, R430) -/

def segOff (bank seg : Nat) : Nat := 0x08000000 + 16 * bank + seg

/-- SEGMENT_REVOKE (R85, R430): V is cleared; of a running partition the segment goes offline, of another its shares leave their slots. -/
def revokeSegment (s : State) (bank seg : Nat) : State :=
  match segOwner s bank seg with
  | none => s
  | some p =>
    let k := if running s p then segmentOffline s bank seg true
      else (partOf s p).slots.foldl (fun s (v, _) => shareOffline s p v bank seg s.offline true) s
    setCtlByte k (segOff bank seg) 0
def execSegmentRevoke (bank seg : Nat) (s : State) : Host.Outcome State Fault Refusal := .next (broughtUp s (segOff bank seg) (revokeSegment s bank seg))

/-- A byte of a grant table takes a new value: V [6] and PART [5:0]; a change of PART of an entry in use is discarded. -/
def grantBad (s : State) (off b : Nat) : Bool :=
  let old := ctlByte s off
  old % 128 != b % 128 && old / 64 % 2 == 1 && b / 64 % 2 == 1
def grantByte (s : State) (off b : Nat) (free revoke : State → State) : State :=
  let old := ctlByte s off
  let v (x : Nat) : Bool := x / 64 % 2 == 1
  if old % 128 == b % 128 then s
  else if v old then revoke s
  else if v b then free s
  else setCtlByte s off (b % 128)

/-- A segment is granted: one that was offline returns (R86). -/
def grantSegment (s : State) (off b : Nat) : State :=
  let i := off - 0x08000000
  grantByte s off b (fun s => { setCtlByte s off (b % 128) with offline := s.offline.filter (· != i) }) fun s => revokeSegment s (i / 16) (i % 16)

/-- A counter run is granted or revoked (R362). -/
def grantRun (s : State) (off b : Nat) : State :=
  let i := off - 0x40000000
  let take (o : Host.Outcome State Fault Refusal) (s : State) : State := match o with | .next s => s | _ => s
  grantByte s off b (fun s => take (execCounterRunGrant (i / 8) (i % 8) (b % 64) s) s) fun s => take (execCounterRunRevoke (i / 8) (i % 8) s) s

/-- A region's grant changes only between partitions that do not run (R93, R430). -/
def regionBad (s : State) (off b : Nat) : Bool :=
  let old := ctlByte s off
  let v (x : Nat) : Bool := x / 64 % 2 == 1
  old != b && ((v old && running s (old % 64)) || (v b && running s (b % 64)) || (v old && v b && old % 64 != b % 64))
def grantRegion (s : State) (off b : Nat) : State := if ctlByte s off == b then s else setCtlByte s off b

/-- A write of w to the word at off: f for each byte, or, where one of them breaks a rule of its table, nothing but a log entry (R430). -/
def byBytes (s : State) (off : Nat) (w : Word) (bad : State → Nat → Nat → Bool) (f : State → Nat → Nat → State) : State :=
  let byte (i : Nat) : Nat := bits w (8 * i + 7) (8 * i)
  if (List.range 8).any fun i => bad s (off + i) (byte i) then refuseCtl s off
  else (List.range 8).foldl (fun s i => f s (off + i) (byte i)) s

/-! ## Writes to control space (R430 to R439) -/

/-- The region word of a tile as it is held, its value in a write, and whether the write is refused: no partition of the old or the new region may run (R433). -/
def regionWord (v : Nat) : Nat := v / 2 ^ 15 * 2 ^ 15 + v % 512
def tileWord (s : State) (t : Nat) : Nat := (ctlWord s (0x0C007000 + 2 * t)).toNat / 2 ^ (16 * (t % 4)) % 2 ^ 16
def tileRegionBad (s : State) (t v : Nat) : Bool :=
  let v := regionWord v
  let busy (r : Option Nat) : Bool := match r with | some r => (List.range 64).any fun p => regionMember s r p && running s p | none => false
  tileWord s t != v && (busy (tileRegion s t) || busy (if v / 2 ^ 15 == 1 then some (v % 512) else none))
/-- A write of the region words of four tiles; refused for one of them, it is discarded whole (R430, R433). -/
def writeRegions (s : State) (off : Nat) (w : Word) : State :=
  let t (i : Nat) : Nat := (off - 0x0C007000) / 2 + i
  let v (i : Nat) : Nat := bits w (16 * i + 15) (16 * i)
  if (List.range 4).any fun i => tileRegionBad s (t i) (v i) then refuseCtl s off
  else setCtl s off ((List.range 4).foldl (fun x i => setBits x (16 * i + 15) (16 * i) (regionWord (v i))) 0)

/-- The identity block (R431): reserved bits read zero. -/
def identityBad (w0 w1 : Word) : Bool :=
  let own := bits w0 8 0
  let g (i : Nat) : Option Nat := if bitOf w1 (16 * i + 15) then some (bits w1 (16 * i + 8) (16 * i)) else none
  (List.range 3).any fun i => (g i).isSome && (g i == some own || (List.range 3).any fun j => j != i && g j == g i)
def writeIdentity (s : State) (off : Nat) (w : Word) : State :=
  let w0 := if off == 0x0C005000 then w &&& 0x1FF else ctlWord s 0x0C005000
  let w1 := if off == 0x0C005008 then w &&& 0x000081FF81FF81FF else ctlWord s 0x0C005008
  if anyRunning s || identityBad w0 w1 then refuseCtl s off else setCtl (setCtl s 0x0C005000 w0) 0x0C005008 w1

/-- A word of the partition table (R432): one with START = 1 that is refused changes nothing; a write of EXIT, or of reserved words, is ignored (R8). -/
def writePartition (s : State) (off : Nat) (w : Word) : State :=
  let p := (off - 0x0C006000) / 64
  let j := off / 8 % 8
  if j == 3 || 5 ≤ j then s
  else if running s p then refuseCtl s off
  else if j == 0 then
    let new (s : State) : State := setPt s p 0 ((w &&& 0x000000FF0103FF01) ||| (ptWord s p 0 &&& 6))
    if bitOf w 3 then (if startRefused (new s) p then refuseCtl s off else startPartition (new s) p)
    else new (if bitOf (ptWord s p 0) 0 && !bitOf w 0 then dropPart s p else s)
  else setPt s p j (if j == 1 then w &&& 0x000FFFFFFFFF0000 else if j == 2 then w &&& 0x007FFFFFFFFFFFFF else w)

/-- A stage entry written by management: held contributions leave first (R371). -/
def writeEntry (s : State) (off : Nat) (w : Word) : State :=
  let o := off - 0x80000000
  let c := o / 0x1000
  let e := o % 0x1000 / 32
  if 512 ≤ o % 0x1000 then refuseCtl s off
  else if o % 32 == 0 && bitOf w 0 && !rtValid s c e (bits w 31 26) w then boxAdd s (4 + c / 16) 4 0 (0x40000000000 + off) 0
  else setCtl (if bitOf (rtWord s c e 0) 0 then rtLeave s fun x => x.cluster == c && x.entry == e else s) off w

/-- Words that are read-only (R8, R430): FEAT0 and FEAT1, the crossbar counts, the cycle counters, the power word and the black boxes. -/
def readOnlyCtl (off : Nat) : Bool :=
  let inR (a n : Nat) : Bool := decide (a ≤ off) && decide (off < a + n)
  inR 0 0x10 || inR 0x0C002000 64 || inR 0x0C003000 80 || inR 0x0C004000 8 || inR 0x20000000 (10 * 0x20000)
/-- The foreign-probe counters, cleared bit by bit (R98, R430). -/
def clearedByOnes (off : Nat) : Bool := decide (0x0C001000 ≤ off) && decide (off < 0x0C002000)

/-- An 8-byte write to the word at off; one to a read-only word is ignored (R8), and while bring-up stands at step 1 every other is discarded (R436). -/
def writeCtl (s : State) (off : Nat) (w : Word) : State :=
  let locked := bitOf (ctlWord s 0x20) 0
  let inR (a n : Nat) : Bool := decide (a ≤ off) && decide (off < a + n)
  if readOnlyCtl off then s
  else if !s.firmware then refuseCtl s off
  else if off == 0x10 then (if locked then refuseCtl s off else setCtl s off (w &&& ctlWord s 0))
  else if off == 0x18 then (if locked then refuseCtl s off else s)
  else if off == 0x20 then (if bitOf w 0 == locked then s else lockFeatures s (bitOf w 0))
  else if inR 0x08000000 0x8000 then byBytes s off w grantBad grantSegment
  else if inR 0x0C000000 0x200 then (if quantumOk w then setCtl s off w else refuseCtl s off)
  else if clearedByOnes off then setCtl s off (ctlWord s off &&& ~~~w)
  else if inR 0x0C005000 0x10 then writeIdentity s off w
  else if inR 0x0C006000 0x1000 then writePartition s off w
  else if inR 0x0C007000 0x400 then
    writeRegions s off w
  else if inR 0x0C008000 0x1000 then
    (if w == ctlWord s off then s else if 4 < popN 64 w.toNat || (List.range 64).any (fun p => (bitOf w p || bitOf (ctlWord s off) p) && running s p) then refuseCtl s off else setCtl s off w)
  else if inR 0x0C010000 0x8000 then setCtl s off (w &&& 0x7F7F7F7F7F7F7F7F)
  else if inR 0x10000000 0x400000 && off % 0x100000 < 0x50000 then byBytes s off w regionBad grantRegion
  else if inR 0x40000000 0x1000 then byBytes s off w grantBad grantRun
  else if inR 0x80000000 0x40000 then writeEntry s off w
  else refuseCtl s off

/-- A host request to control space that is not of 4 or 8 bytes, aligned: an Unsupported Request completion, logged (R430). -/
def hostIoBad (off size : Nat) : Bool := (size != 4 && size != 8) || off % size != 0
def unsupported (s : State) (off : Nat) : State := send (refuseCtl s off) (.io true [])
/-- CONTROL_SPACE_WRITE (R430): a 4-byte write leaves the other half. -/
def execControlSpaceWrite (off size : Nat) (val : BitVec 64) (s : State) : Host.Outcome State Fault Refusal :=
  .next (if hostIoBad off size then unsupported s off
    else if size == 8 then writeCtl s off val
    else
      let o := off / 8 * 8
      let lo := 8 * (off % 8)
      writeCtl s o (setBits (if clearedByOnes o then 0 else ctlWord s o) (lo + 31) lo val.toNat))

/-! ## Reads, and the Fretia port (R437, R438, R440, R441, R443) -/

/-- The 32 bytes of a black-box entry (R441). -/
def BoxE.bytes (e : BoxE) : List Byte :=
  leBytes 8 e.cyc ++ leBytes 8 (e.kind % 256 + e.part % 64 * 256) ++ leBytes 8 e.addr ++ leBytes 8 (e.data % 2 ^ 63 + (if e.seq then 2 ^ 63 else 0))
/-- Entry k of the ring of a die: the newest whose number is k modulo 4,096. -/
def boxSlot (s : State) (die k : Nat) : List Byte :=
  let n := mgetD s.boxN die 0
  match (mgetD s.boxes die [])[(n + 4095 - k) % 4096]? with
  | some e => if k < n then e.bytes else List.replicate 32 0
  | none => List.replicate 32 0

/-- A word of control space as the host and the Fretia port read it; a reserved offset reads zero. -/
def readCtl (s : State) (off : Nat) : Word :=
  let inR (a n : Nat) : Bool := decide (a ≤ off) && decide (off < a + n)
  if inR 0x0C003000 80 then BitVec.ofNat 64 s.clock
  else if off == 0x0C004000 then
    setBits (setBits (ctlWord s off) 11 0 (Config.powerNow s.clock).toNat) 19 12 (Config.hottest s.clock).toNat
  else if inR 0x20000000 (10 * 0x20000) then
    let o := off - 0x20000000
    BitVec.ofNat 64 (leNat (((boxSlot s (o / 0x20000) (o % 0x20000 / 32)).drop (o % 32)).take 8))
  else if inR 0x80000000 0x40000 then rtRead s off
  else ctlWord s off

/-- A host CXL.io read of control space: its completion (R430). The steps of the opcode table have no such step, since a read changes nothing here. -/
def hostIoRead (s : State) (off size : Nat) : State :=
  if hostIoBad off size then unsupported s off
  else send s (.io false ((leBytes 8 (readCtl s (off / 8 * 8)).toNat).drop (off % 8) |>.take size))

/-- FRETIA_CSR_READ (R438). -/
def execFretiaCsrRead (off : Nat) (s : State) : Host.Outcome State Fault Refusal :=
  .next (if off % 8 != 0 then send (refuseCtl s off) (.fretia []) else send s (.fretia (leBytes 8 (readCtl s off).toNat)))
/-- FRETIA_CSR_WRITE (R438). -/
def execFretiaCsrWrite (off : Nat) (val : BitVec 64) (s : State) : Host.Outcome State Fault Refusal :=
  .next (send (if off % 8 != 0 then refuseCtl s off else writeCtl s off val) (.fretia []))
/-- FRETIA_BLACKBOX_READ (R438, R441). -/
def execFretiaBlackboxRead (die : Nat) (s : State) : Host.Outcome State Fault Refusal :=
  .next (send s (.fretia ((List.range 4096).flatMap (boxSlot s die))))
/-- FRETIA_GROUP_WRITE (R384). -/
def execFretiaGroupWrite (entry : Nat) (members : BitVec 512) (s : State) : Host.Outcome State Fault Refusal :=
  .next (send { s with groups := mset 0 s.groups entry members } (.fretia []))
/-- FRETIA_ATTESTATION (R437): serial, ordering code, measurements of the stages verified, in stage order, FEAT0, nonce, and the signature of 3,309 bytes. -/
def execFretiaAttestation (nonce : BitVec 256) (s : State) : Host.Outcome State Fault Refusal :=
  let body := leBytes 16 Config.serial.toNat ++ Config.orderingCode ++ (List.range (s.stages.getD Config.stages)).flatMap (fun i => leBytes 32 (Config.measurement i).toNat)
    ++ leBytes 8 (ctlWord s 0).toNat ++ leBytes 32 nonce.toNat
  .next (send s (.fretia (body ++ (List.range 3309).map (Config.signature body))))

/-! ## Resets (R436, R437, R440) -/

/-- What lies outside the package, and what the part is, stay through a reset: the host's memory, the switch's groups, FEAT0, the free values drawn. -/
def afterReset (s : State) : State := { State.reset with ctl := mset 0 [] 0 (ctlWord s 0), hostMem := s.hostMem, groups := s.groups, free := s.free }
/-- A step of bring-up that the package makes itself ends: an event of KIND 11 (R441; notes/assumptions/29.md). -/
def bringUp (s : State) (step : Nat) : State := boxAdd s 8 11 0 0 step
/-- COLD_RESET (R436, R437): a firmware stage that fails verification is not run: bring-up stops at step 1, with the stages before it measured. -/
def execColdReset (verified : Bool) (s : State) : Host.Outcome State Fault Refusal :=
  .next (if verified then bringUp (bringUp (afterReset s) 1) 2
    else boxAdd { drew (afterReset s) with firmware := false, stages := some (Config.stagesVerified s.free % Config.stages) } 8 10 0 0 0)
/-- WARM_RESET (R436): from step 2, once firmware has been verified; memory, black boxes, cycle counts and the count of lane steps stay. -/
def execWarmReset (s : State) : Host.Outcome State Fault Refusal :=
  .next (if !s.firmware then s
    else bringUp { setCtl (afterReset s) 0x0C004000 (ctlWord s 0x0C004000) with
      mem := s.mem, psn := s.psn, boxes := s.boxes, boxN := s.boxN, clock := s.clock } 2)

/-! ## CXL as the host finds it (R429) -/

/-- What a CXL capability register can report of a device. -/
inductive CxlOption where
  | type1
  | type2
  | type3
  | io
  | cache
  | mem
  | hdmH
  | hdmD
  | hdmDb
  | backInvalidate
  | multiLogicalDevice
  | portBasedRouting
  | dynamicCapacity
  | peerToPeer
  | other (dvsec : Nat)
deriving DecidableEq, Repr

/-- The options the DVSEC capability registers report; every one not listed is reported absent (R429). -/
def cxlSupports (o : CxlOption) : Bool := [CxlOption.type2, .io, .cache, .mem, .hdmDb, .backInvalidate].contains o

/-- The host programs HDM decoder k of two (R429, step 3 of R436). -/
def programHdm (s : State) (k : Nat) (d : Hdm) : State := if 2 ≤ k || 2 < d.link then s else { s with hdm := mput s.hdm k d }
/-- Where a decoder sends a host address: the link that carries it, both taking turns at 256 bytes where they interleave, and its device address. -/
def Hdm.target (d : Hdm) (hpa : Nat) : Option (Nat × Nat) :=
  if d.base ≤ hpa && hpa < d.base + d.size then some (if d.link == 2 then hpa / 256 % 2 else d.link, d.dpa + (hpa - d.base)) else none
def hdmTarget (s : State) (hpa : Nat) : Option (Nat × Nat) := s.hdm.findSome? fun (_, d) => d.target hpa

end Sys2Proof.Machine
end

