-- ==== Sys2Proof/Machine/Scalar.lean ====
section
/-! DEFINITION. The scalar integer, immediate, floating-point and branch instructions (R255 to R268). -/

namespace Sys2Proof.Machine
open Sys2Proof

/-! ## Shapes -/

/-- An INT.R instruction on ra and rb (R255, R256): the sources wait or trap, rd takes f of them, control goes on. -/
def intOp (d a b : BitVec 5) (t u : Bool) (f : Word → Word → Word) (s : State) : Host.Outcome State Fault Refusal :=
  finish1 s (withRegs s [(a, t), (b, u)] (some d) fun k => .ok (setG k d (f (gVal s a) (gVal s b))))

/-- An instruction on ra alone. -/
def intOp1 (d a : BitVec 5) (t : Bool) (f : Word → Word) (s : State) : Host.Outcome State Fault Refusal :=
  finish1 s (withRegs s [(a, t)] (some d) fun k => .ok (setG k d (f (gVal s a))))

/-- An instruction without register sources. -/
def intOp0 (d : BitVec 5) (v : Word) (s : State) : Host.Outcome State Fault Refusal :=
  finish1 s (withRegs s [] (some d) fun k => .ok (setG k d v))

/-- The format a size bit names (R264). -/
def fmtOf (p : Bool) : FFmt := if p then fp64 else fp32
/-- A floating-point operand of the executing hart (R264, R220). -/
def fpArg (s : State) (p : Bool) (r : BitVec 5) : Fp :=
  (fmtOf p).get (ftziOf (curH s).fcsr) ((gVal s r).toNat % 2 ^ (fmtOf p).width)

/-- An FP.R instruction that rounds: f gives the exact result and the flags of the operation in the mode in force (R257, R264). -/
def fpOp (srcs : List (BitVec 5 × Bool)) (d : BitVec 5) (p : Bool) (m : BitVec 3) (f : Nat → Fp × Nat) (s : State) :
    Host.Outcome State Fault Refusal :=
  finish1 s (withRegs s srcs (some d) fun k =>
    let w := (curH s).fcsr
    let (v, fl) := f (modeOf w m)
    let (r, g) := (fmtOf p).put (modeOf w m) (ftzoOf w) v
    .ok (setG (addFlags k (fl ||| g)) d (BitVec.ofNat 64 r)))

/-- FMIN and FMAX: nothing rounds; FTZO applies to the result as to every IEEE result (R264, R220). -/
def fpPick (d a b : BitVec 5) (t u p mx : Bool) (s : State) : Host.Outcome State Fault Refusal :=
  finish1 s (withRegs s [(a, t), (b, u)] (some d) fun k =>
    let (v, fl) := fpMinMax mx (fpArg s p a) (fpArg s p b)
    let (r, g) := (fmtOf p).put 0 (ftzoOf (curH s).fcsr) v
    .ok (setG (addFlags k (fl ||| g)) d (BitVec.ofNat 64 r)))

/-- FEQ, FLT and FLE: NV on any NaN, or on a signalling one only (R264). -/
def fpCmp (d a b : BitVec 5) (t u p quiet : Bool) (f : Fp → Fp → Bool) (s : State) : Host.Outcome State Fault Refusal :=
  finish1 s (withRegs s [(a, t), (b, u)] (some d) fun k =>
    let x := fpArg s p a
    let y := fpArg s p b
    let fl := if quiet then x.snan ||| y.snan else if x.isNan || y.isNan then 1 else 0
    .ok (setG (addFlags k fl) d (wordOf (f x y))))

/-- A branch: a taken one checks that its target is canonical (R267, R268). -/
def branch (a b : BitVec 5) (o : BitVec 13) (c : Word → Word → Bool) (s : State) : Host.Outcome State Fault Refusal :=
  finish1 s (withRegs s [(a, false), (b, false)] none fun k =>
    let target := (curH s).pc + sext 13 o.toNat * 4
    if !c (gVal s a) (gVal s b) then .ok k
    else if canonical target then .jump k target
    else protR s 2 target)

/-! ## Integer register operations (R258 to R260) -/

/-- ADD (R258). -/
def execAdd (d a b : BitVec 5) (t u w : Bool) (s : State) : Host.Outcome State Fault Refusal :=
  intOp d a b t u (fun x y => wForm w (x + y) (low32 x + low32 y)) s

/-- SUB (R258). -/
def execSub (d a b : BitVec 5) (t u w : Bool) (s : State) : Host.Outcome State Fault Refusal :=
  intOp d a b t u (fun x y => wForm w (x - y) (low32 x - low32 y)) s

/-- MUL (R258). -/
def execMul (d a b : BitVec 5) (t u w : Bool) (s : State) : Host.Outcome State Fault Refusal :=
  intOp d a b t u (fun x y => wForm w (x * y) (low32 x * low32 y)) s

/-- MULH (R258). -/
def execMulh (d a b : BitVec 5) (t u : Bool) (s : State) : Host.Outcome State Fault Refusal :=
  intOp d a b t u mulHS s

/-- MULHU (R258). -/
def execMulhu (d a b : BitVec 5) (t u : Bool) (s : State) : Host.Outcome State Fault Refusal :=
  intOp d a b t u mulHU s

/-- DIV (R258). -/
def execDiv (d a b : BitVec 5) (t u : Bool) (s : State) : Host.Outcome State Fault Refusal :=
  intOp d a b t u divS s

/-- DIVU (R258). -/
def execDivu (d a b : BitVec 5) (t u : Bool) (s : State) : Host.Outcome State Fault Refusal :=
  intOp d a b t u divU s

/-- REM (R258). -/
def execRem (d a b : BitVec 5) (t u : Bool) (s : State) : Host.Outcome State Fault Refusal :=
  intOp d a b t u remS s

/-- REMU (R258). -/
def execRemu (d a b : BitVec 5) (t u : Bool) (s : State) : Host.Outcome State Fault Refusal :=
  intOp d a b t u remU s

/-- AND (R258). -/
def execAnd (d a b : BitVec 5) (t u : Bool) (s : State) : Host.Outcome State Fault Refusal :=
  intOp d a b t u (fun x y => x &&& y) s

/-- OR (R258). -/
def execOr (d a b : BitVec 5) (t u : Bool) (s : State) : Host.Outcome State Fault Refusal :=
  intOp d a b t u (fun x y => x ||| y) s

/-- XOR (R258). -/
def execXor (d a b : BitVec 5) (t u : Bool) (s : State) : Host.Outcome State Fault Refusal :=
  intOp d a b t u (fun x y => x ^^^ y) s

/-- ANDN (R258). -/
def execAndn (d a b : BitVec 5) (t u : Bool) (s : State) : Host.Outcome State Fault Refusal :=
  intOp d a b t u (fun x y => x &&& ~~~y) s

/-- ORN (R258). -/
def execOrn (d a b : BitVec 5) (t u : Bool) (s : State) : Host.Outcome State Fault Refusal :=
  intOp d a b t u (fun x y => x ||| ~~~y) s

/-- SLL (R258). -/
def execSll (d a b : BitVec 5) (t u w : Bool) (s : State) : Host.Outcome State Fault Refusal :=
  intOp d a b t u (fun x y => shiftOp 0 w x y.toNat) s

/-- SRL (R258). -/
def execSrl (d a b : BitVec 5) (t u w : Bool) (s : State) : Host.Outcome State Fault Refusal :=
  intOp d a b t u (fun x y => shiftOp 1 w x y.toNat) s

/-- SRA (R258). -/
def execSra (d a b : BitVec 5) (t u w : Bool) (s : State) : Host.Outcome State Fault Refusal :=
  intOp d a b t u (fun x y => shiftOp 2 w x y.toNat) s

/-- ROL (R258). -/
def execRol (d a b : BitVec 5) (t u w : Bool) (s : State) : Host.Outcome State Fault Refusal :=
  intOp d a b t u (fun x y => shiftOp 3 w x y.toNat) s

/-- ROR (R258). -/
def execRor (d a b : BitVec 5) (t u w : Bool) (s : State) : Host.Outcome State Fault Refusal :=
  intOp d a b t u (fun x y => shiftOp 4 w x y.toNat) s

/-- SLT (R258). -/
def execSlt (d a b : BitVec 5) (t u : Bool) (s : State) : Host.Outcome State Fault Refusal :=
  intOp d a b t u (fun x y => wordOf (x.slt y)) s

/-- SLTU (R258). -/
def execSltu (d a b : BitVec 5) (t u : Bool) (s : State) : Host.Outcome State Fault Refusal :=
  intOp d a b t u (fun x y => wordOf (x.ult y)) s

/-- MIN (R258). -/
def execMin (d a b : BitVec 5) (t u : Bool) (s : State) : Host.Outcome State Fault Refusal :=
  intOp d a b t u (fun x y => if x.sle y then x else y) s

/-- MAX (R258). -/
def execMax (d a b : BitVec 5) (t u : Bool) (s : State) : Host.Outcome State Fault Refusal :=
  intOp d a b t u (fun x y => if x.sle y then y else x) s

/-- MINU (R258). -/
def execMinu (d a b : BitVec 5) (t u : Bool) (s : State) : Host.Outcome State Fault Refusal :=
  intOp d a b t u (fun x y => if x.ule y then x else y) s

/-- MAXU (R258). -/
def execMaxu (d a b : BitVec 5) (t u : Bool) (s : State) : Host.Outcome State Fault Refusal :=
  intOp d a b t u (fun x y => if x.ule y then y else x) s

/-- CLZ (R258). -/
def execClz (d a : BitVec 5) (t w : Bool) (s : State) : Host.Outcome State Fault Refusal :=
  intOp1 d a t (fun x => BitVec.ofNat 64 (if w then clzN 32 (x.toNat % 2 ^ 32) else clzN 64 x.toNat)) s

/-- CTZ (R258). -/
def execCtz (d a : BitVec 5) (t w : Bool) (s : State) : Host.Outcome State Fault Refusal :=
  intOp1 d a t (fun x => BitVec.ofNat 64 (if w then ctzN 32 (x.toNat % 2 ^ 32) else ctzN 64 x.toNat)) s

/-- POPC (R258). -/
def execPopc (d a : BitVec 5) (t w : Bool) (s : State) : Host.Outcome State Fault Refusal :=
  intOp1 d a t (fun x => BitVec.ofNat 64 (if w then popN 32 (x.toNat % 2 ^ 32) else popN 64 x.toNat)) s

/-- BSWAP (R258). -/
def execBswap (d a : BitVec 5) (t : Bool) (s : State) : Host.Outcome State Fault Refusal :=
  intOp1 d a t bswap64 s

/-- SEXT (R258). -/
def execSext (d a c : BitVec 5) (t : Bool) (s : State) : Host.Outcome State Fault Refusal :=
  intOp1 d a t (fun x => sext (subBits c) (x.toNat % 2 ^ subBits c)) s

/-- ZEXT (R258). -/
def execZext (d a c : BitVec 5) (t : Bool) (s : State) : Host.Outcome State Fault Refusal :=
  intOp1 d a t (fun x => BitVec.ofNat 64 (x.toNat % 2 ^ subBits c)) s

/-- CMOV (R258): rd is an implicit source that always blocks (R255). -/
def execCmov (d a b : BitVec 5) (t u : Bool) (s : State) : Host.Outcome State Fault Refusal :=
  finish1 s (withRegs s [(a, t), (b, u), (d, false)] (some d) fun k =>
    .ok (setG k d (if gVal s a != 0 then gVal s b else gVal s d)))

/-- HMIX (R259). -/
def execHmix (d a b : BitVec 5) (t u : Bool) (s : State) : Host.Outcome State Fault Refusal :=
  intOp d a b t u hmix64 s

/-- CRC32C (R260). -/
def execCrc32c (d a b : BitVec 5) (t u : Bool) (s : State) : Host.Outcome State Fault Refusal :=
  intOp d a b t u crc32c s

/-! ## Immediate forms (R261 to R263) -/

/-- ADDI (R261). -/
def execAddi (d a : BitVec 5) (t : Bool) (i : BitVec 15) (s : State) : Host.Outcome State Fault Refusal :=
  intOp1 d a t (fun x => x + sext 15 i.toNat) s

/-- ANDI (R261). -/
def execAndi (d a : BitVec 5) (t : Bool) (i : BitVec 15) (s : State) : Host.Outcome State Fault Refusal :=
  intOp1 d a t (fun x => x &&& sext 15 i.toNat) s

/-- ORI (R261). -/
def execOri (d a : BitVec 5) (t : Bool) (i : BitVec 15) (s : State) : Host.Outcome State Fault Refusal :=
  intOp1 d a t (fun x => x ||| sext 15 i.toNat) s

/-- XORI (R261). -/
def execXori (d a : BitVec 5) (t : Bool) (i : BitVec 15) (s : State) : Host.Outcome State Fault Refusal :=
  intOp1 d a t (fun x => x ^^^ sext 15 i.toNat) s

/-- SLTI (R261). -/
def execSlti (d a : BitVec 5) (t : Bool) (i : BitVec 15) (s : State) : Host.Outcome State Fault Refusal :=
  intOp1 d a t (fun x => wordOf (x.slt (sext 15 i.toNat))) s

/-- SLTIU (R261). -/
def execSltiu (d a : BitVec 5) (t : Bool) (i : BitVec 15) (s : State) : Host.Outcome State Fault Refusal :=
  intOp1 d a t (fun x => wordOf (x.ult (sext 15 i.toNat))) s

/-- SLLI (R262). -/
def execSlli (d a : BitVec 5) (t : Bool) (n : BitVec 6) (w : Bool) (s : State) : Host.Outcome State Fault Refusal :=
  intOp1 d a t (fun x => shiftOp 0 w x n.toNat) s

/-- SRLI (R262). -/
def execSrli (d a : BitVec 5) (t : Bool) (n : BitVec 6) (w : Bool) (s : State) : Host.Outcome State Fault Refusal :=
  intOp1 d a t (fun x => shiftOp 1 w x n.toNat) s

/-- SRAI (R262). -/
def execSrai (d a : BitVec 5) (t : Bool) (n : BitVec 6) (w : Bool) (s : State) : Host.Outcome State Fault Refusal :=
  intOp1 d a t (fun x => shiftOp 2 w x n.toNat) s

/-- RORI (R262). -/
def execRori (d a : BitVec 5) (t : Bool) (n : BitVec 6) (w : Bool) (s : State) : Host.Outcome State Fault Refusal :=
  intOp1 d a t (fun x => shiftOp 4 w x n.toNat) s

/-- MOVHI (R263). -/
def execMovhi (d : BitVec 5) (i : BitVec 21) (s : State) : Host.Outcome State Fault Refusal :=
  intOp0 d (sext 21 i.toNat <<< 11) s

/-- ADDPC (R263): the pc is its own address. -/
def execAddpc (d : BitVec 5) (i : BitVec 21) (s : State) : Host.Outcome State Fault Refusal :=
  intOp0 d ((curH s).pc + sext 21 i.toNat <<< 11) s

/-! ## Floating point (R264 to R266) -/

/-- FADD (R264). -/
def execFadd (d a b : BitVec 5) (t u p : Bool) (m : BitVec 3) (s : State) : Host.Outcome State Fault Refusal :=
  fpOp [(a, t), (b, u)] d p m (fun r => fpAdd r (fpArg s p a) (fpArg s p b)) s

/-- FSUB (R264). -/
def execFsub (d a b : BitVec 5) (t u p : Bool) (m : BitVec 3) (s : State) : Host.Outcome State Fault Refusal :=
  fpOp [(a, t), (b, u)] d p m (fun r => fpAdd r (fpArg s p a) (fpArg s p b).neg) s

/-- FMUL (R264). -/
def execFmul (d a b : BitVec 5) (t u p : Bool) (m : BitVec 3) (s : State) : Host.Outcome State Fault Refusal :=
  fpOp [(a, t), (b, u)] d p m (fun _ => fpMul (fpArg s p a) (fpArg s p b)) s

/-- FDIV (R264). -/
def execFdiv (d a b : BitVec 5) (t u p : Bool) (m : BitVec 3) (s : State) : Host.Outcome State Fault Refusal :=
  fpOp [(a, t), (b, u)] d p m (fun _ => fpDiv (fmtOf p) (fpArg s p a) (fpArg s p b)) s

/-- FSQRT (R264). -/
def execFsqrt (d a : BitVec 5) (t p : Bool) (m : BitVec 3) (s : State) : Host.Outcome State Fault Refusal :=
  fpOp [(a, t)] d p m (fun _ => fpSqrt (fmtOf p) (fpArg s p a)) s

/-- FMA (R264): rd is an implicit source (R255). -/
def execFma (d a b : BitVec 5) (t u p : Bool) (m : BitVec 3) (s : State) : Host.Outcome State Fault Refusal :=
  fpOp [(a, t), (b, u), (d, false)] d p m
    (fun r => fpFma r (fpArg s p a) (fpArg s p b) (fpArg s p d)) s

/-- FNMA (R264): rd − a × b with one rounding. -/
def execFnma (d a b : BitVec 5) (t u p : Bool) (m : BitVec 3) (s : State) : Host.Outcome State Fault Refusal :=
  fpOp [(a, t), (b, u), (d, false)] d p m
    (fun r => fpFma r (fpArg s p a).neg (fpArg s p b) (fpArg s p d)) s

/-- FMIN (R264, R216). -/
def execFmin (d a b : BitVec 5) (t u p : Bool) (s : State) : Host.Outcome State Fault Refusal :=
  fpPick d a b t u p false s

/-- FMAX (R264, R216). -/
def execFmax (d a b : BitVec 5) (t u p : Bool) (s : State) : Host.Outcome State Fault Refusal :=
  fpPick d a b t u p true s

/-- FEQ (R264). -/
def execFeq (d a b : BitVec 5) (t u p : Bool) (s : State) : Host.Outcome State Fault Refusal :=
  fpCmp d a b t u p true fpEq s

/-- FLT (R264). -/
def execFlt (d a b : BitVec 5) (t u p : Bool) (s : State) : Host.Outcome State Fault Refusal :=
  fpCmp d a b t u p false fpLt s

/-- FLE (R264). -/
def execFle (d a b : BitVec 5) (t u p : Bool) (s : State) : Host.Outcome State Fault Refusal :=
  fpCmp d a b t u p false (fun x y => fpLt x y || fpEq x y) s

/-- FCVT's value and flags for a sub-code (R265): 0 and 1 to integers, 2 and 3 from them, 4 to the other width. -/
def fcvtValue (c : Nat) (p : Bool) (mode : Nat) (ftzo : Bool) (x : Fp) (w other : Word) (ftzi : Bool) : Word × Nat :=
  match c with
  | 0 => let (i, fl) := fpToInt mode x (-(2 ^ 63)) (2 ^ 63 - 1); (BitVec.ofInt 64 i, fl)
  | 1 => let (i, fl) := fpToInt mode x 0 (2 ^ 64 - 1); (BitVec.ofInt 64 i, fl)
  | 2 => let (r, fl) := (fmtOf p).put mode ftzo (intFp w.toInt); (BitVec.ofNat 64 r, fl)
  | 3 => let (r, fl) := (fmtOf p).put mode ftzo (intFp w.toNat); (BitVec.ofNat 64 r, fl)
  | _ =>
    let src := (fmtOf p).get ftzi (other.toNat % 2 ^ (fmtOf p).width)
    let (r, fl) := (fmtOf !p).put mode ftzo src
    (BitVec.ofNat 64 r, fl ||| src.snan)

/-- FCVT (R265, R230): D names the source width of a conversion between widths. -/
def execFcvt (d a c : BitVec 5) (t p : Bool) (m : BitVec 3) (s : State) : Host.Outcome State Fault Refusal :=
  finish1 s (withRegs s [(a, t)] (some d) fun k =>
    let w := (curH s).fcsr
    let (r, fl) := fcvtValue c.toNat p (modeOf w m) (ftzoOf w) (fpArg s p a) (gVal s a) (gVal s a) (ftziOf w)
    .ok (setG (addFlags k fl) d r))

/-- FCLASS (R266): raw bits, no flush, no flag. -/
def execFclass (d a : BitVec 5) (t p : Bool) (s : State) : Host.Outcome State Fault Refusal :=
  intOp1 d a t (fun x => BitVec.ofNat 64 (fpClass (fmtOf p) (x.toNat % 2 ^ (fmtOf p).width))) s

/-! ## Branches and jumps (R267, R268) -/

/-- BEQ (R267). -/
def execBeq (a b : BitVec 5) (o : BitVec 13) (s : State) : Host.Outcome State Fault Refusal :=
  branch a b o (fun x y => x == y) s

/-- BNE (R267). -/
def execBne (a b : BitVec 5) (o : BitVec 13) (s : State) : Host.Outcome State Fault Refusal :=
  branch a b o (fun x y => x != y) s

/-- BLT (R267). -/
def execBlt (a b : BitVec 5) (o : BitVec 13) (s : State) : Host.Outcome State Fault Refusal :=
  branch a b o (fun x y => x.slt y) s

/-- BGE (R267). -/
def execBge (a b : BitVec 5) (o : BitVec 13) (s : State) : Host.Outcome State Fault Refusal :=
  branch a b o (fun x y => y.sle x) s

/-- BLTU (R267). -/
def execBltu (a b : BitVec 5) (o : BitVec 13) (s : State) : Host.Outcome State Fault Refusal :=
  branch a b o (fun x y => x.ult y) s

/-- BGEU (R267). -/
def execBgeu (a b : BitVec 5) (o : BitVec 13) (s : State) : Host.Outcome State Fault Refusal :=
  branch a b o (fun x y => y.ule x) s

/-- JAL (R267, R268). -/
def execJal (d : BitVec 5) (o : BitVec 21) (s : State) : Host.Outcome State Fault Refusal :=
  finish1 s (withRegs s [] (some d) fun k =>
    let pc := (curH s).pc
    let target := pc + sext 21 o.toNat * 4
    if canonical target then .jump (setG k d (pc + 4)) target else protR s 2 target)

/-- JALR (R267, R268): the target is computed from ra as it was. -/
def execJalr (d a : BitVec 5) (t : Bool) (i : BitVec 15) (s : State) : Host.Outcome State Fault Refusal :=
  finish1 s (withRegs s [(a, t)] (some d) fun k =>
    let target := gVal s a + sext 15 i.toNat
    if target.toNat % 4 != 0 then trapR s cMISALIGN target
    else if canonical target then .jump (setG k d ((curH s).pc + 4)) target
    else protR s 2 target)

end Sys2Proof.Machine
end

