-- ==== Sys2Proof/Machine/Vector.lean ====
section
/-! DEFINITION. The vector instructions (R291 to R324): each is its word's fields handed to the shared issue of VecMem.lean, whose functions give the
effect by major and function; SETVL, the VCTL words and convoys. -/

namespace Sys2Proof.Machine
open Sys2Proof

/-! ## Integers (R299) -/

/-- VADD (R299). -/
def execVadd (d a b : BitVec 5) (k : BitVec 3) (c t x : Bool) (s : State) : Host.Outcome State Fault Refusal :=
  vIssue c ⟨0x21, d, a, b, k, t, 0 + x.toNat * 32⟩ s

/-- VSUB (R299). -/
def execVsub (d a b : BitVec 5) (k : BitVec 3) (c t x : Bool) (s : State) : Host.Outcome State Fault Refusal :=
  vIssue c ⟨0x21, d, a, b, k, t, 1 + x.toNat * 32⟩ s

/-- VMUL (R299). -/
def execVmul (d a b : BitVec 5) (k : BitVec 3) (c t x : Bool) (s : State) : Host.Outcome State Fault Refusal :=
  vIssue c ⟨0x21, d, a, b, k, t, 2 + x.toNat * 32⟩ s

/-- VMULH (R299). -/
def execVmulh (d a b : BitVec 5) (k : BitVec 3) (c t x : Bool) (s : State) : Host.Outcome State Fault Refusal :=
  vIssue c ⟨0x21, d, a, b, k, t, 3 + x.toNat * 32⟩ s

/-- VMULHU (R299). -/
def execVmulhu (d a b : BitVec 5) (k : BitVec 3) (c t x : Bool) (s : State) : Host.Outcome State Fault Refusal :=
  vIssue c ⟨0x21, d, a, b, k, t, 4 + x.toNat * 32⟩ s

/-- VAND (R299). -/
def execVand (d a b : BitVec 5) (k : BitVec 3) (c t x : Bool) (s : State) : Host.Outcome State Fault Refusal :=
  vIssue c ⟨0x21, d, a, b, k, t, 5 + x.toNat * 32⟩ s

/-- VOR (R299). -/
def execVor (d a b : BitVec 5) (k : BitVec 3) (c t x : Bool) (s : State) : Host.Outcome State Fault Refusal :=
  vIssue c ⟨0x21, d, a, b, k, t, 6 + x.toNat * 32⟩ s

/-- VXOR (R299). -/
def execVxor (d a b : BitVec 5) (k : BitVec 3) (c t x : Bool) (s : State) : Host.Outcome State Fault Refusal :=
  vIssue c ⟨0x21, d, a, b, k, t, 7 + x.toNat * 32⟩ s

/-- VSLL (R299). -/
def execVsll (d a b : BitVec 5) (k : BitVec 3) (c t x : Bool) (s : State) : Host.Outcome State Fault Refusal :=
  vIssue c ⟨0x21, d, a, b, k, t, 8 + x.toNat * 32⟩ s

/-- VSRL (R299). -/
def execVsrl (d a b : BitVec 5) (k : BitVec 3) (c t x : Bool) (s : State) : Host.Outcome State Fault Refusal :=
  vIssue c ⟨0x21, d, a, b, k, t, 9 + x.toNat * 32⟩ s

/-- VSRA (R299). -/
def execVsra (d a b : BitVec 5) (k : BitVec 3) (c t x : Bool) (s : State) : Host.Outcome State Fault Refusal :=
  vIssue c ⟨0x21, d, a, b, k, t, 10 + x.toNat * 32⟩ s

/-- VMIN (R299). -/
def execVmin (d a b : BitVec 5) (k : BitVec 3) (c t x : Bool) (s : State) : Host.Outcome State Fault Refusal :=
  vIssue c ⟨0x21, d, a, b, k, t, 11 + x.toNat * 32⟩ s

/-- VMAX (R299). -/
def execVmax (d a b : BitVec 5) (k : BitVec 3) (c t x : Bool) (s : State) : Host.Outcome State Fault Refusal :=
  vIssue c ⟨0x21, d, a, b, k, t, 12 + x.toNat * 32⟩ s

/-- VMINU (R299). -/
def execVminu (d a b : BitVec 5) (k : BitVec 3) (c t x : Bool) (s : State) : Host.Outcome State Fault Refusal :=
  vIssue c ⟨0x21, d, a, b, k, t, 13 + x.toNat * 32⟩ s

/-- VMAXU (R299). -/
def execVmaxu (d a b : BitVec 5) (k : BitVec 3) (c t x : Bool) (s : State) : Host.Outcome State Fault Refusal :=
  vIssue c ⟨0x21, d, a, b, k, t, 14 + x.toNat * 32⟩ s

/-- VABSD (R299). -/
def execVabsd (d a b : BitVec 5) (k : BitVec 3) (c t x : Bool) (s : State) : Host.Outcome State Fault Refusal :=
  vIssue c ⟨0x21, d, a, b, k, t, 15 + x.toNat * 32⟩ s

/-- VADDS (R299). -/
def execVadds (d a b : BitVec 5) (k : BitVec 3) (c t x : Bool) (s : State) : Host.Outcome State Fault Refusal :=
  vIssue c ⟨0x21, d, a, b, k, t, 16 + x.toNat * 32⟩ s

/-- VSUBS (R299). -/
def execVsubs (d a b : BitVec 5) (k : BitVec 3) (c t x : Bool) (s : State) : Host.Outcome State Fault Refusal :=
  vIssue c ⟨0x21, d, a, b, k, t, 17 + x.toNat * 32⟩ s

/-- VADDUS (R299). -/
def execVaddus (d a b : BitVec 5) (k : BitVec 3) (c t x : Bool) (s : State) : Host.Outcome State Fault Refusal :=
  vIssue c ⟨0x21, d, a, b, k, t, 18 + x.toNat * 32⟩ s

/-- VSUBUS (R299). -/
def execVsubus (d a b : BitVec 5) (k : BitVec 3) (c t x : Bool) (s : State) : Host.Outcome State Fault Refusal :=
  vIssue c ⟨0x21, d, a, b, k, t, 19 + x.toNat * 32⟩ s

/-- VDOT4 (R299). -/
def execVdot4 (d a b : BitVec 5) (k : BitVec 3) (c t x : Bool) (s : State) : Host.Outcome State Fault Refusal :=
  vIssue c ⟨0x21, d, a, b, k, t, 20 + x.toNat * 32⟩ s

/-- VMAC (R299). -/
def execVmac (d a b : BitVec 5) (k : BitVec 3) (c t x : Bool) (s : State) : Host.Outcome State Fault Refusal :=
  vIssue c ⟨0x21, d, a, b, k, t, 21 + x.toNat * 32⟩ s

/-! ## Floating point (R300) -/

/-- VFADD (R300). -/
def execVfadd (d a b : BitVec 5) (k : BitVec 3) (c t x : Bool) (s : State) : Host.Outcome State Fault Refusal :=
  vIssue c ⟨0x22, d, a, b, k, t, 0 + x.toNat * 32⟩ s

/-- VFSUB (R300). -/
def execVfsub (d a b : BitVec 5) (k : BitVec 3) (c t x : Bool) (s : State) : Host.Outcome State Fault Refusal :=
  vIssue c ⟨0x22, d, a, b, k, t, 1 + x.toNat * 32⟩ s

/-- VFMUL (R300). -/
def execVfmul (d a b : BitVec 5) (k : BitVec 3) (c t x : Bool) (s : State) : Host.Outcome State Fault Refusal :=
  vIssue c ⟨0x22, d, a, b, k, t, 2 + x.toNat * 32⟩ s

/-- VFMA (R300). -/
def execVfma (d a b : BitVec 5) (k : BitVec 3) (c t x : Bool) (s : State) : Host.Outcome State Fault Refusal :=
  vIssue c ⟨0x22, d, a, b, k, t, 3 + x.toNat * 32⟩ s

/-- VFNMA (R300). -/
def execVfnma (d a b : BitVec 5) (k : BitVec 3) (c t x : Bool) (s : State) : Host.Outcome State Fault Refusal :=
  vIssue c ⟨0x22, d, a, b, k, t, 4 + x.toNat * 32⟩ s

/-- VFDIV (R300). -/
def execVfdiv (d a b : BitVec 5) (k : BitVec 3) (c t x : Bool) (s : State) : Host.Outcome State Fault Refusal :=
  vIssue c ⟨0x22, d, a, b, k, t, 5 + x.toNat * 32⟩ s

/-- VFSQRT (R300). -/
def execVfsqrt (d a : BitVec 5) (k : BitVec 3) (c t : Bool) (s : State) : Host.Outcome State Fault Refusal :=
  vIssue c ⟨0x22, d, a, 0, k, t, 6⟩ s

/-- VFMIN (R300). -/
def execVfmin (d a b : BitVec 5) (k : BitVec 3) (c t x : Bool) (s : State) : Host.Outcome State Fault Refusal :=
  vIssue c ⟨0x22, d, a, b, k, t, 7 + x.toNat * 32⟩ s

/-- VFMAX (R300). -/
def execVfmax (d a b : BitVec 5) (k : BitVec 3) (c t x : Bool) (s : State) : Host.Outcome State Fault Refusal :=
  vIssue c ⟨0x22, d, a, b, k, t, 8 + x.toNat * 32⟩ s

/-- VFABS (R300). -/
def execVfabs (d a : BitVec 5) (k : BitVec 3) (c t : Bool) (s : State) : Host.Outcome State Fault Refusal :=
  vIssue c ⟨0x22, d, a, 0, k, t, 9⟩ s

/-- VFNEG (R300). -/
def execVfneg (d a : BitVec 5) (k : BitVec 3) (c t : Bool) (s : State) : Host.Outcome State Fault Refusal :=
  vIssue c ⟨0x22, d, a, 0, k, t, 10⟩ s

/-- VFSCL (R300). -/
def execVfscl (d a b : BitVec 5) (k : BitVec 3) (c t x : Bool) (s : State) : Host.Outcome State Fault Refusal :=
  vIssue c ⟨0x22, d, a, b, k, t, 11 + x.toNat * 32⟩ s

/-! ## Special functions (R301) -/

/-- VSFU_EXP2 (R301). -/
def execVsfuExp2 (d a : BitVec 5) (k : BitVec 3) (c t : Bool) (s : State) : Host.Outcome State Fault Refusal :=
  vIssue c ⟨0x23, d, a, 0, k, t, 0⟩ s

/-- VSFU_LOG2 (R301). -/
def execVsfuLog2 (d a : BitVec 5) (k : BitVec 3) (c t : Bool) (s : State) : Host.Outcome State Fault Refusal :=
  vIssue c ⟨0x23, d, a, 0, k, t, 1⟩ s

/-- VSFU_RCP (R301). -/
def execVsfuRcp (d a : BitVec 5) (k : BitVec 3) (c t : Bool) (s : State) : Host.Outcome State Fault Refusal :=
  vIssue c ⟨0x23, d, a, 0, k, t, 2⟩ s

/-- VSFU_RSQRT (R301). -/
def execVsfuRsqrt (d a : BitVec 5) (k : BitVec 3) (c t : Bool) (s : State) : Host.Outcome State Fault Refusal :=
  vIssue c ⟨0x23, d, a, 0, k, t, 3⟩ s

/-- VSFU_SIN (R301). -/
def execVsfuSin (d a : BitVec 5) (k : BitVec 3) (c t : Bool) (s : State) : Host.Outcome State Fault Refusal :=
  vIssue c ⟨0x23, d, a, 0, k, t, 4⟩ s

/-- VSFU_COS (R301). -/
def execVsfuCos (d a : BitVec 5) (k : BitVec 3) (c t : Bool) (s : State) : Host.Outcome State Fault Refusal :=
  vIssue c ⟨0x23, d, a, 0, k, t, 5⟩ s

/-- VSFU_TANH (R301). -/
def execVsfuTanh (d a : BitVec 5) (k : BitVec 3) (c t : Bool) (s : State) : Host.Outcome State Fault Refusal :=
  vIssue c ⟨0x23, d, a, 0, k, t, 6⟩ s

/-- VSFU_SIGM (R301). -/
def execVsfuSigm (d a : BitVec 5) (k : BitVec 3) (c t : Bool) (s : State) : Host.Outcome State Fault Refusal :=
  vIssue c ⟨0x23, d, a, 0, k, t, 7⟩ s

/-! ## Compares and masks (R302, R303) -/

/-- VCMP (R302). -/
def execVcmp (d a b : BitVec 5) (k : BitVec 3) (c t x : Bool) (n : BitVec 4) (s : State) : Host.Outcome State Fault Refusal :=
  vIssue c ⟨0x24, d, a, b, k, t, n.toNat + x.toNat * 32⟩ s

/-- VFCMP (R302). -/
def execVfcmp (d a b : BitVec 5) (k : BitVec 3) (c t x : Bool) (n : BitVec 4) (s : State) : Host.Outcome State Fault Refusal :=
  vIssue c ⟨0x24, d, a, b, k, t, n.toNat + 16 + x.toNat * 32⟩ s

/-- MAND (R303). -/
def execMand (d a b : BitVec 5) (k : BitVec 3) (c t : Bool) (s : State) : Host.Outcome State Fault Refusal :=
  vIssue c ⟨0x25, d, a, b, k, t, 0⟩ s

/-- MOR (R303). -/
def execMor (d a b : BitVec 5) (k : BitVec 3) (c t : Bool) (s : State) : Host.Outcome State Fault Refusal :=
  vIssue c ⟨0x25, d, a, b, k, t, 1⟩ s

/-- MXOR (R303). -/
def execMxor (d a b : BitVec 5) (k : BitVec 3) (c t : Bool) (s : State) : Host.Outcome State Fault Refusal :=
  vIssue c ⟨0x25, d, a, b, k, t, 2⟩ s

/-- MANDN (R303). -/
def execMandn (d a b : BitVec 5) (k : BitVec 3) (c t : Bool) (s : State) : Host.Outcome State Fault Refusal :=
  vIssue c ⟨0x25, d, a, b, k, t, 3⟩ s

/-- MNOT (R303). -/
def execMnot (d a : BitVec 5) (k : BitVec 3) (c t : Bool) (s : State) : Host.Outcome State Fault Refusal :=
  vIssue c ⟨0x25, d, a, 0, k, t, 4⟩ s

/-- MPOPC (R303). -/
def execMpopc (d a : BitVec 5) (k : BitVec 3) (c t : Bool) (s : State) : Host.Outcome State Fault Refusal :=
  vIssue c ⟨0x25, d, a, 0, k, t, 5⟩ s

/-- MFIRST (R303). -/
def execMfirst (d a : BitVec 5) (k : BitVec 3) (c t : Bool) (s : State) : Host.Outcome State Fault Refusal :=
  vIssue c ⟨0x25, d, a, 0, k, t, 6⟩ s

/-- MSET (R303). -/
def execMset (d : BitVec 5) (k : BitVec 3) (c t : Bool) (s : State) : Host.Outcome State Fault Refusal :=
  vIssue c ⟨0x25, d, 0, 0, k, t, 7⟩ s

/-- MCLR (R303). -/
def execMclr (d : BitVec 5) (k : BitVec 3) (c t : Bool) (s : State) : Host.Outcome State Fault Refusal :=
  vIssue c ⟨0x25, d, 0, 0, k, t, 8⟩ s

/-! ## Permutes and scans (R304) -/

/-- VPERM (R304). -/
def execVperm (d a b : BitVec 5) (k : BitVec 3) (c t : Bool) (s : State) : Host.Outcome State Fault Refusal :=
  vIssue c ⟨0x26, d, a, b, k, t, 0⟩ s

/-- VSLIDEUP (R304). -/
def execVslideup (d a b : BitVec 5) (k : BitVec 3) (c t : Bool) (s : State) : Host.Outcome State Fault Refusal :=
  vIssue c ⟨0x26, d, a, b, k, t, 1⟩ s

/-- VSLIDEDN (R304). -/
def execVslidedn (d a b : BitVec 5) (k : BitVec 3) (c t : Bool) (s : State) : Host.Outcome State Fault Refusal :=
  vIssue c ⟨0x26, d, a, b, k, t, 2⟩ s

/-- VCOMPRESS (R304). -/
def execVcompress (d a : BitVec 5) (k : BitVec 3) (c t : Bool) (s : State) : Host.Outcome State Fault Refusal :=
  vIssue c ⟨0x26, d, a, 0, k, t, 3⟩ s

/-- VEXPAND (R304). -/
def execVexpand (d a : BitVec 5) (k : BitVec 3) (c t : Bool) (s : State) : Host.Outcome State Fault Refusal :=
  vIssue c ⟨0x26, d, a, 0, k, t, 4⟩ s

/-- VSCAN (R304). -/
def execVscan (d a : BitVec 5) (n : BitVec 4) (k : BitVec 3) (c t : Bool) (s : State) : Host.Outcome State Fault Refusal :=
  vIssue c ⟨0x26, d, a, n.setWidth 5, k, t, 5⟩ s

/-- VFSCAN (R304). -/
def execVfscan (d a : BitVec 5) (n : BitVec 4) (k : BitVec 3) (c t : Bool) (s : State) : Host.Outcome State Fault Refusal :=
  vIssue c ⟨0x26, d, a, 16 + n.setWidth 5, k, t, 5⟩ s

/-- VROWBC (R304). -/
def execVrowbc (d a b : BitVec 5) (k : BitVec 3) (c t : Bool) (s : State) : Host.Outcome State Fault Refusal :=
  vIssue c ⟨0x26, d, a, b, k, t, 6⟩ s

/-! ## Reductions (R305) -/

/-- VRED_SUM (R305). -/
def execVredSum (d a : BitVec 5) (k : BitVec 3) (c t : Bool) (s : State) : Host.Outcome State Fault Refusal :=
  vIssue c ⟨0x27, d, a, 0, k, t, 0⟩ s

/-- VRED_MAX (R305). -/
def execVredMax (d a : BitVec 5) (k : BitVec 3) (c t : Bool) (s : State) : Host.Outcome State Fault Refusal :=
  vIssue c ⟨0x27, d, a, 0, k, t, 1⟩ s

/-- VRED_MIN (R305). -/
def execVredMin (d a : BitVec 5) (k : BitVec 3) (c t : Bool) (s : State) : Host.Outcome State Fault Refusal :=
  vIssue c ⟨0x27, d, a, 0, k, t, 2⟩ s

/-- VRED_AND (R305). -/
def execVredAnd (d a : BitVec 5) (k : BitVec 3) (c t : Bool) (s : State) : Host.Outcome State Fault Refusal :=
  vIssue c ⟨0x27, d, a, 0, k, t, 3⟩ s

/-- VRED_OR (R305). -/
def execVredOr (d a : BitVec 5) (k : BitVec 3) (c t : Bool) (s : State) : Host.Outcome State Fault Refusal :=
  vIssue c ⟨0x27, d, a, 0, k, t, 4⟩ s

/-- VRED_XOR (R305). -/
def execVredXor (d a : BitVec 5) (k : BitVec 3) (c t : Bool) (s : State) : Host.Outcome State Fault Refusal :=
  vIssue c ⟨0x27, d, a, 0, k, t, 5⟩ s

/-- VRED_MAXU (R305). -/
def execVredMaxu (d a : BitVec 5) (k : BitVec 3) (c t : Bool) (s : State) : Host.Outcome State Fault Refusal :=
  vIssue c ⟨0x27, d, a, 0, k, t, 6⟩ s

/-- VRED_MINU (R305). -/
def execVredMinu (d a : BitVec 5) (k : BitVec 3) (c t : Bool) (s : State) : Host.Outcome State Fault Refusal :=
  vIssue c ⟨0x27, d, a, 0, k, t, 7⟩ s

/-- VFRED_SUM (R305). -/
def execVfredSum (d a : BitVec 5) (k : BitVec 3) (c t : Bool) (s : State) : Host.Outcome State Fault Refusal :=
  vIssue c ⟨0x27, d, a, 0, k, t, 16⟩ s

/-- VFRED_MAX (R305). -/
def execVfredMax (d a : BitVec 5) (k : BitVec 3) (c t : Bool) (s : State) : Host.Outcome State Fault Refusal :=
  vIssue c ⟨0x27, d, a, 0, k, t, 17⟩ s

/-- VFRED_MIN (R305). -/
def execVfredMin (d a : BitVec 5) (k : BitVec 3) (c t : Bool) (s : State) : Host.Outcome State Fault Refusal :=
  vIssue c ⟨0x27, d, a, 0, k, t, 18⟩ s

/-! ## Conversions (R306 to R308) -/

/-- VCVTH (R307). -/
def execVcvth (d a : BitVec 5) (i : Bool) (f k : BitVec 3) (c t : Bool) (s : State) : Host.Outcome State Fault Refusal :=
  vIssue c ⟨0x28, d, a, BitVec.ofNat 5 (f.toNat + i.toNat * 8), k, t, 0⟩ s

/-- VCVTD (R307). -/
def execVcvtd (d a : BitVec 5) (u i : Bool) (f k : BitVec 3) (c t : Bool) (s : State) : Host.Outcome State Fault Refusal :=
  vIssue c ⟨0x28, d, a, BitVec.ofNat 5 (f.toNat + i.toNat * 8 + u.toNat * 16), k, t, 1⟩ s

/-- VCVTI2F (R306). -/
def execVcvti2f (d a : BitVec 5) (u : Bool) (k : BitVec 3) (c t : Bool) (s : State) : Host.Outcome State Fault Refusal :=
  vIssue c ⟨0x28, d, a, BitVec.ofNat 5 (u.toNat * 16), k, t, 2⟩ s

/-- VCVTF2I (R306). -/
def execVcvtf2i (d a : BitVec 5) (u : Bool) (k : BitVec 3) (c t : Bool) (s : State) : Host.Outcome State Fault Refusal :=
  vIssue c ⟨0x28, d, a, BitVec.ofNat 5 (u.toNat * 16), k, t, 3⟩ s

/-- VCVT8 (R308). -/
def execVcvt8 (d a : BitVec 5) (k : BitVec 3) (c t : Bool) (s : State) : Host.Outcome State Fault Refusal :=
  vIssue c ⟨0x28, d, a, 0, k, t, 4⟩ s

/-- VCVTS (R308). -/
def execVcvts (d a : BitVec 5) (k : BitVec 3) (c t : Bool) (s : State) : Host.Outcome State Fault Refusal :=
  vIssue c ⟨0x28, d, a, 0, k, t, 5⟩ s

/-! ## Moves and sidecars (R309, R310) -/

/-- VMV (R309). -/
def execVmv (d a : BitVec 5) (k : BitVec 3) (c t : Bool) (s : State) : Host.Outcome State Fault Refusal :=
  vIssue c ⟨0x29, d, a, 0, k, t, 0⟩ s

/-- VBCAST (R309). -/
def execVbcast (d a : BitVec 5) (k : BitVec 3) (c t : Bool) (s : State) : Host.Outcome State Fault Refusal :=
  vIssue c ⟨0x29, d, a, 0, k, t, 1⟩ s

/-- VEXTR (R309). -/
def execVextr (d a b : BitVec 5) (c t : Bool) (s : State) : Host.Outcome State Fault Refusal :=
  vIssue c ⟨0x29, d, a, b, 0, t, 2⟩ s

/-- VINS (R309). -/
def execVins (d a b : BitVec 5) (k : BitVec 3) (c t : Bool) (s : State) : Host.Outcome State Fault Refusal :=
  vIssue c ⟨0x29, d, a, b, k, t, 3⟩ s

/-- VSEL (R309). -/
def execVsel (d a b : BitVec 5) (k : BitVec 3) (c t : Bool) (s : State) : Host.Outcome State Fault Refusal :=
  vIssue c ⟨0x29, d, a, b, k, t, 4⟩ s

/-- VMRANK (R309). -/
def execVmrank (d : BitVec 5) (k : BitVec 3) (c t : Bool) (s : State) : Host.Outcome State Fault Refusal :=
  vIssue c ⟨0x29, d, 0, 0, k, t, 5⟩ s

/-- VSCLD (R310). -/
def execVscld (d a : BitVec 5) (k : BitVec 3) (c t : Bool) (s : State) : Host.Outcome State Fault Refusal :=
  vIssue c ⟨0x29, d, a, 0, k, t, 6⟩ s

/-- VSCST (R310). -/
def execVscst (d a : BitVec 5) (k : BitVec 3) (c t : Bool) (s : State) : Host.Outcome State Fault Refusal :=
  vIssue c ⟨0x29, d, a, 0, k, t, 7⟩ s

/-! ## Memory (R311 to R316) -/

/-- VLD (R311). -/
def execVld (d a : BitVec 5) (k : BitVec 3) (c t o y : Bool) (e : BitVec 2) (s : State) : Host.Outcome State Fault Refusal :=
  vIssue c ⟨0x2A, d, a, 0, k, t, 0 + o.toNat * 8 + y.toNat * 4 + e.toNat⟩ s

/-- VLD_STR (R311). -/
def execVldStr (d a b : BitVec 5) (k : BitVec 3) (c t o y : Bool) (e : BitVec 2) (s : State) : Host.Outcome State Fault Refusal :=
  vIssue c ⟨0x2A, d, a, b, k, t, 16 + o.toNat * 8 + y.toNat * 4 + e.toNat⟩ s

/-- VLD_X (R311). -/
def execVldX (d a b : BitVec 5) (k : BitVec 3) (c t o y : Bool) (e : BitVec 2) (s : State) : Host.Outcome State Fault Refusal :=
  vIssue c ⟨0x2A, d, a, b, k, t, 32 + o.toNat * 8 + y.toNat * 4 + e.toNat⟩ s

/-- VLD_CHK (R312). -/
def execVldChk (d a b : BitVec 5) (k : BitVec 3) (c t o y : Bool) (e : BitVec 2) (s : State) : Host.Outcome State Fault Refusal :=
  vIssue c ⟨0x2A, d, a, b, k, t, 48 + o.toNat * 8 + y.toNat * 4 + e.toNat⟩ s

/-- VST (R315). -/
def execVst (d a : BitVec 5) (k : BitVec 3) (c t o y : Bool) (e : BitVec 2) (s : State) : Host.Outcome State Fault Refusal :=
  vIssue c ⟨0x2B, d, a, 0, k, t, 0 + o.toNat * 8 + y.toNat * 4 + e.toNat⟩ s

/-- VST_STR (R315). -/
def execVstStr (d a b : BitVec 5) (k : BitVec 3) (c t o y : Bool) (e : BitVec 2) (s : State) : Host.Outcome State Fault Refusal :=
  vIssue c ⟨0x2B, d, a, b, k, t, 16 + o.toNat * 8 + y.toNat * 4 + e.toNat⟩ s

/-- VST_X (R315). -/
def execVstX (d a b : BitVec 5) (k : BitVec 3) (c t o y : Bool) (e : BitVec 2) (s : State) : Host.Outcome State Fault Refusal :=
  vIssue c ⟨0x2B, d, a, b, k, t, 32 + o.toNat * 8 + y.toNat * 4 + e.toNat⟩ s

/-- VAMO_ADD (R316). -/
def execVamoAdd (d a b : BitVec 5) (k : BitVec 3) (c t o y : Bool) (s : State) : Host.Outcome State Fault Refusal :=
  vIssue c ⟨0x2C, d, a, b, k, t, 0 + o.toNat * 4 + y.toNat * 2⟩ s

/-- VAMO_MIN (R316). -/
def execVamoMin (d a b : BitVec 5) (k : BitVec 3) (c t o y : Bool) (s : State) : Host.Outcome State Fault Refusal :=
  vIssue c ⟨0x2C, d, a, b, k, t, 8 + o.toNat * 4 + y.toNat * 2⟩ s

/-- VAMO_MAX (R316). -/
def execVamoMax (d a b : BitVec 5) (k : BitVec 3) (c t o y : Bool) (s : State) : Host.Outcome State Fault Refusal :=
  vIssue c ⟨0x2C, d, a, b, k, t, 16 + o.toNat * 4 + y.toNat * 2⟩ s

/-- VAMO_OR (R316). -/
def execVamoOr (d a b : BitVec 5) (k : BitVec 3) (c t o y : Bool) (s : State) : Host.Outcome State Fault Refusal :=
  vIssue c ⟨0x2C, d, a, b, k, t, 24 + o.toNat * 4 + y.toNat * 2⟩ s

/-- VAMO_FADD (R316). -/
def execVamoFadd (d a b : BitVec 5) (k : BitVec 3) (c t o y : Bool) (s : State) : Host.Outcome State Fault Refusal :=
  vIssue c ⟨0x2C, d, a, b, k, t, 32 + o.toNat * 4 + y.toNat * 2⟩ s

/-! ## Database primitives (R317 to R321) -/

/-- VHASH (R317). -/
def execVhash (d a b : BitVec 5) (k : BitVec 3) (c t : Bool) (s : State) : Host.Outcome State Fault Refusal :=
  vIssue c ⟨0x2D, d, a, b, k, t, 0⟩ s

/-- VBUCKET (R318). -/
def execVbucket (d a b : BitVec 5) (k : BitVec 3) (c t : Bool) (s : State) : Host.Outcome State Fault Refusal :=
  vIssue c ⟨0x2D, d, a, b, k, t, 1⟩ s

/-- VCONF (R319). -/
def execVconf (d a : BitVec 5) (k : BitVec 3) (c t : Bool) (s : State) : Host.Outcome State Fault Refusal :=
  vIssue c ⟨0x2D, d, a, 0, k, t, 2⟩ s

/-- VSTRCMP (R320). -/
def execVstrcmp (d a b : BitVec 5) (k : BitVec 3) (c t : Bool) (s : State) : Host.Outcome State Fault Refusal :=
  vIssue c ⟨0x2D, d, a, b, k, t, 3⟩ s

/-- VSTRHASH (R321). -/
def execVstrhash (d a b : BitVec 5) (k : BitVec 3) (c t : Bool) (s : State) : Host.Outcome State Fault Refusal :=
  vIssue c ⟨0x2D, d, a, b, k, t, 4⟩ s

/-! ## SETVL (R293) and the row count (R322) -/

/-- SETVL: ra always blocks; a named fmt register must be valid (R223). -/
def execSetvl (d a : BitVec 5) (e f l m c : BitVec 3) (s : State) : Host.Outcome State Fault Refusal :=
  finish1 s (
    if (curH s).v.lanes == 0 then operandR s
    else withRegs s [(a, false)] (some d) fun k =>
      let w := 4 * 2 ^ e.toNat
      if f != 0 && w ≤ 8 && !nfOk (mgetD (curH s).fmt f.toNat 0) w then operandR s
      else
        let cap := rowBytes (curH s).v.lanes * 8 / w * (tileOf s (curTile s)).laneStep / 64
        let b := if l == 0 then 1 else 4 * 2 ^ l.toNat
        let cap := cap / b * b
        let req := (gVal s a).toNat
        let v := min ((req + b - 1) / b * b) cap
        let h := curH k
        let vt := BitVec.ofNat 64 (l.toNat + f.toNat * 8 + e.toNat * 64 + m.toNat * 512 + c.toNat * 4096)
        .ok (setG (setCur k { h with v := { h.v with vtype := vt, vl := BitVec.ofNat 64 v, vlreq := BitVec.ofNat 64 (min req v) } }) d (BitVec.ofNat 64 v)))

/-- SETRC (R322): a count outside 1 to 8 raises OPERAND. -/
def execSetrc (a : BitVec 5) (t : Bool) (s : State) : Host.Outcome State Fault Refusal :=
  finish1 s (
    if (curH s).v.lanes == 0 then operandR s
    else withRegs s [(a, t)] none fun k =>
      let n := gVal s a
      if n == 0 || 8 < n.toNat then operandR s
      else .ok (setCur k { curH k with v := { (curH k).v with vrc := n } }))

/-! ## Vector threads (R182 to R184, R234) -/

/-- The lane groups of each thread of a split into n (R182). -/
def threadLanes (n : Nat) : List (BitVec 4) := if n == 2 then [3, 12] else [1, 2, 4, 8]

/-- Bit p of row (m, row) of a mask register as no element decides it: a free value (notes/assumptions/4.md). -/
def freeMaskBit (free m row p : Nat) : Bool := bitOf (Config.freeWord (free + (m * 8 + row) * 32 + p / 64)) (p % 64)
/-- A mask row, or a sidecar row, given by a function of the place. -/
def maskRow (f : Nat → Bool) : BitVec 2048 := BitVec.ofNat 2048 ((List.range 2048).foldl (fun a p => if f p then a + 2 ^ p else a) 0)

/-- Masks re-laid so that bits go with the elements they govern (R184), at element width w: by a split of the whole row into n, or by the merge of n. Thread
0's own bits stay as they are at a split (R323); another thread's bits that govern no element at that width, and those of a merged row, are free values
(notes/assumptions/37.md). Sidecar bytes lie with the elements they govern (R228). -/
def relay (t : Tile) (n w free : Nat) (merge : Bool) : Tile :=
  let per := 8192 / n / w
  let own := 2048 / n
  let bitAt (m row p : Nat) : Bool :=
    let whole (i : Nat) : Bool := (mgetD t.m (m * 8 + row) 0).toNat / 2 ^ i % 2 == 1
    if merge then (if p < n * per then whole (p / per * own + p % per) else freeMaskBit free m row p)
    else if p < own then whole p
    else if p % own < per then whole (p / own * per + p % own) else freeMaskBit free m row p
  { t with m := (List.range 56).foldl (fun m i => mset 0 m (i + 8) (maskRow (bitAt (i / 8 + 1) (i % 8)))) t.m }
/-- After a merge of n, a sidecar byte whose block would span a thread boundary holds 0xFF (R184); blocks of a valid vtype are too short for it (R221). -/
def spanFill (t : Tile) (n w bl : Nat) : Tile :=
  if w * bl ≤ 8192 / n then t
  else (List.range 256).foldl (fun t r => (List.range (8192 / (w * bl))).foldl (fun t j => setSideByte t 15 w bl (r / 8) (r % 8) j 0xFF) t) t

/-- The drawn free values of a re-laying are used up. -/
def drewRelay (s : State) : State := { s with free := s.free + 2048 }

/-- Thread j of a split: a PARKED hart that runs from the target (R183, R234). -/
def startThread (s : State) (k j : Nat) (lanes : BitVec 4) (target : Word) : State :=
  let h := hartOf s k
  let v0 := (curH s).v
  setHart s k { h with
    st := .running, pc := target, wait := .none
    g := mset 0 h.g 1 (BitVec.ofNat 64 j), gEmpty := h.gEmpty.filter (· != 1), gFault := mdel h.gFault 1
    v := { v0 with vl := 0, vlreq := 0, vcsr := v0.vcsr &&& 0x1F, lanes := lanes, tnum := j, split := true } }

/-- VSPLIT (R183, R323): waits until the registers are full and enough harts of the tile are PARKED. -/
def execVsplit (a n : BitVec 5) (t : Bool) (s : State) : Host.Outcome State Fault Refusal :=
  finish1 s (
    if !featOn s 5 then trapR s cILLOP 0
    else if (curH s).v.lanes == 0 then operandR s
    else withRegs s [(a, t)] none fun k =>
      let target := gVal s a
      let cnt := 2 * n.toNat
      let parked := (s.harts.filter fun (i, h) => i / 16 == curTile s && h.st == .parked).map (·.1)
      if (curH s).v.lanes != 15 || (curH s).v.split then operandR s
      else if target.toNat % 4 != 0 then trapR s cMISALIGN target
      else if !lanesFull (tileOf s (curTile s)) 15 || parked.length + 1 < cnt then waitR s .split
      else
        let vt := (curH s).v.vtype
        let k := setTile k (curTile s) (relay (tileOf k (curTile s)) cnt (vtEw vt) s.free false)
        let ls := threadLanes cnt
        let k := (parked.take (cnt - 1)).zipIdx.foldl (fun k (i, j) => startThread k i (j + 1) (ls.getD (j + 1) 0) target) k
        let h := curH k
        .ok (drewRelay (setCur k { h with v := { h.v with vl := 0, vlreq := 0, lanes := ls.getD 0 0, back := 0, tnum := 0, split := true } })))

/-- Lane groups returned to thread 0 of a split while its point is set aside stand with it, contents and all (R184, R203). -/
def returnAside (t : Tile) (l : BitVec 4) : Tile :=
  let mine (perGroup rowLen k : Nat) : Bool := (laneList l).contains (k % rowLen / perGroup)
  { t with aside := t.aside.map fun (d, a) =>
      if a.hart.v.split && a.hart.v.tnum == 0 then
        (d, { a with
          hart := { a.hart with v := { a.hart.v with back := a.hart.v.back ||| l } }
          v := (t.v.filter fun (k, _) => mine 256 1024 k).foldl (fun m x => mput m x.1 x.2) a.v
          vside := (t.vside.filter fun (k, _) => mine 64 256 k).foldl (fun m x => mput m x.1 x.2) a.vside
          vFault := (t.vFault.filter fun (k, _) => mine 4 16 k).foldl (fun m x => mput m x.1 x.2) a.vFault
          m := (List.range 64).foldl (fun m i => mset 0 m i (maskRow fun b =>
            (if (laneList l).contains (b / 512) then mgetD t.m i 0 else mgetD a.m i 0).toNat / 2 ^ b % 2 == 1)) a.m })
      else (d, a) }
/-- The executing thread returns its lane groups to thread 0 and parks (R170, R184). -/
def mergeThread (s : State) : State :=
  let h := curH s
  let s := match s.harts.find? fun (i, x) => i / 16 == curTile s && x.v.split && x.v.tnum == 0 with
    | some (i, x) => setHart s i { x with v := { x.v with back := x.v.back ||| h.v.lanes } }
    | none => postOnce (setTile s (curTile s) (returnAside (tileOf s (curTile s)) h.v.lanes)) (.dispatchDecision (curTile s / 128))
  setCur s { h with st := .parked, v := { h.v with lanes := 0, split := false } }

/-- VMERGE (R184): a thread parks once its groups are full; thread 0 takes all lane groups once every other thread has merged. -/
def execVmerge (s : State) : Host.Outcome State Fault Refusal :=
  finish1 s (
    let h := curH s
    let t := curTile s
    if !featOn s 5 then trapR s cILLOP 0
    else if h.v.lanes == 0 then operandR s
    else if !h.v.split then .ok s
    else if !lanesFull (tileOf s t) h.v.lanes then waitR s .split
    else if h.v.tnum != 0 then .ok (mergeThread s)
    else if (s.harts.any fun (i, x) => i / 16 == t && i != s.cur && x.v.split) || (tileOf s t).aside.any (fun (_, a) => a.hart.v.split) then waitR s .split
    else
      let others := s.harts.filter fun (i, x) => i / 16 == t && i != s.cur && x.v.tnum != 0
      let fl := others.foldl (fun w (_, x) => w ||| stickyOf x.v.vcsr) h.v.vcsr
      let s := others.foldl (fun s (i, x) => setHart s i { x with v := { x.v with tnum := 0 } }) s
      let n := if h.v.lanes == 3 then 2 else 4
      let s := setTile s t (spanFill (relay (tileOf s t) n (vtEw h.v.vtype) s.free true) n (vtEw h.v.vtype) (vtBl h.v.vtype))
      .ok (drewRelay (setCur s { curH s with v := { h.v with vcsr := fl, vl := 0, vlreq := 0, lanes := 15, back := 0, split := false } })))

/-- VPARK (R170, R324): a hart that holds lanes takes OPERAND. -/
def execVpark (s : State) : Host.Outcome State Fault Refusal :=
  finish1 s (
    if !featOn s 5 then trapR s cILLOP 0
    else if (curH s).v.lanes != 0 then operandR s
    else .ok (setCur s { curH s with st := .parked }))

/-! ## Convoys -/

/-- CONVOY_ISSUE (R178 to R181): the words of the convoy at pc issue as one. -/
def execConvoyIssue (words : List (BitVec 32)) (s : State) : Host.Outcome State Fault Refusal :=
  finish (curH s).pc (4 * words.length) (convoyBody (words.map (·.toNat)) s)

end Sys2Proof.Machine
end

