-- ==== Sys2Proof/Machine/Dispatch.lean ====
section
/-! DEFINITION. The one dispatch from an instruction or a step of a unit to its meaning. -/

namespace Sys2Proof.Machine
open Sys2Proof

def exec (i : Instr) (s : State) : Host.Outcome State Fault Refusal :=
  match i with
  | .add d a b t u w => Sys2Proof.Machine.execAdd d a b t u w s
  | .sub d a b t u w => Sys2Proof.Machine.execSub d a b t u w s
  | .mul d a b t u w => Sys2Proof.Machine.execMul d a b t u w s
  | .mulh d a b t u => Sys2Proof.Machine.execMulh d a b t u s
  | .mulhu d a b t u => Sys2Proof.Machine.execMulhu d a b t u s
  | .div d a b t u => Sys2Proof.Machine.execDiv d a b t u s
  | .divu d a b t u => Sys2Proof.Machine.execDivu d a b t u s
  | .rem d a b t u => Sys2Proof.Machine.execRem d a b t u s
  | .remu d a b t u => Sys2Proof.Machine.execRemu d a b t u s
  | .and d a b t u => Sys2Proof.Machine.execAnd d a b t u s
  | .or d a b t u => Sys2Proof.Machine.execOr d a b t u s
  | .xor d a b t u => Sys2Proof.Machine.execXor d a b t u s
  | .andn d a b t u => Sys2Proof.Machine.execAndn d a b t u s
  | .orn d a b t u => Sys2Proof.Machine.execOrn d a b t u s
  | .sll d a b t u w => Sys2Proof.Machine.execSll d a b t u w s
  | .srl d a b t u w => Sys2Proof.Machine.execSrl d a b t u w s
  | .sra d a b t u w => Sys2Proof.Machine.execSra d a b t u w s
  | .rol d a b t u w => Sys2Proof.Machine.execRol d a b t u w s
  | .ror d a b t u w => Sys2Proof.Machine.execRor d a b t u w s
  | .slt d a b t u => Sys2Proof.Machine.execSlt d a b t u s
  | .sltu d a b t u => Sys2Proof.Machine.execSltu d a b t u s
  | .min d a b t u => Sys2Proof.Machine.execMin d a b t u s
  | .max d a b t u => Sys2Proof.Machine.execMax d a b t u s
  | .minu d a b t u => Sys2Proof.Machine.execMinu d a b t u s
  | .maxu d a b t u => Sys2Proof.Machine.execMaxu d a b t u s
  | .clz d a t w => Sys2Proof.Machine.execClz d a t w s
  | .ctz d a t w => Sys2Proof.Machine.execCtz d a t w s
  | .popc d a t w => Sys2Proof.Machine.execPopc d a t w s
  | .bswap d a t => Sys2Proof.Machine.execBswap d a t s
  | .sext d a x t => Sys2Proof.Machine.execSext d a x t s
  | .zext d a x t => Sys2Proof.Machine.execZext d a x t s
  | .cmov d a b t u => Sys2Proof.Machine.execCmov d a b t u s
  | .hmix d a b t u => Sys2Proof.Machine.execHmix d a b t u s
  | .crc32c d a b t u => Sys2Proof.Machine.execCrc32c d a b t u s
  | .addi d a t imm => Sys2Proof.Machine.execAddi d a t imm s
  | .andi d a t imm => Sys2Proof.Machine.execAndi d a t imm s
  | .ori d a t imm => Sys2Proof.Machine.execOri d a t imm s
  | .xori d a t imm => Sys2Proof.Machine.execXori d a t imm s
  | .slti d a t imm => Sys2Proof.Machine.execSlti d a t imm s
  | .sltiu d a t imm => Sys2Proof.Machine.execSltiu d a t imm s
  | .slli d a t n w => Sys2Proof.Machine.execSlli d a t n w s
  | .srli d a t n w => Sys2Proof.Machine.execSrli d a t n w s
  | .srai d a t n w => Sys2Proof.Machine.execSrai d a t n w s
  | .rori d a t n w => Sys2Proof.Machine.execRori d a t n w s
  | .movhi d imm => Sys2Proof.Machine.execMovhi d imm s
  | .addpc d imm => Sys2Proof.Machine.execAddpc d imm s
  | .fadd d a b t u p m => Sys2Proof.Machine.execFadd d a b t u p m s
  | .fsub d a b t u p m => Sys2Proof.Machine.execFsub d a b t u p m s
  | .fmul d a b t u p m => Sys2Proof.Machine.execFmul d a b t u p m s
  | .fdiv d a b t u p m => Sys2Proof.Machine.execFdiv d a b t u p m s
  | .fsqrt d a t p m => Sys2Proof.Machine.execFsqrt d a t p m s
  | .fma d a b t u p m => Sys2Proof.Machine.execFma d a b t u p m s
  | .fnma d a b t u p m => Sys2Proof.Machine.execFnma d a b t u p m s
  | .fmin d a b t u p => Sys2Proof.Machine.execFmin d a b t u p s
  | .fmax d a b t u p => Sys2Proof.Machine.execFmax d a b t u p s
  | .feq d a b t u p => Sys2Proof.Machine.execFeq d a b t u p s
  | .flt d a b t u p => Sys2Proof.Machine.execFlt d a b t u p s
  | .fle d a b t u p => Sys2Proof.Machine.execFle d a b t u p s
  | .fcvt d a x t p m => Sys2Proof.Machine.execFcvt d a x t p m s
  | .fclass d a t p => Sys2Proof.Machine.execFclass d a t p s
  | .beq a b o => Sys2Proof.Machine.execBeq a b o s
  | .bne a b o => Sys2Proof.Machine.execBne a b o s
  | .blt a b o => Sys2Proof.Machine.execBlt a b o s
  | .bge a b o => Sys2Proof.Machine.execBge a b o s
  | .bltu a b o => Sys2Proof.Machine.execBltu a b o s
  | .bgeu a b o => Sys2Proof.Machine.execBgeu a b o s
  | .jal d o => Sys2Proof.Machine.execJal d o s
  | .jalr d a t imm => Sys2Proof.Machine.execJalr d a t imm s
  | .ld d a z u t o => Sys2Proof.Machine.execLd d a z u t o s
  | .st x a z t o => Sys2Proof.Machine.execSt x a z t o s
  | .ldo d a z u e c t => Sys2Proof.Machine.execLdo d a z u e c t s
  | .sto x a z e c t => Sys2Proof.Machine.execSto x a z e c t s
  | .amoSwap d a b z e c t => Sys2Proof.Machine.execAmoSwap d a b z e c t s
  | .amoCas d a b z e c t => Sys2Proof.Machine.execAmoCas d a b z e c t s
  | .amoAdd d a b z e c t => Sys2Proof.Machine.execAmoAdd d a b z e c t s
  | .amoAnd d a b z e c t => Sys2Proof.Machine.execAmoAnd d a b z e c t s
  | .amoOr d a b z e c t => Sys2Proof.Machine.execAmoOr d a b z e c t s
  | .amoXor d a b z e c t => Sys2Proof.Machine.execAmoXor d a b z e c t s
  | .amoMin d a b z e c t => Sys2Proof.Machine.execAmoMin d a b z e c t s
  | .amoMax d a b z e c t => Sys2Proof.Machine.execAmoMax d a b z e c t s
  | .amoMinu d a b z e c t => Sys2Proof.Machine.execAmoMinu d a b z e c t s
  | .amoMaxu d a b z e c t => Sys2Proof.Machine.execAmoMaxu d a b z e c t s
  | .amoFadd d a b z e c t => Sys2Proof.Machine.execAmoFadd d a b z e c t s
  | .redAdd b a z e c t => Sys2Proof.Machine.execRedAdd b a z e c t s
  | .redAnd b a z e c t => Sys2Proof.Machine.execRedAnd b a z e c t s
  | .redOr b a z e c t => Sys2Proof.Machine.execRedOr b a z e c t s
  | .redXor b a z e c t => Sys2Proof.Machine.execRedXor b a z e c t s
  | .redMin b a z e c t => Sys2Proof.Machine.execRedMin b a z e c t s
  | .redMax b a z e c t => Sys2Proof.Machine.execRedMax b a z e c t s
  | .redMinu b a z e c t => Sys2Proof.Machine.execRedMinu b a z e c t s
  | .redMaxu b a z e c t => Sys2Proof.Machine.execRedMaxu b a z e c t s
  | .redFadd b a z e c t => Sys2Proof.Machine.execRedFadd b a z e c t s
  | .fence c k e => Sys2Proof.Machine.execFence c k e s
  | .watch a => Sys2Proof.Machine.execWatch a s
  | .waitw d a c b => Sys2Proof.Machine.execWaitw d a c b s
  | .bar a b c => Sys2Proof.Machine.execBar a b c s
  | .arrive a b c => Sys2Proof.Machine.execArrive a b c s
  | .waitb a b c => Sys2Proof.Machine.execWaitb a b c s
  | .mfc g imm => Sys2Proof.Machine.execMfc g imm s
  | .mtc g t imm => Sys2Proof.Machine.execMtc g t imm s
  | .mtci v imm => Sys2Proof.Machine.execMtci v imm s
  | .crsb g t imm => Sys2Proof.Machine.execCrsb g t imm s
  | .crcb g t imm => Sys2Proof.Machine.execCrcb g t imm s
  | .tsackRetry id own => Sys2Proof.Machine.execTsackRetry id own s
  | .tsackFail id own => Sys2Proof.Machine.execTsackFail id own s
  | .tsackFrame id own => Sys2Proof.Machine.execTsackFrame id own s
  | .tsackInvalid id action own => Sys2Proof.Machine.execTsackInvalid id action own s
  | .nendWrite addr => Sys2Proof.Machine.execNendWrite addr s
  | .watermarkWrite idx val => Sys2Proof.Machine.execWatermarkWrite idx val s
  | .trap imm => Sys2Proof.Machine.execTrap imm s
  | .rfe => Sys2Proof.Machine.execRfe s
  | .halt g => Sys2Proof.Machine.execHalt g s
  | .yield g => Sys2Proof.Machine.execYield g s
  | .yieldExpire hart => Sys2Proof.Machine.execYieldExpire hart s
  | .brk => Sys2Proof.Machine.execBrk s
  | .shoot g h => Sys2Proof.Machine.execShoot g h s
  | .shootBroadcast id => Sys2Proof.Machine.execShootBroadcast id s
  | .shootDrop id stack => Sys2Proof.Machine.execShootDrop id stack s
  | .shootAck id stack => Sys2Proof.Machine.execShootAck id stack s
  | .shootComplete id => Sys2Proof.Machine.execShootComplete id s
  | .cwb g h => Sys2Proof.Machine.execCwb g h s
  | .cinv g => Sys2Proof.Machine.execCinv g s
  | .cinvRange g h => Sys2Proof.Machine.execCinvRange g h s
  | .cflush g h => Sys2Proof.Machine.execCflush g h s
  | .vcdef g h => Sys2Proof.Machine.execVcdef g h s
  | .vcdefProceed hart => Sys2Proof.Machine.execVcdefProceed hart s
  | .vcqry g h => Sys2Proof.Machine.execVcqry g h s
  | .launch g h n => Sys2Proof.Machine.execLaunch g h n s
  | .retire => Sys2Proof.Machine.execRetire s
  | .ctradd g h => Sys2Proof.Machine.execCtradd g h s
  | .ctrrd g h => Sys2Proof.Machine.execCtrrd g h s
  | .ctrset g h => Sys2Proof.Machine.execCtrset g h s
  | .setvl d a e f l m c => Sys2Proof.Machine.execSetvl d a e f l m c s
  | .vadd d a b k c t x => Sys2Proof.Machine.execVadd d a b k c t x s
  | .vsub d a b k c t x => Sys2Proof.Machine.execVsub d a b k c t x s
  | .vmul d a b k c t x => Sys2Proof.Machine.execVmul d a b k c t x s
  | .vmulh d a b k c t x => Sys2Proof.Machine.execVmulh d a b k c t x s
  | .vmulhu d a b k c t x => Sys2Proof.Machine.execVmulhu d a b k c t x s
  | .vand d a b k c t x => Sys2Proof.Machine.execVand d a b k c t x s
  | .vor d a b k c t x => Sys2Proof.Machine.execVor d a b k c t x s
  | .vxor d a b k c t x => Sys2Proof.Machine.execVxor d a b k c t x s
  | .vsll d a b k c t x => Sys2Proof.Machine.execVsll d a b k c t x s
  | .vsrl d a b k c t x => Sys2Proof.Machine.execVsrl d a b k c t x s
  | .vsra d a b k c t x => Sys2Proof.Machine.execVsra d a b k c t x s
  | .vmin d a b k c t x => Sys2Proof.Machine.execVmin d a b k c t x s
  | .vmax d a b k c t x => Sys2Proof.Machine.execVmax d a b k c t x s
  | .vminu d a b k c t x => Sys2Proof.Machine.execVminu d a b k c t x s
  | .vmaxu d a b k c t x => Sys2Proof.Machine.execVmaxu d a b k c t x s
  | .vabsd d a b k c t x => Sys2Proof.Machine.execVabsd d a b k c t x s
  | .vadds d a b k c t x => Sys2Proof.Machine.execVadds d a b k c t x s
  | .vsubs d a b k c t x => Sys2Proof.Machine.execVsubs d a b k c t x s
  | .vaddus d a b k c t x => Sys2Proof.Machine.execVaddus d a b k c t x s
  | .vsubus d a b k c t x => Sys2Proof.Machine.execVsubus d a b k c t x s
  | .vdot4 d a b k c t x => Sys2Proof.Machine.execVdot4 d a b k c t x s
  | .vmac d a b k c t x => Sys2Proof.Machine.execVmac d a b k c t x s
  | .vfadd d a b k c t x => Sys2Proof.Machine.execVfadd d a b k c t x s
  | .vfsub d a b k c t x => Sys2Proof.Machine.execVfsub d a b k c t x s
  | .vfmul d a b k c t x => Sys2Proof.Machine.execVfmul d a b k c t x s
  | .vfma d a b k c t x => Sys2Proof.Machine.execVfma d a b k c t x s
  | .vfnma d a b k c t x => Sys2Proof.Machine.execVfnma d a b k c t x s
  | .vfdiv d a b k c t x => Sys2Proof.Machine.execVfdiv d a b k c t x s
  | .vfsqrt d a k c t => Sys2Proof.Machine.execVfsqrt d a k c t s
  | .vfmin d a b k c t x => Sys2Proof.Machine.execVfmin d a b k c t x s
  | .vfmax d a b k c t x => Sys2Proof.Machine.execVfmax d a b k c t x s
  | .vfabs d a k c t => Sys2Proof.Machine.execVfabs d a k c t s
  | .vfneg d a k c t => Sys2Proof.Machine.execVfneg d a k c t s
  | .vfscl d a b k c t x => Sys2Proof.Machine.execVfscl d a b k c t x s
  | .vsfuExp2 d a k c t => Sys2Proof.Machine.execVsfuExp2 d a k c t s
  | .vsfuLog2 d a k c t => Sys2Proof.Machine.execVsfuLog2 d a k c t s
  | .vsfuRcp d a k c t => Sys2Proof.Machine.execVsfuRcp d a k c t s
  | .vsfuRsqrt d a k c t => Sys2Proof.Machine.execVsfuRsqrt d a k c t s
  | .vsfuSin d a k c t => Sys2Proof.Machine.execVsfuSin d a k c t s
  | .vsfuCos d a k c t => Sys2Proof.Machine.execVsfuCos d a k c t s
  | .vsfuTanh d a k c t => Sys2Proof.Machine.execVsfuTanh d a k c t s
  | .vsfuSigm d a k c t => Sys2Proof.Machine.execVsfuSigm d a k c t s
  | .vcmp d a b k c t x n => Sys2Proof.Machine.execVcmp d a b k c t x n s
  | .vfcmp d a b k c t x n => Sys2Proof.Machine.execVfcmp d a b k c t x n s
  | .mand d a b k c t => Sys2Proof.Machine.execMand d a b k c t s
  | .mor d a b k c t => Sys2Proof.Machine.execMor d a b k c t s
  | .mxor d a b k c t => Sys2Proof.Machine.execMxor d a b k c t s
  | .mandn d a b k c t => Sys2Proof.Machine.execMandn d a b k c t s
  | .mnot d a k c t => Sys2Proof.Machine.execMnot d a k c t s
  | .mpopc d a k c t => Sys2Proof.Machine.execMpopc d a k c t s
  | .mfirst d a k c t => Sys2Proof.Machine.execMfirst d a k c t s
  | .mset d k c t => Sys2Proof.Machine.execMset d k c t s
  | .mclr d k c t => Sys2Proof.Machine.execMclr d k c t s
  | .vperm d a b k c t => Sys2Proof.Machine.execVperm d a b k c t s
  | .vslideup d a b k c t => Sys2Proof.Machine.execVslideup d a b k c t s
  | .vslidedn d a b k c t => Sys2Proof.Machine.execVslidedn d a b k c t s
  | .vcompress d a k c t => Sys2Proof.Machine.execVcompress d a k c t s
  | .vexpand d a k c t => Sys2Proof.Machine.execVexpand d a k c t s
  | .vscan d a n k c t => Sys2Proof.Machine.execVscan d a n k c t s
  | .vfscan d a n k c t => Sys2Proof.Machine.execVfscan d a n k c t s
  | .vrowbc d a b k c t => Sys2Proof.Machine.execVrowbc d a b k c t s
  | .vredSum d a k c t => Sys2Proof.Machine.execVredSum d a k c t s
  | .vredMax d a k c t => Sys2Proof.Machine.execVredMax d a k c t s
  | .vredMin d a k c t => Sys2Proof.Machine.execVredMin d a k c t s
  | .vredAnd d a k c t => Sys2Proof.Machine.execVredAnd d a k c t s
  | .vredOr d a k c t => Sys2Proof.Machine.execVredOr d a k c t s
  | .vredXor d a k c t => Sys2Proof.Machine.execVredXor d a k c t s
  | .vredMaxu d a k c t => Sys2Proof.Machine.execVredMaxu d a k c t s
  | .vredMinu d a k c t => Sys2Proof.Machine.execVredMinu d a k c t s
  | .vfredSum d a k c t => Sys2Proof.Machine.execVfredSum d a k c t s
  | .vfredMax d a k c t => Sys2Proof.Machine.execVfredMax d a k c t s
  | .vfredMin d a k c t => Sys2Proof.Machine.execVfredMin d a k c t s
  | .vcvth d a imm f k c t => Sys2Proof.Machine.execVcvth d a imm f k c t s
  | .vcvtd d a u imm f k c t => Sys2Proof.Machine.execVcvtd d a u imm f k c t s
  | .vcvti2f d a u k c t => Sys2Proof.Machine.execVcvti2f d a u k c t s
  | .vcvtf2i d a u k c t => Sys2Proof.Machine.execVcvtf2i d a u k c t s
  | .vcvt8 d a k c t => Sys2Proof.Machine.execVcvt8 d a k c t s
  | .vcvts d a k c t => Sys2Proof.Machine.execVcvts d a k c t s
  | .vmv d a k c t => Sys2Proof.Machine.execVmv d a k c t s
  | .vbcast d a k c t => Sys2Proof.Machine.execVbcast d a k c t s
  | .vextr d a b c t => Sys2Proof.Machine.execVextr d a b c t s
  | .vins d a b k c t => Sys2Proof.Machine.execVins d a b k c t s
  | .vsel d a b k c t => Sys2Proof.Machine.execVsel d a b k c t s
  | .vmrank d k c t => Sys2Proof.Machine.execVmrank d k c t s
  | .vscld d a k c t => Sys2Proof.Machine.execVscld d a k c t s
  | .vscst d a k c t => Sys2Proof.Machine.execVscst d a k c t s
  | .vld d a k c t o y e => Sys2Proof.Machine.execVld d a k c t o y e s
  | .vldStr d a b k c t o y e => Sys2Proof.Machine.execVldStr d a b k c t o y e s
  | .vldX d a b k c t o y e => Sys2Proof.Machine.execVldX d a b k c t o y e s
  | .vldChk d a b k c t o y e => Sys2Proof.Machine.execVldChk d a b k c t o y e s
  | .vst d a k c t o y e => Sys2Proof.Machine.execVst d a k c t o y e s
  | .vstStr d a b k c t o y e => Sys2Proof.Machine.execVstStr d a b k c t o y e s
  | .vstX d a b k c t o y e => Sys2Proof.Machine.execVstX d a b k c t o y e s
  | .vamoAdd d a b k c t o y => Sys2Proof.Machine.execVamoAdd d a b k c t o y s
  | .vamoMin d a b k c t o y => Sys2Proof.Machine.execVamoMin d a b k c t o y s
  | .vamoMax d a b k c t o y => Sys2Proof.Machine.execVamoMax d a b k c t o y s
  | .vamoOr d a b k c t o y => Sys2Proof.Machine.execVamoOr d a b k c t o y s
  | .vamoFadd d a b k c t o y => Sys2Proof.Machine.execVamoFadd d a b k c t o y s
  | .vhash d a b k c t => Sys2Proof.Machine.execVhash d a b k c t s
  | .vbucket d a b k c t => Sys2Proof.Machine.execVbucket d a b k c t s
  | .vconf d a k c t => Sys2Proof.Machine.execVconf d a k c t s
  | .vstrcmp d a b k c t => Sys2Proof.Machine.execVstrcmp d a b k c t s
  | .vstrhash d a b k c t => Sys2Proof.Machine.execVstrhash d a b k c t s
  | .setrc a t => Sys2Proof.Machine.execSetrc a t s
  | .vsplit a n t => Sys2Proof.Machine.execVsplit a n t s
  | .vmerge => Sys2Proof.Machine.execVmerge s
  | .vpark => Sys2Proof.Machine.execVpark s
  | .convoyIssue words => Sys2Proof.Machine.execConvoyIssue words s
  | .mld n x a b t => Sys2Proof.Machine.execMld n x a b t s
  | .mst n x a b t => Sys2Proof.Machine.execMst n x a b t s
  | .mma c a b x p n z y => Sys2Proof.Machine.execMma c a b x p n z y s
  | .mzero c x => Sys2Proof.Machine.execMzero c x s
  | .macc2v d c x => Sys2Proof.Machine.execMacc2v d c x s
  | .macc2t c n x => Sys2Proof.Machine.execMacc2t c n x s
  | .msync m => Sys2Proof.Machine.execMsync m s
  | .mmaBegin tile => Sys2Proof.Machine.execMmaBegin tile s
  | .matrixOpComplete tile stream => Sys2Proof.Machine.execMatrixOpComplete tile stream s
  | .copyLin r c f => Sys2Proof.Machine.execCopyLin r c f s
  | .copyDeint r c f esz np => Sys2Proof.Machine.execCopyDeint r c f esz np s
  | .copyPerm r c f esz perm => Sys2Proof.Machine.execCopyPerm r c f esz perm s
  | .copyVreg r c f => Sys2Proof.Machine.execCopyVreg r c f s
  | .copyTile r c f => Sys2Proof.Machine.execCopyTile r c f s
  | .strm ga gd c q file reg dir => Sys2Proof.Machine.execStrm ga gd c q file reg dir s
  | .unstrm q => Sys2Proof.Machine.execUnstrm q s
  | .rsv r c esz wr mode hunit => Sys2Proof.Machine.execRsv r c esz wr mode hunit s
  | .ursv gd c hunit => Sys2Proof.Machine.execUrsv gd c hunit s
  | .nodeNest ga => Sys2Proof.Machine.execNodeNest ga s
  | .nodeCmd ga => Sys2Proof.Machine.execNodeCmd ga s
  | .put r c dpkg tag => Sys2Proof.Machine.execPut r c dpkg tag s
  | .get r c dpkg => Sys2Proof.Machine.execGet r c dpkg s
  | .ramo r c dpkg func => Sys2Proof.Machine.execRamo r c dpkg func s
  | .rred r c dpkg tag func => Sys2Proof.Machine.execRred r c dpkg tag func s
  | .mcast r c group tag => Sys2Proof.Machine.execMcast r c group tag s
  | .tpost ga gb gc k act rel => Sys2Proof.Machine.execTpost ga gb gc k act rel s
  | .tcancel ga gd k => Sys2Proof.Machine.execTcancel ga gd k s
  | .fcfg ga gd c => Sys2Proof.Machine.execFcfg ga gd c s
  | .frun ga gd c => Sys2Proof.Machine.execFrun ga gd c s
  | .frunResume ga gd c => Sys2Proof.Machine.execFrunResume ga gd c s
  | .fhalt ga gd c => Sys2Proof.Machine.execFhalt ga gd c s
  | .commandAccept hart => Sys2Proof.Machine.execCommandAccept hart s
  | .copyBegin tile => Sys2Proof.Machine.execCopyBegin tile s
  | .copyTransfer tile cmd => Sys2Proof.Machine.execCopyTransfer tile cmd s
  | .commandComplete tile cmd => Sys2Proof.Machine.execCommandComplete tile cmd s
  | .commandNodeBegin part node => Sys2Proof.Machine.execCommandNodeBegin part node s
  | .streamEngineAccess tile q => Sys2Proof.Machine.execStreamEngineAccess tile q s
  | .streamComplete tile q => Sys2Proof.Machine.execStreamComplete tile q s
  | .counterRaise tile k amount => Sys2Proof.Machine.execCounterRaise tile k amount s
  | .postExamine tile k => Sys2Proof.Machine.execPostExamine tile k s
  | .firedOpHandoff tile => Sys2Proof.Machine.execFiredOpHandoff tile s
  | .counterRunGrant tile run part => Sys2Proof.Machine.execCounterRunGrant tile run part s
  | .counterRunRevoke tile run => Sys2Proof.Machine.execCounterRunRevoke tile run s
  | .walkComplete tile part va kind sup => Sys2Proof.Machine.execWalkComplete tile part va kind sup s
  | .tsqRecordWrite part => Sys2Proof.Machine.execTsqRecordWrite part s
  | .gets agent gran => Sys2Proof.Machine.execGets agent gran s
  | .getm agent gran => Sys2Proof.Machine.execGetm agent gran s
  | .upg agent gran => Sys2Proof.Machine.execUpg agent gran s
  | .puts agent gran => Sys2Proof.Machine.execPuts agent gran s
  | .putm agent gran d => Sys2Proof.Machine.execPutm agent gran d s
  | .rdat agent gran d => Sys2Proof.Machine.execRdat agent gran d s
  | .done agent gran => Sys2Proof.Machine.execDone agent gran s
  | .data agent gran st acks d => Sys2Proof.Machine.execData agent gran st acks d s
  | .gnt agent gran acks => Sys2Proof.Machine.execGnt agent gran acks s
  | .inv agent gran req part => Sys2Proof.Machine.execInv agent gran req part s
  | .rcls agent gran part => Sys2Proof.Machine.execRcls agent gran part s
  | .rcli agent gran part => Sys2Proof.Machine.execRcli agent gran part s
  | .iack req agent gran => Sys2Proof.Machine.execIack req agent gran s
  | .pack agent gran => Sys2Proof.Machine.execPack agent gran s
  | .err agent gran => Sys2Proof.Machine.execErr agent gran s
  | .homeServedAccess id => Sys2Proof.Machine.execHomeServedAccess id s
  | .homeAtomic id => Sys2Proof.Machine.execHomeAtomic id s
  | .move part vcid gran old new dirty => Sys2Proof.Machine.execMove part vcid gran old new dirty s
  | .mack part vcid gran => Sys2Proof.Machine.execMack part vcid gran s
  | .mnak part vcid gran => Sys2Proof.Machine.execMnak part vcid gran s
  | .migrationSweep part vcid => Sys2Proof.Machine.execMigrationSweep part vcid s
  | .migrationEnd part vcid => Sys2Proof.Machine.execMigrationEnd part vcid s
  | .drainSweep part vcid => Sys2Proof.Machine.execDrainSweep part vcid s
  | .drainDone part vcid => Sys2Proof.Machine.execDrainDone part vcid s
  | .correctedBankError bank seg => Sys2Proof.Machine.execCorrectedBankError bank seg s
  | .uncorrectableBankError bank seg => Sys2Proof.Machine.execUncorrectableBankError bank seg s
  | .pieceRegister piece => Sys2Proof.Machine.execPieceRegister piece s
  | .positionQuery piece watch => Sys2Proof.Machine.execPositionQuery piece watch s
  | .positionAnswer piece pos => Sys2Proof.Machine.execPositionAnswer piece pos s
  | .pieceEnd piece => Sys2Proof.Machine.execPieceEnd piece s
  | .hostMemRead gran snp => Sys2Proof.Machine.execHostMemRead gran snp s
  | .hostMemInv gran => Sys2Proof.Machine.execHostMemInv gran s
  | .hostMemWrite gran d => Sys2Proof.Machine.execHostMemWrite gran d s
  | .hostMemCleanEvict gran => Sys2Proof.Machine.execHostMemCleanEvict gran s
  | .biResponse gran keeps d => Sys2Proof.Machine.execBiResponse gran keeps d s
  | .biConflict gran => Sys2Proof.Machine.execBiConflict gran s
  | .h2dSnpData gran => Sys2Proof.Machine.execH2dSnpData gran s
  | .h2dSnpInv gran => Sys2Proof.Machine.execH2dSnpInv gran s
  | .h2dSnpCur gran => Sys2Proof.Machine.execH2dSnpCur gran s
  | .h2dResponse gran d => Sys2Proof.Machine.execH2dResponse gran d s
  | .heartbeatMiss agent => Sys2Proof.Machine.execHeartbeatMiss agent s
  | .hostLinkFail link => Sys2Proof.Machine.execHostLinkFail link s
  | .scrubStep stack => Sys2Proof.Machine.execScrubStep stack s
  | .storeSend hart => Sys2Proof.Machine.execStoreSend hart s
  | .storeAck hart id => Sys2Proof.Machine.execStoreAck hart id s
  | .mergeFlushIdle tile idx => Sys2Proof.Machine.execMergeFlushIdle tile idx s
  | .joinMarkers hart => Sys2Proof.Machine.execJoinMarkers hart s
  | .joinMarkerArrive join circuit => Sys2Proof.Machine.execJoinMarkerArrive join circuit s
  | .jackSend join circuit => Sys2Proof.Machine.execJackSend join circuit s
  | .jackArrive join circuit => Sys2Proof.Machine.execJackArrive join circuit s
  | .monitorNotify hart => Sys2Proof.Machine.execMonitorNotify hart s
  | .watermarkRelease hart => Sys2Proof.Machine.execWatermarkRelease hart s
  | .loadDataReturn id => Sys2Proof.Machine.execLoadDataReturn id s
  | .dispatchDecision stack => Sys2Proof.Machine.execDispatchDecision stack s
  | .poolEntryTaken stack level => Sys2Proof.Machine.execPoolEntryTaken stack level s
  | .pointSetAside hart => Sys2Proof.Machine.execPointSetAside hart s
  | .pointRestore tile depth => Sys2Proof.Machine.execPointRestore tile depth s
  | .quantumExpiry region => Sys2Proof.Machine.execQuantumExpiry region s
  | .contextSwapBegin region => Sys2Proof.Machine.execContextSwapBegin region s
  | .contextSwapComplete region => Sys2Proof.Machine.execContextSwapComplete region s
  | .laneStepChange tile lanes => Sys2Proof.Machine.execLaneStepChange tile lanes s
  | .thermalHalt => Sys2Proof.Machine.execThermalHalt s
  | .incomingPut p bytes => Sys2Proof.Machine.execIncomingPut p bytes s
  | .incomingGet p len => Sys2Proof.Machine.execIncomingGet p len s
  | .incomingRamo p func dword operand cmp => Sys2Proof.Machine.execIncomingRamo p func dword operand cmp s
  | .incomingRred p func dword bytes => Sys2Proof.Machine.execIncomingRred p func dword bytes s
  | .incomingMcast p bytes => Sys2Proof.Machine.execIncomingMcast p bytes s
  | .podAnswer tile cmd neg bytes nneg low => Sys2Proof.Machine.execPodAnswer tile cmd neg bytes nneg low s
  | .mcastRoute tile cmd => Sys2Proof.Machine.execMcastRoute tile cmd s
  | .mcastMemberAnswer tile cmd pkg neg => Sys2Proof.Machine.execMcastMemberAnswer tile cmd pkg neg s
  | .podMergeSend idx => Sys2Proof.Machine.execPodMergeSend idx s
  | .routerContribution x => Sys2Proof.Machine.execRouterContribution x s
  | .routerElementTimeout cluster elem => Sys2Proof.Machine.execRouterElementTimeout cluster elem s
  | .routerAnswer cluster elem neg => Sys2Proof.Machine.execRouterAnswer cluster elem neg s
  | .routerReplicate tile part pa bytes => Sys2Proof.Machine.execRouterReplicate tile part pa bytes s
  | .routerEntryWrite tile part off val => Sys2Proof.Machine.execRouterEntryWrite tile part off val s
  | .crossbarDivergence => Sys2Proof.Machine.execCrossbarDivergence s
  | .crossbarRetrainDone ok => Sys2Proof.Machine.execCrossbarRetrainDone ok s
  | .correctedLaneError slice => Sys2Proof.Machine.execCorrectedLaneError slice s
  | .cellFire tile pos => Sys2Proof.Machine.execCellFire tile pos s
  | .awlElement tile awl => Sys2Proof.Machine.execAwlElement tile awl s
  | .xlateTranslate tile awl => Sys2Proof.Machine.execXlateTranslate tile awl s
  | .awlExtentAnswer tile awl => Sys2Proof.Machine.execAwlExtentAnswer tile awl s
  | .miuAccess tile awl => Sys2Proof.Machine.execMiuAccess tile awl s
  | .miuBurstClose tile awl => Sys2Proof.Machine.execMiuBurstClose tile awl s
  | .awlLoadReturn tile awl => Sys2Proof.Machine.execAwlLoadReturn tile awl s
  | .portElement tile q => Sys2Proof.Machine.execPortElement tile q s
  | .fabricRunComplete tile => Sys2Proof.Machine.execFabricRunComplete tile s
  | .cellFreeze tile pos => Sys2Proof.Machine.execCellFreeze tile pos s
  | .cutWrite tile => Sys2Proof.Machine.execCutWrite tile s
  | .freezeAbandon tile => Sys2Proof.Machine.execFreezeAbandon tile s
  | .partitionStart part => Sys2Proof.Machine.execPartitionStart part s
  | .partitionRemove part => Sys2Proof.Machine.execPartitionRemove part s
  | .featureLock lock => Sys2Proof.Machine.execFeatureLock lock s
  | .segmentRevoke bank seg => Sys2Proof.Machine.execSegmentRevoke bank seg s
  | .controlSpaceWrite off size val => Sys2Proof.Machine.execControlSpaceWrite off size val s
  | .fretiaCsrRead off => Sys2Proof.Machine.execFretiaCsrRead off s
  | .fretiaCsrWrite off val => Sys2Proof.Machine.execFretiaCsrWrite off val s
  | .fretiaBlackboxRead die => Sys2Proof.Machine.execFretiaBlackboxRead die s
  | .fretiaGroupWrite entry members => Sys2Proof.Machine.execFretiaGroupWrite entry members s
  | .fretiaAttestation nonce => Sys2Proof.Machine.execFretiaAttestation nonce s
  | .coldReset verified => Sys2Proof.Machine.execColdReset verified s
  | .warmReset => Sys2Proof.Machine.execWarmReset s
  | .reservedEncoding word => Sys2Proof.Machine.execReservedEncoding word s
  | .instructionFetchFault cause sub addr => Sys2Proof.Machine.execInstructionFetchFault cause sub addr s
  | .agentReadmit agent => Sys2Proof.Machine.execAgentReadmit agent s
  | .managementSwap region => Sys2Proof.Machine.execManagementSwap region s
  | .scaleUpLinkFailure dest => Sys2Proof.Machine.execScaleUpLinkFailure dest s

end Sys2Proof.Machine
end

