-- ==== Sys2Proof/Machine/Fetch.lean ====
section
/-! DEFINITION. Fetching instruction words (R68, R240, R285, R424), which hart moves next, what a run of vector words is, and the
placing of an instruction before a run. -/

namespace Sys2Proof.Machine
open Sys2Proof

/-- The answer of a fetch: a word, not yet, or a fault with its cause and PROT detail at an address. -/
inductive FetchRes where
  | word (s : State) (w : Nat)
  | wait (s : State)
  | fault (s : State) (cause sub : Nat) (va : Word)
deriving DecidableEq, Repr

/-- The instruction-cache copy of a granule filled from the page's composed cache or from home; it is not kept coherent (R68). -/
def icFill (s : State) (t p : Nat) (x : Piece) : Acc :=
  match accRead s { tile := t, part := p, unit := 100, l1 := false, ev := some (hartTurn s.cur) } x with
  | .ok s bs => .ok (setTile s t { tileOf s t with ic := mput (tileOf s t).ic (x.pk / 128) (BitVec.ofNat 1024 (leNat bs)) }) bs
  | r => r

/-- One instruction word of the executing hart at va: translated as a fetch (R27, R28), read from the tile's instruction cache. -/
def fetchWord (s : State) (va : Word) : FetchRes :=
  let t := curTile s
  let p := curPart s
  match xlateFetch s t p va (curH s).sup with
  | .fault s c sb => .fault s c sb va
  | .ok s x =>
    let pk := x.pk va
    match slotRefuses s p x.vcid va .fetch with
    | some sb => .fault s cPROT sb va
    | none =>
      let look (d : BitVec 1024) : Nat := d.toNat / 2 ^ (8 * (pk % 128)) % 2 ^ 32
      match mfind (tileOf s t).ic (pk / 128) with
      | some d => .word s (look d)
      | none =>
        match icFill s t p ⟨pk / 128 * 128, 128, x.vcid, va - BitVec.ofNat 64 (pk % 128), false⟩ with
        | .ok s bs => .word s (look (BitVec.ofNat 1024 (leNat bs)))
        | .wait s => .wait s
        | .err s c sb => .fault s c sb va

/-- What a hart fetches before it issues: its words, or why it does not. -/
inductive Issue where
  | words (s : State) (ws : List Nat)
  | wait (s : State)
  | fault (s : State) (cause sub : Nat) (va : Word)
deriving DecidableEq, Repr

/-- n further words from va on. -/
def fetchMore (s : State) (va : Word) (n : Nat) (got : List Nat) : Issue :=
  match n with
  | 0 => .words s got
  | k + 1 =>
    match fetchWord s va with
    | .word s w => fetchMore s (va + 4) k (got ++ [w])
    | .wait s => .wait s
    | .fault s c sb a => .fault s c sb a

/-- The major opcode of a word (R241). -/
def majorOf (w : Nat) : Nat := w / 2 ^ 26 % 64
/-- A vector word with a C bit: majors 0x21 to 0x2B and 0x2C to 0x2E (R239). -/
def hasC (w : Nat) : Bool := 33 ≤ majorOf w && majorOf w ≤ 46
def cBit (w : Nat) : Bool := w / 128 % 2 == 1
/-- A word that may be a convoy member (R179): VCTL, VEXTR, MPOPC and MFIRST may not. -/
def isMember (w : Nat) : Bool :=
  hasC w && majorOf w != 46 && !(majorOf w == 41 && w % 64 == 2) && !(majorOf w == 37 && (w % 64 == 5 || w % 64 == 6))

/-- The words of a convoy after its last member so far (R178, R181): the next word is examined, and joins when its C bit is set. Where its fetch faults, a
member before it that rows 2 or 3 refuse traps instead: the rows are applied to the members in program order (R247). -/
def fetchConvoy (s : State) (va : Word) (n : Nat) (got : List Nat) : Issue :=
  match n with
  | 0 => .words s got
  | k + 1 =>
    match fetchWord s va with
    | .word s w =>
      if hasC w && cBit w then
        (if isMember w then fetchConvoy s (va + 4) k (got ++ [w]) else .words s (got ++ [w]))
      else .words s got
    | .wait s => .wait s
    | .fault s c sb a => if got.any (illWord s) then .words s got else .fault s c sb a

/-- The hart stands at other words than the BAR it would resume: nothing of that BAR is left (R413, R414). -/
noncomputable def leaveBar (s : State) (ws : List Nat) : State :=
  if (curH s).barPh.isNone then s
  else match decode (ws.map (BitVec.ofNat 32)) with
    | .ok (.bar _ _ _) => s
    | _ => setCur s { curH s with barPh := none }

/-- The words that stand at the executing hart's pc. -/
def fetchWords (s : State) : Issue :=
  let pc := (curH s).pc
  match fetchWord s pc with
  | .word s w =>
    if majorOf w == 63 then fetchMore s (pc + 4) 3 [w]
    else if isMember w && !cBit w then fetchConvoy s (pc + 4) 4 [w]
    else .words s [w]
  | .wait s => .wait s
  | .fault s c sb a => .fault s c sb a
/-- All words of what stands at the executing hart's pc: one word, the four of a command, or a convoy (R240, R181). -/
noncomputable def fetchIssue (s : State) : Issue :=
  match fetchWords s with
  | .words s ws => .words (leaveBar s ws) ws
  | r => r

/-- The RUNNING harts that may issue. -/
def runners (s : State) : List Nat := (s.harts.filter fun (i, h) => h.st == .running && issues s (i / 16)).map (·.1)
/-- The tile whose control core issues next: the first with such harts after the one that did last (R192; notes/assumptions/3.md). -/
def nextTile (s : State) : Option Nat :=
  let l := (runners s).map (· / 16)
  match l.find? fun t => s.last < t with
  | some t => some t
  | none => l.head?
/-- Its harts in the order in which it examines them: ascending, after the hart that issued last, wrapping (R210). -/
def turnOrder (s : State) : List Nat :=
  match nextTile s with
  | none => []
  | some t =>
    let l := (runners s).filter fun i => i / 16 == t
    l.filter ((tileOf s t).last < ·) ++ l.filter (· ≤ (tileOf s t).last)
/-- Hart h is examined. -/
def atTurn (s : State) (h : Nat) : State :=
  { setTile s (h / 16) { tileOf s (h / 16) with last := h } with cur := h, last := h / 16, evTurn := true }
/-- Hart h, examined in state s, has issued from its word, as state t shows: it waits for nothing, or it has begun to YIELD (R210, R417). -/
def issued (s t : State) (h : Nat) : Bool :=
  (hartOf t h).wait == .none || ((hartOf t h).wait == .yielding && (hartOf s h).wait != .yielding)
/-- It has not: the turn of its tile is as it was. -/
def keepTurn (s t : State) (h : Nat) : State := setTile t (h / 16) { tileOf t (h / 16) with last := (tileOf s (h / 16)).last }

/-! ## Placing an instruction before a run (notes/assumptions/8.md) -/

/-- Bytes written at home, ascending. -/
def pokeHome (s : State) (pk : Nat) (bs : List Byte) : State :=
  match bs with
  | [] => s
  | b :: r => pokeHome (setHomeByte s pk b) (pk + 1) r

/-- The frames the placing uses: level-1, level-2 and level-3 tables and the code page; the code's virtual address. -/
def placeRoot : Nat := 0x100000
def placeCode : Nat := 0x130000
def placePc : Word := 0x40000

/-- Granules of the placed tables and code hold no copies, no transactions and no instruction-cache lines. -/
def clearPlace (s : State) : State :=
  let hit (gk : Nat) : Bool := placeRoot ≤ gk * 128 && gk * 128 < placeCode + 0x10000
  { s with
    copies := s.copies.filter fun (k, _) => !hit (k % 2 ^ 46)
    dir := s.dir.filter fun (k, _) => !hit k
    txns := s.txns.filter fun (k, _) => !hit k
    psn := s.psn.filter fun k => !hit k
    pieces := [] }

/-- The tables and the code page of the placed instruction: one page, readable, writable, executable, supervisor, served from home. -/
def placeMem (s : State) (bs : List Byte) : State :=
  let s := pokeHome s placeRoot (leBytes 8 (1 + 0x110000 * 4))
  let s := pokeHome s 0x110000 (leBytes 8 (1 + 0x120000 * 4))
  let s := pokeHome s (0x120000 + 8 * 4) (leBytes 8 (0x7F + placeCode * 4))
  pokeHome s placeCode bs

/-- Partition 0 runs on tile 0 in region 0, with every feature offered enabled, and hart 0 stands at the placed code as its root point. -/
def placeRun (s : State) : State :=
  let s := { s with ctl := mset 0 (mset 0 s.ctl 2 (ctlWord s 0)) 4 1 }
  let s := setCtl s 0x0C007000 (setBits (ctlWord s 0x0C007000) 15 0 0x8000)
  let s := setCtl s 0x0C008000 (setBits (ctlWord s 0x0C008000) 0 0 1)
  let s := setCtl s 0x10000000 (setBits (ctlWord s 0x10000000) 7 0 0x40)
  let s := setPt s 0 0 (setBits (ptWord s 0 0) 2 0 3)
  let s := setRegion s 0 { running := 1, halting := false, ends := s.clock + 2 ^ 32 }
  let s := setPart s 0 { partOf s 0 with ptbr := BitVec.ofNat 64 placeRoot, slots := mdel (partOf s 0).slots 0 }
  let s := setTile s 0 { tileOf s 0 with last := 8192, mx := some 0, fb := some 0, ic := [], itlb := [], gtlb := [] }
  let s := setStack s 0 { stackOf s 0 with llc := [], walk := [], stopped := false }
  let h := hartOf s 0
  setHart s 0 { h with st := .running, pc := placePc, sup := true, wait := .none, v := { h.v with lanes := 15 },
                       point := some ⟨none, 0⟩ }

/-- Hart 0 moves next, with nothing else under way. -/
def placeBytes (s : State) (bs : List Byte) : State :=
  let s := placeRun (placeMem (clearPlace s) bs)
  { s with agenda := [], evTurn := false, last := 2 ^ 20 }

end Sys2Proof.Machine
end

