-- ==== Sys2Proof/Machine/Step.lean ====
section
/-! DEFINITION. One step of the machine: the next instruction of a tile's harts, or the next step of a unit on the agenda, in turn
(notes/assumptions/3.md). -/

namespace Sys2Proof.Machine
open Sys2Proof

/-- Runs the words a hart fetched: an instruction, a command, a convoy, or a word with no meaning (R241 to R247). -/
noncomputable def runWords (s : State) (ws : List Nat) : Host.Outcome State Fault Refusal :=
  match ws with
  | [] => .next s
  | w :: r =>
    if hasC w && (cBit w || !r.isEmpty) then exec (.convoyIssue ((w :: r).map (BitVec.ofNat 32))) s
    else match decode ((w :: r).map (BitVec.ofNat 32)) with
      | .ok i => exec i s
      | .error _ => exec (.reservedEncoding (BitVec.ofNat 32 w)) s

/-- Hart h is examined: it fetches at its pc and executes. -/
noncomputable def stepHart (s : State) (h : Nat) : Host.Outcome State Fault Refusal :=
  match fetchIssue (atTurn s h) with
  | .words s ws => runWords s ws
  | .wait s => .next (setHart s h { hartOf s h with wait := .fetch })
  | .fault s c sb a => exec (.instructionFetchFault c sb a) s

/-- The harts of a tile are examined until one issues (R210). -/
noncomputable def tryHarts (s : State) (l : List Nat) : Host.Outcome State Fault Refusal :=
  match l with
  | [] => .next s
  | h :: r =>
    match stepHart s h with
    | .next t => if issued s t h then .next t else tryHarts (keepTurn s t h) r
    | o => o

/-- One step of the machine. -/
noncomputable def step (s : State) : Host.Outcome State Fault Refusal :=
  let s := { s with clock := s.clock + 1 }
  match s.agenda, turnOrder s with
  | [], [] => .fault .idle
  | [], l => tryHarts s l
  | e :: r, [] => exec e.toInstr { s with agenda := r, evTurn := false }
  | e :: r, l => if s.evTurn then exec e.toInstr { s with agenda := r, evTurn := false } else tryHarts s l

/-- s with the instruction of bits w placed where its next step fetches (notes/assumptions/8.md). -/
def State.withFetchWord (s : State) (nbits w : Nat) : State := placeBytes s (tableBytes (w % 2 ^ nbits))

end Sys2Proof.Machine
end

