-- ==== Sys2Proof/Laws/Exec.lean ====
section
/-! SUPPORT. What exec calls for each constructor, one lemma each, so that no proof unfolds the whole match. -/

namespace Sys2Proof.Machine
open Sys2Proof

theorem exec_add {d} {a} {b} {t} {u} {w} (s : State) : exec (.add d a b t u w) s = execAdd d a b t u w s := rfl
theorem exec_sub {d} {a} {b} {t} {u} {w} (s : State) : exec (.sub d a b t u w) s = execSub d a b t u w s := rfl
theorem exec_mul {d} {a} {b} {t} {u} {w} (s : State) : exec (.mul d a b t u w) s = execMul d a b t u w s := rfl
theorem exec_mulh {d} {a} {b} {t} {u} (s : State) : exec (.mulh d a b t u) s = execMulh d a b t u s := rfl
theorem exec_mulhu {d} {a} {b} {t} {u} (s : State) : exec (.mulhu d a b t u) s = execMulhu d a b t u s := rfl
theorem exec_div {d} {a} {b} {t} {u} (s : State) : exec (.div d a b t u) s = execDiv d a b t u s := rfl
theorem exec_divu {d} {a} {b} {t} {u} (s : State) : exec (.divu d a b t u) s = execDivu d a b t u s := rfl
theorem exec_rem {d} {a} {b} {t} {u} (s : State) : exec (.rem d a b t u) s = execRem d a b t u s := rfl
theorem exec_remu {d} {a} {b} {t} {u} (s : State) : exec (.remu d a b t u) s = execRemu d a b t u s := rfl
theorem exec_and {d} {a} {b} {t} {u} (s : State) : exec (.and d a b t u) s = execAnd d a b t u s := rfl
theorem exec_or {d} {a} {b} {t} {u} (s : State) : exec (.or d a b t u) s = execOr d a b t u s := rfl
theorem exec_xor {d} {a} {b} {t} {u} (s : State) : exec (.xor d a b t u) s = execXor d a b t u s := rfl
theorem exec_andn {d} {a} {b} {t} {u} (s : State) : exec (.andn d a b t u) s = execAndn d a b t u s := rfl
theorem exec_orn {d} {a} {b} {t} {u} (s : State) : exec (.orn d a b t u) s = execOrn d a b t u s := rfl
theorem exec_sll {d} {a} {b} {t} {u} {w} (s : State) : exec (.sll d a b t u w) s = execSll d a b t u w s := rfl
theorem exec_srl {d} {a} {b} {t} {u} {w} (s : State) : exec (.srl d a b t u w) s = execSrl d a b t u w s := rfl
theorem exec_sra {d} {a} {b} {t} {u} {w} (s : State) : exec (.sra d a b t u w) s = execSra d a b t u w s := rfl
theorem exec_rol {d} {a} {b} {t} {u} {w} (s : State) : exec (.rol d a b t u w) s = execRol d a b t u w s := rfl
theorem exec_ror {d} {a} {b} {t} {u} {w} (s : State) : exec (.ror d a b t u w) s = execRor d a b t u w s := rfl
theorem exec_slt {d} {a} {b} {t} {u} (s : State) : exec (.slt d a b t u) s = execSlt d a b t u s := rfl
theorem exec_sltu {d} {a} {b} {t} {u} (s : State) : exec (.sltu d a b t u) s = execSltu d a b t u s := rfl
theorem exec_min {d} {a} {b} {t} {u} (s : State) : exec (.min d a b t u) s = execMin d a b t u s := rfl
theorem exec_max {d} {a} {b} {t} {u} (s : State) : exec (.max d a b t u) s = execMax d a b t u s := rfl
theorem exec_minu {d} {a} {b} {t} {u} (s : State) : exec (.minu d a b t u) s = execMinu d a b t u s := rfl
theorem exec_maxu {d} {a} {b} {t} {u} (s : State) : exec (.maxu d a b t u) s = execMaxu d a b t u s := rfl
theorem exec_clz {d} {a} {t} {w} (s : State) : exec (.clz d a t w) s = execClz d a t w s := rfl
theorem exec_ctz {d} {a} {t} {w} (s : State) : exec (.ctz d a t w) s = execCtz d a t w s := rfl
theorem exec_popc {d} {a} {t} {w} (s : State) : exec (.popc d a t w) s = execPopc d a t w s := rfl
theorem exec_bswap {d} {a} {t} (s : State) : exec (.bswap d a t) s = execBswap d a t s := rfl
theorem exec_sext {d} {a} {x} {t} (s : State) : exec (.sext d a x t) s = execSext d a x t s := rfl
theorem exec_zext {d} {a} {x} {t} (s : State) : exec (.zext d a x t) s = execZext d a x t s := rfl
theorem exec_cmov {d} {a} {b} {t} {u} (s : State) : exec (.cmov d a b t u) s = execCmov d a b t u s := rfl
theorem exec_hmix {d} {a} {b} {t} {u} (s : State) : exec (.hmix d a b t u) s = execHmix d a b t u s := rfl
theorem exec_crc32c {d} {a} {b} {t} {u} (s : State) : exec (.crc32c d a b t u) s = execCrc32c d a b t u s := rfl
theorem exec_addi {d} {a} {t} {imm} (s : State) : exec (.addi d a t imm) s = execAddi d a t imm s := rfl
theorem exec_andi {d} {a} {t} {imm} (s : State) : exec (.andi d a t imm) s = execAndi d a t imm s := rfl
theorem exec_ori {d} {a} {t} {imm} (s : State) : exec (.ori d a t imm) s = execOri d a t imm s := rfl
theorem exec_xori {d} {a} {t} {imm} (s : State) : exec (.xori d a t imm) s = execXori d a t imm s := rfl
theorem exec_slti {d} {a} {t} {imm} (s : State) : exec (.slti d a t imm) s = execSlti d a t imm s := rfl
theorem exec_sltiu {d} {a} {t} {imm} (s : State) : exec (.sltiu d a t imm) s = execSltiu d a t imm s := rfl
theorem exec_slli {d} {a} {t} {n} {w} (s : State) : exec (.slli d a t n w) s = execSlli d a t n w s := rfl
theorem exec_srli {d} {a} {t} {n} {w} (s : State) : exec (.srli d a t n w) s = execSrli d a t n w s := rfl
theorem exec_srai {d} {a} {t} {n} {w} (s : State) : exec (.srai d a t n w) s = execSrai d a t n w s := rfl
theorem exec_rori {d} {a} {t} {n} {w} (s : State) : exec (.rori d a t n w) s = execRori d a t n w s := rfl
theorem exec_movhi {d} {imm} (s : State) : exec (.movhi d imm) s = execMovhi d imm s := rfl
theorem exec_addpc {d} {imm} (s : State) : exec (.addpc d imm) s = execAddpc d imm s := rfl
theorem exec_fadd {d} {a} {b} {t} {u} {p} {m} (s : State) : exec (.fadd d a b t u p m) s = execFadd d a b t u p m s := rfl
theorem exec_fsub {d} {a} {b} {t} {u} {p} {m} (s : State) : exec (.fsub d a b t u p m) s = execFsub d a b t u p m s := rfl
theorem exec_fmul {d} {a} {b} {t} {u} {p} {m} (s : State) : exec (.fmul d a b t u p m) s = execFmul d a b t u p m s := rfl
theorem exec_fdiv {d} {a} {b} {t} {u} {p} {m} (s : State) : exec (.fdiv d a b t u p m) s = execFdiv d a b t u p m s := rfl
theorem exec_fsqrt {d} {a} {t} {p} {m} (s : State) : exec (.fsqrt d a t p m) s = execFsqrt d a t p m s := rfl
theorem exec_fma {d} {a} {b} {t} {u} {p} {m} (s : State) : exec (.fma d a b t u p m) s = execFma d a b t u p m s := rfl
theorem exec_fnma {d} {a} {b} {t} {u} {p} {m} (s : State) : exec (.fnma d a b t u p m) s = execFnma d a b t u p m s := rfl
theorem exec_fmin {d} {a} {b} {t} {u} {p} (s : State) : exec (.fmin d a b t u p) s = execFmin d a b t u p s := rfl
theorem exec_fmax {d} {a} {b} {t} {u} {p} (s : State) : exec (.fmax d a b t u p) s = execFmax d a b t u p s := rfl
theorem exec_feq {d} {a} {b} {t} {u} {p} (s : State) : exec (.feq d a b t u p) s = execFeq d a b t u p s := rfl
theorem exec_flt {d} {a} {b} {t} {u} {p} (s : State) : exec (.flt d a b t u p) s = execFlt d a b t u p s := rfl
theorem exec_fle {d} {a} {b} {t} {u} {p} (s : State) : exec (.fle d a b t u p) s = execFle d a b t u p s := rfl
theorem exec_fcvt {d} {a} {x} {t} {p} {m} (s : State) : exec (.fcvt d a x t p m) s = execFcvt d a x t p m s := rfl
theorem exec_fclass {d} {a} {t} {p} (s : State) : exec (.fclass d a t p) s = execFclass d a t p s := rfl
theorem exec_beq {a} {b} {o} (s : State) : exec (.beq a b o) s = execBeq a b o s := rfl
theorem exec_bne {a} {b} {o} (s : State) : exec (.bne a b o) s = execBne a b o s := rfl
theorem exec_blt {a} {b} {o} (s : State) : exec (.blt a b o) s = execBlt a b o s := rfl
theorem exec_bge {a} {b} {o} (s : State) : exec (.bge a b o) s = execBge a b o s := rfl
theorem exec_bltu {a} {b} {o} (s : State) : exec (.bltu a b o) s = execBltu a b o s := rfl
theorem exec_bgeu {a} {b} {o} (s : State) : exec (.bgeu a b o) s = execBgeu a b o s := rfl
theorem exec_jal {d} {o} (s : State) : exec (.jal d o) s = execJal d o s := rfl
theorem exec_jalr {d} {a} {t} {imm} (s : State) : exec (.jalr d a t imm) s = execJalr d a t imm s := rfl
theorem exec_ld {d} {a} {z} {u} {t} {o} (s : State) : exec (.ld d a z u t o) s = execLd d a z u t o s := rfl
theorem exec_st {x} {a} {z} {t} {o} (s : State) : exec (.st x a z t o) s = execSt x a z t o s := rfl
theorem exec_ldo {d} {a} {z} {u} {e} {c} {t} (s : State) : exec (.ldo d a z u e c t) s = execLdo d a z u e c t s := rfl
theorem exec_sto {x} {a} {z} {e} {c} {t} (s : State) : exec (.sto x a z e c t) s = execSto x a z e c t s := rfl
theorem exec_amoSwap {d} {a} {b} {z} {e} {c} {t} (s : State) : exec (.amoSwap d a b z e c t) s = execAmoSwap d a b z e c t s := rfl
theorem exec_amoCas {d} {a} {b} {z} {e} {c} {t} (s : State) : exec (.amoCas d a b z e c t) s = execAmoCas d a b z e c t s := rfl
theorem exec_amoAdd {d} {a} {b} {z} {e} {c} {t} (s : State) : exec (.amoAdd d a b z e c t) s = execAmoAdd d a b z e c t s := rfl
theorem exec_amoAnd {d} {a} {b} {z} {e} {c} {t} (s : State) : exec (.amoAnd d a b z e c t) s = execAmoAnd d a b z e c t s := rfl
theorem exec_amoOr {d} {a} {b} {z} {e} {c} {t} (s : State) : exec (.amoOr d a b z e c t) s = execAmoOr d a b z e c t s := rfl
theorem exec_amoXor {d} {a} {b} {z} {e} {c} {t} (s : State) : exec (.amoXor d a b z e c t) s = execAmoXor d a b z e c t s := rfl
theorem exec_amoMin {d} {a} {b} {z} {e} {c} {t} (s : State) : exec (.amoMin d a b z e c t) s = execAmoMin d a b z e c t s := rfl
theorem exec_amoMax {d} {a} {b} {z} {e} {c} {t} (s : State) : exec (.amoMax d a b z e c t) s = execAmoMax d a b z e c t s := rfl
theorem exec_amoMinu {d} {a} {b} {z} {e} {c} {t} (s : State) : exec (.amoMinu d a b z e c t) s = execAmoMinu d a b z e c t s := rfl
theorem exec_amoMaxu {d} {a} {b} {z} {e} {c} {t} (s : State) : exec (.amoMaxu d a b z e c t) s = execAmoMaxu d a b z e c t s := rfl
theorem exec_amoFadd {d} {a} {b} {z} {e} {c} {t} (s : State) : exec (.amoFadd d a b z e c t) s = execAmoFadd d a b z e c t s := rfl
theorem exec_redAdd {b} {a} {z} {e} {c} {t} (s : State) : exec (.redAdd b a z e c t) s = execRedAdd b a z e c t s := rfl
theorem exec_redAnd {b} {a} {z} {e} {c} {t} (s : State) : exec (.redAnd b a z e c t) s = execRedAnd b a z e c t s := rfl
theorem exec_redOr {b} {a} {z} {e} {c} {t} (s : State) : exec (.redOr b a z e c t) s = execRedOr b a z e c t s := rfl
theorem exec_redXor {b} {a} {z} {e} {c} {t} (s : State) : exec (.redXor b a z e c t) s = execRedXor b a z e c t s := rfl
theorem exec_redMin {b} {a} {z} {e} {c} {t} (s : State) : exec (.redMin b a z e c t) s = execRedMin b a z e c t s := rfl
theorem exec_redMax {b} {a} {z} {e} {c} {t} (s : State) : exec (.redMax b a z e c t) s = execRedMax b a z e c t s := rfl
theorem exec_redMinu {b} {a} {z} {e} {c} {t} (s : State) : exec (.redMinu b a z e c t) s = execRedMinu b a z e c t s := rfl
theorem exec_redMaxu {b} {a} {z} {e} {c} {t} (s : State) : exec (.redMaxu b a z e c t) s = execRedMaxu b a z e c t s := rfl
theorem exec_redFadd {b} {a} {z} {e} {c} {t} (s : State) : exec (.redFadd b a z e c t) s = execRedFadd b a z e c t s := rfl
theorem exec_fence {c} {k} {e} (s : State) : exec (.fence c k e) s = execFence c k e s := rfl
theorem exec_watch {a} (s : State) : exec (.watch a) s = execWatch a s := rfl
theorem exec_waitw {d} {a} {c} {b} (s : State) : exec (.waitw d a c b) s = execWaitw d a c b s := rfl
theorem exec_bar {a} {b} {c} (s : State) : exec (.bar a b c) s = execBar a b c s := rfl
theorem exec_arrive {a} {b} {c} (s : State) : exec (.arrive a b c) s = execArrive a b c s := rfl
theorem exec_waitb {a} {b} {c} (s : State) : exec (.waitb a b c) s = execWaitb a b c s := rfl
theorem exec_mfc {g} {imm} (s : State) : exec (.mfc g imm) s = execMfc g imm s := rfl
theorem exec_mtc {g} {t} {imm} (s : State) : exec (.mtc g t imm) s = execMtc g t imm s := rfl
theorem exec_mtci {v} {imm} (s : State) : exec (.mtci v imm) s = execMtci v imm s := rfl
theorem exec_crsb {g} {t} {imm} (s : State) : exec (.crsb g t imm) s = execCrsb g t imm s := rfl
theorem exec_crcb {g} {t} {imm} (s : State) : exec (.crcb g t imm) s = execCrcb g t imm s := rfl
theorem exec_tsackRetry {id} {own} (s : State) : exec (.tsackRetry id own) s = execTsackRetry id own s := rfl
theorem exec_tsackFail {id} {own} (s : State) : exec (.tsackFail id own) s = execTsackFail id own s := rfl
theorem exec_tsackFrame {id} {own} (s : State) : exec (.tsackFrame id own) s = execTsackFrame id own s := rfl
theorem exec_tsackInvalid {id} {action} {own} (s : State) : exec (.tsackInvalid id action own) s = execTsackInvalid id action own s := rfl
theorem exec_nendWrite {addr} (s : State) : exec (.nendWrite addr) s = execNendWrite addr s := rfl
theorem exec_watermarkWrite {idx} {val} (s : State) : exec (.watermarkWrite idx val) s = execWatermarkWrite idx val s := rfl
theorem exec_trap {imm} (s : State) : exec (.trap imm) s = execTrap imm s := rfl
theorem exec_rfe (s : State) : exec (.rfe) s = execRfe s := rfl
theorem exec_halt {g} (s : State) : exec (.halt g) s = execHalt g s := rfl
theorem exec_yield {g} (s : State) : exec (.yield g) s = execYield g s := rfl
theorem exec_yieldExpire {hart} (s : State) : exec (.yieldExpire hart) s = execYieldExpire hart s := rfl
theorem exec_brk (s : State) : exec (.brk) s = execBrk s := rfl
theorem exec_shoot {g} {h} (s : State) : exec (.shoot g h) s = execShoot g h s := rfl
theorem exec_shootBroadcast {id} (s : State) : exec (.shootBroadcast id) s = execShootBroadcast id s := rfl
theorem exec_shootDrop {id} {stack} (s : State) : exec (.shootDrop id stack) s = execShootDrop id stack s := rfl
theorem exec_shootAck {id} {stack} (s : State) : exec (.shootAck id stack) s = execShootAck id stack s := rfl
theorem exec_shootComplete {id} (s : State) : exec (.shootComplete id) s = execShootComplete id s := rfl
theorem exec_cwb {g} {h} (s : State) : exec (.cwb g h) s = execCwb g h s := rfl
theorem exec_cinv {g} (s : State) : exec (.cinv g) s = execCinv g s := rfl
theorem exec_cinvRange {g} {h} (s : State) : exec (.cinvRange g h) s = execCinvRange g h s := rfl
theorem exec_cflush {g} {h} (s : State) : exec (.cflush g h) s = execCflush g h s := rfl
theorem exec_vcdef {g} {h} (s : State) : exec (.vcdef g h) s = execVcdef g h s := rfl
theorem exec_vcdefProceed {hart} (s : State) : exec (.vcdefProceed hart) s = execVcdefProceed hart s := rfl
theorem exec_vcqry {g} {h} (s : State) : exec (.vcqry g h) s = execVcqry g h s := rfl
theorem exec_launch {g} {h} {n} (s : State) : exec (.launch g h n) s = execLaunch g h n s := rfl
theorem exec_retire (s : State) : exec (.retire) s = execRetire s := rfl
theorem exec_ctradd {g} {h} (s : State) : exec (.ctradd g h) s = execCtradd g h s := rfl
theorem exec_ctrrd {g} {h} (s : State) : exec (.ctrrd g h) s = execCtrrd g h s := rfl
theorem exec_ctrset {g} {h} (s : State) : exec (.ctrset g h) s = execCtrset g h s := rfl
theorem exec_setvl {d} {a} {e} {f} {l} {m} {c} (s : State) : exec (.setvl d a e f l m c) s = execSetvl d a e f l m c s := rfl
theorem exec_vadd {d} {a} {b} {k} {c} {t} {x} (s : State) : exec (.vadd d a b k c t x) s = execVadd d a b k c t x s := rfl
theorem exec_vsub {d} {a} {b} {k} {c} {t} {x} (s : State) : exec (.vsub d a b k c t x) s = execVsub d a b k c t x s := rfl
theorem exec_vmul {d} {a} {b} {k} {c} {t} {x} (s : State) : exec (.vmul d a b k c t x) s = execVmul d a b k c t x s := rfl
theorem exec_vmulh {d} {a} {b} {k} {c} {t} {x} (s : State) : exec (.vmulh d a b k c t x) s = execVmulh d a b k c t x s := rfl
theorem exec_vmulhu {d} {a} {b} {k} {c} {t} {x} (s : State) : exec (.vmulhu d a b k c t x) s = execVmulhu d a b k c t x s := rfl
theorem exec_vand {d} {a} {b} {k} {c} {t} {x} (s : State) : exec (.vand d a b k c t x) s = execVand d a b k c t x s := rfl
theorem exec_vor {d} {a} {b} {k} {c} {t} {x} (s : State) : exec (.vor d a b k c t x) s = execVor d a b k c t x s := rfl
theorem exec_vxor {d} {a} {b} {k} {c} {t} {x} (s : State) : exec (.vxor d a b k c t x) s = execVxor d a b k c t x s := rfl
theorem exec_vsll {d} {a} {b} {k} {c} {t} {x} (s : State) : exec (.vsll d a b k c t x) s = execVsll d a b k c t x s := rfl
theorem exec_vsrl {d} {a} {b} {k} {c} {t} {x} (s : State) : exec (.vsrl d a b k c t x) s = execVsrl d a b k c t x s := rfl
theorem exec_vsra {d} {a} {b} {k} {c} {t} {x} (s : State) : exec (.vsra d a b k c t x) s = execVsra d a b k c t x s := rfl
theorem exec_vmin {d} {a} {b} {k} {c} {t} {x} (s : State) : exec (.vmin d a b k c t x) s = execVmin d a b k c t x s := rfl
theorem exec_vmax {d} {a} {b} {k} {c} {t} {x} (s : State) : exec (.vmax d a b k c t x) s = execVmax d a b k c t x s := rfl
theorem exec_vminu {d} {a} {b} {k} {c} {t} {x} (s : State) : exec (.vminu d a b k c t x) s = execVminu d a b k c t x s := rfl
theorem exec_vmaxu {d} {a} {b} {k} {c} {t} {x} (s : State) : exec (.vmaxu d a b k c t x) s = execVmaxu d a b k c t x s := rfl
theorem exec_vabsd {d} {a} {b} {k} {c} {t} {x} (s : State) : exec (.vabsd d a b k c t x) s = execVabsd d a b k c t x s := rfl
theorem exec_vadds {d} {a} {b} {k} {c} {t} {x} (s : State) : exec (.vadds d a b k c t x) s = execVadds d a b k c t x s := rfl
theorem exec_vsubs {d} {a} {b} {k} {c} {t} {x} (s : State) : exec (.vsubs d a b k c t x) s = execVsubs d a b k c t x s := rfl
theorem exec_vaddus {d} {a} {b} {k} {c} {t} {x} (s : State) : exec (.vaddus d a b k c t x) s = execVaddus d a b k c t x s := rfl
theorem exec_vsubus {d} {a} {b} {k} {c} {t} {x} (s : State) : exec (.vsubus d a b k c t x) s = execVsubus d a b k c t x s := rfl
theorem exec_vdot4 {d} {a} {b} {k} {c} {t} {x} (s : State) : exec (.vdot4 d a b k c t x) s = execVdot4 d a b k c t x s := rfl
theorem exec_vmac {d} {a} {b} {k} {c} {t} {x} (s : State) : exec (.vmac d a b k c t x) s = execVmac d a b k c t x s := rfl
theorem exec_vfadd {d} {a} {b} {k} {c} {t} {x} (s : State) : exec (.vfadd d a b k c t x) s = execVfadd d a b k c t x s := rfl
theorem exec_vfsub {d} {a} {b} {k} {c} {t} {x} (s : State) : exec (.vfsub d a b k c t x) s = execVfsub d a b k c t x s := rfl
theorem exec_vfmul {d} {a} {b} {k} {c} {t} {x} (s : State) : exec (.vfmul d a b k c t x) s = execVfmul d a b k c t x s := rfl
theorem exec_vfma {d} {a} {b} {k} {c} {t} {x} (s : State) : exec (.vfma d a b k c t x) s = execVfma d a b k c t x s := rfl
theorem exec_vfnma {d} {a} {b} {k} {c} {t} {x} (s : State) : exec (.vfnma d a b k c t x) s = execVfnma d a b k c t x s := rfl
theorem exec_vfdiv {d} {a} {b} {k} {c} {t} {x} (s : State) : exec (.vfdiv d a b k c t x) s = execVfdiv d a b k c t x s := rfl
theorem exec_vfsqrt {d} {a} {k} {c} {t} (s : State) : exec (.vfsqrt d a k c t) s = execVfsqrt d a k c t s := rfl
theorem exec_vfmin {d} {a} {b} {k} {c} {t} {x} (s : State) : exec (.vfmin d a b k c t x) s = execVfmin d a b k c t x s := rfl
theorem exec_vfmax {d} {a} {b} {k} {c} {t} {x} (s : State) : exec (.vfmax d a b k c t x) s = execVfmax d a b k c t x s := rfl
theorem exec_vfabs {d} {a} {k} {c} {t} (s : State) : exec (.vfabs d a k c t) s = execVfabs d a k c t s := rfl
theorem exec_vfneg {d} {a} {k} {c} {t} (s : State) : exec (.vfneg d a k c t) s = execVfneg d a k c t s := rfl
theorem exec_vfscl {d} {a} {b} {k} {c} {t} {x} (s : State) : exec (.vfscl d a b k c t x) s = execVfscl d a b k c t x s := rfl
theorem exec_vsfuExp2 {d} {a} {k} {c} {t} (s : State) : exec (.vsfuExp2 d a k c t) s = execVsfuExp2 d a k c t s := rfl
theorem exec_vsfuLog2 {d} {a} {k} {c} {t} (s : State) : exec (.vsfuLog2 d a k c t) s = execVsfuLog2 d a k c t s := rfl
theorem exec_vsfuRcp {d} {a} {k} {c} {t} (s : State) : exec (.vsfuRcp d a k c t) s = execVsfuRcp d a k c t s := rfl
theorem exec_vsfuRsqrt {d} {a} {k} {c} {t} (s : State) : exec (.vsfuRsqrt d a k c t) s = execVsfuRsqrt d a k c t s := rfl
theorem exec_vsfuSin {d} {a} {k} {c} {t} (s : State) : exec (.vsfuSin d a k c t) s = execVsfuSin d a k c t s := rfl
theorem exec_vsfuCos {d} {a} {k} {c} {t} (s : State) : exec (.vsfuCos d a k c t) s = execVsfuCos d a k c t s := rfl
theorem exec_vsfuTanh {d} {a} {k} {c} {t} (s : State) : exec (.vsfuTanh d a k c t) s = execVsfuTanh d a k c t s := rfl
theorem exec_vsfuSigm {d} {a} {k} {c} {t} (s : State) : exec (.vsfuSigm d a k c t) s = execVsfuSigm d a k c t s := rfl
theorem exec_vcmp {d} {a} {b} {k} {c} {t} {x} {n} (s : State) : exec (.vcmp d a b k c t x n) s = execVcmp d a b k c t x n s := rfl
theorem exec_vfcmp {d} {a} {b} {k} {c} {t} {x} {n} (s : State) : exec (.vfcmp d a b k c t x n) s = execVfcmp d a b k c t x n s := rfl
theorem exec_mand {d} {a} {b} {k} {c} {t} (s : State) : exec (.mand d a b k c t) s = execMand d a b k c t s := rfl
theorem exec_mor {d} {a} {b} {k} {c} {t} (s : State) : exec (.mor d a b k c t) s = execMor d a b k c t s := rfl
theorem exec_mxor {d} {a} {b} {k} {c} {t} (s : State) : exec (.mxor d a b k c t) s = execMxor d a b k c t s := rfl
theorem exec_mandn {d} {a} {b} {k} {c} {t} (s : State) : exec (.mandn d a b k c t) s = execMandn d a b k c t s := rfl
theorem exec_mnot {d} {a} {k} {c} {t} (s : State) : exec (.mnot d a k c t) s = execMnot d a k c t s := rfl
theorem exec_mpopc {d} {a} {k} {c} {t} (s : State) : exec (.mpopc d a k c t) s = execMpopc d a k c t s := rfl
theorem exec_mfirst {d} {a} {k} {c} {t} (s : State) : exec (.mfirst d a k c t) s = execMfirst d a k c t s := rfl
theorem exec_mset {d} {k} {c} {t} (s : State) : exec (.mset d k c t) s = execMset d k c t s := rfl
theorem exec_mclr {d} {k} {c} {t} (s : State) : exec (.mclr d k c t) s = execMclr d k c t s := rfl
theorem exec_vperm {d} {a} {b} {k} {c} {t} (s : State) : exec (.vperm d a b k c t) s = execVperm d a b k c t s := rfl
theorem exec_vslideup {d} {a} {b} {k} {c} {t} (s : State) : exec (.vslideup d a b k c t) s = execVslideup d a b k c t s := rfl
theorem exec_vslidedn {d} {a} {b} {k} {c} {t} (s : State) : exec (.vslidedn d a b k c t) s = execVslidedn d a b k c t s := rfl
theorem exec_vcompress {d} {a} {k} {c} {t} (s : State) : exec (.vcompress d a k c t) s = execVcompress d a k c t s := rfl
theorem exec_vexpand {d} {a} {k} {c} {t} (s : State) : exec (.vexpand d a k c t) s = execVexpand d a k c t s := rfl
theorem exec_vscan {d} {a} {n} {k} {c} {t} (s : State) : exec (.vscan d a n k c t) s = execVscan d a n k c t s := rfl
theorem exec_vfscan {d} {a} {n} {k} {c} {t} (s : State) : exec (.vfscan d a n k c t) s = execVfscan d a n k c t s := rfl
theorem exec_vrowbc {d} {a} {b} {k} {c} {t} (s : State) : exec (.vrowbc d a b k c t) s = execVrowbc d a b k c t s := rfl
theorem exec_vredSum {d} {a} {k} {c} {t} (s : State) : exec (.vredSum d a k c t) s = execVredSum d a k c t s := rfl
theorem exec_vredMax {d} {a} {k} {c} {t} (s : State) : exec (.vredMax d a k c t) s = execVredMax d a k c t s := rfl
theorem exec_vredMin {d} {a} {k} {c} {t} (s : State) : exec (.vredMin d a k c t) s = execVredMin d a k c t s := rfl
theorem exec_vredAnd {d} {a} {k} {c} {t} (s : State) : exec (.vredAnd d a k c t) s = execVredAnd d a k c t s := rfl
theorem exec_vredOr {d} {a} {k} {c} {t} (s : State) : exec (.vredOr d a k c t) s = execVredOr d a k c t s := rfl
theorem exec_vredXor {d} {a} {k} {c} {t} (s : State) : exec (.vredXor d a k c t) s = execVredXor d a k c t s := rfl
theorem exec_vredMaxu {d} {a} {k} {c} {t} (s : State) : exec (.vredMaxu d a k c t) s = execVredMaxu d a k c t s := rfl
theorem exec_vredMinu {d} {a} {k} {c} {t} (s : State) : exec (.vredMinu d a k c t) s = execVredMinu d a k c t s := rfl
theorem exec_vfredSum {d} {a} {k} {c} {t} (s : State) : exec (.vfredSum d a k c t) s = execVfredSum d a k c t s := rfl
theorem exec_vfredMax {d} {a} {k} {c} {t} (s : State) : exec (.vfredMax d a k c t) s = execVfredMax d a k c t s := rfl
theorem exec_vfredMin {d} {a} {k} {c} {t} (s : State) : exec (.vfredMin d a k c t) s = execVfredMin d a k c t s := rfl
theorem exec_vcvth {d} {a} {imm} {f} {k} {c} {t} (s : State) : exec (.vcvth d a imm f k c t) s = execVcvth d a imm f k c t s := rfl
theorem exec_vcvtd {d} {a} {u} {imm} {f} {k} {c} {t} (s : State) : exec (.vcvtd d a u imm f k c t) s = execVcvtd d a u imm f k c t s := rfl
theorem exec_vcvti2f {d} {a} {u} {k} {c} {t} (s : State) : exec (.vcvti2f d a u k c t) s = execVcvti2f d a u k c t s := rfl
theorem exec_vcvtf2i {d} {a} {u} {k} {c} {t} (s : State) : exec (.vcvtf2i d a u k c t) s = execVcvtf2i d a u k c t s := rfl
theorem exec_vcvt8 {d} {a} {k} {c} {t} (s : State) : exec (.vcvt8 d a k c t) s = execVcvt8 d a k c t s := rfl
theorem exec_vcvts {d} {a} {k} {c} {t} (s : State) : exec (.vcvts d a k c t) s = execVcvts d a k c t s := rfl
theorem exec_vmv {d} {a} {k} {c} {t} (s : State) : exec (.vmv d a k c t) s = execVmv d a k c t s := rfl
theorem exec_vbcast {d} {a} {k} {c} {t} (s : State) : exec (.vbcast d a k c t) s = execVbcast d a k c t s := rfl
theorem exec_vextr {d} {a} {b} {c} {t} (s : State) : exec (.vextr d a b c t) s = execVextr d a b c t s := rfl
theorem exec_vins {d} {a} {b} {k} {c} {t} (s : State) : exec (.vins d a b k c t) s = execVins d a b k c t s := rfl
theorem exec_vsel {d} {a} {b} {k} {c} {t} (s : State) : exec (.vsel d a b k c t) s = execVsel d a b k c t s := rfl
theorem exec_vmrank {d} {k} {c} {t} (s : State) : exec (.vmrank d k c t) s = execVmrank d k c t s := rfl
theorem exec_vscld {d} {a} {k} {c} {t} (s : State) : exec (.vscld d a k c t) s = execVscld d a k c t s := rfl
theorem exec_vscst {d} {a} {k} {c} {t} (s : State) : exec (.vscst d a k c t) s = execVscst d a k c t s := rfl
theorem exec_vld {d} {a} {k} {c} {t} {o} {y} {e} (s : State) : exec (.vld d a k c t o y e) s = execVld d a k c t o y e s := rfl
theorem exec_vldStr {d} {a} {b} {k} {c} {t} {o} {y} {e} (s : State) : exec (.vldStr d a b k c t o y e) s = execVldStr d a b k c t o y e s := rfl
theorem exec_vldX {d} {a} {b} {k} {c} {t} {o} {y} {e} (s : State) : exec (.vldX d a b k c t o y e) s = execVldX d a b k c t o y e s := rfl
theorem exec_vldChk {d} {a} {b} {k} {c} {t} {o} {y} {e} (s : State) : exec (.vldChk d a b k c t o y e) s = execVldChk d a b k c t o y e s := rfl
theorem exec_vst {d} {a} {k} {c} {t} {o} {y} {e} (s : State) : exec (.vst d a k c t o y e) s = execVst d a k c t o y e s := rfl
theorem exec_vstStr {d} {a} {b} {k} {c} {t} {o} {y} {e} (s : State) : exec (.vstStr d a b k c t o y e) s = execVstStr d a b k c t o y e s := rfl
theorem exec_vstX {d} {a} {b} {k} {c} {t} {o} {y} {e} (s : State) : exec (.vstX d a b k c t o y e) s = execVstX d a b k c t o y e s := rfl
theorem exec_vamoAdd {d} {a} {b} {k} {c} {t} {o} {y} (s : State) : exec (.vamoAdd d a b k c t o y) s = execVamoAdd d a b k c t o y s := rfl
theorem exec_vamoMin {d} {a} {b} {k} {c} {t} {o} {y} (s : State) : exec (.vamoMin d a b k c t o y) s = execVamoMin d a b k c t o y s := rfl
theorem exec_vamoMax {d} {a} {b} {k} {c} {t} {o} {y} (s : State) : exec (.vamoMax d a b k c t o y) s = execVamoMax d a b k c t o y s := rfl
theorem exec_vamoOr {d} {a} {b} {k} {c} {t} {o} {y} (s : State) : exec (.vamoOr d a b k c t o y) s = execVamoOr d a b k c t o y s := rfl
theorem exec_vamoFadd {d} {a} {b} {k} {c} {t} {o} {y} (s : State) : exec (.vamoFadd d a b k c t o y) s = execVamoFadd d a b k c t o y s := rfl
theorem exec_vhash {d} {a} {b} {k} {c} {t} (s : State) : exec (.vhash d a b k c t) s = execVhash d a b k c t s := rfl
theorem exec_vbucket {d} {a} {b} {k} {c} {t} (s : State) : exec (.vbucket d a b k c t) s = execVbucket d a b k c t s := rfl
theorem exec_vconf {d} {a} {k} {c} {t} (s : State) : exec (.vconf d a k c t) s = execVconf d a k c t s := rfl
theorem exec_vstrcmp {d} {a} {b} {k} {c} {t} (s : State) : exec (.vstrcmp d a b k c t) s = execVstrcmp d a b k c t s := rfl
theorem exec_vstrhash {d} {a} {b} {k} {c} {t} (s : State) : exec (.vstrhash d a b k c t) s = execVstrhash d a b k c t s := rfl
theorem exec_setrc {a} {t} (s : State) : exec (.setrc a t) s = execSetrc a t s := rfl
theorem exec_vsplit {a} {n} {t} (s : State) : exec (.vsplit a n t) s = execVsplit a n t s := rfl
theorem exec_vmerge (s : State) : exec .vmerge s = execVmerge s := rfl
theorem exec_vpark (s : State) : exec .vpark s = execVpark s := rfl
theorem exec_convoyIssue {words} (s : State) : exec (.convoyIssue words) s = execConvoyIssue words s := rfl
theorem exec_mld {n} {x} {a} {b} {t} (s : State) : exec (.mld n x a b t) s = execMld n x a b t s := rfl
theorem exec_mst {n} {x} {a} {b} {t} (s : State) : exec (.mst n x a b t) s = execMst n x a b t s := rfl
theorem exec_mma {c} {a} {b} {x} {p} {n} {z} {y} (s : State) : exec (.mma c a b x p n z y) s = execMma c a b x p n z y s := rfl
theorem exec_mzero {c} {x} (s : State) : exec (.mzero c x) s = execMzero c x s := rfl
theorem exec_macc2v {d} {c} {x} (s : State) : exec (.macc2v d c x) s = execMacc2v d c x s := rfl
theorem exec_macc2t {c} {n} {x} (s : State) : exec (.macc2t c n x) s = execMacc2t c n x s := rfl
theorem exec_msync {m} (s : State) : exec (.msync m) s = execMsync m s := rfl
theorem exec_mmaBegin {tile} (s : State) : exec (.mmaBegin tile) s = execMmaBegin tile s := rfl
theorem exec_matrixOpComplete {tile} {stream} (s : State) : exec (.matrixOpComplete tile stream) s = execMatrixOpComplete tile stream s := rfl
theorem exec_copyLin {r} {c} {f} (s : State) : exec (.copyLin r c f) s = execCopyLin r c f s := rfl
theorem exec_copyDeint {r} {c} {f} {esz} {np} (s : State) : exec (.copyDeint r c f esz np) s = execCopyDeint r c f esz np s := rfl
theorem exec_copyPerm {r} {c} {f} {esz} {perm} (s : State) : exec (.copyPerm r c f esz perm) s = execCopyPerm r c f esz perm s := rfl
theorem exec_copyVreg {r} {c} {f} (s : State) : exec (.copyVreg r c f) s = execCopyVreg r c f s := rfl
theorem exec_copyTile {r} {c} {f} (s : State) : exec (.copyTile r c f) s = execCopyTile r c f s := rfl
theorem exec_strm {ga} {gd} {c} {q} {file} {reg} {dir} (s : State) : exec (.strm ga gd c q file reg dir) s = execStrm ga gd c q file reg dir s := rfl
theorem exec_unstrm {q} (s : State) : exec (.unstrm q) s = execUnstrm q s := rfl
theorem exec_rsv {r} {c} {esz} {wr} {mode} {hunit} (s : State) : exec (.rsv r c esz wr mode hunit) s = execRsv r c esz wr mode hunit s := rfl
theorem exec_ursv {gd} {c} {hunit} (s : State) : exec (.ursv gd c hunit) s = execUrsv gd c hunit s := rfl
theorem exec_nodeNest {ga} (s : State) : exec (.nodeNest ga) s = execNodeNest ga s := rfl
theorem exec_nodeCmd {ga} (s : State) : exec (.nodeCmd ga) s = execNodeCmd ga s := rfl
theorem exec_put {r} {c} {dpkg} {tag} (s : State) : exec (.put r c dpkg tag) s = execPut r c dpkg tag s := rfl
theorem exec_get {r} {c} {dpkg} (s : State) : exec (.get r c dpkg) s = execGet r c dpkg s := rfl
theorem exec_ramo {r} {c} {dpkg} {func} (s : State) : exec (.ramo r c dpkg func) s = execRamo r c dpkg func s := rfl
theorem exec_rred {r} {c} {dpkg} {tag} {func} (s : State) : exec (.rred r c dpkg tag func) s = execRred r c dpkg tag func s := rfl
theorem exec_mcast {r} {c} {group} {tag} (s : State) : exec (.mcast r c group tag) s = execMcast r c group tag s := rfl
theorem exec_tpost {ga} {gb} {gc} {k} {act} {rel} (s : State) : exec (.tpost ga gb gc k act rel) s = execTpost ga gb gc k act rel s := rfl
theorem exec_tcancel {ga} {gd} {k} (s : State) : exec (.tcancel ga gd k) s = execTcancel ga gd k s := rfl
theorem exec_fcfg {ga} {gd} {c} (s : State) : exec (.fcfg ga gd c) s = execFcfg ga gd c s := rfl
theorem exec_frun {ga} {gd} {c} (s : State) : exec (.frun ga gd c) s = execFrun ga gd c s := rfl
theorem exec_frunResume {ga} {gd} {c} (s : State) : exec (.frunResume ga gd c) s = execFrunResume ga gd c s := rfl
theorem exec_fhalt {ga} {gd} {c} (s : State) : exec (.fhalt ga gd c) s = execFhalt ga gd c s := rfl
theorem exec_commandAccept {hart} (s : State) : exec (.commandAccept hart) s = execCommandAccept hart s := rfl
theorem exec_copyBegin {tile} (s : State) : exec (.copyBegin tile) s = execCopyBegin tile s := rfl
theorem exec_copyTransfer {tile} {cmd} (s : State) : exec (.copyTransfer tile cmd) s = execCopyTransfer tile cmd s := rfl
theorem exec_commandComplete {tile} {cmd} (s : State) : exec (.commandComplete tile cmd) s = execCommandComplete tile cmd s := rfl
theorem exec_commandNodeBegin {part} {node} (s : State) : exec (.commandNodeBegin part node) s = execCommandNodeBegin part node s := rfl
theorem exec_streamEngineAccess {tile} {q} (s : State) : exec (.streamEngineAccess tile q) s = execStreamEngineAccess tile q s := rfl
theorem exec_streamComplete {tile} {q} (s : State) : exec (.streamComplete tile q) s = execStreamComplete tile q s := rfl
theorem exec_counterRaise {tile} {k} {amount} (s : State) : exec (.counterRaise tile k amount) s = execCounterRaise tile k amount s := rfl
theorem exec_postExamine {tile} {k} (s : State) : exec (.postExamine tile k) s = execPostExamine tile k s := rfl
theorem exec_firedOpHandoff {tile} (s : State) : exec (.firedOpHandoff tile) s = execFiredOpHandoff tile s := rfl
theorem exec_counterRunGrant {tile} {run} {part} (s : State) : exec (.counterRunGrant tile run part) s = execCounterRunGrant tile run part s := rfl
theorem exec_counterRunRevoke {tile} {run} (s : State) : exec (.counterRunRevoke tile run) s = execCounterRunRevoke tile run s := rfl
theorem exec_walkComplete {tile} {part} {va} {kind} {sup} (s : State) : exec (.walkComplete tile part va kind sup) s = execWalkComplete tile part va kind sup s := rfl
theorem exec_tsqRecordWrite {part} (s : State) : exec (.tsqRecordWrite part) s = execTsqRecordWrite part s := rfl
theorem exec_gets {agent} {gran} (s : State) : exec (.gets agent gran) s = execGets agent gran s := rfl
theorem exec_getm {agent} {gran} (s : State) : exec (.getm agent gran) s = execGetm agent gran s := rfl
theorem exec_upg {agent} {gran} (s : State) : exec (.upg agent gran) s = execUpg agent gran s := rfl
theorem exec_puts {agent} {gran} (s : State) : exec (.puts agent gran) s = execPuts agent gran s := rfl
theorem exec_putm {agent} {gran} {d} (s : State) : exec (.putm agent gran d) s = execPutm agent gran d s := rfl
theorem exec_rdat {agent} {gran} {d} (s : State) : exec (.rdat agent gran d) s = execRdat agent gran d s := rfl
theorem exec_done {agent} {gran} (s : State) : exec (.done agent gran) s = execDone agent gran s := rfl
theorem exec_data {agent} {gran} {st} {acks} {d} (s : State) : exec (.data agent gran st acks d) s = execData agent gran st acks d s := rfl
theorem exec_gnt {agent} {gran} {acks} (s : State) : exec (.gnt agent gran acks) s = execGnt agent gran acks s := rfl
theorem exec_inv {agent} {gran} {req} {part} (s : State) : exec (.inv agent gran req part) s = execInv agent gran req part s := rfl
theorem exec_rcls {agent} {gran} {part} (s : State) : exec (.rcls agent gran part) s = execRcls agent gran part s := rfl
theorem exec_rcli {agent} {gran} {part} (s : State) : exec (.rcli agent gran part) s = execRcli agent gran part s := rfl
theorem exec_iack {req} {agent} {gran} (s : State) : exec (.iack req agent gran) s = execIack req agent gran s := rfl
theorem exec_pack {agent} {gran} (s : State) : exec (.pack agent gran) s = execPack agent gran s := rfl
theorem exec_err {agent} {gran} (s : State) : exec (.err agent gran) s = execErr agent gran s := rfl
theorem exec_homeServedAccess {id} (s : State) : exec (.homeServedAccess id) s = execHomeServedAccess id s := rfl
theorem exec_homeAtomic {id} (s : State) : exec (.homeAtomic id) s = execHomeAtomic id s := rfl
theorem exec_move {part} {vcid} {gran} {old} {new} {dirty} (s : State) : exec (.move part vcid gran old new dirty) s = execMove part vcid gran old new dirty s := rfl
theorem exec_mack {part} {vcid} {gran} (s : State) : exec (.mack part vcid gran) s = execMack part vcid gran s := rfl
theorem exec_mnak {part} {vcid} {gran} (s : State) : exec (.mnak part vcid gran) s = execMnak part vcid gran s := rfl
theorem exec_migrationSweep {part} {vcid} (s : State) : exec (.migrationSweep part vcid) s = execMigrationSweep part vcid s := rfl
theorem exec_migrationEnd {part} {vcid} (s : State) : exec (.migrationEnd part vcid) s = execMigrationEnd part vcid s := rfl
theorem exec_drainSweep {part} {vcid} (s : State) : exec (.drainSweep part vcid) s = execDrainSweep part vcid s := rfl
theorem exec_drainDone {part} {vcid} (s : State) : exec (.drainDone part vcid) s = execDrainDone part vcid s := rfl
theorem exec_correctedBankError {bank} {seg} (s : State) : exec (.correctedBankError bank seg) s = execCorrectedBankError bank seg s := rfl
theorem exec_uncorrectableBankError {bank} {seg} (s : State) : exec (.uncorrectableBankError bank seg) s = execUncorrectableBankError bank seg s := rfl
theorem exec_pieceRegister {piece} (s : State) : exec (.pieceRegister piece) s = execPieceRegister piece s := rfl
theorem exec_positionQuery {piece} {watch} (s : State) : exec (.positionQuery piece watch) s = execPositionQuery piece watch s := rfl
theorem exec_positionAnswer {piece} {pos} (s : State) : exec (.positionAnswer piece pos) s = execPositionAnswer piece pos s := rfl
theorem exec_pieceEnd {piece} (s : State) : exec (.pieceEnd piece) s = execPieceEnd piece s := rfl
theorem exec_hostMemRead {gran} {snp} (s : State) : exec (.hostMemRead gran snp) s = execHostMemRead gran snp s := rfl
theorem exec_hostMemInv {gran} (s : State) : exec (.hostMemInv gran) s = execHostMemInv gran s := rfl
theorem exec_hostMemWrite {gran} {d} (s : State) : exec (.hostMemWrite gran d) s = execHostMemWrite gran d s := rfl
theorem exec_hostMemCleanEvict {gran} (s : State) : exec (.hostMemCleanEvict gran) s = execHostMemCleanEvict gran s := rfl
theorem exec_biResponse {gran} {keeps} {d} (s : State) : exec (.biResponse gran keeps d) s = execBiResponse gran keeps d s := rfl
theorem exec_biConflict {gran} (s : State) : exec (.biConflict gran) s = execBiConflict gran s := rfl
theorem exec_h2dSnpData {gran} (s : State) : exec (.h2dSnpData gran) s = execH2dSnpData gran s := rfl
theorem exec_h2dSnpInv {gran} (s : State) : exec (.h2dSnpInv gran) s = execH2dSnpInv gran s := rfl
theorem exec_h2dSnpCur {gran} (s : State) : exec (.h2dSnpCur gran) s = execH2dSnpCur gran s := rfl
theorem exec_h2dResponse {gran} {d} (s : State) : exec (.h2dResponse gran d) s = execH2dResponse gran d s := rfl
theorem exec_heartbeatMiss {agent} (s : State) : exec (.heartbeatMiss agent) s = execHeartbeatMiss agent s := rfl
theorem exec_hostLinkFail {link} (s : State) : exec (.hostLinkFail link) s = execHostLinkFail link s := rfl
theorem exec_scrubStep {stack} (s : State) : exec (.scrubStep stack) s = execScrubStep stack s := rfl
theorem exec_storeSend {hart} (s : State) : exec (.storeSend hart) s = execStoreSend hart s := rfl
theorem exec_storeAck {hart} {id} (s : State) : exec (.storeAck hart id) s = execStoreAck hart id s := rfl
theorem exec_mergeFlushIdle {tile} {idx} (s : State) : exec (.mergeFlushIdle tile idx) s = execMergeFlushIdle tile idx s := rfl
theorem exec_joinMarkers {hart} (s : State) : exec (.joinMarkers hart) s = execJoinMarkers hart s := rfl
theorem exec_joinMarkerArrive {join} {circuit} (s : State) : exec (.joinMarkerArrive join circuit) s = execJoinMarkerArrive join circuit s := rfl
theorem exec_jackSend {join} {circuit} (s : State) : exec (.jackSend join circuit) s = execJackSend join circuit s := rfl
theorem exec_jackArrive {join} {circuit} (s : State) : exec (.jackArrive join circuit) s = execJackArrive join circuit s := rfl
theorem exec_monitorNotify {hart} (s : State) : exec (.monitorNotify hart) s = execMonitorNotify hart s := rfl
theorem exec_watermarkRelease {hart} (s : State) : exec (.watermarkRelease hart) s = execWatermarkRelease hart s := rfl
theorem exec_loadDataReturn {id} (s : State) : exec (.loadDataReturn id) s = execLoadDataReturn id s := rfl
theorem exec_dispatchDecision {stack} (s : State) : exec (.dispatchDecision stack) s = execDispatchDecision stack s := rfl
theorem exec_poolEntryTaken {stack} {level} (s : State) : exec (.poolEntryTaken stack level) s = execPoolEntryTaken stack level s := rfl
theorem exec_pointSetAside {hart} (s : State) : exec (.pointSetAside hart) s = execPointSetAside hart s := rfl
theorem exec_pointRestore {tile} {depth} (s : State) : exec (.pointRestore tile depth) s = execPointRestore tile depth s := rfl
theorem exec_quantumExpiry {region} (s : State) : exec (.quantumExpiry region) s = execQuantumExpiry region s := rfl
theorem exec_contextSwapBegin {region} (s : State) : exec (.contextSwapBegin region) s = execContextSwapBegin region s := rfl
theorem exec_contextSwapComplete {region} (s : State) : exec (.contextSwapComplete region) s = execContextSwapComplete region s := rfl
theorem exec_laneStepChange {tile} {lanes} (s : State) : exec (.laneStepChange tile lanes) s = execLaneStepChange tile lanes s := rfl
theorem exec_thermalHalt (s : State) : exec (.thermalHalt) s = execThermalHalt s := rfl
theorem exec_incomingPut {p} {bytes} (s : State) : exec (.incomingPut p bytes) s = execIncomingPut p bytes s := rfl
theorem exec_incomingGet {p} {len} (s : State) : exec (.incomingGet p len) s = execIncomingGet p len s := rfl
theorem exec_incomingRamo {p} {func} {dword} {operand} {cmp} (s : State) : exec (.incomingRamo p func dword operand cmp) s = execIncomingRamo p func dword operand cmp s := rfl
theorem exec_incomingRred {p} {func} {dword} {bytes} (s : State) : exec (.incomingRred p func dword bytes) s = execIncomingRred p func dword bytes s := rfl
theorem exec_incomingMcast {p} {bytes} (s : State) : exec (.incomingMcast p bytes) s = execIncomingMcast p bytes s := rfl
theorem exec_podAnswer {tile} {cmd} {neg} {bytes} {nneg} {low} (s : State) : exec (.podAnswer tile cmd neg bytes nneg low) s = execPodAnswer tile cmd neg bytes nneg low s := rfl
theorem exec_mcastRoute {tile} {cmd} (s : State) : exec (.mcastRoute tile cmd) s = execMcastRoute tile cmd s := rfl
theorem exec_mcastMemberAnswer {tile} {cmd} {pkg} {neg} (s : State) : exec (.mcastMemberAnswer tile cmd pkg neg) s = execMcastMemberAnswer tile cmd pkg neg s := rfl
theorem exec_podMergeSend {idx} (s : State) : exec (.podMergeSend idx) s = execPodMergeSend idx s := rfl
theorem exec_routerContribution {x} (s : State) : exec (.routerContribution x) s = execRouterContribution x s := rfl
theorem exec_routerElementTimeout {cluster} {elem} (s : State) : exec (.routerElementTimeout cluster elem) s = execRouterElementTimeout cluster elem s := rfl
theorem exec_routerAnswer {cluster} {elem} {neg} (s : State) : exec (.routerAnswer cluster elem neg) s = execRouterAnswer cluster elem neg s := rfl
theorem exec_routerReplicate {tile} {part} {pa} {bytes} (s : State) : exec (.routerReplicate tile part pa bytes) s = execRouterReplicate tile part pa bytes s := rfl
theorem exec_routerEntryWrite {tile} {part} {off} {val} (s : State) : exec (.routerEntryWrite tile part off val) s = execRouterEntryWrite tile part off val s := rfl
theorem exec_crossbarDivergence (s : State) : exec (.crossbarDivergence) s = execCrossbarDivergence s := rfl
theorem exec_crossbarRetrainDone {ok} (s : State) : exec (.crossbarRetrainDone ok) s = execCrossbarRetrainDone ok s := rfl
theorem exec_correctedLaneError {slice} (s : State) : exec (.correctedLaneError slice) s = execCorrectedLaneError slice s := rfl
theorem exec_cellFire {tile} {pos} (s : State) : exec (.cellFire tile pos) s = execCellFire tile pos s := rfl
theorem exec_awlElement {tile} {awl} (s : State) : exec (.awlElement tile awl) s = execAwlElement tile awl s := rfl
theorem exec_xlateTranslate {tile} {awl} (s : State) : exec (.xlateTranslate tile awl) s = execXlateTranslate tile awl s := rfl
theorem exec_awlExtentAnswer {tile} {awl} (s : State) : exec (.awlExtentAnswer tile awl) s = execAwlExtentAnswer tile awl s := rfl
theorem exec_miuAccess {tile} {awl} (s : State) : exec (.miuAccess tile awl) s = execMiuAccess tile awl s := rfl
theorem exec_miuBurstClose {tile} {awl} (s : State) : exec (.miuBurstClose tile awl) s = execMiuBurstClose tile awl s := rfl
theorem exec_awlLoadReturn {tile} {awl} (s : State) : exec (.awlLoadReturn tile awl) s = execAwlLoadReturn tile awl s := rfl
theorem exec_portElement {tile} {q} (s : State) : exec (.portElement tile q) s = execPortElement tile q s := rfl
theorem exec_fabricRunComplete {tile} (s : State) : exec (.fabricRunComplete tile) s = execFabricRunComplete tile s := rfl
theorem exec_cellFreeze {tile} {pos} (s : State) : exec (.cellFreeze tile pos) s = execCellFreeze tile pos s := rfl
theorem exec_cutWrite {tile} (s : State) : exec (.cutWrite tile) s = execCutWrite tile s := rfl
theorem exec_freezeAbandon {tile} (s : State) : exec (.freezeAbandon tile) s = execFreezeAbandon tile s := rfl
theorem exec_partitionStart {part} (s : State) : exec (.partitionStart part) s = execPartitionStart part s := rfl
theorem exec_partitionRemove {part} (s : State) : exec (.partitionRemove part) s = execPartitionRemove part s := rfl
theorem exec_featureLock {lock} (s : State) : exec (.featureLock lock) s = execFeatureLock lock s := rfl
theorem exec_segmentRevoke {bank} {seg} (s : State) : exec (.segmentRevoke bank seg) s = execSegmentRevoke bank seg s := rfl
theorem exec_controlSpaceWrite {off} {size} {val} (s : State) : exec (.controlSpaceWrite off size val) s = execControlSpaceWrite off size val s := rfl
theorem exec_fretiaCsrRead {off} (s : State) : exec (.fretiaCsrRead off) s = execFretiaCsrRead off s := rfl
theorem exec_fretiaCsrWrite {off} {val} (s : State) : exec (.fretiaCsrWrite off val) s = execFretiaCsrWrite off val s := rfl
theorem exec_fretiaBlackboxRead {die} (s : State) : exec (.fretiaBlackboxRead die) s = execFretiaBlackboxRead die s := rfl
theorem exec_fretiaGroupWrite {entry} {members} (s : State) : exec (.fretiaGroupWrite entry members) s = execFretiaGroupWrite entry members s := rfl
theorem exec_fretiaAttestation {nonce} (s : State) : exec (.fretiaAttestation nonce) s = execFretiaAttestation nonce s := rfl
theorem exec_coldReset {verified} (s : State) : exec (.coldReset verified) s = execColdReset verified s := rfl
theorem exec_warmReset (s : State) : exec (.warmReset) s = execWarmReset s := rfl
theorem exec_reservedEncoding {word} (s : State) : exec (.reservedEncoding word) s = execReservedEncoding word s := rfl
theorem exec_instructionFetchFault {cause} {sub} {addr} (s : State) : exec (.instructionFetchFault cause sub addr) s = execInstructionFetchFault cause sub addr s := rfl
theorem exec_agentReadmit {agent} (s : State) : exec (.agentReadmit agent) s = execAgentReadmit agent s := rfl
theorem exec_managementSwap {region} (s : State) : exec (.managementSwap region) s = execManagementSwap region s := rfl
theorem exec_scaleUpLinkFailure {dest} (s : State) : exec (.scaleUpLinkFailure dest) s = execScaleUpLinkFailure dest s := rfl

end Sys2Proof.Machine
end

