-- ==== Sys2Proof/Safety.lean ====
section
/-! DEFINITION. What counts as well-formed data and as a safe run, in the terms the statements use. -/

namespace Sys2Proof.Machine
open Sys2Proof

/-- The canonical form of memory: addresses strictly rising, and no byte listed that an unlisted address reads as
(0, notes/assumptions/1.md). -/
def Memory.wf (m : List Host.Cell) : Bool := mwf 0 m

/-- The memories of a state, the device's and the host's, are in canonical form. -/
def State.memWf (s : State) : Bool := Memory.wf s.mem && Memory.wf s.hostMem

/-- The machine moves: no fault and no refusal. -/
def Moves (o : Host.Outcome State Fault Refusal) : Prop := ∃ t, o = .next t

/-- A run of k steps is safe: no instruction in it is refused. The machine may come to rest (Fault.idle) until the outside acts. -/
def SafeRun (s : State) (k : Nat) : Prop := ∀ m, core.run k s ≠ .refused m

end Sys2Proof.Machine
end

