-- ==== Sys2Proof/Certificates/Slice0/Obligations.lean ====
section
/-! DEFINITION. The statements about the machine, for the provers: one named proposition each, under Obligations; what several statements share, and the
parts of the statements that have several, stand under Sys2Proof.Claims. -/

namespace Sys2Proof.Claims
open Sys2Proof Sys2Proof.Machine

/-! ## Words the statements use -/

/-- The outcomes of exec. -/
abbrev Answer := Host.Outcome State Fault Refusal

/-- Rows 7 and 8 of R247 for the g operands of an instruction: sources full and unmarked, destination full, no stream misused (R176, R351). -/
abbrev Ready (s : State) (srcs : List (BitVec 5 × Bool)) (dst : Option (BitVec 5)) : Prop := regStop s srcs dst = none

/-- The state after a one-word instruction that writes v to rd and uses up one position of each stream its sources name. -/
def wrote (s : State) (srcs : List (BitVec 5 × Bool)) (d : BitVec 5) (v : Word) : Answer :=
  .next (goTo (setG (popSrcs s srcs) d v) ((curH s).pc + 4))

/-- The value of source r. -/
abbrev g (s : State) (r : BitVec 5) : Word := gVal s r

/-- W32 of R258: the low half, sign-extended. -/
def half (x : Word) : Word := (x.setWidth 32).signExtend 64

/-- The result of an operation with a W form: W selects the second value. -/
def pickW (w : Bool) (full word : Word) : Word := if w then word else full

/-- 1 for true and 0 for false. -/
def truth (p : Prop) [Decidable p] : Word := if p then 1 else 0

/-- An operation with sources ra and rb: whenever its operands let it issue, rd takes f of them and nothing else happens. -/
def Binary (i : BitVec 5 → BitVec 5 → BitVec 5 → Bool → Bool → Instr) (f : Word → Word → Word) : Prop :=
  ∀ (s : State) (d a b : BitVec 5) (t u : Bool), Ready s [(a, t), (b, u)] (some d) →
    exec (i d a b t u) s = wrote s [(a, t), (b, u)] d (f (g s a) (g s b))

/-- An operation with the one source ra. -/
def Unary (i : BitVec 5 → BitVec 5 → Bool → Instr) (f : Word → Word) : Prop :=
  ∀ (s : State) (d a : BitVec 5) (t : Bool), Ready s [(a, t)] (some d) → exec (i d a t) s = wrote s [(a, t)] d (f (g s a))

end Sys2Proof.Claims

open Sys2Proof Sys2Proof.Machine Sys2Proof.Claims

/-- R258: sums, differences, products, quotients and remainders, with the values of the divisions by zero and of the overflowing one. -/
def Sys2Proof.Claims.IntegerArithmetic : Prop :=
  (∀ w, Binary (fun d a b t u => .add d a b t u w) fun x y => pickW w (x + y) (half (x + y))) ∧
  (∀ w, Binary (fun d a b t u => .sub d a b t u w) fun x y => pickW w (x - y) (half (x - y))) ∧
  (∀ w, Binary (fun d a b t u => .mul d a b t u w) fun x y => pickW w (x * y) (half (x * y))) ∧
  Binary .mulh (fun x y => BitVec.ofInt 64 (x.toInt * y.toInt / 2 ^ 64)) ∧
  Binary .mulhu (fun x y => BitVec.ofNat 64 (x.toNat * y.toNat / 2 ^ 64)) ∧
  Binary .div (fun x y => if y = 0 then -1 else BitVec.ofInt 64 (x.toInt.tdiv y.toInt)) ∧
  Binary .divu (fun x y => if y = 0 then -1 else BitVec.ofNat 64 (x.toNat / y.toNat)) ∧
  Binary .rem (fun x y => if y = 0 then x else BitVec.ofInt 64 (x.toInt.tmod y.toInt)) ∧
  Binary .remu (fun x y => if y = 0 then x else BitVec.ofNat 64 (x.toNat % y.toNat))

/-- R258: logic, shifts and rotates by the low six bits of b (five in the W form), comparisons, minima and maxima, and the conditional move. -/
def Sys2Proof.Claims.IntegerLogic : Prop :=
  Binary .and (fun x y => x &&& y) ∧ Binary .or (fun x y => x ||| y) ∧ Binary .xor (fun x y => x ^^^ y) ∧
  Binary .andn (fun x y => x &&& ~~~y) ∧ Binary .orn (fun x y => x ||| ~~~y) ∧
  (∀ w, Binary (fun d a b t u => .sll d a b t u w) fun x y =>
    pickW w (x <<< (y.toNat % 64)) ((x.setWidth 32 <<< (y.toNat % 32)).signExtend 64)) ∧
  (∀ w, Binary (fun d a b t u => .srl d a b t u w) fun x y =>
    pickW w (x >>> (y.toNat % 64)) ((x.setWidth 32 >>> (y.toNat % 32)).signExtend 64)) ∧
  (∀ w, Binary (fun d a b t u => .sra d a b t u w) fun x y =>
    pickW w (x.sshiftRight (y.toNat % 64)) (((x.setWidth 32).sshiftRight (y.toNat % 32)).signExtend 64)) ∧
  (∀ w, Binary (fun d a b t u => .rol d a b t u w) fun x y =>
    pickW w (x.rotateLeft (y.toNat % 64)) (((x.setWidth 32).rotateLeft (y.toNat % 32)).signExtend 64)) ∧
  (∀ w, Binary (fun d a b t u => .ror d a b t u w) fun x y =>
    pickW w (x.rotateRight (y.toNat % 64)) (((x.setWidth 32).rotateRight (y.toNat % 32)).signExtend 64)) ∧
  Binary .slt (fun x y => truth (x.toInt < y.toInt)) ∧ Binary .sltu (fun x y => truth (x.toNat < y.toNat)) ∧
  Binary .min (fun x y => if x.toInt ≤ y.toInt then x else y) ∧ Binary .max (fun x y => if x.toInt ≤ y.toInt then y else x) ∧
  Binary .minu (fun x y => if x.toNat ≤ y.toNat then x else y) ∧ Binary .maxu (fun x y => if x.toNat ≤ y.toNat then y else x) ∧
  (∀ (s : State) (d a b : BitVec 5) (t u : Bool), Ready s [(a, t), (b, u), (d, false)] (some d) →
    exec (.cmov d a b t u) s = wrote s [(a, t), (b, u), (d, false)] d (if g s a ≠ 0 then g s b else g s d))

/-- R258 to R260: counts of leading, trailing and set bits, the byte swap, sign and zero extension by the sub-code, the mixing step and the CRC. -/
def Sys2Proof.Claims.IntegerBits : Prop :=
  (∀ w, Unary (fun d a t => .clz d a t w) fun x =>
    if w then BitVec.ofNat 64 (32 - Nat.size (x.toNat % 2 ^ 32)) else BitVec.ofNat 64 (64 - Nat.size x.toNat)) ∧
  (∀ w, Unary (fun d a t => .ctz d a t w) fun x =>
    BitVec.ofNat 64 (((List.range (if w then 32 else 64)).takeWhile fun i => !x.getLsbD i).length)) ∧
  (∀ w, Unary (fun d a t => .popc d a t w) fun x =>
    BitVec.ofNat 64 (((List.range (if w then 32 else 64)).filter fun i => x.getLsbD i).length)) ∧
  Unary .bswap (fun x => BitVec.ofNat 64 ((List.range 8).map fun i => x.toNat / 256 ^ (7 - i) % 256 * 256 ^ i).sum) ∧
  (∀ c : BitVec 5, c.toNat ≤ 2 → Unary (fun d a t => .sext d a c t) fun x => (x.setWidth (8 * 2 ^ c.toNat)).signExtend 64) ∧
  (∀ c : BitVec 5, c.toNat ≤ 2 → Unary (fun d a t => .zext d a c t) fun x => (x.setWidth (8 * 2 ^ c.toNat)).setWidth 64) ∧
  Binary .hmix (fun x y =>
    let m := x ^^^ y.rotateLeft 23
    let m := (m ^^^ m >>> 32) * 0x9F3B5A4D71C2E8A7
    let m := (m ^^^ m >>> 29) * 0xE5B13D692A8F47C3
    m ^^^ m >>> 32) ∧
  Binary .crc32c (fun x y => ((List.range 64).foldl (fun (c : BitVec 32) i =>
    if (c.getLsbD 0 ^^ y.getLsbD i) then c >>> 1 ^^^ 0x82F63B78 else c >>> 1) (x.setWidth 32)).setWidth 64)

/-- R259: for a fixed b, HMIX maps different values of a to different results, and Hmix(0, 0) = 0. -/
def Sys2Proof.Claims.HmixOneToOne : Prop :=
  (∀ x y b : Word, hmix64 x b = hmix64 y b → x = y) ∧ hmix64 0 0 = 0

/-- R261 to R263: the immediate forms. -/
def Sys2Proof.Claims.IntegerImmediate : Prop :=
  (∀ i : BitVec 15, Unary (fun d a t => .addi d a t i) fun x => x + i.signExtend 64) ∧
  (∀ i : BitVec 15, Unary (fun d a t => .andi d a t i) fun x => x &&& i.signExtend 64) ∧
  (∀ i : BitVec 15, Unary (fun d a t => .ori d a t i) fun x => x ||| i.signExtend 64) ∧
  (∀ i : BitVec 15, Unary (fun d a t => .xori d a t i) fun x => x ^^^ i.signExtend 64) ∧
  (∀ i : BitVec 15, Unary (fun d a t => .slti d a t i) fun x => truth (x.toInt < (i.signExtend 64).toInt)) ∧
  (∀ i : BitVec 15, Unary (fun d a t => .sltiu d a t i) fun x => truth (x.toNat < (i.signExtend 64).toNat)) ∧
  (∀ (n : BitVec 6) (w : Bool), Unary (fun d a t => .slli d a t n w) fun x =>
    pickW w (x <<< n.toNat) ((x.setWidth 32 <<< (n.toNat % 32)).signExtend 64)) ∧
  (∀ (n : BitVec 6) (w : Bool), Unary (fun d a t => .srli d a t n w) fun x =>
    pickW w (x >>> n.toNat) ((x.setWidth 32 >>> (n.toNat % 32)).signExtend 64)) ∧
  (∀ (n : BitVec 6) (w : Bool), Unary (fun d a t => .srai d a t n w) fun x =>
    pickW w (x.sshiftRight n.toNat) (((x.setWidth 32).sshiftRight (n.toNat % 32)).signExtend 64)) ∧
  (∀ (n : BitVec 6) (w : Bool), Unary (fun d a t => .rori d a t n w) fun x =>
    pickW w (x.rotateRight n.toNat) (((x.setWidth 32).rotateRight (n.toNat % 32)).signExtend 64)) ∧
  (∀ (s : State) (d : BitVec 5) (i : BitVec 21), Ready s [] (some d) →
    exec (.movhi d i) s = wrote s [] d (i.signExtend 64 <<< 11) ∧
    exec (.addpc d i) s = wrote s [] d ((curH s).pc + i.signExtend 64 <<< 11))


namespace Sys2Proof.Claims
open Sys2Proof Sys2Proof.Machine

/-! ## Floating point -/

/-- The number a finite value stands for. -/
def value (x : Fp) : ℚ :=
  match x with
  | .fin n m e => (if n then -1 else 1) * m * (2 : ℚ) ^ e
  | _ => 0

/-- The state after a floating-point instruction: as `wrote`, with flags fl (NV 1, DZ 2, OF 4, UF 8, NX 16) made sticky in fcsr [12:8]. -/
def wroteFp (s : State) (srcs : List (BitVec 5 × Bool)) (d : BitVec 5) (v : Word) (fl : Nat) : Answer :=
  .next (goTo (setG (addFlags (popSrcs s srcs) fl) d v) ((curH s).pc + 4))

/-- The mode in force: FRM of fcsr where the field is 7 (R218). -/
def mode (s : State) (m : BitVec 3) : Nat := if m = 7 then (curH s).fcsr.toNat % 8 else m.toNat

/-- A result rounded once in the mode in force, with the flags of the operation and of the rounding. -/
def rounded (s : State) (srcs : List (BitVec 5 × Bool)) (d : BitVec 5) (p : Bool) (m : BitVec 3) (x : Fp × Nat) : Answer :=
  wroteFp s srcs d (BitVec.ofNat 64 ((fmtOf p).put (mode s m) ((curH s).fcsr.getLsbD 4) x.1).1)
    (x.2 ||| ((fmtOf p).put (mode s m) ((curH s).fcsr.getLsbD 4) x.1).2)

/-- 1 where x or y is a signalling NaN. -/
def sig2 (x y : Fp) : Nat := if x = .nan true ∨ y = .nan true then 1 else 0
/-- A product of a zero and an infinity. -/
abbrev zeroTimesInf (x y : Fp) : Prop := (x.isZero ∧ y.isInf) ∨ (x.isInf ∧ y.isZero)

end Sys2Proof.Claims

/-- R264: FADD, FSUB, FMUL, FDIV, FSQRT, FMA and FNMA: the operation on the operands as the size bit and FTZI read them, rounded once. -/
def Sys2Proof.Claims.FpArithmetic : Prop :=
  ∀ (s : State) (d a b : BitVec 5) (t u p : Bool) (m : BitVec 3),
    (Ready s [(a, t), (b, u)] (some d) →
      exec (.fadd d a b t u p m) s = rounded s [(a, t), (b, u)] d p m (fpAdd (mode s m) (fpArg s p a) (fpArg s p b)) ∧
      exec (.fsub d a b t u p m) s = rounded s [(a, t), (b, u)] d p m (fpAdd (mode s m) (fpArg s p a) (fpArg s p b).neg) ∧
      exec (.fmul d a b t u p m) s = rounded s [(a, t), (b, u)] d p m (fpMul (fpArg s p a) (fpArg s p b)) ∧
      exec (.fdiv d a b t u p m) s = rounded s [(a, t), (b, u)] d p m (fpDiv (fmtOf p) (fpArg s p a) (fpArg s p b))) ∧
    (Ready s [(a, t)] (some d) →
      exec (.fsqrt d a t p m) s = rounded s [(a, t)] d p m (fpSqrt (fmtOf p) (fpArg s p a))) ∧
    (Ready s [(a, t), (b, u), (d, false)] (some d) →
      exec (.fma d a b t u p m) s
        = rounded s [(a, t), (b, u), (d, false)] d p m (fpFma (mode s m) (fpArg s p a) (fpArg s p b) (fpArg s p d)) ∧
      exec (.fnma d a b t u p m) s
        = rounded s [(a, t), (b, u), (d, false)] d p m (fpFma (mode s m) (fpArg s p a).neg (fpArg s p b) (fpArg s p d)))

/-- R216, R264: sums, products and fused sums of finite numbers are exact before the one rounding and raise nothing of their own. -/
def Sys2Proof.Claims.FpExact : Prop :=
  ∀ (mode m n k : Nat) (x y z : Bool) (e g h : Int),
    (value (fpAdd mode (.fin x m e) (.fin y n g)).1 = value (.fin x m e) + value (.fin y n g) ∧ (fpAdd mode (.fin x m e) (.fin y n g)).2 = 0) ∧
    (value (fpMul (.fin x m e) (.fin y n g)).1 = value (.fin x m e) * value (.fin y n g) ∧ (fpMul (.fin x m e) (.fin y n g)).2 = 0) ∧
    (value (fpFma mode (.fin x m e) (.fin y n g) (.fin z k h)).1
        = value (.fin x m e) * value (.fin y n g) + value (.fin z k h) ∧ (fpFma mode (.fin x m e) (.fin y n g) (.fin z k h)).2 = 0)

/-- R216, R264: a quotient and a square root carry enough bits for their one rounding, and a sticky lowest bit that says whether they are exact. -/
def Sys2Proof.Claims.FpQuotientAndRoot : Prop :=
  ∀ (f : FFmt) (m n : Nat) (x y : Bool) (e g : Int),
    (m ≠ 0 → n ≠ 0 → ∃ q : Nat, ∃ w : Int, 2 ^ (f.fb + 3) ≤ q ∧
      ((fpDiv f (.fin x m e) (.fin y n g) = (.fin (x != y) (2 * q) w, 0) ∧
          value (.fin (x != y) (2 * q) w) = value (.fin x m e) / value (.fin y n g)) ∨
        (fpDiv f (.fin x m e) (.fin y n g) = (.fin (x != y) (2 * q + 1) w, 0) ∧
          |value (.fin x m e) / value (.fin y n g) - value (.fin (x != y) (2 * q + 1) w)| < (2 : ℚ) ^ w))) ∧
    (m ≠ 0 → ∃ q : Nat, ∃ w : Int, 2 ^ (f.fb + 3) ≤ q ∧
      ((fpSqrt f (.fin false m e) = (.fin false (2 * q) w, 0) ∧ value (.fin false (2 * q) w) ^ 2 = value (.fin false m e)) ∨
        (fpSqrt f (.fin false m e) = (.fin false (2 * q + 1) w, 0) ∧
          value (.fin false (2 * q) w) ^ 2 < value (.fin false m e) ∧ value (.fin false m e) < value (.fin false (2 * q + 2) w) ^ 2)))

/-- R216: what the special operands give: NaN operands and invalid operations give the default NaN, with NV for a signalling NaN and for an invalid
operation, also in the fused operations and the square root; a finite number by zero gives an infinity with DZ. -/
def Sys2Proof.Claims.FpSpecial : Prop :=
  ∀ (f : FFmt) (mode : Nat) (x y z : Fp) (n : Bool) (m : Nat) (e : Int),
    ((x.isNan ∨ y.isNan) → fpAdd mode x y = (.nan false, sig2 x y) ∧ fpMul x y = (.nan false, sig2 x y) ∧ fpDiv f x y = (.nan false, sig2 x y)) ∧
    fpAdd mode (.inf n) (.inf !n) = (.nan false, 1) ∧ fpAdd mode (.inf n) (.inf n) = (.inf n, 0) ∧
    (x.isZero → fpMul x (.inf n) = (.nan false, 1) ∧ fpMul (.inf n) x = (.nan false, 1)) ∧
    (x.isNan ∨ y.isNan ∨ z.isNan ∨ zeroTimesInf x y →
      ∀ v ∈ [x, x.neg], fpFma mode v y z = (.nan false, if x = .nan true ∨ y = .nan true ∨ z = .nan true ∨ zeroTimesInf x y then 1 else 0)) ∧
    (¬x.isNan → ¬y.isNan → ¬zeroTimesInf x y → x.isInf ∨ y.isInf → ∀ sg, sg = (x.negp != y.negp) →
      fpFma mode x y (.inf !sg) = (.nan false, 1) ∧ fpFma mode x.neg y (.inf sg) = (.nan false, 1) ∧
      fpFma mode x y (.inf sg) = (.inf sg, 0) ∧ fpFma mode x.neg y (.inf !sg) = (.inf !sg, 0)) ∧
    fpDiv f (.inf n) (.inf !n) = (.nan false, 1) ∧
    (x.isZero → y.isZero → fpDiv f x y = (.nan false, 1)) ∧
    (m ≠ 0 → y.isZero → fpDiv f (.fin n m e) y = (.inf (n != y.negp), 2)) ∧
    (m ≠ 0 → fpSqrt f (.fin true m e) = (.nan false, 1)) ∧ fpSqrt f (.fin true 0 e) = (.fin true 0 0, 0) ∧
    fpSqrt f (.inf true) = (.nan false, 1) ∧ fpSqrt f (.inf false) = (.inf false, 0) ∧ fpSqrt f (.nan n) = (.nan false, if n then 1 else 0) ∧
    (∀ md z, f.put md z (.nan n) = (f.dnan, 0))

/-- R218: how a magnitude that lies between two multiples of 2^q is rounded in each of the five modes. -/
def Sys2Proof.Claims.RoundingModes : Prop :=
  ∀ (neg : Bool) (m : Nat) (e q : Int), e < q →
    let d := 2 ^ (q - e).toNat
    let k (mode : Nat) := (roundAt mode neg m e q).1
    (∀ mode, (roundAt mode neg m e q).2 = decide (m % d ≠ 0) ∧ (m % d = 0 → k mode = m / d) ∧ (k mode = m / d ∨ k mode = m / d + 1)) ∧
    (2 * (m % d) < d → k 0 = m / d ∧ k 1 = m / d) ∧
    (d < 2 * (m % d) → k 0 = m / d + 1 ∧ k 1 = m / d + 1) ∧
    (2 * (m % d) = d → k 0 % 2 = 0 ∧ k 1 = m / d + 1) ∧
    k 2 = m / d ∧
    (m % d ≠ 0 → k 3 = (if neg then m / d else m / d + 1) ∧ k 4 = (if neg then m / d + 1 else m / d))

/-- R215, R218, R219: the bits of every number of a format are what rounding its value gives, with no flag in any mode; past the greatest finite number
the result is the infinity or that number, by the mode, with OF and NX. -/
def Sys2Proof.Claims.FormatNumbers : Prop :=
  (∀ f ∈ [fp64, fp32, fp16, bf16], ∀ (mode b : Nat), b < 2 ^ f.width → (f.read b).isNan = false → f.put mode false (f.read b) = (b, 0)) ∧
  (∀ f ∈ [fp64, fp32, fp16, bf16], ∀ (mode : Nat) (n z : Bool) (m : Nat) (e : Int), mode < 5 → 2 ^ f.fb ≤ m → f.bias + 1 - f.fb ≤ e →
    f.put mode z (.fin n m e)
      = (f.sgn n + (2 ^ f.eb - 1) * 2 ^ f.fb - (if mode = 2 ∨ mode = 3 ∧ n ∨ mode = 4 ∧ ¬n then 1 else 0), 20))

/-- R220, R264, R266: FMIN and FMAX, whose result FTZO flushes, the three comparisons with NV on a signalling NaN (any NaN for FLT and FLE), and the class mask, which raises nothing. -/
def Sys2Proof.Claims.FpCompare : Prop :=
  ∀ (s : State) (d a b : BitVec 5) (t u p : Bool),
    let x := fpArg s p a
    let y := fpArg s p b
    let raw := (gVal s a).toNat % 2 ^ (fmtOf p).width
    (Ready s [(a, t), (b, u)] (some d) →
      exec (.fmin d a b t u p) s
        = rounded s [(a, t), (b, u)] d p 0 ((fpMinMax false x y).1, sig2 x y) ∧
      exec (.fmax d a b t u p) s
        = rounded s [(a, t), (b, u)] d p 0 ((fpMinMax true x y).1, sig2 x y) ∧
      exec (.feq d a b t u p) s = wroteFp s [(a, t), (b, u)] d (truth (fpEq x y)) (sig2 x y) ∧
      exec (.flt d a b t u p) s = wroteFp s [(a, t), (b, u)] d (truth (fpLt x y)) (if x.isNan ∨ y.isNan then 1 else 0) ∧
      exec (.fle d a b t u p) s = wroteFp s [(a, t), (b, u)] d (truth (fpLt x y ∨ fpEq x y)) (if x.isNan ∨ y.isNan then 1 else 0)) ∧
    (Ready s [(a, t)] (some d) → exec (.fclass d a t p) s = wrote s [(a, t)] d (BitVec.ofNat 64 (match (fmtOf p).read raw with
      | .nan true => 1
      | .nan false => 2
      | .inf n => if n then 512 else 4
      | .fin n 0 _ => if n then 64 else 32
      | .fin n _ _ => if (fmtOf p).subnormal raw then (if n then 128 else 16) else (if n then 256 else 8))))

/-- R216: comparisons of numbers compare what they stand for; a minimum or a maximum is one of the operands, the lesser or the greater, with -0 below +0,
and a lone NaN loses. -/
def Sys2Proof.Claims.FpOrder : Prop :=
  ∀ (m n : Nat) (x y : Bool) (e g : Int),
    let a := Fp.fin x m e
    let b := Fp.fin y n g
    (fpLt a b ↔ value a < value b) ∧ (fpEq a b ↔ value a = value b) ∧
    (∀ c : Fp, fpLt (.nan x) c = false ∧ fpLt c (.nan x) = false ∧ fpEq (.nan x) c = false ∧ fpEq c (.nan x) = false) ∧
    (∀ hi, ((fpMinMax hi a b).1 = a ∨ (fpMinMax hi a b).1 = b) ∧ (fpMinMax hi a (.nan y)).1 = a ∧ (fpMinMax hi (.nan y) a).1 = a ∧
      (fpMinMax hi (.nan x) (.nan y)).1 = .nan false) ∧
    value (fpMinMax false a b).1 = min (value a) (value b) ∧ value (fpMinMax true a b).1 = max (value a) (value b) ∧
    (fpMinMax false (.fin true 0 e) (.fin false 0 g)).1 = .fin true 0 e ∧ (fpMinMax true (.fin true 0 e) (.fin false 0 g)).1 = .fin false 0 g

/-- R265: FCVT by its sub-code: to signed and unsigned integers, from them, and to the other width. -/
def Sys2Proof.Claims.FpConvert : Prop :=
  ∀ (s : State) (d a c : BitVec 5) (t p : Bool) (m : BitVec 3), Ready s [(a, t)] (some d) →
    let x := fpArg s p a
    (c = 0 → exec (.fcvt d a c t p m) s = wroteFp s [(a, t)] d (BitVec.ofInt 64 (fpToInt (mode s m) x (-2 ^ 63) (2 ^ 63 - 1)).1)
      (fpToInt (mode s m) x (-2 ^ 63) (2 ^ 63 - 1)).2) ∧
    (c = 1 → exec (.fcvt d a c t p m) s = wroteFp s [(a, t)] d (BitVec.ofInt 64 (fpToInt (mode s m) x 0 (2 ^ 64 - 1)).1)
      (fpToInt (mode s m) x 0 (2 ^ 64 - 1)).2) ∧
    (c = 2 → exec (.fcvt d a c t p m) s = rounded s [(a, t)] d p m (intFp (gVal s a).toInt, 0)) ∧
    (c = 3 → exec (.fcvt d a c t p m) s = rounded s [(a, t)] d p m (intFp (gVal s a).toNat, 0)) ∧
    (c = 4 → exec (.fcvt d a c t p m) s = rounded s [(a, t)] d (!p) m (x, x.snan))

/-- R230, R265: a number becomes the integer the mode rounds it to, or the nearest bound with NV when that lies outside; a NaN becomes 0 with NV; an
integer as a number is itself. -/
def Sys2Proof.Claims.IntegerOfNumber : Prop :=
  ∀ (mode : Nat) (n : Bool) (m : Nat) (e lo hi : Int), mode < 5 → lo ≤ 0 → 0 ≤ hi →
    let v := value (.fin n m e)
    let r := fpToInt mode (.fin n m e) lo hi
    (∃ i : Int, |(i : ℚ) - v| < 1 ∧ (mode ≤ 1 → 2 * |(i : ℚ) - v| ≤ 1) ∧ (mode = 2 → |(i : ℚ)| ≤ |v|) ∧ (mode = 3 → v ≤ i) ∧ (mode = 4 → i ≤ v) ∧
      r = if i < lo then (lo, 1) else if hi < i then (hi, 1) else (i, if (i : ℚ) = v then 0 else 16)) ∧
    fpToInt mode (.nan n) lo hi = (0, 1) ∧ fpToInt mode (.inf n) lo hi = (if n then lo else hi, 1) ∧ value (intFp lo) = lo

namespace Sys2Proof.Claims

/-! ## Control flow, frames and operands that are not there -/

/-- Sources (with their trap bits), destination and whether fcsr may take flags, of the scalar register, immediate, floating-point and branch
instructions. -/
def scalar (i : Instr) : Option (List (BitVec 5 × Bool) × Option (BitVec 5) × Bool) :=
  match i with
  | .add d a b t u _ => some ([(a, t), (b, u)], some d, false)
  | .sub d a b t u _ => some ([(a, t), (b, u)], some d, false)
  | .mul d a b t u _ => some ([(a, t), (b, u)], some d, false)
  | .mulh d a b t u => some ([(a, t), (b, u)], some d, false)
  | .mulhu d a b t u => some ([(a, t), (b, u)], some d, false)
  | .div d a b t u => some ([(a, t), (b, u)], some d, false)
  | .divu d a b t u => some ([(a, t), (b, u)], some d, false)
  | .rem d a b t u => some ([(a, t), (b, u)], some d, false)
  | .remu d a b t u => some ([(a, t), (b, u)], some d, false)
  | .and d a b t u => some ([(a, t), (b, u)], some d, false)
  | .or d a b t u => some ([(a, t), (b, u)], some d, false)
  | .xor d a b t u => some ([(a, t), (b, u)], some d, false)
  | .andn d a b t u => some ([(a, t), (b, u)], some d, false)
  | .orn d a b t u => some ([(a, t), (b, u)], some d, false)
  | .sll d a b t u _ => some ([(a, t), (b, u)], some d, false)
  | .srl d a b t u _ => some ([(a, t), (b, u)], some d, false)
  | .sra d a b t u _ => some ([(a, t), (b, u)], some d, false)
  | .rol d a b t u _ => some ([(a, t), (b, u)], some d, false)
  | .ror d a b t u _ => some ([(a, t), (b, u)], some d, false)
  | .slt d a b t u => some ([(a, t), (b, u)], some d, false)
  | .sltu d a b t u => some ([(a, t), (b, u)], some d, false)
  | .min d a b t u => some ([(a, t), (b, u)], some d, false)
  | .max d a b t u => some ([(a, t), (b, u)], some d, false)
  | .minu d a b t u => some ([(a, t), (b, u)], some d, false)
  | .maxu d a b t u => some ([(a, t), (b, u)], some d, false)
  | .clz d a t _ => some ([(a, t)], some d, false)
  | .ctz d a t _ => some ([(a, t)], some d, false)
  | .popc d a t _ => some ([(a, t)], some d, false)
  | .bswap d a t => some ([(a, t)], some d, false)
  | .sext d a _ t => some ([(a, t)], some d, false)
  | .zext d a _ t => some ([(a, t)], some d, false)
  | .cmov d a b t u => some ([(a, t), (b, u), (d, false)], some d, false)
  | .hmix d a b t u => some ([(a, t), (b, u)], some d, false)
  | .crc32c d a b t u => some ([(a, t), (b, u)], some d, false)
  | .addi d a t _ => some ([(a, t)], some d, false)
  | .andi d a t _ => some ([(a, t)], some d, false)
  | .ori d a t _ => some ([(a, t)], some d, false)
  | .xori d a t _ => some ([(a, t)], some d, false)
  | .slti d a t _ => some ([(a, t)], some d, false)
  | .sltiu d a t _ => some ([(a, t)], some d, false)
  | .slli d a t _ _ => some ([(a, t)], some d, false)
  | .srli d a t _ _ => some ([(a, t)], some d, false)
  | .srai d a t _ _ => some ([(a, t)], some d, false)
  | .rori d a t _ _ => some ([(a, t)], some d, false)
  | .movhi d _ => some ([], some d, false)
  | .addpc d _ => some ([], some d, false)
  | .fadd d a b t u _ _ => some ([(a, t), (b, u)], some d, true)
  | .fsub d a b t u _ _ => some ([(a, t), (b, u)], some d, true)
  | .fmul d a b t u _ _ => some ([(a, t), (b, u)], some d, true)
  | .fdiv d a b t u _ _ => some ([(a, t), (b, u)], some d, true)
  | .fsqrt d a t _ _ => some ([(a, t)], some d, true)
  | .fma d a b t u _ _ => some ([(a, t), (b, u), (d, false)], some d, true)
  | .fnma d a b t u _ _ => some ([(a, t), (b, u), (d, false)], some d, true)
  | .fmin d a b t u _ => some ([(a, t), (b, u)], some d, true)
  | .fmax d a b t u _ => some ([(a, t), (b, u)], some d, true)
  | .feq d a b t u _ => some ([(a, t), (b, u)], some d, true)
  | .flt d a b t u _ => some ([(a, t), (b, u)], some d, true)
  | .fle d a b t u _ => some ([(a, t), (b, u)], some d, true)
  | .fcvt d a _ t _ _ => some ([(a, t)], some d, true)
  | .fclass d a t _ => some ([(a, t)], some d, false)
  | .beq a b _ => some ([(a, false), (b, false)], none, false)
  | .bne a b _ => some ([(a, false), (b, false)], none, false)
  | .blt a b _ => some ([(a, false), (b, false)], none, false)
  | .bge a b _ => some ([(a, false), (b, false)], none, false)
  | .bltu a b _ => some ([(a, false), (b, false)], none, false)
  | .bgeu a b _ => some ([(a, false), (b, false)], none, false)
  | .jal d _ => some ([], some d, false)
  | .jalr d a t _ => some ([(a, t)], some d, false)
  | _ => none

/-- The hart sleeps at its instruction until it may run. -/
def sleeps (s : State) (w : Wait) : Answer := .next (setCur s { curH s with wait := w })
/-- The instruction at pc takes a trap (R413). -/
def traps (s : State) (cause sub : Nat) (addr : Word) : Answer := .next (takeTrap s cause sub addr (curH s).pc)

/-- A canonical address: bits 63 to 55 copy bit 54 (R14). -/
abbrev Canonical (a : Word) : Prop := (a.setWidth 55).signExtend 64 = a

/-- s and t differ only in the executing hart's pc, wait, and value and fault mark of g register d, and in stream positions; if fl, in its fcsr too. -/
def OnlyWrites (s t : State) (d : Option (BitVec 5)) (fl : Bool) : Prop :=
  { t with harts := s.harts, tiles := s.tiles } = s ∧
  (∀ h, h ≠ s.cur → hartOf t h = hartOf s h) ∧
  (∀ n, { tileOf t n with se := (tileOf s n).se } = tileOf s n) ∧
  { curH t with pc := (curH s).pc, wait := (curH s).wait, g := (curH s).g, gFault := (curH s).gFault, fcsr := (curH s).fcsr } = curH s ∧
  (fl = false → (curH t).fcsr = (curH s).fcsr) ∧
  (∀ k, (∀ r, d = some r → r = 0 ∨ k ≠ gkey (curH s).sup r) →
    mgetD (curH t).g k 0 = mgetD (curH s).g k 0 ∧ mfind (curH t).gFault k = mfind (curH s).gFault k) ∧
  (∀ a, peek t a = peek s a)

end Sys2Proof.Claims

/-- R267, R268: a branch compares its sources and goes to pc + 4 times its offset, or on; a taken branch to an address that is not canonical raises PROT at
the branch. -/
def Sys2Proof.Claims.Branches : Prop :=
  ∀ (s : State) (a b : BitVec 5) (o : BitVec 13), Ready s [(a, false), (b, false)] none →
    let x := gVal s a
    let y := gVal s b
    let go (c : Prop) [Decidable c] : Answer :=
      if c then (if Canonical ((curH s).pc + o.signExtend 64 * 4) then
          .next (goTo (popSrcs s [(a, false), (b, false)]) ((curH s).pc + o.signExtend 64 * 4))
        else traps s 5 2 ((curH s).pc + o.signExtend 64 * 4))
      else .next (goTo (popSrcs s [(a, false), (b, false)]) ((curH s).pc + 4))
    exec (.beq a b o) s = go (x = y) ∧ exec (.bne a b o) s = go (x ≠ y) ∧
    exec (.blt a b o) s = go (x.toInt < y.toInt) ∧ exec (.bge a b o) s = go (y.toInt ≤ x.toInt) ∧
    exec (.bltu a b o) s = go (x.toNat < y.toNat) ∧ exec (.bgeu a b o) s = go (y.toNat ≤ x.toNat)

/-- R267, R268: JAL and JALR put pc + 4 into rd and go to pc + 4 times the offset, or to ra plus the immediate as ra was; a JALR target that is no
multiple of 4 raises MISALIGN, and one that is not canonical PROT. -/
def Sys2Proof.Claims.Jumps : Prop :=
  ∀ (s : State) (d a : BitVec 5) (t : Bool) (o : BitVec 21) (i : BitVec 15),
    let x := (curH s).pc + o.signExtend 64 * 4
    let y := gVal s a + i.signExtend 64
    (Ready s [] (some d) → exec (.jal d o) s = if Canonical x then .next (goTo (setG s d ((curH s).pc + 4)) x) else traps s 5 2 x) ∧
    (Ready s [(a, t)] (some d) → exec (.jalr d a t i) s =
      if y.toNat % 4 ≠ 0 then traps s 3 0 y
      else if Canonical y then .next (goTo (setG (popSrcs s [(a, t)]) d ((curH s).pc + 4)) y)
      else traps s 5 2 y)

/-- What the scalar register, floating-point and branch instructions leave as it was, whatever their operands: the hart sleeps, or traps, or only its pc, its
destination register and, for the instructions that set flags, fcsr are new. Memory is as before. -/
def Obligations.ScalarFrame : Prop :=
  ∀ (i : Instr) (srcs : List (BitVec 5 × Bool)) (d : Option (BitVec 5)) (fl : Bool) (s t : State), scalar i = some (srcs, d, fl) → exec i s = .next t →
    (∃ w, .next t = sleeps s w) ∨ (∃ c sub a, .next t = traps s c sub a) ∨ OnlyWrites s t d fl

/-- R176, R177, R247, R351, R459: the first empty source, in encoding order, decides: with its trap bit it raises EMPTY naming the register, without it the hart
waits at the instruction; with no source empty an empty destination waits. A source that is a write stream, or a destination that is a
read stream, raises OPERAND. Once nothing keeps the instruction from issuing, the first source that is marked raises its mark, or that is a stream without
positions raises STREAM, and after the sources such a destination does (R351). -/
def Sys2Proof.Claims.EmptyOperands : Prop :=
  ∀ (i : Instr) (srcs : List (BitVec 5 × Bool)) (d : Option (BitVec 5)) (fl : Bool) (s : State), scalar i = some (srcs, d, fl) →
    (∀ (l r : List (BitVec 5 × Bool)) (a : BitVec 5) (u : Bool), srcs = l ++ (a, u) :: r →
      ((∀ x ∈ l, gSrcSt s x.1 ≠ .empty) → gSrcSt s a = .empty → exec i s = if u then traps s 6 0 (a.setWidth 64) else sleeps s .reg) ∧
      ((∀ x ∈ l, gSrcSt s x.1 ≠ .ended ∧ ∀ m, gSrcSt s x.1 ≠ .marked m) → rowStop s srcs d = none →
        (∀ m, gSrcSt s a = .marked m → exec i s = traps s m.cause m.sub m.addr) ∧
        (gSrcSt s a = .ended → exec i s = traps s 12 0 (a.setWidth 64)))) ∧
    ((∀ x ∈ srcs, gSrcSt s x.1 ≠ .empty) → (∀ e, d = some e → gDstSt s e ≠ .empty) →
      ((∃ x ∈ srcs, gSrcSt s x.1 = .misuse) ∨ (∃ e, d = some e ∧ gDstSt s e = .misuse)) → exec i s = traps s 11 0 0) ∧
    (rowStop s srcs d = none → srcLate s srcs = none → ∀ e, d = some e → gDstSt s e = .ended → exec i s = traps s 12 0 (e.setWidth 64)) ∧
    ((∀ x ∈ srcs, gSrcSt s x.1 ≠ .empty) → ∀ e, d = some e → gDstSt s e = .empty → exec i s = sleeps s .reg)

/-- R235, R410, R459: g0 reads as zero and discards writes; another register that no stream is bound to takes the value, loses its fault mark, and leaves
every other register as it was, the user's g28 to g31 among them when a supervisor writes its own. -/
def Sys2Proof.Claims.RegisterFile : Prop :=
  ∀ (s : State) (r q : BitVec 5) (v : Word),
    gVal s 0 = 0 ∧ setG s 0 v = s ∧
    (r ≠ 0 → boundTo s false r = none →
      gVal (setG s r v) r = v ∧ mfind (curH (setG s r v)).gFault (gkey (curH s).sup r) = none ∧
      (q ≠ r → boundTo s false q = none → gVal (setG s r v) q = gVal s q) ∧
      (28 ≤ r.toNat → (curH s).sup → ∀ k < 32, mgetD (curH (setG s r v)).g k 0 = mgetD (curH s).g k 0) ∧
      { setG s r v with harts := s.harts } = s ∧ (∀ h, h ≠ s.cur → hartOf (setG s r v) h = hartOf s h))


namespace Sys2Proof.Claims
open Sys2Proof Sys2Proof.Machine

/-! ## Traps and the system instructions -/

/-- The TVEC, EXL and identity an entry meets. -/
def tvec (s : State) : Word := (partOf s (curPart s)).tvec

/-- Only the executing hart differs between s and t. -/
def OnlyHart (s t : State) : Prop := { t with harts := s.harts } = s ∧ ∀ h, h ≠ s.cur → hartOf t h = hartOf s h

/-- Every hart on the tiles of partition p. -/
def Halted (s t : State) (p : Nat) : Prop := ∀ h, h / 16 < 512 → tilePart s (h / 16) = some p → (hartOf t h).st = .halted

/-- The control registers software writes and reads back whole or in part: number and writable bits (R236, R270). fcsr, vcsr, vrc, tsqb and fsqb, whose
writes do more, are not among them. -/
def plainRegister (i : Nat) : Option Word :=
  if 0x11 ≤ i ∧ i ≤ 0x17 then some 0x7FFFF
  else if 0x18 ≤ i ∧ i ≤ 0x1B then some (-1)
  else if 0x20 ≤ i ∧ i ≤ 0x27 then some 0xFF1FF3F3
  else if 0x28 ≤ i ∧ i ≤ 0x2B then some 0x077FFFFFFFFFFFF9
  else match i with
    | 0x003 => some (-1)
    | 0x004 => some (-1)
    | 0x802 => some 0x7FFFFFFFFFFFFFFF
    | 0x804 => some 0x007FFFFFFFFFFFFD
    | 0x805 => some (-1)
    | 0x806 => some 0xFFFF
    | 0x807 => some (-1)
    | 0x808 => some 0x7FFFFFFF7
    | 0x811 => some 0x7FFFFFFFFFFFFFFF
    | 0x812 => some 0xFFFFFFFF
    | _ => none

end Sys2Proof.Claims

/-- R49, R413: with TVEC valid and EXL clear a trap saves pc, cause with its detail, address and status, sets the supervisor mode and EXL, and goes to the
entry; nothing else changes. -/
def Obligations.TakeTrap : Prop :=
  ∀ (s : State) (cause sub : Nat) (addr resume : Word), (tvec s).getLsbD 0 = true → (curH s).tr.estat.getLsbD 1 = false →
    let h := curH s
    let t := takeTrap s cause sub addr resume
    (curH t).tr.epc = resume ∧ (curH t).tr.ecause = BitVec.ofNat 64 (cause + 256 * sub) ∧ (curH t).tr.eaddr = addr ∧
    (curH t).tr.estat = (if h.sup then 1 else 0) + 2 + (match h.barPh with | none => 0 | some p => 4 + p.setWidth 64 <<< 4) ∧
    (curH t).sup = true ∧ (curH t).pc = ((tvec s >>> 2).setWidth 53 ++ (0 : BitVec 2)).signExtend 64 ∧ (curH t).barPh = none ∧
    (curH t).pfault = (h.pfault || cause == 4 || cause == 5) ∧ (curH t).pfOuter = h.pfault :: h.pfOuter ∧
    { curH t with tr := h.tr, sup := h.sup, pc := h.pc, wait := h.wait, barPh := h.barPh, conv := h.conv, pfault := h.pfault, pfOuter := h.pfOuter } = h ∧ OnlyHart s t

/-- R415: a trap that meets TVEC invalid or EXL set ends the partition: its STATE is 3, its harts stop, the black box of the tile's die logs it, and management
is told the cause and the epc. -/
def Obligations.DoubleTrap : Prop :=
  ∀ (s : State) (cause sub : Nat) (addr resume : Word), (tvec s).getLsbD 0 = false ∨ (curH s).tr.estat.getLsbD 1 = true →
    let p := curPart s
    let t := takeTrap s cause sub addr resume
    ptState t p = 3 ∧ Halted s t p ∧ t.out = s.out ++ [.notice 8 p (cause + 256 * (curH s).tr.epc.toNat)] ∧
    (∃ e, (mgetD t.boxes (curTile s / 128) []).head? = some e ∧ e.kind = 8 ∧ e.part = p) ∧ (∀ a, homeByte t a = homeByte s a)

/-- R9, R42, R49, R414, R417: TRAP and BRK trap, TRAP with its immediate and the pc after it; RFE in supervisor mode, its
hart's releases performed (R42), returns to epc with the mode, EXL and BAR phase that estat holds, and with the pending fault as the trap found it (R49); a word that is no instruction, or whose fetch faults, traps at itself; RFE, HALT, SHOOT and the ranged CINV are refused to user mode. -/
def Sys2Proof.Claims.TrapAndReturn : Prop :=
  ∀ (s : State) (i : BitVec 11) (w : BitVec 32) (c sb : Nat) (a : Word) (g h : BitVec 5),
    exec (.trap i) s = .next (takeTrap s 0x0D 0 (i.setWidth 64) ((curH s).pc + 4)) ∧
    exec .brk s = traps s 0x0E 0 0 ∧
    exec (.reservedEncoding w) s = traps s 0x01 0 0 ∧
    exec (.instructionFetchFault c sb a) s = traps s c sb a ∧
    ((curH s).sup = false →
      exec .rfe s = traps s 0x02 0 0 ∧ exec (.halt g) s = traps s 0x02 0 0 ∧ exec (.shoot g h) s = traps s 0x02 0 0 ∧
      exec (.cinvRange g h) s = traps s 0x02 0 0) ∧
    ((curH s).sup = true → (curH s).tr.epc.toNat % 4 ≠ 0 → exec .rfe s = traps s 0x03 0 (curH s).tr.epc) ∧
    ((curH s).sup = true → (curH s).tr.epc.toNat % 4 = 0 → releasePending s s.cur = true → exec .rfe s = sleeps s .drain) ∧
    ((curH s).sup = true → (curH s).tr.epc.toNat % 4 = 0 → releasePending s s.cur = false → ∃ t, exec .rfe s = .next t ∧ OnlyHart s t ∧
      (curH t).pc = (curH s).tr.epc ∧ (curH t).sup = (curH s).tr.estat.getLsbD 0 ∧
      (curH t).tr = { (curH s).tr with estat := (curH s).tr.estat &&& ~~~6 } ∧
      (curH t).barPh = (if (curH s).tr.estat.getLsbD 2 then some (((curH s).tr.estat >>> 4).setWidth 31) else none) ∧
      (curH t).pfault = (curH s).pfOuter.headD false ∧
      { curH t with pc := (curH s).pc, sup := (curH s).sup, tr := (curH s).tr, barPh := (curH s).barPh, wait := (curH s).wait, pfault := (curH s).pfault
                    pfOuter := (curH s).pfOuter } = curH s)

/-- R42, R236, R270, R271: an access to a control register that the checks allow reads it into rd, or writes it from the operand: MTC the register, MTCI the
immediate, CRSB with bits set and CRCB with bits cleared; flags of matrix streams that a write of vcsr clears are not seen later; a write of tsack waits
until its hart's releases are performed. One that the checks refuse traps with their cause. -/
def Sys2Proof.Claims.ControlRegisters : Prop :=
  ∀ (s : State) (g v : BitVec 5) (u : Bool) (i : BitVec 12),
    (∀ c, crCheck s i.toNat true false = some c → exec (.mfc g i) s = traps s c 0 0) ∧
    (∀ c, crCheck s i.toNat false true = some c → exec (.mtc g u i) s = traps s c 0 0 ∧ exec (.mtci v i) s = traps s c 0 0) ∧
    (∀ c, crCheck s i.toNat true true = some c → exec (.crsb g u i) s = traps s c 0 0 ∧ exec (.crcb g u i) s = traps s c 0 0) ∧
    (crCheck s i.toNat true false = none → Ready s [] (some g) → exec (.mfc g i) s = wrote s [] g (crRead s i.toNat)) ∧
    (crCheck s i.toNat false true = none → i = 0x803 → releasePending s s.cur = true → exec (.mtci v i) s = sleeps s .drain) ∧
    (i ≠ 0x803 ∨ releasePending s s.cur = false →
      let seen (m : Word) : State := keepMatrixFlags (popSrcs s [(g, u)]) i.toNat m
      (crCheck s i.toNat false true = none → Ready s [(g, u)] none →
        exec (.mtc g u i) s = .next (goTo (crWrite (seen (gVal s g)) i.toNat (gVal s g)) ((curH s).pc + 4))) ∧
      (crCheck s i.toNat false true = none →
        exec (.mtci v i) s = .next (goTo (crWrite (keepMatrixFlags s i.toNat (v.setWidth 64)) i.toNat (v.setWidth 64)) ((curH s).pc + 4))) ∧
      (crCheck s i.toNat true true = none → Ready s [(g, u)] none →
        exec (.crsb g u i) s = .next (goTo (crWrite (popSrcs s [(g, u)]) i.toNat (crRead s i.toNat ||| gVal s g)) ((curH s).pc + 4)) ∧
        exec (.crcb g u i) s = .next (goTo (crWrite (seen (~~~gVal s g)) i.toNat (crRead s i.toNat &&& ~~~gVal s g)) ((curH s).pc + 4))))

/-- R236, R237: the checks, in their order: class 3 is no register; class 2 is the supervisor's; an unassigned number, a write of a read-only register and a
read of a write-only one are illegal; tile configuration registers need the matrix grant, and vector ones lanes. -/
def Sys2Proof.Claims.ControlChecks : Prop :=
  ∀ (s : State) (i : Nat) (reads writes : Bool),
    (0xC00 ≤ i → i < 0x1000 → crCheck s i reads writes = some 0x01) ∧
    (0x800 ≤ i → i < 0xC00 → (curH s).sup = false → crCheck s i reads writes = some 0x02) ∧
    (0x400 ≤ i → i < 0x800 → crCheck s i reads true = some 0x01) ∧
    ((i = 0x803 ∨ i = 0x813) → (curH s).sup = true → crCheck s i true writes = some 0x01 ∧ crCheck s i false true = none) ∧
    (0x20 ≤ i → i ≤ 0x27 → crCheck s i reads writes = if (tileOf s (curTile s)).mx = some s.cur then none else some 0x0B) ∧
    (1 ≤ i → i ≤ 4 → crCheck s i reads writes = if (curH s).v.lanes = 0 then some 0x0B else none) ∧
    ((i = 0 ∨ 0x11 ≤ i ∧ i ≤ 0x1B ∨ 0x28 ≤ i ∧ i ≤ 0x2F) → crCheck s i reads writes = none) ∧
    (5 ≤ i → i ≤ 0x10 → crCheck s i reads writes = some 0x01)

/-- R217, R270: what a written register then reads: its writable bits; a status register keeps its mode against the reserved modes 5 to 7; a vrc of no legal
value stays; and no write changes what another register reads, but for the two registers whose writes are commands. -/
def Sys2Proof.Claims.ControlWrites : Prop :=
  ∀ (s : State) (i j : Nat) (v m : Word),
    (plainRegister i = some m → crRead (crWrite s i v) i = v &&& m) ∧
    (0x2C ≤ i → i ≤ 0x2F → crRead (crWrite s i v) i = (v.setWidth 55).signExtend 64) ∧
    crRead (crWrite s 0 v) 0 = (if 5 ≤ v.toNat % 8 then (v &&& 0x1F18) ||| (crRead s 0 &&& 7) else v &&& 0x1F1F) ∧
    crRead (crWrite s 1 v) 1 = (if 5 ≤ v.toNat % 8 then (v &&& 0x7F18) ||| (crRead s 1 &&& 7) else v &&& 0x7F1F) ∧
    crRead (crWrite s 2 v) 2 = (if 1 ≤ v.toNat % 16 ∧ v.toNat % 16 ≤ 8 then v &&& 0xF else crRead s 2) ∧
    (i ≠ 0x803 → i ≠ 0x813 → i ≠ j → crRead (crWrite s i v) j = crRead s j)

/-- R418: HALT in supervisor mode, its hart's stores performed, ends the partition with its exit code: STATE 2, the code's low half in the table, every hart of it
stopped, the host told. Before that it waits. -/
def Sys2Proof.Claims.Halt : Prop :=
  ∀ (s : State) (g : BitVec 5), (curH s).sup = true → Ready s [(g, false)] none →
    let k := flushHart s s.cur
    (storesDone k s.cur = false → exec (.halt g) s = .next (setCur k { curH k with wait := .drain })) ∧
    (storesDone k s.cur = true → ∃ t, exec (.halt g) s = .next t ∧ ptState t (curPart s) = 2 ∧ ptWord t (curPart s) 3 = ((gVal s g).setWidth 32).setWidth 64 ∧
      Halted s t (curPart s) ∧ t.out = s.out ++ [.exit (curPart s) (gVal s g)] ∧ (∀ a, homeByte t a = homeByte s a))

/-- R417: YIELD of 0 goes on; of another count, at most 65,535, its hart sleeps until that many clocks have passed and then goes on after it. -/
def Sys2Proof.Claims.Yield : Prop :=
  ∀ (s : State) (g : BitVec 5) (h : Nat),
    ((curH s).wait ≠ .yielding → Ready s [(g, false)] none → gVal s g = 0 →
      exec (.yield g) s = .next (goTo (popSrcs s [(g, false)]) ((curH s).pc + 4))) ∧
    ((curH s).wait ≠ .yielding → Ready s [(g, false)] none → gVal s g ≠ 0 → ∃ t, exec (.yield g) s = .next t ∧
      (curH t).wait = .yielding ∧ (curH t).prog = s.clock + min (gVal s g).toNat 65535 ∧ (curH t).pc = (curH s).pc ∧ .yieldExpire s.cur ∈ t.agenda) ∧
    ((curH s).wait = .yielding → exec (.yield g) s = sleeps s .yielding) ∧
    ((hartOf s h).wait = .yielding → s.clock < (hartOf s h).prog → exec (.yieldExpire h) s = .next (post s (.yieldExpire h))) ∧
    ((hartOf s h).wait = .yielding → (hartOf s h).prog ≤ s.clock →
      exec (.yieldExpire h) s = .next (setHart s h { hartOf s h with wait := .none, prog := 0, pc := (hartOf s h).pc + 4 }))

/-- R43 to R45: SHOOT sends a shootdown once its hart's stores are performed, and goes on when it is complete. -/
def Sys2Proof.Claims.ShootInstruction : Prop :=
  ∀ (s : State) (g h : BitVec 5), (curH s).sup = true → Ready s [(g, false), (h, false)] none →
    let k := flushHart s s.cur
    let e := gVal s h
    ((curH s).shoot = none → shootBad (gVal s g) e = true → exec (.shoot g h) s = traps s 0x0B 0 0) ∧
    ((curH s).shoot = none → shootBad (gVal s g) e = false → storesDone k s.cur = false →
      exec (.shoot g h) s = .next (setCur k { curH k with wait := .drain })) ∧
    ((curH s).shoot = none → shootBad (gVal s g) e = false → storesDone k s.cur = true → ∃ t, exec (.shoot g h) s = .next t ∧
      (∃ x, t.shoots = s.shoots ++ [x] ∧ x.id = s.nextId ∧ x.hart = s.cur ∧ x.part = curPart s ∧ x.kind = e.toNat % 4 ∧ x.n = e.toNat / 2 ^ 16 % 2 ^ 25 * 2 ^ 16 ∧
        x.lo = (if e.toNat % 4 = 1 then (gVal s g).toNat / 2 ^ 16 * 2 ^ 16 else (gVal s g).toNat) ∧ x.sent = false ∧ x.acked = []) ∧
      (curH t).shoot = some s.nextId ∧ (curH t).wait = .shoot ∧ (curH t).pc = (curH s).pc ∧ .shootBroadcast s.nextId ∈ t.agenda) ∧
    (∀ id, (curH s).shoot = some id → (s.shoots.any fun x => x.id == id) = true → exec (.shoot g h) s = sleeps s .shoot) ∧
    (∀ id, (curH s).shoot = some id → (s.shoots.any fun x => x.id == id) = false → ∃ t, exec (.shoot g h) s = .next t ∧
      (curH t).shoot = none ∧ (curH t).pc = (curH s).pc + 4 ∧ (curH t).wait = .none)

/-- R43: the operands SHOOT refuses: kind 3, a set reserved bit, an address not canonical where it is used, and a range that is empty or leaves its half. -/
def Sys2Proof.Claims.ShootOperands : Prop :=
  ∀ (a e : Word), shootBad a e = true ↔
    e.toNat % 4 = 3 ∨ e.toNat / 4 % 2 ^ 14 ≠ 0 ∨ 2 ^ 41 ≤ e.toNat ∨ (e.toNat % 4 ≠ 2 ∧ ¬Canonical a) ∨
      (e.toNat % 4 = 1 ∧ (e.toNat / 2 ^ 16 % 2 ^ 25 = 0 ∨ 2 ^ 54 < a.toNat / 2 ^ 16 * 2 ^ 16 % 2 ^ 54 + e.toNat / 2 ^ 16 % 2 ^ 25 * 2 ^ 16))

/-- R44: the steps of a shootdown: sent to the four stacks, at most 16 at a time; after a stack's drop no translation it names is left in the stack's caches,
in its tiles', in its harts' registers or in the contexts saved there; the stack acknowledges when no older access of the partition may use one; after four the shootdown ends. -/
def Sys2Proof.Claims.ShootSteps : Prop :=
  ∀ (s : State) (id k : Nat) (x : Shoot), shootOf s id = some x →
    ((s.shoots.filter (·.sent)).length < 16 → ∃ t, exec (.shootBroadcast id) s = .next t ∧ shootOf t id = some { x with sent := true } ∧
      t.agenda = s.agenda ++ [.shootDrop id 0, .shootDrop id 1, .shootDrop id 2, .shootDrop id 3]) ∧
    (16 ≤ (s.shoots.filter (·.sent)).length → exec (.shootBroadcast id) s = .next (post s (.shootBroadcast id))) ∧
    (∃ t, exec (.shootDrop id k) s = .next t ∧
      (∀ y ∈ (stackOf t k).llc, shootHits x (asidOf s x.part) y = false) ∧ (∀ w ∈ (stackOf t k).walk, w.1 ≠ asidOf s x.part) ∧
      (∀ i, i / 128 = k → (∀ y ∈ (tileOf t i).gtlb, shootHits x (asidOf s x.part) y.2 = false) ∧ ∀ y ∈ (tileOf t i).itlb, shootHits x (asidOf s x.part) y = false) ∧
      (∀ h y, h / 2048 = k → (hartOf t h).ustr = some y → shootHits x (asidOf s x.part) y = false) ∧
      (∀ y ∈ t.shadow, y.1 / 64 / 128 = k → (∀ z ∈ y.2.tile.gtlb, shootHits x (asidOf s x.part) z.2 = false) ∧
        ∀ z ∈ y.2.tile.itlb, shootHits x (asidOf s x.part) z = false) ∧
      shootOf t id = some { x with dropped := x.dropped ++ [(k, s.nextId)] } ∧ .shootAck id k ∈ t.agenda ∧ t.mem = s.mem) ∧
    (s.pend = [] → (∀ p ∈ s.harts, p.2.sb = []) → (∀ y ∈ s.tiles, y.2.merge = [] ∧ shootBursts x y.2 = false) → s.admitted = [] → ∃ t, exec (.shootAck id k) s = .next t ∧
      shootOf t id = some { x with acked := k :: x.acked } ∧
      t.agenda = s.agenda ++ (if 0 ∈ k :: x.acked ∧ 1 ∈ k :: x.acked ∧ 2 ∈ k :: x.acked ∧ 3 ∈ k :: x.acked then [.shootComplete id] else [])) ∧
    exec (.shootComplete id) s = .next { s with shoots := s.shoots.filter fun y => y.id != id }

/-- R47 to R50: the supervisor's answer to a translation request. RETRY and FAIL take the request off the list and its source translates again or ends with the
fault; a named request that does not exist, and an action of no meaning, are logged; FRAME ends the partition; an answer to the hart's own fault counts only while
it handles one. -/
def Sys2Proof.Claims.ServiceAnswers : Prop :=
  ∀ (s : State) (id action : Nat) (own : Bool) (r : TsReq),
    let p := curPart s
    (((partOf s p).tsReqs.find? fun q => q.id == id) = none →
      exec (.tsackRetry id false) s = .next (logTile s (curTile s) p id) ∧
      exec (.tsackFail id false) s = .next (logTile s (curTile s) p (id + 2 ^ 16)) ∧
      exec (.tsackFrame id false) s = .next (logTile s (curTile s) p (id + 2 * 2 ^ 16))) ∧
    (((partOf s p).tsReqs.find? fun q => q.id == id) = some r → r.src ≠ 4 → tilePart s r.tile = some p →
      (let k := setPart s p { partOf s p with tsReqs := (partOf s p).tsReqs.filter fun q => q.id != id }
       exec (.tsackRetry id false) s = .next (answerSource k p r false) ∧ exec (.tsackFail id false) s = .next (answerSource k p r true) ∧
       exec (.tsackFrame id false) s = .next (endPartition s p 15 0))) ∧
    ((curH s).pfault = true →
      exec (.tsackRetry id true) s = .next s ∧ exec (.tsackFail id true) s = .next s ∧ exec (.tsackFrame id true) s = .next (endPartition s p 15 0)) ∧
    ((curH s).pfault = false →
      exec (.tsackRetry id true) s = .next (logTile s (curTile s) p (2 ^ 18)) ∧ exec (.tsackFail id true) s = .next (logTile s (curTile s) p (2 ^ 18 + 2 ^ 16)) ∧
      exec (.tsackFrame id true) s = .next (logTile s (curTile s) p (2 ^ 18 + 2 * 2 ^ 16))) ∧
    exec (.tsackInvalid id action own) s = .next (logTile s (curTile s) p (id + action * 2 ^ 16))

/-- R46, R332, R411: what an answer does to its source: the stream engine or the matrix stream that stalls for the request, on the tile or in a point set aside
there, loses its stall and tries again, or keeps the fault with its kind and detail; another is left as it was. -/
def Sys2Proof.Claims.ServiceSources : Prop :=
  ∀ (s : State) (p : Nat) (r : TsReq) (fail : Bool) (e : SEng) (x : MStream),
    let m : Mark := ⟨if r.fk % 2 = 0 then 4 else 5, r.fk / 2, r.va, 0⟩
    let t := answerSource s p r fail
    let x' : MStream := if x.stall = some r.id then { x with stall := none, err := if fail then some (x.err.getD m) else x.err } else x
    (r.src = 1 → mfind (tileOf s r.tile).se r.unit = some e → e.fabric = false →
      (e.stall = some r.id → mfind (tileOf t r.tile).se r.unit = some { e with stall := none, err := if fail then some m else e.err } ∧
        t.agenda = s.agenda ++ [.streamEngineAccess r.tile r.unit]) ∧
      (e.stall ≠ some r.id → mfind (tileOf t r.tile).se r.unit = some e ∧ t.agenda = s.agenda)) ∧
    (r.src = 2 → mfind (tileOf s r.tile).ms r.unit = some x →
      mfind (tileOf t r.tile).ms r.unit = some x' ∧ t.agenda = s.agenda ++ [.matrixOpComplete r.tile r.unit]) ∧
    (∀ d a, r.src = 2 → mfind (tileOf s r.tile).aside d = some a → mfind a.ms r.unit = some x →
      ((mfind (tileOf t r.tile).aside d).bind fun b => mfind b.ms r.unit) = some x')

/-- R423, R157, R47: nend ends a command node that has not begun, after its notice; a watermark register takes its writable bits and the waiting loads of its
hart are looked at again; a request record is written where the queue has room. -/
def Sys2Proof.Claims.NodeEndAndWatermark : Prop :=
  ∀ (s : State) (a v : Word) (k i : Nat) (n : Node),
    let addr := ((a.setWidth 55).signExtend 64).toNat
    (findNode s (curPart s) addr (fun _ => true) = none → exec (.nendWrite a) s = .next (logTile s (curTile s) (curPart s) addr)) ∧
    (findNode s (curPart s) addr (fun _ => true) = some k → nodeAt s k = some n → n.ended = false → n.isCmd = true → n.st ≠ .running →
      exec (.nendWrite a) s = .next (completeNode (noticeRecord s (curPart s) 3 0 (BitVec.ofNat 64 addr) (curTile s)) k true)) ∧
    (0x28 ≤ i → i ≤ 0x2B → ∃ t, exec (.watermarkWrite i v) s = .next t ∧ mgetD (curH t).wm (i - 0x28) 0 = v &&& 0x077FFFFFFFFFFFF9 ∧
      { curH t with wm := (curH s).wm } = curH s ∧ t.agenda = s.agenda ++ [.watermarkRelease s.cur]) ∧
    (0x2C ≤ i → i ≤ 0x2F → ∃ t, exec (.watermarkWrite i v) s = .next t ∧ mgetD (curH t).wmb (i - 0x2C) 0 = v &&& 0x007FFFFFFFFFFFFF ∧
      { curH t with wmb := (curH s).wmb } = curH s ∧ t.agenda = s.agenda ++ [.watermarkRelease s.cur])

/-- R12, R27, R36, R47: the answer of a walk is cached by the tile, which then has it at hand; the translation service writes the oldest request not yet written
where the queue has room and its partition owns the place (R12), and goes on while more wait. -/
def Sys2Proof.Claims.TranslationSteps : Prop :=
  ∀ (s : State) (tile p : Nat) (va : Word) (k : AccKind) (sup : Bool) (u : State) (x : Xlat) (c sb : Nat),
    (xlate s tile p va k sup = .ok u x → exec (.walkComplete tile p va k sup) s = .next u) ∧
    (xlate s tile p va k sup = .fault u c sb → exec (.walkComplete tile p va k sup) s = .next u) ∧
    ((queueOf (partOf s p).tsqb = none ∨ ((partOf s p).tsReqs.all fun r => r.written) = true) → exec (.tsqRecordWrite p) s = .next s) ∧
    (∀ b n r, queueOf (partOf s p).tsqb = some (b, n) → ((partOf s p).tsReqs.find? fun r => !r.written) = some r →
      (n ≤ (partOf s p).tsProduced - (partOf s p).tscons.toNat % 2 ^ 63 → exec (.tsqRecordWrite p) s = .next s) ∧
      ((partOf s p).tsProduced - (partOf s p).tscons.toNat % 2 ^ 63 < n → ∃ t, exec (.tsqRecordWrite p) s = .next t ∧
        (partOf t p).tsProduced = (partOf s p).tsProduced + 1 ∧ (∀ q ∈ (partOf t p).tsReqs, q.id = r.id → q.written = true) ∧
        (regionOwner s (b + 128 + (partOf s p).tsProduced % n * 32) = some p → ∀ i < 32, homeByte t (b + 128 + (partOf s p).tsProduced % n * 32 + i) = (r.bytes (partOf s p).tsProduced).getD i 0) ∧
        (regionOwner s b = some p → ∀ i < 8, homeByte t (b + i) = (leBytes 8 ((partOf s p).tsProduced + 1)).getD i 0) ∧
        (∀ a, (a < b ∨ b + 8 ≤ a) → (a < b + 128 + (partOf s p).tsProduced % n * 32 ∨ b + 128 + (partOf s p).tsProduced % n * 32 + 32 ≤ a) →
          homeByte t a = homeByte s a)))


namespace Sys2Proof.Claims
open Sys2Proof Sys2Proof.Machine

/-! ## Scalar accesses to memory -/

/-- The translation of the n bytes at va that the executing hart accesses: the state after it and the pieces, or a fault. -/
abbrev span (s : State) (va : Word) (n : Nat) (k : AccKind) (io : IoRule) : RangeRes := rangeOf s (curTile s) (curPart s) va n k (curH s).sup io

/-- The order of a scalar access made in state w (R135, R275, R276). -/
def order (w : State) (acq rel strict : Bool) : AccOrd :=
  { ins := w.nextId, sup := (curH w).sup, vec := false, acq, rel, strict, inOrder := false, apart := false }

/-- Instruction i goes on to its next word and leaves every register of its hart with the value it has in w but for register d, and every byte of memory. -/
def GoesOn (s w t : State) : Prop :=
  (curH t).pc = (curH s).pc + 4 ∧ (curH t).wait = .none ∧ (∀ k, mgetD (curH t).g k 0 = mgetD (curH w).g k 0) ∧ (∀ a, peek t a = peek w a)

/-- A load of 2^z bytes at va into d: from the L1 at once, or as an access in flight, with d empty until its data return; a fault of its translation is
taken at the instruction. -/
def LoadRule (i : Instr) (s : State) (srcs : List (BitVec 5 × Bool)) (d : BitVec 5) (z : BitVec 2) (uns : Bool) (va : Word) (strict acq : Bool) : Prop :=
  (∀ w c sb a, span s va (2 ^ z.toNat) .read .scalar = .fault w c sb a → exec i s = .next (takeTrap w c sb a (curH s).pc)) ∧
  (∀ w xs, span s va (2 ^ z.toNat) .read .scalar = .ok w xs →
    let p : Pend :=
      { id := w.nextId, hart := w.cur, op := none, pieces := xs, va, dest := .g (gkey (curH w).sup d) (2 ^ z.toNat) !uns, chk := false
        ord := order w acq false (strict || xs.any (·.io)) }
    (l1Holds w xs = true → pendHeld w p = false →
      (l1Bytes w xs = none → exec i s = .next (takeTrap w 0x0A 0 va (curH s).pc)) ∧
      (∀ bs, l1Bytes w xs = some bs →
        let v := leNat (patch (forwarded w w.cur w.nextId xs) bs)
        exec i s = .next (goTo (setG (popSrcs w srcs) d (if uns then BitVec.ofNat 64 v else sext (8 * 2 ^ z.toNat) v)) ((curH s).pc + 4)))) ∧
    ((l1Holds w xs = false ∨ pendHeld w p = true) → ∃ t, exec i s = .next t ∧ GoesOn s w t ∧ t.pend = w.pend ++ [p] ∧
      (d ≠ 0 → gkey (curH w).sup d ∈ (curH t).gEmpty) ∧ t.agenda = w.agenda ++ [pendEvent w p]))

/-- A store of the low 2^z bytes of r at va: an entry at the end of the hart's store buffer, to be sent; memory is as before until then. -/
def StoreRule (i : Instr) (s : State) (r : BitVec 5) (z : BitVec 2) (va : Word) (strict rel : Bool) : Prop :=
  (∀ w c sb a, span s va (2 ^ z.toNat) .write .scalar = .fault w c sb a → exec i s = .next (takeTrap w c sb a (curH s).pc)) ∧
  (∀ w xs, span s va (2 ^ z.toNat) .write .scalar = .ok w xs → ∃ t, exec i s = .next t ∧ GoesOn s w t ∧
    (curH t).sb = (curH w).sb ++ [{
      id := w.nextId, op := .write (leBytes (2 ^ z.toNat) ((gVal w r).toNat % 2 ^ (8 * 2 ^ z.toNat))), pieces := xs, va
      ord := order w false (rel || xs.any fun x => x.io && isCounterSpace x.pk) (strict || xs.any (·.io)), full := false, performed := false }] ∧
    t.agenda = w.agenda ++ [.storeSend w.cur] ∧ t.mem = w.mem ∧ t.pend = w.pend)

/-- The atomics, with their function numbers in R276, and the reductions. -/
def atomics : List ((BitVec 5 → BitVec 5 → BitVec 5 → Bool → BitVec 2 → BitVec 3 → Bool → Instr) × Nat) :=
  [(.amoSwap, 0), (.amoCas, 1), (.amoAdd, 2), (.amoAnd, 3), (.amoOr, 4), (.amoXor, 5), (.amoMin, 6), (.amoMax, 7), (.amoMinu, 8), (.amoMaxu, 9), (.amoFadd, 10)]
def reductions : List ((BitVec 5 → BitVec 5 → Bool → BitVec 2 → BitVec 3 → Bool → Instr) × Nat) :=
  [(.redAdd, 2), (.redAnd, 3), (.redOr, 4), (.redXor, 5), (.redMin, 6), (.redMax, 7), (.redMinu, 8), (.redMaxu, 9), (.redFadd, 10)]

/-- Bytes of a word or a double word. -/
def wide (z : Bool) : Nat := if z then 8 else 4

end Sys2Proof.Claims

/-- R273, R275, R175: LD at ra plus its offset, and the LDST.O load at ra, which traps where it is not aligned and may acquire. -/
def Sys2Proof.Claims.Loads : Prop :=
  ∀ (s : State) (d a : BitVec 5) (z e : BitVec 2) (u t : Bool) (o : BitVec 12) (c : BitVec 3), Ready s [(a, t)] (some d) →
    LoadRule (.ld d a z u t o) s [(a, t)] d z u (gVal s a + o.signExtend 64) false false ∧
    ((gVal s a).toNat % 2 ^ z.toNat ≠ 0 → exec (.ldo d a z u e c t) s = traps s 3 0 (gVal s a)) ∧
    ((gVal s a).toNat % 2 ^ z.toNat = 0 → LoadRule (.ldo d a z u e c t) s [(a, t)] d z u (gVal s a) true (e == 1))

/-- R273, R275, R137: ST at ra plus its offset, and the LDST.O store at ra, which traps where it is not aligned and may release. -/
def Sys2Proof.Claims.Stores : Prop :=
  ∀ (s : State) (r a : BitVec 5) (z e : BitVec 2) (t : Bool) (o : BitVec 12) (c : BitVec 3), Ready s [(a, t), (r, t)] none →
    StoreRule (.st r a z t o) s r z (gVal s a + o.signExtend 64) false false ∧
    ((gVal s a).toNat % 2 ^ z.toNat ≠ 0 → exec (.sto r a z e c t) s = traps s 3 0 (gVal s a)) ∧
    ((gVal s a).toNat % 2 ^ z.toNat = 0 → StoreRule (.sto r a z e c t) s r z (gVal s a) true (e == 2))

/-- R276: an atomic at ra: one read-modify-write in flight with rb, and rd as CAS's comparand, rd empty until the old value is there; a place that is not
aligned traps. -/
def Sys2Proof.Claims.Atomics : Prop :=
  ∀ q ∈ atomics, ∀ (s : State) (d a b : BitVec 5) (z : Bool) (e : BitVec 2) (c : BitVec 3) (t : Bool),
    let i := q.1 d a b z e c t
    let srcs := if q.2 = 1 then [(a, t), (b, t), (d, false)] else [(a, t), (b, t)]
    Ready s srcs (some d) →
      ((gVal s a).toNat % wide z ≠ 0 → exec i s = traps s 3 0 (gVal s a)) ∧
      ((gVal s a).toNat % wide z = 0 →
        (∀ w k sb x, span s (gVal s a) (wide z) .amo .none = .fault w k sb x → exec i s = .next (takeTrap w k sb x (curH s).pc)) ∧
        (∀ w xs, span s (gVal s a) (wide z) .amo .none = .ok w xs → ∃ u, exec i s = .next u ∧ GoesOn s w u ∧ (d ≠ 0 → gkey (curH w).sup d ∈ (curH u).gEmpty) ∧
          u.pend = w.pend ++ [{
            id := w.nextId, hart := w.cur, op := some (.rmw q.2 z (gVal w b) (gVal w d)), pieces := xs, va := gVal s a
            dest := .g (gkey (curH w).sup d) (wide z) (!z && q.2 != 10), chk := false, ord := order w (e.toNat % 2 == 1) (2 ≤ e.toNat) false }] ∧
          u.mem = w.mem))

/-- R276: what each atomic function leaves of the old value x and the operand y: on eight bytes, and alike on four. -/
def Sys2Proof.Claims.AtomicFunctions : Prop :=
  (∀ (x y c : BitVec 64),
    amoNew 0 true x.toNat y.toNat c.toNat = some y.toNat ∧ amoNew 1 true x.toNat y.toNat c.toNat = (if x = c then some y.toNat else none) ∧
    amoNew 2 true x.toNat y.toNat c.toNat = some (x + y).toNat ∧ amoNew 3 true x.toNat y.toNat c.toNat = some (x &&& y).toNat ∧
    amoNew 4 true x.toNat y.toNat c.toNat = some (x ||| y).toNat ∧ amoNew 5 true x.toNat y.toNat c.toNat = some (x ^^^ y).toNat ∧
    amoNew 6 true x.toNat y.toNat c.toNat = some (if x.toInt ≤ y.toInt then x else y).toNat ∧
    amoNew 7 true x.toNat y.toNat c.toNat = some (if x.toInt ≤ y.toInt then y else x).toNat ∧
    amoNew 8 true x.toNat y.toNat c.toNat = some (if x ≤ y then x else y).toNat ∧ amoNew 9 true x.toNat y.toNat c.toNat = some (if x ≤ y then y else x).toNat) ∧
  (∀ (x y c : BitVec 32),
    amoNew 0 false x.toNat y.toNat c.toNat = some y.toNat ∧ amoNew 1 false x.toNat y.toNat c.toNat = (if x = c then some y.toNat else none) ∧
    amoNew 2 false x.toNat y.toNat c.toNat = some (x + y).toNat ∧ amoNew 3 false x.toNat y.toNat c.toNat = some (x &&& y).toNat ∧
    amoNew 4 false x.toNat y.toNat c.toNat = some (x ||| y).toNat ∧ amoNew 5 false x.toNat y.toNat c.toNat = some (x ^^^ y).toNat ∧
    amoNew 6 false x.toNat y.toNat c.toNat = some (if x.toInt ≤ y.toInt then x else y).toNat ∧
    amoNew 7 false x.toNat y.toNat c.toNat = some (if x.toInt ≤ y.toInt then y else x).toNat ∧
    amoNew 8 false x.toNat y.toNat c.toNat = some (if x ≤ y then x else y).toNat ∧ amoNew 9 false x.toNat y.toNat c.toNat = some (if x ≤ y then y else x).toNat) ∧
  (∀ (z : Bool) (x y c : Nat), amoNew 10 z x y c = some ((fmtOf z).put 0 false (fpAdd 0 ((fmtOf z).read x) ((fmtOf z).read y)).1).1)

/-- R277, R144: a reduction at ra: one that is ordered, or whose place lies on its own stack, is an entry of the store buffer; a relaxed one to a place
elsewhere enters its tile's merge buffer, where it joins an entry for its granule, function and size; with no entry free it waits until one that is on its way
has left; a place that is not aligned traps. -/
def Sys2Proof.Claims.Reductions : Prop :=
  ∀ q ∈ reductions, ∀ (s : State) (b a : BitVec 5) (z : Bool) (e : BitVec 2) (c : BitVec 3) (t : Bool), Ready s [(a, t), (b, t)] none →
    let i := q.1 b a z e c t
    ((gVal s a).toNat % wide z ≠ 0 → exec i s = traps s 3 0 (gVal s a)) ∧
    ((gVal s a).toNat % wide z = 0 →
      (∀ w k sb x, span s (gVal s a) (wide z) .amo .none = .fault w k sb x → exec i s = .next (takeTrap w k sb x (curH s).pc)) ∧
      (∀ w x xs, span s (gVal s a) (wide z) .amo .none = .ok w (x :: xs) →
        let far := placeStack w (curPart w) x != curTile w / 128
        ((e ≠ 0 ∨ far = false) → ∃ u, exec i s = .next u ∧ GoesOn s w u ∧
          (curH u).sb = (curH w).sb ++ [{
            id := w.nextId, op := .rmw q.2 z (gVal w b) 0, pieces := x :: xs, va := gVal s a, ord := order w false (e != 0) false, full := false, performed := false }] ∧
          u.agenda = w.agenda ++ [.storeSend w.cur] ∧ u.mem = w.mem) ∧
        (e = 0 → far = true → (w.pend.any fun p => p.hart == w.cur && !p.ord.apart) = false → ((unsent (curH w)).any fun y => overlap y.pieces (x :: xs) || (y.isRmw && !y.ord.apart)) = false →
          (∀ k n, mergeHit (tileOf w (curTile w)) (curPart w) (x.pk / 128) q.2 z = some (k, n) → ∃ u m, exec i s = .next u ∧ GoesOn s w u ∧
            mfind (tileOf u (curTile w)).merge k = some m ∧ (∃ c ∈ m.harts, c.hart = w.cur ∧ c.turn = w.nextId ∧ w.nextId ≤ c.latest) ∧
            mfind m.vals (x.pk % 128) = some (match mfind n.vals (x.pk % 128) with
              | some old => BitVec.ofNat 64 ((amoNew q.2 z old.toNat ((gVal w b).toNat % 2 ^ (8 * x.n)) 0).getD 0)
              | none => BitVec.ofNat 64 ((gVal w b).toNat % 2 ^ (8 * x.n))) ∧ u.mem = w.mem) ∧
          (mergeHit (tileOf w (curTile w)) (curPart w) (x.pk / 128) q.2 z = none → ∀ k, mergeFree (tileOf w (curTile w)) = some k → ∃ u m, exec i s = .next u ∧
            GoesOn s w u ∧ mfind (tileOf u (curTile w)).merge k = some m ∧ m.harts = [⟨w.cur, w.nextId, w.nextId, false, w.nextId⟩] ∧ m.sup = (curH w).sup ∧ m.f = q.2 ∧ m.dword = z ∧ m.gk = x.pk / 128 ∧
            m.vals = [(x.pk % 128, BitVec.ofNat 64 ((gVal w b).toNat % 2 ^ (8 * x.n)))] ∧ .mergeFlushIdle (curTile w) k ∈ u.agenda ∧ u.mem = w.mem) ∧
          (mergeHit (tileOf w (curTile w)) (curPart w) (x.pk / 128) q.2 z = none → mergeFree (tileOf w (curTile w)) = none →
            (∃ n ∈ (tileOf w (curTile w)).merge, n.2.touched ≤ w.clock) → ∃ u, exec i s = .next u ∧ (curH u).pc = (curH s).pc ∧ (curH u).wait = .slot ∧
              (∃ n ∈ (tileOf u (curTile w)).merge, n.2.going = true) ∧
              (∀ n, (mfind (tileOf u (curTile w)).merge n).map (·.vals) = (mfind (tileOf w (curTile w)).merge n).map (·.vals)) ∧ u.mem = w.mem))))

/-- Where the value of a finished access goes (R175, R351, R459): a g register becomes full with it, and loses its fault mark; a write stream bound to the
register takes it as its next position; a fault marks the register instead, whose value stays; memory is as before. -/
def Sys2Proof.Claims.Delivery : Prop :=
  ∀ (s : State) (p : Pend) (bs : List Byte) (m : Mark) (key n : Nat) (sg : Bool), p.dest = .g key n sg →
    let v := if sg then sext (8 * n) (leNat (bs.take n)) else BitVec.ofNat 64 (leNat (bs.take n))
    let bound := if 32 ≤ key then none else (tileOf s (p.hart / 16)).se.find? fun (_, e) =>
      e.bound && !e.fabric && e.hart == p.hart && !e.vfile && e.reg == key && e.write
    let t := deliver s p bs
    let f := deliverMark s p m
    key ∉ (hartOf t p.hart).gEmpty ∧ t.mem = s.mem ∧ t.copies = s.copies ∧
    (key ≠ 0 → bound = none → mgetD (hartOf t p.hart).g key 0 = v ∧ mfind (hartOf t p.hart).gFault key = none) ∧
    (∀ q e, key ≠ 0 → bound = some (q, e) → mfind (tileOf t (p.hart / 16)).se q = some { e with used := e.used + 1, data := e.data ++ [v], mask := e.mask ++ [true] }) ∧
    (∀ k, k ≠ key → mgetD (hartOf t p.hart).g k 0 = mgetD (hartOf s p.hart).g k 0) ∧
    (key ≠ 0 → key ∉ (hartOf f p.hart).gEmpty ∧ mfind (hartOf f p.hart).gFault key = some m) ∧ (hartOf f p.hart).g = (hartOf s p.hart).g ∧
    (key = 0 → f = s)

/-- R67, R106, R175, R192: an access in flight is performed once what its hart's order sets before it is done: its bytes go to its destination, or its fault does;
until then, and while its place answers later, it is tried again, unless it stands in a queue there (R192). -/
def Sys2Proof.Claims.AccessesInFlight : Prop :=
  ∀ i ∈ [Instr.loadDataReturn, Instr.homeServedAccess, Instr.homeAtomic], ∀ (s : State) (id : Nat) (p : Pend), id < hartMark →
    (s.pend.find? fun q => q.id == id) = some p → (hartOf s p.hart).st ≠ .free →
      (pendHeld s p = true →
        exec (i id) s = .next (retry (flushMerge s (p.hart / 16) fun e =>
          (e.from p.hart && p.pieces.any fun x => x.pk / 128 == e.gk) || (p.ord.rel && e.before p.hart id)) (pendEvent s p, id + 1))) ∧
      (pendHeld s p = false → p.chk = false →
        (∀ u bs, perform s p = .ok u bs → exec (i id) s = .next (deliver (dropPend u id) p bs)) ∧
        (∀ u c sb, perform s p = .err u c sb → exec (i id) s = .next (deliverMark (dropPend u id) p ⟨c, sb, p.va, 0⟩)) ∧
        (∀ u, perform s p = .wait u → exec (i id) s = .next (retry u (pendEvent s p, id + 1)))) ∧
      (pendHeld s p = false → p.chk = true →
        (∀ u, watermarkOk s p.hart (p.hart / 16) ((tilePart s (p.hart / 16)).getD 0) p.va ((p.pieces.map (·.n)).sum) p.ord.sup (some (pendEvent s p, id + 1))
            = (u, false) →
          exec (i id) s = .next (retry u (pendEvent s p, id + 1))) ∧
        (∀ u w bs, watermarkOk s p.hart (p.hart / 16) ((tilePart s (p.hart / 16)).getD 0) p.va ((p.pieces.map (·.n)).sum) p.ord.sup (some (pendEvent s p, id + 1))
            = (u, true) → perform u p = .ok w bs →
          exec (i id) s = .next (deliver (dropPend w id) p bs)))

/-- R137, R107: what a write of the bytes bs at a piece leaves: at home, those bytes in its place and every other byte as it was; in an agent's copy, the same
within the granule, with the bytes marked dirty. -/
def Sys2Proof.Claims.WrittenBytes : Prop :=
  ∀ (s : State) (w : Who) (x : Piece) (bs : List Byte) (full : Bool), x.pk % 128 + bs.length ≤ 128 →
    (∀ a, homeByte (writeAt s w x none bs full) a = if x.pk ≤ a ∧ a < x.pk + bs.length then bs.getD (a - x.pk) 0 else homeByte s a) ∧
    (∀ a c, copyOf s a (x.pk / 128) = some c → writesThrough s w x = false →
      (∀ b, homeByte (writeAt s w x (some a) bs full) b = homeByte s b) ∧
      ∃ e, copyOf (writeAt s w x (some a) bs full) a (x.pk / 128) = some e ∧ e.st = c.st ∧ ∀ i < 128,
        granByte e.data i = (if x.pk % 128 ≤ i ∧ i < x.pk % 128 + bs.length then bs.getD (i - x.pk % 128) 0 else granByte c.data i) ∧
        maskBit e.mask i = (decide (x.pk % 128 ≤ i ∧ i < x.pk % 128 + bs.length) || maskBit c.mask i)) ∧
    (∀ a c, copyOf s a (x.pk / 128) = some c → writesThrough s w x = true →
      ∀ b, homeByte (writeAt s w x (some a) bs full) b = if x.pk ≤ b ∧ b < x.pk + bs.length then bs.getD (b - x.pk) 0 else homeByte s b)

/-- R70, R102, R106, R107: what a read, a write and a read-modify-write answer where they find their granule: the bytes that stand there, poison as an error; the
write's bytes put there; the function of the old bytes put there, and the old bytes answered; a write that does not go
through the L1 takes the tile's copies of the line there away (R70). -/
def Sys2Proof.Claims.AccessesAtTheirPlace : Prop :=
  ∀ (s u : State) (w : Who) (x : Piece) (bs : List Byte) (f : List Byte → Option (List Byte)) (a : Nat) (c : Copy),
    (reach s w x .read = .home u → accRead s w x = if u.psn.contains (x.pk / 128) then .err u 0x0A 0 else .ok u ((List.range x.n).map fun i => homeByte u (x.pk + i))) ∧
    (reach s w x .read = .copy u a → copyOf u a (x.pk / 128) = some c → c.psn = true → accRead s w x = .err u 0x0A 0) ∧
    (reach s w x .read = .copy u a → copyOf u a (x.pk / 128) = some c → c.psn = false → w.l1 = false →
      accRead s w x = .ok u ((List.range x.n).map fun i => granByte c.data (x.pk % 128 + i))) ∧
    (reach s w x .write = .home u → accWrite s w x bs false = .ok (writeAt u w x none bs false) []) ∧
    (reach s w x .write = .copy u a → accWrite s w x bs false = .ok (writeAt (if w.l1 then u else l1Drop u w a x) w x (some a) bs false) []) ∧
    (w.l1 = false → reach s w x .amo = .home u → u.psn.contains (x.pk / 128) = false →
      accRmw s w x f = match f (homeBytes u x.pk x.n) with
        | some new => .ok (writeAt u w x none new false) (homeBytes u x.pk x.n)
        | none => .ok u (homeBytes u x.pk x.n)) ∧
    (w.l1 = false → reach s w x .amo = .copy u a → copyOf u a (x.pk / 128) = some c → c.psn = false →
      accRmw s w x f = match f (copyBytes c x) with
        | some new => .ok (writeAt (l1Drop u w a x) w x (some a) new false) (copyBytes c x)
        | none => .ok u (copyBytes c x))

/-- R137: the store buffer sends its first entry that may be performed: a store of one piece is written at its place, and retires on its acknowledgement; one that
its place refuses is discarded with a fault record; one that must wait is tried again; an empty buffer sends nothing. -/
def Sys2Proof.Claims.StoreBuffer : Prop :=
  ∀ (s : State) (h id : Nat) (e : SbEntry) (es : List SbEntry) (bs : List Byte) (x : Piece),
    (unsent (hartOf s h) = [] → exec (.storeSend h) s = .next s) ∧
    (unsent (hartOf s h) = e :: es → entryHeld s h e = false → parked s h e = false → e.away = false → e.op = .write bs → e.pieces = [x] →
      x.io = false →
      let w := { whoHart s h (!e.ord.vec) with ev := some (.storeSend h, e.id + 1) }
      let sent (u : State) (e : SbEntry) : State :=
        let k := post (setEntry u h { e with op := .write (bs.drop x.n), pieces := [], performed := true }) (.storeAck h e.id)
        if (unsent (hartOf k h)).any fun y => !y.away && !parked k h y then postOnce k (.storeSend h) else k
      (∀ u, accWrite s w x (bs.take x.n) e.full = .ok u [] → exec (.storeSend h) s = .next (sent u e)) ∧
      (e.refused = false → ∀ u c sb, accWrite s w x (bs.take x.n) e.full = .err u c sb →
        exec (.storeSend h) s = .next (sent (refuseEntry u h e x c) { e with refused := true })) ∧
      (es = [] → ∀ u, accWrite s w x (bs.take x.n) e.full = .wait u → parked (setEntry u h e) h e = false →
        ∃ t, exec (.storeSend h) s = .next t ∧ .storeSend h ∈ t.agenda)) ∧
    (∃ t, exec (.storeAck h id) s = .next t ∧ (hartOf t h).sb = (hartOf s h).sb.filter (fun y => y.id != id) ∧
      { hartOf t h with sb := (hartOf s h).sb } = hartOf s h ∧ { t with harts := s.harts } = s ∧ ∀ k, k ≠ h → hartOf t k = hartOf s k)

/-- R135, R144 to R146: an entry of a merge buffer waits 4,096 clocks, unless it is on its way; then, with no older entry of its granule before it and none that
program order puts before it, which it sets on their way, it sends word after word to their places, and is free when all answers are in. -/
def Sys2Proof.Claims.MergeBuffer : Prop :=
  ∀ (s : State) (t i : Nat) (e : MergeE), 
    (mfind (tileOf s t).merge i = none → exec (.mergeFlushIdle t i) s = .next s) ∧
    (mfind (tileOf s t).merge i = some e →
      (e.going = false → s.clock < e.touched + 4096 → exec (.mergeFlushIdle t i) s = .next (post s (.mergeFlushIdle t i))) ∧
      ((e.going = true ∨ e.touched + 4096 ≤ s.clock) → ((tileOf s t).merge.any fun y => (y.2.gk == e.gk && decide (y.2.id < e.id)) || e.behind y.2) = true →
        exec (.mergeFlushIdle t i) s
          = .next (post (flushMerge s t fun y => (y.gk == e.gk && decide (y.id < e.id)) || e.behind y) (.mergeFlushIdle t i))) ∧
      ((e.going = true ∨ e.touched + 4096 ≤ s.clock) → ((tileOf s t).merge.any fun y => (y.2.gk == e.gk && decide (y.2.id < e.id)) || e.behind y.2) = false →
        (e.vals = [] → e.due = 0 → ∃ u, exec (.mergeFlushIdle t i) s = .next u ∧ mfind (tileOf u t).merge i = none ∧ u.mem = s.mem) ∧
        (∀ o v r, e.vals = (o, v) :: r →
          let x : Piece := ⟨e.gk * 128 + o, if e.dword then 8 else 4, e.vcid, e.va + BitVec.ofNat 64 o, false⟩
          let k := useCircuit s t (5 * 1024 + placeDie s e.part x)
          (routed k t e.part (e.f - 2) x = false → ∀ u old, accRmw k { tile := t, part := e.part, unit := 100, l1 := false, ev := some (.mergeFlushIdle t i, e.id + 1) } x
              (amoBytes e.f e.dword v 0) = .ok u old →
            exec (.mergeFlushIdle t i) s = .next (if r = [] ∧ e.due = 0 then setTile u t { tileOf u t with merge := mdel (tileOf u t).merge i }
              else post (setTile u t { tileOf u t with merge := mput (tileOf u t).merge i { e with going := true, vals := r } }) (.mergeFlushIdle t i))) ∧
          (routed k t e.part (e.f - 2) x = true → ∃ u m, exec (.mergeFlushIdle t i) s = .next u ∧ mfind (tileOf u t).merge i = some m ∧ m.vals = r ∧ m.due = e.due + 1))))


namespace Sys2Proof.Claims
open Sys2Proof Sys2Proof.Machine

/-! ## Fences, waiting, barriers and cache maintenance -/

/-- The instruction at pc ends here in state w: the hart goes on after it. -/
def ends (s w : State) : Answer := .next (goTo w ((curH s).pc + 4))

/-- The hart's monitor watches granule n and has not been notified. -/
def watching (w : State) (n : Nat) : State := setCur w { curH w with monitor := some ⟨n, false⟩ }

/-- The read of a wait as an access of its hart: an acquire, and strict for an IO word (R135). -/
def waitRead (w : State) (x : Piece) (va : Word) : Pend :=
  { id := w.nextId, hart := w.cur, op := none, pieces := [x], va, dest := .buf 0, chk := false, ord := order w true false x.io }

/-- Nothing of the hart's own stands before a wait on the word x at va (R135, R280). -/
abbrev waitClear (w : State) (x : Piece) (va : Word) : Prop :=
  pendHeld w (waitRead w x va) = false ∧ ((unsent (curH w)).any fun e => overlap e.pieces [x]) = false

/-- The read of the word a wait looks at. -/
def wordRead (w : State) (x : Piece) : Acc := if x.io then ioLoad w (curPart w) x else accRead w (whoInstr w) x

/-- i waits on the word x at va, translated in state w: asleep while its armed monitor is not notified; else it arms the monitor, and reads; on a value that
passes it ends as done says, on another it sleeps. -/
def WaitRule (i : Instr) (s w : State) (x : Piece) (va : Word) (passes : Nat → Bool) (done : State → Nat → Answer) : Prop :=
  ((curH w).monitor = some ⟨monitorGran x, false⟩ → (curH w).wait = .monitor → exec i s = .next (setCur w { curH w with wait := .monitor })) ∧
  (¬((curH w).monitor = some ⟨monitorGran x, false⟩ ∧ (curH w).wait = .monitor) →
    let k := watching w (monitorGran x)
    (waitClear k x va → ∀ u bs, wordRead k x = .ok u bs →
      (passes (leNat bs) = true → exec i s = done u (leNat bs)) ∧
      (passes (leNat bs) = false → exec i s = .next (setCur u { curH u with wait := .monitor }))) ∧
    (waitClear k x va → ∀ u, wordRead k x = .wait u → exec i s = .next (setCur u { curH u with wait := .data })) ∧
    (waitClear k x va → ∀ u c sb, wordRead k x = .err u c sb → exec i s = .next (takeTrap u c sb va (curH s).pc)) ∧
    (¬waitClear k x va → ∃ t, exec i s = .next t ∧ (curH t).wait = .data ∧ (curH t).pc = (curH k).pc ∧ ∀ a, peek t a = peek w a))

/-- A range instruction's next granule, the i-th of [va, va + len), or the one of va. -/
def granCount (va : Word) (len : Nat) : Nat := if len = 0 then 1 else (va.toNat + len - 1) / 128 - va.toNat / 128 + 1
def granAddr (va : Word) (i : Nat) : Word := if i = 0 then va else BitVec.ofNat 64 ((va.toNat / 128 + i) * 128)
def treated (s : State) (n : Nat) : State := setCur s { curH s with prog := n }

/-- i treats the granules of a range one after another, each translated first for reading, and with rw for writing too, and ends after the last (R283, R285). A
fault of the translation names the first address of its page. -/
def TreatRule (i : Instr) (s : State) (srcs : List (BitVec 5 × Bool)) (va : Word) (len : Nat) (rw : Bool) (treat : State → Nat → Treat) : Prop :=
  let j := (curH s).prog
  let place := rangeWith (treatXlate rw) s (curTile s) (curPart s) (granAddr va j) 1 .read .none
  j < granCount va len →
    (∀ w c sb a, place = .fault w c sb a → exec i s = .next (takeTrap (treated w 0) c sb (if canonical a then pageFirst w a else a) (curH s).pc)) ∧
    (∀ w x xs, place = .ok w (x :: xs) →
      (∀ u, treat w (x.pk / 128) = .done u → exec i s = if granCount va len ≤ j + 1 then ends s (treated (popSrcs u srcs) 0)
        else .next (setCur (treated u (j + 1)) { curH (treated u (j + 1)) with wait := .data })) ∧
      (∀ u, treat w (x.pk / 128) = .wait u → exec i s = .next (setCur u { curH u with wait := .data })) ∧
      (∀ u c sb, treat w (x.pk / 128) = .stop u c sb → exec i s = .next (takeTrap (treated u 0) c sb (granAddr va j) (curH s).pc)))

end Sys2Proof.Claims

/-- R147, R278, R167: FENCE of no accesses goes on; another waits for its prior set, having sent its merged reductions on when stores are in it; at domain, pod and system
scope with stores or engine work it then begins a join, and goes on when every circuit has answered. -/
def Sys2Proof.Claims.Fence : Prop :=
  ∀ (s : State) (c : BitVec 3) (k : BitVec 4) (e : Bool), 
    let stores := k.getLsbD 2
    let w := if stores then flushHart s s.cur else s
    let joins := 4 ≤ c.toNat ∧ (stores = true ∨ e = true)
    (k = 0 → exec (.fence c k e) s = ends s s) ∧
    (k ≠ 0 → (curH s).join = none →
      (fenceReady w s.cur k e = false → exec (.fence c k e) s = .next (setCur w { curH w with wait := .fence })) ∧
      (fenceReady w s.cur k e = true → ¬joins → exec (.fence c k e) s = ends s w) ∧
      (fenceReady w s.cur k e = true → joins → ∃ t, exec (.fence c k e) s = .next t ∧
        (curH t).join = some { id := s.nextId, pod := c.toNat == 5, sent := false, due := 0, circ := [] } ∧ (curH t).wait = .fence ∧
        (curH t).pc = (curH s).pc ∧ t.agenda = s.agenda ++ [.joinMarkers s.cur])) ∧
    (∀ j, k ≠ 0 → (curH s).join = some j →
      ((j.sent = false ∨ j.due ≠ 0) → exec (.fence c k e) s = sleeps s .fence) ∧
      (j.sent = true → j.due = 0 → ∃ t, exec (.fence c k e) s = .next t ∧ (curH t).join = none ∧ (curH t).pc = (curH s).pc + 4 ∧ (curH t).wait = .none ∧
        (tileOf t (curTile s)).usedD = (tileOf s (curTile s)).usedD.filter (fun x => !j.circ.contains x) ∧
        (tileOf t (curTile s)).usedP = (if j.pod then (tileOf s (curTile s)).usedP.filter (fun x => !j.circ.contains x) else (tileOf s (curTile s)).usedP)))

/-- R147: what the prior set of a FENCE asks: loads that have their values, stores acknowledged and reductions performed, and with E the engines' work. -/
def Sys2Proof.Claims.FencePriorSet : Prop :=
  ∀ (s : State) (h : Nat) (k : BitVec 4) (e : Bool), fenceReady s h k e = true ↔
    (k.getLsbD 3 = true → ∀ q ∈ s.pend, q.hart ≠ h) ∧
    (k.getLsbD 2 = true → (hartOf s h).sb = [] ∧ (∀ m ∈ (tileOf s (h / 16)).merge, ∀ q ∈ m.2.harts, q.hart = h → m.2.going = false) ∧
      ∀ q ∈ s.pend, q.hart = h → q.op = none) ∧
    (e = true → (k.getLsbD 3 = true ∨ k.getLsbD 2 = true) → enginesDone s h = true)

/-- R167, R381: the steps of a join: a marker on each circuit used in its scope, which sends on what a router or a pod merge buffer holds of its tile, each answered
once nothing sent before it on its circuit is unperformed, and while the path of its circuit does not retrain, and the answers counted. -/
def Sys2Proof.Claims.Joins : Prop :=
  ∀ (s : State) (h id c : Nat) (j : Join),
    ((hartOf s h).join = some j →
      let cs := if j.pod then (tileOf s (h / 16)).usedP else (tileOf s (h / 16)).usedD
      ∃ t, exec (.joinMarkers h) s = .next t ∧ (hartOf t h).join = some { j with sent := true, due := cs.length, circ := cs } ∧
        t.agenda = s.agenda ++ cs.map (fun x => Event.joinMarkerArrive j.id x)) ∧
    (joinHart s id = some h →
      (let k := if c / 1024 = 5 ∨ c / 1024 = 3 then rtLeave s fun x => x.cluster == h / 16 / 8 && x.vals.any fun v => v.1 == h / 16 % 8 else s
       let k := if c / 1024 = 3 ∧ 16 ≤ c % 1024 then
           { k with podMerge := k.podMerge.map fun m => if m.dpkg == c % 1024 - 16 && m.cmds.any (fun y => y.1 == h / 16) then { m with going := true } else m }
         else k
       exec (.joinMarkerArrive id c) s = .next (if aheadOf k (h / 16) c ∨ (16 ≤ c % 1024 ∧ circuitWaits k (c % 1024 - 16)) then post k (.joinMarkerArrive id c)
         else post k (.jackSend id c))) ∧
      ∃ t, exec (.jackArrive id c) s = .next t ∧ (hartOf t h).join = (hartOf s h).join.map (fun x => { x with due := x.due - 1 }) ∧
        { hartOf t h with join := (hartOf s h).join } = hartOf s h) ∧
    exec (.jackSend id c) s = .next (post s (.jackArrive id c))

/-- R279, R280: WATCH arms its hart's monitor on the granule of its address; a write to the granule notifies it and wakes the hart; WAITW waits until the word at ra
is at least rb, and answers it. -/
def Sys2Proof.Claims.WatchAndWait : Prop :=
  ∀ (s : State) (d a b : BitVec 5) (c : BitVec 3) (h : Nat),
    (Ready s [(a, false)] none →
      (∀ w k sb x, span s (gVal s a) (if (gVal s a).toNat % 8 = 0 then 8 else 1) .read .counter = .fault w k sb x →
        exec (.watch a) s = .next (takeTrap w k sb x (curH s).pc)) ∧
      (∀ w x xs, span s (gVal s a) (if (gVal s a).toNat % 8 = 0 then 8 else 1) .read .counter = .ok w (x :: xs) →
        exec (.watch a) s = ends s (watching (popSrcs w [(a, false)]) (monitorGran x)))) ∧
    (∃ t, exec (.monitorNotify h) s = .next t ∧ (hartOf t h).monitor = (hartOf s h).monitor.map (fun m => { m with notified := true }) ∧
      (hartOf t h).wait = (if (hartOf s h).wait = .monitor then .none else (hartOf s h).wait) ∧
      { hartOf t h with monitor := (hartOf s h).monitor, wait := (hartOf s h).wait } = hartOf s h) ∧
    (Ready s [(a, false), (b, false)] (some d) →
      ((gVal s a).toNat % 8 ≠ 0 → exec (.waitw d a c b) s = traps s 3 0 (gVal s a)) ∧
      ((gVal s a).toNat % 8 = 0 →
        (∀ w k sb x, span s (gVal s a) 8 .read .counter = .fault w k sb x → exec (.waitw d a c b) s = .next (takeTrap w k sb x (curH s).pc)) ∧
        (∀ w x xs, span s (gVal s a) 8 .read .counter = .ok w (x :: xs) →
          WaitRule (.waitw d a c b) s w x (gVal s a) (fun v => decide ((gVal w b).toNat ≤ v)) fun u v =>
            ends s (setG (popSrcs u [(a, false), (b, false)]) d (BitVec.ofNat 64 v)))))

/-- R281, R282: ARRIVE, WAITB and BAR on the barrier word at ra. The count of ARRIVE and BAR is from 1 to 2^32 - 1. ARRIVE is a release entry of the store buffer;
WAITB waits until the phase is not the one in rb; BAR arrives once its hart's accesses are performed, and then waits for that phase to end. -/
def Sys2Proof.Claims.Barriers : Prop :=
  ∀ (s : State) (a b : BitVec 5) (c : BitVec 3), Ready s [(a, false), (b, false)] none →
    let va := gVal s a
    let srcs := [(a, false), (b, false)]
    (((gVal s b).toNat = 0 ∨ 2 ^ 32 ≤ (gVal s b).toNat) → exec (.arrive a b c) s = traps s 0x0B 0 0 ∧ exec (.bar a b c) s = traps s 0x0B 0 0) ∧
    (va.toNat % 8 ≠ 0 → exec (.waitb a b c) s = traps s 3 0 va ∧
      (1 ≤ (gVal s b).toNat → (gVal s b).toNat < 2 ^ 32 → exec (.arrive a b c) s = traps s 3 0 va ∧ exec (.bar a b c) s = traps s 3 0 va)) ∧
    (va.toNat % 8 = 0 → ∀ w x xs, span s va 8 .amo .none = .ok w (x :: xs) →
      WaitRule (.waitb a b c) s w x (gVal w a) (fun v => decide (v / 2 ^ 32 % 2 ^ 31 ≠ (gVal w b).toNat % 2 ^ 31)) (fun u _ => ends s (popSrcs u srcs)) ∧
      (1 ≤ (gVal s b).toNat → (gVal s b).toNat < 2 ^ 32 →
        (∃ t, exec (.arrive a b c) s = .next t ∧ GoesOn s w t ∧ (curH t).sb = (curH w).sb ++ [{
          id := w.nextId, op := .arrive (gVal w b), pieces := [x], va := gVal w a, ord := order w false true false, full := false, performed := false }] ∧ t.mem = w.mem) ∧
        (∀ q, (curH w).barPh = some q →
          WaitRule (.bar a b c) s w x (gVal w a) (fun v => decide (v / 2 ^ 32 % 2 ^ 31 ≠ q.toNat)) fun u _ =>
            ends s (setCur (popSrcs u srcs) { curH (popSrcs u srcs) with barPh := none })) ∧
        ((curH w).barPh = none →
          let k := flushHart w w.cur
          (drained k w.cur = false → exec (.bar a b c) s = .next (setCur k { curH k with wait := .data })) ∧
          (drained k w.cur = true → ∀ u old, accRmw k (whoInstr k) x (fun o => some (arriveBytes (gVal w b) o)) = .ok u old →
            ∃ t, exec (.bar a b c) s = .next t ∧ (curH t).barPh = some (BitVec.ofNat 31 (leNat old / 2 ^ 32)) ∧ (curH t).pc = (curH u).pc ∧ (curH t).wait = .data))))

/-- R282: an arrival adds 1 to the count; the one that makes it N sets the count to 0 and moves the phase on, modulo 2^31. -/
def Sys2Proof.Claims.BarrierWord : Prop :=
  ∀ (n : Word) (count phase : Nat), count < 2 ^ 32 - 1 → phase < 2 ^ 31 →
    arriveBytes n (leBytes 8 (phase * 2 ^ 32 + count))
      = leBytes 8 (if n.toNat ≤ count + 1 then (phase + 1) % 2 ^ 31 * 2 ^ 32 else phase * 2 ^ 32 + (count + 1))

/-- R283 to R285: CWB, CFLUSH and the privileged CINV treat the granules of a range, whose length and place they check; the user's CINV drops the tile's instruction-cache
copy of its granule once its hart's stores are performed. -/
def Sys2Proof.Claims.CacheMaintenance : Prop :=
  ∀ (s : State) (g h : BitVec 5),
    let srcs := [(g, false), (h, false)]
    let va := gVal s g
    let n := (gVal s h).toNat
    (Ready s srcs none →
      (rangeBad va n = true → exec (.cwb g h) s = traps s 0x0B 0 0 ∧ exec (.cflush g h) s = traps s 0x0B 0 0) ∧
      (rangeBad va n = false → TreatRule (.cwb g h) s srcs va n false writeBackGran ∧ TreatRule (.cflush g h) s srcs va n false flushGran) ∧
      ((curH s).sup = true → (va.toNat % 128 ≠ 0 ∨ n % 128 ≠ 0 ∨ n = 0 ∨ 2 ^ 32 < n) → exec (.cinvRange g h) s = traps s 0x0B 0 0) ∧
      ((curH s).sup = true → va.toNat % 128 = 0 → n % 128 = 0 → n ≠ 0 → n ≤ 2 ^ 32 → TreatRule (.cinvRange g h) s srcs va n true discardGran)) ∧
    (Ready s [(g, false)] none →
      (∀ w c sb, xlateFetch s (curTile s) (curPart s) va (curH s).sup = .fault w c sb → exec (.cinv g) s = .next (takeTrap w c sb va (curH s).pc)) ∧
      (∀ w x, xlateFetch s (curTile s) (curPart s) va (curH s).sup = .ok w x →
        (∀ sb, slotRefuses w (curPart w) x.vcid va .fetch = some sb → exec (.cinv g) s = .next (takeTrap w 5 sb va (curH s).pc)) ∧
        (slotRefuses w (curPart w) x.vcid va .fetch = none →
          let k := flushHart w w.cur
          (storesDone k k.cur = true → ∃ t, exec (.cinv g) s = .next t ∧ GoesOn s w t ∧ mfind (tileOf t (curTile w)).ic (x.pk va / 128) = none ∧
            ∀ j, j ≠ x.pk va / 128 → mfind (tileOf t (curTile w)).ic j = mfind (tileOf w (curTile w)).ic j) ∧
          (storesDone k k.cur = false → exec (.cinv g) s = .next (setCur k { curH k with wait := .fence })))))

/-- R93, R96, R284, R285, R459: what the treatment of a granule does where nothing is under way for it and no piece covers it: without a directory entry there is nothing to write
back or to flush; a region of another partition refuses it; CFLUSH recalls it from every holder, CWB makes its owner's data current at home; CINV recalls what another partition holds of host memory, and else
drops every copy and frees the entry, and home memory stays as it is. -/
def Sys2Proof.Claims.GranuleTreatment : Prop :=
  ∀ (s : State) (gk : Nat) (d : DirE), (stackOf s (granStack gk)).stopped = false → mfind s.txns gk = none → turnDue s (whoInstr s) = false →
    clash s gk false (curTile s) 100 (whoInstr s).ev = .free →
    (regionOk s (curPart s) gk = false → ∀ f ∈ [flushGran, writeBackGran, discardGran], f s gk = .stop (logHome s (curPart s) (gk * 128)) 5 4) ∧
    (regionOk s (curPart s) gk = true → (∀ e, dirOf s gk = some e → e.bad = false ∧ vote e ≠ none) →
    (dirOf s gk = none → flushGran s gk = .done s ∧ writeBackGran s gk = .done s) ∧
    (dirOf s gk = some d →
      flushGran s gk = .wait (recallAll s gk) ∧ (d.owned = false → writeBackGran s gk = .done s) ∧
      (d.owned = true → isHostGran gk = false → writeBackGran s gk = .wait (recallShared s gk)) ∧
      (d.owned = true → isHostGran gk = true → writeBackGran s gk = .wait (recallAll s gk))) ∧
    (∀ e, dirOf s gk = some e → isHostGran gk = true → ownp e ≠ curPart s → discardGran s gk = .wait (recallAll s gk)) ∧
    ((∀ e, dirOf s gk = some e → isHostGran gk = true → ownp e = curPart s) →
      (((copiesOf s gk).all fun (_, c) => c.st.holds && c.st != .sm) = true → ∃ t, discardGran s gk = .done t ∧ dirOf t gk = none ∧
        (∀ x ∈ copiesOf s gk, copyOf t x.1 gk = none) ∧ (∀ a, homeByte t a = homeByte s a)) ∧
      (((copiesOf s gk).all fun (_, c) => c.st.holds && c.st != .sm) = false → discardGran s gk = .wait s)))

/-- R157: when a watermark is written, every waiting load element of its hart is looked at again: each that its order and its watermarks then allow is performed. -/
def Sys2Proof.Claims.WatermarkRelease : Prop :=
  ∀ (s : State) (h : Nat),
    ((∀ p ∈ s.pend, p.hart = h → p.chk = false) → exec (.watermarkRelease h) s = .next s) ∧
    (∀ p u w bs, (s.pend.filter fun q => q.hart == h && q.chk) = [p] → (s.pend.find? fun q => q.id == p.id) = some p → (hartOf s h).st ≠ .free → pendHeld s p = false →
      watermarkOk s h (h / 16) ((tilePart s (h / 16)).getD 0) p.va ((p.pieces.map (·.n)).sum) p.ord.sup (some (pendEvent s p, p.id + 1))
        = (u, true) → perform u p = .ok w bs →
      exec (.watermarkRelease h) s = .next (deliver (dropPend w p.id) p bs))


namespace Sys2Proof.Claims
open Sys2Proof Sys2Proof.Machine

/-! ## Commands, counters and posts -/

/-- A command of four words ends here in state w. -/
def ends4 (s w : State) : Answer := .next (goTo w ((curH s).pc + 16))

/-- The copy engine's commands with what each captures. -/
noncomputable def copyCommands (s : State) (r : CmdRegs) (c : Comp) (f : Option Follow) (esz : BitVec 3) (np fn : BitVec 4) (perm grp : BitVec 8) (pkg : BitVec 9)
    (tag : Option PodTag) : List (Instr × Cmd) :=
  [(.copyLin r c f, { hartCmd s 0 0 r c with follow := f }),
   (.copyDeint r c f esz np, { hartCmd s 0 1 r c with follow := f, esz := esz.toNat, param := np.toNat }),
   (.copyPerm r c f esz perm, { hartCmd s 0 2 r c with follow := f, esz := esz.toNat, param := perm.toNat }),
   (.copyVreg r c f, { hartCmd s 0 3 r c with follow := f, snap := (curH s).v.lanes.setWidth 64 }),
   (.copyTile r c f, { hartCmd s 0 4 r c with follow := f, snap := tcfgOf s (gVal s r.gb).toNat }),
   (.put r c pkg tag, { hartCmd s 6 0 r c with dpkg := pkg.toNat, tag }),
   (.get r c pkg, { hartCmd s 7 0 r c with dpkg := pkg.toNat }),
   (.ramo r c pkg fn, { hartCmd s 8 0 r c with dpkg := pkg.toNat, func := fn.toNat }),
   (.rred r c pkg tag fn, { hartCmd s 9 0 r c with dpkg := pkg.toNat, tag, func := fn.toNat }),
   (.mcast r c grp tag, { hartCmd s 10 0 r c with dpkg := grp.toNat, tag })]

/-- Nothing at its tile keeps command x from being taken: full destination groups, room in its follow-on's stream and in the engine's queue of 64,
and no position that it claims under a line that cannot leave (R75). -/
def takesCommand (s : State) (x : Cmd) : Prop :=
  (x.k = 0 → x.mode = 3 → ∀ g ∈ vregGroups x, g ∉ (tileOf s x.tile).vEmpty) ∧
  (∀ f, x.follow = some f → streamFull (flushHart s s.cur) f.mstr.toNat = false) ∧ (copyQueue (flushHart s s.cur) x.tile).length < 64 ∧ claimsWait (flushHart s s.cur) x = false

/-- A record of n words at a, read in the state w in which everything its hart did before is performed (R151). -/
def captured (w : State) (a : Word) (n : Nat) (u : State) (words : List Word) : Prop :=
  drained w w.cur = true ∧ ∃ bs, readRec w (byRuns a (8 * n) (n / 16 + 2)) = .ok u bs ∧ words = wordsOf n bs

end Sys2Proof.Claims

/-- R171, R247, R249, R345, R346, R348, R355: a COPY, PUT, GET, RAMO, RRED or MCAST: ILLOP without its feature; OPERAND without the lanes or the matrix grant it needs, and for
parameters it may not have; MISALIGN for an address; it waits for its place; else it is taken by the copy engine and its hart goes on. -/
def Sys2Proof.Claims.CopyCommands : Prop :=
  ∀ (s : State) (r : CmdRegs) (c : Comp) (f : Option Follow) (esz : BitVec 3) (np fn : BitVec 4) (perm grp : BitVec 8) (pkg : BitVec 9) (tag : Option PodTag),
    ∀ q ∈ copyCommands s r c f esz np fn perm grp pkg tag,
      let i := q.1
      let x := q.2
      (cmdGated s x = true → exec i s = traps s 0x01 0 0) ∧
      (cmdGated s x = false → copyGrantless s x = true → exec i s = traps s 0x0B 0 0) ∧
      (cmdGated s x = false → copyGrantless s x = false → Ready s (cmdSrcs r) none →
        ((cmdBad s x = true ∨ followBad s x = true) → exec i s = .next (takeTrap (logComp s x.comp) 0x0B 0 0 (curH s).pc)) ∧
        (cmdBad s x = false → followBad s x = false →
          (∀ a, cmdMisaligned x = some a → exec i s = traps s 0x03 0 a) ∧
          (cmdMisaligned x = none → ¬takesCommand s x → ∃ t, exec i s = .next t ∧ (curH t).pc = (curH s).pc ∧ (curH t).wait ∈ [.reg, .matrix, .queue] ∧
            (tileOf t x.tile).cq = (tileOf s x.tile).cq) ∧
          (cmdMisaligned x = none → takesCommand s x → exec i s = ends4 s (acceptCopy (popSrcs (flushHart s s.cur) (cmdSrcs r)) x))))

/-- R75, R345, R175: taking a command puts it at the end of its tile's queue and lets the engine look; a VREG copy empties its destination groups. -/
def Sys2Proof.Claims.CommandTaken : Prop :=
  ∀ (s : State) (c : Cmd), c.follow = none → (c.k ≠ 0 ∨ 3 ≤ c.mode) →
    let t := acceptCopy s c
    (tileOf t c.tile).cq = (tileOf s c.tile).cq ++ [c] ∧ t.agenda = s.agenda ++ [.copyBegin c.tile] ∧ t.nextId = s.nextId + 1 ∧
    (c.k = 0 → c.mode = 3 → ∀ g ∈ vregGroups c, g ∈ (tileOf t c.tile).vEmpty) ∧ t.mem = s.mem ∧ t.copies = s.copies

/-- R151, R345, R347, R348: the steps of the copy engine. A hart that waits for a place looks again; the next command begins when its hart's earlier accesses are performed
and fewer than eight are under way; a memory copy moves one granule of its destination after another, a VREG copy an element group, a TILE copy a row; a finished one makes
its raise, its record and its stamp, and leaves. -/
def Sys2Proof.Claims.CopySteps : Prop :=
  ∀ (s : State) (t id h : Nat) (c : Cmd),
    exec (.commandAccept h) s = .next (if (hartOf s h).wait = .queue then setHart s h { hartOf s h with wait := .none } else s) ∧
    ((copyQueue s t).find? (fun c => !c.begun) = some c →
      (((copyQueue s t).filter (·.begun)).length < 8 → (c.src ≠ 0 ∨ drainedBefore s c.hart c.id = true) →
        exec (.copyBegin t) s = .next (post (setCmd s { c with begun := true }) (.copyTransfer c.tile c.id))) ∧
      (((copyQueue s t).filter (·.begun)).length < 8 → c.src = 0 → drainedBefore s c.hart c.id = false →
        exec (.copyBegin t) s = .next (post (flushBefore s c.hart c.id) (.copyBegin t)))) ∧
    (cmdOf s t id = some c → c.begun = true → c.stall = none → c.raised = false →
      (∀ m, c.err = some m → exec (.copyTransfer t id) s = .next (if c.due = 0 then toEnd s c else setCmd s { c with retry := true })) ∧
      (c.err = none → c.k = 0 → c.mode < 3 →
        (nextPos (copySpans c) c.pos (((copySpans c).map spanGrans).sum + (copySpans c).length + 1) = none → exec (.copyTransfer t id) s = .next (toEnd s c)) ∧
        (∀ p b n, nextPos (copySpans c) c.pos (((copySpans c).map spanGrans).sum + (copySpans c).length + 1) = some p → (copySpans c)[p / 2 ^ 64]? = some (b, n) →
          let g := b.toNat / 128 + p % 2 ^ 64
          let plan := granPlan (copySpans c) g
          let dst := plan.map fun q => BitVec.ofNat 64 (g * 128 + q.1)
          let src := plan.map fun q => copySource c q.2.1 q.2.2
          ∀ u bs v r, (engGatherSome s (whoCmd c) c.sup (joinRuns (src.drop c.buf.length)) c.buf).1 = .ok u bs →
            engScatter { u with free := u.free + 128 } (whoCmd c) c.sup (joinBytes (dst.zip (openBytes c (copySpans c) src dst u.free bs))) = .ok v r →
            exec (.copyTransfer t id) s = .next (again (landGran v c g) { c with pos := p + 1, buf := [] }))) ∧
      (c.err = none → c.k = 0 → c.mode = 3 → c.pos * 64 < c.gc.toNat →
        let n := rowBytes (cmdLanes c)
        let b := c.pos * 64
        ∀ u bs, engRead s (whoCmd c) c.sup (c.ga + BitVec.ofNat 64 b) 64 = .ok u bs → exec (.copyTransfer t id) s
          = .next (again (setTile u c.tile (setVBytesAt (tileOf u c.tile) (cmdLanes c) (c.gb.toNat % 32 + b / (8 * n)) (b / n % 8) (b % n) bs)) { c with pos := c.pos + 1 })) ∧
      (c.err = none → c.k = 0 → c.mode = 4 → c.pos < tcRows c.snap → ∀ u r,
        (loadRow s (whoCmd c) c.sup c.snap (c.gb.toNat % 8) c.pos (c.ga + BitVec.ofNat 64 c.pos * c.gc) c.buf).1 = .ok u r →
        exec (.copyTransfer t id) s = .next (again u { c with pos := c.pos + 1, buf := [] }))) ∧
    (cmdOf s t id = some c → c.stall = none → (c.k ≠ 4 ∨ c.begun = true) →
      (c.raised = false → ursvBusy s c = false → repBusy s (ofCmd c) = false → repErr s (ofCmd c) = false →
        let k := raiseOf (dropCinch (setCmd (repClear s (ofCmd c)) { c with raised := true }) c) c
        exec (.commandComplete t id) s = .next (if c.gd = 0 then leaveQueue k { c with raised := true } else post k (.commandComplete t id))) ∧
      (c.raised = true → ∀ u r, engScatter s (whoCmd c) c.sup (lastWords c) = .ok u r → exec (.commandComplete t id) s = .next (leaveQueue u c)))

/-- R348: which bytes the three memory modes move: LIN the byte as far on; DEINT for plane k and record m the m-th group's k-th element; PERM the element whose four indices are the
destination's, permuted (here: in order, and with the first two exchanged). -/
def Sys2Proof.Claims.CopySources : Prop :=
  ∀ (c : Cmd) (k m o : Nat), o < eBytes c →
    (c.mode = 0 → copySource c 0 m = c.ga + BitVec.ofNat 64 m) ∧
    (c.mode = 1 → k < deintN c → copySource c k (m * eBytes c + o) = c.ga + BitVec.ofNat 64 ((m * deintN c + k) * eBytes c + o)) ∧
    (c.mode = 2 → c.param = 0xE4 → m < permTotal c → copySource c 0 (m * eBytes c + o) = c.ga + BitVec.ofNat 64 (m * eBytes c + o)) ∧
    (c.mode = 2 → c.param = 0xE1 → ∀ x y, x < permD c 0 → y < permD c 1 → k < permD c 2 * permD c 3 →
      copySource c 0 ((y + permD c 1 * (x + permD c 0 * k)) * eBytes c + o)
        = c.ga + BitVec.ofNat 64 ((x + permD c 0 * (y + permD c 1 * k)) * eBytes c + o))

/-- R356, R357: TPOST keeps a post of its record's command, or of the release of a PENDING node, behind those of its tile; TCANCEL takes the posts with its address on its counter
away, and stamps how many they were. -/
def Sys2Proof.Claims.Posts : Prop :=
  ∀ (s : State) (ga gb gc gd : BitVec 5) (k : BitVec 9) (act : BitVec 2),
    let a := gVal s ga
    let w := flushHart s s.cur
    (Ready s [(ga, false), (gb, false), (gc, false)] none →
      ((ownsCounter s (curPart s) (curTile s) k.toNat = false ∨ act = 1 ∧ gVal s gc = 0) → ∀ rel, exec (.tpost ga gb gc k act rel) s = traps s 0x0B 0 0) ∧
      (ownsCounter s (curPart s) (curTile s) k.toNat = true → ¬(act = 1 ∧ gVal s gc = 0) → slotsUsed (tileOf s (curTile s)) < 4096 →
        (a.toNat % 64 ≠ 0 → exec (.tpost ga gb gc k act false) s = traps s 0x03 0 a) ∧
        (a.toNat % 64 = 0 → drained w w.cur = false → exec (.tpost ga gb gc k act false) s = .next (setCur w { curH w with wait := .drain })) ∧
        (a.toNat % 64 = 0 → ∀ u l c, captured w a 8 u l → recCmd u (curPart s) (curTile s) u.cur (curH u).sup 1 l = some c → l.getD 6 0 = 0 → l.getD 7 0 = 0 →
          ∃ t x, exec (.tpost ga gb gc k act false) s = .next t ∧ (curH t).pc = (curH s).pc + 16 ∧ (tileOf t (curTile s)).posts = (tileOf u (curTile s)).posts ++ [x] ∧
            x.cmd = some c ∧ x.k = k.toNat ∧ x.thr = gVal u gb ∧ x.step = gVal u gc ∧ x.act = act.toNat ∧ x.part = curPart s ∧
            t.agenda = u.agenda ++ [.postExamine (curTile s) k.toNat]) ∧
        (drained w w.cur = true → (findNode w (curPart s) a.toNat (· == .pending)).isSome = true → ∃ t x, exec (.tpost ga gb gc k act true) s = .next t ∧
          (curH t).pc = (curH s).pc + 16 ∧ (tileOf t (curTile s)).posts = (tileOf w (curTile s)).posts ++ [x] ∧ x.cmd = none ∧ x.addr = a ∧ x.k = k.toNat))) ∧
    (Ready s [(ga, false), (gd, false)] none → (gVal s gd = 0 ∨ Canonical (gVal s gd)) → (gVal s gd).toNat % 8 = 0 → drained w w.cur = true →
      let hit (x : Post) : Bool := x.part == curPart w && x.k == k.toNat && x.addr == a
      ∃ t, exec (.tcancel ga gd k) s = .next t ∧ (curH t).pc = (curH s).pc + 16 ∧
        (tileOf t (curTile w)).posts = (tileOf w (curTile w)).posts.filter (fun x => !hit x) ∧
        (gVal s gd = 0 → (tileOf t (curTile w)).cq = (tileOf w (curTile w)).cq) ∧
        (gVal s gd ≠ 0 → ∃ c, (tileOf t (curTile w)).cq = (tileOf w (curTile w)).cq ++ [c] ∧ c.gd = gVal s gd ∧
          c.val = BitVec.ofNat 64 ((tileOf w (curTile w)).posts.filter hit).length ∧ c.raised = true))

/-- R357, R363 to R365: a raise adds to one counter, modulo 2^64, and to no other; the posts of that counter are examined next, before another raise. -/
def Sys2Proof.Claims.CounterRaise : Prop :=
  ∀ (s : State) (tile k j i : Nat) (v : Word), k < 512 → i < 512 → ∃ t, exec (.counterRaise tile k v) s = .next t ∧
    counter t tile k = counter s tile k + v ∧ ((j ≠ tile ∨ i ≠ k) → counter t j i = counter s j i) ∧
    ((tileOf s tile).posts.any (·.k == k) = true → t.agenda.head? = some (.postExamine tile k)) ∧ t.mem = s.mem ∧ t.tiles = s.tiles ∧ t.harts = s.harts

/-- R357: a counter below every threshold fires nothing; a post whose threshold is reached fires: one-shot and then gone; repeating with its threshold moved on; one-shot and
the counter set to 0; or for good with the threshold taken off the counter. -/
def Sys2Proof.Claims.PostsFire : Prop :=
  ∀ (s : State) (t k : Nat) (x : Post) (c : Cmd),
    ((∀ y ∈ (tileOf s t).posts, y.k = k → (counter s t k).toNat < y.thr.toNat) → ∃ u, exec (.postExamine t k) s = .next u ∧
      (tileOf u t).posts = (tileOf s t).posts ∧ (tileOf u t).fired = (tileOf s t).fired ∧ u.ctr = s.ctr ∧ u.agenda = s.agenda) ∧
    ((tileOf s t).posts = [x] → x.k = k → x.cmd = some c → x.thr.toNat ≤ (counter s t k).toNat → ∃ u, exec (.postExamine t k) s = .next u ∧
      (∃ d, (tileOf u t).fired = (tileOf s t).fired ++ [d] ∧ d.ga = c.ga ∧ d.gb = c.gb ∧ d.gc = c.gc ∧ d.gd = c.gd ∧ d.kind = c.kind ∧ d.comp = c.comp) ∧
      .firedOpHandoff t ∈ u.agenda ∧
      (x.act = 0 → (tileOf u t).posts = [] ∧ counter u t k = counter s t k) ∧
      (x.act = 1 → (tileOf u t).posts = [{ x with thr := x.thr + x.step }] ∧ counter u t k = counter s t k) ∧
      (x.act = 2 → (tileOf u t).posts = [] ∧ counter u t k = 0) ∧
      (x.act = 3 → (tileOf u t).posts = [x] ∧ counter u t k = counter s t k - x.thr)) ∧
    ((tileOf s t).fired = [] → exec (.firedOpHandoff t) s = .next s) ∧
    (∀ r, (tileOf s t).fired = c :: r →
      (64 ≤ (copyQueue s t).length → exec (.firedOpHandoff t) s = .next s) ∧
      ((copyQueue s t).length < 64 → claimsWait s c = false →
        let u := acceptCopy (setTile s t { tileOf s t with fired := r }) { c with id := s.nextId, node := 0, param := c.param % 2 ^ 16 }
        exec (.firedOpHandoff t) s = .next (if r = [] then u else post u (.firedOpHandoff t))))

/-- R362, R430, R436: a granted run of 64 counters belongs to its partition, a revoked one to none; either way its counters read 0, and no other counter changes; revoking takes its
posts away. A run that another partition holds is not granted, and before the firmware is verified neither happens. -/
def Sys2Proof.Claims.CounterRuns : Prop :=
  ∀ (s : State) (t r p i : Nat), t < 512 → r < 8 → p < 64 → i < 512 →
    let off := 0x40000000 + 8 * t + r
    let held := ctlByte s off / 64 % 2 = 1
    (s.firmware = false → exec (.counterRunGrant t r p) s = .next (logIo s 0 (0x40000000000 + off)) ∧
      exec (.counterRunRevoke t r) s = .next (logIo s 0 (0x40000000000 + off))) ∧
    (s.firmware = true → held →
      exec (.counterRunGrant t r p) s = .next (if ctlByte s off % 64 = p then s else logIo s 0 (0x40000000000 + off))) ∧
    (s.firmware = true → ¬held → ∃ u, exec (.counterRunGrant t r p) s = .next u ∧ (i / 64 = r → counter u t i = 0 ∧ ownsCounter u p t i = true) ∧
      (i / 64 ≠ r → counter u t i = counter s t i ∧ ownsCounter u p t i = ownsCounter s p t i) ∧ u.mem = s.mem) ∧
    (s.firmware = true → (tileOf s t).fired = [] → ∃ u, exec (.counterRunRevoke t r) s = .next u ∧ (i / 64 = r → counter u t i = 0 ∧ ownsCounter u p t i = false) ∧
      (i / 64 ≠ r → counter u t i = counter s t i) ∧ (tileOf u t).posts = (tileOf s t).posts.filter (fun x => x.k / 64 != r) ∧ u.mem = s.mem)

/-- R359: CTRADD, CTRRD and CTRSET on the counter that h names: OPERAND for a set reserved bit, PROT 3 for a counter of another, else a raise that releases, a read that leaves g
empty, and a store that releases nothing. -/
def Sys2Proof.Claims.CounterInstructions : Prop :=
  ∀ (s : State) (g h : BitVec 5),
    let n := gVal s h
    let tile := n.toNat / 512 % 512
    let k := n.toNat % 512
    let a := 0x40100000000 + tile * 65536 + k * 8
    let x : Piece := ⟨a, 8, 64, BitVec.ofNat 64 a, true⟩
    let refused : Answer := .next (takeTrap (logTile s (curTile s) (curPart s) a) 5 3 (BitVec.ofNat 64 a) (curH s).pc)
    (Ready s [(g, false), (h, false)] none →
      (2 ^ 18 ≤ n.toNat → exec (.ctradd g h) s = traps s 0x0B 0 0 ∧ exec (.ctrset g h) s = traps s 0x0B 0 0) ∧
      (n.toNat < 2 ^ 18 → ownsCounter s (curPart s) tile k = false →
        exec (.ctradd g h) s = refused ∧ exec (.ctrset g h) s = refused) ∧
      (n.toNat < 2 ^ 18 → ownsCounter s (curPart s) tile k = true →
        (∃ t, exec (.ctradd g h) s = .next t ∧ GoesOn s s t ∧ (curH t).sb = (curH s).sb ++ [{
          id := s.nextId, op := .raise tile k (gVal s g), pieces := [x], va := BitVec.ofNat 64 a, ord := order s false true true, full := false, performed := false }]) ∧
        (∃ t, exec (.ctrset g h) s = .next t ∧ GoesOn s s t ∧ (curH t).sb = (curH s).sb ++ [{
          id := s.nextId, op := .ctrSet tile k (gVal s g), pieces := [x], va := BitVec.ofNat 64 a, ord := order s false false true, full := false, performed := false }]))) ∧
    (Ready s [(h, false)] (some g) → 2 ^ 18 ≤ n.toNat → exec (.ctrrd g h) s = traps s 0x0B 0 0) ∧
    (Ready s [(h, false)] (some g) → n.toNat < 2 ^ 18 → ownsCounter s (curPart s) tile k = false → exec (.ctrrd g h) s = refused) ∧
    (Ready s [(h, false)] (some g) → n.toNat < 2 ^ 18 → ownsCounter s (curPart s) tile k = true →
      ∃ t, exec (.ctrrd g h) s = .next t ∧ GoesOn s s t ∧ (g ≠ 0 → gkey (curH s).sup g ∈ (curH t).gEmpty) ∧ t.pend = s.pend ++ [{
        id := s.nextId, hart := s.cur, op := none, pieces := [x], va := BitVec.ofNat 64 a, dest := .g (gkey (curH s).sup g) 8 false, chk := false
        ord := order s false false true }])


namespace Sys2Proof.Claims
open Sys2Proof Sys2Proof.Machine

/-! ## Nodes, streams and Cinches -/

/-- What a submission stands on (R196 to R202): its record, captured; its two lists, read; the pool keys and numbers of the nodes, and the
regions, they name. -/
structure Submission where
  /-- After the record, the successor list and the footprint list. -/
  u : State
  v : State
  x : State
  recd : List Word
  keys : List (Nat × Nat)
  regions : List (Nat × Nat × Bool)

/-- The lists of a record: ns successors at a, nf regions at b. -/
def listsRead (y : Submission) (a b : Word) (ns nf : Nat) : Prop :=
  (∃ sb, readRec y.u (byRuns a (8 * ns) (ns / 16 + 2)) = .ok y.v sb ∧ succKeys y.x (wordsOf ns sb) = some y.keys) ∧
  (∃ fb, readRec y.v (byRuns b (16 * nf) (nf / 8 + 2)) = .ok y.x fb ∧ footList (wordsOf (2 * nf) fb) nf = some y.regions) ∧
  (nf = 0 ∨ ((allNodes y.x).filter fun q => q.2.part == curPart y.x && !q.2.foot.isEmpty).length < 256)

/-- The node a submission makes. -/
def madeNode (y : Submission) (a : Word) (isCmd : Bool) (preds : Nat) : Node :=
  let w := y.x
  { id := 0, addr := a.toNat, part := curPart w, level := pointDepth w + 1, isCmd, recd := y.recd, succ := y.keys, foot := y.regions, derived := [], st := .pending
    preds, taint := false, nextP := 0, live := 0, ended := false, prio := 0, pass := 0, readyAt := 0, lastTile := 512, tile := curTile w, hart := w.cur
    sup := (curH w).sup }

/-- Instruction i submits the record at a to the pool of stack st: with an entry free it makes the node and answers 0; without it stalls, or answers 1; at depth 7 it traps,
or answers 2 (R202). -/
def SubmitRule (i : Instr) (s : State) (y : Submission) (a : Word) (isCmd : Bool) (st preds : Nat) (nb : Bool) (done : State → Nat → Answer) : Prop :=
  (pointDepth y.x < 7 → ∀ k, levelRoom y.x st (pointDepth y.x + 1) y.x.cur = true → freeEntry y.x st (pointDepth y.x + 1) = some k →
    exec i s = done (enterNode (unstall y.x y.x.cur) k (madeNode y a isCmd preds)) 0) ∧
  (pointDepth y.x < 7 → levelRoom y.x st (pointDepth y.x + 1) y.x.cur = false →
    (nb = true → exec i s = done y.x 1) ∧
    (nb = false →
      let k := stallOn y.x st (pointDepth y.x + 1) (madeNode y a isCmd preds)
      exec i s = .next (setCur k { curH k with wait := .pool }))) ∧
  (7 ≤ pointDepth y.x → (nb = true → exec i s = done y.x 2) ∧
    (nb = false → exec i s = .next (takeTrap (unstall y.x y.x.cur) 0x11 0 a (curH s).pc)))

end Sys2Proof.Claims

/-- R196 to R202, R288, R354: LAUNCH of the nest record at h, with the status in g when it does not wait, and NODE of a nest or of a command. A record that is not aligned traps.
A request that the pool took while its point was set aside is done (R203). -/
def Sys2Proof.Claims.Submissions : Prop :=
  ∀ (s : State) (g h : BitVec 5) (nb : Bool) (y : Submission),
    let a := gVal s h
    let w := flushHart s s.cur
    let w8 := y.recd.getD 8 0
    ((curH s).taken = true →
      let t := setCur s { curH s with taken := false }
      (Ready s [(h, false)] (some g) → exec (.launch g h nb) s = ends s (setG (popSrcs t [(h, false)]) g 0)) ∧
      (Ready s [(h, false)] none → exec (.nodeNest h) s = ends4 s (popSrcs t [(h, false)]) ∧ exec (.nodeCmd h) s = ends4 s (popSrcs t [(h, false)]))) ∧
    ((curH s).taken = false → a.toNat % 128 ≠ 0 →
      (Ready s [(h, false)] (some g) → exec (.launch g h nb) s = .next (takeTrap (unstall s s.cur) 3 0 a (curH s).pc)) ∧
      (Ready s [(h, false)] none → exec (.nodeNest h) s = .next (takeTrap (unstall s s.cur) 3 0 a (curH s).pc) ∧
        exec (.nodeCmd h) s = .next (takeTrap (unstall s s.cur) 3 0 a (curH s).pc))) ∧
    ((curH s).taken = false → a.toNat % 128 = 0 → captured w a 16 y.u y.recd →
      (Ready s [(h, false)] (some g) → nestBad y.u y.recd false = false → listsRead y (nestAddr (y.recd.getD 4 0)) (nestAddr (y.recd.getD 5 0)) (bits w8 31 24) 0 →
        SubmitRule (.launch g h nb) s y a false (nestStack y.recd) (bits w8 47 32) nb fun t r =>
          ends s (setG (popSrcs t [(h, false)]) g (BitVec.ofNat 64 r))) ∧
      (Ready s [(h, false)] none → nestBad y.u y.recd true = false →
        listsRead y (nestAddr (y.recd.getD 4 0)) (nestAddr (y.recd.getD 5 0)) (bits w8 31 24) (bits w8 52 48) →
        SubmitRule (.nodeNest h) s y a false (nestStack y.recd) (bits w8 47 32) false fun t _ => ends4 s (popSrcs t [(h, false)])) ∧
      (Ready s [(h, false)] none → nodeBad y.recd = false → (recCmd y.u (curPart y.u) (curTile y.u) y.u.cur (curH y.u).sup 2 y.recd).isSome = true →
        listsRead y (nestAddr (y.recd.getD 6 0)) (nestAddr (y.recd.getD 7 0)) (bits w8 7 0) (bits w8 28 24) →
        SubmitRule (.nodeCmd h) s y a true (curTile y.u / 128) (bits w8 23 8) false fun t _ => ends4 s (popSrcs t [(h, false)])))

/-- R189, R190: a node without predecessors is READY at once, another PENDING with their count; the last predecessor's end makes it READY; a node that is done leaves its entry and
counts its successors down, passing its error on; a successor that is gone is not counted, whatever took its entry (R198). -/
def Sys2Proof.Claims.NodeStates : Prop :=
  ∀ (s : State) (k j : Nat) (n m : Node), 
    (n.foot = [] → n.preds ≠ 0 → enterNode s k n = setNode (newId s) k { n with id := s.nextId }) ∧
    (n.foot = [] → n.preds = 0 → ∃ r, nodeAt (enterNode s k n) k = some r ∧ r.st = .ready ∧ r.addr = n.addr ∧ r.recd = n.recd ∧ r.pass = 0 ∧
      r.id = s.nextId ∧ r.readyAt = s.clock) ∧
    (nodeAt s j = some m → m.st = .pending → 2 ≤ m.preds → ∀ taint, decrNode s j m.id taint = setNode s j { m with preds := m.preds - 1, taint := m.taint || taint }) ∧
    (nodeAt s j = some m → m.st = .pending → m.preds = 1 → ∀ taint, ∃ r, nodeAt (decrNode s j m.id taint) j = some r ∧ r.st = .ready ∧ r.preds = 0 ∧
      r.taint = (m.taint || taint)) ∧
    (∀ i taint, (∀ x, nodeAt s j = some x → x.id ≠ i) → decrNode s j i taint = s) ∧
    (nodeAt s k = some n → n.succ = [] → n.derived = [] → ∀ err, nodeAt (completeNode s k err) k = none) ∧
    (nodeAt s k = some n → n.succ = [(j, m.id)] → n.derived = [] → j ≠ k → nodeAt s j = some m → m.st = .pending → 2 ≤ m.preds → ∀ err,
      nodeAt (completeNode s k err) k = none ∧ nodeAt (completeNode s k err) j = some { m with preds := m.preds - 1, taint := m.taint || err })

/-- R189, R354, R289: a READY command node goes to the copy engine of its tile, or waits for a place there; RETIRE of a split or numbered thread is refused, waits while anything of its
hart is under way, its streams' pushed positions and their copies among it, and then frees the hart and its grants. -/
def Sys2Proof.Claims.NodeBeginAndRetire : Prop :=
  ∀ (s : State) (p k : Nat) (a : Word) (n : Node) (c : Cmd),
    (findNode s p a.toNat (· == .ready) = some k → nodeAt s k = some n → n.isCmd = true → n.taint = false →
      (64 ≤ (copyQueue s n.tile).length → exec (.commandNodeBegin p a) s = .next (post s (.commandNodeBegin p a))) ∧
      ((copyQueue s n.tile).length < 64 → recParse n.part n.tile n.hart n.sup 2 k n.recd = some c → claimsWait s c = false →
        exec (.commandNodeBegin p a) s
          = .next (acceptCopy (setNode s k { n with st := .running }) { c with id := s.nextId, nid := n.id, naddr := BitVec.ofNat 64 n.addr }))) ∧
    (((curH s).v.split = true ∨ (curH s).v.tnum ≠ 0) → exec .retire s = traps s 0x0B 0 0) ∧
    ((curH s).v.split = false → (curH s).v.tnum = 0 →
      let w := flushHart s s.cur
      (retireReady w s.cur = false → exec .retire s = .next (setCur w { curH w with wait := .drain })) ∧
      (retireReady w s.cur = true → (∃ x ∈ boundEngines w s.cur, bindingBusy w (curTile s) x.1 x.2 = true) →
        exec .retire s = .next (setCur w { curH w with wait := .drain })) ∧
      (retireReady w s.cur = true → boundEngines w s.cur = [] → ∃ t, exec .retire s = .next t ∧ hartOf t s.cur = Hart.init ∧
        (tileOf t (curTile s)).mx ≠ some s.cur ∧ .dispatchDecision (curTile s / 128) ∈ t.agenda))

/-- R350 to R352, R461: STRM binds a register to a stream engine by the pattern record at ga; a read stream's engine fetches position after position into its buffer, a write stream's
writes the pushed ones, those that fill a granule together (R461); the end of the pattern makes its completion actions, once; UNSTRM waits for the pushed positions and for those on
their way to the register (R352), their copies (R377) and a use that waits (R360), and then the register is ordinary. -/
def Sys2Proof.Claims.Streams : Prop :=
  ∀ (s : State) (ga gd : BitVec 5) (c : Comp) (q : BitVec 3) (file dir : Bool) (reg : BitVec 2) (tile j : Nat) (e : SEng),
    let t := curTile s
    let a := gVal s ga
    let r := 28 + reg.toNat
    (file = true → (curH s).v.lanes = 0 → exec (.strm ga gd c q file reg dir) s = traps s 0x0B 0 0) ∧
    (Ready s [(ga, false), (gd, false)] none → (file = true → (curH s).v.lanes ≠ 0) →
      ((compBad s (curPart s) (gVal s gd) c = true ∨ (∃ e, mfind (tileOf s t).se q.toNat = some e ∧ e.bound = true)) →
        exec (.strm ga gd c q file reg dir) s = .next (takeTrap (logComp s c) 0x0B 0 0 (curH s).pc)) ∧
      (compBad s (curPart s) (gVal s gd) c = false → (∀ e ∈ (tileOf s t).se, e.2.bound = false) →
        (gVal s gd).toNat % 8 = 0 → a.toNat % 64 = 0 → bindBusy s file r = false → ∀ u l, captured (flushHart s s.cur) a 8 u l → patBad l = false →
        ∃ w b, exec (.strm ga gd c q file reg dir) s = .next w ∧ (curH w).pc = (curH s).pc + 16 ∧ mfind (tileOf w t).se q.toNat = some b ∧ b.bound = true ∧ b.fabric = false ∧
          b.vfile = file ∧ b.reg = r ∧ b.write = dir ∧ b.recd = l ∧ b.hart = u.cur ∧ b.used = 0 ∧ b.pos = 0 ∧ b.data = [] ∧ b.comp = c ∧ b.gd = gVal s gd ∧
          w.agenda = u.agenda ++ [.streamEngineAccess t q.toNat])) ∧
    (mfind (tileOf s tile).se j = some e → e.bound = true → e.fabric = false → e.complete = false → e.stall = none →
      ((e.err.isSome = true ∨ patTotal e.recd ≤ e.pos) → exec (.streamEngineAccess tile j) s = .next (post s (.streamComplete tile j))) ∧
      (e.err = none → e.pos < patTotal e.recd → e.write = false → fetchRoom s e = true → ∀ u bs,
        engRead s (whoEng e tile j (.streamEngineAccess tile j)) e.sup (patAddr e.recd e.pos) (patBytes e.recd) = .ok u bs → exec (.streamEngineAccess tile j) s
          = .next (post (setEng u tile j { e with pos := e.pos + 1, data := e.data ++ [popValue e bs] }) (.streamEngineAccess tile j))) ∧
      (e.err = none → e.pos < patTotal e.recd → e.write = true → e.data ≠ [] → e.mask.headD true = false →
        exec (.streamEngineAccess tile j) s = .next (post (setEng s tile j { dropPush e [0] with pos := e.pos + 1 }) (.streamEngineAccess tile j))) ∧
      (e.err = none → e.pos < patTotal e.recd → e.write = true → e.data ≠ [] → e.mask.headD true = true →
        (nextPush e.recd e.pos e.data e.mask (pushesMore s e) = none → exec (.streamEngineAccess tile j) s = .next (post s (.streamEngineAccess tile j))) ∧
        (∀ l, nextPush e.recd e.pos e.data e.mask (pushesMore s e) = some l → ∀ u bs,
          engWrite s (whoEng e tile j (.streamEngineAccess tile j)) e.sup (pushBytes e.recd e.pos e.data l).1 (pushBytes e.recd e.pos e.data l).2 = .ok u bs →
          exec (.streamEngineAccess tile j) s
            = .next (post (setEng u tile j { dropPush e l with pos := e.pos + 1 }) (.streamEngineAccess tile j))))) ∧
    (mfind (tileOf s tile).se j = some e → e.bound = true → e.fabric = false → s.reps = [] →
      (e.complete = true → ∃ u, exec (.streamComplete tile j) s = .next u ∧ mfind (tileOf u tile).se j = some e ∧ u.agenda = s.agenda) ∧
      (e.complete = false → e.gd = 0 → e.err = none → ∃ u, exec (.streamComplete tile j) s = .next u ∧ mfind (tileOf u tile).se j = some { e with complete := true } ∧
        u.agenda = s.agenda ++ (if e.comp.add = 0 then [] else [.counterRaise e.comp.ctile.toNat e.comp.ctr.toNat (e.comp.add.setWidth 64)]))) ∧
    (mfind (tileOf s t).se q.toNat = some e → e.bound = true → e.fabric = false →
      ((bindingBusy s t q.toNat e = true ∨ useWaits s e = true) → exec (.unstrm q) s = sleeps s .drain) ∧
      (bindingBusy s t q.toNat e = false → useWaits s e = false → ∃ w b, exec (.unstrm q) s = .next w ∧ (curH w).pc = (curH s).pc + 16 ∧ mfind (tileOf w t).se q.toNat = some b ∧ b.bound = false ∧
        b.data = [] ∧ b.complete = true)) ∧
    ((mfind (tileOf s t).se q.toNat = none) → exec (.unstrm q) s = ends4 s s)

/-- R350: position n of a pattern lies where its four counts, dimension 0 innermost, and strides put it. -/
def Sys2Proof.Claims.PatternAddress : Prop :=
  ∀ (r : List Word) (i j k l : Nat), i < patCount r 0 → j < patCount r 1 → k < patCount r 2 →
    patAddr r (i + patCount r 0 * (j + patCount r 1 * (k + patCount r 2 * l)))
      = ((r.getD 0 0).setWidth 55).signExtend 64 + BitVec.ofNat 64 i * r.getD 4 0 + BitVec.ofNat 64 j * r.getD 5 0 + BitVec.ofNat 64 k * r.getD 6 0
        + BitVec.ofNat 64 l * r.getD 7 0

/-- R93, R109 to R118, R345, R353, R394: RSV holds a Cinch of its unit over a range and registers a piece a page at the homes, an awl's at the position it has (R394); URSV, behind the RSV of its unit and what its hart did before (R345), takes the unit's
pieces away; a piece becomes live when home
memory is current for all it covers, or its RSV fails against a live one or in a region of
another partition; its end lets the requests it held go. -/
def Sys2Proof.Claims.Cinches : Prop :=
  ∀ (s : State) (r : CmdRegs) (c : Comp) (esz : BitVec 3) (wr : Bool) (mode : BitVec 2) (hu gd : BitVec 5) (id : Nat) (x : PieceT),
    let t := curTile s
    let p := curPart s
    let u := hu.toNat
    let base := gVal s r.ga
    let count := (gVal s r.gc).toNat
    let w := flushHart s s.cur
    (16 ≤ u → (tileOf s t).fb ≠ some s.cur → exec (.rsv r c esz wr mode hu) s = traps s 0x0B 0 0) ∧
    (Ready s (cmdSrcs r) none → compBad s p (gVal s r.gd) c = false → unitCinch s t u = none → (u < 16 ∨ (tileOf s t).fb = some s.cur) →
      base.toNat % 2 ^ esz.toNat = 0 → (gVal s r.gb).toNat % 2 ^ esz.toNat = 0 → count < 2 ^ 32 → cinchRangeBad base (gVal s r.gb) count esz.toNat = false →
      (gVal s r.gd).toNat % 8 = 0 → portQueue s t < 16 → drained w w.cur = true →
      (∀ k, cutPages w base (gVal s r.gb) count (if wr then .write else .read) 0 count = .ok k [] → ∃ v y d, exec (.rsv r c esz wr mode hu) s = .next v ∧
        (curH v).pc = (curH s).pc + 16 ∧ v.cinches = k.cinches ++ [y] ∧ y.base = base ∧ y.stride = gVal s r.gb ∧ y.count = count ∧ y.wr = wr ∧ y.mode = mode.toNat ∧
        y.tile = t ∧ y.unit = u ∧ y.pos = (if u < 16 then 0 else min (awlPosition k t u p wr) count) ∧ (tileOf v t).cq = (tileOf k t).cq ++ [d] ∧ d.k = 3 ∧ d.begun = true ∧ v.pieces = k.pieces) ∧
      (∀ k pk n va, cutPages w base (gVal s r.gb) count (if wr then .write else .read) 0 count = .ok k [(pk, 0, n, va)] → ∃ v y, exec (.rsv r c esz wr mode hu) s = .next v ∧
        (curH v).pc = (curH s).pc + 16 ∧ v.pieces = k.pieces ++ [y] ∧ y.pk = pk ∧ y.va = va ∧ y.count = n ∧ y.wr = wr ∧ y.live = false ∧ y.tile = t ∧ y.unit = u ∧
        .pieceRegister y.id ∈ v.agenda)) ∧
    (Ready s [(gd, false)] none → compBad s p (gVal s gd) c = false → (gVal s gd).toNat % 8 = 0 → portQueue s t < 16 →
      ∃ v d, exec (.ursv gd c hu) s = .next v ∧ (curH v).pc = (curH s).pc + 16 ∧
        (tileOf v t).cq = (tileOf s t).cq ++ [d] ∧ d.k = 4 ∧ d.param = u ∧ d.begun = false ∧ v.pieces = s.pieces ∧ v.agenda = s.agenda ++ [.commandComplete t s.nextId]) ∧
    (∀ n d, cmdOf s t n = some d → d.k = 4 → d.begun = false → d.stall = none →
      (ursvWaits s d = true → exec (.commandComplete t n) s = .next (post (flushBefore s d.hart d.id) (.commandComplete t n))) ∧
      (ursvWaits s d = false → ∃ v, exec (.commandComplete t n) s = .next v ∧ v.pieces = s.pieces ∧
        v.agenda = s.agenda ++ (s.pieces.filter fun y => y.tile == d.tile && y.unit == d.param && y.part == d.part).map (fun y => Event.pieceEnd y.id)
          ++ [.commandComplete d.tile d.id])) ∧
    (pieceOf s id = some x →
      exec (.pieceEnd id) s = .next { s with pieces := s.pieces.filter (fun y => y.id != id), agenda := x.held.map (·.2.1) ++ s.agenda } ∧
      (x.live = true → exec (.pieceRegister id) s = .next s) ∧
      (x.live = false → ((s.pieces.takeWhile fun y => y.id != id).filter fun y => granStack (y.pk / 128) == granStack (x.pk / 128)).length < 1024 →
        ((pieceGrans x).all (regionOk s x.part) = false → exec (.pieceRegister id) s = .next (rsvFail (logHome s x.part x.pk) x 5 4)) ∧
        ((pieceGrans x).all (regionOk s x.part) = true →
          (s.pieces.any fun y => y.live && (y.wr || x.wr) && (pieceGrans x).any (covers y)) = true → exec (.pieceRegister id) s = .next (rsvFail s x 8 0)) ∧
        ((pieceGrans x).all (regionOk s x.part) = true → (s.pieces.any fun y => y.live && (y.wr || x.wr) && (pieceGrans x).any (covers y)) = false →
          (∀ g ∈ pieceGrans x, mfind s.txns g = none ∧ dirOf s g = none) → ∃ v, exec (.pieceRegister id) s = .next v ∧
            pieceOf v id = some { x with live := true, held := [] } ∧ (∀ a, homeByte v a = homeByte s a))))

/-- R115, R119: a query is answered with the holder's position, or for a watch once the position has passed it; the answer frees the lines below the position, and the held requests
for them, and sets a watch at the least last touch of those that stay held. -/
def Sys2Proof.Claims.PositionQueries : Prop :=
  ∀ (s : State) (id pos n : Nat) (x : PieceT), pieceOf s id = some x →
    let p := match s.cinches.find? fun y => y.id == x.cinch with | some y => y.pos | none => x.first + x.count
    let answer := post (useCircuit s x.tile (granDie (x.pk / 128))) (.positionAnswer id p)
    exec (.positionQuery id none) s = .next answer ∧ (n < p → exec (.positionQuery id (some n)) s = .next answer) ∧
    (p ≤ n → exec (.positionQuery id (some n)) s = .next (post s (.positionQuery id (some n)))) ∧
    (∃ t y, exec (.positionAnswer id pos) s = .next t ∧ pieceOf t id = some y ∧ y.query = false ∧
      (∀ g, covers y g = true ↔ covers x g = true ∧ ∀ i, pieceTouch x g = some i → pos ≤ x.first + i) ∧
      (∀ e ∈ x.held, covers y e.1 = false → e.2.1 ∈ t.agenda) ∧ (∀ e ∈ y.held, covers y e.1 = true) ∧
      (∀ m, y.watch = some m → .positionQuery id (some m) ∈ t.agenda ∧ ∀ e ∈ y.held, ∀ i, pieceTouch x e.1 = some i → m ≤ x.first + i) ∧
      (y.watch = none → ∀ e ∈ y.held, pieceTouch x e.1 = none))


namespace Sys2Proof.Claims
open Sys2Proof Sys2Proof.Machine

/-! ## Walkers, swaps, slots and coherence -/

/-- The walker's choice among its stack's nests is nest k with its next point on hart h of tile t with lane groups g. -/
abbrev onlyChoice (s : State) (st k : Nat) (n : Node) (t h : Nat) (g : BitVec 4) : Prop :=
  endedNests s st = [] ∧ taintedNode s st = none ∧ stackNests s st = [(k, n)] ∧ emptyNest s n = false ∧ pointsLeft n = true ∧
  findPlace s [(k, n)] k n = some (t, h, g) ∧ t < 512

/-- The granule's home serves request e at once. -/
abbrev served (s : State) (a gk : Nat) (wr : Bool) (e : Event) : Prop := gate s a gk wr e = .pass

/-- s with a transaction of the given kind for granule gk that waits for the answers of due. -/
def begun (s : State) (gk kind req : Nat) (due : List Nat) : State :=
  { s with txns := mput s.txns gk { kind, req, due, putm := false, leave := [] } }

end Sys2Proof.Claims

/-- R187, R204 to R206: a walker that has one nest with points left, and a place for its next one, hands that point out: the hart stands at the nest's entry with its indices, its
argument and its grants; with nothing it may dispatch it stops. -/
def Sys2Proof.Claims.Dispatch : Prop :=
  ∀ (s : State) (st k t h : Nat) (n : Node) (g : BitVec 4),
    (onlyChoice s st k n t h g → asideWanted (handOut s k n t h g) st = [] → endedNests (handOut s k n t h g) st = [] →
      exec (.dispatchDecision st) s = .next (postOnce (handOut s k n t h g) (.dispatchDecision st))) ∧
    (endedNests s st = [] → taintedNode s st = none → (∀ q ∈ stackNests s st, emptyNest s q.2 = false ∧ pointsLeft q.2 = false) → asideWanted s st = [] →
      exec (.dispatchDecision st) s = .next s) ∧
    (endedNests s st = [] → taintedNode s st = some k → asideWanted (completeNode s k true) st = [] → endedNests (completeNode s k true) st = [] →
      exec (.dispatchDecision st) s = .next (postOnce (completeNode s k true) (.dispatchDecision st)))

/-- R187: a point as its hart begins it: RUNNING in user mode at the nest's pc, its indices in g1 to g4 and ix, the argument pointer in g5 and the address of the nest's completion
stamp in g6; its other general registers, its formats, tables, flags, watermarks and bases 0, its vector length, its request of one, vfill, vrs and vcsr 0, vrc 1 and vtype 0xC0
(R291), no monitor armed, with its lane groups and its grants; the nest counts it. -/
def Sys2Proof.Claims.PointEntry : Prop :=
  ∀ (s : State) (k t h : Nat) (n : Node) (lanes : BitVec 4),
    let u := handOut s k n t h lanes
    let x := hartOf u h
    let ix (d : Nat) : Word := BitVec.ofNat 64 ((nestPoint n.recd n.nextP).getD d 0)
    x.st = .running ∧ x.sup = false ∧ x.pc = ((n.recd.getD 0 0).setWidth 55).signExtend 64 ∧ x.v.lanes = lanes ∧ x.v.vtype = 0xC0 ∧ x.point = some ⟨some k, n.level⟩ ∧
    mgetD x.g 1 0 = ix 0 ∧ mgetD x.g 2 0 = ix 1 ∧ mgetD x.g 3 0 = ix 2 ∧ mgetD x.g 4 0 = ix 3 ∧ mgetD x.g 5 0 = n.recd.getD 1 0 ∧
    mgetD x.g 6 0 = ((n.recd.getD 2 0).setWidth 55).signExtend 64 ∧ (∀ r, 7 ≤ r → mgetD x.g r 0 = 0) ∧ (∀ d < 4, mgetD x.ix d 0 = ix d) ∧ x.gEmpty = [] ∧ x.gFault = [] ∧ x.sb = [] ∧
    x.fcsr = 0 ∧ x.v.vcsr = 0 ∧ x.v.vl = 0 ∧ x.v.vlreq = 0 ∧ x.v.vrc = 1 ∧ x.v.vfill = 0 ∧ x.v.vrs = 0 ∧ x.monitor = none ∧
    (∀ i, mgetD x.fmt i 0 = 0 ∧ mgetD x.ctab i 0 = 0 ∧ mgetD x.wm i 0 = 0 ∧ mgetD x.wmb i 0 = 0) ∧
    (needMx n = true → (tileOf u t).mx = some h) ∧ (needFb n = true → (tileOf u t).fb = some h) ∧
    nodeAt u k = some { n with st := .running, nextP := n.nextP + 1, live := n.live + 1, lastTile := t, pass := 0 }

/-- R197, R205: in an order other than Morton's, the points of a nest are the index tuples within its bounds, each handed out once; the dimension that the order or
PERM names first runs fastest. -/
def Sys2Proof.Claims.PointOrder : Prop :=
  ∀ (r : List Word),
    let w8 := r.getD 8 0
    let first := if bits w8 3 2 = 0 then nestDims r - 1 else if bits w8 3 2 = 1 then 0 else bits w8 5 4
    (bits w8 3 2 < 2 ∨ (bits w8 3 2 = 3 ∧ permOk w8.toNat (nestDims r) = true)) →
    (∀ k < nestPoints r, ∀ d < nestDims r, (nestPoint r k).getD d 0 < nestBound r d) ∧
    (∀ j < nestPoints r, ∀ k < nestPoints r, nestPoint r j = nestPoint r k → j = k) ∧
    (∀ k, k + 1 < nestPoints r → (k + 1) % nestBound r first ≠ 0 → nestPoint r (k + 1) = (nestPoint r k).set first ((nestPoint r k).getD first 0 + 1))

/-- R202, R203: freed entries go to stalled requests in arrival order; a stalled point that may be set aside, 4,096 clocks after it stalled and with nothing under way, goes into the slot of
its depth and frees its hart; its request takes an entry there in its turn, as captured, and it resumes as it was once that is done and a hart and its grants are free. -/
def Sys2Proof.Claims.StalledPoints : Prop :=
  ∀ (s : State) (st lvl h tile d : Nat) (p : Point) (a : Aside),
    (mgetD (stackOf s st).stalls lvl [] = [h] → h < 2 ^ 16 → levelUsed s st lvl < 128 → ∃ t, exec (.poolEntryTaken st lvl) s = .next t ∧
      (hartOf t h).wait = (if (hartOf s h).wait = .pool then .none else (hartOf s h).wait) ∧ { hartOf t h with wait := (hartOf s h).wait } = hartOf s h) ∧
    ((mayAside s h = false ∨ s.clock < (hartOf s h).prog + 4096) → (tileOf s (h / 16)).fb ≠ some h → exec (.pointSetAside h) s = .next s) ∧
    (mayAside s h = true → (hartOf s h).prog + 4096 ≤ s.clock → (hartOf s h).point = some p →
      let w := if (tileOf s (h / 16)).fb = some h then freezeTile (flushHart s h) (h / 16) else flushHart s h
      (asideReady w h = false → exec (.pointSetAside h) s = .next (postOnce w (.pointSetAside h))) ∧
      ((hartOf w h).point = some p → asideReady w h = true →
        ∃ t b, exec (.pointSetAside h) s = .next t ∧ hartOf t h = Hart.init ∧ mfind (tileOf t (h / 16)).aside p.depth = some b ∧
          b.hart = { hartOf w h with monitor := (hartOf w h).monitor.map (fun m => { m with notified := true }) } ∧ b.num = h ∧
          (tileOf t (h / 16)).mx = (if (tileOf w (h / 16)).mx = some h then none else (tileOf w (h / 16)).mx))) ∧
    (∀ n k, lvl = d + 1 → d < 8 → tile < 512 → mfind (tileOf s tile).aside d = some a → a.hart.req = some n → footFull s n = false → freeEntry s st lvl = some k →
      mgetD (stackOf s st).stalls lvl [] = [asideKey tile d] → levelUsed s st lvl < 128 → ∃ t b m, exec (.poolEntryTaken st lvl) s = .next t ∧
        mfind (tileOf t tile).aside d = some b ∧ b.hart = { a.hart with req := none, taken := true, stalled := false, prog := 0 } ∧
        nodeAt t k = some m ∧ m.addr = n.addr ∧ m.recd = n.recd ∧ .pointRestore tile d ∈ t.agenda) ∧
    (mfind (tileOf s tile).aside d = some a → a.hart.taken = false → exec (.pointRestore tile d) s = .next s) ∧
    (mfind (tileOf s tile).aside d = some a → a.hart.taken = true → restoreFits s tile a = none →
      exec (.pointRestore tile d) s = .next (postOnce s (.pointRestore tile d))) ∧
    (mfind (tileOf s tile).aside d = some a → a.hart.taken = true → restoreFits s tile a = some h → a.hart.sb = [] → a.pend = [] → (∀ q ∈ s.pend, q.hart ≠ h) →
      ∃ t, exec (.pointRestore tile d) s = .next t ∧ hartOf t h = { a.hart with wait := .none } ∧ mfind (tileOf t tile).aside d = none ∧
        (a.mx = true → (tileOf t tile).mx = some h ∧ (tileOf t tile).acc = a.acc))

/-- R211, R443: a lane step takes effect on its tile, and is counted and logged, with data that are the model's choice (notes/assumptions/29.md); the thermal halt halts every partition that runs with exit code 0xFFFF_FFFF. -/
def Sys2Proof.Claims.PowerSteps : Prop :=
  ∀ (s : State) (tile lanes p : Nat),
    (lanes ∈ [64, 48, 32, 16] → tile < 512 → (tileOf s tile).laneStep ≠ lanes → ∃ t, exec (.laneStepChange tile lanes) s = .next t ∧ (tileOf t tile).laneStep = lanes ∧
      bits (ctlWord t 0x0C004000) 51 20 = (bits (ctlWord s 0x0C004000) 51 20 + 1) % 2 ^ 32 ∧ { tileOf t tile with laneStep := (tileOf s tile).laneStep } = tileOf s tile ∧
      ∃ e, (mgetD t.boxes (tile / 128) []).head? = some e ∧ e.kind = 9 ∧ e.data = lanes) ∧
    ((lanes ∉ [64, 48, 32, 16] ∨ 512 ≤ tile) → exec (.laneStepChange tile lanes) s = .next s) ∧
    (p < 64 → ∃ t, exec .thermalHalt s = .next t ∧ ptState t p = (if ptState s p = 1 then 2 else ptState s p) ∧
      (ptState s p = 1 → Out.exit p 0xFFFFFFFF ∈ t.out ∧ ptWord t p 3 = 0xFFFFFFFF))

/-- R208, R209, R425: a region's quantum, once its clocks have run out, and management at any time, begin the swap to the next partition that shares the region, or a new quantum where there
is none; the swap waits until nothing of the running partition is under way on the region's tiles and in their caches, which it empties, then changes the contexts and begins the next quantum. That it empties the caches
(notes/assumptions/40.md) and which partition comes next (notes/assumptions/42.md) are the model's choices. -/
def Sys2Proof.Claims.Quanta : Prop :=
  ∀ (s : State) (r q : Nat),
    let x := regionOf s r
    let p := x.running - 1
    ((x.running = 0 ∨ x.halting = true) → exec (.quantumExpiry r) s = .next s ∧ exec (.managementSwap r) s = .next s) ∧
    (x.running ≠ 0 → x.halting = false →
      (s.clock < x.ends → exec (.quantumExpiry r) s = .next (postOnce s (.quantumExpiry r))) ∧
      (nextPart s r p = some q →
        exec (.managementSwap r) s = .next (postOnce (setRegion s r { x with halting := true }) (.contextSwapBegin r)) ∧
        (x.ends ≤ s.clock → exec (.quantumExpiry r) s = .next (postOnce (setRegion s r { x with halting := true }) (.contextSwapBegin r)))) ∧
      (nextPart s r p = none → exec (.managementSwap r) s = .next (startQuantum s r p) ∧ (x.ends ≤ s.clock → exec (.quantumExpiry r) s = .next (startQuantum s r p)))) ∧
    (x.halting = true →
      (∃ t, exec (.contextSwapBegin r) s = .next t ∧ .contextSwapComplete r ∈ t.agenda) ∧
      (((regionTiles s r).all fun t => tileQuiet s t p && cachesQuiet s t) = false → exec (.contextSwapComplete r) s = .next (postOnce s (.contextSwapComplete r))) ∧
      (((regionTiles s r).all fun t => tileQuiet s t p && cachesQuiet s t) = true → nextPart s r p = some q → q ≠ p →
        let k := startQuantum ((regionTiles s r).foldl (fun s t => restoreTile (saveTile (flushTile s t) p t) q t) s) r q
        exec (.contextSwapComplete r) s
          = .next ((List.range 4).foldl (fun s j => postOnce s (.dispatchDecision j)) ((regionTiles s r).foldl (fun s t => resumeTile s t q) k)) ∧
        regionOf k r = { running := q + 1, halting := false, ends := s.clock + quantumOf s q }))

/-- R426, R427: saving a partition's context on a tile and restoring it gives each of its harts back as it was: before the word it stopped at, with its registers. -/
def Sys2Proof.Claims.SavedContext : Prop :=
  ∀ (s : State) (p t h : Nat), h / 16 = t → (∃ x, mfind s.harts h = some x) → (hartOf s h).wait ≠ .yielding → (hartOf s h).stalled = false →
    let k := restoreTile (saveTile s p t) p t
    let x := hartOf s h
    hartOf k h = { x with wait := .none, monitor := none, conv := none, req := none } ∧
    (tileOf k t).v = (tileOf s t).v ∧ (tileOf k t).m = (tileOf s t).m ∧ (tileOf k t).t = (tileOf s t).t ∧ (tileOf k t).acc = (tileOf s t).acc ∧
    (tileOf k t).tcfg = (tileOf s t).tcfg ∧ (tileOf k t).vEmpty = (tileOf s t).vEmpty ∧ (tileOf k t).mx = (tileOf s t).mx ∧ (tileOf k t).posts = (tileOf s t).posts ∧
    (tileOf (saveTile s p t) t).acc = [] ∧ hartOf (saveTile s p t) h = Hart.init

/-- R60, R77, R78, R286, R287: VCDEF is the supervisor's; it refuses reserved operands and records it may not install, waits while the slot changes, and installs at once into a slot that holds
nothing, by a migration where shapes agree, else after a drain; removal drains. VCQRY reads the slot word: its register is empty until the word returns (R175). -/
def Sys2Proof.Claims.SlotInstructions : Prop :=
  ∀ (s : State) (g h : BitVec 5) (u : State) (r : List Word),
    let q := gVal s h
    let a := gVal s g
    let p := curPart s
    let v := q.toNat % 64
    let srcs := [(g, false), (h, false)]
    let w := flushHart s s.cur
    ((curH s).sup = false → exec (.vcdef g h) s = traps s 0x02 0 0) ∧
    ((curH s).sup = true → Ready s srcs none →
      ((q.toNat / 64 % 4 ≠ 0 ∨ 512 ≤ q.toNat) → exec (.vcdef g h) s = traps s 0x0B 0 0) ∧
      (q.toNat / 64 % 4 = 0 → 256 ≤ q.toNat → q.toNat < 512 →
        (v = 0 → exec (.vcdef g h) s = traps s 0x0B 0 0) ∧
        (v ≠ 0 → slotBusy (slotOf s p v) = true → exec (.vcdef g h) s = sleeps s .slot) ∧
        (v ≠ 0 → slotBusy (slotOf s p v) = false → exec (.vcdef g h) s = ends s (slotChange (popSrcs s srcs) p v none))) ∧
      (q.toNat < 64 → a.toNat % 64 ≠ 0 → exec (.vcdef g h) s = traps s 0x03 0 a) ∧
      (q.toNat < 64 → a.toNat % 64 = 0 → captured w a 8 u r →
        ((recordFieldsBad v r = true ∨ recordForeign u p r = false ∧ (recordShapeBad r = true ∨ recordTaken u p v r = true ∨ recordOffline u r = true)) →
          exec (.vcdef g h) s = .next (takeTrap u 0x0B 0 a (curH s).pc)) ∧
        (recordFieldsBad v r = false → recordForeign u p r = true → exec (.vcdef g h) s = .next (takeTrap (logTile u (curTile u) p a.toNat) 0x0B 0 a (curH s).pc)) ∧
        (recordFieldsBad v r = false → recordForeign u p r = false → recordShapeBad r = false → recordTaken u p v r = false → recordOffline u r = false →
          ((slotBusy (slotOf u p v) = true ∨ recordWaits u p v r = true) → exec (.vcdef g h) s = .next (setCur u { curH u with wait := .slot })) ∧
          (slotBusy (slotOf u p v) = false → recordWaits u p v r = false → exec (.vcdef g h) s = ends s (slotChange (popSrcs u srcs) p v (some r)))))) ∧
    (Ready s [(h, false)] (some g) →
      (64 ≤ q.toNat → exec (.vcqry g h) s = traps s 0x0B 0 0) ∧
      (q.toNat < 64 →
        let x : Pend :=
          { id := s.nextId, hart := s.cur, op := none, pieces := [], va := 0, dest := .g (gkey (curH s).sup g) 8 false, chk := false
            ord := order s false false false, query := some v }
        (∃ t, exec (.vcqry g h) s = .next t ∧ GoesOn s s t ∧ (g ≠ 0 → gkey (curH s).sup g ∈ (curH t).gEmpty) ∧ t.pend = s.pend ++ [x] ∧
          t.agenda = s.agenda ++ [.loadDataReturn s.nextId]) ∧
        (∀ k, tilePart k (s.cur / 16) = some p → perform k x = .ok k (leBytes 8 (slotWord k (slotOf k p v)).toNat))))

/-- R77, R78: the transitions a VCDEF begins, by the state of a slot that does not change already. -/
def Sys2Proof.Claims.SlotTransitions : Prop :=
  ∀ (s : State) (p v : Nat) (r : List Word),
    let x := slotOf s p v
    ((x.st = .empty ∨ x.st = .faulted) → slotOf (slotChange s p v (some r)) p v = { Slot.init with st := .active, recd := r } ∧
      slotOf (slotChange s p v none) p v = Slot.init) ∧
    (x.st = .active → sameShape x.recd r = true → (slotOf (slotChange s p v (some r)) p v).st = .migrating ∧ (slotOf (slotChange s p v (some r)) p v).newRecd = r ∧
      (slotOf (slotChange s p v (some r)) p v).recd = x.recd ∧ .migrationSweep p v ∈ (slotChange s p v (some r)).agenda) ∧
    (x.st = .active → sameShape x.recd r = false → slotOf (slotChange s p v (some r)) p v = { x with st := .draining, newRecd := r, pending := true } ∧
      .drainSweep p v ∈ (slotChange s p v (some r)).agenda) ∧
    (x.st = .active → slotOf (slotChange s p v none) p v = { x with st := .draining, removing := true } ∧ .drainSweep p v ∈ (slotChange s p v none).agenda)

/-- R80 to R86: the steps of a migration and of a drain: position after position of the old placement is visited, a line moved or left; with no line left in the old placement the new record is
in force; a drain takes line after line out, and then the removal, or the install, takes effect. A waiting VCDEF is tried again. -/
def Sys2Proof.Claims.SlotSteps : Prop :=
  ∀ (s : State) (p v h : Nat),
    let x := slotOf s p v
    exec (.vcdefProceed h) s = .next (if (hartOf s h).wait = .slot then setHart s h { hartOf s h with wait := .none } else s) ∧
    (x.st = .migrating → recBytes x.recd / recLine x.recd ≤ x.sweep → exec (.migrationSweep p v) s = .next (post s (.migrationEnd p v))) ∧
    (x.st = .migrating → x.sweep < recBytes x.recd / recLine x.recd → mfind x.lines (locIn (recShares x.recd) (x.sweep * recLine x.recd)) = none →
      exec (.migrationSweep p v) s = .next (post (setSlot s p v { x with sweep := x.sweep + 1 }) (.migrationSweep p v))) ∧
    (∀ y, x.st = .migrating → x.sweep < recBytes x.recd / recLine x.recd → mfind x.lines (locIn (recShares x.recd) (x.sweep * recLine x.recd)) = some y →
      y.newmap = false → y.mv = none → lineLive s (recLine x.recd) (locIn (recShares x.recd) (x.sweep * recLine x.recd)) y = true →
      lineStable s (recLine x.recd) (locIn (recShares x.recd) (x.sweep * recLine x.recd)) y = true →
      (let k := moveLine s p v (locIn (recShares x.recd) (x.sweep * recLine x.recd)) y
       exec (.migrationSweep p v) s = .next (post (setSlot k p v { slotOf k p v with sweep := x.sweep + 1 }) (.migrationSweep p v)))) ∧
    (x.st = .migrating → (∀ y ∈ x.lines, y.2.mv = none ∧ y.2.newmap = true) → ∃ t, exec (.migrationEnd p v) s = .next t ∧ (slotOf t p v).st = .active ∧
      (slotOf t p v).recd = x.newRecd ∧ ((slotOf t p v).lines.map fun y => (y.1, y.2.addr)) = (x.lines.map fun y => (y.1, y.2.addr))) ∧
    ((x.st = .draining ∨ x.st = .faulted) → x.lines = [] → exec (.drainSweep p v) s = .next (post s (.drainDone p v)) ∧
      (x.removing = true → ∃ t, exec (.drainDone p v) s = .next t ∧ slotOf t p v = Slot.init) ∧
      (x.removing = false → x.pending = true → recordOffline s x.newRecd = false → recordForeign s p x.newRecd = false → ∃ t, exec (.drainDone p v) s = .next t ∧
        slotOf t p v = { Slot.init with st := .active, recd := x.newRecd }) ∧
      (x.removing = false → x.pending = true → (recordOffline s x.newRecd = true ∨ recordForeign s p x.newRecd = true) →
        ∃ t, exec (.drainDone p v) s = .next t ∧ slotOf t p v = { x with pending := false, newRecd := [] }) ∧
      (x.removing = false → x.pending = false → ∃ t, exec (.drainDone p v) s = .next t ∧ slotOf t p v = x)) ∧
    (∀ loc y, (x.st = .draining ∨ x.st = .faulted) → (x.lines.find? fun (loc, y) => y.mv.isNone && y.cb == 0 && !lineLive s (recLine x.recd) loc y) = some (loc, y) →
      exec (.drainSweep p v) s = .next (post (setLines s p v (mdel x.lines loc)) (.drainSweep p v))) ∧
    (∀ loc y, (x.st = .draining ∨ x.st = .faulted) → (x.lines.find? fun (loc, y) => y.mv.isNone && y.cb == 0 && !lineLive s (recLine x.recd) loc y) = none →
      (x.lines.find? fun (loc, y) => lineStable s (recLine x.recd) loc y) = some (loc, y) →
      exec (.drainSweep p v) s = .next (post (evictLine s p v loc) (.drainSweep p v)))

/-- R82, R108: a move notice finds an entry that names the old agent and names the new one instead; otherwise, and while the granule is busy or its entry cannot be read (R108), it is refused; its acknowledgement passes the copy, a
refusal leaves it. -/
def Sys2Proof.Claims.MoveNotices : Prop :=
  ∀ (s : State) (p v gk a b : Nat) (dirty : Bool) (d : DirE),
    ((dirOf s gk = none ∨ (mfind s.txns gk).isSome = true ∨ s.fenced.contains a = true) → exec (.move p v gk a b dirty) s = .next (post s (.mnak p v gk))) ∧
    (dirOf s gk = some d → mfind s.txns gk = none → s.fenced.contains a = false → vote d = none →
      exec (.move p v gk a b dirty) s = .next (post (machineCheck s (granStack gk)) (.mnak p v gk))) ∧
    (dirOf s gk = some d → mfind s.txns gk = none → s.fenced.contains a = false → vote d ≠ none → d.bad = true →
      exec (.move p v gk a b dirty) s = .next (post (recallBad s gk d) (.mnak p v gk))) ∧
    (dirOf s gk = some d → mfind s.txns gk = none → s.fenced.contains a = false → vote d ≠ none → d.bad = false →
      (names d a = false → exec (.move p v gk a b dirty) s = .next (post s (.mnak p v gk))) ∧
      (d.coarse = false → d.ptrs = [a] → exec (.move p v gk a b dirty) s = .next (post (setDir s gk { d with ptrs := [b] }) (.mack p v gk))) ∧
      (d.coarse = true → names d a = true → exec (.move p v gk a b dirty) s = .next (post (setDir s gk (coarseAdd d b)) (.mack p v gk)))) ∧
    (movingLine (slotOf s p v) gk = none → exec (.mack p v gk) s = .next s ∧ exec (.mnak p v gk) s = .next s) ∧
    (∀ loc n y, movingLine (slotOf s p v) gk = some (loc, n, y) →
      exec (.mack p v gk) s = .next (endMove (passCopy s (agentOfLoc loc) (agentOfLoc n) gk) p v loc n y) ∧ exec (.mnak p v gk) s = .next (endMove s p v loc n y)) ∧
    (∀ c, copyOf s a gk = some c → a ≠ b → a < 2 ^ 10 → b < 2 ^ 10 → gk < 2 ^ 46 → copyOf (passCopy s a b gk) b gk = some c ∧ copyOf (passCopy s a b gk) a gk = none)

/-- R55, R85: a corrected bank error is logged; an uncorrectable one takes the segment offline, once, with every share that includes it. The address and the data of its entry are the model's choice
(notes/assumptions/29.md). -/
def Sys2Proof.Claims.BankErrors : Prop :=
  ∀ (s : State) (bank seg : Nat),
    (∃ t e, exec (.correctedBankError bank seg) s = .next t ∧ (mgetD t.boxes (bankDie bank) []).head? = some e ∧ e.kind = 1 ∧ { t with boxes := s.boxes, boxN := s.boxN } = s) ∧
    (s.offline.contains (bank * 16 + seg) = true → exec (.uncorrectableBankError bank seg) s = .next s) ∧
    (s.offline.contains (bank * 16 + seg) = false → (∀ q ∈ s.parts, q.2.slots = []) → ∃ t e, exec (.uncorrectableBankError bank seg) s = .next t ∧
      t.offline = (bank * 16 + seg) :: s.offline ∧ (mgetD t.boxes (bankDie bank) []).head? = some e ∧ e.kind = 2) ∧
    (∀ p x v y, s.offline.contains (bank * 16 + seg) = false → s.parts = [(p, x)] → x.slots = [(v, y)] → exec (.uncorrectableBankError bank seg) s
      = .next (shareOffline { boxAdd s (bankDie bank) 2 ((segOwner s bank seg).getD 0) 0 0 with offline := (bank * 16 + seg) :: s.offline } p v bank seg s.offline false)) ∧
    (∀ p v off r, sharesOf (slotOf s p v) (bank * 16 + seg) = [] → shareOffline s p v bank seg off r = s)


namespace Sys2Proof.Claims
open Sys2Proof Sys2Proof.Machine

/-! ## Vector instructions -/

/-- The register sources of vector word x. -/
def vSrcs (s : State) (x : VW) : List VSrc :=
  let c := vcOf (curH s) (tileOf s (curTile s))
  vSources x c.rows c.ew ((gVal s x.b).toNat % 8)

/-- What vector word x sees as it issues: its thread and the register files, the next positions of streams bound to its sources among them (R291, R351). -/
def seen (s : State) (x : VW) : VC :=
  let c := vcOf (curH s) (tileOf s (curTile s))
  { c with t := popTile s c (vSrcs s x) }

/-- Rows 2 and 6 to 8 of R247 let x issue alone: its feature is on, it has lanes, its sources are full, its destination is full, its types and operand values are
legal; nothing it reads is marked faulted (R314); and no load of it is being collected. -/
abbrev Issues (s : State) (x : VW) : Prop :=
  vGated s x = false ∧ vPre s x false = none ∧ vMark s x (seen s x) (vSrcs s x) (gVal s x.b) = none ∧ (curH s).conv = none

/-- The state after x has written r, with the stream positions of its sources used up. -/
def after (s : State) (x : VW) (r : VRes) : State := vCommit (popAll s x (seen s x) (vSrcs s x)) x (seen s x) r

/-- The hart goes on after len bytes of vector words that left state k. -/
def goesOn (s k : State) (len : Nat) : Answer := .next (goTo (setCur k { curH k with conv := none }) ((curH s).pc + BitVec.ofNat 64 len))

/-- x alone writes r. -/
def vDone (s : State) (x : VW) (r : VRes) : Answer := goesOn s (after s x r) 4

/-- The positions of a sweep that mask field k leaves active, row by row (R173, R292). -/
def active (c : VC) (k : BitVec 3) : List (Nat × Nat) :=
  ((List.range c.rows).flatMap fun r => (List.range c.vl).map fun i => (r, i)).filter fun p => k == 0 || mBit c.t c.l k.toNat p.1 p.2

/-- Each active position's element is f of its row and index, with flags (R173, R296). -/
def lanes (c : VC) (k : BitVec 3) (f : Nat → Nat → Nat × Nat) : VRes :=
  .elems c.ew ((active c k).map fun p => ⟨p.1, p.2, (f p.1 p.2).1, (f p.1 p.2).2⟩)

/-- An element of a register, and operand b, which S makes a g register (R295). -/
def el (c : VC) (r : BitVec 5) (row i : Nat) : BitVec c.ew := BitVec.ofNat c.ew (vElem c.t c.l r.toNat row c.ew i)
def opb (s : State) (c : VC) (b : BitVec 5) (u : Bool) (row i : Nat) : BitVec c.ew := if u then BitVec.ofNat c.ew (gVal s b).toNat else el c b row i

/-- func6 of a function with its S bit. -/
def sBit (fn : Nat) (u : Bool) : Nat := fn + (if u then 32 else 0)

/-- An integer function of elements a, b and the old d, with whether it saturated. -/
def IntRule (i : BitVec 5 → BitVec 5 → BitVec 5 → BitVec 3 → Bool → Bool → Bool → Instr) (fn : Nat)
    (f : (n : Nat) → BitVec n → BitVec n → BitVec n → BitVec n × Bool) : Prop :=
  ∀ (s : State) (d a b : BitVec 5) (k : BitVec 3) (t u : Bool),
    let x : VW := ⟨0x21, d, a, b, k, t, sBit fn u⟩
    let c := seen s x
    Issues s x → exec (i d a b k false t u) s = vDone s x (lanes c k fun r j =>
      let y := f c.ew (el c a r j) (opb s c b u r j) (el c d r j)
      (y.1.toNat, if y.2 then 32 else 0))

/-- A value clamped to n bits, signed or unsigned. -/
def satS (n : Nat) (v : Int) : BitVec n × Bool :=
  if 2 ^ (n - 1) - 1 < v then (BitVec.ofInt n (2 ^ (n - 1) - 1), true) else if v < -2 ^ (n - 1) then (BitVec.ofInt n (-2 ^ (n - 1)), true) else (BitVec.ofInt n v, false)
def satU (n : Nat) (v : Int) : BitVec n × Bool :=
  if 2 ^ n ≤ v then (BitVec.ofInt n (2 ^ n - 1), true) else if v < 0 then (0, true) else (BitVec.ofInt n v, false)

/-- A floating-point function of elements as the element type and FTZI read them. -/
def FpRule (i : BitVec 5 → BitVec 5 → BitVec 5 → BitVec 3 → Bool → Bool → Bool → Instr) (fn : Nat) (h : VC → FFmt → Fp → Fp → Fp → Nat × Nat) : Prop :=
  ∀ (s : State) (d a b : BitVec 5) (k : BitVec 3) (t u : Bool) (f : FFmt),
    let x : VW := ⟨0x22, d, a, b, k, t, sBit fn u⟩
    let c := seen s x
    Issues s x → ieeeAt c.ew c.fsel = some f → exec (i d a b k false t u) s = vDone s x (lanes c k fun r j =>
      h c f (f.get c.ftzi (el c a r j).toNat) (f.get c.ftzi (opb s c b u r j).toNat) (f.get c.ftzi (el c d r j).toNat))
/-- The same of one operand: majors 0x22 and 0x23. -/
def FpRule1 (i : BitVec 5 → BitVec 5 → BitVec 3 → Bool → Bool → Instr) (maj fn : Nat) (h : VC → FFmt → Nat → Nat × Nat) : Prop :=
  ∀ (s : State) (d a : BitVec 5) (k : BitVec 3) (t : Bool) (f : FFmt),
    let x : VW := ⟨maj, d, a, 0, k, t, fn⟩
    let c := seen s x
    Issues s x → ieeeAt c.ew c.fsel = some f → exec (i d a k false t) s = vDone s x (lanes c k fun r j => h c f (el c a r j).toNat)

/-- A result rounded once in the thread's mode, with its flags (R297). -/
def vput (c : VC) (f : FFmt) (x : Fp × Nat) : Nat × Nat := ((f.put c.mode c.ftzo x.1).1, (f.put c.mode c.ftzo x.1).2 ||| x.2)

/-- Bits of a mask register at the active positions (R302, R303). -/
def bitsAt (c : VC) (k : BitVec 3) (f : Nat → Nat → Bool × Nat) : VRes :=
  .mask ((active c k).map fun p => (p.1, p.2, (f p.1 p.2).1)) ((active c k).foldl (fun a p => a ||| (f p.1 p.2).2) 0)

def icond (n : Nat) {w : Nat} (x y : BitVec w) : Bool :=
  match n with
  | 0 => x = y
  | 1 => x ≠ y
  | 2 => x.toInt < y.toInt
  | 3 => x.toInt ≤ y.toInt
  | 4 => y.toInt < x.toInt
  | 5 => y.toInt ≤ x.toInt
  | 6 => x.toNat < y.toNat
  | _ => x.toNat ≤ y.toNat

/-- Conditions 0 and 1, and unordered, raise NV for a signalling NaN; the ordered ones for any. -/
def fcond (n : Nat) (x y : Fp) : Bool × Nat :=
  let any := if x.isNan ∨ y.isNan then 1 else 0
  match n with
  | 0 => (fpEq x y, sig2 x y)
  | 1 => (!fpEq x y, sig2 x y)
  | 2 => (fpLt x y, any)
  | 3 => (fpLt x y || fpEq x y, any)
  | 4 => (fpLt y x, any)
  | 5 => (fpLt y x || fpEq x y, any)
  | _ => (x.isNan || y.isNan, sig2 x y)

/-- A mask instruction of masks a and b. -/
def MaskRule (i : BitVec 5 → BitVec 5 → BitVec 5 → BitVec 3 → Bool → Bool → Instr) (fn : Nat) (f : Bool → Bool → Bool) : Prop :=
  ∀ (s : State) (d a b : BitVec 5) (k : BitVec 3) (t : Bool),
    let x : VW := ⟨0x25, d, a, b, k, t, fn⟩
    let c := seen s x
    Issues s x → exec (i d a b k false t) s = vDone s x (bitsAt c k fun r j => (f (mBit c.t c.l a.toNat r j) (mBit c.t c.l b.toNat r j), 0))

/-- The active positions of mask a that are no pads. -/
def marked (c : VC) (k : BitVec 3) (a : BitVec 5) : List (Nat × Nat) := (active c k).filter fun p => !(decide (c.req ≤ p.2)) && mBit c.t c.l a.toNat p.1 p.2

/-- Element j of row r, vfill beyond the row (R304). -/
def within (c : VC) (a : BitVec 5) (r : Nat) (j : Int) : Nat := if 0 ≤ j ∧ j < c.vl then (el c a r j.toNat).toNat else c.fill % 2 ^ c.ew
/-- The active indices of row r. -/
def rowActive (c : VC) (k : BitVec 3) (r : Nat) : List Nat := (List.range c.vl).filter fun i => k == 0 || mBit c.t c.l k.toNat r i

/-- What reductions and scans combine (R232, R233): the element, the identity where it is masked off, 0 where it is a pad. -/
def operandOf (c : VC) (k : BitVec 3) (a : BitVec 5) (idn r i : Nat) : Nat :=
  if (k == 0 || mBit c.t c.l k.toNat r i) = false then idn else if c.req ≤ i then 0 else (el c a r i).toNat
/-- The integer functions of VRED and VSCAN with their identities. -/
def intRed (fn n : Nat) (x y : BitVec n) : BitVec n :=
  match fn with
  | 0 => x + y
  | 1 => if x.toInt ≤ y.toInt then y else x
  | 2 => if x.toInt ≤ y.toInt then x else y
  | 3 => x &&& y
  | 4 => x ||| y
  | 5 => x ^^^ y
  | 6 => if x.toNat ≤ y.toNat then y else x
  | _ => if x.toNat ≤ y.toNat then x else y
def intUnit (fn n : Nat) : Nat := match fn with | 1 => 2 ^ (n - 1) | 2 => 2 ^ (n - 1) - 1 | 3 => 2 ^ n - 1 | 7 => 2 ^ n - 1 | _ => 0
def redInt (fn n x y : Nat) : Nat × Nat := ((intRed fn n (BitVec.ofNat n x) (BitVec.ofNat n y)).toNat, 0)
/-- The floating-point ones: sum, maximum and minimum. -/
def redFp (c : VC) (f : FFmt) (fn x y : Nat) : Nat × Nat :=
  let g (v : Nat) : Fp := f.get c.ftzi v
  match fn with
  | 0 => vput c f (fpAdd c.mode (g x) (g y))
  | 1 => vput c f (fpMinMax true (g x) (g y))
  | _ => vput c f (fpMinMax false (g x) (g y))
/-- An element that nothing is combined with, as an input and a result of the operation (R216, R220). -/
def fpOne (c : VC) (f : FFmt) (x : Nat) : Nat × Nat := vput c f (f.get c.ftzi x, (f.get c.ftzi x).snan)
def fpUnit (f : FFmt) (fn : Nat) : Nat := match fn with | 1 => f.infBits true | 2 => f.infBits false | _ => 0

/-- A reduction puts the tree of each row (R232) into its element 0. -/
def RedRule (i : BitVec 5 → BitVec 5 → BitVec 3 → Bool → Bool → Instr) (fn : Nat) (idn : VC → Nat) (f : VC → Nat → Nat → Nat × Nat) : Prop :=
  ∀ (s : State) (d a : BitVec 5) (k : BitVec 3) (t : Bool),
    let x : VW := ⟨0x27, d, a, 0, k, t, fn⟩
    let c := seen s x
    Issues s x → (c.vl = 0 → exec (i d a k false t) s = vDone s x (.elems c.ew [])) ∧
      (∀ n, c.vl ≤ 2 ^ n → c.vl ≠ 0 → (∀ m, c.vl ≤ 2 ^ m → n ≤ m) → exec (i d a k false t) s = vDone s x (.elems c.ew ((List.range c.rows).map fun r =>
        let v := treeReduce (f c) n (((List.range c.vl).map (operandOf c k a (idn c) r)) ++ List.replicate (2 ^ n - c.vl) (idn c)) 0
        ⟨r, 0, v.1, v.2⟩)))

/-- The prefix of a row up to index i; one is what the first position gives. -/
def prefixOf (one : Nat → Nat × Nat) (f : Nat → Nat → Nat × Nat) (v : Nat → Nat) (i : Nat) : Nat × Nat :=
  match i with
  | 0 => one (v 0)
  | j + 1 => f (prefixOf one f v j).1 (v (j + 1))

end Sys2Proof.Claims

/-- R299: the vector integer functions, on each active element. -/
def Sys2Proof.Claims.VectorIntegers : Prop :=
  IntRule .vadd 0 (fun _ x y _ => (x + y, false)) ∧ IntRule .vsub 1 (fun _ x y _ => (x - y, false)) ∧ IntRule .vmul 2 (fun _ x y _ => (x * y, false)) ∧
  IntRule .vmulh 3 (fun n x y _ => (BitVec.ofInt n (x.toInt * y.toInt / 2 ^ n), false)) ∧
  IntRule .vmulhu 4 (fun n x y _ => (BitVec.ofNat n (x.toNat * y.toNat / 2 ^ n), false)) ∧
  IntRule .vand 5 (fun _ x y _ => (x &&& y, false)) ∧ IntRule .vor 6 (fun _ x y _ => (x ||| y, false)) ∧ IntRule .vxor 7 (fun _ x y _ => (x ^^^ y, false)) ∧
  IntRule .vsll 8 (fun n x y _ => (x <<< (y.toNat % n), false)) ∧ IntRule .vsrl 9 (fun n x y _ => (x >>> (y.toNat % n), false)) ∧
  IntRule .vsra 10 (fun n x y _ => (x.sshiftRight (y.toNat % n), false)) ∧
  IntRule .vmin 11 (fun _ x y _ => (if x.toInt ≤ y.toInt then x else y, false)) ∧ IntRule .vmax 12 (fun _ x y _ => (if x.toInt ≤ y.toInt then y else x, false)) ∧
  IntRule .vminu 13 (fun _ x y _ => (if x ≤ y then x else y, false)) ∧ IntRule .vmaxu 14 (fun _ x y _ => (if x ≤ y then y else x, false)) ∧
  IntRule .vabsd 15 (fun n x y _ => (BitVec.ofNat n (x.toInt - y.toInt).natAbs, false)) ∧
  IntRule .vadds 16 (fun n x y _ => satS n (x.toInt + y.toInt)) ∧ IntRule .vsubs 17 (fun n x y _ => satS n (x.toInt - y.toInt)) ∧
  IntRule .vaddus 18 (fun n x y _ => satU n (x.toNat + y.toNat)) ∧ IntRule .vsubus 19 (fun n x y _ => satU n ((x.toNat : Int) - y.toNat)) ∧
  IntRule .vdot4 20 (fun n x y z => (z + BitVec.ofInt n ((List.range 4).map fun j => (x.extractLsb' (8 * j) 8).toInt * (y.extractLsb' (8 * j) 8).toInt).sum, false)) ∧
  IntRule .vmac 21 (fun _ x y z => (z + x * y, false))

/-- R300: the vector floating-point functions, on each active element, rounded once. -/
def Sys2Proof.Claims.VectorFloats : Prop :=
  FpRule .vfadd 0 (fun c f x y _ => vput c f (fpAdd c.mode x y)) ∧ FpRule .vfsub 1 (fun c f x y _ => vput c f (fpAdd c.mode x y.neg)) ∧
  FpRule .vfmul 2 (fun c f x y _ => vput c f (fpMul x y)) ∧ FpRule .vfma 3 (fun c f x y z => vput c f (fpFma c.mode x y z)) ∧
  FpRule .vfnma 4 (fun c f x y z => vput c f (fpFma c.mode x.neg y z)) ∧ FpRule .vfdiv 5 (fun c f x y _ => vput c f (fpDiv f x y)) ∧
  FpRule1 .vfsqrt 0x22 6 (fun c f x => vput c f (fpSqrt f (f.get c.ftzi x))) ∧
  FpRule .vfmin 7 (fun c f x y _ => vput c f (fpMinMax false x y)) ∧ FpRule .vfmax 8 (fun c f x y _ => vput c f (fpMinMax true x y)) ∧
  FpRule1 .vfabs 0x22 9 (fun c f x => let y := f.get c.ftzi x; ((f.put 0 false (if y.negp then y.neg else y)).1, 0)) ∧
  FpRule1 .vfneg 0x22 10 (fun c f x => ((f.put 0 false (f.get c.ftzi x).neg).1, 0)) ∧
  (∀ (s : State) (d a b : BitVec 5) (k : BitVec 3) (t u : Bool) (f : FFmt),
    let x : VW := ⟨0x22, d, a, b, k, t, sBit 11 u⟩
    let c := seen s x
    Issues s x → ieeeAt c.ew c.fsel = some f → exec (.vfscl d a b k false t u) s = vDone s x (lanes c k fun r j =>
      let n : Int := if u then (gVal s b).toInt else (el c b r j).toInt
      vput c f ((f.get c.ftzi (el c a r j).toNat).scale (max (-8192) (min 8192 n)), (f.get c.ftzi (el c a r j).toNat).snan)))

/-- R233, R301: the special functions on each active element; their special cases; and the FP32 result of every other operand lies within two units in the last place of the value. -/
def Sys2Proof.Claims.SpecialFunctions : Prop :=
  (∀ q ∈ [(Instr.vsfuExp2, 0), (.vsfuLog2, 1), (.vsfuRcp, 2), (.vsfuRsqrt, 3), (.vsfuSin, 4), (.vsfuCos, 5), (.vsfuTanh, 6), (.vsfuSigm, 7)],
    FpRule1 q.1 0x23 q.2 (fun c f x => sfuOp q.2 f c.mode c.ftzi c.ftzo x)) ∧
  (∀ (fn mode x : Nat) (f : FFmt) (zi zo : Bool) (r : Fp) (fl : Nat), sfuSpecial fn (f.get zi x) = some (r, fl) → sfuOp fn f mode zi zo x = ((f.put mode false r).1, fl)) ∧
  (∀ (n : Bool) (e : Int),
    sfuSpecial 0 (.inf n) = some (if n then .fin false 0 0 else .inf false, 0) ∧ sfuSpecial 1 (.fin n 0 e) = some (.inf true, 2) ∧
    sfuSpecial 1 (.inf n) = some (if n then .nan false else .inf false, if n then 1 else 0) ∧ (∀ m, m ≠ 0 → sfuSpecial 1 (.fin true m e) = some (.nan false, 1)) ∧
    sfuSpecial 2 (.fin n 0 e) = some (.inf n, 2) ∧ sfuSpecial 2 (.inf n) = some (.fin n 0 0, 0) ∧ sfuSpecial 3 (.fin n 0 e) = some (.inf n, 2) ∧
    (∀ m, m ≠ 0 → sfuSpecial 3 (.fin true m e) = some (.nan false, 1)) ∧ sfuSpecial 4 (.inf n) = some (.nan false, 1) ∧ sfuSpecial 5 (.inf n) = some (.nan false, 1) ∧
    sfuSpecial 6 (.inf n) = some (.fin n 1 0, 0) ∧ sfuSpecial 7 (.inf n) = some (if n then .fin false 0 0 else .fin false 1 0, 0)) ∧
  (∀ (pick mode m : Nat) (zo n : Bool) (e : Int), let b := (fp32.round 2 false false m e).1
    2 ^ 23 + 4 ≤ b → b + 4 < 255 * 2 ^ 23 → ∃ r, sfuNear pick mode zo (.fin n m e) = (fp32.sgn n + r, 16) ∧
      |value (fp32.read r) - value (.fin false m e)| ≤ 2 * (2 : ℚ) ^ (((b / 2 ^ 23 : Nat) : Int) - 150))

/-- R302, R303: comparisons into masks, and the mask instructions. -/
def Sys2Proof.Claims.VectorMasks : Prop :=
  (∀ (s : State) (d a b : BitVec 5) (k : BitVec 3) (t u : Bool) (n : BitVec 4) (f : FFmt),
    (n.toNat < 8 → let x : VW := ⟨0x24, d, a, b, k, t, sBit n.toNat u⟩
      let c := seen s x
      Issues s x → exec (.vcmp d a b k false t u n) s = vDone s x (bitsAt c k fun r j => (icond n.toNat (el c a r j) (opb s c b u r j), 0))) ∧
    (n.toNat < 7 → let x : VW := ⟨0x24, d, a, b, k, t, sBit (n.toNat + 16) u⟩
      let c := seen s x
      Issues s x → ieeeAt c.ew c.fsel = some f → exec (.vfcmp d a b k false t u n) s = vDone s x (bitsAt c k fun r j =>
        fcond n.toNat (f.get c.ftzi (el c a r j).toNat) (f.get c.ftzi (opb s c b u r j).toNat)))) ∧
  MaskRule .mand 0 (fun x y => x && y) ∧ MaskRule .mor 1 (fun x y => x || y) ∧ MaskRule .mxor 2 (fun x y => x ^^ y) ∧ MaskRule .mandn 3 (fun x y => x && !y) ∧
  (∀ (s : State) (d a : BitVec 5) (k : BitVec 3) (t : Bool),
    let w (n : Nat) : VW := ⟨0x25, d, a, 0, k, t, n⟩
    let z (n : Nat) : VW := ⟨0x25, d, 0, 0, k, t, n⟩
    let c := seen s (w 5)
    (Issues s (w 4) → exec (.mnot d a k false t) s = vDone s (w 4) (bitsAt (seen s (w 4)) k fun r j => (!mBit (seen s (w 4)).t c.l a.toNat r j, 0))) ∧
    (Issues s (w 5) → exec (.mpopc d a k false t) s = vDone s (w 5) (.greg (BitVec.ofNat 64 (marked c k a).length))) ∧
    (Issues s (w 6) → exec (.mfirst d a k false t) s = vDone s (w 6) (.greg (match (marked (seen s (w 6)) k a).head? with
      | some p => BitVec.ofNat 64 (p.1 * c.vl + p.2)
      | none => -1))) ∧
    (Issues s (z 7) → exec (.mset d k false t) s = vDone s (z 7) (bitsAt (seen s (z 7)) k fun _ _ => (true, 0))) ∧
    (Issues s (z 8) → exec (.mclr d k false t) s = vDone s (z 8) (bitsAt (seen s (z 8)) k fun _ _ => (false, 0))))

/-- R304, R305, R232, R233: permutes, slides, compress and expand, the broadcast of a row, scans, and reductions. -/
def Sys2Proof.Claims.VectorPermutes : Prop :=
  (∀ (s : State) (d a b : BitVec 5) (k : BitVec 3) (t : Bool),
    let w (n : Nat) : VW := ⟨0x26, d, a, b, k, t, n⟩
    let z (n : Nat) : VW := ⟨0x26, d, a, 0, k, t, n⟩
    let c (n : Nat) : VC := seen s (w n)
    let y (n : Nat) : VC := seen s (z n)
    let n : Int := (gVal s b).toNat
    (Issues s (w 0) → exec (.vperm d a b k false t) s = vDone s (w 0) (lanes (c 0) k fun r j => (within (c 0) a r (el (c 0) b r j).toNat, 0))) ∧
    (Issues s (w 1) → exec (.vslideup d a b k false t) s = vDone s (w 1) (lanes (c 1) k fun r j => (within (c 1) a r (j - n), 0))) ∧
    (Issues s (w 2) → exec (.vslidedn d a b k false t) s = vDone s (w 2) (lanes (c 2) k fun r j => (within (c 2) a r (j + n), 0))) ∧
    (Issues s (w 6) → exec (.vrowbc d a b k false t) s = vDone s (w 6) (lanes (c 6) k fun _ j => ((el (c 6) a (gVal s b).toNat j).toNat, 0))) ∧
    (Issues s (z 3) → exec (.vcompress d a k false t) s = vDone s (z 3) (.elems (y 3).ew ((List.range (y 3).rows).flatMap fun r =>
      (List.range (rowActive (y 3) k r).length).map fun j => ⟨r, j, (el (y 3) a r ((rowActive (y 3) k r).getD j 0)).toNat, 0⟩))) ∧
    (Issues s (z 4) → exec (.vexpand d a k false t) s = vDone s (z 4) (.elems (y 4).ew ((List.range (y 4).rows).flatMap fun r =>
      (List.range (rowActive (y 4) k r).length).map fun j => ⟨r, (rowActive (y 4) k r).getD j 0, (el (y 4) a r j).toNat, 0⟩)))) ∧
  (∀ (s : State) (d a : BitVec 5) (k : BitVec 3) (t : Bool) (n : BitVec 4) (f : FFmt),
    let w : VW := ⟨0x26, d, a, n.setWidth 5, k, t, 5⟩
    let z : VW := ⟨0x26, d, a, 16 + n.setWidth 5, k, t, 5⟩
    let scan (c : VC) (one : Nat → Nat × Nat) (g : Nat → Nat → Nat × Nat) (idn : Nat) : VRes := .elems c.ew ((List.range c.rows).flatMap fun r => (List.range c.vl).map fun i =>
      let v := prefixOf one g (operandOf c k a idn r) i
      ⟨r, i, v.1, v.2⟩)
    (n.toNat < 8 → Issues s w → exec (.vscan d a n k false t) s = vDone s w (scan (seen s w) (fun v => (v, 0)) (redInt n.toNat (seen s w).ew) (intUnit n.toNat (seen s w).ew))) ∧
    (n.toNat < 3 → Issues s z → ieeeAt (seen s z).ew (seen s z).fsel = some f →
      exec (.vfscan d a n k false t) s = vDone s z (scan (seen s z) (fpOne (seen s z) f) (redFp (seen s z) f n.toNat) (fpUnit f n.toNat)))) ∧
  (∀ q ∈ [(Instr.vredSum, 0), (.vredMax, 1), (.vredMin, 2), (.vredAnd, 3), (.vredOr, 4), (.vredXor, 5), (.vredMaxu, 6), (.vredMinu, 7)],
    RedRule q.1 q.2 (fun c => intUnit q.2 c.ew) (fun c => redInt q.2 c.ew)) ∧
  (∀ q ∈ [(Instr.vfredSum, 0), (.vfredMax, 1), (.vfredMin, 2)], ∀ f : FFmt,
    ∀ (s : State) (d a : BitVec 5) (k : BitVec 3) (t : Bool),
      let x : VW := ⟨0x27, d, a, 0, k, t, 16 + q.2⟩
      let c := seen s x
      Issues s x → ieeeAt c.ew c.fsel = some f → ∀ n, c.vl ≤ 2 ^ n → c.vl ≠ 0 → (∀ m, c.vl ≤ 2 ^ m → n ≤ m) →
        exec (q.1 d a k false t) s = vDone s x (.elems c.ew ((List.range c.rows).map fun r =>
          let v := if n = 0 then fpOne c f (operandOf c k a (fpUnit f q.2) r 0)
            else treeReduce (redFp c f q.2) n (((List.range c.vl).map (operandOf c k a (fpUnit f q.2) r)) ++ List.replicate (2 ^ n - c.vl) (fpUnit f q.2)) 0
          ⟨r, 0, v.1, v.2⟩)))

/-- R306 to R309: conversions between integers and floating point, between widths, and into blocks with scales; moves, broadcast, extract, insert, select and rank. -/
def Sys2Proof.Claims.VectorConversions : Prop :=
  (∀ (s : State) (d a : BitVec 5) (k : BitVec 3) (t u i : Bool) (h : BitVec 3) (f : FFmt),
    let w (n : Nat) (b : Nat) : VW := ⟨0x28, d, a, BitVec.ofNat 5 b, k, t, n⟩
    let sgn := if u then 16 else 0
    let fi := h.toNat + (if i then 8 else 0)
    (Issues s (w 2 sgn) → ieeeAt (seen s (w 2 sgn)).ew (seen s (w 2 sgn)).fsel = some f →
      (let c := seen s (w 2 sgn)
       exec (.vcvti2f d a u k false t) s = vDone s (w 2 sgn) (lanes c k fun r j =>
        f.put c.mode c.ftzo (intFp (if u then ((el c a r j).toNat : Int) else (el c a r j).toInt))))) ∧
    (Issues s (w 3 sgn) → ieeeAt (seen s (w 3 sgn)).ew (seen s (w 3 sgn)).fsel = some f →
      (let c := seen s (w 3 sgn)
       exec (.vcvtf2i d a u k false t) s = vDone s (w 3 sgn) (lanes c k fun r j =>
        let y := fpToInt c.mode (f.get c.ftzi (el c a r j).toNat) (if u then 0 else -2 ^ (c.ew - 1)) (if u then 2 ^ c.ew - 1 else 2 ^ (c.ew - 1) - 1)
        ((BitVec.ofInt c.ew y.1).toNat, y.2)))) ∧
    (Issues s (w 0 fi) → exec (.vcvth d a i h k false t) s = vDone s (w 0 fi)
      (let c := seen s (w 0 fi)
       .elems (c.ew / 2) ((List.range (2 * c.rows)).flatMap fun r => (rowActive c k r).map fun j =>
        let v := cvElem (w 0 fi) c (c.ew / 2) r j
        ⟨r / 2, r % 2 * (rowBytes c.l * 8 / c.ew) + j, v.1, v.2⟩))) ∧
    (Issues s (w 1 (fi + sgn)) → exec (.vcvtd d a u i h k false t) s = vDone s (w 1 (fi + sgn))
      (let c := seen s (w 1 (fi + sgn))
       .elems (c.ew * 2) ((List.range c.rows).flatMap fun r => (rowActive c k r).map fun j =>
        let v := cvElem (w 1 (fi + sgn)) c (c.ew * 2) r j
        ⟨2 * r + j / (rowBytes c.l * 8 / c.ew / 2), j % (rowBytes c.l * 8 / c.ew / 2), v.1, v.2⟩))) ∧
    (Issues s (w 4 0) → exec (.vcvt8 d a k false t) s = vDone s (w 4 0) (vcvt8Res (w 4 0) (seen s (w 4 0)) true)) ∧
    (Issues s (w 5 0) → exec (.vcvts d a k false t) s = vDone s (w 5 0) (vcvt8Res (w 5 0) (seen s (w 5 0)) false))) ∧
  (∀ (s : State) (d a b : BitVec 5) (k : BitVec 3) (t : Bool),
    let w (n : Nat) : VW := ⟨0x29, d, a, b, k, t, n⟩
    let z (n : Nat) : VW := ⟨0x29, d, a, 0, k, t, n⟩
    let c := vcOf (curH s) (tileOf s (curTile s))
    let q := (gVal s b).toNat
    (Issues s (z 0) → exec (.vmv d a k false t) s = vDone s (z 0) (lanes (seen s (z 0)) k fun r j => ((el (seen s (z 0)) a r j).toNat, 0))) ∧
    (Issues s (z 1) → exec (.vbcast d a k false t) s = vDone s (z 1) (lanes (seen s (z 1)) k fun _ _ => ((gVal s a).toNat % 2 ^ c.ew, 0))) ∧
    (Issues s ⟨0x29, d, a, b, 0, t, 2⟩ → (let y := seen s ⟨0x29, d, a, b, 0, t, 2⟩
      exec (.vextr d a b false t) s = vDone s ⟨0x29, d, a, b, 0, t, 2⟩ (.greg (if y.fsel = 0 then sext y.ew (within y a 0 q) else BitVec.ofNat 64 (within y a 0 q))))) ∧
    (Issues s (w 3) → exec (.vins d a b k false t) s = vDone s (w 3) (.elems c.ew (if q ∈ rowActive (seen s (w 3)) k 0 then [⟨0, q, (gVal s a).toNat % 2 ^ c.ew, 0⟩] else []))) ∧
    (Issues s (w 4) → (let y := seen s (w 4)
      exec (.vsel d a b k false t) s = vDone s (w 4) (lanes y 0 fun r j => ((if k = 0 ∨ mBit y.t y.l k.toNat r j then el y a r j else el y b r j).toNat, 0)))) ∧
    (Issues s ⟨0x29, d, 0, 0, k, t, 5⟩ → (let y := seen s ⟨0x29, d, 0, 0, k, t, 5⟩
      exec (.vmrank d k false t) s = vDone s ⟨0x29, d, 0, 0, k, t, 5⟩ (lanes y 0 fun r j => (((rowActive y k r).filter (· < j)).length % 2 ^ y.ew, 0)))))

/-- R317 to R321: the database primitives. -/
def Sys2Proof.Claims.DatabasePrimitives : Prop :=
  ∀ (s : State) (d a b : BitVec 5) (k : BitVec 3) (t : Bool),
    let w (n : Nat) : VW := ⟨0x2D, d, a, b, k, t, n⟩
    let c (n : Nat) : VC := seen s (w n)
    let z : VW := ⟨0x2D, d, a, 0, k, t, 2⟩
    (Issues s (w 0) → exec (.vhash d a b k false t) s = vDone s (w 0) (lanes (c 0) k fun r j =>
      ((hmix64 ((el (c 0) a r j).setWidth 64) ((el (c 0) b r j).setWidth 64)).toNat % 2 ^ (c 0).ew, 0))) ∧
    (Issues s (w 1) → exec (.vbucket d a b k false t) s = vDone s (w 1) (lanes (c 1) k fun r j => ((el (c 1) a r j).toNat * (gVal s b).toNat / 2 ^ (c 1).ew, 0))) ∧
    (Issues s z → exec (.vconf d a k false t) s = vDone s z (lanes (seen s z) k fun r j =>
      (if (seen s z).req ≤ j then 0
       else ((rowActive (seen s z) k r).filter fun i => i < j ∧ el (seen s z) a r i = el (seen s z) a r j).length % 2 ^ (seen s z).ew, 0))) ∧
    (Issues s (w 3) →
      (let x (i n : Nat) : Nat := vElem (c 3).t (c 3).l a.toNat (n / 8) (c 3).ew i / 256 ^ (n % 8) % 256
       let y (i n : Nat) : Nat := vElem (c 3).t (c 3).l b.toNat (n / 8) (c 3).ew i / 256 ^ (n % 8) % 256
       let first (i : Nat) : Option Nat := (List.range (8 * (c 3).rows)).find? fun n => x i n ≠ y i n
       exec (.vstrcmp d a b k false t) s = vDone s (w 3)
        { w := (c 3).ew, side := [], g := none, fl := 0
          xs := (rowActive (c 3) k 0).map fun i => ⟨0, i, match first i with | none => 0 | some n => if x i n < y i n then 2 ^ 64 - 1 else 1, 0⟩
          ms := if k = 0 then [] else ((rowActive (c 3) k 0).filter fun i => (first i).isSome).map fun i => (0, i, false) })) ∧
    (Issues s (w 4) → exec (.vstrhash d a b k false t) s = vDone s (w 4) (.elems (c 4).ew ((rowActive (c 4) k 0).map fun i =>
      let rows := (List.range (c 4).rows).filter fun r => 8 * (bits (c 4).vrs 20 0 + r) < vElem (c 4).t (c 4).l b.toNat 0 (c 4).ew i / 2 ^ 40
      ⟨0, i, (rows.foldl (fun h r => hmix64 (BitVec.ofNat 64 (vElem (c 4).t (c 4).l a.toNat r (c 4).ew i)) h)
        (BitVec.ofNat 64 (vElem (c 4).t (c 4).l d.toNat 0 (c 4).ew i))).toNat, 0⟩)))


namespace Sys2Proof.Claims
open Sys2Proof Sys2Proof.Machine

/-! ## Vector memory, lengths and threads -/

/-- The positions a vector access treats: active, and no pads (R311). -/
def livePositions (c : VC) (k : BitVec 3) : List (Nat × Nat) := (active c k).filter fun p => decide (p.2 < c.req)

/-- Accesses of whole elements, where f places them (R311). -/
def elementAccs (x : VW) (c : VC) (f : Nat → Nat → Word) : List VAcc :=
  (livePositions c x.k).map fun p => ⟨p.1, p.2, f p.1 p.2, (c.ew + 7) / 8, .v c.l x.d.toNat p.1 c.ew p.2⟩
/-- Where the modes place element i of row r: unit stride, a stride in a g register, and an offset from a v register. -/
def unitPlace (s : State) (x : VW) (c : VC) (r i : Nat) : Word := gVal s x.a + BitVec.ofNat 64 r * c.vrs + BitVec.ofNat 64 (i * c.ew / 8)
def stridePlace (s : State) (x : VW) (c : VC) (r i : Nat) : Word := gVal s x.a + BitVec.ofNat 64 r * c.vrs + BitVec.ofNat 64 i * gVal s x.b
def offsetPlace (s : State) (x : VW) (c : VC) (r i : Nat) : Word := gVal s x.a + BitVec.ofNat 64 r * c.vrs + (el c x.b r i).setWidth 64
/-- The bytes of a string chunk (R312): eight of string i a row, from row vrs on, of those its descriptor counts. -/
def chunkAccs (s : State) (x : VW) (c : VC) : List VAcc :=
  (livePositions c x.k).flatMap fun p =>
    let desc := vElem c.t c.l x.b.toNat 0 c.ew p.2
    let o := 8 * (bits c.vrs 20 0 + p.1)
    ((List.range 8).filter fun j => o + j < desc / 2 ^ 40).map fun j =>
      ⟨p.1, p.2, gVal s x.a + BitVec.ofNat 64 (desc % 2 ^ 40 + o + j), 1, .v c.l x.d.toNat p.1 8 (8 * p.2 + j)⟩
/-- The scale bytes of the blocks of a sweep (R310). -/
def scaleAccs (s : State) (x : VW) (c : VC) : List VAcc :=
  let nb := (c.vl + c.bl - 1) / c.bl
  (List.range c.rows).flatMap fun r => ((List.range nb).filter fun j => c.live x.k r (j * c.bl)).map fun j =>
    ⟨r, j * c.bl, gVal s x.a + BitVec.ofNat 64 (r * nb + j), 1, .side (sideKey c.l c.ew c.bl x.d.toNat r j) (groupKey c.l x.d.toNat r (j * c.bl * c.ew / 8))⟩

/-- The order of a vector access (R139 to R142). -/
def vOrder (w : State) (acq rel o y : Bool) : AccOrd := { ins := w.nextId, sup := (curH w).sup, vec := true, acq, rel, strict := false, inOrder := o, apart := y }

/-- Pieces z of accesses l of x, which its probe finds by state w (R37, R313). -/
def found (s w : State) (x : VW) (l : List VAcc) (z : List (VAcc × List Piece)) : Prop := x.probe s l = .ok w z
/-- A base that is not aligned to the element traps though no element is accessed (R311). -/
abbrev baseAligned (s : State) (x : VW) (c : VC) : Prop := c.ew = 4 ∨ (gVal s x.a).toNat % (c.ew / 8) = 0

/-- A vector load x with accesses l: what its probe meets first is taken at the instruction; else its accesses are in flight in element order, its destination's groups are
empty until their data are there, and the hart goes on; into a bound write stream the data are collected first (R313, R351). -/
def VLoadRule (i : Instr) (s : State) (x : VW) (acq o y : Bool) (l : List VAcc) : Prop :=
  (∀ w c sb a, x.probe s l = .stop w (.trap c sb a) → exec i s = .next (takeTrap w c sb a (curH s).pc)) ∧
  (∀ w z, found s w x l z →
    let pend (id : Nat) (d : VAcc → Dest) : List Pend := z.zipIdx.map fun q =>
      { id := id + q.2, hart := w.cur, op := none, pieces := q.1.2, va := q.1.1.va, dest := d q.1.1, chk := true, ord := vOrder w acq false o y }
    ((boundTo s true x.d).isSome = false → ∃ t, exec i s = .next t ∧ (curH t).pc = (curH s).pc + 4 ∧ (curH t).wait = .none ∧ (curH t).g = (curH w).g ∧
      t.pend = w.pend ++ pend w.nextId (·.dest) ∧ (∀ q ∈ z, ∀ k, q.1.dest.group = some k → k ∈ (tileOf t (curTile s)).vEmpty) ∧ t.mem = w.mem) ∧
    ((boundTo s true x.d).isSome = true → z ≠ [] → ∃ t, exec i s = .next t ∧ (curH t).pc = (curH s).pc ∧ (curH t).wait = .data ∧
      t.pend = w.pend ++ (z.zipIdx.map fun q =>
        { id := w.nextId + q.2, hart := w.cur, op := none, pieces := q.1.2, va := q.1.1.va, dest := .buf (s.nextId + q.2), chk := true, ord := vOrder w acq false o y })))

/-- The store buffer entries, numbered from n, that the items of a store in element order make, with order o: one an item, which releases and is strict in an IO page (R135, R365), and
one for each of the granules whole, with all its bytes, at the place of its first item (R461; notes/assumptions/32.md); done: those of them that have theirs already. -/
def storeEntries (n : Nat) (o : AccOrd) (whole : List Nat) (bytes : Nat → List Byte) (done : List Nat) : List (MemOp × List Piece × Word) → List SbEntry
  | [] => []
  | (_, [], _) :: r => storeEntries n o whole bytes done r
  | (op, p :: ps, va) :: r =>
    let g := p.pk / 128
    let first := va - BitVec.ofNat 64 (p.pk % 128)
    if g ∈ whole then
      if g ∈ done then storeEntries n o whole bytes done r
      else { id := n, op := .write (bytes g), pieces := [⟨g * 128, 128, p.vcid, first, false⟩], va := first, ord := o, full := true, performed := false }
        :: storeEntries (n + 1) o whole bytes (g :: done) r
    else { id := n, op, pieces := p :: ps, va, ord := { o with rel := o.rel || p.io, strict := p.io }, full := false, performed := false }
      :: storeEntries (n + 1) o whole bytes done r

/-- A vector store or atomic with accesses l, each to do op: what its probe meets first is taken; else the hart goes on with memory as it is, and with the entries that the accesses make in
its store buffer (R315, R316, R461). -/
def VStoreRule (i : Instr) (s : State) (x : VW) (rel o y : Bool) (l : List VAcc) (op : VAcc → MemOp) : Prop :=
  (∀ w c sb a, x.probe s l = .stop w (.trap c sb a) → exec i s = .next (takeTrap w c sb a (curH s).pc)) ∧
  (∀ w z, found s w x l z → ∃ t, exec i s = .next t ∧ (curH t).pc = (curH s).pc + 4 ∧ (curH t).wait = .none ∧ (curH t).g = (curH w).g ∧ t.mem = w.mem ∧ t.pend = w.pend ∧
    (let items := z.map fun q => (op q.1, q.2, q.1.va)
     (curH t).sb = (curH w).sb ++ storeEntries w.nextId (vOrder w false rel o y) (if x.isAmo then [] else wholeGrans items) (wholeBytes items) [] items))

/-- What a store puts at an element's place: its bytes, or its half of a byte. -/
def elementWrite (x : VW) (c : VC) (y : VAcc) : MemOp :=
  if c.ew = 4 then .nibble (y.i % 2 = 1) (vElem c.t c.l x.d.toNat y.r c.ew y.i) else .write (leBytes (c.ew / 8) (vElem c.t c.l x.d.toNat y.r c.ew y.i))

/-- Vector atomics with their functions (R316, R276). -/
def vAmos : List ((BitVec 5 → BitVec 5 → BitVec 5 → BitVec 3 → Bool → Bool → Bool → Bool → Instr) × Nat × Nat) :=
  [(.vamoAdd, 0, 2), (.vamoMin, 1, 6), (.vamoMax, 2, 7), (.vamoOr, 3, 4), (.vamoFadd, 4, 10)]

/-- func6 of a vector load or store. -/
def memFn (mode : Nat) (o y : Bool) (e : BitVec 2) : Nat := mode * 16 + o.toNat * 8 + y.toNat * 4 + e.toNat

/-- The members of a convoy one after another from state u, where none reads what a load before it brings: the state they leave, and the pieces that are read and written (R178, R181). -/
def convoyRuns (u : State) (rd wr : List Piece) (xs : List VW) : Option (State × List Piece × List Piece) :=
  match xs with
  | [] => some (u, rd, wr)
  | x :: r =>
    let c := seen u x
    if x.isMem = false then convoyRuns (after u x (vecRes x c (gVal u x.a) (gVal u x.b))) rd wr r
    else if (baseStop x c (gVal u x.a) (x.accs u)).isSome = true then none
    else if x.isLoad = true ∧ ((boundTo u true x.d).isSome = true ∨ (r.any fun y => touches y x.d (bits (curH u).v.vrc 3 0) (vtEw (curH u).v.vtype)) = true) then none
    else match x.probe u (x.accs u) with
      | .stop _ _ => none
      | .ok w z =>
        if x.isLoad = true then convoyRuns (loadGo (popAll w x c (vSrcs u x)) x c z) (z.flatMap (·.2)) wr r
        else convoyRuns (storeGo (popAll w x c (vSrcs u x)) x c z) rd (z.flatMap (·.2)) r

/-- The elements of a thread that holds lanes fit into its rows, of which there are at most eight (R174, R293). -/
abbrev Shaped (h : Hart) : Prop := h.v.lanes ≠ 0 → bits h.v.vl 11 0 * vtEw h.v.vtype ≤ 8 * rowBytes h.v.lanes ∧ bits h.v.vrc 3 0 ≤ 8
/-- Every hart is so, on its tile, in a saved context or set aside; and no tile's lane step is above 64. -/
abbrev AllShaped (s : State) : Prop :=
  (∀ q ∈ s.harts, Shaped q.2) ∧ (∀ q ∈ s.shadow, ∀ h ∈ q.2.harts, Shaped h.2) ∧ (∀ q ∈ s.tiles, q.2.laneStep ≤ 64 ∧ ∀ a ∈ q.2.aside, Shaped a.2.hart) ∧
  (∀ q ∈ s.shadow, q.2.tile.laneStep ≤ 64 ∧ ∀ a ∈ q.2.tile.aside, Shaped a.2.hart)

end Sys2Proof.Claims

/-- R310 to R316, R461: the vector loads, stores and atomics: their addresses, their accesses and what they leave; and which granules the items of a store write whole, with which bytes. -/
def Obligations.VectorMemory : Prop :=
  ∀ (s : State) (d a b : BitVec 5) (k : BitVec 3) (t o y : Bool) (e : BitVec 2),
    let w (maj n : Nat) (b : BitVec 5) : VW := ⟨maj, d, a, b, k, t, n⟩
    let c (x : VW) : VC := seen s x
    (let x := w 0x2A (memFn 0 o y e) 0
     Issues s x → (baseAligned s x (c x) → VLoadRule (.vld d a k false t o y e) s x (e == 1) o y (elementAccs x (c x) (unitPlace s x (c x)))) ∧
      (¬baseAligned s x (c x) → ∃ va, exec (.vld d a k false t o y e) s = traps s 3 0 va)) ∧
    (let x := w 0x2A (memFn 1 o y e) b
     Issues s x → VLoadRule (.vldStr d a b k false t o y e) s x (e == 1) o y (elementAccs x (c x) (stridePlace s x (c x)))) ∧
    (let x := w 0x2A (memFn 2 o y e) b
     Issues s x → VLoadRule (.vldX d a b k false t o y e) s x (e == 1) o y (elementAccs x (c x) (offsetPlace s x (c x)))) ∧
    (let x := w 0x2A (memFn 3 o y e) b
     Issues s x → VLoadRule (.vldChk d a b k false t o y e) s x (e == 1) o y (chunkAccs s x (c x))) ∧
    (let x := w 0x29 6 0
     Issues s x → VLoadRule (.vscld d a k false t) s x false false false (scaleAccs s x (c x))) ∧
    (let x := w 0x2B (memFn 0 o y e) 0
     Issues s x → (baseAligned s x (c x) → VStoreRule (.vst d a k false t o y e) s x (e == 1) o y
        (elementAccs x (c x) (unitPlace s x (c x))) (elementWrite x (c x))) ∧
      (¬baseAligned s x (c x) → ∃ va, exec (.vst d a k false t o y e) s = traps s 3 0 va)) ∧
    (let x := w 0x2B (memFn 1 o y e) b
     Issues s x → VStoreRule (.vstStr d a b k false t o y e) s x (e == 1) o y
      (elementAccs x (c x) (stridePlace s x (c x))) (elementWrite x (c x))) ∧
    (let x := w 0x2B (memFn 2 o y e) b
     Issues s x → VStoreRule (.vstX d a b k false t o y e) s x (e == 1) o y
      (elementAccs x (c x) (offsetPlace s x (c x))) (elementWrite x (c x))) ∧
    (let x := w 0x29 7 0
     Issues s x → VStoreRule (.vscst d a k false t) s x false false false (scaleAccs s x (c x)) fun z =>
      .write [sideByte (c x).t (c x).l (c x).ew (c x).bl d.toNat z.r (z.i / (c x).bl)]) ∧
    (∀ q ∈ vAmos, let x := w 0x2C (q.2.1 * 8 + o.toNat * 4 + y.toNat * 2) b
     Issues s x → VStoreRule (q.1 d a b k false t o y) s x false o y (elementAccs x (c x) (offsetPlace s x (c x))) fun z =>
      .rmw q.2.2 ((c x).ew == 64) (BitVec.ofNat 64 (vElem (c x).t (c x).l d.toNat z.r (c x).ew z.i)) 0) ∧
    (∀ (x : VW) (y : VAcc) (l : List VAcc), x.unitStride = false → (c x).ew ≠ 4 → x.maj ≠ 0x29 → x.vmode ≠ 3 → y.va.toNat % y.n ≠ 0 →
      x.probe s (y :: l) = .stop s (.trap 3 0 y.va)) ∧
    (∀ (items : List (MemOp × List Piece × Word)) (g : Nat), (∀ q ∈ items, ∃ x, q.2.1 = [x] ∧ x.io = false ∧ x.pk % 128 + x.n ≤ 128 ∧
        ((∃ bs, q.1 = .write bs ∧ bs.length = x.n) ∨ (∃ h v, q.1 = .nibble h v ∧ x.n = 1))) →
      (g ∈ wholeGrans items ↔ ∀ n < 256, ∃ q ∈ items, ∃ x, q.2.1 = [x] ∧ x.pk / 128 = g ∧ (itemMask q.1 q.2.1).testBit n = true) ∧
      (∀ l r x bs va i, items = l ++ (.write bs, [x], va) :: r → x.pk / 128 = g → x.pk % 128 ≤ i → i < x.pk % 128 + bs.length →
        (∀ q ∈ r, ∀ z, q.2.1 = [z] → z.pk / 128 = g → i < z.pk % 128 ∨ z.pk % 128 + z.n ≤ i) → (wholeBytes items g).getD i 0 = bs.getD (i - x.pk % 128) 0))

/-- R173, R174, R175, R292, R303, R314: what a vector instruction writes: each element of its result, in its place and nowhere else; and nothing of the hart but flags, of the tile but its v
register, mask and sidecar, and of memory. A result for a g register is on its way, the register empty until then (R175). -/
def Obligations.VectorWrites : Prop :=
  (∀ (t : Tile) (l : BitVec 4) (r row w i q row' j v : Nat), w ∈ [4, 8, 16, 32, 64] → row < 8 → row' < 8 → (i + 1) * w ≤ 8 * rowBytes l → (j + 1) * w ≤ 8 * rowBytes l →
    vElem (setVElem t l r row w i v) l q row' w j = if q = r ∧ row' = row ∧ j = i then v % 2 ^ w else vElem t l q row' w j) ∧
  (∀ (t : Tile) (l m : BitVec 4) (r row w i q row' b v : Nat), w ∈ [4, 8, 16, 32, 64] → row < 8 → row' < 8 → (i + 1) * w ≤ 8 * rowBytes l → b < rowBytes m → (q ≠ r ∨ l &&& m = 0) →
    vByteAt (setVElem t l r row w i v) m q row' b = vByteAt t m q row' b) ∧
  (∀ (t : Tile) (l : BitVec 4) (m row i n row' j : Nat) (b : Bool), row < 8 → row' < 8 → i < 512 * (laneList l).length → j < 512 * (laneList l).length →
    mBit (setMBit t l m row i b) l n row' j = if n = m ∧ row' = row ∧ j = i then b else mBit t l n row' j) ∧
  (∀ (s : State) (x : VW) (r : VRes), boundTo s true x.d = none → (∀ e ∈ r.xs, e.r < 8 ∧ (e.i + 1) * r.w ≤ 8 * rowBytes (curH s).v.lanes) → r.w ∈ [4, 8, 16, 32, 64] →
    let c := vcOf (curH s) (tileOf s (curTile s))
    let t := vCommit s x c r
    (∀ q row b, q ≠ x.d.toNat → row < 8 → b < 1024 → mgetD (tileOf t (curTile s)).v (vKey q row b) 0 = mgetD (tileOf s (curTile s)).v (vKey q row b) 0) ∧
    (∀ n, n / 8 ≠ x.d.toNat → n / 8 ≠ x.k.toNat → (∀ m ∈ r.ms, m.1 < 8) → mgetD (tileOf t (curTile s)).m n 0 = mgetD (tileOf s (curTile s)).m n 0) ∧
    (∀ n, n ≠ curTile s → tileOf t n = tileOf s n) ∧ (∀ h, h ≠ s.cur → hartOf t h = hartOf s h) ∧
    (curH t).g = (curH s).g ∧ (r.g = none → t.pend = s.pend ∧ (curH t).gEmpty = (curH s).gEmpty) ∧
    (∀ v, r.g = some v → (x.d ≠ 0 → gkey (curH s).sup x.d ∈ (curH t).gEmpty) ∧ ∃ p : Pend, t.pend = s.pend ++ [p] ∧ p.value = some v ∧ p.hart = s.cur ∧
      p.dest = .g (gkey (curH s).sup x.d) 8 false ∧ ∀ k, perform k p = .ok k (leBytes 8 v.toNat)) ∧
    { (curH t).v with vcsr := (curH s).v.vcsr } = (curH s).v ∧ (curH t).v.vcsr = (curH s).v.vcsr ||| BitVec.ofNat 64 (r.flags % 128 * 256) ∧
    (curH t).fcsr = (curH s).fcsr ∧ (curH t).tr = (curH s).tr ∧ (∀ a, peek t a = peek s a))

/-- R179, R180, R293, R322: SETVL rounds the requested length up to whole blocks and down to what a row holds at the tile's lane step; SETRC takes a count of 1 to 8, and its word with
C = 1 raises CONVOY. -/
def Sys2Proof.Claims.VectorLength : Prop :=
  ∀ (s : State) (d a : BitVec 5) (e f l m c : BitVec 3) (t : Bool),
    let v := (curH s).v
    exec (.convoyIssue ((encode (.setrc a t)).map (· ||| 0x80#32))) s = traps s 7 0 (curH s).pc ∧
    (v.lanes = 0 → exec (.setvl d a e f l m c) s = traps s 0x0B 0 0 ∧ exec (.setrc a t) s = traps s 0x0B 0 0) ∧
    (v.lanes ≠ 0 → Ready s [(a, false)] (some d) →
      let w := 4 * 2 ^ e.toNat
      let b := if l = 0 then 1 else 4 * 2 ^ l.toNat
      let cap := (8 * rowBytes v.lanes / w * (tileOf s (curTile s)).laneStep / 64) / b * b
      let req := (gVal s a).toNat
      let n := min ((req + b - 1) / b * b) cap
      let k := popSrcs s [(a, false)]
      (f ≠ 0 → w ≤ 8 → nfOk (mgetD (curH s).fmt f.toNat 0) w = false → exec (.setvl d a e f l m c) s = traps s 0x0B 0 0) ∧
      ((f = 0 ∨ 8 < w ∨ nfOk (mgetD (curH s).fmt f.toNat 0) w = true) → exec (.setvl d a e f l m c) s = .next (goTo (setG (setCur k { curH k with v :=
        { (curH k).v with vtype := BitVec.ofNat 64 (l.toNat + 8 * f.toNat + 64 * e.toNat + 512 * m.toNat + 4096 * c.toNat), vl := BitVec.ofNat 64 n, vlreq := BitVec.ofNat 64 (min req n) } })
        d (BitVec.ofNat 64 n)) ((curH s).pc + 4)))) ∧
    (v.lanes ≠ 0 → Ready s [(a, t)] none →
      ((gVal s a = 0 ∨ 8 < (gVal s a).toNat) → exec (.setrc a t) s = traps s 0x0B 0 0) ∧
      (gVal s a ≠ 0 → (gVal s a).toNat ≤ 8 → let k := popSrcs s [(a, t)]
        exec (.setrc a t) s = .next (goTo (setCur k { curH k with v := { (curH k).v with vrc := gVal s a } }) ((curH s).pc + 4))))

/-- R170, R182 to R184, R234, R323, R324: VSPLIT makes its hart thread 0 of two or four and starts the others on PARKED harts at its target, each with its lane groups and its number in
g1; VMERGE parks them again, their lane groups returned to thread 0, and gives thread 0 the whole row, with their flags; VPARK parks a hart without lanes; their words with C = 1 raise CONVOY (R179, R180). -/
def Sys2Proof.Claims.VectorThreads : Prop :=
  ∀ (s : State) (a n : BitVec 5) (t : Bool),
    let v := (curH s).v
    let ti := curTile s
    let cnt := 2 * n.toNat
    let parked := (s.harts.filter fun q => q.1 / 16 == ti && q.2.st == .parked).map (·.1)
    (featOn s 5 = false → exec (.vsplit a n t) s = traps s 1 0 0 ∧ exec .vmerge s = traps s 1 0 0 ∧ exec .vpark s = traps s 1 0 0) ∧
    ((n = 1 ∨ n = 2) → ∀ i ∈ [Instr.vsplit a n t, .vmerge, .vpark],
      exec (.convoyIssue ((encode i).map (· ||| 0x80#32))) s = if featOn s 5 then traps s 7 0 (curH s).pc else traps s 1 0 0) ∧
    (featOn s 5 = true →
      (v.lanes ≠ 15 → Ready s [(a, t)] none → exec (.vsplit a n t) s = traps s 0x0B 0 0) ∧
      (v.lanes = 15 → v.split = false → Ready s [(a, t)] none → (gVal s a).toNat % 4 = 0 → (cnt = 2 ∨ cnt = 4) →
        ((lanesFull (tileOf s ti) 15 = false ∨ parked.length + 1 < cnt) → exec (.vsplit a n t) s = sleeps s .split) ∧
        (lanesFull (tileOf s ti) 15 = true → cnt ≤ parked.length + 1 → s.cur ∉ parked → parked.Nodup → ∃ u, exec (.vsplit a n t) s = .next u ∧ (curH u).pc = (curH s).pc + 4 ∧
          (curH u).v = { v with vl := 0, vlreq := 0, lanes := (if cnt = 2 then 3 else 1), back := 0, tnum := 0, split := true } ∧ (curH u).g = (curH s).g ∧
          (∀ j, 1 ≤ j → j < cnt → ∀ h, parked[j - 1]? = some h → (hartOf u h).st = .running ∧ (hartOf u h).pc = gVal s a ∧ mgetD (hartOf u h).g 1 0 = BitVec.ofNat 64 j ∧
            (hartOf u h).v.lanes = (if cnt = 2 then 12 else BitVec.ofNat 4 (2 ^ j)) ∧ (hartOf u h).v.tnum = j ∧ (hartOf u h).v.vl = 0 ∧ (hartOf u h).v.vtype = v.vtype ∧
            (∀ r, r ≠ 1 → mgetD (hartOf u h).g r 0 = mgetD (hartOf s h).g r 0)) ∧
          (tileOf u ti).v = (tileOf s ti).v ∧ u.mem = s.mem)) ∧
      (v.lanes = 0 → exec .vmerge s = traps s 0x0B 0 0) ∧
      (v.lanes ≠ 0 → v.split = false → exec .vmerge s = ends s s) ∧
      (v.lanes ≠ 0 → v.split = true →
        (lanesFull (tileOf s ti) v.lanes = false → exec .vmerge s = sleeps s .split) ∧
        (lanesFull (tileOf s ti) v.lanes = true → v.tnum ≠ 0 → ∃ u, exec .vmerge s = .next u ∧ (curH u).pc = (curH s).pc + 4 ∧ (curH u).st = .parked ∧
          (curH u).v = { v with lanes := 0, split := false } ∧ (curH u).g = (curH s).g ∧
          (∀ i x, (s.harts.find? fun q => q.1 / 16 == ti && q.2.v.split && q.2.v.tnum == 0) = some (i, x) →
            mfind s.harts i = some x → hartOf u i = { x with v := { x.v with back := x.v.back ||| v.lanes } } ∧ (tileOf u ti).v = (tileOf s ti).v)) ∧
        (lanesFull (tileOf s ti) v.lanes = true → v.tnum = 0 →
          (((∃ q ∈ s.harts, q.1 / 16 = ti ∧ q.1 ≠ s.cur ∧ q.2.v.split = true) ∨ (∃ q ∈ (tileOf s ti).aside, q.2.hart.v.split = true)) → exec .vmerge s = sleeps s .split) ∧
          ((∀ q ∈ s.harts, q.1 / 16 = ti → q.1 ≠ s.cur → q.2.v.split = false) → (∀ q ∈ (tileOf s ti).aside, q.2.hart.v.split = false) → ∃ u, exec .vmerge s = .next u ∧ (curH u).pc = (curH s).pc + 4 ∧
            { (curH u).v with vcsr := v.vcsr } = { v with vl := 0, vlreq := 0, lanes := 15, back := 0, split := false } ∧ (curH u).v.vcsr &&& 0x1F = v.vcsr &&& 0x1F ∧
            (tileOf u ti).v = (tileOf s ti).v ∧ u.mem = s.mem))) ∧
      (v.lanes ≠ 0 → exec .vpark s = traps s 0x0B 0 0) ∧
      (v.lanes = 0 → exec .vpark s = ends s (setCur s { curH s with st := .parked })))

/-- R178 to R181: the members of a convoy issue as one: a word whose feature is off, or that is no instruction, raises ILLOP; a convoy whose structure is unsound raises CONVOY at its faulty
word; else what stops a member stops the convoy before it begins, and its members take effect in turn, loads and stores among them, where no member reads what a load brings and the store
writes nothing that the load reads; where a member reads what a load before it brings, its data are fetched first (R181). A word with C set alone follows no convoy. -/
def Sys2Proof.Claims.Convoys : Prop :=
  ∀ (s : State) (ws : List (BitVec 32)) (d a : BitVec 5) (k : BitVec 3) (t : Bool),
    let xs := ws.map fun w => vwOf w.toNat
    ((∃ w ∈ ws, vGated s (vwOf w.toNat) = true ∨ ((vwOf w.toNat).maj = 0x2E ∧ (vwOf w.toNat).f ≠ 0 ∧ featOn s 5 = false) ∨ vwOk w.toNat = false) → exec (.convoyIssue ws) s = traps s 1 0 0) ∧
    ((∀ w ∈ ws, vGated s (vwOf w.toNat) = false ∧ ((vwOf w.toNat).maj = 0x2E → (vwOf w.toNat).f ≠ 0 → featOn s 5 = true) ∧ vwOk w.toNat = true) →
      (∀ j, convoyFault (match ws.head? with | some w => w.getLsbD 7 | none => false) xs = some j → exec (.convoyIssue ws) s = traps s 7 0 ((curH s).pc + BitVec.ofNat 64 (4 * j))) ∧
      (convoyFault (match ws.head? with | some w => w.getLsbD 7 | none => false) xs = none →
        (∀ c sb va, vPres s xs = some (.trap c sb va) → exec (.convoyIssue ws) s = traps s c sb va) ∧
        (∀ z, vPres s xs = some (.wait z) → exec (.convoyIssue ws) s = sleeps s z) ∧
        (vPres s xs = none → (tileOf s (curTile s)).vFault = [] → (curH s).gFault = [] → (curH s).conv = none →
          (∀ u rd wr, convoyRuns s [] [] xs = some (u, rd, wr) → overlap rd wr = false → exec (.convoyIssue ws) s = goesOn s u (4 * ws.length)) ∧
          (∀ x r w z, xs = x :: r → x.isLoad = true → (r.any fun y => touches y x.d (bits (curH s).v.vrc 3 0) (vtEw (curH s).v.vtype)) = true →
            baseStop x (seen s x) (gVal s x.a) (x.accs s) = none → x.probe s (x.accs s) = .ok w z → z ≠ [] →
            ∃ t, exec (.convoyIssue ws) s = .next t ∧ (curH t).pc = (curH s).pc ∧ (curH t).wait = .data ∧ (curH t).g = (curH s).g ∧
              (tileOf t (curTile s)).v = (tileOf s (curTile s)).v ∧ t.pend = w.pend ++ (z.zipIdx.map fun q =>
                { id := w.nextId + q.2, hart := w.cur, op := none, pieces := q.1.2, va := q.1.1.va, dest := .buf (s.nextId + q.2), chk := true, ord := vecOrd w x }))))) ∧
    exec (.vmv d a k true t) s = traps s 7 0 (curH s).pc

/-- R179, R180: the structure of a convoy: a fifth word, a third arithmetic member, and a second of any other pipe are its faulty words, and so is one that no pipe takes; two additions, a compare
and a load are no fault. -/
def Sys2Proof.Claims.ConvoyStructure : Prop :=
  ∀ (a b c d e f : BitVec 5) (k : BitVec 3) (t : Bool),
    let add (d a b : BitVec 5) : VW := ⟨0x21, d, a, b, k, t, 0⟩
    let perm (d a b : BitVec 5) : VW := ⟨0x26, d, a, b, k, t, 0⟩
    let ld (d a : BitVec 5) : VW := ⟨0x2A, d, a, 0, k, t, 0⟩
    convoyFault false [add a b c, add d e f] = none ∧ convoyFault false [ld a b, add c d e, add d e f] = none ∧
    convoyFault false [add a b c, add b c d, add c d e] = some 2 ∧ convoyFault false [ld a b, ld c d] = some 1 ∧
    (b ≠ d → c ≠ d → convoyFault false [add d a e, perm a b c] = none) ∧ convoyFault false [add b a e, perm a b c] = some 0 ∧
    convoyFault false [⟨0x2E, d, a, b, k, t, 0⟩] = some 0 ∧ convoyFault true [add a b c] = some 0

/-- R174, R293: in no step does a thread's vl come to exceed what its rows hold, nor its row count eight. -/
def Obligations.VectorShapeKept : Prop :=
  ∀ s t, AllShaped s → step s = .next t → AllShaped t


namespace Sys2Proof.Claims
open Sys2Proof Sys2Proof.Machine

/-! ## The matrix unit -/

/-- The executing hart holds its tile's array. -/
abbrev holdsArray (s : State) : Prop := (tileOf s (curTile s)).mx = some s.cur

/-- Operation o, issued in state w by an instruction with operands that let it issue, waits while its stream holds eight, and else enters it, and the hart goes on. -/
def EntersStream (i : Instr) (s w : State) (k : BitVec 2) (o : MOp) : Prop :=
  (8 ≤ (streamAt (tileOf s (curTile s)) k.toNat).ops.length → exec i s = sleeps s .matrix) ∧
  ((streamAt (tileOf s (curTile s)) k.toNat).ops.length < 8 → exec i s = ends s (enterOp w k.toNat o))

/-- The snapshot an operation takes of its hart (R330): formats, tables, status, mode and lanes. -/
def fresh (s : State) (kind : Nat) : MOp :=
  { kind, hart := s.cur, a := 0, b := 0, acc := 0, vd := 0, flags := 0, base := 0, stride := 0, cfgA := 0, cfgB := 0, cfgM := 0, fmts := (curH s).fmt, ctabs := (curH s).ctab
    vcsr := (curH s).v.vcsr, sup := (curH s).sup, lanes := (curH s).v.lanes, begun := false, pos := 0, buf := [], waits := none, seq := s.nextId }

/-- Tile register n's configuration. -/
def tcfg (s : State) (n : Nat) : Word := mgetD (tileOf s (curTile s)).tcfg n 0

end Sys2Proof.Claims

/-- R271, R328 to R341: the matrix instructions are refused without the array and for configurations they cannot take; MLD, MST, MMA, MZERO, MACC2V and MACC2T enter their stream with a
snapshot; MACC2V empties its destination's groups; MSYNC waits for the streams it names, takes and clears the error of the lowest of them in error, and with none shows their flags in vcsr (R271). -/
def Obligations.MatrixInstructions : Prop :=
  ∀ (s : State) (n a b : BitVec 3) (k c : BitVec 2) (g h d : BitVec 5) (t p e z : Bool) (m : BitVec 4),
    let t0 := tileOf s (curTile s)
    (¬holdsArray s → exec (.mld n k g h t) s = traps s 0x0B 0 0 ∧ exec (.mst n k g h t) s = traps s 0x0B 0 0 ∧ exec (.mzero c k) s = traps s 0x0B 0 0 ∧
      exec (.macc2v d c k) s = traps s 0x0B 0 0 ∧ exec (.macc2t c n k) s = traps s 0x0B 0 0 ∧ exec (.msync m) s = traps s 0x0B 0 0 ∧
      (∀ y, exec (.mma c a b k false e z y) s = traps s 0x0B 0 0)) ∧
    (featOn s 3 = false → ∀ y, exec (.mma c a b k true e z y) s = traps s 1 0 0) ∧
    (holdsArray s →
      (let cfg := tcfg s n.toNat
       let w := max 1 (tcEw cfg / 8)
       let o (kind : Nat) : MOp := { fresh s kind with a := n.toNat, base := gVal s g, stride := gVal s h, cfgA := cfg }
       Ready s [(g, t), (h, t)] none →
        (tcOk cfg (curH s).fmt = false → exec (.mld n k g h t) s = traps s 0x0B 0 0 ∧ exec (.mst n k g h t) s = traps s 0x0B 0 0) ∧
        (tcOk cfg (curH s).fmt = true →
          (((gVal s g).toNat % w ≠ 0 ∨ (gVal s h).toNat % w ≠ 0) → exec (.mld n k g h t) s = traps s 3 0 (gVal s g) ∧ exec (.mst n k g h t) s = traps s 3 0 (gVal s g)) ∧
          ((gVal s g).toNat % w = 0 → (gVal s h).toNat % w = 0 →
            EntersStream (.mld n k g h t) s (popSrcs s [(g, t), (h, t)]) k (o 0) ∧ EntersStream (.mst n k g h t) s (popSrcs s [(g, t), (h, t)]) k (o 1)))) ∧
      (∀ y, (p = true → featOn s 3 = true) →
        (mmaOk s a.toNat b.toNat p (y == 1) = false → exec (.mma c a b k p e z y) s = traps s 0x0B 0 0) ∧
        (mmaOk s a.toNat b.toNat p (y == 1) = true → EntersStream (.mma c a b k p e z y) s s k
          { fresh s 2 with a := a.toNat, b := b.toNat, acc := c.toNat, cfgA := tcfg s a.toNat, cfgB := tcfg s b.toNat, cfgM := tcfg s (a.toNat + 1)
                           flags := p.toNat + 2 * e.toNat + 4 * z.toNat + 8 * (y == 1).toNat })) ∧
      EntersStream (.mzero c k) s s k { fresh s 3 with acc := c.toNat } ∧
      (let gs := macc2vGroups (curH s).v.lanes d.toNat
       let r := macc2vRegs (curH s).v.lanes
       ((curH s).v.lanes = 0 ∨ ((curH s).v.split = true ∧ (curH s).v.tnum ≠ 0) → exec (.macc2v d c k) s = traps s 0x0B 0 0) ∧
       ((curH s).v.lanes ≠ 0 → ((curH s).v.split = false ∨ (curH s).v.tnum = 0) →
        ((∃ x ∈ gs, x ∈ t0.vEmpty) → exec (.macc2v d c k) s = sleeps s .reg) ∧
        ((∀ x ∈ gs, x ∉ t0.vEmpty) → 32 < d.toNat + r → exec (.macc2v d c k) s = traps s 0x0B 0 0) ∧
        ((∀ x ∈ gs, x ∉ t0.vEmpty) → d.toNat + r ≤ 32 → (∀ j < r, boundTo s true (BitVec.ofNat 5 (d.toNat + j)) = none) →
          (8 ≤ (streamAt t0 k.toNat).ops.length → exec (.macc2v d c k) s = sleeps s .matrix) ∧
          ((streamAt t0 k.toNat).ops.length < 8 → ∃ u, exec (.macc2v d c k) s = .next u ∧ (curH u).pc = (curH s).pc + 4 ∧ (∀ x ∈ gs, x ∈ (tileOf u (curTile s)).vEmpty) ∧
            (streamAt (tileOf u (curTile s)) k.toNat).ops = (streamAt t0 k.toNat).ops ++ [{ fresh s 4 with acc := c.toNat, vd := d.toNat }])))) ∧
      (let cfg := tcfg s n.toNat
       ((tcOk cfg (curH s).fmt = false ∨ 64 < tcCols cfg) → exec (.macc2t c n k) s = traps s 0x0B 0 0) ∧
       (tcOk cfg (curH s).fmt = true → tcCols cfg ≤ 64 → EntersStream (.macc2t c n k) s s k { fresh s 5 with acc := c.toNat, a := n.toNat, cfgM := cfg })) ∧
      ((∃ j < 4, m.getLsbD j = true ∧ (streamAt t0 j).ops ≠ []) → exec (.msync m) s = sleeps s .matrix) ∧
      ((∀ j < 4, m.getLsbD j = true → (streamAt t0 j).ops = []) →
        ((∀ j < 4, m.getLsbD j = true → (streamAt t0 j).err = none) → ∃ u, exec (.msync m) s = .next u ∧ (curH u).pc = (curH s).pc + 4 ∧
          (curH u).v.vcsr = (List.range 4).foldl (fun w j => if m.getLsbD j = true then w ||| BitVec.ofNat 64 ((streamAt t0 j).flags % 128 * 256) else w) (curH s).v.vcsr ∧
          { (curH u).v with vcsr := (curH s).v.vcsr } = (curH s).v ∧ (curH u).g = (curH s).g ∧ u.mem = s.mem ∧
          ∀ j < 4, (streamAt (tileOf u (curTile s)) j).flags = if m.getLsbD j = true then 0 else (streamAt t0 j).flags) ∧
        (∀ j < 4, ∀ f, m.getLsbD j = true → (streamAt t0 j).err = some f → (∀ i < j, m.getLsbD i = true → (streamAt t0 i).err = none) →
          exec (.msync m) s = .next (takeTrap (setStream s (curTile s) j { streamAt t0 j with err := none }) f.cause f.sub f.addr (curH s).pc))))

/-- R154, R330 to R340: an operation enters at the end of its stream; the array takes the oldest MMA that stands at the head of a stream; an operation at the head of a stream without error takes its
effect, MLD and MST a row at a time once the earlier accesses of their hart are performed (R154), a row whose translation fails asking service and standing (R332), and leaves; its flags stay with the stream; under an error it leaves without effect, and MACC2V's groups take the error's mark. -/
def Sys2Proof.Claims.MatrixSteps : Prop :=
  ∀ (s : State) (t k : Nat) (o : MOp) (r : List MOp) (m : Mark),
    let x := streamAt (tileOf s t) k
    (let u := enterOp s k o
     (streamAt (tileOf u (curTile s)) k).ops = (streamAt (tileOf s (curTile s)) k).ops ++ [o] ∧ (∀ j, j ≠ k → streamAt (tileOf u (curTile s)) j = streamAt (tileOf s (curTile s)) j) ∧
      u.mem = s.mem ∧ u.nextId = s.nextId + 1) ∧
    (((tileOf s t).mxBusy = true ∨ issues s t = false) → exec (.mmaBegin t) s = .next s) ∧
    ((tileOf s t).mxBusy = false → issues s t = true → (tileOf s t).ms = [(k, x)] → x.ops = o :: r → o.kind = 2 → o.begun = false → o.waits = none → x.err = none →
      ∃ u, exec (.mmaBegin t) s = .next u ∧ (tileOf u t).mxBusy = true ∧ (streamAt (tileOf u t) k).ops = { o with begun := true } :: r ∧ (tileOf u t).acc = (tileOf s t).acc ∧
        u.agenda = s.agenda ++ [.matrixOpComplete t k]) ∧
    (x.ops = [] → exec (.matrixOpComplete t k) s = .next s) ∧
    (x.ops = o :: r → x.stall = none → (o.begun = true ∨ issues s t = true) →
      (x.err = some m → ∃ u, exec (.matrixOpComplete t k) s = .next u ∧ (streamAt (tileOf u t) k).ops = r ∧ (tileOf u t).acc = (tileOf s t).acc ∧ (tileOf u t).t = (tileOf s t).t ∧
        (tileOf u t).v = (tileOf s t).v ∧ (o.kind = 4 → ∀ g ∈ macc2vGroups o.lanes o.vd, g ∉ (tileOf u t).vEmpty ∧ mfind (tileOf u t).vFault g = some m)) ∧
      (x.err = none →
        (o.kind = 2 → o.begun = true → o.waits = none → ∃ u, exec (.matrixOpComplete t k) s = .next u ∧ (streamAt (tileOf u t) k).ops = r ∧ (tileOf u t).mxBusy = false ∧
          (tileOf u t).acc = (mmaAll (tileOf s t) o).1.acc ∧ (tileOf u t).t = (tileOf s t).t ∧ .mmaBegin t ∈ u.agenda ∧
          (streamAt (tileOf u t) k).flags = x.flags ||| (mmaAll (tileOf s t) o).2 % 128 ∧ hartOf u o.hart = hartOf s o.hart) ∧
        (o.kind = 3 → ∃ u, exec (.matrixOpComplete t k) s = .next u ∧ (streamAt (tileOf u t) k).ops = r ∧
          ∀ a i j, i < 64 → j < 64 → accAt (tileOf u t) a i j = if a = o.acc then 0 else accAt (tileOf s t) a i j) ∧
        (o.kind = 4 → exec (.matrixOpComplete t k) s = .next (popOp (setTile s t (macc2vAll (tileOf s t) o)) t k)) ∧
        (o.kind = 5 → exec (.matrixOpComplete t k) s
          = .next (popOp (opFlags (setTile s t (macc2tAll (tileOf s t) o).1) t k (macc2tAll (tileOf s t) o).2) t k)) ∧
        ((o.kind = 0 ∨ o.kind = 1) → tcRows o.cfgA ≤ o.pos →
          (repBusy s (ofRows t o) = true → exec (.matrixOpComplete t k) s = .next (postOnce s (.matrixOpComplete t k))) ∧
          (repBusy s (ofRows t o) = false → repErr s (ofRows t o) = false → exec (.matrixOpComplete t k) s = .next (popOp (repClear s (ofRows t o)) t k)) ∧
          (repBusy s (ofRows t o) = false → repErr s (ofRows t o) = true → ∃ u, exec (.matrixOpComplete t k) s = .next u ∧
            (streamAt (tileOf u t) k).err = some ⟨cPROT, 4, o.base, 0⟩)) ∧
        ((o.kind = 0 ∨ o.kind = 1) → o.pos < tcRows o.cfgA → o.begun = false → drainedBefore s o.hart o.seq = false →
          exec (.matrixOpComplete t k) s = .next (post (flushBefore s o.hart o.seq) (.matrixOpComplete t k))) ∧
        ((o.kind = 0 ∨ o.kind = 1) → o.pos < tcRows o.cfgA → (o.begun = true ∨ drainedBefore s o.hart o.seq = true) →
          let w := whoRows s t k o
          let res := if o.kind = 0 then loadRow s w o.sup o.cfgA o.a o.pos (o.base + BitVec.ofNat 64 o.pos * o.stride) o.buf
            else (storeRow s w o.sup o.cfgA o.a o.pos o.base o.stride, [])
          (∀ u, res.1 = .wait u → exec (.matrixOpComplete t k) s
            = .next (retry (setStream u t k { x with ops := { o with begun := true, buf := res.2 } :: r }) (.matrixOpComplete t k, 0))) ∧
          (∀ u y, res.1 = .ok u y → exec (.matrixOpComplete t k) s
            = .next (post (setStream u t k { x with ops := { o with begun := true, pos := o.pos + 1, buf := [] } :: r }) (.matrixOpComplete t k))) ∧
          (∀ u va a fk, res.1 = .serve u va a fk → exec (.matrixOpComplete t k) s
            = .next (setStream (askService u w.part va 2 k t a fk 0 0) t k
                { x with ops := { o with begun := true, buf := res.2 } :: r, stall := some (serviceId u w.part) })) ∧
          (∀ u f, res.1 = .err u f → exec (.matrixOpComplete t k) s = .next (popOp (setStream u t k { x with err := some f }) t k)))))

/-- R231, R334, R335, R339: the elements of an MMA: each is computed from the registers as they stood, and no other accumulator element changes; with INT32 the old element, or 0, plus or minus the
exact sum of products, modulo 2^32; in floating point a group's products are summed exactly before the one rounding that adds them; MACC2V moves element (i, j) of the accumulator to element 64 i + j of its registers. -/
def Sys2Proof.Claims.MatrixValues : Prop :=
  (∀ (t : Tile) (o : MOp) (a i j : Nat), i < 64 → j < 64 →
    accAt (mmaAll t o).1 a i j = (if a = o.acc ∧ i < tcRows o.cfgA ∧ j < tcRows o.cfgB then (mmaElem t o i j).1 % 2 ^ 32 else accAt t a i j) ∧
    (mmaAll t o).1.t = t.t ∧ (mmaAll t o).1.v = t.v) ∧
  (∀ (t : Tile) (o : MOp) (i j : Nat), o.flags / 8 % 2 = 1 → o.flags % 2 = 0 →
    let sum : Int := ((List.range (tcCols o.cfgA)).map fun k => tIntVal t o.cfgA o.a i k * tIntVal t o.cfgB o.b j k).sum
    let old : Int := if o.flags / 4 % 2 = 1 then 0 else accAt t o.acc i j
    mmaElem t o i j = (((old + (if o.flags / 2 % 2 = 1 then -sum else sum)) % 2 ^ 32).toNat, 0)) ∧
  (∀ l : List (Fp × Fp), (∀ q ∈ l, (∃ n m e, q.1 = .fin n m e) ∧ ∃ n m e, q.2 = .fin n m e) →
    value (groupSum l).1 = (l.map fun q => value q.1 * value q.2).sum ∧ (groupSum l).2 = 0) ∧
  (∀ (t : Tile) (o : MOp) (f : Nat), o.lanes ≠ 0 → f < 4096 → o.vd + macc2vRegs o.lanes ≤ 32 →
    let n := rowBytes o.lanes / 4
    vElem (macc2vAll t o) o.lanes (o.vd + f / (8 * n)) (f / n % 8) 32 (f % n) = accAt t o.acc (f / 64) (f % 64) % 2 ^ 32 ∧
    ∀ g ∈ macc2vGroups o.lanes o.vd, g ∉ (macc2vAll t o).vEmpty ∧ mfind (macc2vAll t o).vFault g = none)


namespace Sys2Proof.Claims
open Sys2Proof Sys2Proof.Machine

/-! ## The spatial fabric -/

/-- The fabric f of tile t, with image i, has run u. -/
abbrev Runs (s : State) (t : Nat) (f : Fabric) (i : FImg) (u : FabRun) : Prop := (tileOf s t).fab = some f ∧ f.run = some u ∧ i = imgOf f.image
/-- The run of tile t's fabric. -/
def runAt (s : State) (t : Nat) : Option FabRun := (tileOf s t).fab.bind (·.run)

/-- The grants, operands and alignments FCFG, FRUN and FHALT need (R358). -/
abbrev FabGrant (s : State) (ga gd : BitVec 5) (c : Comp) : Prop :=
  featOn s 4 = true ∧ Ready s [(ga, false), (gd, false)] none ∧ (tileOf s (curTile s)).fb = some s.cur ∧ compBad s (curPart s) (gVal s gd) c = false
abbrev FabReady (s : State) (ga gd : BitVec 5) (c : Comp) (align : Nat) : Prop :=
  FabGrant s ga gd c ∧ (gVal s gd).toNat % 8 = 0 ∧ (gVal s ga).toNat % align = 0
/-- A place of the command that is not aligned, where nothing else keeps the command from issuing: the stamp first (R358). -/
def FabMisaligned (i : Instr) (s : State) (ga gd : BitVec 5) (align : Nat) : Prop :=
  ((gVal s gd).toNat % 8 ≠ 0 → exec i s = traps s 3 0 (gVal s gd)) ∧
  ((gVal s gd).toNat % 8 = 0 → (gVal s ga).toNat % align ≠ 0 → exec i s = traps s 3 0 (gVal s ga))

/-- A record of n words at a, read in w after what its hart captured before. -/
def further (w : State) (a : Word) (n : Nat) (u : State) (words : List Word) : Prop :=
  ∃ bs, readRec w (byRuns a (8 * n) (n / 16 + 2)) = .ok u bs ∧ words = wordsOf n bs

/-- The completion actions of a fabric command of the executing hart in state w (R347). -/
def acts (s w : State) (gd : BitVec 5) (c : Comp) : State := fabActions w (curPart w) (curTile w) w.cur (curH w).sup (gVal s gd) c none

/-- The values of a cell's inputs; an input with no token reads 0. -/
def inVal (u : FabRun) (c : FCell) (n : Nat) : BitVec 32 := match inputHead u c n with | some x => x.d | none => 0
/-- Every fed input of c has a head token of kind k. -/
def headsAre (u : FabRun) (c : FCell) (k : Nat) : Prop := ∀ n ∈ c.fedInputs, ∃ x, inputHead u c n = some x ∧ x.kind = k
/-- No head is a round marker. -/
def unmarked (u : FabRun) (c : FCell) : Prop := ∀ n ∈ c.fedInputs, markHead u (cellQ c.pos n) = false
def consumed (u : FabRun) (c : FCell) : FabRun := consume u c c.fedInputs

end Sys2Proof.Claims

/-- R358, R399 to R401, R404, R407: FCFG reads and checks its image, loads it and makes its completion actions; FRUN reads its arguments and its ports' patterns and starts every node; with a cut it
starts them where the cut stands, with the pattern records the X1 keeps with a saved cut (the model's choice, notes/assumptions/22.md); all four wait for what their hart did before (R151).
FHALT of an idle fabric completes at once, of a running one begins the freeze, and behind a freeze it takes a place in the fabric's queue of four (R345). -/
def Sys2Proof.Claims.FabricCommands : Prop :=
  ∀ (s : State) (ga gd : BitVec 5) (c : Comp),
    let w := flushHart s s.cur
    let a := gVal s ga
    let srcs := [(ga, false), (gd, false)]
    (featOn s 4 = false → exec (.fcfg ga gd c) s = traps s 1 0 0 ∧ exec (.frun ga gd c) s = traps s 1 0 0 ∧ exec (.frunResume ga gd c) s = traps s 1 0 0 ∧
      exec (.fhalt ga gd c) s = traps s 1 0 0) ∧
    (FabGrant s ga gd c → (fabBusy s (curTile s) = true → exec (.fcfg ga gd c) s = traps s 0x0B 0 0) ∧
      (ownFabric s = none → exec (.frun ga gd c) s = traps s 0x0B 0 0 ∧ exec (.frunResume ga gd c) s = traps s 0x0B 0 0) ∧
      (fabBusy s (curTile s) = false → FabMisaligned (.fcfg ga gd c) s ga gd 128) ∧ (ownFabric s ≠ none → FabMisaligned (.frun ga gd c) s ga gd 8) ∧
      (ownFabric s ≠ none → FabMisaligned (.frunResume ga gd c) s ga gd 128) ∧ FabMisaligned (.fhalt ga gd c) s ga gd 128) ∧
    (FabReady s ga gd c 128 → fabBusy s (curTile s) = false → ∀ u h v l, captured w a 8 u h →
      (headBad (h.getD 0 0) = true → exec (.fcfg ga gd c) s = .next (takeTrap u 0x0B 0 a (curH s).pc)) ∧
      (headBad (h.getD 0 0) = false → further u a (imgWords (h.getD 0 0)) v l →
        (imgBad (imgOf l) = true → exec (.fcfg ga gd c) s = .next (takeTrap v 0x0B 0 a (curH s).pc)) ∧
        (imgBad (imgOf l) = false → ((imgOf l).join = false ∨ joinBad v = false) → claimBad v (imgOf l) = false →
          exec (.fcfg ga gd c) s = ends4 s (popSrcs (fabActions (loadImage v l (imgOf l)) (curPart v) (curTile v) v.cur (curH v).sup (gVal s gd) c none) srcs)))) ∧
    (FabReady s ga gd c 8 → ∀ f, ownFabric s = some f → ∀ u args, captured w a (imgOf f.image).narg u args →
      (∀ x ∈ (imgOf f.image).awls, baseBad args x = false) → ∀ v pats, (∀ K, readPats u args (imgOf f.image).ports [] K = K v pats) → ∃ t r, exec (.frun ga gd c) s = .next t ∧ (curH t).pc = (curH s).pc + 16 ∧
        runAt t (curTile s) = some r ∧ r.gd = gVal s gd ∧ r.comp = c ∧ r.queues = [] ∧ r.stopped = false ∧ r.freeze = none ∧
        (∀ x ∈ (imgOf f.image).awls, (∀ y ∈ (imgOf f.image).awls, y.n = x.n → y = x) → mfind r.awls x.n = some (newAwl (args.getD x.bslot 0 + x.boff)) ∧
          .awlElement (curTile s) x.n ∈ t.agenda) ∧
        (∀ x ∈ cellsOf (imgOf f.image), .cellFire (curTile s) x.pos ∈ t.agenda) ∧
        (∀ x ∈ (imgOf f.image).ports, .portElement (curTile s) x.q ∈ t.agenda) ∧ t.mem = v.mem) ∧
    (FabReady s ga gd c 128 → ∀ f, ownFabric s = some f → ∀ u l, captured w a (cutSize (imgOf f.image)) u l →
      (cutBad f (imgOf f.image) l = true → exec (.frunResume ga gd c) s = .next (takeTrap u 0x0B 0 a (curH s).pc)) ∧
      (cutBad f (imgOf f.image) l = false → cutPats u f.part a l (imgOf f.image).ports = none → exec (.frunResume ga gd c) s = .next (takeTrap u 0x0B 0 0 (curH s).pc)) ∧
      (∀ pats, cutBad f (imgOf f.image) l = false → cutPats u f.part a l (imgOf f.image).ports = some pats →
        let i := imgOf f.image
        let k := i.awls.zipIdx.foldl (fun k q =>
          let w3 := l.getD (cutAwlAt i + 72 * q.2 + 3) 0
          let k := awlMoved k (curTile u) f i q.1 (bits w3 31 0)
          if bitOf w3 34 then claimAnswer k f.part (bits w3 50 35) (tileOfAwl i (curTile u) q.1.n) q.1.n else k) u
        exec (.frunResume ga gd c) s
          = ends4 s (popSrcs (startNodes (putRun (setPats k (curTile u) i (gVal s gd) pats) (curTile u) i (restoreRun u f i (newRun u (gVal s gd) c) l)) (curTile u) i) srcs))) ∧
    (FabReady s ga gd c 128 → drained w w.cur = false → exec (.fhalt ga gd c) s = .next (setCur w { curH w with wait := .drain })) ∧
    (FabReady s ga gd c 128 → drained w w.cur = true →
      let z : Freeze := { swap := false, ga := a, gd := gVal s gd, comp := c, sup := (curH w).sup, hart := w.cur, since := w.clock, pos := 0 }
      ((∀ f l, fabOf w (curTile w) = some f → fabOf w f.lead = some l → l.run = none) → exec (.fhalt ga gd c) s = ends4 s (popSrcs (acts s w gd c) srcs)) ∧
      (∀ f l u, fabOf w (curTile w) = some f → fabOf w f.lead = some l → l.run = some u →
        (u.freeze = none → u.stopped = false → runOver (imgOf l.image) u = false →
          exec (.fhalt ga gd c) s = ends4 s (popSrcs (postOnce (beginFreeze w f.lead (imgOf l.image) u z) (.cutWrite f.lead)) srcs)) ∧
        (u.freeze = none → (u.stopped = true ∨ runOver (imgOf l.image) u = true) → exec (.fhalt ga gd c) s = ends4 s (popSrcs (acts s w gd c) srcs)) ∧
        (u.freeze ≠ none → 3 ≤ l.halts.length → exec (.fhalt ga gd c) s = .next (setCur w { curH w with wait := .queue })) ∧
        (u.freeze ≠ none → l.halts.length < 3 → exec (.fhalt ga gd c) s
          = ends4 s (popSrcs (setTile w f.lead { tileOf w f.lead with fab := some { l with halts := l.halts ++ [z] } }) srcs))))

/-- R388 to R391, R403, R404: a cell fires when every fed input has a token and every queue it feeds has room: it consumes them and sends its result, or one end for the ends it meets; data that meet an end
stop the run; an accumulator takes its data in, and sends them before the end; a sink records its end. A cell with a marker at a head, or frozen, does not fire. -/
def Sys2Proof.Claims.FabricCells : Prop :=
  ∀ (s : State) (t : Nat) (f : Fabric) (i : FImg) (u : FabRun) (c : FCell) (z : Freeze),
    (Runs s t f i u → i.cell c.pos = some c →
      (u.stopped = false → u.frozen.contains c.pos = false → exec (.cellFire t c.pos) s = .next (postOnce (putRun s t i (cellStep i u c)) (.cellFire t c.pos))) ∧
      ((u.stopped = true ∨ u.frozen.contains c.pos = true) → exec (.cellFire t c.pos) s = .next s) ∧
      (u.freeze = some z → exec (.cellFreeze t c.pos) s
        = .next (if (freezeCell i u c).frozen.contains c.pos then setRun s t (freezeCell i u c) else postOnce s (.cellFreeze t c.pos)))) ∧
    (u.stopped = false → u.frozen.contains c.pos = false → unmarked u c → c.op ≤ 30 → c.op ∉ [0, 27, 29] →
      ((∃ n ∈ c.fedInputs, inputHead u c n = none) → cellStep i u c = u) ∧
      (c.op ∉ [26, 28, 30] → headsAre u c 0 → cellStep i u c
        = if room u (feeds i c.pos) 1 then push (consumed u c) (feeds i c.pos) (dataTok (opVal c.op c.param (inVal u c 0) (inVal u c 1) (inVal u c 2))) else u) ∧
      (c.op ∉ [28, 30] → c.fedInputs ≠ [] → headsAre u c 1 → room u (feeds i c.pos) 1 = true →
        cellStep i u c = push (consumed u c) (feeds i c.pos) (endOf (c.fedInputs.filterMap (inputHead u c)))) ∧
      ((∃ n ∈ c.fedInputs, ∃ x, inputHead u c n = some x ∧ x.kind = 0) → (∃ n ∈ c.fedInputs, ∃ x, inputHead u c n = some x ∧ x.kind = 1) →
        (∀ n ∈ c.fedInputs, inputHead u c n ≠ none) → (cellStep i u c).stopped = true) ∧
      (c.op = 28 → headsAre u c 0 → (cellStep i u c).acc = mput u.acc c.pos (accVal c.param (mgetD u.acc c.pos c.imm) (inVal u c 0)) ∧ (cellStep i u c).queues = (consumed u c).queues) ∧
      (c.op = 28 → c.fedInputs ≠ [] → headsAre u c 1 → room u (feeds i c.pos) 2 = true → (cellStep i u c).queues
        = (push (push (consumed u c) (feeds i c.pos) (dataTok (mgetD u.acc c.pos c.imm))) (feeds i c.pos) (endOf (c.fedInputs.filterMap (inputHead u c)))).queues ∧
        mgetD (cellStep i u c).acc c.pos 0 = c.imm) ∧
      (c.op = 30 → headsAre u c 0 → cellStep i u c = consumed u c) ∧
      (c.op = 30 → c.fedInputs ≠ [] → headsAre u c 1 → (cellStep i u c).sinks = c.pos :: u.sinks)) ∧
    ((u.frozen.contains c.pos = true ∨ ∃ n ∈ c.fedInputs, markHead u (cellQ c.pos n) = true) → cellStep i u c = u)

/-- R390, R391: the results of the cells' operations. -/
def Sys2Proof.Claims.FabricOperations : Prop :=
  ∀ (p : Nat) (a b c x : BitVec 32),
    let fp (v : BitVec 32) : Fp := fp32.get false v.toNat
    let put (v : Fp) : BitVec 32 := BitVec.ofNat 32 (fp32.put 0 false v).1
    let sh := b.toNat % 32
    opVal 1 p a b c = a ∧ opVal 2 p a b c = a + b ∧ opVal 3 p a b c = a - b ∧ opVal 4 p a b c = a * b ∧ opVal 5 p a b c = a &&& b ∧ opVal 6 p a b c = a ||| b ∧
    opVal 7 p a b c = a ^^^ b ∧ opVal 8 p a b c = a <<< sh ∧ opVal 9 p a b c = a >>> sh ∧ opVal 10 p a b c = a.sshiftRight sh ∧
    opVal 11 p a b c = (if a.toInt ≤ b.toInt then a else b) ∧ opVal 12 p a b c = (if a.toInt ≤ b.toInt then b else a) ∧
    opVal 13 p a b c = (if a.toNat ≤ b.toNat then a else b) ∧ opVal 14 p a b c = (if a.toNat ≤ b.toNat then b else a) ∧
    (p < 8 → opVal 15 p a b c = if icond p a b then 1 else 0) ∧ opVal 16 p a b c = (if c ≠ 0 then a else b) ∧
    opVal 17 p a b c = put (fpAdd 0 (fp a) (fp b)).1 ∧ opVal 18 p a b c = put (fpAdd 0 (fp a) (fp b).neg).1 ∧ opVal 19 p a b c = put (fpMul (fp a) (fp b)).1 ∧
    opVal 20 p a b c = put (fpFma 0 (fp a) (fp b) (fp c)).1 ∧ opVal 21 p a b c = put (fpMinMax false (fp a) (fp b)).1 ∧ opVal 22 p a b c = put (fpMinMax true (fp a) (fp b)).1 ∧
    opVal 24 0 a b c = put (intFp a.toInt) ∧ opVal 24 1 a b c = put (intFp a.toNat) ∧
    opVal 25 p a b c = (hmix64 (a.setWidth 64) (b.setWidth 64)).setWidth 32 ∧
    accVal 0 x a = x + a ∧ accVal 1 x a = put (fpAdd 0 (fp x) (fp a)).1 ∧ accVal 2 x a = (if x.toInt ≤ a.toInt then x else a) ∧ accVal 3 x a = (if x.toInt ≤ a.toInt then a else x) ∧
    accVal 4 x a = (if x.toNat ≤ a.toNat then x else a) ∧ accVal 5 x a = (if x.toNat ≤ a.toNat then a else x)

/-- R38, R40, R392 to R397, R402: an awl's elements: a load that has room asks for its next element's extent, or its access within the one it holds, and takes MISALIGN for a place not aligned; its values leave in element
order, and then its end; a translation's answer gives the extent, and its fault a request of the translation service; the memory interface refuses what lies outside the extent, has another partition's tag, or stores without write intent (R40). What it takes joins a burst of one
granule: a load's data follow, and a store's element is performed, with the others of its burst, when the burst closes: a full granule written by consecutive elements is one write (R397, R461). Which bursts
wait for a full granule is the model's choice (notes/assumptions/41.md). The access performed moves the awl on. -/
def Sys2Proof.Claims.FabricAwls : Prop :=
  ∀ (s : State) (t n q : Nat) (f : Fabric) (i : FImg) (u : FabRun) (a : FAwl) (x : Awl), Runs s t f i u → i.awl n = some a → mfind u.awls n = some x → u.stopped = false →
    let va := nowAddr u a x
    ((x.frozen = true ∨ x.req.isSome = true ∨ x.busy = true) → exec (.awlElement t n) s = .next s) ∧
    (x.frozen = false → x.req = none → x.busy = false → u.freeze = none → x.fault = none → a.store = false → a.oout = false → a.idx = false → a.oin = none → x.endSent = false →
      (x.gen < awlTotal a → x.ended = false → x.emitted = x.gen →
        (va.toNat % 2 ^ a.esz = 0 → x.extent = none → ∃ w, exec (.awlElement t n) s = .next w ∧ .xlateTranslate t n ∈ w.agenda) ∧
        (va.toNat % 2 ^ a.esz = 0 → ∀ y, x.extent = some y → (va - y.va0).toNat < y.left →
          ∃ w r, exec (.awlElement t n) s = .next w ∧ .miuAccess t n ∈ w.agenda ∧ runAt w t = some r ∧ mfind r.awls n = some { x with busy := true }) ∧
        (va.toNat % 2 ^ a.esz ≠ 0 → ∃ w r y, exec (.awlElement t n) s = .next w ∧ runAt w t = some r ∧ mfind r.awls n = some y ∧ y.fault = some ⟨3, 0, va, 0⟩)) ∧
      (awlTotal a ≤ x.gen → room u (feeds i (awlSrc n)) 1 = true → feeds i (awlSrc n) = [q] →
        (∀ v, x.emitted < x.gen → mfind x.buf x.emitted = some v → ∃ w r y, exec (.awlElement t n) s = .next w ∧ runAt w t = some r ∧
          queueAt r q = queueAt u q ++ [dataTok (v.setWidth 32)] ∧ mfind r.awls n = some y ∧ y.emitted = x.emitted + 1) ∧
        (x.emitted = x.gen → ∃ w r y, exec (.awlElement t n) s = .next w ∧ runAt w t = some r ∧
          queueAt r q = queueAt u q ++ [endTok] ∧ mfind r.awls n = some y ∧ y.endSent = true))) ∧
    (x.frozen = false → x.req = none →
      (∀ w y, xlate s (tileOfCell i t a.xsrc) f.part va (awlIntent i a) u.sup = .ok w y → exec (.xlateTranslate t n) s
        = .next (postOnce (setRun w t (setAwl u n (if y.io then { x with answer := some 1 } else
          { x with extent := some { va0 := va, pk := y.pk va, left := y.vbase + y.size - va.toNat, part := f.part, wr := decide (awlIntent i a = .write), vcid := y.vcid } })))
          (.awlExtentAnswer t n))) ∧
      (∀ w c sb, xlate s (tileOfCell i t a.xsrc) f.part va (awlIntent i a) u.sup = .fault w c sb → exec (.xlateTranslate t n) s
        = .next (postOnce (setRun w t (setAwl u n { x with extent := none, answer := some (if c = 5 then 1 else 0) })) (.awlExtentAnswer t n)))) ∧
    (x.frozen = false → x.fault = none →
      (x.answer = none → exec (.awlExtentAnswer t n) s = .next (postOnce (setRun s t u) (.awlElement t n))) ∧
      (∀ k, x.answer = some k → u.freeze = none → exec (.awlExtentAnswer t n) s
        = .next (askService (setRun s t (setAwl u n { x with answer := none, req := some (serviceId s f.part), fkind := k })) f.part va 3 (n % 16) (tileOfAwl i t n)
            (if a.store then 1 else 0) k u.gd n))) ∧
    (x.burst = none → exec (.miuBurstClose t n) s = .next s) ∧
    (∀ b, x.burst = some b →
      let goes (w : State) (r : FabRun) : State := postOnce (putRun w t i r) (if x.busy then .miuAccess t n else .awlElement t n)
      (burstDue s u x b = false → exec (.miuBurstClose t n) s = .next (postOnce s (.miuBurstClose t n))) ∧
      (burstDue s u x b = true → b.store = false → exec (.miuBurstClose t n) s
        = .next (if b.send then goes s (setAwl u n { x with burst := none }) else setRun s t (setAwl u n { x with burst := none }))) ∧
      (burstDue s u x b = true → b.store = true →
        (∀ w r, burstWrite s (whoAwl f i t n (.miuBurstClose t n)) b = .ok w r → exec (.miuBurstClose t n) s
          = .next (goes (awlMoved w t f i a (x.elem + b.n)) (setAwl u n { x with elem := x.elem + b.n, burst := none }))) ∧
        (∀ w, burstWrite s (whoAwl f i t n (.miuBurstClose t n)) b = .wait w → exec (.miuBurstClose t n) s = .next (retry w (.miuBurstClose t n, 0))))) ∧
    (x.busy = true → ∀ y, x.extent = some y →
      ((y.left < (va - y.va0).toNat + 2 ^ a.esz ∨ y.part ≠ f.part ∨ (a.store = true ∧ y.wr = false)) → miuRefuses s f a y va = some 0) ∧
      (∀ sb, miuRefuses s f a y va = some sb → ∃ w r z, exec (.miuAccess t n) s = .next w ∧
        (∀ b, homeByte w b = homeByte s b) ∧ runAt w t = some r ∧ mfind r.awls n = some z ∧ z.fault = some ⟨5, sb, va, 0⟩) ∧
      (miuRefuses s f a y va = none →
        (joinBurst a x (awlPiece a y va) = none → ∃ w r z b, exec (.miuAccess t n) s = .next w ∧ .miuBurstClose t n ∈ w.agenda ∧ w.mem = s.mem ∧
          runAt w t = some r ∧ mfind r.awls n = some z ∧ z.busy = true ∧ z.burst = some b ∧ b.send = true) ∧
        (∀ b, joinBurst a x (awlPiece a y va) = some b →
          (a.store = false → ∃ w, exec (.miuAccess t n) s = .next w ∧ .awlLoadReturn t n ∈ w.agenda ∧ .miuBurstClose t n ∈ w.agenda ∧ w.mem = s.mem) ∧
          (a.store = true → ∃ w r z d, exec (.miuAccess t n) s = .next w ∧ .miuBurstClose t n ∈ w.agenda ∧ w.mem = s.mem ∧ runAt w t = some r ∧ mfind r.awls n = some z ∧
            z.gen = x.gen + 1 ∧ z.elem = x.elem ∧ z.busy = false ∧ z.burst = some d ∧ d.n = b.n + 1 ∧ d.gk = b.gk ∧
            (d.data, d.mask) = putCopy b.data b.mask ((awlPiece a y va).pk % 128) (leBytes (2 ^ a.esz) (match headAt u (awlQ n 0) with | some k => k.d.toNat | none => 0)) ∧
            (d.mask = BitVec.allOnes 128 ∨ awlTotal a ≤ x.gen + 1 → d.send = true)))) ∧
      (∀ w bs, accRead s (whoAwl f i t n (.awlLoadReturn t n)) (awlPiece a y va) = .ok w bs → exec (.awlLoadReturn t n) s
        = .next (elementDone w t f i u a { x with buf := mput x.buf x.gen (if a.u then BitVec.ofNat 64 (leNat bs) else sext (8 * 2 ^ a.esz) (leNat bs)) })) ∧
      (∀ w, accRead s (whoAwl f i t n (.awlLoadReturn t n)) (awlPiece a y va) = .wait w → exec (.awlLoadReturn t n) s = .next (retry w (.awlLoadReturn t n, 0)))) ∧
    (∃ r y, runAt (elementDone s t f i u a x) t = some r ∧ mfind r.awls n = some y ∧ y.gen = x.gen + 1 ∧ y.elem = x.elem + 1 ∧ y.busy = false ∧
      y.ended = decide (awlTotal a ≤ x.gen + 1)) ∧
    (∀ b : Burst, (burstRuns b).flatMap (fun q => q.2.zipIdx.map fun z => (q.1 + BitVec.ofNat 64 z.2, z.1))
      = ((List.range 128).filter (maskBit b.mask)).map fun o => (b.va + BitVec.ofNat 64 o, granByte b.data o))

/-- R398, R403, R404, R406, R407, R461: a port moves one position after another between memory and its queue, a write port gathering the positions that write a granule whole into one write, and takes or sends its end; a run that is over ends with its completion actions; a freeze writes its cut once
everything stands, and is given up after 65,536 clocks. -/
def Sys2Proof.Claims.FabricPortsAndEnds : Prop :=
  ∀ (s : State) (t n : Nat) (f : Fabric) (i : FImg) (u : FabRun) (p : FPortE) (x : FPort) (e : SEng) (z : Freeze), Runs s t f i u →
    (i.ports.find? (·.q == n) = some p → mfind u.ports n = some x → mfind (tileOf s t).se n = some e → u.stopped = false → x.frozen = false → e.stall = none → e.err = none →
      let va := patAddr e.recd x.pos
      ((p.write = false → u.freeze = none → x.endDone = false → room u (feeds i (portSrc n)) 1 = true →
        (patTotal e.recd ≤ x.pos → exec (.portElement t n) s
          = .next (postOnce (putRun s t i (setPort (push u (feeds i (portSrc n)) endTok) n { x with endDone := true })) (.portElement t n))) ∧
        (x.pos < patTotal e.recd → ∀ w bs, engRead s (whoEng e t n (.portElement t n)) e.sup va (patBytes e.recd) = .ok w bs → exec (.portElement t n) s
          = .next (postOnce (putRun (setEng w t n e) t i (setPort (push u (feeds i (portSrc n)) (dataTok ((popValue e bs).setWidth 32))) n { x with pos := x.pos + 1 })) (.portElement t n)))) ∧
       (p.write = true → u.freeze = none → e.data ≠ [] →
        let left := patTotal e.recd - (x.pos + e.data.length)
        (∀ k, headAt u (portQ n) = some k → k.kind = 0 → left ≠ 0 → e.data.length * patBytes e.recd < 4096 → exec (.portElement t n) s
          = .next (postOnce (putRun (setEng s t n { e with data := e.data ++ [k.d.setWidth 64], mask := e.mask ++ [true] }) t i (popQ u (portQ n))) (.portElement t n))) ∧
        ((left = 0 ∨ 4096 ≤ e.data.length * patBytes e.recd ∨ ∀ k, headAt u (portQ n) = some k → k.kind = 1) →
          (e.mask.headD true = false → exec (.portElement t n) s
            = .next (postOnce (putRun (setEng s t n (dropPush e [0])) t i (setPort u n { x with pos := x.pos + 1 })) (.portElement t n))) ∧
          (e.mask.headD true = true → ∀ l, nextPush e.recd x.pos e.data e.mask (left != 0 && (headAt u (portQ n)).isNone) = some l → ∀ w bs,
            engWrite s (whoEng e t n (.portElement t n)) e.sup (pushBytes e.recd x.pos e.data l).1 (pushBytes e.recd x.pos e.data l).2 = .ok w bs → exec (.portElement t n) s
              = .next (postOnce (putRun (setEng w t n (dropPush e l)) t i (setPort u n { x with pos := x.pos + 1 })) (.portElement t n))))) ∧
       (p.write = true → u.freeze = none → e.data = [] → ∀ k, headAt u (portQ n) = some k →
        (k.kind = 0 → x.pos < patTotal e.recd → wholePos e.recd x.pos = none → ∀ w bs,
          engWrite s (whoEng e t n (.portElement t n)) e.sup va (leBytes (patBytes e.recd) k.d.toNat) = .ok w bs → exec (.portElement t n) s
            = .next (postOnce (putRun (setEng w t n e) t i (setPort (popQ u (portQ n)) n { x with pos := x.pos + 1 })) (.portElement t n))) ∧
        (k.kind = 0 → x.pos < patTotal e.recd → wholePos e.recd x.pos ≠ none → ∀ w bs,
          engXlate s (whoEng e t n (.portElement t n)) e.sup va (patBytes e.recd) .write (fun v _ => .ok v []) = .ok w bs → exec (.portElement t n) s
            = .next (postOnce (putRun (setEng w t n { e with data := e.data ++ [k.d.setWidth 64], mask := e.mask ++ [true] }) t i (popQ u (portQ n))) (.portElement t n))) ∧
        (k = endTok → x.endDone = false → patTotal e.recd ≤ x.pos → exec (.portElement t n) s
          = .next (postOnce (putRun s t i (setPort (popQ u (portQ n)) n { x with endDone := true })) (.portElement t n)))))) ∧
    (runOver i u = false → exec (.fabricRunComplete t) s = .next s) ∧
    (runOver i u = true → s.reps = [] → u.freeze = none → u.err = none → ∃ w, exec (.fabricRunComplete t) s = .next w ∧ runAt w t = none ∧ (fabOf w t).map (·.image) = some f.image ∧
      (∀ b, homeByte w b = homeByte s b) ∧ (u.comp.add ≠ 0 → .counterRaise u.comp.ctile.toNat u.comp.ctr.toNat (u.comp.add.setWidth 64) ∈ w.agenda)) ∧
    (u.freeze = some z → z.swap = false →
      (runOver i u = false → allFrozen i u = false → exec (.cutWrite t) s = .next (postOnce s (.cutWrite t))) ∧
      (runOver i u = false → allFrozen i u = true → z.pos < (cutWords f i u).length → ∀ w r,
        engWrite s (whoCut t f.part) z.sup (z.ga + BitVec.ofNat 64 (8 * z.pos))
          ((((cutWords f i u).drop z.pos).take 16).flatMap fun x => leBytes 8 x.toNat) = .ok w r →
        exec (.cutWrite t) s = .next (postOnce (setRun w t { u with freeze := some { z with pos := z.pos + 16 } }) (.cutWrite t))) ∧
      (runOver i u = false → allFrozen i u = true → (cutWords f i u).length ≤ z.pos → repBusy s (ofCut t) = true →
        exec (.cutWrite t) s = .next (postOnce s (.cutWrite t))) ∧
      (runOver i u = false → allFrozen i u = true → (cutWords f i u).length ≤ z.pos → repBusy s (ofCut t) = false → ∃ w, exec (.cutWrite t) s = .next w ∧ runAt w t = none ∧
        (z.comp.add ≠ 0 → .counterRaise z.comp.ctile.toNat z.comp.ctr.toNat (z.comp.add.setWidth 64) ∈ w.agenda)) ∧
      (allFrozen i u = false → s.clock < z.since + 65536 → exec (.freezeAbandon t) s = .next (postOnce s (.freezeAbandon t))) ∧
      (allFrozen i u = false → z.since + 65536 ≤ s.clock → ∃ w, exec (.freezeAbandon t) s = .next w ∧ runAt w t = none))


namespace Sys2Proof.Claims
open Sys2Proof Sys2Proof.Machine

/-! ## Pod operations, routers and links -/

/-- An incoming operation the peer table admits: its partition runs, its peer mapping names its origin, and its tag's counter is its own (R51, R364, R434). -/
abbrev admits (s : State) (p : PodIn) : Prop := podAdmits s p = true ∧ podTagOk s p = true
/-- An incoming operation goes on in state w with pieces xs: one that writes waits while an earlier one of its circuit has bytes of its own there (R166). -/
def PodGoes (p : PodIn) (i : Instr) (s w : State) (ev : Event) (k : AccKind) (xs : List Piece) (done : State → List Piece → Prop) : Prop :=
  (k ≠ .read → podBehind w p xs = true → exec i s = .next (postOnce w ev)) ∧ ((k = .read ∨ podBehind w p xs = false) → done w xs)

/-- An incoming operation i of n bytes that needs kind k of access: refused, logged and answered negatively, before anything of it is performed; or performed as done says; one
that is under way goes on with the pieces it has left (R51). -/
def PodRule (s : State) (p : PodIn) (i : Instr) (ev : Event) (n : Nat) (k : AccKind) (done : State → List Piece → Prop) : Prop :=
  (∀ a, admittedOp s p = some a → PodGoes p i s s ev k a.pieces done) ∧
  (admittedOp s p = none →
    (¬admits s p → exec i s = .next (podRefuse s p p.va k)) ∧
    (admits s p →
      (∀ u va, podPieces s p.part p.va n k (n / 128 + 2) = .bad u va → exec i s = .next (podPageRefused u p va k)) ∧
      (∀ u xs, podPieces s p.part p.va n k (n / 128 + 2) = .ok u xs → PodGoes p i s (letIn u p p.va xs (k != .read)) ev k xs done)))

/-- One granule x of an operation that writes, then the rest, or the positive answer with the tag's raises, once earlier payloads for the same counter are performed (R159, R366); an
error ends it with a negative answer. -/
def PodWrites (p : PodIn) (i : Instr) (s w : State) (xs : List Piece) (act : Piece → Acc) (rest : PodIn → Nat → Event) : Prop :=
  (xs = [] → exec i s = .next (if raisesWait w p = true then postOnce w (rest p 0) else podPerformed w p [])) ∧
  (∀ x r, xs = x :: r →
    (∀ u bs, act x = .ok u bs → exec i s = .next (if r = [] ∧ raisesWait u p = false then podPerformed u p []
      else post (letIn u p (p.va + BitVec.ofNat 64 x.n) r true) (rest { p with va := p.va + BitVec.ofNat 64 x.n } x.n))) ∧
    (∀ u, act x = .wait u → exec i s = .next (retry u (rest p 0, 0))) ∧
    (∀ u c sb, act x = .err u c sb → exec i s = .next (podDone u p true [])))

/-- The element a cluster's router holds under a number. -/
def elemAt (s : State) (c e : Nat) : Option RElem := s.relems.find? fun y => y.cluster == c && y.elem == e

end Sys2Proof.Claims

/-- R51, R159, R166, R364, R366, R385, R434, R442, R458: PUT, multicast, GET, RAMO and RRED as they arrive: admitted by the peer table, translated, performed at the homes granule by granule, and answered; the raises of
its tag follow, after the payloads that came before it for the same counter. A refusal is logged with its address at the die of its stack. That a refused operation's raises with OE = 1 are all made or none of them,
which is left free, is the model's choice (notes/assumptions/45.md). -/
def Sys2Proof.Claims.PodArrivals : Prop :=
  ∀ (s : State) (p : PodIn) (bytes : List (BitVec 8)) (len f : Nat) (dw : Bool) (v c : Word),
    PodRule s p (.incomingPut p bytes) (.incomingPut p bytes) bytes.length .write (fun w xs => PodWrites p (.incomingPut p bytes) s w xs
      (fun x => accWrite w (whoPod p.part (.incomingPut p bytes)) x (bytes.take x.n) true) fun q n => .incomingPut q (bytes.drop n)) ∧
    PodRule s p (.incomingMcast p bytes) (.incomingMcast p bytes) bytes.length .write (fun w xs => PodWrites p (.incomingMcast p bytes) s w xs
      (fun x => accWrite w (whoPod p.part (.incomingMcast p bytes)) x (bytes.take x.n) true) fun q n => .incomingMcast q (bytes.drop n)) ∧
    PodRule s p (.incomingRred p f dw bytes) (.incomingRred p f dw bytes) bytes.length .amo (fun w xs => PodWrites p (.incomingRred p f dw bytes) s w xs
      (fun x => rredPiece w (whoPod p.part (.incomingRred p f dw bytes)) f (if f = 9 then 2 else if dw then 8 else 4) x bytes 64) fun q n => .incomingRred q f dw (bytes.drop n)) ∧
    PodRule s p (.incomingGet p len) (.incomingGet p len) len .read (fun w xs =>
      (∀ u bs, accReads w (whoPod p.part (.incomingGet p len)) xs = .ok u bs → exec (.incomingGet p len) s = .next (podPerformed u p bs)) ∧
      (∀ u, accReads w (whoPod p.part (.incomingGet p len)) xs = .wait u → exec (.incomingGet p len) s = .next (retry u (.incomingGet p len, 0))) ∧
      (∀ u a b, accReads w (whoPod p.part (.incomingGet p len)) xs = .err u a b → exec (.incomingGet p len) s = .next (podDone u p true []))) ∧
    PodRule s p (.incomingRamo p f dw v c) (.incomingRamo p f dw v c) (if dw then 8 else 4) .amo (fun w xs => ∀ x, xs = [x] →
      (∀ u bs, accRmw w (whoPod p.part (.incomingRamo p f dw v c)) x (amoBytes f dw v c) = .ok u bs → exec (.incomingRamo p f dw v c) s = .next (podPerformed u p bs)) ∧
      (∀ u, accRmw w (whoPod p.part (.incomingRamo p f dw v c)) x (amoBytes f dw v c) = .wait u → exec (.incomingRamo p f dw v c) s = .next (retry u (.incomingRamo p f dw v c, 0)))) ∧
    (∀ va k, (podRefuse s p va k).out = s.out ++ [.podAnswer p.pkg p.otile p.ocmd true []] ∧ (podRefuse s p va k).agenda = s.agenda ∧
      (podRefuse s p va k).mem = (boxAdd s (4 + podStack s p.part va k) 4 p.part va.toNat 0).mem ∧ (p.oe = 0 → podPageRefused s p va k = podRefuse s p va k) ∧
      (podPageRefused s p va k = podRefuse s p va k ∨ podPageRefused s p va k = podRefuse (drew s) p va k ∨ podPageRefused s p va k = podRefuse (podRaise (drew s) p p.oe) p va k)) ∧
    (podDone s p true []).out = s.out ++ [.podAnswer p.pkg p.otile p.ocmd true []] ∧
    (∀ b, (podPerformed s p b).out = s.out ++ [.podAnswer p.pkg p.otile p.ocmd false b]) ∧
    (∀ g b, p.tag = some g → p.raises ≠ 0 → .counterRaise g.tt.toNat g.tk.toNat (BitVec.ofNat 64 p.raises) ∈ (podPerformed s p b).agenda)

/-- R375, R380, R383 to R385, R455: answers go to the command, the router element or the merge entry that waits for them; a merge entry goes out in one message for each run of its elements, with the raises
of its tag. A multicast goes packet by packet, of 256 bytes at most, to every member its group entry then names, and its origin is answered when every member has answered every packet; that the members counted
are those of the first packet is the model's choice (notes/assumptions/25.md). -/
def Sys2Proof.Claims.PodAnswers : Prop :=
  ∀ (s : State) (t id n low : Nat) (neg : Bool) (bs : List (BitVec 8)) (c : Cmd) (m : PodM) (y : McastT),
    (t < 512 → cmdOf s t id = some c → tilePart s t = some c.part → exec (.podAnswer t id neg bs n low) s
      = .next (podAnswered s t id (neg || n != 0) bs
          (if c.k = 8 then amoResult c.func c.comp.sz (leNat bs) else BitVec.ofNat 64 (n + (if n = 0 then 0 else low * 2 ^ 16))))) ∧
    (512 ≤ t → t < 1024 → elemAt s (t - 512) id = none → exec (.podAnswer t id neg bs n low) s = .next s) ∧
    (1024 ≤ t → (s.podMerge.find? fun m => m.id == id) = some m → 1 < m.due → exec (.podAnswer t id neg bs n low) s
      = .next { s with podMerge := s.podMerge.map fun x => if x.id == id then { m with due := m.due - 1, neg := m.neg || neg } else x }) ∧
    (1024 ≤ t → (s.podMerge.find? fun m => m.id == id) = some m → m.due ≤ 1 → m.cmds = [] → exec (.podAnswer t id neg bs n low) s
      = .next { s with podMerge := s.podMerge.filter fun x => x.id != id }) ∧
    ((s.podMerge.find? fun m => m.id == id) = some m → m.sent = false → (peerOf s m.part m.dpkg).isSome = true → pathFenced s m.dpkg = false → pathWaits s m.dpkg = true →
      exec (.podMergeSend id) s = .next (post s (.podMergeSend id))) ∧
    ((s.podMerge.find? fun m => m.id == id) = some m → m.sent = false → (peerOf s m.part m.dpkg).isSome = true → pathFenced s m.dpkg = false →
      (mergeReady s m = false ∨ raisesOf s m.tag m.cmds = none) → exec (.podMergeSend id) s = .next (post s (.podMergeSend id))) ∧
    (∀ q o b k oe, (s.podMerge.find? fun m => m.id == id) = some m → m.sent = false → pathFenced s m.dpkg = false → pathWaits s m.dpkg = false → peerOf s m.part m.dpkg = some q →
      mergeReady s m = true → raisesOf s m.tag m.cmds = some (k, oe) → mergeRuns m.bytes m.vals = [(o, b)] → ∃ u, exec (.podMergeSend id) s = .next u ∧ u.mem = s.mem ∧
        u.out = s.out ++ [.pod 1024 id (9 + 16 * m.func + 256 * (m.bytes == 8).toNat) m.part m.dpkg q (BitVec.ofNat 64 (m.gran * 128 + o)) b.length (packetsOf m.dpkg 3 none b 1) m.tag k oe]) ∧
    (m.sent = true → (s.podMerge.find? fun m => m.id == id) = some m → exec (.podMergeSend id) s = .next s) ∧
    (cmdOf s t id = some c → tilePart s t = some c.part → c.k = 10 → c.answered = false → c.pos < mcastPackets c →
      let same (x : McastT) : Bool := x.tile == t && x.cmd == id
      let l := groupMembers s c.part c.dpkg
      let k := (s.mcasts.find? same).getD { tile := t, cmd := id, members := l, more := true, due := [], neg := [] }
      let more := decide (c.pos + 1 < mcastPackets c)
      let data := (c.buf.drop (256 * c.pos)).take 256
      let due := k.due ++ l.filter k.members.contains
      ((s.xbarDown = true ∨ raiseHeld s c = true ∨ (more = false ∧ c.tag ≠ none ∧ k.due ≠ [])) → exec (.mcastRoute t id) s = .next (postOnce s (.mcastRoute t id))) ∧
      (s.xbarDown = false → raiseHeld s c = false → (more = true ∨ c.tag = none ∨ k.due = []) → (c.pos = 0 ∨ (s.mcasts.find? same).isSome = true) →
        s.xbarFenced = false → s.linksDown = [] → (∀ x ∈ l, (peerOf s c.part x).isSome = true) → (more = true ∨ due ≠ []) →
        ∃ u, exec (.mcastRoute t id) s = .next u ∧ u.mcasts.find? same = some { k with more := more, due := due } ∧ (more = true → .mcastRoute t id ∈ u.agenda) ∧ u.mem = s.mem ∧
          u.out = s.out ++ l.map fun x => .pod t id 10 c.part x ((peerOf s c.part x).getD 0) (c.gb + BitVec.ofNat 64 (256 * c.pos)) data.length
            (packetsOf (ownPkg s) 3 (some (groupIndex s c.part c.dpkg)) data 1) c.tag (if more = false ∧ c.tag ≠ none ∧ x ∈ k.members ∧ x ∉ k.neg then 1 else 0) 0)) ∧
    (∀ d, let k := max 1 (((bs.take 256).length + 15) / 16)
      packetsOf d 3 none bs 1 = [⟨d, 3, k - 1, none, bs.take 256, 16 * k - (bs.take 256).length⟩]) ∧
    ((s.mcasts.find? fun m => m.tile == t && m.cmd == id) = some y →
      let ns := if neg = true ∧ n ∉ y.neg then n :: y.neg else y.neg
      (n ∉ y.due → exec (.mcastMemberAnswer t id n neg) s = .next s) ∧
      (y.more = false → y.due = [n] → exec (.mcastMemberAnswer t id n neg) s
        = .next (post { s with mcasts := s.mcasts.filter fun x => !(x.tile == t && x.cmd == id) } (.podAnswer t id false [] ns.length (ns.foldl min 511)))) ∧
      (n ∈ y.due → (y.more = true ∨ ∃ j ∈ y.due.erase n, True) → ∃ u, exec (.mcastMemberAnswer t id n neg) s = .next u ∧ u.agenda = s.agenda ∧ u.mem = s.mem ∧
        (u.mcasts.find? fun m => m.tile == t && m.cmd == id) = some { y with due := y.due.erase n, neg := ns }))

/-- R370 to R377: a router's element gathers one contribution a tile, leaves when every tile of the entry's mask has contributed, when it is flushed, or after 4,096 clocks; combines them in tile order; and its answer ends everything
it carries. A traffic of no entry leaves alone. An entry that replicates writes its copies, a stride apart. A supervisor writes the
words of its own entries; a word 0 with V = 1 is refused for a reserved field, FUNC, PRED or NREP, for a tile of the mask that is not its partition's, and for a range that meets another entry's (R371). -/
def Sys2Proof.Claims.RouterSteps : Prop :=
  ∀ (s : State) (x : Contrib) (c e t p a : Nat) (y : RElem) (neg : Bool) (bytes : List (BitVec 8)) (r : Rep) (w : Word),
    (let v := leNat x.bytes
     (rtReduce s x.tile x.part x.dpkg x.func x.pa x.bytes.length = none → ∃ u z, exec (.routerContribution x) s = .next u ∧ u.relems = s.relems ++ [z] ∧ z.cluster = x.tile / 8 ∧
      z.leaving = true ∧ z.vals = [(x.tile % 8, some v, x.origin)] ∧ z.pa = x.pa ∧ u.agenda = s.agenda ++ [.routerElementTimeout (x.tile / 8) s.nextId]) ∧
     (∀ j, rtReduce s x.tile x.part x.dpkg x.func x.pa x.bytes.length = some j → s.relems = [] → ∃ u z, exec (.routerContribution x) s = .next u ∧ u.relems = [z] ∧ z.entry = j ∧
      z.vals = [(x.tile % 8, if rtPasses s (x.tile / 8) j v then some v else none, x.origin)] ∧ z.leaving = decide (rtMask s (x.tile / 8) j = 2 ^ (x.tile % 8)) ∧ z.born = s.clock) ∧
     (∀ j, rtReduce s x.tile x.part x.dpkg x.func x.pa x.bytes.length = some j → s.relems = [y] → y.cluster = x.tile / 8 → y.entry = j → y.pa = x.pa → y.leaving = false → y.tag = x.tag →
      (∀ z ∈ y.vals, z.1 ≠ x.tile % 8) → ∃ u z, exec (.routerContribution x) s = .next u ∧ u.relems = [z] ∧ z.elem = y.elem ∧
        z.vals = y.vals ++ [(x.tile % 8, if rtPasses s (x.tile / 8) j v then some v else none, x.origin)] ∧
        (z.leaving = true ↔ ∀ k < 8, (rtMask s (x.tile / 8) j).testBit k = true → ∃ q ∈ z.vals, q.1 = k))) ∧
    (elemAt s c e = some y → y.sent = false →
      (y.leaving = false → s.clock < y.born + 4096 → exec (.routerElementTimeout c e) s = .next (post s (.routerElementTimeout c e))) ∧
      ((y.leaving = true ∨ y.born + 4096 ≤ s.clock) → exec (.routerElementTimeout c e) s = .next (elementOut s { y with leaving := true }))) ∧
    (y.value = none → ∃ u, elementOut s y = u ∧ u.mem = s.mem ∧ u.out = s.out ∧ u.agenda = s.agenda ++ [.routerAnswer y.cluster y.elem false]) ∧
    (∀ q v, y.value = some v → y.dpkg ≠ 0x1FF → peerOf s y.part y.dpkg = some q → pathFenced s y.dpkg = false → pathWaits s y.dpkg = false →
      let cs := y.vals.filterMap fun z => if z.2.2 % 4 = 2 then some (y.cluster * 8 + z.1, z.2.2 / 4) else none
      (raisesOf s y.tag cs = none → elementOut s y = retry s (.routerElementTimeout y.cluster y.elem, 0)) ∧
      (∀ k oe, raisesOf s y.tag cs = some (k, oe) → (elementOut s y).out
        = s.out ++ [.pod (512 + y.cluster) y.elem (9 + 16 * y.func) y.part y.dpkg q (BitVec.ofNat 64 y.pa) (redBytes y.func) (packetsOf y.dpkg 3 none (leBytes (redBytes y.func) v) 1) y.tag k oe])) ∧
    (elemAt s c e = none → exec (.routerAnswer c e neg) s = .next s) ∧
    (elemAt s c e = some y → exec (.routerAnswer c e neg) s
      = .next (y.vals.foldl (fun k z => originAnswer k y neg z) { s with relems := s.relems.filter fun x => !(x.cluster == c && x.elem == e) })) ∧
    (∀ v : Fin 8 → Nat, combine8 y.func (redBytes y.func) (fun j => if h : j < 8 then some (v ⟨j, h⟩) else none)
      = (let o (a b : Nat) : Nat := redNew y.func (redBytes y.func) a b
         some (o (o (o (v 0) (v 1)) (o (v 2) (v 3))) (o (o (v 4) (v 5)) (o (v 6) (v 7)))))) ∧
    (s.reps = [r] → r.tile = t → r.part = p → r.pa = a → r.next ≤ r.nrep → 0 ≤ (r.pa : Int) + r.stride * r.next →
      (∀ u k, copyWrite s t p ((r.pa : Int) + r.stride * r.next).toNat bytes (.routerReplicate t p a bytes) = .ok u k → ∃ q, exec (.routerReplicate t p a bytes) s = .next q ∧ (∀ b, homeByte q b = homeByte u b) ∧
        (r.next < r.nrep → queued q (.routerReplicate t p a bytes, 0) = false → .routerReplicate t p a bytes ∈ q.agenda)) ∧
      (∀ u, copyWrite s t p ((r.pa : Int) + r.stride * r.next).toNat bytes (.routerReplicate t p a bytes) = .wait u → exec (.routerReplicate t p a bytes) s = .next (retry u (.routerReplicate t p a bytes, 0)))) ∧
    (s.reps = [] → ∀ u k, copyWrite s t p a bytes (.routerReplicate t p a bytes) = .ok u k → exec (.routerReplicate t p a bytes) s = .next (replicate u { tile := t, part := p, unit := 101, l1 := false } a bytes)) ∧
    (let off := 0x80000000 + c * 0x1000 + e * 8
     c < 64 → e < 64 →
      exec (.routerEntryWrite t p off w) s = .next (rtWrite s t p off w).1 ∧
      ((∀ i < 8, inTileSet s p (c * 8 + i) = false) → (rtWrite s t p off w).2 = false ∧ ctlWord (rtWrite s t p off w).1 off = ctlWord s off) ∧
      ((∃ i < 8, inTileSet s p (c * 8 + i) = true) →
        let w0 := rtWord s c (e / 4) 0
        let refused : Prop := (rtWrite s t p off w).2 = false ∧ ctlWord (rtWrite s t p off w).1 off = ctlWord s off ∧ (rtWrite s t p off w).1.relems = s.relems
        let written : Prop := (rtWrite s t p off w).2 = true ∧ ctlWord (rtWrite s t p off w).1 off = w
        (e % 4 ≠ 0 → (if bits w0 31 26 = p ∨ bitOf w0 0 = false then written else refused)) ∧
        (e % 4 = 0 → (if bits w 31 26 = p ∧ (bitOf w 0 = false ∨ rtValid s c (e / 4) p w = true) then written else refused)) ∧
        (bitOf w0 0 = true → (rtWrite s t p off w).2 = true → ∀ z ∈ (rtWrite s t p off w).1.relems, z.cluster = c → z.entry = e / 4 → z.leaving = true))) ∧
    (let w1 := rtWord s c e 1
     let w2 := rtWord s c e 2
     let w3 := rtWord s c e 3
     rtValid s c e p w = true ↔
      (bits w 63 32 = 0 ∧ bits w1 63 55 = 0 ∧ bits w2 63 43 = 0) ∧
      (bits w 1 1 = 0 → bits w3 63 32 = 0 ∧ bits w 5 2 ∈ [0, 4, 5, 8, 9] ∧ bits w 8 6 ≤ 3) ∧ (bits w 1 1 = 1 → bits w2 42 40 ≠ 0 ∧ bits w3 63 48 = 0) ∧
      (∀ j < 8, (bits w 16 9).testBit j = true → inTileSet s p (c * 8 + j) = true) ∧
      (∀ i < 16, i ≠ e → bitOf (rtWord s c i 0) 0 = true → ∀ b, bits w1 54 0 ≤ b → b < bits w1 54 0 + bits w2 39 0 → rtBase s c i ≤ b → rtBase s c i + rtLen s c i ≤ b))

/-- R168, R381: a divergence of the crossbar is counted and stops its traffic until a retrain ends well; a third failed retrain in a row fences it, and a failed link its package: management is told, and what is in flight there is answered
negatively; a corrected lane is only counted. -/
def Sys2Proof.Claims.CrossbarAndLinks : Prop :=
  ∀ (s : State) (n : Nat),
    (∃ t, exec .crossbarDivergence s = .next t ∧ t.xbarDown = !s.xbarFenced ∧ ctlWord t 0x0C002000 = ctlWord s 0x0C002000 + 1 ∧ t.xbarFails = s.xbarFails ∧ t.mem = s.mem) ∧
    (s.xbarDown = false → ∀ ok, exec (.crossbarRetrainDone ok) s = .next s) ∧
    (s.xbarDown = true →
      exec (.crossbarRetrainDone true) s = .next { s with xbarDown := false, xbarFails := 0 } ∧
      (s.xbarFails < 2 → exec (.crossbarRetrainDone false) s = .next { s with xbarFails := s.xbarFails + 1 }) ∧
      (2 ≤ s.xbarFails → ∃ t, exec (.crossbarRetrainDone false) s = .next t ∧ t.xbarFenced = true ∧ t.xbarDown = false ∧ Out.notice 6 0 0 ∈ t.out)) ∧
    (∃ t, exec (.correctedLaneError n) s = .next t ∧ ctlWord t 0x0C002008 = ctlWord s 0x0C002008 + 1 ∧ { t with ctl := s.ctl } = s) ∧
    (∃ t, exec (.scaleUpLinkFailure n) s = .next t ∧ n ∈ t.linksDown ∧ (∀ m, m ≠ n → (m ∈ t.linksDown ↔ m ∈ s.linksDown)) ∧ { t with linksDown := s.linksDown, agenda := s.agenda } = s ∧
      (∀ m ∈ s.podMerge, m.sent = true → m.dpkg = n → m.due ≠ 0 → .podAnswer 1024 m.id true [] 0 0 ∈ t.agenda))


namespace Sys2Proof.Claims
open Sys2Proof Sys2Proof.Machine

/-! ## Coherence -/

/-- A granule of device memory whose set has a way free for it (R95). -/
abbrev roomy (s : State) (gk : Nat) : Prop := isHostGran gk = false ∧ (setMates s gk).length < 16
/-- Cluster of an agent that is a tile or a pool (R92). -/
def clusterOf (a : Nat) : Nat := if a < 512 then a / 8 else a - 512
/-- The three requests with their events (R99). -/
noncomputable def homeRequests : List ((Nat → Nat → Instr) × (Nat → Nat → Event) × Bool) :=
  [(.gets, .gets, false), (.getm, .getm, true), (.upg, .upg, true)]
/-- Transaction t of granule gk with its entry d. -/
abbrev inB (s : State) (gk : Nat) (t : Txn) (d : DirE) : Prop := mfind s.txns gk = some t ∧ dirOf s gk = some d
/-- The transaction is over: the requests that waited come first, and the entry is e. -/
def leftB (s u : State) (gk : Nat) (e : Option DirE) (l : List Event) : Prop :=
  mfind u.txns gk = none ∧ dirOf u gk = e ∧ u.agenda = (mgetD s.waitq gk []).map (·.1) ++ (s.agenda ++ l) ∧ mfind u.waitq gk = none
/-- The agent is a tile or a pool in service that answers probes for partition p. -/
abbrev probed (s : State) (a p : Nat) : Prop := s.fenced.contains a = false ∧ a ≠ hostAgent ∧ foreign s a p = false

end Sys2Proof.Claims

/-- R93, R98, R101, R105, R108, R113, R116, R126, R274: what stands between a request and its service: the fence, a transaction, a Cinch piece, the region grant, an
identity without a majority, an uncorrectable entry, an entry of another partition, and a full set, of which the first entry without a transaction is recalled: which one
leaves is the model's choice (notes/assumptions/12.md). An error answer waits for the access that made the request, and for no other (R94, R116). -/
def Sys2Proof.Claims.RequestsAtTheHome : Prop :=
  ∀ (s : State) (a gk : Nat), ∀ q ∈ homeRequests,
    (∀ u, gate s a gk q.2.2 (q.2.1 a gk) = .done u → exec (q.1 a gk) s = .next u) ∧
    (a ∈ s.fenced → exec (q.1 a gk) s = .next s) ∧
    (a ∉ s.fenced → (stackOf s (granStack gk)).stopped = false →
      (∀ t, mfind s.txns gk = some t → exec (q.1 a gk) s = .next (waitOn s gk (q.2.1 a gk))) ∧
      (mfind s.txns gk = none →
        (clash s gk q.2.2 a 100 (some (q.2.1 a gk, 0)) = .trap → exec (q.1 a gk) s = .next (refuse s a gk 0x08)) ∧
        (∀ u, clash s gk q.2.2 a 100 (some (q.2.1 a gk, 0)) = .held u → exec (q.1 a gk) s = .next u) ∧
        (clash s gk q.2.2 a 100 (some (q.2.1 a gk, 0)) = .free →
          (homeAllows s a gk = false → exec (q.1 a gk) s
            = .next (refuse (logHome s ((reqPart s a gk).getD 0) (gk * 128)) a gk (if q.2.2 = false ∧ gk ∈ s.psn then 0x0A else 0x05 + 256 * 4))) ∧
          (∀ d, homeAllows s a gk = true → dirOf s gk = some d →
            (vote d = none → exec (q.1 a gk) s = .next (machineCheck s (granStack gk))) ∧
            ((vote d).isSome = true → d.bad = true → exec (q.1 a gk) s = .next (waitOn (recallBad s gk d) gk (q.2.1 a gk))) ∧
            ((vote d).isSome = true → d.bad = false → isHostGran gk = true → reqPart s a gk ≠ some (ownp d) →
              let k := recallAll s gk
              exec (q.1 a gk) s = .next (if (mfind k.txns gk).isSome then waitOn k gk (q.2.1 a gk) else post k (q.2.1 a gk))))))) ∧
    (q.2.1 a gk ≠ .upg a gk → served s a gk q.2.2 (q.2.1 a gk) → dirOf s gk = none → 16 ≤ (setMates s gk).length →
      ∀ g e, (setMates s gk).find? (fun g => (mfind s.txns g).isNone) = some g → dirOf s g = some e → (vote e).isSome = true → e.bad = false → probeSet s e homeMark ≠ [] →
        exec (q.1 a gk) s = .next (waitOn (recallAll s g) g (q.2.1 a gk))) ∧
    (∀ (code : Nat) (x y : Event × Nat),
      ((copyOf s a gk).bind (·.asker) = some x → errFor (refuse s a gk code) a gk (some x) = some (ckey a gk, x, code) ∧
        (y ≠ x → errFor (refuse s a gk code) a gk (some y) = errFor s a gk (some y))) ∧
      ((copyOf s a gk).bind (·.asker) = none → (refuse s a gk code).errs = s.errs) ∧ .err a gk ∈ (refuse s a gk code).agenda)

/-- R101, R105, R111: the home's answers to GETS, GETM, UPG, PUTS, PUTM, RDAT and DONE in the states I, S, M and B. -/
def Sys2Proof.Claims.HomeProtocol : Prop :=
  ∀ (s : State) (a gk o : Nat) (d : DirE) (x : GData) (t : Txn),
    (served s a gk false (.gets a gk) →
      (dirOf s gk = none → roomy s gk → pieceShares s gk = false → exec (.gets a gk) s
        = .next (setDir (sendData s a gk .excl 0) gk (newDir gk true [a] ((regionOwner s (gk * 128)).getD 0)))) ∧
      (dirOf s gk = none → roomy s gk → pieceShares s gk = true → exec (.gets a gk) s
        = .next (setDir (sendData s a gk .shared 0) gk (newDir gk false [a] ((regionOwner s (gk * 128)).getD 0)))) ∧
      (dirOf s gk = some d → d.owned = false → exec (.gets a gk) s = .next (setDir (sendData s a gk .shared 0) gk (addSharer d a))) ∧
      (dirOf s gk = some d → d.owned = true → d.ptrs = [o] → o ≠ a → o ∉ s.fenced → exec (.gets a gk) s = .next (post (begun s gk 1 a [o]) (.rcls o gk (ownp d)))) ∧
      (dirOf s gk = some d → d.owned = true → d.ptrs = [o] → o ≠ a → o ∈ s.fenced →
        exec (.gets a gk) s = .next (setDir (sendData (poisonHome s gk) a gk .shared 0) gk (newDir gk false [a] (ownp d))))) ∧
    (served s a gk true (.getm a gk) →
      (dirOf s gk = none → roomy s gk → exec (.getm a gk) s
        = .next (setDir (sendData s a gk .modified 0) gk (newDir gk true [a] ((regionOwner s (gk * 128)).getD 0)))) ∧
      (dirOf s gk = some d → d.owned = false → a ≠ hostAgent → isHostGran gk = false → exec (.getm a gk) s
        = .next (sendData (begun (posts s ((probeSet s d a).map fun b => .inv b gk a (ownp d))) gk 0 a []) a gk .modified (probeSet s d a).length)) ∧
      (dirOf s gk = some d → d.owned = true → d.ptrs = [o] → o ≠ a → o ∉ s.fenced → exec (.getm a gk) s = .next (post (begun s gk 2 a [o]) (.rcli o gk (ownp d)))) ∧
      (dirOf s gk = some d → d.owned = true → d.ptrs = [o] → o ≠ a → o ∈ s.fenced →
        exec (.getm a gk) s = .next (setDir (sendData (poisonHome s gk) a gk .modified 0) gk (newDir gk true [a] (ownp d))))) ∧
    (served s a gk true (.upg a gk) → dirOf s gk = some d → d.owned = false → a ≠ hostAgent → isHostGran gk = false → names d a = true → exec (.upg a gk) s
      = .next (post (begun (posts s ((probeSet s d a).map fun b => .inv b gk a (ownp d))) gk 0 a []) (.gnt a gk (probeSet s d a).length))) ∧
    (served s a gk true (.upg a gk) → dirOf s gk = some d → (d.owned = true ∨ names d a = false) → exec (.upg a gk) s = exec (.getm a gk) s) ∧
    (a ∈ s.fenced → exec (.puts a gk) s = .next s ∧ exec (.putm a gk x) s = .next s ∧ exec (.done a gk) s = .next s ∧ exec (.rdat a gk (some x)) s = .next s) ∧
    (a ∉ s.fenced → isHostGran gk = false →
      (mfind s.txns gk = none → dirOf s gk = some d → vote d = none →
        exec (.puts a gk) s = .next (machineCheck (post s (.pack a gk)) (granStack gk)) ∧ exec (.putm a gk x) s = .next (machineCheck (post s (.pack a gk)) (granStack gk))) ∧
      (mfind s.txns gk = none → dirOf s gk = some d → (vote d).isSome = true → d.bad = true →
        exec (.puts a gk) s = .next (recallBad (post s (.pack a gk)) gk d) ∧ exec (.putm a gk x) s = .next (recallBad (post s (.pack a gk)) gk d)) ∧
      (mfind s.txns gk = none → dirOf s gk = some d → (vote d).isSome = true → d.bad = false → d.coarse = false → d.ptrs.contains a = true →
        ((d.owned = true ∨ d.ptrs.length = 1) → exec (.puts a gk) s = .next (delDir (post s (.pack a gk)) gk)) ∧
        (d.owned = false → d.ptrs.length ≠ 1 → exec (.puts a gk) s = .next (setDir (post s (.pack a gk)) gk { d with ptrs := d.ptrs.filter (· != a) })) ∧
        (d.owned = true → exec (.putm a gk x) s = .next (delDir (hostWrote (post s (.pack a gk)) a gk x) gk))) ∧
      (mfind s.txns gk = none → dirOf s gk = some d → (vote d).isSome = true → d.bad = false →
        ((d.coarse = true ∨ d.ptrs.contains a = false) → exec (.puts a gk) s = .next (post s (.pack a gk))) ∧
        ((d.owned = false ∨ d.ptrs.contains a = false) → exec (.putm a gk x) s = .next (post s (.pack a gk)))) ∧
      (mfind s.txns gk = none → dirOf s gk = none → exec (.puts a gk) s = .next (post s (.pack a gk))) ∧
      (mfind s.txns gk = some t → exec (.puts a gk) s = .next { post s (.pack a gk) with txns := mput s.txns gk { t with leave := a :: t.leave } }) ∧
      (mfind s.txns gk = some t → t.kind ∈ [1, 2, 3, 4] → a ∈ t.due → exec (.putm a gk x) s
        = .next { hostWrote (post s (.pack a gk)) a gk x with txns := mput s.txns gk { t with putm := true, leave := if a = hostAgent then t.leave else a :: t.leave } }) ∧
      (a ≠ hostAgent → hostWrote s a gk x = writeGran s gk x) ∧ (x.mask ≠ 0 → hostWrote s hostAgent gk x = notifyGran (writeGran s gk x) gk)) ∧
    (a ∉ s.fenced → o ∉ s.fenced → o ≠ hostAgent → inB s gk t d → d.owned = true → d.ptrs = [o] → t.due = [o] → t.req = a → t.leave = [] →
      (t.kind = 1 →
        (∃ u, exec (.rdat o gk none) s = .next u ∧ u.mem = s.mem ∧ leftB s u gk (some (newDir gk false [o, a] (ownp d))) [.data a gk .shared 0 (homeData s gk)]) ∧
        (∃ u, exec (.rdat o gk (some x)) s = .next u ∧ u.mem = (writeGran s gk x).mem ∧ u.psn = (writeGran s gk x).psn ∧
          leftB s u gk (some (newDir gk false [o, a] (ownp d))) [.data a gk .shared 0 (homeData (writeGran s gk x) gk)])) ∧
      (t.kind = 2 →
        (∃ u, exec (.rdat o gk none) s = .next u ∧ u.mem = s.mem ∧ leftB s u gk (some (newDir gk true [a] (ownp d))) [.data a gk .modified 0 (homeData s gk)]) ∧
        (∃ u, exec (.rdat o gk (some x)) s = .next u ∧ u.mem = (writeGran s gk x).mem ∧ u.psn = (writeGran s gk x).psn ∧
          leftB s u gk (some (newDir gk true [a] (ownp d))) [.data a gk .modified 0 (homeData (writeGran s gk x) gk)]))) ∧
    (a ∉ s.fenced → o ∉ s.fenced → inB s gk t d → d.owned = true → d.ptrs = [o] → t.due = [o] → t.req = a → o ∈ t.leave → t.kind = 1 →
      ∃ u, exec (.rdat o gk none) s = .next u ∧ u.mem = s.mem ∧ leftB s u gk (some (newDir gk false [a] (ownp d))) [.data a gk .shared 0 (homeData s gk)]) ∧
    (mfind s.txns gk = none → exec (.rdat a gk none) s = .next s) ∧
    (a ∉ s.fenced → inB s gk t d → t.kind = 0 → t.req = a → ∃ u, exec (.done a gk) s = .next u ∧ u.mem = s.mem ∧ leftB s u gk (some (newDir gk true [a] (ownp d))) []) ∧
    (a ∉ s.fenced → a ≠ hostAgent → isHostGran gk = false → inB s gk t d → t.kind = 3 → t.due = [a] → t.req = homeMark →
      ∃ u, exec (.rdat a gk (some x)) s = .next u ∧ u.mem = (writeGran s gk x).mem ∧ leftB s u gk none [])

/-- R102, R103: what an agent's copy of a granule does at each message to it, at its own requests, and when it is evicted. -/
def Sys2Proof.Claims.AgentProtocol : Prop :=
  ∀ (s : State) (a gk n req p : Nat) (c : Copy) (d : GData) (g : Grant),
    (a ≠ hostAgent → copyOf s a gk = some c →
      (c.st = .is → exec (.data a gk g n d) s
        = .next (promote (landBits (setCopy s a gk { c with st := (if g = .shared then .s else .e), data := d.data, mask := 0, psn := d.psn, asker := none }) a gk))) ∧
      (c.st = .im ∨ c.st = .sm →
        (n ≤ c.got →
          (∃ u, exec (.data a gk g n d) s = .next u ∧ copyOf u a gk = some { c with st := .m, data := d.data, mask := 0, psn := d.psn, need := none, got := 0, asker := none } ∧ .done a gk ∈ u.agenda) ∧
          (∃ u, exec (.gnt a gk n) s = .next u ∧ copyOf u a gk = some { c with st := .m, need := none, got := 0, asker := none } ∧ .done a gk ∈ u.agenda)) ∧
        (c.got < n →
          exec (.data a gk g n d) s = .next (setCopy s a gk { c with data := d.data, mask := 0, psn := d.psn, need := some n }) ∧
          exec (.gnt a gk n) s = .next (setCopy s a gk { c with need := some n })) ∧
        (a ≠ homeMark →
          (c.need = some n → n ≤ c.got + 1 → ∃ u, exec (.iack a req gk) s = .next u ∧ copyOf u a gk = some { c with st := .m, need := none, got := 0, asker := none } ∧ .done a gk ∈ u.agenda) ∧
          (c.need = some n → c.got + 1 < n → exec (.iack a req gk) s = .next (setCopy s a gk { c with got := c.got + 1 })) ∧
          (c.need = none → exec (.iack a req gk) s = .next (setCopy s a gk { c with got := c.got + 1 })))) ∧
      (c.st = .si ∨ c.st = .mi → exec (.pack a gk) s = .next (dropCopy s a gk)) ∧
      (c.st ≠ .si → c.st ≠ .mi → exec (.pack a gk) s = .next s) ∧
      (c.st = .is ∨ c.st = .im → exec (.err a gk) s = .next (dropCopy s a gk)) ∧
      (c.st = .sm → exec (.err a gk) s = .next (setCopy s a gk { c with st := .s, asker := none }))) ∧
    (probed s a p → copyOf s a gk = some c →
      let moving := anyLine s a gk fun _ y => y.mv.isSome && !y.newmap
      (c.st = .s ∨ c.st = .e ∨ c.st = .m → exec (.inv a gk req p) s = .next (post (dropCopy s a gk) (.iack req a gk))) ∧
      (c.st = .sm → ∃ u, exec (.inv a gk req p) s = .next u ∧ copyOf u a gk = some { c with st := .im } ∧ u.agenda = s.agenda ++ [.iack req a gk]) ∧
      (c.st = .si ∨ c.st = .mi → exec (.inv a gk req p) s = .next (post s (.iack req a gk))) ∧
      (c.st = .m →
        (moving = false → ∃ u, exec (.rcls a gk p) s = .next u ∧ copyOf u a gk = some { c with st := .s, mask := 0 } ∧
          u.agenda = s.agenda ++ [.rdat a gk (some ⟨c.data, c.mask, c.psn⟩)]) ∧
        (moving = true → ∃ u, exec (.rcls a gk p) s = .next u ∧ copyOf u a gk = none ∧ u.agenda = s.agenda ++ [.puts a gk, .rdat a gk (some ⟨c.data, c.mask, c.psn⟩)]) ∧
        (∃ u, exec (.rcli a gk p) s = .next u ∧ copyOf u a gk = none ∧ u.agenda = s.agenda ++ [.rdat a gk (some ⟨c.data, c.mask, c.psn⟩)])) ∧
      (c.st = .e →
        (moving = false → ∃ u, exec (.rcls a gk p) s = .next u ∧ copyOf u a gk = some { c with st := .s, mask := 0 } ∧ u.agenda = s.agenda ++ [.rdat a gk none]) ∧
        (moving = true → ∃ u, exec (.rcls a gk p) s = .next u ∧ copyOf u a gk = none ∧ u.agenda = s.agenda ++ [.puts a gk, .rdat a gk none]) ∧
        (∃ u, exec (.rcli a gk p) s = .next u ∧ copyOf u a gk = none ∧ u.agenda = s.agenda ++ [.rdat a gk none])) ∧
      (c.st = .si ∨ c.st = .mi →
        (∃ u, exec (.rcls a gk p) s = .next u ∧ u.copies = s.copies ∧ u.agenda = s.agenda ++ [.rdat a gk none]) ∧
        (∃ u, exec (.rcli a gk p) s = .next u ∧ u.copies = s.copies ∧ u.agenda = s.agenda ++ [.rdat a gk none]))) ∧
    (probed s a p → copyOf s a gk = none →
      exec (.inv a gk req p) s = .next (post s (.iack req a gk)) ∧
      (∃ u, exec (.rcls a gk p) s = .next u ∧ u.copies = s.copies ∧ u.agenda = s.agenda ++ [.rdat a gk none])) ∧
    (copyOf (dropCopy s a gk) a gk = none ∧ (∀ t, ∀ e ∈ (tileOf (dropCopy s a gk) t).l1, ¬(e.gk = gk ∧ e.agent = a)) ∧ (∀ b h, ckey b h ≠ ckey a gk → copyOf (dropCopy s a gk) b h = copyOf s b h)) ∧
    (∀ (w : Bool) (r : Option (Event × Nat)),
      (copyOf s a gk = none → ∃ x, copyOf (request s p a gk w r) a gk = some x ∧ x.st = (if w then .im else .is) ∧ x.part = p ∧ x.asker = r ∧
        (request s p a gk w r).agenda = s.agenda ++ [if w then .getm a gk else .gets a gk]) ∧
      (copyOf s a gk = some c → c.st = .s → copyOf (request s p a gk true r) a gk = some { c with st := .sm, asker := r } ∧
        (request s p a gk true r).agenda = s.agenda ++ [.upg a gk]) ∧
      (copyOf s a gk = some c → (c.st = .si ∨ c.st = .mi) → request s p a gk w r = s)) ∧
    (copyOf s a gk = some c →
      (c.st = .s ∨ c.st = .e → copyOf (evict s a gk) a gk = some { c with st := .si } ∧ (evict s a gk).agenda = s.agenda ++ [.puts a gk]) ∧
      (c.st = .m → copyOf (evict s a gk) a gk = some { c with st := .mi } ∧ (evict s a gk).agenda = s.agenda ++ [.putm a gk ⟨c.data, c.mask, c.psn⟩])) ∧
    (s.fenced.contains a = false → a < 512 → tilePart s a ≠ some p →
      ∃ u, exec (.inv a gk req p) s = .next u ∧ u.agenda = s.agenda ++ [.iack req a gk] ∧ u.copies = s.copies ∧
        ctlWord u (0x0C001000 + 8 * a) = ctlWord s (0x0C001000 + 8 * a) + 1)

/-- R97, R98, R108: a fifth sharer turns an entry coarse, and the coarse form leaves out no sharer; the set of agents a home probes; and the vote over the three identity copies. -/
def Sys2Proof.Claims.Sharers : Prop :=
  ∀ (s : State) (e : DirE) (a b req : Nat),
    (e.coarse = false → a ∉ e.ptrs → e.ptrs.length < 4 → addSharer e a = { e with ptrs := e.ptrs ++ [a] }) ∧
    (e.coarse = false → a ∈ e.ptrs → addSharer e a = e) ∧
    (e.coarse = false → a ∉ e.ptrs → 4 ≤ e.ptrs.length → (∀ x ∈ a :: e.ptrs, x ≤ 576) →
      (addSharer e a).coarse = true ∧ (addSharer e a).ptrs = [] ∧ (∀ x ∈ a :: e.ptrs, names (addSharer e a) x = true) ∧
      (∀ c < 64, (addSharer e a).cv.toNat.testBit c = true ↔ e.cv.toNat.testBit c = true ∨ ∃ x ∈ a :: e.ptrs, x ≠ 576 ∧ clusterOf x = c)) ∧
    (e.coarse = true → a ≤ 576 → names (addSharer e a) a = true ∧ (names e b = true → names (addSharer e a) b = true)) ∧
    (e.coarse = false → (b ∈ probeSet s e req ↔ b ∈ e.ptrs ∧ b ≠ req ∧ b ∉ s.fenced)) ∧
    (e.coarse = true → (b ∈ probeSet s e req ↔ b ≠ req ∧ b ∉ s.fenced ∧
      ((b < 512 ∧ e.cv.toNat.testBit (b / 8) = true ∧ inTileSet s (ownp e) b = true) ∨
       (512 ≤ b ∧ b < 576 ∧ e.cv.toNat.testBit (b - 512) = true ∧ holdsPool s (ownp e) (b - 512) = true) ∨ (b = 576 ∧ e.h = true)))) ∧
    (∀ i, vote e = some i ↔ (e.ida = i ∧ e.idb = i) ∨ (e.ida = i ∧ e.idc = i) ∨ (e.idb = i ∧ e.idc = i)) ∧ (∀ i, vote e = some i → ownp e = i.toNat / 2 ^ 29) ∧
    (∀ gk o l p, p < 64 → vote (newDir gk o l p) = some (identOf gk p) ∧ ownp (newDir gk o l p) = p) ∧
    (vote e = none ↔ e.ida ≠ e.idb ∧ e.ida ≠ e.idc ∧ e.idb ≠ e.idc)

/-- R93, R106, R121 to R124, R279: the host as agent 576, by the requests it makes, the answers and snoops it gets, and what it asks of the tiles' copies of its own memory. The answer to a snoop that finds
no holder is the model's choice (notes/assumptions/16.md). -/
def Sys2Proof.Claims.HostCoherence : Prop :=
  ∀ (s : State) (gk n req p o : Nat) (g : Grant) (x : GData) (d : DirE) (t : Txn),
    (exec (.hostMemRead gk .data) s = .next (onGets s 576 gk) ∧ exec (.gets 576 gk) s = .next (onGets s 576 gk)) ∧
    (exec (.hostMemRead gk .inv) s = .next (onGetm s 576 gk) ∧ exec (.getm 576 gk) s = .next (onGetm s 576 gk)) ∧
    (∀ k ∈ [HostSnp.cur, HostSnp.none], gate s 576 gk false (.hostMemRead gk k) = .pass →
      ((dirOf s gk = none ∨ ∃ e, dirOf s gk = some e ∧ e.owned = false) → exec (.hostMemRead gk k) s = .next (send s (.host 16 gk (some (currentData s gk))))) ∧
      (dirOf s gk = some d → d.owned = true → d.ptrs = [o] → o ≠ 576 → o ∉ s.fenced →
        exec (.hostMemRead gk k) s = .next (waitOn (post (begun s gk 4 homeMark [o]) (.rcls o gk (ownp d))) gk (.hostMemRead gk k)))) ∧
    (exec (.hostMemInv gk) s = .next (onUpg s 576 gk) ∧ exec (.upg 576 gk) s = .next (onUpg s 576 gk)) ∧
    (576 ∈ s.fenced → exec (.hostMemCleanEvict gk) s = .next s ∧ exec (.hostMemWrite gk x) s = .next s ∧ exec (.h2dSnpData gk) s = .next s ∧ exec (.h2dSnpInv gk) s = .next s ∧
      exec (.h2dSnpCur gk) s = .next s ∧ exec (.h2dResponse gk x) s = .next s) ∧
    (576 ∉ s.fenced →
      (isHostGran gk = false → homeAllows s 576 gk = true → exec (.hostMemCleanEvict gk) s = .next (onPuts s 576 gk) ∧ exec (.puts 576 gk) s = .next (onPuts s 576 gk)) ∧
      ((isHostGran gk = true ∨ homeAllows s 576 gk = false) → exec (.hostMemCleanEvict gk) s = .next (refuse (logHome s 0 (gk * 128)) 576 gk (0x05 + 256 * 4))) ∧
      (let c := if ∃ y ∈ s.bis, y.1 = gk then .free else clash s gk true 576 100 (some (.hostMemWrite gk x, 0))
       (c = .free →
        (isHostGran gk = false → homeAllows s 576 gk = true → exec (.hostMemWrite gk x) s = .next (send (onPutm s 576 gk x) (.host 17 gk none)) ∧
          exec (.putm 576 gk x) s = .next (onPutm s 576 gk x)) ∧
        ((isHostGran gk = true ∨ homeAllows s 576 gk = false) → exec (.hostMemWrite gk x) s = .next (refuse (logHome s 0 (gk * 128)) 576 gk (0x05 + 256 * 4)))) ∧
       (c = .trap → exec (.hostMemWrite gk x) s = .next (refuse s 576 gk 0x08)) ∧
       (∀ u, c = .held u → exec (.hostMemWrite gk x) s = .next u))) ∧
    (exec (.data 576 gk g n x) s = .next (send s (.host (match g with | .shared => 1 | .excl => 2 | .modified => 3) gk (some x)))) ∧
    (exec (.gnt 576 gk n) s = .next (send s (.host 3 gk none))) ∧
    (exec (.err 576 gk) s = .next (send s (.host 8 gk none))) ∧
    (576 ∉ s.fenced → exec (.inv 576 gk req p) s = .next (send { s with bis := s.bis ++ [(gk, req)] } (.host 6 gk none)) ∧
      exec (.rcls 576 gk p) s = .next (send { s with bis := s.bis ++ [(gk, 1024)] } (.host 7 gk none)) ∧
      exec (.rcli 576 gk p) s = .next (send { s with bis := s.bis ++ [(gk, 1024)] } (.host 6 gk none))) ∧
    (s.bis = [] → exec (.biResponse gk true none) s = .next s) ∧
    (s.bis = [(gk, req)] → req ≠ 1024 → ∀ k y, exec (.biResponse gk k y) s = .next (post { s with bis := [] } (.iack req 576 gk))) ∧
    (s.bis = [(gk, 1024)] → mfind s.txns gk = some t → ∀ y,
      exec (.biResponse gk true y) s = .next (onRdat { s with bis := [] } 576 gk y) ∧
      exec (.biResponse gk false y) s = .next (onRdat { s with bis := [], txns := mput s.txns gk { t with leave := 576 :: t.leave } } 576 gk y)) ∧
    (exec (.biConflict gk) s = .next (send s (.host 18 gk none))) ∧
    (576 ∉ s.fenced → snoopGate s gk false (.h2dSnpData gk) = none →
      ((dirOf s gk = none ∨ ∃ e, dirOf s gk = some e ∧ e.owned = false) → mfind s.txns gk = none → exec (.h2dSnpData gk) s = .next (send s (.host 14 gk none))) ∧
      (dirOf s gk = some d → d.owned = true → d.ptrs = [o] → o ∉ s.fenced → exec (.h2dSnpData gk) s = .next (post (begun s gk 4 576 [o]) (.rcls o gk (ownp d))))) ∧
    (576 ∉ s.fenced → snoopGate s gk true (.h2dSnpInv gk) = none →
      (dirOf s gk = none → mfind s.txns gk = none → exec (.h2dSnpInv gk) s = .next (notifyGran (send s (.host 12 gk none)) gk)) ∧
      (dirOf s gk = some d → d.owned = false → probeSet s d homeMark ≠ [] → exec (.h2dSnpInv gk) s
        = .next (posts (begun s gk 3 576 (probeSet s d homeMark)) ((probeSet s d homeMark).map fun a => .inv a gk homeMark (ownp d)))) ∧
      (dirOf s gk = some d → d.owned = true → probeSet s d homeMark ≠ [] → exec (.h2dSnpInv gk) s
        = .next (posts (begun s gk 3 576 (probeSet s d homeMark)) ((probeSet s d homeMark).map fun a => .rcli a gk (ownp d))))) ∧
    (576 ∉ s.fenced → snoopGate s gk false (.h2dSnpCur gk) = none → exec (.h2dSnpCur gk) s = .next (send s (.host 16 gk (some (currentData s gk))))) ∧
    (∀ e ∈ [Event.h2dSnpData gk, .h2dSnpInv gk, .h2dSnpCur gk], mfind s.txns gk = some t → snoopGate s gk (e == .h2dSnpInv gk) e = some (waitOn s gk e)) ∧
    (o ∉ s.fenced → inB s gk t d → t.req = 576 → t.due = [o] →
      (t.kind = 3 → ∃ u, exec (.iack homeMark o gk) s = .next u ∧ dirOf u gk = none ∧ mfind u.txns gk = none ∧ u.out = s.out ++ [.host (if t.putm then 13 else 12) gk none]) ∧
      (t.kind = 3 → ∃ u, exec (.rdat o gk (some x)) s = .next u ∧ dirOf u gk = none ∧ u.out = s.out ++ [.host 13 gk none] ∧ u.hostMem = (writeGran s gk x).hostMem) ∧
      (t.kind = 4 → d.ptrs = [o] → o ∉ t.leave → ∃ u, exec (.rdat o gk (some x)) s = .next u ∧ dirOf u gk = some { d with owned := false } ∧
        u.out = s.out ++ [.host 15 gk none] ∧ u.hostMem = (writeGran s gk x).hostMem)) ∧
    (o ∉ s.fenced → inB s gk t d → t.req = homeMark → t.kind = 4 → t.due = [o] → d.ptrs = [o] → o ∈ t.leave → isHostGran gk = true →
      ∃ u, exec (.rdat o gk none) s = .next u ∧ dirOf u gk = none ∧ u.out = s.out ++ [.host (if t.putm then 4 else 5) gk none]) ∧
    (576 ∉ s.fenced → inB s gk t d → t.req = o → o ∉ s.fenced → o < 512 → isHostGran gk = true →
      let k := notifyGran (writeGran s gk { x with mask := BitVec.allOnes 128 }) gk
      (t.kind = 6 → exec (.h2dResponse gk x) s = .next (endTxn (setDir (sendData k o gk .shared 0) gk (newDir gk false [o] (ownp d))) gk)) ∧
      (t.kind = 7 → d.coarse = false → d.ptrs = [] → exec (.h2dResponse gk x) s
        = .next (endTxn (setDir (sendData k o gk .modified 0) gk (newDir gk true [o] (ownp d))) gk)) ∧
      (t.kind = 7 → (d.coarse = true ∨ d.ptrs ≠ []) → exec (.h2dResponse gk x) s = .next (grantAll k gk o d true)) ∧
      (t.kind = 10 → exec (.h2dResponse gk x) s = .next (grantAll s gk o d (!names d o)))) ∧
    (576 ∉ s.fenced → o < 512 → isHostGran gk = true →
      let asks (k : State) (code : Nat) : State := post (send k (.host code gk none)) (.h2dResponse gk (homeData k gk))
      let fresh := setDir s gk (newDir gk false [] (granOwner s o gk))
      (served s o gk false (.gets o gk) → dirOf s gk = none → (setMates s gk).length < 16 → exec (.gets o gk) s = .next (asks (begun fresh gk 6 o [576]) 9)) ∧
      (served s o gk true (.getm o gk) → dirOf s gk = none → (setMates s gk).length < 16 → exec (.getm o gk) s = .next (asks (begun fresh gk 7 o [576]) 10)) ∧
      (served s o gk true (.getm o gk) → dirOf s gk = some d → d.owned = false → exec (.getm o gk) s = .next (asks (begun s gk 7 o [576]) 10)) ∧
      (served s o gk true (.upg o gk) → dirOf s gk = some d → d.owned = false → names d o = true → exec (.upg o gk) s = .next (asks (begun s gk 10 o [576]) 11)))

/-- R125 to R129: an agent whose third heartbeat in a row is missed is fenced, as the host is when its link fails: it is logged and told, its messages are discarded, the homes answer for it and scrub their entries, one a step; it
comes back, with no copies, only after every home has finished. What counts as misses in a row, each less than 480,000 clocks after the first, is the model's choice (notes/assumptions/17.md). -/
def Sys2Proof.Claims.DeadAgents : Prop :=
  ∀ (s : State) (a gk st i l req : Nat) (r : List (Nat × Nat)) (d : DirE) (c : Nat),
    (mgetD s.missed a 0 = 0 → exec (.heartbeatMiss a) s = .next { s with missed := mput s.missed a (4 * s.clock + 1) }) ∧
    (mgetD s.missed a 0 = 4 * c + 1 → s.clock < c + 480000 → exec (.heartbeatMiss a) s = .next { s with missed := mput s.missed a (4 * s.clock + 2) }) ∧
    (mgetD s.missed a 0 = 4 * c + 2 → s.clock < c + 480000 → exec (.heartbeatMiss a) s = .next (fenceAgent { s with missed := mdel s.missed a } a)) ∧
    (exec (.hostLinkFail l) s = .next (fenceAgent s 576)) ∧
    (a ∈ s.fenced → fenceAgent s a = s) ∧
    (a ∉ s.fenced → s.txns = [] → s.pieces = [] → s.bis = [] →
      let u := fenceAgent s a
      u.fenced = a :: s.fenced ∧ (∃ p, Out.notice 5 p a ∈ u.out) ∧ (∀ k < 4, (stackOf u k).scrub = (stackOf s k).scrub ++ [(a, 0)] ∧ .scrubStep k ∈ u.agenda)) ∧
    (a ∈ s.fenced → exec (.inv a gk req 0) s = .next (post s (.iack req a gk)) ∧ exec (.rcls a gk 0) s = .next (answered (poisonHome s gk) a gk) ∧
      exec (.rcli a gk 0) s = .next (answered (poisonHome s gk) a gk)) ∧
    ((stackOf s st).scrub = [] → exec (.scrubStep st) s = .next s) ∧
    ((stackOf s st).scrub = (a, i) :: r → i % 16 ≠ 0 → i + 1 ≠ 2 ^ 21 → exec (.scrubStep st) s
      = .next (post (setStack s st { stackOf s st with scrub := (a, i + 1) :: r }) (.scrubStep st))) ∧
    ((stackOf s st).scrub = (a, i) :: r → i + 1 = 2 ^ 21 → r = [] → exec (.scrubStep st) s = .next (setStack s st { stackOf s st with scrub := [] })) ∧
    ((stackOf s st).scrub = (a, i) :: r → i % 16 = 0 → s.dir = [(gk, d)] → granStack gk = st → gk % 2 ^ 17 = i / 16 → isHostGran gk = false → mfind s.txns gk = none → (vote d).isSome = true →
      (d.bad = true → ∃ u, exec (.scrubStep st) s = .next u ∧ (mfind u.txns gk).isSome = true) ∧
      (d.bad = false → d.coarse = true ∨ a ∉ d.ptrs → ∃ u, exec (.scrubStep st) s = .next u ∧ u.dir = s.dir ∧ u.psn = s.psn) ∧
      (d.bad = false → d.coarse = false → a ∈ d.ptrs → d.owned = true → ∃ u, exec (.scrubStep st) s = .next u ∧ u.dir = [] ∧ gk ∈ u.psn) ∧
      (d.bad = false → d.coarse = false → a ∈ d.ptrs → d.owned = false → d.ptrs.length ≠ 1 →
        ∃ u, exec (.scrubStep st) s = .next u ∧ u.dir = [(gk, { d with ptrs := d.ptrs.filter (· != a) })] ∧ u.psn = s.psn)) ∧
    ((∃ k < 4, ∃ j, (a, j) ∈ (stackOf s k).scrub) → exec (.agentReadmit a) s = .next s) ∧
    ((∀ k < 4, ∀ j, (a, j) ∉ (stackOf s k).scrub) → a ∈ s.fenced → ∃ u, exec (.agentReadmit a) s = .next u ∧ a ∉ u.fenced ∧ (∀ g < 2 ^ 46, copyOf u a g = none) ∧
      u.mem = s.mem ∧ u.dir = s.dir ∧ (a < 512 → (tileOf u a).l1 = [] ∧ (tileOf u a).ic = [] ∧ (tileOf u a).gtlb = [] ∧ (tileOf u a).itlb = []))


namespace Sys2Proof.Claims
open Sys2Proof Sys2Proof.Machine

/-! ## Management -/

/-- Only control space differs between s and t. -/
def OnlyCtl (s t : State) : Prop := { t with ctl := s.ctl } = s
/-- s with the newest entry of the black box of a die being of the given kind, partition and address, at the clock. -/
def Logged (s t : State) (die kind part addr : Nat) : Prop :=
  (∃ e, (mgetD t.boxes die []).head? = some e ∧ e.kind = kind ∧ e.part = part ∧ e.addr = addr ∧ e.cyc = s.clock) ∧
  mgetD t.boxN die 0 = mgetD s.boxN die 0 + 1 ∧ { t with boxes := s.boxes, boxN := s.boxN } = s
/-- A write of control space that is discarded and logged on I/O die 0 (R430, R442). -/
def Discards (s : State) (i : Instr) (off : Nat) : Prop := ∃ t, exec i s = .next t ∧ Logged s t 8 4 0 (0x40000000000 + off)
/-- The write is answered with an Unsupported Request, and logged (R430). -/
def Unsupported (s : State) (i : Instr) (off : Nat) : Prop := ∃ t, exec i s = .next (send t (.io true [])) ∧ Logged s t 8 4 0 (0x40000000000 + off)
/-- No partition but p runs on a tile of p. -/
abbrev Alone (s : State) (p : Nat) : Prop := ∀ k ∈ tileSet s p, ∀ q, tilePart s k = some q → q ≠ p → running s q = false

end Sys2Proof.Claims

/-- R56, R172, R187, R432, R435: START: the cases in which it is discarded; else the partition runs, its root point stands at ENTRY in supervisor mode on hart 0 of its first tile with ARG in g5,
every lane group and both grants, every other hart of its tiles free, the register files as it last left them, and its translation registers are set from its entry. Clearing V drops its
translations and its slots. That ENTRY is not canonical where its bit 54 is 1 is the model's choice (notes/assumptions/27.md). -/
def Sys2Proof.Claims.StartAndRemove : Prop :=
  ∀ (s : State) (p t : Nat) (l : List Nat), p < 64 →
    (startRefused s p = true → Discards s (.partitionStart p) (0x0C006000 + 64 * p)) ∧
    ((bitOf (ptWord s p 0) 0 = false ∨ bitOf (ctlWord s 0x20) 0 = false ∨ ptState s p = 1 ∨ tileSet s p = [] ∨ (ptWord s p 2).toNat % 4 ≠ 0 ∨ (ptWord s p 2).getLsbD 54 = true ∨ s.firmware = false ∨
      (∃ q < 64, q ≠ p ∧ bitOf (ptWord s q 0) 0 = true ∧ ptAsid s q = ptAsid s p) ∨ quantumOk (ctlWord s (0x0C000000 + 8 * p)) = false) → startRefused s p = true) ∧
    (startRefused s p = false → Alone s p → tileSet s p = t :: l → ∃ u, exec (.partitionStart p) s = .next u ∧ ptState u p = 1 ∧ u.mem = s.mem ∧
      (partOf u p).ptbr = BitVec.ofNat 64 (bits (ptWord s p 1) 51 16 * 2 ^ 16 + bits (ptWord s p 0) 17 8 * 2 ^ 52) ∧ (partOf u p).tsqb = 0 ∧ (partOf u p).fsqb = 0 ∧
      (let h := hartOf u (t * 16)
       h.st = .running ∧ h.sup = true ∧ h.pc = ((ptWord s p 2).setWidth 55).signExtend 64 ∧ mgetD h.g 5 0 = ptWord s p 4 ∧ (∀ r, r ≠ 5 → mgetD h.g r 0 = 0) ∧
       h.v.lanes = 15 ∧ h.fcsr = 0 ∧ h.gEmpty = []) ∧
      (tilePart s t = some p → (tileOf u t).v = (tileOf s t).v ∧ (tileOf u t).m = (tileOf s t).m ∧ (tileOf u t).t = (tileOf s t).t ∧ (tileOf u t).acc = (tileOf s t).acc) ∧
      (tileOf u t).mx = some (t * 16) ∧ (tileOf u t).fb = some (t * 16) ∧
      (∀ k, k / 16 ∈ t :: l → k ≠ t * 16 → (hartOf u k).st = .free)) ∧
    (ptState s p = 1 ∨ s.firmware = false → Discards s (.partitionRemove p) (0x0C006000 + 64 * p)) ∧
    (s.firmware = true → ptState s p ≠ 1 → bitOf (ptWord s p 0) 0 = false → exec (.partitionRemove p) s = .next s) ∧
    (s.firmware = true → ptState s p ≠ 1 → bitOf (ptWord s p 0) 0 = true → ∃ u, exec (.partitionRemove p) s = .next u ∧ ptWord u p 0 = ptWord s p 0 &&& ~~~1 ∧ u.mem = s.mem ∧ (partOf u p).slots = [] ∧
      (∀ k, ∀ x ∈ (tileOf u k).itlb, x ∈ (tileOf s k).itlb ∧ x.asid ≠ bits (ptWord s p 0) 17 8) ∧
      (∀ k, ∀ x ∈ (stackOf u k).llc, x ∈ (stackOf s k).llc ∧ x.asid ≠ bits (ptWord s p 0) 17 8) ∧
      (∀ k, ∀ x ∈ (tileOf u k).gtlb, x ∈ (tileOf s k).gtlb ∧ x.2.asid ≠ bits (ptWord s p 0) 17 8))

/-- R8, R430, R432, R435, R439: writes of control space: their size and alignment; a half word leaves the other half; the enables are masked by what is offered and frozen by the lock, which opens only while nothing runs; a quantum of
2^10 to 2^32; the partition table's words while it does not run; read-only words, whose writes are ignored; counters cleared bit by bit; offsets that take no writes; a write that one of its bytes, or of its region words, refuses, or whose START is refused, is discarded whole; all that is refused is logged on I/O die 0, and the host is answered Unsupported
Request. Until the firmware is verified nothing else is written, which is the model's reading of R436 (notes/assumptions/30.md). A segment revoked from no one changes nothing. -/
def Sys2Proof.Claims.ControlSpace : Prop :=
  ∀ (s : State) (off size p b seg : Nat) (w : Word),
    ((size ≠ 4 ∧ size ≠ 8 ∨ off % size ≠ 0) → Unsupported s (.controlSpaceWrite off size w) off) ∧
    (s.firmware = false → Discards s (.featureLock true) 0x20 ∧ Discards s (.featureLock false) 0x20 ∧ Discards s (.segmentRevoke b seg) (segOff b seg) ∧
      (off % 8 = 0 → readOnlyCtl off = false → Discards s (.controlSpaceWrite off 8 w) off)) ∧
    (off % 4 = 0 → exec (.controlSpaceWrite off 4 w) s = exec (.controlSpaceWrite (off / 8 * 8) 8
      (let v := if clearedByOnes (off / 8 * 8) then 0 else ctlWord s off
       if off % 8 = 0 then v.extractLsb' 32 32 ++ w.setWidth 32 else w.setWidth 32 ++ v.setWidth 32)) s) ∧
    (∀ o ∈ [0, 8, 0x0C002000, 0x0C002038, 0x0C003000, 0x0C004000, 0x20000000, 0x20000008], exec (.controlSpaceWrite o 8 w) s = .next s) ∧
    (let i (o : Nat) : Instr := .controlSpaceWrite o 8 w
     s.firmware = true →
     (bitOf (ctlWord s 0x20) 0 = true → Discards s (i 0x10) 0x10 ∧ Discards s (i 0x18) 0x18) ∧
     (bitOf (ctlWord s 0x20) 0 = false → ∃ t, exec (i 0x10) s = .next t ∧ ctlWord t 0x10 = w &&& ctlWord s 0 ∧ OnlyCtl s t ∧ ∀ o, o / 8 ≠ 2 → ctlWord t o = ctlWord s o) ∧
     (∀ o ∈ [0x28, 0x0C000200, 0x90000000], Discards s (i o) o) ∧
     (∀ o, o % 8 = 0 → 0x0C001000 ≤ o → o < 0x0C002000 → clearedByOnes o = true ∧ ∃ t, exec (i o) s = .next t ∧ ctlWord t o = ctlWord s o &&& ~~~w ∧ OnlyCtl s t) ∧
     (p < 64 → quantumOk w = true → ∃ t, exec (i (0x0C000000 + 8 * p)) s = .next t ∧ ctlWord t (0x0C000000 + 8 * p) = w ∧ OnlyCtl s t) ∧
     (p < 64 → quantumOk w = false → Discards s (i (0x0C000000 + 8 * p)) (0x0C000000 + 8 * p)) ∧
     (quantumOk w = true ↔ 1024 ≤ w.toNat ∧ w.toNat ≤ 4294967296) ∧
     (p < 64 → ∀ j < 8, ((j = 3 ∨ 5 ≤ j) → exec (i (0x0C006000 + 64 * p + 8 * j)) s = .next s) ∧
       (ptState s p = 1 → j ≠ 3 → j < 5 → Discards s (i (0x0C006000 + 64 * p + 8 * j)) (0x0C006000 + 64 * p + 8 * j))) ∧
     (p < 64 → ptState s p ≠ 1 →
       (∃ t, exec (i (0x0C006000 + 64 * p + 8)) s = .next t ∧ ptWord t p 1 = w &&& 0x000FFFFFFFFF0000 ∧ OnlyCtl s t) ∧
       (∃ t, exec (i (0x0C006000 + 64 * p + 16)) s = .next t ∧ ptWord t p 2 = w &&& 0x007FFFFFFFFFFFFF ∧ OnlyCtl s t) ∧
       (∃ t, exec (i (0x0C006000 + 64 * p + 32)) s = .next t ∧ ptWord t p 4 = w ∧ OnlyCtl s t) ∧
       (w.getLsbD 0 = true → w.getLsbD 3 = false → ∃ t, exec (i (0x0C006000 + 64 * p)) s = .next t ∧ ptWord t p 0 = (w &&& 0x000000FF0103FF01) ||| (ptWord s p 0 &&& 6) ∧ OnlyCtl s t) ∧
       (w.getLsbD 3 = true →
        let new := setPt s p 0 ((w &&& 0x000000FF0103FF01) ||| (ptWord s p 0 &&& 6))
        (startRefused new p = true → Discards s (i (0x0C006000 + 64 * p)) (0x0C006000 + 64 * p)) ∧
        (startRefused new p = false → exec (i (0x0C006000 + 64 * p)) s = exec (.partitionStart p) new))) ∧
     (∀ o, o % 8 = 0 → ((0x08000000 ≤ o ∧ o < 0x08008000) ∨ (0x40000000 ≤ o ∧ o < 0x40001000)) → (∃ j < 8, grantBad s (o + j) (bits w (8 * j + 7) (8 * j)) = true) → Discards s (i o) o) ∧
     (∀ o, o % 8 = 0 → 0x10000000 ≤ o → o < 0x10050000 → (∃ j < 8, regionBad s (o + j) (bits w (8 * j + 7) (8 * j)) = true) → Discards s (i o) o) ∧
     (∀ o, o % 8 = 0 → 0x0C007000 ≤ o → o < 0x0C007400 →
       let k := (o - 0x0C007000) / 2
       ((∃ j < 4, tileRegionBad s (k + j) (bits w (16 * j + 15) (16 * j)) = true) → Discards s (i o) o) ∧
       ((∀ j < 4, tileRegionBad s (k + j) (bits w (16 * j + 15) (16 * j)) = false) → ∃ t, exec (i o) s = .next t ∧ OnlyCtl s t ∧
         ∀ j < 4, tileWord t (k + j) = regionWord (bits w (16 * j + 15) (16 * j))))) ∧
    (s.firmware = true → (∃ t, exec (.featureLock true) s = .next t ∧ ctlWord t 0x20 = 1 ∧ OnlyCtl s t)) ∧
    (s.firmware = true → (∀ q < 64, ptState s q ≠ 1) → ∃ t, exec (.featureLock false) s = .next t ∧ ctlWord t 0x20 = 0 ∧ OnlyCtl s t) ∧
    ((∃ q < 64, ptState s q = 1) → Discards s (.featureLock false) 0x20) ∧
    (s.firmware = true → segOwner s b seg = none → exec (.segmentRevoke b seg) s = .next s) ∧
    (s.firmware = true → ∀ q, segOwner s b seg = some q → ptState s q ≠ 1 → (partOf s q).slots = [] →
      ∃ t, exec (.segmentRevoke b seg) s = .next t ∧ segOwner t b seg = none ∧ OnlyCtl s t) ∧
    (s.firmware = true → ∀ q, segOwner s b seg = some q → ptState s q = 1 → s.parts = [] →
      ∃ t, exec (.segmentRevoke b seg) s = .next t ∧ segOwner t b seg = none ∧ b * 16 + seg ∈ t.offline ∧ t.mem = s.mem)

/-- R384, R436 to R438, R440, R441: the four requests of the Fretia port have one answer each; a black box answers with its 4,096 entries; an attestation report holds its parts in their order and a
signature of 3,309 bytes. A warm reset keeps home memory and the black boxes; a cold reset clears the boxes and starts every clock at 0; firmware that is not verified is refused and logged, and the stages verified before it are
measured. That a warm reset keeps home memory (notes/assumptions/1.md), the order of the bytes of a report, the die of the entries of kinds 10 and 11 and the steps that make them (notes/assumptions/29.md, 30.md) are the model's choices. -/
def Sys2Proof.Claims.PortAndResets : Prop :=
  ∀ (s : State) (off e die : Nat) (w : Word) (m : BitVec 512) (n : BitVec 256),
    (off % 8 = 0 → ∃ v, exec (.fretiaCsrRead off) s = .next (send s (.fretia (leBytes 8 v)))) ∧
    (off % 8 = 0 → off < 0x0C003000 → exec (.fretiaCsrRead off) s = .next (send s (.fretia (leBytes 8 (ctlWord s off).toNat)))) ∧
    (exec (.fretiaCsrRead 0x0C003000) s = .next (send s (.fretia (leBytes 8 (BitVec.ofNat 64 s.clock).toNat)))) ∧
    (off % 8 = 0 → 0x80000000 ≤ off → off < 0x80040000 → ∃ v, v < 2 ^ (if off % 32 = 0 then 32 else 55) ∧ exec (.fretiaCsrRead off) s = .next (send s (.fretia (leBytes 8 v)))) ∧
    (off % 8 ≠ 0 → ∃ u, exec (.fretiaCsrRead off) s = .next (send u (.fretia [])) ∧ Logged s u 8 4 0 (0x40000000000 + off)) ∧
    (off % 8 = 0 → ∃ u, exec (.controlSpaceWrite off 8 w) s = .next u ∧ exec (.fretiaCsrWrite off w) s = .next (send u (.fretia []))) ∧
    (mgetD s.boxN die 0 = 0 → exec (.fretiaBlackboxRead die) s = .next (send s (.fretia (List.replicate 131072 0)))) ∧
    (∀ x r, mgetD s.boxes die [] = x :: r → mgetD s.boxN die 0 = r.length + 1 → r.length < 4096 → ∃ b, exec (.fretiaBlackboxRead die) s = .next (send s (.fretia b)) ∧
      b.length = 131072 ∧ (b.drop (32 * r.length)).take 8 = leBytes 8 x.cyc ∧ (b.drop (32 * r.length + 16)).take 8 = leBytes 8 x.addr) ∧
    (exec (.fretiaGroupWrite e m) s = .next (send { s with groups := mset 0 s.groups e m } (.fretia []))) ∧
    (∃ b sig, b.length = 88 + Config.orderingCode.length + 32 * s.stages.getD Config.stages ∧ exec (.fretiaAttestation n) s = .next (send s (.fretia (b ++ sig))) ∧ sig.length = 3309 ∧ b.take 16 = leBytes 16 Config.serial.toNat ∧
      b.drop (b.length - 32) = leBytes 32 n.toNat ∧ (b.drop (b.length - 40)).take 8 = leBytes 8 (ctlWord s 0).toNat) ∧
    (∃ t, exec (.coldReset true) s = .next t ∧ t.clock = 0 ∧ t.harts = [] ∧ t.agenda = [] ∧ t.firmware = true ∧ t.stages = none ∧ (∀ p, ptState t p = 0) ∧
      (mgetD t.boxes 8 []).map (fun x => (x.kind, x.data)) = [(11, 2), (11, 1)] ∧ ∀ d, d ≠ 8 → mgetD t.boxes d [] = []) ∧
    (∃ t, exec (.coldReset false) s = .next t ∧ t.firmware = false ∧ t.harts = [] ∧ (∃ x, mgetD t.boxes 8 [] = [x] ∧ x.kind = 10) ∧ (∀ p < 64, startRefused t p = true) ∧
      ∃ k, t.stages = some k ∧ (0 < Config.stages → k < Config.stages)) ∧
    (s.firmware = true → ∃ t x, exec .warmReset s = .next t ∧ t.clock = s.clock ∧ t.mem = s.mem ∧ t.harts = [] ∧ t.agenda = [] ∧ (∀ p, ptState t p = 0) ∧
      mgetD t.boxes 8 [] = x :: (mgetD s.boxes 8 []).take 4095 ∧ x.kind = 11 ∧ x.data = 2 ∧ mgetD t.boxN 8 0 = mgetD s.boxN 8 0 + 1 ∧
      ∀ d, d ≠ 8 → mgetD t.boxes d [] = mgetD s.boxes d [] ∧ mgetD t.boxN d 0 = mgetD s.boxN d 0) ∧
    (s.firmware = false → exec .warmReset s = .next s)

/-! ## The machine as a whole -/

/-- R436, R172, R56, R95, R361: State.reset: no partition exists, every hart is free, every slot empty, no entry in a directory, no copy, every counter 0. That control space holds FEAT0 as Config.feat0
gives it (notes/assumptions/5.md), that memory reads 0 (notes/assumptions/1.md), what the harts' registers, and the counters and slots of partitions not started, hold (notes/assumptions/2.md), and that the firmware is
verified (notes/assumptions/30.md) are the model's choices. The two invariants hold, and nothing moves until the outside acts. -/
def Obligations.ResetState : Prop :=
  (∀ p j, p < 64 → j < 8 → ptWord State.reset p j = 0) ∧ (∀ h, (hartOf State.reset h).st = .free ∧ (hartOf State.reset h).fcsr = 0 ∧ (hartOf State.reset h).v.vtype = 0xC0) ∧
  (∀ p v, (slotOf State.reset p v).st = .empty) ∧ (∀ gk, dirOf State.reset gk = none) ∧ (∀ a gk, copyOf State.reset a gk = none) ∧ State.reset.ctr = [] ∧
  State.reset.firmware = true ∧ State.reset.stages = none ∧ State.reset.hdm = [] ∧ (∀ o, 8 ≤ o → ctlWord State.reset o = 0) ∧ ctlWord State.reset 0 = Config.feat0 ∧ (∀ a, homeByte State.reset a = 0) ∧
  State.reset.memWf = true ∧ Claims.AllShaped State.reset ∧ Machine.step State.reset = .fault .idle

/-- R6, R16: a byte of home memory reads as it was last written, and a run of bytes written in ascending order leaves every other byte; both keep the canonical form of the memories. -/
def Obligations.HomeMemory : Prop :=
  ∀ (s : State) (a c : Nat) (b : BitVec 8) (bs : List (BitVec 8)),
    homeByte (setHomeByte s a b) c = (if c = a then b else homeByte s c) ∧
    homeByte (pokeHome s a bs) c = (if a ≤ c ∧ c < a + bs.length then bs.getD (c - a) 0 else homeByte s c) ∧
    (s.memWf = true → (setHomeByte s a b).memWf = true ∧ (pokeHome s a bs).memWf = true) ∧
    (∀ g x, homeByte (writeGran s g x) c = if c / 128 = g ∧ x.mask.getLsbD (c % 128) = true then x.data.extractLsb' (8 * (c % 128)) 8 else homeByte s c)

/-- R16: every step keeps the device's and the host's memory in their canonical form. -/
def Obligations.MemoryStaysCanonical : Prop :=
  ∀ (s t : State), s.memWf = true → Machine.step s = .next t → t.memWf = true

/-- R238 to R240: words written out from the encoding tables decode to their instructions. -/
def Obligations.DecodeSpecWords : Prop :=
  decode [0x04611000] = .ok (.add 3 1 2 false false false) ∧ decode [0x08227FFF] = .ok (.addi 1 2 false 0x7FFF) ∧ decode [0x24400001] = .ok (.movhi 2 1) ∧
  decode [0x2C6115E0] = .ok (.fadd 3 1 2 true false true 7) ∧ decode [0x30220004] = .ok (.beq 1 2 4) ∧ decode [0x34200002] = .ok (.jal 1 2) ∧
  decode [0x3C64C010] = .ok (.ld 3 4 3 false false 0x10) ∧ decode [0x40648010] = .ok (.st 3 4 2 false 0x10) ∧ decode [0x50600410] = .ok (.mfc 3 0x410) ∧
  decode [0x54601000] = .ok (.halt 3) ∧ decode [0x84611140] = .ok (.vadd 3 1 2 1 false true false) ∧ decode [0xC94E0400] = .ok (.mma 1 2 3 2 false false true 0) ∧
  decode [0x54600001] = .error .zeroField ∧ decode [0xF8000000] = .error .unusedMajor

/-- R235 to R245, R344 to R358: decoding the words that encode gives for a well-formed instruction that has words gives that instruction, with every operand. -/
def Obligations.DecodeEncode : Prop := ∀ i : Instr, i.encoded = true → i.wellFormed = true → decode (encode i) = .ok i

/-- R192, R210, R240, R247: a step: where the agenda has nothing, or it is the harts' turn, the harts of the next tile are examined in turn until one issues: a hart fetches and executes what its words decode to, a convoy as
one, and forgets a barrier begun at a BAR it no longer stands at (R413, R414); a word that decodes to nothing traps; a fetch that faults traps; one that must wait leaves the turn to the next. Where it is the agenda's turn, its oldest entry runs. A word is the four bytes at the translated pc in the
tile's instruction cache. With nothing to move, the machine is idle. That tiles take turns, and the agenda with them, is the model's choice (notes/assumptions/3.md). -/
def Obligations.StepRunsDecoded : Prop :=
  ∀ (s u : State) (h w : Nat) (r hs : List Nat) (e : Event) (l : List Event) (i : Instr) (va : Word) (x : Xlat) (d : BitVec 1024),
    let k := { s with clock := s.clock + 1 }
    let one := hasC w = false ∨ (cBit w = false ∧ r = [])
    (fetchIssue (atTurn s h) = .words u (w :: r) →
      (one → decode ((w :: r).map (BitVec.ofNat 32)) = .ok i → stepHart s h = exec i u) ∧
      (one → ∀ x, decode ((w :: r).map (BitVec.ofNat 32)) = .error x → stepHart s h = exec (.reservedEncoding (BitVec.ofNat 32 w)) u) ∧
      (¬one → stepHart s h = exec (.convoyIssue ((w :: r).map (BitVec.ofNat 32))) u)) ∧
    (∀ ws, fetchWords s = .words u ws → ∃ v, fetchIssue s = .words v ws ∧ setCur v { curH v with barPh := none } = setCur u { curH u with barPh := none } ∧
      (curH v).barPh = if ∃ a x y, decode (ws.map (BitVec.ofNat 32)) = .ok (.bar a x y) then (curH u).barPh else none) ∧
    (∀ c sb, fetchIssue (atTurn s h) = .fault u c sb va → stepHart s h = exec (.instructionFetchFault c sb va) u) ∧
    (fetchIssue (atTurn s h) = .wait u → stepHart s h = .next (setHart u h { hartOf u h with wait := .fetch })) ∧
    ((atTurn s h).cur = h ∧ hartOf (atTurn s h) h = hartOf s h ∧ (atTurn s h).evTurn = true ∧ (atTurn s h).mem = s.mem ∧ (atTurn s h).agenda = s.agenda) ∧
    (tryHarts s [] = .next s ∧
      ∀ t, stepHart s h = .next t → tryHarts s (h :: hs) = if (hartOf t h).wait = .none ∨ ((hartOf t h).wait = .yielding ∧ (hartOf s h).wait ≠ .yielding) then .next t else tryHarts (keepTurn s t h) hs) ∧
    (turnOrder k = h :: hs → (s.agenda = [] ∨ s.evTurn = false) → Machine.step s = tryHarts k (h :: hs) ∧
      (fetchIssue (atTurn k h) = .words u (w :: r) → one → decode ((w :: r).map (BitVec.ofNat 32)) = .ok i → (∀ t, exec i u = .next t → issued k t h = true) → Machine.step s = exec i u)) ∧
    (∀ j ∈ turnOrder s, nextTile s = some (j / 16) ∧ issues s (j / 16) = true ∧ ∃ y, (j, y) ∈ s.harts ∧ y.st = .running) ∧
    (s.agenda = e :: l → (turnOrder k = [] ∨ s.evTurn = true) → Machine.step s = exec e.toInstr { k with agenda := l, evTurn := false }) ∧
    (s.agenda = [] → turnOrder k = [] → Machine.step s = .fault .idle) ∧
    (xlateFetch s (curTile s) (curPart s) va (curH s).sup = .ok u x → slotRefuses u (curPart s) x.vcid va .fetch = none → mfind (tileOf u (curTile s)).ic (x.pk va / 128) = some d →
      fetchWord s va = .word u (d.toNat / 2 ^ (8 * (x.pk va % 128)) % 2 ^ 32))

/-- Every instruction and every step of a unit answers a next state from every state: none is refused, and none stops the machine. That a step whose subject is absent leaves the state as it is, is the model's
choice (notes/assumptions/10.md). -/
def Obligations.NothingRefused : Prop :=
  (∀ (i : Instr) (s : State), ∃ t, exec i s = .next t) ∧ (∀ (s : State) r, Machine.step s ≠ .refused r) ∧
  (∀ (s : State) f, Machine.step s = .fault f → s.agenda = [] ∧ turnOrder { s with clock := s.clock + 1 } = [])


namespace Sys2Proof.Claims
open Sys2Proof Sys2Proof.Machine

/-! ## Where instructions complete -/

/-- Vector word x, issued alone by instruction i where rows 2 and 6 to 8 of R247 let it (R296), completes: its hart stands at the next word, what x writes is in place, and memory is as it was. -/
def Completes (s : State) (x : VW) (i : Instr) : Prop :=
  Issues s x → ∃ t r, exec i s = .next t ∧ (curH t).pc = (curH s).pc + 4 ∧ (curH t).conv = none ∧ tileOf t (curTile s) = tileOf (after s x r) (curTile s) ∧ t.mem = s.mem

end Sys2Proof.Claims

open Sys2Proof Sys2Proof.Machine Sys2Proof.Claims

/-- R265: FCVT with each of its sub-codes completes whenever its operands let it issue: its hart goes on to the next word, and every register but rd, whose value FpConvert states, and memory are as before. -/
def Sys2Proof.Claims.FcvtCompletes : Prop :=
  ∀ (s : State) (d a c : BitVec 5) (t p : Bool) (m : BitVec 3), Ready s [(a, t)] (some d) → c.toNat ≤ 4 → ∃ u, exec (.fcvt d a c t p m) s = .next u ∧
    (curH u).pc = (curH s).pc + 4 ∧ (∀ k, k ≠ gkey (curH s).sup d → mgetD (curH u).g k 0 = mgetD (curH s).g k 0) ∧ u.mem = s.mem

/-- R296, R299 to R301: every vector integer, floating-point and special function completes, on every operand and element value, whenever it issues. -/
def Sys2Proof.Claims.VectorArithmeticCompletes : Prop :=
  ∀ (s : State) (d a b : BitVec 5) (k : BitVec 3) (t u : Bool),
    Completes s ⟨0x21, d, a, b, k, t, sBit 0 u⟩ (.vadd d a b k false t u) ∧ Completes s ⟨0x21, d, a, b, k, t, sBit 1 u⟩ (.vsub d a b k false t u) ∧
    Completes s ⟨0x21, d, a, b, k, t, sBit 2 u⟩ (.vmul d a b k false t u) ∧ Completes s ⟨0x21, d, a, b, k, t, sBit 3 u⟩ (.vmulh d a b k false t u) ∧
    Completes s ⟨0x21, d, a, b, k, t, sBit 4 u⟩ (.vmulhu d a b k false t u) ∧ Completes s ⟨0x21, d, a, b, k, t, sBit 5 u⟩ (.vand d a b k false t u) ∧
    Completes s ⟨0x21, d, a, b, k, t, sBit 6 u⟩ (.vor d a b k false t u) ∧ Completes s ⟨0x21, d, a, b, k, t, sBit 7 u⟩ (.vxor d a b k false t u) ∧
    Completes s ⟨0x21, d, a, b, k, t, sBit 8 u⟩ (.vsll d a b k false t u) ∧ Completes s ⟨0x21, d, a, b, k, t, sBit 9 u⟩ (.vsrl d a b k false t u) ∧
    Completes s ⟨0x21, d, a, b, k, t, sBit 10 u⟩ (.vsra d a b k false t u) ∧ Completes s ⟨0x21, d, a, b, k, t, sBit 11 u⟩ (.vmin d a b k false t u) ∧
    Completes s ⟨0x21, d, a, b, k, t, sBit 12 u⟩ (.vmax d a b k false t u) ∧ Completes s ⟨0x21, d, a, b, k, t, sBit 13 u⟩ (.vminu d a b k false t u) ∧
    Completes s ⟨0x21, d, a, b, k, t, sBit 14 u⟩ (.vmaxu d a b k false t u) ∧ Completes s ⟨0x21, d, a, b, k, t, sBit 15 u⟩ (.vabsd d a b k false t u) ∧
    Completes s ⟨0x21, d, a, b, k, t, sBit 16 u⟩ (.vadds d a b k false t u) ∧ Completes s ⟨0x21, d, a, b, k, t, sBit 17 u⟩ (.vsubs d a b k false t u) ∧
    Completes s ⟨0x21, d, a, b, k, t, sBit 18 u⟩ (.vaddus d a b k false t u) ∧ Completes s ⟨0x21, d, a, b, k, t, sBit 19 u⟩ (.vsubus d a b k false t u) ∧
    Completes s ⟨0x21, d, a, b, k, t, sBit 20 u⟩ (.vdot4 d a b k false t u) ∧ Completes s ⟨0x21, d, a, b, k, t, sBit 21 u⟩ (.vmac d a b k false t u) ∧
    Completes s ⟨0x22, d, a, b, k, t, sBit 0 u⟩ (.vfadd d a b k false t u) ∧ Completes s ⟨0x22, d, a, b, k, t, sBit 1 u⟩ (.vfsub d a b k false t u) ∧
    Completes s ⟨0x22, d, a, b, k, t, sBit 2 u⟩ (.vfmul d a b k false t u) ∧ Completes s ⟨0x22, d, a, b, k, t, sBit 3 u⟩ (.vfma d a b k false t u) ∧
    Completes s ⟨0x22, d, a, b, k, t, sBit 4 u⟩ (.vfnma d a b k false t u) ∧ Completes s ⟨0x22, d, a, b, k, t, sBit 5 u⟩ (.vfdiv d a b k false t u) ∧
    Completes s ⟨0x22, d, a, b, k, t, sBit 7 u⟩ (.vfmin d a b k false t u) ∧ Completes s ⟨0x22, d, a, b, k, t, sBit 8 u⟩ (.vfmax d a b k false t u) ∧
    Completes s ⟨0x22, d, a, b, k, t, sBit 11 u⟩ (.vfscl d a b k false t u) ∧ Completes s ⟨0x22, d, a, 0, k, t, 6⟩ (.vfsqrt d a k false t) ∧
    Completes s ⟨0x22, d, a, 0, k, t, 9⟩ (.vfabs d a k false t) ∧ Completes s ⟨0x22, d, a, 0, k, t, 10⟩ (.vfneg d a k false t) ∧
    Completes s ⟨0x23, d, a, 0, k, t, 0⟩ (.vsfuExp2 d a k false t) ∧ Completes s ⟨0x23, d, a, 0, k, t, 1⟩ (.vsfuLog2 d a k false t) ∧
    Completes s ⟨0x23, d, a, 0, k, t, 2⟩ (.vsfuRcp d a k false t) ∧ Completes s ⟨0x23, d, a, 0, k, t, 3⟩ (.vsfuRsqrt d a k false t) ∧
    Completes s ⟨0x23, d, a, 0, k, t, 4⟩ (.vsfuSin d a k false t) ∧ Completes s ⟨0x23, d, a, 0, k, t, 5⟩ (.vsfuCos d a k false t) ∧
    Completes s ⟨0x23, d, a, 0, k, t, 6⟩ (.vsfuTanh d a k false t) ∧ Completes s ⟨0x23, d, a, 0, k, t, 7⟩ (.vsfuSigm d a k false t)

/-- R296, R302 to R305: every comparison, mask instruction, permutation, scan and reduction completes whenever it issues. -/
def Sys2Proof.Claims.VectorPermutesComplete : Prop :=
  ∀ (s : State) (d a b : BitVec 5) (k : BitVec 3) (t u : Bool) (n : BitVec 4),
    (n.toNat < 8 → Completes s ⟨0x24, d, a, b, k, t, sBit n.toNat u⟩ (.vcmp d a b k false t u n)) ∧ (n.toNat < 7 → Completes s ⟨0x24, d, a, b, k, t, sBit (n.toNat + 16) u⟩ (.vfcmp d a b k false t u n)) ∧
    Completes s ⟨0x25, d, a, b, k, t, 0⟩ (.mand d a b k false t) ∧ Completes s ⟨0x25, d, a, b, k, t, 1⟩ (.mor d a b k false t) ∧
    Completes s ⟨0x25, d, a, b, k, t, 2⟩ (.mxor d a b k false t) ∧ Completes s ⟨0x25, d, a, b, k, t, 3⟩ (.mandn d a b k false t) ∧
    Completes s ⟨0x25, d, a, 0, k, t, 4⟩ (.mnot d a k false t) ∧ Completes s ⟨0x25, d, a, 0, k, t, 5⟩ (.mpopc d a k false t) ∧
    Completes s ⟨0x25, d, a, 0, k, t, 6⟩ (.mfirst d a k false t) ∧ Completes s ⟨0x25, d, 0, 0, k, t, 7⟩ (.mset d k false t) ∧
    Completes s ⟨0x25, d, 0, 0, k, t, 8⟩ (.mclr d k false t) ∧ Completes s ⟨0x26, d, a, b, k, t, 0⟩ (.vperm d a b k false t) ∧
    Completes s ⟨0x26, d, a, b, k, t, 1⟩ (.vslideup d a b k false t) ∧ Completes s ⟨0x26, d, a, b, k, t, 2⟩ (.vslidedn d a b k false t) ∧
    Completes s ⟨0x26, d, a, b, k, t, 6⟩ (.vrowbc d a b k false t) ∧ Completes s ⟨0x26, d, a, 0, k, t, 3⟩ (.vcompress d a k false t) ∧
    Completes s ⟨0x26, d, a, 0, k, t, 4⟩ (.vexpand d a k false t) ∧ (n.toNat < 8 → Completes s ⟨0x26, d, a, n.setWidth 5, k, t, 5⟩ (.vscan d a n k false t)) ∧
    (n.toNat < 3 → Completes s ⟨0x26, d, a, 16 + n.setWidth 5, k, t, 5⟩ (.vfscan d a n k false t)) ∧ Completes s ⟨0x27, d, a, 0, k, t, 0⟩ (.vredSum d a k false t) ∧
    Completes s ⟨0x27, d, a, 0, k, t, 1⟩ (.vredMax d a k false t) ∧ Completes s ⟨0x27, d, a, 0, k, t, 2⟩ (.vredMin d a k false t) ∧
    Completes s ⟨0x27, d, a, 0, k, t, 3⟩ (.vredAnd d a k false t) ∧ Completes s ⟨0x27, d, a, 0, k, t, 4⟩ (.vredOr d a k false t) ∧
    Completes s ⟨0x27, d, a, 0, k, t, 5⟩ (.vredXor d a k false t) ∧ Completes s ⟨0x27, d, a, 0, k, t, 6⟩ (.vredMaxu d a k false t) ∧
    Completes s ⟨0x27, d, a, 0, k, t, 7⟩ (.vredMinu d a k false t) ∧ Completes s ⟨0x27, d, a, 0, k, t, 16⟩ (.vfredSum d a k false t) ∧
    Completes s ⟨0x27, d, a, 0, k, t, 17⟩ (.vfredMax d a k false t) ∧ Completes s ⟨0x27, d, a, 0, k, t, 18⟩ (.vfredMin d a k false t)

/-- R296, R306 to R309, R317 to R321: every vector conversion and move, and every database primitive, completes whenever it issues. -/
def Sys2Proof.Claims.VectorConversionsComplete : Prop :=
  ∀ (s : State) (d a b : BitVec 5) (k : BitVec 3) (t u i : Bool) (h : BitVec 3),
    Completes s ⟨0x28, d, a, BitVec.ofNat 5 (h.toNat + (if i then 8 else 0)), k, t, 0⟩ (.vcvth d a i h k false t) ∧ Completes s ⟨0x28, d, a, BitVec.ofNat 5 (h.toNat + (if i then 8 else 0) + (if u then 16 else 0)), k, t, 1⟩ (.vcvtd d a u i h k false t) ∧
    Completes s ⟨0x28, d, a, BitVec.ofNat 5 (if u then 16 else 0), k, t, 2⟩ (.vcvti2f d a u k false t) ∧ Completes s ⟨0x28, d, a, BitVec.ofNat 5 (if u then 16 else 0), k, t, 3⟩ (.vcvtf2i d a u k false t) ∧
    Completes s ⟨0x28, d, a, 0, k, t, 4⟩ (.vcvt8 d a k false t) ∧ Completes s ⟨0x28, d, a, 0, k, t, 5⟩ (.vcvts d a k false t) ∧
    Completes s ⟨0x29, d, a, 0, k, t, 0⟩ (.vmv d a k false t) ∧ Completes s ⟨0x29, d, a, 0, k, t, 1⟩ (.vbcast d a k false t) ∧
    Completes s ⟨0x29, d, a, b, 0, t, 2⟩ (.vextr d a b false t) ∧ Completes s ⟨0x29, d, a, b, k, t, 3⟩ (.vins d a b k false t) ∧
    Completes s ⟨0x29, d, a, b, k, t, 4⟩ (.vsel d a b k false t) ∧ Completes s ⟨0x29, d, 0, 0, k, t, 5⟩ (.vmrank d k false t) ∧
    Completes s ⟨0x2D, d, a, b, k, t, 0⟩ (.vhash d a b k false t) ∧ Completes s ⟨0x2D, d, a, b, k, t, 1⟩ (.vbucket d a b k false t) ∧
    Completes s ⟨0x2D, d, a, 0, k, t, 2⟩ (.vconf d a k false t) ∧ Completes s ⟨0x2D, d, a, b, k, t, 3⟩ (.vstrcmp d a b k false t) ∧
    Completes s ⟨0x2D, d, a, b, k, t, 4⟩ (.vstrhash d a b k false t)


/-! ## The statements that have several parts -/

/-- The integer register operations write the result the table gives: the conjunction of the parts stated above. -/
def Obligations.IntegerOperations : Prop :=
  Sys2Proof.Claims.IntegerArithmetic ∧ Sys2Proof.Claims.IntegerLogic ∧ Sys2Proof.Claims.IntegerBits

/-- The immediate forms and their results, and that the mixing step loses nothing: the conjunction of the parts stated above. -/
def Obligations.IntegerImmediates : Prop :=
  Sys2Proof.Claims.IntegerImmediate ∧ Sys2Proof.Claims.HmixOneToOne

/-- Scalar floating-point arithmetic rounds once, and what special operands give: the conjunction of the parts stated above. -/
def Obligations.FloatResults : Prop :=
  Sys2Proof.Claims.FpArithmetic ∧ Sys2Proof.Claims.FpSpecial

/-- Sums, products, quotients and roots are exact up to the one rounding: the conjunction of the parts stated above. -/
def Obligations.FloatExactness : Prop :=
  Sys2Proof.Claims.FpExact ∧ Sys2Proof.Claims.FpQuotientAndRoot

/-- The rounding modes, the formats and what lies past the greatest number: the conjunction of the parts stated above. -/
def Obligations.Rounding : Prop :=
  Sys2Proof.Claims.RoundingModes ∧ Sys2Proof.Claims.FormatNumbers

/-- Floating-point comparisons, minima, maxima and classes: the conjunction of the parts stated above. -/
def Obligations.FloatComparisons : Prop :=
  Sys2Proof.Claims.FpCompare ∧ Sys2Proof.Claims.FpOrder

/-- Conversions between integers and floating-point numbers: the conjunction of the parts stated above. -/
def Obligations.FloatConversions : Prop :=
  Sys2Proof.Claims.FpConvert ∧ Sys2Proof.Claims.IntegerOfNumber ∧ Sys2Proof.Claims.FcvtCompletes

/-- Branches and jumps, and the targets they refuse: the conjunction of the parts stated above. -/
def Obligations.BranchesAndJumps : Prop :=
  Sys2Proof.Claims.Branches ∧ Sys2Proof.Claims.Jumps

/-- Empty and marked operands, and what a write of a register does: the conjunction of the parts stated above. -/
def Obligations.Registers : Prop :=
  Sys2Proof.Claims.EmptyOperands ∧ Sys2Proof.Claims.RegisterFile

/-- TRAP, BRK, RFE, HALT, YIELD and words that trap: the conjunction of the parts stated above. -/
def Obligations.SystemInstructions : Prop :=
  Sys2Proof.Claims.TrapAndReturn ∧ Sys2Proof.Claims.Halt ∧ Sys2Proof.Claims.Yield

/-- Control registers: checks, reads and writes: the conjunction of the parts stated above. -/
def Obligations.ControlAccess : Prop :=
  Sys2Proof.Claims.ControlRegisters ∧ Sys2Proof.Claims.ControlChecks ∧ Sys2Proof.Claims.ControlWrites

/-- SHOOT and the steps of a shootdown: the conjunction of the parts stated above. -/
def Obligations.Shootdown : Prop :=
  Sys2Proof.Claims.ShootInstruction ∧ Sys2Proof.Claims.ShootOperands ∧ Sys2Proof.Claims.ShootSteps

/-- Translation service requests, their answers, and the steps of translation: the conjunction of the parts stated above. -/
def Obligations.TranslationServices : Prop :=
  Sys2Proof.Claims.ServiceAnswers ∧ Sys2Proof.Claims.ServiceSources ∧ Sys2Proof.Claims.NodeEndAndWatermark ∧ Sys2Proof.Claims.TranslationSteps

/-- Loads and stores, and how a load is delivered: the conjunction of the parts stated above. -/
def Obligations.LoadsAndStores : Prop :=
  Sys2Proof.Claims.Loads ∧ Sys2Proof.Claims.Stores ∧ Sys2Proof.Claims.Delivery

/-- Atomics and reductions with their functions: the conjunction of the parts stated above. -/
def Obligations.AtomicOperations : Prop :=
  Sys2Proof.Claims.Atomics ∧ Sys2Proof.Claims.AtomicFunctions ∧ Sys2Proof.Claims.Reductions

/-- Where accesses in flight are performed and which bytes they write: the conjunction of the parts stated above. -/
def Obligations.AccessPlaces : Prop :=
  Sys2Proof.Claims.AccessesInFlight ∧ Sys2Proof.Claims.WrittenBytes ∧ Sys2Proof.Claims.AccessesAtTheirPlace

/-- The store buffer and the merge buffer: the conjunction of the parts stated above. -/
def Obligations.Buffers : Prop :=
  Sys2Proof.Claims.StoreBuffer ∧ Sys2Proof.Claims.MergeBuffer

/-- Fences, what they wait for, and joins: the conjunction of the parts stated above. -/
def Obligations.Fences : Prop :=
  Sys2Proof.Claims.Fence ∧ Sys2Proof.Claims.FencePriorSet ∧ Sys2Proof.Claims.Joins

/-- WATCH, WAITW and the barrier instructions: the conjunction of the parts stated above. -/
def Obligations.WaitingAndBarriers : Prop :=
  Sys2Proof.Claims.WatchAndWait ∧ Sys2Proof.Claims.Barriers ∧ Sys2Proof.Claims.BarrierWord

/-- Cache maintenance, and the release of loads that wait at a watermark: the conjunction of the parts stated above. -/
def Obligations.CacheControl : Prop :=
  Sys2Proof.Claims.CacheMaintenance ∧ Sys2Proof.Claims.GranuleTreatment ∧ Sys2Proof.Claims.WatermarkRelease

/-- Engine commands enter their queue and are checked there: the conjunction of the parts stated above. -/
def Obligations.CommandIssue : Prop :=
  Sys2Proof.Claims.CopyCommands ∧ Sys2Proof.Claims.CommandTaken

/-- The steps of copies and the bytes they move: the conjunction of the parts stated above. -/
def Obligations.Copies : Prop :=
  Sys2Proof.Claims.CopySteps ∧ Sys2Proof.Claims.CopySources

/-- Posts and the operations they fire: the conjunction of the parts stated above. -/
def Obligations.PostsAndFiring : Prop :=
  Sys2Proof.Claims.Posts ∧ Sys2Proof.Claims.PostsFire

/-- Trigger counters: raises, grants and the counter instructions: the conjunction of the parts stated above. -/
def Obligations.Counters : Prop :=
  Sys2Proof.Claims.CounterRaise ∧ Sys2Proof.Claims.CounterRuns ∧ Sys2Proof.Claims.CounterInstructions

/-- Nodes: submission, states, begin and retirement: the conjunction of the parts stated above. -/
def Obligations.Nodes : Prop :=
  Sys2Proof.Claims.Submissions ∧ Sys2Proof.Claims.NodeStates ∧ Sys2Proof.Claims.NodeBeginAndRetire

/-- Stream engines and the addresses of their patterns: the conjunction of the parts stated above. -/
def Obligations.StreamEngines : Prop :=
  Sys2Proof.Claims.Streams ∧ Sys2Proof.Claims.PatternAddress

/-- Cinches: registration, release and position queries: the conjunction of the parts stated above. -/
def Obligations.CinchSteps : Prop :=
  Sys2Proof.Claims.Cinches ∧ Sys2Proof.Claims.PositionQueries

/-- Points: dispatch, entry, order and stalls: the conjunction of the parts stated above. -/
def Obligations.Points : Prop :=
  Sys2Proof.Claims.Dispatch ∧ Sys2Proof.Claims.PointEntry ∧ Sys2Proof.Claims.PointOrder ∧ Sys2Proof.Claims.StalledPoints

/-- Lane steps, thermal halts and bank errors; the address and data of their log entries are the choice of log 29: the conjunction of the parts stated above. -/
def Obligations.PowerAndBanks : Prop :=
  Sys2Proof.Claims.PowerSteps ∧ Sys2Proof.Claims.BankErrors

/-- Quanta, and that a saved context comes back as it left; emptied caches and the next partition are the choices of logs 40 and 42: the conjunction of the parts stated above. -/
def Obligations.ContextSwap : Prop :=
  Sys2Proof.Claims.Quanta ∧ Sys2Proof.Claims.SavedContext

/-- Cache slots: VCDEF, VCQRY and the states of a slot: the conjunction of the parts stated above. -/
def Obligations.CacheSlots : Prop :=
  Sys2Proof.Claims.SlotInstructions ∧ Sys2Proof.Claims.SlotTransitions

/-- Draining and moving the lines of a slot: the conjunction of the parts stated above. -/
def Obligations.SlotMigration : Prop :=
  Sys2Proof.Claims.SlotSteps ∧ Sys2Proof.Claims.MoveNotices

/-- Vector integer, floating-point and special functions, element by element: the conjunction of the parts stated above. -/
def Obligations.VectorArithmetic : Prop :=
  Sys2Proof.Claims.VectorIntegers ∧ Sys2Proof.Claims.VectorFloats ∧ Sys2Proof.Claims.SpecialFunctions ∧ Sys2Proof.Claims.VectorArithmeticCompletes

/-- Vector comparisons, masks and permutations: the conjunction of the parts stated above. -/
def Obligations.VectorMasksAndPermutes : Prop :=
  Sys2Proof.Claims.VectorMasks ∧ Sys2Proof.Claims.VectorPermutes ∧ Sys2Proof.Claims.VectorPermutesComplete

/-- Vector conversions, moves, reductions and database primitives: the conjunction of the parts stated above. -/
def Obligations.VectorConversionsAndMore : Prop :=
  Sys2Proof.Claims.VectorConversions ∧ Sys2Proof.Claims.DatabasePrimitives ∧ Sys2Proof.Claims.VectorConversionsComplete

/-- SETVL, SETRC and vector threads: the conjunction of the parts stated above. -/
def Obligations.VectorThreads : Prop :=
  Sys2Proof.Claims.VectorLength ∧ Sys2Proof.Claims.VectorThreads

/-- Convoys: their structure, checks and issue: the conjunction of the parts stated above. -/
def Obligations.Convoys : Prop :=
  Sys2Proof.Claims.Convoys ∧ Sys2Proof.Claims.ConvoyStructure

/-- The steps of the matrix streams and the elements of a product: the conjunction of the parts stated above. -/
def Obligations.MatrixResults : Prop :=
  Sys2Proof.Claims.MatrixSteps ∧ Sys2Proof.Claims.MatrixValues

/-- Fabric commands, ports, ends and freezes; the pattern records of a resumed port are the choice of log 22: the conjunction of the parts stated above. -/
def Obligations.FabricRuns : Prop :=
  Sys2Proof.Claims.FabricCommands ∧ Sys2Proof.Claims.FabricPortsAndEnds

/-- Fabric cells, their operations and awls; which stores of an awl wait to go as one granule is the choice of log 41: the conjunction of the parts stated above. -/
def Obligations.FabricNodes : Prop :=
  Sys2Proof.Claims.FabricCells ∧ Sys2Proof.Claims.FabricOperations ∧ Sys2Proof.Claims.FabricAwls

/-- Pod operations as they arrive, their answers, merging and multicast: the conjunction of the parts stated above. -/
def Obligations.PodOperations : Prop :=
  Sys2Proof.Claims.PodArrivals ∧ Sys2Proof.Claims.PodAnswers

/-- Router elements and entries, the crossbar and the links: the conjunction of the parts stated above. -/
def Obligations.RoutersAndLinks : Prop :=
  Sys2Proof.Claims.RouterSteps ∧ Sys2Proof.Claims.CrossbarAndLinks

/-- The home side of the coherence protocol; which entry of a full set leaves is the choice of log 12: the conjunction of the parts stated above. -/
def Obligations.HomeCoherence : Prop :=
  Sys2Proof.Claims.RequestsAtTheHome ∧ Sys2Proof.Claims.HomeProtocol

/-- The agent side of the coherence protocol, sharers, probes and the vote: the conjunction of the parts stated above. -/
def Obligations.AgentCoherence : Prop :=
  Sys2Proof.Claims.AgentProtocol ∧ Sys2Proof.Claims.Sharers

/-- The host as a coherence agent, and agents that die; misses in a row and answers to snoops without a holder are the choices of logs 17 and 16: the conjunction of the parts stated above. -/
def Obligations.HostAndDeadAgents : Prop :=
  Sys2Proof.Claims.HostCoherence ∧ Sys2Proof.Claims.DeadAgents

/-- Starting partitions, control space, the Fretia port and resets; home memory at a warm reset and the report order are the choices of logs 1 and 30: the conjunction of the parts stated above. -/
def Obligations.ManagementSteps : Prop :=
  Sys2Proof.Claims.StartAndRemove ∧ Sys2Proof.Claims.ControlSpace ∧ Sys2Proof.Claims.PortAndResets
end

