-- ==== Sys2Proof/Laws/Maps.lean ====
section
/-! SUPPORT. The laws of the sparse maps: what a key reads after an update, and that updates keep the canonical form. -/

namespace Sys2Proof.Machine
open Sys2Proof

variable {α : Type}

/-! ## Read after write -/

@[simp] theorem mfind_mput_same (m : SMap α) (k : Nat) (v : α) : mfind (mput m k v) k = some v := by
  induction m with
  | nil => simp [mput, mfind]
  | cons p r ih =>
    obtain ⟨j, w⟩ := p
    simp only [mput]
    split
    · simp [mfind]
    · split
      · simp [mfind]
      · rename_i h
        have h' : ¬j = k := fun e => h (by simp [e])
        simp [mfind, h', ih]

theorem mfind_mput_other (m : SMap α) (k : Nat) (v : α) {j : Nat} (h : j ≠ k) : mfind (mput m k v) j = mfind m j := by
  have h' : ¬k = j := fun e => h e.symm
  induction m with
  | nil => simp [mput, mfind, h']
  | cons p r ih =>
    obtain ⟨i, w⟩ := p
    simp only [mput]
    split
    · simp [mfind, h']
    · split
      · rename_i e
        have e' : k = i := by simpa using e
        subst e'
        simp [mfind, h']
      · simp only [mfind, ih]

@[simp] theorem mfind_mdel_same (m : SMap α) (k : Nat) : mfind (mdel m k) k = none := by
  induction m with
  | nil => rfl
  | cons p r ih =>
    obtain ⟨j, w⟩ := p
    simp only [mdel]
    split
    · exact ih
    · rename_i h
      have h' : ¬j = k := fun e => h (by simp [e])
      simp [mfind, h', ih]

theorem mfind_mdel_other (m : SMap α) (k : Nat) {j : Nat} (h : j ≠ k) : mfind (mdel m k) j = mfind m j := by
  induction m with
  | nil => rfl
  | cons p r ih =>
    obtain ⟨i, w⟩ := p
    simp only [mdel]
    split
    · rename_i e
      have e' : i = k := by simpa using e
      have h' : ¬i = j := fun x => h (x ▸ e')
      simp [mfind, h', ih]
    · simp only [mfind, ih]

@[simp] theorem mgetD_mput_same (m : SMap α) (k : Nat) (v d : α) : mgetD (mput m k v) k d = v := by simp [mgetD]

theorem mgetD_mput_other (m : SMap α) (k : Nat) (v d : α) {j : Nat} (h : j ≠ k) : mgetD (mput m k v) j d = mgetD m j d := by
  simp only [mgetD, mfind_mput_other m k v h]

@[simp] theorem mgetD_mset_same [DecidableEq α] (d : α) (m : SMap α) (k : Nat) (v : α) : mgetD (mset d m k v) k d = v := by
  simp only [mset]
  split
  · rename_i h
    simp [mgetD, h]
  · simp [mgetD]

theorem mgetD_mset_other [DecidableEq α] (d : α) (m : SMap α) (k : Nat) (v : α) {j : Nat} (h : j ≠ k) :
    mgetD (mset d m k v) j d = mgetD m j d := by
  simp only [mset]
  split
  · simp only [mgetD, mfind_mdel_other m k h]
  · exact mgetD_mput_other m k v d h

/-! ## The canonical form -/

/-- Every key of the map is above k. -/
def Above (k : Nat) (m : SMap α) : Prop := ∀ p ∈ m, k < p.1

theorem mwf_cons [DecidableEq α] (d : α) (j : Nat) (v : α) (r : SMap α) :
    mwf d ((j, v) :: r) = true ↔ v ≠ d ∧ Above j r ∧ mwf d r = true := by
  constructor
  · intro h
    induction r generalizing j v with
    | nil =>
      simp only [mwf, Bool.and_true, decide_eq_true_eq] at h
      exact ⟨h, fun p hp => absurd hp (by simp), rfl⟩
    | cons q r ih =>
      obtain ⟨i, w⟩ := q
      rw [mwf] at h
      simp only [Bool.and_eq_true, decide_eq_true_eq] at h
      obtain ⟨⟨hv, hji⟩, hr⟩ := h
      obtain ⟨_, ha, _⟩ := ih i w hr
      refine ⟨hv, fun p hp => ?_, hr⟩
      rcases List.mem_cons.mp hp with rfl | hp
      · exact hji
      · exact Nat.lt_trans hji (ha p hp)
  · rintro ⟨hv, ha, hr⟩
    cases r with
    | nil => simp [mwf, hv]
    | cons q r =>
      obtain ⟨i, w⟩ := q
      rw [mwf]
      simp only [Bool.and_eq_true, decide_eq_true_eq]
      exact ⟨⟨hv, ha (i, w) (by simp)⟩, hr⟩

theorem mem_mput {m : SMap α} {k : Nat} {v : α} {p : Nat × α} (h : p ∈ mput m k v) : p = (k, v) ∨ p ∈ m := by
  induction m with
  | nil => simpa [mput] using h
  | cons q r ih =>
    obtain ⟨j, w⟩ := q
    simp only [mput] at h
    split at h
    · simpa using h
    · split at h
      · rcases List.mem_cons.mp h with h | h
        · exact .inl h
        · exact .inr (List.mem_cons_of_mem _ h)
      · rcases List.mem_cons.mp h with h | h
        · exact .inr (h ▸ List.mem_cons_self)
        · rcases ih h with h | h
          · exact .inl h
          · exact .inr (List.mem_cons_of_mem _ h)

theorem mem_mdel {m : SMap α} {k : Nat} {p : Nat × α} (h : p ∈ mdel m k) : p ∈ m := by
  induction m with
  | nil => simp [mdel] at h
  | cons q r ih =>
    obtain ⟨j, w⟩ := q
    simp only [mdel] at h
    split at h
    · exact List.mem_cons_of_mem _ (ih h)
    · rcases List.mem_cons.mp h with h | h
      · exact h ▸ List.mem_cons_self
      · exact List.mem_cons_of_mem _ (ih h)

theorem mput_wf [DecidableEq α] {d : α} {m : SMap α} (h : mwf d m = true) (k : Nat) {v : α} (hv : v ≠ d) : mwf d (mput m k v) = true := by
  induction m with
  | nil => simp [mput, mwf, hv]
  | cons q r ih =>
    obtain ⟨j, w⟩ := q
    obtain ⟨hw, ha, hr⟩ := (mwf_cons d j w r).mp h
    simp only [mput]
    split
    · rename_i hk
      refine (mwf_cons d k v _).mpr ⟨hv, fun p hp => ?_, h⟩
      rcases List.mem_cons.mp hp with rfl | hp
      · exact hk
      · exact Nat.lt_trans hk (ha p hp)
    · split
      · rename_i hk
        have hk' : k = j := by simpa using hk
        exact (mwf_cons d k v r).mpr ⟨hv, hk' ▸ ha, hr⟩
      · rename_i h1 h2
        have h2' : k ≠ j := by simpa using h2
        refine (mwf_cons d j w _).mpr ⟨hw, fun p hp => ?_, ih hr⟩
        rcases mem_mput hp with rfl | hp
        · exact Nat.lt_of_le_of_ne (Nat.le_of_not_lt h1) h2'.symm
        · exact ha p hp

theorem mdel_wf [DecidableEq α] {d : α} {m : SMap α} (h : mwf d m = true) (k : Nat) : mwf d (mdel m k) = true := by
  induction m with
  | nil => rfl
  | cons q r ih =>
    obtain ⟨j, w⟩ := q
    obtain ⟨hw, ha, hr⟩ := (mwf_cons d j w r).mp h
    simp only [mdel]
    split
    · exact ih hr
    · exact (mwf_cons d j w _).mpr ⟨hw, fun p hp => ha p (mem_mdel hp), ih hr⟩

/-- Setting a key keeps the canonical form. -/
theorem mset_wf [DecidableEq α] {d : α} {m : SMap α} (h : mwf d m = true) (k : Nat) (v : α) : mwf d (mset d m k v) = true := by
  simp only [mset]
  split
  · exact mdel_wf h k
  · exact mput_wf h k ‹_›

end Sys2Proof.Machine
end

