-- ==== Sys2Proof/Laws/State.lean ====
section
/-! SUPPORT. One lemma per field of the state and per named update of it, true by definition; what the named parts read after an update. -/

namespace Sys2Proof.Machine
open Sys2Proof

/-! ### setHart -/

@[simp] theorem setHart_mem (s : State) (h : Nat) (x : Hart) : (setHart s h x).mem = s.mem := rfl
@[simp] theorem setHart_hostMem (s : State) (h : Nat) (x : Hart) : (setHart s h x).hostMem = s.hostMem := rfl
@[simp] theorem setHart_psn (s : State) (h : Nat) (x : Hart) : (setHart s h x).psn = s.psn := rfl
@[simp] theorem setHart_wrote (s : State) (h : Nat) (x : Hart) : (setHart s h x).wrote = s.wrote := rfl
@[simp] theorem setHart_ctl (s : State) (h : Nat) (x : Hart) : (setHart s h x).ctl = s.ctl := rfl
@[simp] theorem setHart_ctr (s : State) (h : Nat) (x : Hart) : (setHart s h x).ctr = s.ctr := rfl
@[simp] theorem setHart_harts (s : State) (h : Nat) (x : Hart) : (setHart s h x).harts = mput s.harts h x := rfl
@[simp] theorem setHart_tiles (s : State) (h : Nat) (x : Hart) : (setHart s h x).tiles = s.tiles := rfl
@[simp] theorem setHart_parts (s : State) (h : Nat) (x : Hart) : (setHart s h x).parts = s.parts := rfl
@[simp] theorem setHart_stks (s : State) (h : Nat) (x : Hart) : (setHart s h x).stks = s.stks := rfl
@[simp] theorem setHart_regions (s : State) (h : Nat) (x : Hart) : (setHart s h x).regions = s.regions := rfl
@[simp] theorem setHart_copies (s : State) (h : Nat) (x : Hart) : (setHart s h x).copies = s.copies := rfl
@[simp] theorem setHart_dir (s : State) (h : Nat) (x : Hart) : (setHart s h x).dir = s.dir := rfl
@[simp] theorem setHart_txns (s : State) (h : Nat) (x : Hart) : (setHart s h x).txns = s.txns := rfl
@[simp] theorem setHart_errs (s : State) (h : Nat) (x : Hart) : (setHart s h x).errs = s.errs := rfl
@[simp] theorem setHart_waitq (s : State) (h : Nat) (x : Hart) : (setHart s h x).waitq = s.waitq := rfl
@[simp] theorem setHart_bis (s : State) (h : Nat) (x : Hart) : (setHart s h x).bis = s.bis := rfl
@[simp] theorem setHart_fenced (s : State) (h : Nat) (x : Hart) : (setHart s h x).fenced = s.fenced := rfl
@[simp] theorem setHart_cinches (s : State) (h : Nat) (x : Hart) : (setHart s h x).cinches = s.cinches := rfl
@[simp] theorem setHart_pieces (s : State) (h : Nat) (x : Hart) : (setHart s h x).pieces = s.pieces := rfl
@[simp] theorem setHart_pend (s : State) (h : Nat) (x : Hart) : (setHart s h x).pend = s.pend := rfl
@[simp] theorem setHart_shoots (s : State) (h : Nat) (x : Hart) : (setHart s h x).shoots = s.shoots := rfl
@[simp] theorem setHart_shadow (s : State) (h : Nat) (x : Hart) : (setHart s h x).shadow = s.shadow := rfl
@[simp] theorem setHart_offline (s : State) (h : Nat) (x : Hart) : (setHart s h x).offline = s.offline := rfl
@[simp] theorem setHart_boxes (s : State) (h : Nat) (x : Hart) : (setHart s h x).boxes = s.boxes := rfl
@[simp] theorem setHart_boxN (s : State) (h : Nat) (x : Hart) : (setHart s h x).boxN = s.boxN := rfl
@[simp] theorem setHart_groups (s : State) (h : Nat) (x : Hart) : (setHart s h x).groups = s.groups := rfl
@[simp] theorem setHart_relems (s : State) (h : Nat) (x : Hart) : (setHart s h x).relems = s.relems := rfl
@[simp] theorem setHart_podMerge (s : State) (h : Nat) (x : Hart) : (setHart s h x).podMerge = s.podMerge := rfl
@[simp] theorem setHart_mcasts (s : State) (h : Nat) (x : Hart) : (setHart s h x).mcasts = s.mcasts := rfl
@[simp] theorem setHart_reps (s : State) (h : Nat) (x : Hart) : (setHart s h x).reps = s.reps := rfl
@[simp] theorem setHart_admitted (s : State) (h : Nat) (x : Hart) : (setHart s h x).admitted = s.admitted := rfl
@[simp] theorem setHart_linksDown (s : State) (h : Nat) (x : Hart) : (setHart s h x).linksDown = s.linksDown := rfl
@[simp] theorem setHart_xbarDown (s : State) (h : Nat) (x : Hart) : (setHart s h x).xbarDown = s.xbarDown := rfl
@[simp] theorem setHart_xbarFails (s : State) (h : Nat) (x : Hart) : (setHart s h x).xbarFails = s.xbarFails := rfl
@[simp] theorem setHart_xbarFenced (s : State) (h : Nat) (x : Hart) : (setHart s h x).xbarFenced = s.xbarFenced := rfl
@[simp] theorem setHart_firmware (s : State) (h : Nat) (x : Hart) : (setHart s h x).firmware = s.firmware := rfl
@[simp] theorem setHart_stages (s : State) (h : Nat) (x : Hart) : (setHart s h x).stages = s.stages := rfl
@[simp] theorem setHart_hdm (s : State) (h : Nat) (x : Hart) : (setHart s h x).hdm = s.hdm := rfl
@[simp] theorem setHart_out (s : State) (h : Nat) (x : Hart) : (setHart s h x).out = s.out := rfl
@[simp] theorem setHart_agenda (s : State) (h : Nat) (x : Hart) : (setHart s h x).agenda = s.agenda := rfl
@[simp] theorem setHart_evTurn (s : State) (h : Nat) (x : Hart) : (setHart s h x).evTurn = s.evTurn := rfl
@[simp] theorem setHart_cur (s : State) (h : Nat) (x : Hart) : (setHart s h x).cur = s.cur := rfl
@[simp] theorem setHart_last (s : State) (h : Nat) (x : Hart) : (setHart s h x).last = s.last := rfl
@[simp] theorem setHart_nextId (s : State) (h : Nat) (x : Hart) : (setHart s h x).nextId = s.nextId := rfl
@[simp] theorem setHart_free (s : State) (h : Nat) (x : Hart) : (setHart s h x).free = s.free := rfl
@[simp] theorem setHart_clock (s : State) (h : Nat) (x : Hart) : (setHart s h x).clock = s.clock := rfl
@[simp] theorem setHart_missed (s : State) (h : Nat) (x : Hart) : (setHart s h x).missed = s.missed := rfl

/-! ### setTile -/

@[simp] theorem setTile_mem (s : State) (t : Nat) (x : Tile) : (setTile s t x).mem = s.mem := rfl
@[simp] theorem setTile_hostMem (s : State) (t : Nat) (x : Tile) : (setTile s t x).hostMem = s.hostMem := rfl
@[simp] theorem setTile_psn (s : State) (t : Nat) (x : Tile) : (setTile s t x).psn = s.psn := rfl
@[simp] theorem setTile_wrote (s : State) (t : Nat) (x : Tile) : (setTile s t x).wrote = s.wrote := rfl
@[simp] theorem setTile_ctl (s : State) (t : Nat) (x : Tile) : (setTile s t x).ctl = s.ctl := rfl
@[simp] theorem setTile_ctr (s : State) (t : Nat) (x : Tile) : (setTile s t x).ctr = s.ctr := rfl
@[simp] theorem setTile_harts (s : State) (t : Nat) (x : Tile) : (setTile s t x).harts = s.harts := rfl
@[simp] theorem setTile_tiles (s : State) (t : Nat) (x : Tile) : (setTile s t x).tiles = mput s.tiles t x := rfl
@[simp] theorem setTile_parts (s : State) (t : Nat) (x : Tile) : (setTile s t x).parts = s.parts := rfl
@[simp] theorem setTile_stks (s : State) (t : Nat) (x : Tile) : (setTile s t x).stks = s.stks := rfl
@[simp] theorem setTile_regions (s : State) (t : Nat) (x : Tile) : (setTile s t x).regions = s.regions := rfl
@[simp] theorem setTile_copies (s : State) (t : Nat) (x : Tile) : (setTile s t x).copies = s.copies := rfl
@[simp] theorem setTile_dir (s : State) (t : Nat) (x : Tile) : (setTile s t x).dir = s.dir := rfl
@[simp] theorem setTile_txns (s : State) (t : Nat) (x : Tile) : (setTile s t x).txns = s.txns := rfl
@[simp] theorem setTile_errs (s : State) (t : Nat) (x : Tile) : (setTile s t x).errs = s.errs := rfl
@[simp] theorem setTile_waitq (s : State) (t : Nat) (x : Tile) : (setTile s t x).waitq = s.waitq := rfl
@[simp] theorem setTile_bis (s : State) (t : Nat) (x : Tile) : (setTile s t x).bis = s.bis := rfl
@[simp] theorem setTile_fenced (s : State) (t : Nat) (x : Tile) : (setTile s t x).fenced = s.fenced := rfl
@[simp] theorem setTile_cinches (s : State) (t : Nat) (x : Tile) : (setTile s t x).cinches = s.cinches := rfl
@[simp] theorem setTile_pieces (s : State) (t : Nat) (x : Tile) : (setTile s t x).pieces = s.pieces := rfl
@[simp] theorem setTile_pend (s : State) (t : Nat) (x : Tile) : (setTile s t x).pend = s.pend := rfl
@[simp] theorem setTile_shoots (s : State) (t : Nat) (x : Tile) : (setTile s t x).shoots = s.shoots := rfl
@[simp] theorem setTile_shadow (s : State) (t : Nat) (x : Tile) : (setTile s t x).shadow = s.shadow := rfl
@[simp] theorem setTile_offline (s : State) (t : Nat) (x : Tile) : (setTile s t x).offline = s.offline := rfl
@[simp] theorem setTile_boxes (s : State) (t : Nat) (x : Tile) : (setTile s t x).boxes = s.boxes := rfl
@[simp] theorem setTile_boxN (s : State) (t : Nat) (x : Tile) : (setTile s t x).boxN = s.boxN := rfl
@[simp] theorem setTile_groups (s : State) (t : Nat) (x : Tile) : (setTile s t x).groups = s.groups := rfl
@[simp] theorem setTile_relems (s : State) (t : Nat) (x : Tile) : (setTile s t x).relems = s.relems := rfl
@[simp] theorem setTile_podMerge (s : State) (t : Nat) (x : Tile) : (setTile s t x).podMerge = s.podMerge := rfl
@[simp] theorem setTile_mcasts (s : State) (t : Nat) (x : Tile) : (setTile s t x).mcasts = s.mcasts := rfl
@[simp] theorem setTile_reps (s : State) (t : Nat) (x : Tile) : (setTile s t x).reps = s.reps := rfl
@[simp] theorem setTile_admitted (s : State) (t : Nat) (x : Tile) : (setTile s t x).admitted = s.admitted := rfl
@[simp] theorem setTile_linksDown (s : State) (t : Nat) (x : Tile) : (setTile s t x).linksDown = s.linksDown := rfl
@[simp] theorem setTile_xbarDown (s : State) (t : Nat) (x : Tile) : (setTile s t x).xbarDown = s.xbarDown := rfl
@[simp] theorem setTile_xbarFails (s : State) (t : Nat) (x : Tile) : (setTile s t x).xbarFails = s.xbarFails := rfl
@[simp] theorem setTile_xbarFenced (s : State) (t : Nat) (x : Tile) : (setTile s t x).xbarFenced = s.xbarFenced := rfl
@[simp] theorem setTile_firmware (s : State) (t : Nat) (x : Tile) : (setTile s t x).firmware = s.firmware := rfl
@[simp] theorem setTile_stages (s : State) (t : Nat) (x : Tile) : (setTile s t x).stages = s.stages := rfl
@[simp] theorem setTile_hdm (s : State) (t : Nat) (x : Tile) : (setTile s t x).hdm = s.hdm := rfl
@[simp] theorem setTile_out (s : State) (t : Nat) (x : Tile) : (setTile s t x).out = s.out := rfl
@[simp] theorem setTile_agenda (s : State) (t : Nat) (x : Tile) : (setTile s t x).agenda = s.agenda := rfl
@[simp] theorem setTile_evTurn (s : State) (t : Nat) (x : Tile) : (setTile s t x).evTurn = s.evTurn := rfl
@[simp] theorem setTile_cur (s : State) (t : Nat) (x : Tile) : (setTile s t x).cur = s.cur := rfl
@[simp] theorem setTile_last (s : State) (t : Nat) (x : Tile) : (setTile s t x).last = s.last := rfl
@[simp] theorem setTile_nextId (s : State) (t : Nat) (x : Tile) : (setTile s t x).nextId = s.nextId := rfl
@[simp] theorem setTile_free (s : State) (t : Nat) (x : Tile) : (setTile s t x).free = s.free := rfl
@[simp] theorem setTile_clock (s : State) (t : Nat) (x : Tile) : (setTile s t x).clock = s.clock := rfl
@[simp] theorem setTile_missed (s : State) (t : Nat) (x : Tile) : (setTile s t x).missed = s.missed := rfl

/-! ### setPart -/

@[simp] theorem setPart_mem (s : State) (p : Nat) (x : Part) : (setPart s p x).mem = s.mem := rfl
@[simp] theorem setPart_hostMem (s : State) (p : Nat) (x : Part) : (setPart s p x).hostMem = s.hostMem := rfl
@[simp] theorem setPart_psn (s : State) (p : Nat) (x : Part) : (setPart s p x).psn = s.psn := rfl
@[simp] theorem setPart_wrote (s : State) (p : Nat) (x : Part) : (setPart s p x).wrote = s.wrote := rfl
@[simp] theorem setPart_ctl (s : State) (p : Nat) (x : Part) : (setPart s p x).ctl = s.ctl := rfl
@[simp] theorem setPart_ctr (s : State) (p : Nat) (x : Part) : (setPart s p x).ctr = s.ctr := rfl
@[simp] theorem setPart_harts (s : State) (p : Nat) (x : Part) : (setPart s p x).harts = s.harts := rfl
@[simp] theorem setPart_tiles (s : State) (p : Nat) (x : Part) : (setPart s p x).tiles = s.tiles := rfl
@[simp] theorem setPart_parts (s : State) (p : Nat) (x : Part) : (setPart s p x).parts = mput s.parts p x := rfl
@[simp] theorem setPart_stks (s : State) (p : Nat) (x : Part) : (setPart s p x).stks = s.stks := rfl
@[simp] theorem setPart_regions (s : State) (p : Nat) (x : Part) : (setPart s p x).regions = s.regions := rfl
@[simp] theorem setPart_copies (s : State) (p : Nat) (x : Part) : (setPart s p x).copies = s.copies := rfl
@[simp] theorem setPart_dir (s : State) (p : Nat) (x : Part) : (setPart s p x).dir = s.dir := rfl
@[simp] theorem setPart_txns (s : State) (p : Nat) (x : Part) : (setPart s p x).txns = s.txns := rfl
@[simp] theorem setPart_errs (s : State) (p : Nat) (x : Part) : (setPart s p x).errs = s.errs := rfl
@[simp] theorem setPart_waitq (s : State) (p : Nat) (x : Part) : (setPart s p x).waitq = s.waitq := rfl
@[simp] theorem setPart_bis (s : State) (p : Nat) (x : Part) : (setPart s p x).bis = s.bis := rfl
@[simp] theorem setPart_fenced (s : State) (p : Nat) (x : Part) : (setPart s p x).fenced = s.fenced := rfl
@[simp] theorem setPart_cinches (s : State) (p : Nat) (x : Part) : (setPart s p x).cinches = s.cinches := rfl
@[simp] theorem setPart_pieces (s : State) (p : Nat) (x : Part) : (setPart s p x).pieces = s.pieces := rfl
@[simp] theorem setPart_pend (s : State) (p : Nat) (x : Part) : (setPart s p x).pend = s.pend := rfl
@[simp] theorem setPart_shoots (s : State) (p : Nat) (x : Part) : (setPart s p x).shoots = s.shoots := rfl
@[simp] theorem setPart_shadow (s : State) (p : Nat) (x : Part) : (setPart s p x).shadow = s.shadow := rfl
@[simp] theorem setPart_offline (s : State) (p : Nat) (x : Part) : (setPart s p x).offline = s.offline := rfl
@[simp] theorem setPart_boxes (s : State) (p : Nat) (x : Part) : (setPart s p x).boxes = s.boxes := rfl
@[simp] theorem setPart_boxN (s : State) (p : Nat) (x : Part) : (setPart s p x).boxN = s.boxN := rfl
@[simp] theorem setPart_groups (s : State) (p : Nat) (x : Part) : (setPart s p x).groups = s.groups := rfl
@[simp] theorem setPart_relems (s : State) (p : Nat) (x : Part) : (setPart s p x).relems = s.relems := rfl
@[simp] theorem setPart_podMerge (s : State) (p : Nat) (x : Part) : (setPart s p x).podMerge = s.podMerge := rfl
@[simp] theorem setPart_mcasts (s : State) (p : Nat) (x : Part) : (setPart s p x).mcasts = s.mcasts := rfl
@[simp] theorem setPart_reps (s : State) (p : Nat) (x : Part) : (setPart s p x).reps = s.reps := rfl
@[simp] theorem setPart_admitted (s : State) (p : Nat) (x : Part) : (setPart s p x).admitted = s.admitted := rfl
@[simp] theorem setPart_linksDown (s : State) (p : Nat) (x : Part) : (setPart s p x).linksDown = s.linksDown := rfl
@[simp] theorem setPart_xbarDown (s : State) (p : Nat) (x : Part) : (setPart s p x).xbarDown = s.xbarDown := rfl
@[simp] theorem setPart_xbarFails (s : State) (p : Nat) (x : Part) : (setPart s p x).xbarFails = s.xbarFails := rfl
@[simp] theorem setPart_xbarFenced (s : State) (p : Nat) (x : Part) : (setPart s p x).xbarFenced = s.xbarFenced := rfl
@[simp] theorem setPart_firmware (s : State) (p : Nat) (x : Part) : (setPart s p x).firmware = s.firmware := rfl
@[simp] theorem setPart_stages (s : State) (p : Nat) (x : Part) : (setPart s p x).stages = s.stages := rfl
@[simp] theorem setPart_hdm (s : State) (p : Nat) (x : Part) : (setPart s p x).hdm = s.hdm := rfl
@[simp] theorem setPart_out (s : State) (p : Nat) (x : Part) : (setPart s p x).out = s.out := rfl
@[simp] theorem setPart_agenda (s : State) (p : Nat) (x : Part) : (setPart s p x).agenda = s.agenda := rfl
@[simp] theorem setPart_evTurn (s : State) (p : Nat) (x : Part) : (setPart s p x).evTurn = s.evTurn := rfl
@[simp] theorem setPart_cur (s : State) (p : Nat) (x : Part) : (setPart s p x).cur = s.cur := rfl
@[simp] theorem setPart_last (s : State) (p : Nat) (x : Part) : (setPart s p x).last = s.last := rfl
@[simp] theorem setPart_nextId (s : State) (p : Nat) (x : Part) : (setPart s p x).nextId = s.nextId := rfl
@[simp] theorem setPart_free (s : State) (p : Nat) (x : Part) : (setPart s p x).free = s.free := rfl
@[simp] theorem setPart_clock (s : State) (p : Nat) (x : Part) : (setPart s p x).clock = s.clock := rfl
@[simp] theorem setPart_missed (s : State) (p : Nat) (x : Part) : (setPart s p x).missed = s.missed := rfl

/-! ### setStack -/

@[simp] theorem setStack_mem (s : State) (k : Nat) (x : Stack) : (setStack s k x).mem = s.mem := rfl
@[simp] theorem setStack_hostMem (s : State) (k : Nat) (x : Stack) : (setStack s k x).hostMem = s.hostMem := rfl
@[simp] theorem setStack_psn (s : State) (k : Nat) (x : Stack) : (setStack s k x).psn = s.psn := rfl
@[simp] theorem setStack_wrote (s : State) (k : Nat) (x : Stack) : (setStack s k x).wrote = s.wrote := rfl
@[simp] theorem setStack_ctl (s : State) (k : Nat) (x : Stack) : (setStack s k x).ctl = s.ctl := rfl
@[simp] theorem setStack_ctr (s : State) (k : Nat) (x : Stack) : (setStack s k x).ctr = s.ctr := rfl
@[simp] theorem setStack_harts (s : State) (k : Nat) (x : Stack) : (setStack s k x).harts = s.harts := rfl
@[simp] theorem setStack_tiles (s : State) (k : Nat) (x : Stack) : (setStack s k x).tiles = s.tiles := rfl
@[simp] theorem setStack_parts (s : State) (k : Nat) (x : Stack) : (setStack s k x).parts = s.parts := rfl
@[simp] theorem setStack_stks (s : State) (k : Nat) (x : Stack) : (setStack s k x).stks = mput s.stks k x := rfl
@[simp] theorem setStack_regions (s : State) (k : Nat) (x : Stack) : (setStack s k x).regions = s.regions := rfl
@[simp] theorem setStack_copies (s : State) (k : Nat) (x : Stack) : (setStack s k x).copies = s.copies := rfl
@[simp] theorem setStack_dir (s : State) (k : Nat) (x : Stack) : (setStack s k x).dir = s.dir := rfl
@[simp] theorem setStack_txns (s : State) (k : Nat) (x : Stack) : (setStack s k x).txns = s.txns := rfl
@[simp] theorem setStack_errs (s : State) (k : Nat) (x : Stack) : (setStack s k x).errs = s.errs := rfl
@[simp] theorem setStack_waitq (s : State) (k : Nat) (x : Stack) : (setStack s k x).waitq = s.waitq := rfl
@[simp] theorem setStack_bis (s : State) (k : Nat) (x : Stack) : (setStack s k x).bis = s.bis := rfl
@[simp] theorem setStack_fenced (s : State) (k : Nat) (x : Stack) : (setStack s k x).fenced = s.fenced := rfl
@[simp] theorem setStack_cinches (s : State) (k : Nat) (x : Stack) : (setStack s k x).cinches = s.cinches := rfl
@[simp] theorem setStack_pieces (s : State) (k : Nat) (x : Stack) : (setStack s k x).pieces = s.pieces := rfl
@[simp] theorem setStack_pend (s : State) (k : Nat) (x : Stack) : (setStack s k x).pend = s.pend := rfl
@[simp] theorem setStack_shoots (s : State) (k : Nat) (x : Stack) : (setStack s k x).shoots = s.shoots := rfl
@[simp] theorem setStack_shadow (s : State) (k : Nat) (x : Stack) : (setStack s k x).shadow = s.shadow := rfl
@[simp] theorem setStack_offline (s : State) (k : Nat) (x : Stack) : (setStack s k x).offline = s.offline := rfl
@[simp] theorem setStack_boxes (s : State) (k : Nat) (x : Stack) : (setStack s k x).boxes = s.boxes := rfl
@[simp] theorem setStack_boxN (s : State) (k : Nat) (x : Stack) : (setStack s k x).boxN = s.boxN := rfl
@[simp] theorem setStack_groups (s : State) (k : Nat) (x : Stack) : (setStack s k x).groups = s.groups := rfl
@[simp] theorem setStack_relems (s : State) (k : Nat) (x : Stack) : (setStack s k x).relems = s.relems := rfl
@[simp] theorem setStack_podMerge (s : State) (k : Nat) (x : Stack) : (setStack s k x).podMerge = s.podMerge := rfl
@[simp] theorem setStack_mcasts (s : State) (k : Nat) (x : Stack) : (setStack s k x).mcasts = s.mcasts := rfl
@[simp] theorem setStack_reps (s : State) (k : Nat) (x : Stack) : (setStack s k x).reps = s.reps := rfl
@[simp] theorem setStack_admitted (s : State) (k : Nat) (x : Stack) : (setStack s k x).admitted = s.admitted := rfl
@[simp] theorem setStack_linksDown (s : State) (k : Nat) (x : Stack) : (setStack s k x).linksDown = s.linksDown := rfl
@[simp] theorem setStack_xbarDown (s : State) (k : Nat) (x : Stack) : (setStack s k x).xbarDown = s.xbarDown := rfl
@[simp] theorem setStack_xbarFails (s : State) (k : Nat) (x : Stack) : (setStack s k x).xbarFails = s.xbarFails := rfl
@[simp] theorem setStack_xbarFenced (s : State) (k : Nat) (x : Stack) : (setStack s k x).xbarFenced = s.xbarFenced := rfl
@[simp] theorem setStack_firmware (s : State) (k : Nat) (x : Stack) : (setStack s k x).firmware = s.firmware := rfl
@[simp] theorem setStack_stages (s : State) (k : Nat) (x : Stack) : (setStack s k x).stages = s.stages := rfl
@[simp] theorem setStack_hdm (s : State) (k : Nat) (x : Stack) : (setStack s k x).hdm = s.hdm := rfl
@[simp] theorem setStack_out (s : State) (k : Nat) (x : Stack) : (setStack s k x).out = s.out := rfl
@[simp] theorem setStack_agenda (s : State) (k : Nat) (x : Stack) : (setStack s k x).agenda = s.agenda := rfl
@[simp] theorem setStack_evTurn (s : State) (k : Nat) (x : Stack) : (setStack s k x).evTurn = s.evTurn := rfl
@[simp] theorem setStack_cur (s : State) (k : Nat) (x : Stack) : (setStack s k x).cur = s.cur := rfl
@[simp] theorem setStack_last (s : State) (k : Nat) (x : Stack) : (setStack s k x).last = s.last := rfl
@[simp] theorem setStack_nextId (s : State) (k : Nat) (x : Stack) : (setStack s k x).nextId = s.nextId := rfl
@[simp] theorem setStack_free (s : State) (k : Nat) (x : Stack) : (setStack s k x).free = s.free := rfl
@[simp] theorem setStack_clock (s : State) (k : Nat) (x : Stack) : (setStack s k x).clock = s.clock := rfl
@[simp] theorem setStack_missed (s : State) (k : Nat) (x : Stack) : (setStack s k x).missed = s.missed := rfl

/-! ### setRegion -/

@[simp] theorem setRegion_mem (s : State) (r : Nat) (x : Region) : (setRegion s r x).mem = s.mem := rfl
@[simp] theorem setRegion_hostMem (s : State) (r : Nat) (x : Region) : (setRegion s r x).hostMem = s.hostMem := rfl
@[simp] theorem setRegion_psn (s : State) (r : Nat) (x : Region) : (setRegion s r x).psn = s.psn := rfl
@[simp] theorem setRegion_wrote (s : State) (r : Nat) (x : Region) : (setRegion s r x).wrote = s.wrote := rfl
@[simp] theorem setRegion_ctl (s : State) (r : Nat) (x : Region) : (setRegion s r x).ctl = s.ctl := rfl
@[simp] theorem setRegion_ctr (s : State) (r : Nat) (x : Region) : (setRegion s r x).ctr = s.ctr := rfl
@[simp] theorem setRegion_harts (s : State) (r : Nat) (x : Region) : (setRegion s r x).harts = s.harts := rfl
@[simp] theorem setRegion_tiles (s : State) (r : Nat) (x : Region) : (setRegion s r x).tiles = s.tiles := rfl
@[simp] theorem setRegion_parts (s : State) (r : Nat) (x : Region) : (setRegion s r x).parts = s.parts := rfl
@[simp] theorem setRegion_stks (s : State) (r : Nat) (x : Region) : (setRegion s r x).stks = s.stks := rfl
@[simp] theorem setRegion_regions (s : State) (r : Nat) (x : Region) : (setRegion s r x).regions = mput s.regions r x := rfl
@[simp] theorem setRegion_copies (s : State) (r : Nat) (x : Region) : (setRegion s r x).copies = s.copies := rfl
@[simp] theorem setRegion_dir (s : State) (r : Nat) (x : Region) : (setRegion s r x).dir = s.dir := rfl
@[simp] theorem setRegion_txns (s : State) (r : Nat) (x : Region) : (setRegion s r x).txns = s.txns := rfl
@[simp] theorem setRegion_errs (s : State) (r : Nat) (x : Region) : (setRegion s r x).errs = s.errs := rfl
@[simp] theorem setRegion_waitq (s : State) (r : Nat) (x : Region) : (setRegion s r x).waitq = s.waitq := rfl
@[simp] theorem setRegion_bis (s : State) (r : Nat) (x : Region) : (setRegion s r x).bis = s.bis := rfl
@[simp] theorem setRegion_fenced (s : State) (r : Nat) (x : Region) : (setRegion s r x).fenced = s.fenced := rfl
@[simp] theorem setRegion_cinches (s : State) (r : Nat) (x : Region) : (setRegion s r x).cinches = s.cinches := rfl
@[simp] theorem setRegion_pieces (s : State) (r : Nat) (x : Region) : (setRegion s r x).pieces = s.pieces := rfl
@[simp] theorem setRegion_pend (s : State) (r : Nat) (x : Region) : (setRegion s r x).pend = s.pend := rfl
@[simp] theorem setRegion_shoots (s : State) (r : Nat) (x : Region) : (setRegion s r x).shoots = s.shoots := rfl
@[simp] theorem setRegion_shadow (s : State) (r : Nat) (x : Region) : (setRegion s r x).shadow = s.shadow := rfl
@[simp] theorem setRegion_offline (s : State) (r : Nat) (x : Region) : (setRegion s r x).offline = s.offline := rfl
@[simp] theorem setRegion_boxes (s : State) (r : Nat) (x : Region) : (setRegion s r x).boxes = s.boxes := rfl
@[simp] theorem setRegion_boxN (s : State) (r : Nat) (x : Region) : (setRegion s r x).boxN = s.boxN := rfl
@[simp] theorem setRegion_groups (s : State) (r : Nat) (x : Region) : (setRegion s r x).groups = s.groups := rfl
@[simp] theorem setRegion_relems (s : State) (r : Nat) (x : Region) : (setRegion s r x).relems = s.relems := rfl
@[simp] theorem setRegion_podMerge (s : State) (r : Nat) (x : Region) : (setRegion s r x).podMerge = s.podMerge := rfl
@[simp] theorem setRegion_mcasts (s : State) (r : Nat) (x : Region) : (setRegion s r x).mcasts = s.mcasts := rfl
@[simp] theorem setRegion_reps (s : State) (r : Nat) (x : Region) : (setRegion s r x).reps = s.reps := rfl
@[simp] theorem setRegion_admitted (s : State) (r : Nat) (x : Region) : (setRegion s r x).admitted = s.admitted := rfl
@[simp] theorem setRegion_linksDown (s : State) (r : Nat) (x : Region) : (setRegion s r x).linksDown = s.linksDown := rfl
@[simp] theorem setRegion_xbarDown (s : State) (r : Nat) (x : Region) : (setRegion s r x).xbarDown = s.xbarDown := rfl
@[simp] theorem setRegion_xbarFails (s : State) (r : Nat) (x : Region) : (setRegion s r x).xbarFails = s.xbarFails := rfl
@[simp] theorem setRegion_xbarFenced (s : State) (r : Nat) (x : Region) : (setRegion s r x).xbarFenced = s.xbarFenced := rfl
@[simp] theorem setRegion_firmware (s : State) (r : Nat) (x : Region) : (setRegion s r x).firmware = s.firmware := rfl
@[simp] theorem setRegion_stages (s : State) (r : Nat) (x : Region) : (setRegion s r x).stages = s.stages := rfl
@[simp] theorem setRegion_hdm (s : State) (r : Nat) (x : Region) : (setRegion s r x).hdm = s.hdm := rfl
@[simp] theorem setRegion_out (s : State) (r : Nat) (x : Region) : (setRegion s r x).out = s.out := rfl
@[simp] theorem setRegion_agenda (s : State) (r : Nat) (x : Region) : (setRegion s r x).agenda = s.agenda := rfl
@[simp] theorem setRegion_evTurn (s : State) (r : Nat) (x : Region) : (setRegion s r x).evTurn = s.evTurn := rfl
@[simp] theorem setRegion_cur (s : State) (r : Nat) (x : Region) : (setRegion s r x).cur = s.cur := rfl
@[simp] theorem setRegion_last (s : State) (r : Nat) (x : Region) : (setRegion s r x).last = s.last := rfl
@[simp] theorem setRegion_nextId (s : State) (r : Nat) (x : Region) : (setRegion s r x).nextId = s.nextId := rfl
@[simp] theorem setRegion_free (s : State) (r : Nat) (x : Region) : (setRegion s r x).free = s.free := rfl
@[simp] theorem setRegion_clock (s : State) (r : Nat) (x : Region) : (setRegion s r x).clock = s.clock := rfl
@[simp] theorem setRegion_missed (s : State) (r : Nat) (x : Region) : (setRegion s r x).missed = s.missed := rfl

/-! ### setCtl -/

@[simp] theorem setCtl_mem (s : State) (o : Nat) (w : Word) : (setCtl s o w).mem = s.mem := rfl
@[simp] theorem setCtl_hostMem (s : State) (o : Nat) (w : Word) : (setCtl s o w).hostMem = s.hostMem := rfl
@[simp] theorem setCtl_psn (s : State) (o : Nat) (w : Word) : (setCtl s o w).psn = s.psn := rfl
@[simp] theorem setCtl_wrote (s : State) (o : Nat) (w : Word) : (setCtl s o w).wrote = s.wrote := rfl
@[simp] theorem setCtl_ctl (s : State) (o : Nat) (w : Word) : (setCtl s o w).ctl = mset 0 s.ctl (o / 8) w := rfl
@[simp] theorem setCtl_ctr (s : State) (o : Nat) (w : Word) : (setCtl s o w).ctr = s.ctr := rfl
@[simp] theorem setCtl_harts (s : State) (o : Nat) (w : Word) : (setCtl s o w).harts = s.harts := rfl
@[simp] theorem setCtl_tiles (s : State) (o : Nat) (w : Word) : (setCtl s o w).tiles = s.tiles := rfl
@[simp] theorem setCtl_parts (s : State) (o : Nat) (w : Word) : (setCtl s o w).parts = s.parts := rfl
@[simp] theorem setCtl_stks (s : State) (o : Nat) (w : Word) : (setCtl s o w).stks = s.stks := rfl
@[simp] theorem setCtl_regions (s : State) (o : Nat) (w : Word) : (setCtl s o w).regions = s.regions := rfl
@[simp] theorem setCtl_copies (s : State) (o : Nat) (w : Word) : (setCtl s o w).copies = s.copies := rfl
@[simp] theorem setCtl_dir (s : State) (o : Nat) (w : Word) : (setCtl s o w).dir = s.dir := rfl
@[simp] theorem setCtl_txns (s : State) (o : Nat) (w : Word) : (setCtl s o w).txns = s.txns := rfl
@[simp] theorem setCtl_errs (s : State) (o : Nat) (w : Word) : (setCtl s o w).errs = s.errs := rfl
@[simp] theorem setCtl_waitq (s : State) (o : Nat) (w : Word) : (setCtl s o w).waitq = s.waitq := rfl
@[simp] theorem setCtl_bis (s : State) (o : Nat) (w : Word) : (setCtl s o w).bis = s.bis := rfl
@[simp] theorem setCtl_fenced (s : State) (o : Nat) (w : Word) : (setCtl s o w).fenced = s.fenced := rfl
@[simp] theorem setCtl_cinches (s : State) (o : Nat) (w : Word) : (setCtl s o w).cinches = s.cinches := rfl
@[simp] theorem setCtl_pieces (s : State) (o : Nat) (w : Word) : (setCtl s o w).pieces = s.pieces := rfl
@[simp] theorem setCtl_pend (s : State) (o : Nat) (w : Word) : (setCtl s o w).pend = s.pend := rfl
@[simp] theorem setCtl_shoots (s : State) (o : Nat) (w : Word) : (setCtl s o w).shoots = s.shoots := rfl
@[simp] theorem setCtl_shadow (s : State) (o : Nat) (w : Word) : (setCtl s o w).shadow = s.shadow := rfl
@[simp] theorem setCtl_offline (s : State) (o : Nat) (w : Word) : (setCtl s o w).offline = s.offline := rfl
@[simp] theorem setCtl_boxes (s : State) (o : Nat) (w : Word) : (setCtl s o w).boxes = s.boxes := rfl
@[simp] theorem setCtl_boxN (s : State) (o : Nat) (w : Word) : (setCtl s o w).boxN = s.boxN := rfl
@[simp] theorem setCtl_groups (s : State) (o : Nat) (w : Word) : (setCtl s o w).groups = s.groups := rfl
@[simp] theorem setCtl_relems (s : State) (o : Nat) (w : Word) : (setCtl s o w).relems = s.relems := rfl
@[simp] theorem setCtl_podMerge (s : State) (o : Nat) (w : Word) : (setCtl s o w).podMerge = s.podMerge := rfl
@[simp] theorem setCtl_mcasts (s : State) (o : Nat) (w : Word) : (setCtl s o w).mcasts = s.mcasts := rfl
@[simp] theorem setCtl_reps (s : State) (o : Nat) (w : Word) : (setCtl s o w).reps = s.reps := rfl
@[simp] theorem setCtl_admitted (s : State) (o : Nat) (w : Word) : (setCtl s o w).admitted = s.admitted := rfl
@[simp] theorem setCtl_linksDown (s : State) (o : Nat) (w : Word) : (setCtl s o w).linksDown = s.linksDown := rfl
@[simp] theorem setCtl_xbarDown (s : State) (o : Nat) (w : Word) : (setCtl s o w).xbarDown = s.xbarDown := rfl
@[simp] theorem setCtl_xbarFails (s : State) (o : Nat) (w : Word) : (setCtl s o w).xbarFails = s.xbarFails := rfl
@[simp] theorem setCtl_xbarFenced (s : State) (o : Nat) (w : Word) : (setCtl s o w).xbarFenced = s.xbarFenced := rfl
@[simp] theorem setCtl_firmware (s : State) (o : Nat) (w : Word) : (setCtl s o w).firmware = s.firmware := rfl
@[simp] theorem setCtl_stages (s : State) (o : Nat) (w : Word) : (setCtl s o w).stages = s.stages := rfl
@[simp] theorem setCtl_hdm (s : State) (o : Nat) (w : Word) : (setCtl s o w).hdm = s.hdm := rfl
@[simp] theorem setCtl_out (s : State) (o : Nat) (w : Word) : (setCtl s o w).out = s.out := rfl
@[simp] theorem setCtl_agenda (s : State) (o : Nat) (w : Word) : (setCtl s o w).agenda = s.agenda := rfl
@[simp] theorem setCtl_evTurn (s : State) (o : Nat) (w : Word) : (setCtl s o w).evTurn = s.evTurn := rfl
@[simp] theorem setCtl_cur (s : State) (o : Nat) (w : Word) : (setCtl s o w).cur = s.cur := rfl
@[simp] theorem setCtl_last (s : State) (o : Nat) (w : Word) : (setCtl s o w).last = s.last := rfl
@[simp] theorem setCtl_nextId (s : State) (o : Nat) (w : Word) : (setCtl s o w).nextId = s.nextId := rfl
@[simp] theorem setCtl_free (s : State) (o : Nat) (w : Word) : (setCtl s o w).free = s.free := rfl
@[simp] theorem setCtl_clock (s : State) (o : Nat) (w : Word) : (setCtl s o w).clock = s.clock := rfl
@[simp] theorem setCtl_missed (s : State) (o : Nat) (w : Word) : (setCtl s o w).missed = s.missed := rfl

/-! ### setPt -/

@[simp] theorem setPt_mem (s : State) (p j : Nat) (w : Word) : (setPt s p j w).mem = s.mem := rfl
@[simp] theorem setPt_hostMem (s : State) (p j : Nat) (w : Word) : (setPt s p j w).hostMem = s.hostMem := rfl
@[simp] theorem setPt_psn (s : State) (p j : Nat) (w : Word) : (setPt s p j w).psn = s.psn := rfl
@[simp] theorem setPt_wrote (s : State) (p j : Nat) (w : Word) : (setPt s p j w).wrote = s.wrote := rfl
@[simp] theorem setPt_ctl (s : State) (p j : Nat) (w : Word) : (setPt s p j w).ctl = mset 0 s.ctl ((0x0C006000 + 64 * p + 8 * j) / 8) w := rfl
@[simp] theorem setPt_ctr (s : State) (p j : Nat) (w : Word) : (setPt s p j w).ctr = s.ctr := rfl
@[simp] theorem setPt_harts (s : State) (p j : Nat) (w : Word) : (setPt s p j w).harts = s.harts := rfl
@[simp] theorem setPt_tiles (s : State) (p j : Nat) (w : Word) : (setPt s p j w).tiles = s.tiles := rfl
@[simp] theorem setPt_parts (s : State) (p j : Nat) (w : Word) : (setPt s p j w).parts = s.parts := rfl
@[simp] theorem setPt_stks (s : State) (p j : Nat) (w : Word) : (setPt s p j w).stks = s.stks := rfl
@[simp] theorem setPt_regions (s : State) (p j : Nat) (w : Word) : (setPt s p j w).regions = s.regions := rfl
@[simp] theorem setPt_copies (s : State) (p j : Nat) (w : Word) : (setPt s p j w).copies = s.copies := rfl
@[simp] theorem setPt_dir (s : State) (p j : Nat) (w : Word) : (setPt s p j w).dir = s.dir := rfl
@[simp] theorem setPt_txns (s : State) (p j : Nat) (w : Word) : (setPt s p j w).txns = s.txns := rfl
@[simp] theorem setPt_errs (s : State) (p j : Nat) (w : Word) : (setPt s p j w).errs = s.errs := rfl
@[simp] theorem setPt_waitq (s : State) (p j : Nat) (w : Word) : (setPt s p j w).waitq = s.waitq := rfl
@[simp] theorem setPt_bis (s : State) (p j : Nat) (w : Word) : (setPt s p j w).bis = s.bis := rfl
@[simp] theorem setPt_fenced (s : State) (p j : Nat) (w : Word) : (setPt s p j w).fenced = s.fenced := rfl
@[simp] theorem setPt_cinches (s : State) (p j : Nat) (w : Word) : (setPt s p j w).cinches = s.cinches := rfl
@[simp] theorem setPt_pieces (s : State) (p j : Nat) (w : Word) : (setPt s p j w).pieces = s.pieces := rfl
@[simp] theorem setPt_pend (s : State) (p j : Nat) (w : Word) : (setPt s p j w).pend = s.pend := rfl
@[simp] theorem setPt_shoots (s : State) (p j : Nat) (w : Word) : (setPt s p j w).shoots = s.shoots := rfl
@[simp] theorem setPt_shadow (s : State) (p j : Nat) (w : Word) : (setPt s p j w).shadow = s.shadow := rfl
@[simp] theorem setPt_offline (s : State) (p j : Nat) (w : Word) : (setPt s p j w).offline = s.offline := rfl
@[simp] theorem setPt_boxes (s : State) (p j : Nat) (w : Word) : (setPt s p j w).boxes = s.boxes := rfl
@[simp] theorem setPt_boxN (s : State) (p j : Nat) (w : Word) : (setPt s p j w).boxN = s.boxN := rfl
@[simp] theorem setPt_groups (s : State) (p j : Nat) (w : Word) : (setPt s p j w).groups = s.groups := rfl
@[simp] theorem setPt_relems (s : State) (p j : Nat) (w : Word) : (setPt s p j w).relems = s.relems := rfl
@[simp] theorem setPt_podMerge (s : State) (p j : Nat) (w : Word) : (setPt s p j w).podMerge = s.podMerge := rfl
@[simp] theorem setPt_mcasts (s : State) (p j : Nat) (w : Word) : (setPt s p j w).mcasts = s.mcasts := rfl
@[simp] theorem setPt_reps (s : State) (p j : Nat) (w : Word) : (setPt s p j w).reps = s.reps := rfl
@[simp] theorem setPt_admitted (s : State) (p j : Nat) (w : Word) : (setPt s p j w).admitted = s.admitted := rfl
@[simp] theorem setPt_linksDown (s : State) (p j : Nat) (w : Word) : (setPt s p j w).linksDown = s.linksDown := rfl
@[simp] theorem setPt_xbarDown (s : State) (p j : Nat) (w : Word) : (setPt s p j w).xbarDown = s.xbarDown := rfl
@[simp] theorem setPt_xbarFails (s : State) (p j : Nat) (w : Word) : (setPt s p j w).xbarFails = s.xbarFails := rfl
@[simp] theorem setPt_xbarFenced (s : State) (p j : Nat) (w : Word) : (setPt s p j w).xbarFenced = s.xbarFenced := rfl
@[simp] theorem setPt_firmware (s : State) (p j : Nat) (w : Word) : (setPt s p j w).firmware = s.firmware := rfl
@[simp] theorem setPt_stages (s : State) (p j : Nat) (w : Word) : (setPt s p j w).stages = s.stages := rfl
@[simp] theorem setPt_hdm (s : State) (p j : Nat) (w : Word) : (setPt s p j w).hdm = s.hdm := rfl
@[simp] theorem setPt_out (s : State) (p j : Nat) (w : Word) : (setPt s p j w).out = s.out := rfl
@[simp] theorem setPt_agenda (s : State) (p j : Nat) (w : Word) : (setPt s p j w).agenda = s.agenda := rfl
@[simp] theorem setPt_evTurn (s : State) (p j : Nat) (w : Word) : (setPt s p j w).evTurn = s.evTurn := rfl
@[simp] theorem setPt_cur (s : State) (p j : Nat) (w : Word) : (setPt s p j w).cur = s.cur := rfl
@[simp] theorem setPt_last (s : State) (p j : Nat) (w : Word) : (setPt s p j w).last = s.last := rfl
@[simp] theorem setPt_nextId (s : State) (p j : Nat) (w : Word) : (setPt s p j w).nextId = s.nextId := rfl
@[simp] theorem setPt_free (s : State) (p j : Nat) (w : Word) : (setPt s p j w).free = s.free := rfl
@[simp] theorem setPt_clock (s : State) (p j : Nat) (w : Word) : (setPt s p j w).clock = s.clock := rfl
@[simp] theorem setPt_missed (s : State) (p j : Nat) (w : Word) : (setPt s p j w).missed = s.missed := rfl

/-! ### setCur -/

@[simp] theorem setCur_mem (s : State) (x : Hart) : (setCur s x).mem = s.mem := rfl
@[simp] theorem setCur_hostMem (s : State) (x : Hart) : (setCur s x).hostMem = s.hostMem := rfl
@[simp] theorem setCur_psn (s : State) (x : Hart) : (setCur s x).psn = s.psn := rfl
@[simp] theorem setCur_wrote (s : State) (x : Hart) : (setCur s x).wrote = s.wrote := rfl
@[simp] theorem setCur_ctl (s : State) (x : Hart) : (setCur s x).ctl = s.ctl := rfl
@[simp] theorem setCur_ctr (s : State) (x : Hart) : (setCur s x).ctr = s.ctr := rfl
@[simp] theorem setCur_harts (s : State) (x : Hart) : (setCur s x).harts = mput s.harts s.cur x := rfl
@[simp] theorem setCur_tiles (s : State) (x : Hart) : (setCur s x).tiles = s.tiles := rfl
@[simp] theorem setCur_parts (s : State) (x : Hart) : (setCur s x).parts = s.parts := rfl
@[simp] theorem setCur_stks (s : State) (x : Hart) : (setCur s x).stks = s.stks := rfl
@[simp] theorem setCur_regions (s : State) (x : Hart) : (setCur s x).regions = s.regions := rfl
@[simp] theorem setCur_copies (s : State) (x : Hart) : (setCur s x).copies = s.copies := rfl
@[simp] theorem setCur_dir (s : State) (x : Hart) : (setCur s x).dir = s.dir := rfl
@[simp] theorem setCur_txns (s : State) (x : Hart) : (setCur s x).txns = s.txns := rfl
@[simp] theorem setCur_errs (s : State) (x : Hart) : (setCur s x).errs = s.errs := rfl
@[simp] theorem setCur_waitq (s : State) (x : Hart) : (setCur s x).waitq = s.waitq := rfl
@[simp] theorem setCur_bis (s : State) (x : Hart) : (setCur s x).bis = s.bis := rfl
@[simp] theorem setCur_fenced (s : State) (x : Hart) : (setCur s x).fenced = s.fenced := rfl
@[simp] theorem setCur_cinches (s : State) (x : Hart) : (setCur s x).cinches = s.cinches := rfl
@[simp] theorem setCur_pieces (s : State) (x : Hart) : (setCur s x).pieces = s.pieces := rfl
@[simp] theorem setCur_pend (s : State) (x : Hart) : (setCur s x).pend = s.pend := rfl
@[simp] theorem setCur_shoots (s : State) (x : Hart) : (setCur s x).shoots = s.shoots := rfl
@[simp] theorem setCur_shadow (s : State) (x : Hart) : (setCur s x).shadow = s.shadow := rfl
@[simp] theorem setCur_offline (s : State) (x : Hart) : (setCur s x).offline = s.offline := rfl
@[simp] theorem setCur_boxes (s : State) (x : Hart) : (setCur s x).boxes = s.boxes := rfl
@[simp] theorem setCur_boxN (s : State) (x : Hart) : (setCur s x).boxN = s.boxN := rfl
@[simp] theorem setCur_groups (s : State) (x : Hart) : (setCur s x).groups = s.groups := rfl
@[simp] theorem setCur_relems (s : State) (x : Hart) : (setCur s x).relems = s.relems := rfl
@[simp] theorem setCur_podMerge (s : State) (x : Hart) : (setCur s x).podMerge = s.podMerge := rfl
@[simp] theorem setCur_mcasts (s : State) (x : Hart) : (setCur s x).mcasts = s.mcasts := rfl
@[simp] theorem setCur_reps (s : State) (x : Hart) : (setCur s x).reps = s.reps := rfl
@[simp] theorem setCur_admitted (s : State) (x : Hart) : (setCur s x).admitted = s.admitted := rfl
@[simp] theorem setCur_linksDown (s : State) (x : Hart) : (setCur s x).linksDown = s.linksDown := rfl
@[simp] theorem setCur_xbarDown (s : State) (x : Hart) : (setCur s x).xbarDown = s.xbarDown := rfl
@[simp] theorem setCur_xbarFails (s : State) (x : Hart) : (setCur s x).xbarFails = s.xbarFails := rfl
@[simp] theorem setCur_xbarFenced (s : State) (x : Hart) : (setCur s x).xbarFenced = s.xbarFenced := rfl
@[simp] theorem setCur_firmware (s : State) (x : Hart) : (setCur s x).firmware = s.firmware := rfl
@[simp] theorem setCur_stages (s : State) (x : Hart) : (setCur s x).stages = s.stages := rfl
@[simp] theorem setCur_hdm (s : State) (x : Hart) : (setCur s x).hdm = s.hdm := rfl
@[simp] theorem setCur_out (s : State) (x : Hart) : (setCur s x).out = s.out := rfl
@[simp] theorem setCur_agenda (s : State) (x : Hart) : (setCur s x).agenda = s.agenda := rfl
@[simp] theorem setCur_evTurn (s : State) (x : Hart) : (setCur s x).evTurn = s.evTurn := rfl
@[simp] theorem setCur_cur (s : State) (x : Hart) : (setCur s x).cur = s.cur := rfl
@[simp] theorem setCur_last (s : State) (x : Hart) : (setCur s x).last = s.last := rfl
@[simp] theorem setCur_nextId (s : State) (x : Hart) : (setCur s x).nextId = s.nextId := rfl
@[simp] theorem setCur_free (s : State) (x : Hart) : (setCur s x).free = s.free := rfl
@[simp] theorem setCur_clock (s : State) (x : Hart) : (setCur s x).clock = s.clock := rfl
@[simp] theorem setCur_missed (s : State) (x : Hart) : (setCur s x).missed = s.missed := rfl

/-! ### post -/

@[simp] theorem post_mem (s : State) (e : Event) : (post s e).mem = s.mem := rfl
@[simp] theorem post_hostMem (s : State) (e : Event) : (post s e).hostMem = s.hostMem := rfl
@[simp] theorem post_psn (s : State) (e : Event) : (post s e).psn = s.psn := rfl
@[simp] theorem post_wrote (s : State) (e : Event) : (post s e).wrote = s.wrote := rfl
@[simp] theorem post_ctl (s : State) (e : Event) : (post s e).ctl = s.ctl := rfl
@[simp] theorem post_ctr (s : State) (e : Event) : (post s e).ctr = s.ctr := rfl
@[simp] theorem post_harts (s : State) (e : Event) : (post s e).harts = s.harts := rfl
@[simp] theorem post_tiles (s : State) (e : Event) : (post s e).tiles = s.tiles := rfl
@[simp] theorem post_parts (s : State) (e : Event) : (post s e).parts = s.parts := rfl
@[simp] theorem post_stks (s : State) (e : Event) : (post s e).stks = s.stks := rfl
@[simp] theorem post_regions (s : State) (e : Event) : (post s e).regions = s.regions := rfl
@[simp] theorem post_copies (s : State) (e : Event) : (post s e).copies = s.copies := rfl
@[simp] theorem post_dir (s : State) (e : Event) : (post s e).dir = s.dir := rfl
@[simp] theorem post_txns (s : State) (e : Event) : (post s e).txns = s.txns := rfl
@[simp] theorem post_errs (s : State) (e : Event) : (post s e).errs = s.errs := rfl
@[simp] theorem post_waitq (s : State) (e : Event) : (post s e).waitq = s.waitq := rfl
@[simp] theorem post_bis (s : State) (e : Event) : (post s e).bis = s.bis := rfl
@[simp] theorem post_fenced (s : State) (e : Event) : (post s e).fenced = s.fenced := rfl
@[simp] theorem post_cinches (s : State) (e : Event) : (post s e).cinches = s.cinches := rfl
@[simp] theorem post_pieces (s : State) (e : Event) : (post s e).pieces = s.pieces := rfl
@[simp] theorem post_pend (s : State) (e : Event) : (post s e).pend = s.pend := rfl
@[simp] theorem post_shoots (s : State) (e : Event) : (post s e).shoots = s.shoots := rfl
@[simp] theorem post_shadow (s : State) (e : Event) : (post s e).shadow = s.shadow := rfl
@[simp] theorem post_offline (s : State) (e : Event) : (post s e).offline = s.offline := rfl
@[simp] theorem post_boxes (s : State) (e : Event) : (post s e).boxes = s.boxes := rfl
@[simp] theorem post_boxN (s : State) (e : Event) : (post s e).boxN = s.boxN := rfl
@[simp] theorem post_groups (s : State) (e : Event) : (post s e).groups = s.groups := rfl
@[simp] theorem post_relems (s : State) (e : Event) : (post s e).relems = s.relems := rfl
@[simp] theorem post_podMerge (s : State) (e : Event) : (post s e).podMerge = s.podMerge := rfl
@[simp] theorem post_mcasts (s : State) (e : Event) : (post s e).mcasts = s.mcasts := rfl
@[simp] theorem post_reps (s : State) (e : Event) : (post s e).reps = s.reps := rfl
@[simp] theorem post_admitted (s : State) (e : Event) : (post s e).admitted = s.admitted := rfl
@[simp] theorem post_linksDown (s : State) (e : Event) : (post s e).linksDown = s.linksDown := rfl
@[simp] theorem post_xbarDown (s : State) (e : Event) : (post s e).xbarDown = s.xbarDown := rfl
@[simp] theorem post_xbarFails (s : State) (e : Event) : (post s e).xbarFails = s.xbarFails := rfl
@[simp] theorem post_xbarFenced (s : State) (e : Event) : (post s e).xbarFenced = s.xbarFenced := rfl
@[simp] theorem post_firmware (s : State) (e : Event) : (post s e).firmware = s.firmware := rfl
@[simp] theorem post_stages (s : State) (e : Event) : (post s e).stages = s.stages := rfl
@[simp] theorem post_hdm (s : State) (e : Event) : (post s e).hdm = s.hdm := rfl
@[simp] theorem post_out (s : State) (e : Event) : (post s e).out = s.out := rfl
@[simp] theorem post_agenda (s : State) (e : Event) : (post s e).agenda = s.agenda ++ [e] := rfl
@[simp] theorem post_evTurn (s : State) (e : Event) : (post s e).evTurn = s.evTurn := rfl
@[simp] theorem post_cur (s : State) (e : Event) : (post s e).cur = s.cur := rfl
@[simp] theorem post_last (s : State) (e : Event) : (post s e).last = s.last := rfl
@[simp] theorem post_nextId (s : State) (e : Event) : (post s e).nextId = s.nextId := rfl
@[simp] theorem post_free (s : State) (e : Event) : (post s e).free = s.free := rfl
@[simp] theorem post_clock (s : State) (e : Event) : (post s e).clock = s.clock := rfl
@[simp] theorem post_missed (s : State) (e : Event) : (post s e).missed = s.missed := rfl

/-! ### newId -/

@[simp] theorem newId_mem (s : State) : (newId s).mem = s.mem := rfl
@[simp] theorem newId_hostMem (s : State) : (newId s).hostMem = s.hostMem := rfl
@[simp] theorem newId_psn (s : State) : (newId s).psn = s.psn := rfl
@[simp] theorem newId_wrote (s : State) : (newId s).wrote = s.wrote := rfl
@[simp] theorem newId_ctl (s : State) : (newId s).ctl = s.ctl := rfl
@[simp] theorem newId_ctr (s : State) : (newId s).ctr = s.ctr := rfl
@[simp] theorem newId_harts (s : State) : (newId s).harts = s.harts := rfl
@[simp] theorem newId_tiles (s : State) : (newId s).tiles = s.tiles := rfl
@[simp] theorem newId_parts (s : State) : (newId s).parts = s.parts := rfl
@[simp] theorem newId_stks (s : State) : (newId s).stks = s.stks := rfl
@[simp] theorem newId_regions (s : State) : (newId s).regions = s.regions := rfl
@[simp] theorem newId_copies (s : State) : (newId s).copies = s.copies := rfl
@[simp] theorem newId_dir (s : State) : (newId s).dir = s.dir := rfl
@[simp] theorem newId_txns (s : State) : (newId s).txns = s.txns := rfl
@[simp] theorem newId_errs (s : State) : (newId s).errs = s.errs := rfl
@[simp] theorem newId_waitq (s : State) : (newId s).waitq = s.waitq := rfl
@[simp] theorem newId_bis (s : State) : (newId s).bis = s.bis := rfl
@[simp] theorem newId_fenced (s : State) : (newId s).fenced = s.fenced := rfl
@[simp] theorem newId_cinches (s : State) : (newId s).cinches = s.cinches := rfl
@[simp] theorem newId_pieces (s : State) : (newId s).pieces = s.pieces := rfl
@[simp] theorem newId_pend (s : State) : (newId s).pend = s.pend := rfl
@[simp] theorem newId_shoots (s : State) : (newId s).shoots = s.shoots := rfl
@[simp] theorem newId_shadow (s : State) : (newId s).shadow = s.shadow := rfl
@[simp] theorem newId_offline (s : State) : (newId s).offline = s.offline := rfl
@[simp] theorem newId_boxes (s : State) : (newId s).boxes = s.boxes := rfl
@[simp] theorem newId_boxN (s : State) : (newId s).boxN = s.boxN := rfl
@[simp] theorem newId_groups (s : State) : (newId s).groups = s.groups := rfl
@[simp] theorem newId_relems (s : State) : (newId s).relems = s.relems := rfl
@[simp] theorem newId_podMerge (s : State) : (newId s).podMerge = s.podMerge := rfl
@[simp] theorem newId_mcasts (s : State) : (newId s).mcasts = s.mcasts := rfl
@[simp] theorem newId_reps (s : State) : (newId s).reps = s.reps := rfl
@[simp] theorem newId_admitted (s : State) : (newId s).admitted = s.admitted := rfl
@[simp] theorem newId_linksDown (s : State) : (newId s).linksDown = s.linksDown := rfl
@[simp] theorem newId_xbarDown (s : State) : (newId s).xbarDown = s.xbarDown := rfl
@[simp] theorem newId_xbarFails (s : State) : (newId s).xbarFails = s.xbarFails := rfl
@[simp] theorem newId_xbarFenced (s : State) : (newId s).xbarFenced = s.xbarFenced := rfl
@[simp] theorem newId_firmware (s : State) : (newId s).firmware = s.firmware := rfl
@[simp] theorem newId_stages (s : State) : (newId s).stages = s.stages := rfl
@[simp] theorem newId_hdm (s : State) : (newId s).hdm = s.hdm := rfl
@[simp] theorem newId_out (s : State) : (newId s).out = s.out := rfl
@[simp] theorem newId_agenda (s : State) : (newId s).agenda = s.agenda := rfl
@[simp] theorem newId_evTurn (s : State) : (newId s).evTurn = s.evTurn := rfl
@[simp] theorem newId_cur (s : State) : (newId s).cur = s.cur := rfl
@[simp] theorem newId_last (s : State) : (newId s).last = s.last := rfl
@[simp] theorem newId_nextId (s : State) : (newId s).nextId = s.nextId + 1 := rfl
@[simp] theorem newId_free (s : State) : (newId s).free = s.free := rfl
@[simp] theorem newId_clock (s : State) : (newId s).clock = s.clock := rfl
@[simp] theorem newId_missed (s : State) : (newId s).missed = s.missed := rfl

/-! ### drew -/

@[simp] theorem drew_mem (s : State) : (drew s).mem = s.mem := rfl
@[simp] theorem drew_hostMem (s : State) : (drew s).hostMem = s.hostMem := rfl
@[simp] theorem drew_psn (s : State) : (drew s).psn = s.psn := rfl
@[simp] theorem drew_wrote (s : State) : (drew s).wrote = s.wrote := rfl
@[simp] theorem drew_ctl (s : State) : (drew s).ctl = s.ctl := rfl
@[simp] theorem drew_ctr (s : State) : (drew s).ctr = s.ctr := rfl
@[simp] theorem drew_harts (s : State) : (drew s).harts = s.harts := rfl
@[simp] theorem drew_tiles (s : State) : (drew s).tiles = s.tiles := rfl
@[simp] theorem drew_parts (s : State) : (drew s).parts = s.parts := rfl
@[simp] theorem drew_stks (s : State) : (drew s).stks = s.stks := rfl
@[simp] theorem drew_regions (s : State) : (drew s).regions = s.regions := rfl
@[simp] theorem drew_copies (s : State) : (drew s).copies = s.copies := rfl
@[simp] theorem drew_dir (s : State) : (drew s).dir = s.dir := rfl
@[simp] theorem drew_txns (s : State) : (drew s).txns = s.txns := rfl
@[simp] theorem drew_errs (s : State) : (drew s).errs = s.errs := rfl
@[simp] theorem drew_waitq (s : State) : (drew s).waitq = s.waitq := rfl
@[simp] theorem drew_bis (s : State) : (drew s).bis = s.bis := rfl
@[simp] theorem drew_fenced (s : State) : (drew s).fenced = s.fenced := rfl
@[simp] theorem drew_cinches (s : State) : (drew s).cinches = s.cinches := rfl
@[simp] theorem drew_pieces (s : State) : (drew s).pieces = s.pieces := rfl
@[simp] theorem drew_pend (s : State) : (drew s).pend = s.pend := rfl
@[simp] theorem drew_shoots (s : State) : (drew s).shoots = s.shoots := rfl
@[simp] theorem drew_shadow (s : State) : (drew s).shadow = s.shadow := rfl
@[simp] theorem drew_offline (s : State) : (drew s).offline = s.offline := rfl
@[simp] theorem drew_boxes (s : State) : (drew s).boxes = s.boxes := rfl
@[simp] theorem drew_boxN (s : State) : (drew s).boxN = s.boxN := rfl
@[simp] theorem drew_groups (s : State) : (drew s).groups = s.groups := rfl
@[simp] theorem drew_relems (s : State) : (drew s).relems = s.relems := rfl
@[simp] theorem drew_podMerge (s : State) : (drew s).podMerge = s.podMerge := rfl
@[simp] theorem drew_mcasts (s : State) : (drew s).mcasts = s.mcasts := rfl
@[simp] theorem drew_reps (s : State) : (drew s).reps = s.reps := rfl
@[simp] theorem drew_admitted (s : State) : (drew s).admitted = s.admitted := rfl
@[simp] theorem drew_linksDown (s : State) : (drew s).linksDown = s.linksDown := rfl
@[simp] theorem drew_xbarDown (s : State) : (drew s).xbarDown = s.xbarDown := rfl
@[simp] theorem drew_xbarFails (s : State) : (drew s).xbarFails = s.xbarFails := rfl
@[simp] theorem drew_xbarFenced (s : State) : (drew s).xbarFenced = s.xbarFenced := rfl
@[simp] theorem drew_firmware (s : State) : (drew s).firmware = s.firmware := rfl
@[simp] theorem drew_stages (s : State) : (drew s).stages = s.stages := rfl
@[simp] theorem drew_hdm (s : State) : (drew s).hdm = s.hdm := rfl
@[simp] theorem drew_out (s : State) : (drew s).out = s.out := rfl
@[simp] theorem drew_agenda (s : State) : (drew s).agenda = s.agenda := rfl
@[simp] theorem drew_evTurn (s : State) : (drew s).evTurn = s.evTurn := rfl
@[simp] theorem drew_cur (s : State) : (drew s).cur = s.cur := rfl
@[simp] theorem drew_last (s : State) : (drew s).last = s.last := rfl
@[simp] theorem drew_nextId (s : State) : (drew s).nextId = s.nextId := rfl
@[simp] theorem drew_free (s : State) : (drew s).free = s.free + 1 := rfl
@[simp] theorem drew_clock (s : State) : (drew s).clock = s.clock := rfl
@[simp] theorem drew_missed (s : State) : (drew s).missed = s.missed := rfl

/-! ### send -/

@[simp] theorem send_mem (s : State) (o : Out) : (send s o).mem = s.mem := rfl
@[simp] theorem send_hostMem (s : State) (o : Out) : (send s o).hostMem = s.hostMem := rfl
@[simp] theorem send_psn (s : State) (o : Out) : (send s o).psn = s.psn := rfl
@[simp] theorem send_wrote (s : State) (o : Out) : (send s o).wrote = s.wrote := rfl
@[simp] theorem send_ctl (s : State) (o : Out) : (send s o).ctl = s.ctl := rfl
@[simp] theorem send_ctr (s : State) (o : Out) : (send s o).ctr = s.ctr := rfl
@[simp] theorem send_harts (s : State) (o : Out) : (send s o).harts = s.harts := rfl
@[simp] theorem send_tiles (s : State) (o : Out) : (send s o).tiles = s.tiles := rfl
@[simp] theorem send_parts (s : State) (o : Out) : (send s o).parts = s.parts := rfl
@[simp] theorem send_stks (s : State) (o : Out) : (send s o).stks = s.stks := rfl
@[simp] theorem send_regions (s : State) (o : Out) : (send s o).regions = s.regions := rfl
@[simp] theorem send_copies (s : State) (o : Out) : (send s o).copies = s.copies := rfl
@[simp] theorem send_dir (s : State) (o : Out) : (send s o).dir = s.dir := rfl
@[simp] theorem send_txns (s : State) (o : Out) : (send s o).txns = s.txns := rfl
@[simp] theorem send_errs (s : State) (o : Out) : (send s o).errs = s.errs := rfl
@[simp] theorem send_waitq (s : State) (o : Out) : (send s o).waitq = s.waitq := rfl
@[simp] theorem send_bis (s : State) (o : Out) : (send s o).bis = s.bis := rfl
@[simp] theorem send_fenced (s : State) (o : Out) : (send s o).fenced = s.fenced := rfl
@[simp] theorem send_cinches (s : State) (o : Out) : (send s o).cinches = s.cinches := rfl
@[simp] theorem send_pieces (s : State) (o : Out) : (send s o).pieces = s.pieces := rfl
@[simp] theorem send_pend (s : State) (o : Out) : (send s o).pend = s.pend := rfl
@[simp] theorem send_shoots (s : State) (o : Out) : (send s o).shoots = s.shoots := rfl
@[simp] theorem send_shadow (s : State) (o : Out) : (send s o).shadow = s.shadow := rfl
@[simp] theorem send_offline (s : State) (o : Out) : (send s o).offline = s.offline := rfl
@[simp] theorem send_boxes (s : State) (o : Out) : (send s o).boxes = s.boxes := rfl
@[simp] theorem send_boxN (s : State) (o : Out) : (send s o).boxN = s.boxN := rfl
@[simp] theorem send_groups (s : State) (o : Out) : (send s o).groups = s.groups := rfl
@[simp] theorem send_relems (s : State) (o : Out) : (send s o).relems = s.relems := rfl
@[simp] theorem send_podMerge (s : State) (o : Out) : (send s o).podMerge = s.podMerge := rfl
@[simp] theorem send_mcasts (s : State) (o : Out) : (send s o).mcasts = s.mcasts := rfl
@[simp] theorem send_reps (s : State) (o : Out) : (send s o).reps = s.reps := rfl
@[simp] theorem send_admitted (s : State) (o : Out) : (send s o).admitted = s.admitted := rfl
@[simp] theorem send_linksDown (s : State) (o : Out) : (send s o).linksDown = s.linksDown := rfl
@[simp] theorem send_xbarDown (s : State) (o : Out) : (send s o).xbarDown = s.xbarDown := rfl
@[simp] theorem send_xbarFails (s : State) (o : Out) : (send s o).xbarFails = s.xbarFails := rfl
@[simp] theorem send_xbarFenced (s : State) (o : Out) : (send s o).xbarFenced = s.xbarFenced := rfl
@[simp] theorem send_firmware (s : State) (o : Out) : (send s o).firmware = s.firmware := rfl
@[simp] theorem send_stages (s : State) (o : Out) : (send s o).stages = s.stages := rfl
@[simp] theorem send_hdm (s : State) (o : Out) : (send s o).hdm = s.hdm := rfl
@[simp] theorem send_out (s : State) (o : Out) : (send s o).out = s.out ++ [o] := rfl
@[simp] theorem send_agenda (s : State) (o : Out) : (send s o).agenda = s.agenda := rfl
@[simp] theorem send_evTurn (s : State) (o : Out) : (send s o).evTurn = s.evTurn := rfl
@[simp] theorem send_cur (s : State) (o : Out) : (send s o).cur = s.cur := rfl
@[simp] theorem send_last (s : State) (o : Out) : (send s o).last = s.last := rfl
@[simp] theorem send_nextId (s : State) (o : Out) : (send s o).nextId = s.nextId := rfl
@[simp] theorem send_free (s : State) (o : Out) : (send s o).free = s.free := rfl
@[simp] theorem send_clock (s : State) (o : Out) : (send s o).clock = s.clock := rfl
@[simp] theorem send_missed (s : State) (o : Out) : (send s o).missed = s.missed := rfl

end Sys2Proof.Machine
end

