-- ==== Sys2Proof/Laws/Memory.lean ====
section
/-! SUPPORT. The memories: what a byte reads after a write of one byte, that every operation on memory keeps the canonical form, and that it
changes nothing but the memories. -/

namespace Sys2Proof.Machine
open Sys2Proof

/-! ## Reading after writing -/

@[simp] theorem homeByte_setHomeByte_same (s : State) (a : Nat) (b : Byte) : homeByte (setHomeByte s a b) a = b := by
  simp only [homeByte, setHomeByte]
  split <;> simp

theorem homeByte_setHomeByte_other (s : State) (b : Byte) {a c : Nat} (h : c ≠ a) : homeByte (setHomeByte s a b) c = homeByte s c := by
  simp only [homeByte, setHomeByte]
  split <;> split
  · rw [mgetD_mset_other _ _ _ _ h]
  · rfl
  · rfl
  · rw [mgetD_mset_other _ _ _ _ (by omega)]

/-- A byte write changes the memories only. -/
theorem setHomeByte_frame (s : State) (a : Nat) (b : Byte) : { setHomeByte s a b with mem := s.mem, hostMem := s.hostMem } = s := by
  simp only [setHomeByte]
  split <;> rfl

@[simp] theorem setHomeByte_psn (s : State) (a : Nat) (b : Byte) : (setHomeByte s a b).psn = s.psn := by
  simp only [setHomeByte]
  split <;> rfl
@[simp] theorem setHomeByte_harts (s : State) (a : Nat) (b : Byte) : (setHomeByte s a b).harts = s.harts := by
  simp only [setHomeByte]
  split <;> rfl
@[simp] theorem setHomeByte_ctl (s : State) (a : Nat) (b : Byte) : (setHomeByte s a b).ctl = s.ctl := by
  simp only [setHomeByte]
  split <;> rfl
@[simp] theorem setHomeByte_dir (s : State) (a : Nat) (b : Byte) : (setHomeByte s a b).dir = s.dir := by
  simp only [setHomeByte]
  split <;> rfl
@[simp] theorem setHomeByte_copies (s : State) (a : Nat) (b : Byte) : (setHomeByte s a b).copies = s.copies := by
  simp only [setHomeByte]
  split <;> rfl
@[simp] theorem setHomeByte_agenda (s : State) (a : Nat) (b : Byte) : (setHomeByte s a b).agenda = s.agenda := by
  simp only [setHomeByte]
  split <;> rfl

/-! ## The canonical form -/

theorem memWf_iff (s : State) : s.memWf = true ↔ mwf 0 s.mem = true ∧ mwf 0 s.hostMem = true := by
  simp [State.memWf, Memory.wf]

/-- The form depends on the two memories only. -/
theorem memWf_of_eq {s t : State} (hm : t.mem = s.mem) (hh : t.hostMem = s.hostMem) (h : s.memWf = true) : t.memWf = true := by
  rw [memWf_iff] at h ⊢
  rw [hm, hh]
  exact h

theorem reset_memWf : State.reset.memWf = true := rfl

theorem setHomeByte_memWf {s : State} (h : s.memWf = true) (a : Nat) (b : Byte) : (setHomeByte s a b).memWf = true := by
  rw [memWf_iff] at h ⊢
  simp only [setHomeByte]
  split
  · exact ⟨mset_wf h.1 a b, h.2⟩
  · exact ⟨h.1, mset_wf h.2 _ b⟩

theorem pokeHome_memWf {s : State} (h : s.memWf = true) (a : Nat) (bs : List Byte) : (pokeHome s a bs).memWf = true := by
  induction bs generalizing s a with
  | nil => exact h
  | cons b r ih => exact ih (setHomeByte_memWf h a b) (a + 1)

theorem putHome_memWf {s : State} (h : s.memWf = true) (a : Nat) (bs : List Byte) : (putHome s a bs).memWf = true := by
  induction bs generalizing s a with
  | nil => exact h
  | cons b r ih => exact ih (setHomeByte_memWf h a b) (a + 1)

/-- A loop keeps what its body keeps. -/
theorem loop_keeps {α : Type} (P : α → Prop) {f : Nat → α → α} (hf : ∀ i a, P a → P (f i a)) (n : Nat) {a : α} (h : P a) : P (loop n f a) := by
  induction n with
  | zero => exact h
  | succ k ih => exact hf k _ ih

theorem writeGran_memWf {s : State} (h : s.memWf = true) (gk : Nat) (d : GData) : (writeGran s gk d).memWf = true := by
  have hl := loop_keeps (fun s : State => s.memWf = true)
    (f := fun i s => if maskBit d.mask i then setHomeByte s (gk * 128 + i) (granByte d.data i) else s)
    (fun i s hs => by
      show State.memWf (if _ then _ else _) = true
      split
      · exact setHomeByte_memWf hs _ _
      · exact hs) 128 h
  simp only [writeGran]
  split
  · split
    · exact hl
    · exact memWf_of_eq rfl rfl hl
  · split
    · exact memWf_of_eq rfl rfl hl
    · exact hl

theorem poke_memWf {s : State} (h : s.memWf = true) (a : Nat) (b : Byte) : (poke s a b).memWf = true :=
  memWf_of_eq rfl rfl (setHomeByte_memWf h a b)

theorem pokeBytes_memWf {s : State} (h : s.memWf = true) (a : Nat) (bs : List Byte) : (pokeBytes s a bs).memWf = true := by
  induction bs generalizing s a with
  | nil => exact h
  | cons b r ih => exact ih (poke_memWf h a b) (a + 1)

theorem pokes_memWf {s : State} (h : s.memWf = true) (a : Nat) (bs : List Byte) : (pokes s a bs).memWf = true :=
  memWf_of_eq rfl rfl (pokeBytes_memWf h a bs)

theorem afterReset_memWf {s : State} (h : s.memWf = true) : (afterReset s).memWf = true := by
  rw [memWf_iff] at h ⊢
  exact ⟨rfl, h.2⟩

/-- The placing of an instruction before a run keeps the form too. -/
theorem placeMem_memWf {s : State} (h : s.memWf = true) (bs : List Byte) : (placeMem s bs).memWf = true := by
  simp only [placeMem]
  exact pokeHome_memWf (pokeHome_memWf (pokeHome_memWf (pokeHome_memWf h _ _) _ _) _ _) _ _

end Sys2Proof.Machine
end

