-- ==== Sys2Proof/Laws/Ops.lean ====
section
/-! SUPPORT. One lemma for each shared operation of the harts: how an instruction ends, how a trap is taken and returned from, what registers read
after a write, and what the shapes of the scalar instructions do when their operands let them issue. -/

namespace Sys2Proof.Machine
open Sys2Proof

/-! ## The executing hart -/

@[simp] theorem curH_setCur (s : State) (h : Hart) : curH (setCur s h) = h := by simp [curH, setCur, hartOf, setHart]

/-- Other harts stay as they were. -/
theorem hartOf_setCur_other (s : State) (x : Hart) {h : Nat} (hn : h ≠ s.cur) : hartOf (setCur s x) h = hartOf s h :=
  mgetD_mput_other _ _ _ _ hn

/-- An update of the executing hart changes the map of harts only. -/
theorem setCur_frame (s : State) (x : Hart) : { setCur s x with harts := s.harts } = s := rfl

@[simp] theorem curTile_setCur (s : State) (x : Hart) : curTile (setCur s x) = curTile s := rfl
@[simp] theorem curPart_setCur (s : State) (x : Hart) : curPart (setCur s x) = curPart s := rfl
@[simp] theorem tileOf_setCur (s : State) (x : Hart) (t : Nat) : tileOf (setCur s x) t = tileOf s t := rfl
@[simp] theorem partOf_setCur (s : State) (x : Hart) (p : Nat) : partOf (setCur s x) p = partOf s p := rfl

/-! ## How an instruction ends -/

theorem finish_ok (pc : Word) (n : Nat) (s : State) : finish pc n (.ok s) = .next (goTo s (pc + BitVec.ofNat 64 n)) := rfl
theorem finish_jump (pc : Word) (n : Nat) (s : State) (a : Word) : finish pc n (.jump s a) = .next (goTo s a) := rfl
theorem finish_trap (pc : Word) (n : Nat) (s : State) (c sb : Nat) (a : Word) :
    finish pc n (.stop s (.trap c sb a)) = .next (takeTrap s c sb a pc) := rfl
theorem finish_wait (pc : Word) (n : Nat) (s : State) (w : Wait) :
    finish pc n (.stop s (.wait w)) = .next (setCur s { curH s with wait := w }) := rfl

/-- Whatever the body answers, the instruction answers a next state. -/
theorem finish_next (pc : Word) (n : Nat) (r : Res) : ∃ t, finish pc n r = .next t := by
  rcases r with s | ⟨s, a⟩ | ⟨s, c | w⟩ <;> exact ⟨_, rfl⟩

theorem curH_goTo (s : State) (a : Word) : curH (goTo s a) = { curH s with pc := a, wait := .none } := by simp [goTo]

/-! ## Traps -/

/-- A trap with the entry enabled and EXL clear (R413). -/
theorem takeTrap_entry {s : State} (ht : bitOf (partOf s (curPart s)).tvec 0 = true) (he : bitOf (curH s).tr.estat 1 = false)
    (c sb : Nat) (a r : Word) :
    takeTrap s c sb a r = setCur s { curH s with
      tr := ⟨r, BitVec.ofNat 64 (sb * 256 + c), a, estatOf (curH s).sup (curH s).barPh⟩, sup := true
      pc := tvecEntry (partOf s (curPart s)).tvec, wait := .none, barPh := none, conv := none
      pfault := (curH s).pfault || c == cPAGE || c == cPROT, pfOuter := (curH s).pfault :: (curH s).pfOuter } := by
  simp [takeTrap, ht, he]

/-- A trap without them ends the partition (R415). -/
theorem takeTrap_double {s : State} (h : bitOf (partOf s (curPart s)).tvec 0 = false ∨ bitOf (curH s).tr.estat 1 = true)
    (c sb : Nat) (a r : Word) : takeTrap s c sb a r = doubleTrap s c := by
  rcases h with h | h <;> simp [takeTrap, h]

/-- A return changes the executing hart only (R414). -/
theorem trapReturn_frame (s : State) : { trapReturn s with harts := s.harts } = s := rfl
theorem trapReturn_pc (s : State) : (curH (trapReturn s)).pc = (curH s).tr.epc := by simp [trapReturn]
theorem trapReturn_sup (s : State) : (curH (trapReturn s)).sup = bitOf (curH s).tr.estat 0 := by simp [trapReturn]

/-! ## Registers -/

@[simp] theorem setG_zero (s : State) (v : Word) : setG s 0 v = s := by simp [setG]
@[simp] theorem gVal_zero (s : State) : gVal s 0 = 0 := by simp [gVal]
@[simp] theorem regStop_nil (s : State) : regStop s [] none = none := rfl
@[simp] theorem popSrcs_nil (s : State) : popSrcs s [] = s := rfl

/-- A write of a register that no stream is bound to. -/
theorem setG_unbound {s : State} {r : BitVec 5} (hr : r ≠ 0) (hb : boundTo s false r = none) (v : Word) :
    setG s r v = setCur s { curH s with g := mset 0 (curH s).g (gkey (curH s).sup r) v, gFault := mdel (curH s).gFault (gkey (curH s).sup r) } := by
  have hr' : ¬r = 0#5 := hr
  simp [setG, hr', hb]

theorem gVal_unbound {s : State} {r : BitVec 5} (hr : r ≠ 0) (hb : boundTo s false r = none) :
    gVal s r = mgetD (curH s).g (gkey (curH s).sup r) 0 := by
  have hr' : ¬r = 0#5 := hr
  simp [gVal, hr', hb]

/-- What a source binds does not depend on the executing hart's registers. -/
theorem boundTo_setCur {s : State} {h : Hart} (hs : h.sup = (curH s).sup) (v : Bool) (r : BitVec 5) : boundTo (setCur s h) v r = boundTo s v r := by
  simp [boundTo, hs]

/-- The register reads as written. -/
theorem gVal_setG_same {s : State} {r : BitVec 5} (hr : r ≠ 0) (hb : boundTo s false r = none) (v : Word) : gVal (setG s r v) r = v := by
  rw [setG_unbound hr hb, gVal_unbound hr ((boundTo_setCur (by rfl) false r).trans hb)]
  simp

/-- Nothing stops an instruction by its g operands: they let it issue, and none traps at its execution. -/
theorem regStop_none {s : State} {l : List (BitVec 5 × Bool)} {d : Option (BitVec 5)} : regStop s l d = none ↔ rowStop s l d = none ∧ lateStop s l d = none := by
  simp [regStop, Option.or_eq_none_iff]

/-- Operands that let the instruction issue. -/
theorem withRegs_ready {s : State} {l : List (BitVec 5 × Bool)} {d : Option (BitVec 5)} (h : regStop s l d = none) (k : State → Res) :
    withRegs s l d k = k (popSrcs s l) := by simp [withRegs, regStop_none.mp h]
/-- Operands that keep it from issuing. -/
theorem withRegs_stop {s : State} {l : List (BitVec 5 × Bool)} {d : Option (BitVec 5)} {x : Stop} (h : rowStop s l d = some x) (k : State → Res) :
    withRegs s l d k = .stop s x := by simp [withRegs, h]
/-- A faulted source or a stream without positions: its cause is taken unless the operand checks refuse the instruction (R247, R351, R459). -/
theorem withRegs_late {s : State} {l : List (BitVec 5 × Bool)} {d : Option (BitVec 5)} {x : Stop} (h : rowStop s l d = none) (hm : lateStop s l d = some x)
    (k : State → Res) : withRegs s l d k = if (k (popSrcs s l)).operand then k (popSrcs s l) else .stop s x := by simp [withRegs, h, hm]

/-! ## Shapes of the scalar instructions -/

theorem intOp_next {s : State} {d a b : BitVec 5} {t u : Bool} (h : regStop s [(a, t), (b, u)] (some d) = none) (f : Word → Word → Word) :
    intOp d a b t u f s = .next (goTo (setG (popSrcs s [(a, t), (b, u)]) d (f (gVal s a) (gVal s b))) ((curH s).pc + 4)) := by
  simp only [intOp, withRegs_ready h, finish1, finish_ok]
  rfl

theorem intOp1_next {s : State} {d a : BitVec 5} {t : Bool} (h : regStop s [(a, t)] (some d) = none) (f : Word → Word) :
    intOp1 d a t f s = .next (goTo (setG (popSrcs s [(a, t)]) d (f (gVal s a))) ((curH s).pc + 4)) := by
  simp only [intOp1, withRegs_ready h, finish1, finish_ok]
  rfl

theorem intOp0_next {s : State} {d : BitVec 5} (h : regStop s [] (some d) = none) (v : Word) :
    intOp0 d v s = .next (goTo (setG s d v) ((curH s).pc + 4)) := by
  simp only [intOp0, withRegs_ready h, finish1, finish_ok, popSrcs_nil]
  rfl

end Sys2Proof.Machine
end

