-- ==== Sys2Proof/Laws/Pack.lean ====
section
/-! SUPPORT. Words as packed fields: reading a field of a packed word gives the value packed there. -/

namespace Sys2Proof.Laws
open Sys2Proof

/-- The number whose fields, from bit 0 up, have these widths and values. -/
def pack (l : List (Nat × Nat)) : Nat :=
  match l with
  | [] => 0
  | (n, v) :: r => v + 2 ^ n * pack r

/-- Every value fits the width of its field. -/
def Fits (l : List (Nat × Nat)) : Prop :=
  match l with
  | [] => True
  | (n, v) :: r => v < 2 ^ n ∧ Fits r

/-- Bits lo to lo + m - 1 of a packed word, read off its list of fields. -/
def readN (l : List (Nat × Nat)) (lo m : Nat) : Nat :=
  match l with
  | [] => 0
  | (n, v) :: r =>
    if n ≤ lo then readN r (lo - n) m
    else if lo = 0 ∧ m = n then v
    else if lo = 0 ∧ n < m then v + 2 ^ n * readN r 0 (m - n)
    else (v + 2 ^ n * pack r) / 2 ^ lo % 2 ^ m

theorem pack_skip {n v : Nat} (h : v < 2 ^ n) (r : Nat) {lo : Nat} (hl : n ≤ lo) (m : Nat) :
    fldN (v + 2 ^ n * r) lo m = fldN r (lo - n) m := by
  obtain ⟨k, rfl⟩ := Nat.exists_eq_add_of_le hl
  simp only [fldN, Nat.add_sub_cancel_left, Nat.pow_add, ← Nat.div_div_eq_div_mul]
  rw [Nat.add_mul_div_left _ _ (Nat.two_pow_pos n), Nat.div_eq_of_lt h, Nat.zero_add]

theorem pack_over {n v : Nat} (h : v < 2 ^ n) (r : Nat) {m : Nat} (hm : n ≤ m) :
    fldN (v + 2 ^ n * r) 0 m = v + 2 ^ n * fldN r 0 (m - n) := by
  obtain ⟨k, rfl⟩ := Nat.exists_eq_add_of_le hm
  simp only [fldN, Nat.pow_zero, Nat.div_one, Nat.add_sub_cancel_left, Nat.pow_add]
  rw [Nat.mod_mul, Nat.add_mul_mod_self_left, Nat.mod_eq_of_lt h, Nat.add_mul_div_left _ _ (Nat.two_pow_pos n),
    Nat.div_eq_of_lt h, Nat.zero_add]

/-- A field of a packed word. -/
theorem fldN_pack (l : List (Nat × Nat)) (h : Fits l) (lo m : Nat) : fldN (pack l) lo m = readN l lo m := by
  induction l generalizing lo m with
  | nil => simp [pack, readN, fldN]
  | cons p r ih =>
    obtain ⟨n, v⟩ := p
    obtain ⟨hv, hr⟩ := h
    simp only [pack, readN]
    split
    · rw [pack_skip hv _ ‹_›, ih hr]
    · split
      · rename_i h2
        obtain ⟨rfl, rfl⟩ := h2
        rw [pack_over hv _ (Nat.le_refl _)]
        simp [fldN, Nat.mod_one]
      · split
        · rename_i h3
          obtain ⟨rfl, h3⟩ := h3
          rw [pack_over hv _ (Nat.le_of_lt h3), ih hr]
        · rfl

theorem pack_lt (l : List (Nat × Nat)) (h : Fits l) : pack l < 2 ^ (l.map (·.1)).sum := by
  induction l with
  | nil => simp [pack]
  | cons p r ih =>
    obtain ⟨n, v⟩ := p
    obtain ⟨hv, hr⟩ := h
    simp only [pack, List.map_cons, List.sum_cons, Nat.pow_add]
    calc v + 2 ^ n * pack r < 2 ^ n + 2 ^ n * pack r := by omega
      _ = 2 ^ n * (pack r + 1) := by ring
      _ ≤ _ := Nat.mul_le_mul_left _ (ih hr)

/-- A word of 32 packed bits is the number it is written as. -/
theorem word_pack (l : List (Nat × Nat)) (h : Fits l) (hs : (l.map (·.1)).sum = 32) (w : Nat) (hw : w = pack l) :
    (BitVec.ofNat 32 w).toNat = pack l := by
  subst hw
  have := pack_lt l h
  rw [hs] at this
  simpa using Nat.mod_eq_of_lt this

/-- A packed word that is no command decodes as its major says. -/
theorem decode_word (l : List (Nat × Nat)) (h : Fits l) (hs : (l.map (·.1)).sum = 32) (w : Nat) (hw : w = pack l) (i : Instr)
    (hm : isCommandWord (pack l) = false) (hd : decWord (pack l) = .ok i) (hi : i.wellFormed = true) :
    decode [BitVec.ofNat 32 w] = .ok i := by
  simp only [decode, word_pack l h hs w hw, hm, hd, checkFields, hi, if_true, Bool.false_eq_true, if_false]

theorem fld_of (w lo n v : Nat) (h : fldN w lo n = v) : fld w lo n = BitVec.ofNat n v := by simp only [fld, h]
theorem fld_is (w lo n : Nat) (v : BitVec n) (h : fldN w lo n = v.toNat) : fld w lo n = v := by simp [fld, h]
theorem bit_is (w lo : Nat) (b : Bool) (h : fldN w lo 1 = b.toNat) : bit w lo = b := by cases b <;> simp [bit, h]
theorem toNat_beq_one (b : Bool) : (b.toNat == 1) = b := by cases b <;> rfl

/-! ## Commands -/

/-- The fields of word 0 of a command. -/
def regsOf (k : Nat) (r : CmdRegs) : List (Nat × Nat) :=
  [(5, r.gd.toNat), (5, r.gc.toNat), (5, r.gb.toNat), (5, r.ga.toNat), (6, k), (6, 63)]

theorem regsOf_fits (k : Nat) (hk : k < 64) (r : CmdRegs) : Fits (regsOf k r) :=
  ⟨r.gd.isLt, r.gc.isLt, r.gb.isLt, r.ga.isLt, hk, by decide, trivial⟩

theorem word0_fld (k : Nat) (hk : k < 64) (r : CmdRegs) (lo m : Nat) : fldN (cmdWord0 k r).toNat lo m = readN (regsOf k r) lo m := by
  rw [show (cmdWord0 k r).toNat = pack (regsOf k r) from
    word_pack _ (regsOf_fits k hk r) rfl _ (by simp only [pack, regsOf]; omega)]
  exact fldN_pack _ (regsOf_fits k hk r) lo m

theorem word0_regs (k : Nat) (hk : k < 64) (r : CmdRegs) : decRegs (cmdWord0 k r).toNat = r := by
  have m := word0_fld k hk r
  simp only [decRegs, fld_is _ 15 5 r.ga (m 15 5), fld_is _ 10 5 r.gb (m 10 5), fld_is _ 5 5 r.gc (m 5 5), fld_is _ 0 5 r.gd (m 0 5)]

/-- Words 2 and 3 as written from the completion fields. -/
def word2 (c : Comp) : BitVec 32 :=
  BitVec.ofNat 32 (c.ctr.toNat + c.ctile.toNat * 0x200 + c.oe.toNat * 0x40000 + c.sz.toNat * 0x80000 + c.add.toNat * 0x100000)

theorem comp_words (c : Comp) : decComp (word2 c).toNat c.sval.toNat = c := by
  have f : Fits [(9, c.ctr.toNat), (9, c.ctile.toNat), (1, c.oe.toNat), (1, c.sz.toNat), (12, c.add.toNat)] :=
    ⟨c.ctr.isLt, c.ctile.isLt, c.oe.toNat_lt, c.sz.toNat_lt, c.add.isLt, trivial⟩
  have m := fldN_pack _ f
  have s : fldN c.sval.toNat 0 32 = c.sval.toNat := by simpa [fldN] using Nat.mod_eq_of_lt c.sval.isLt
  have e : (word2 c).toNat = _ := word_pack _ f rfl _ (by simp only [pack]; omega)
  simp only [decComp, e, fld_is _ 0 9 c.ctr (m 0 9), fld_is _ 9 9 c.ctile (m 9 9),
    bit_is _ 18 c.oe (m 18 1), bit_is _ 19 c.sz (m 19 1), fld_is _ 20 12 c.add (m 20 12), fld_is _ 0 32 c.sval s]

theorem word0_command (k : Nat) (hk : k < 64) (r : CmdRegs) : isCommandWord (cmdWord0 k r).toNat = true := by
  have m : fldN (cmdWord0 k r).toNat 26 6 = 63 := (word0_fld k hk r 26 6).trans rfl
  rw [isCommandWord, m]
  rfl

/-- Four words that open with a command word decode as their kind says. -/
theorem decode_cmd (w0 w1 w2 w3 : BitVec 32) (i : Instr) (h : isCommandWord w0.toNat = true)
    (hd : decCommand w0.toNat w1.toNat w2.toNat w3.toNat = .ok i) (hi : i.wellFormed = true) : decode [w0, w1, w2, w3] = .ok i := by
  simp only [decode, h, hd, checkFields, hi, if_true]

/-- Bits 27 to 9 of word 1 of a pod operation as fields. -/
def tagOf (t : Option PodTag) : List (Nat × Nat) :=
  match t with
  | none => [(1, 0), (9, 0), (9, 0)]
  | some x => [(1, 1), (9, x.tk.toNat), (9, x.tt.toNat)]

/-- Word 1 of a pod operation: its destination, its tag and its function, each as written. -/
theorem tag_word (d : Nat) (hd : d < 2 ^ 9) (t : Option PodTag) (f : Nat) (hf : f < 2 ^ 4) :
    let w := (BitVec.ofNat 32 (d + tagBits t + f * 0x10000000)).toNat
    fldN w 0 9 = d ∧ decTag w = t ∧ fldN w 28 4 = f ∧ (bit w 9 || fldN w 10 18 == 0) = true ∧ (d < 2 ^ 8 → fldN w 0 8 = d ∧ fldN w 8 1 = 0) := by
  have low (l : List (Nat × Nat)) (h8 : d < 2 ^ 8) (r : Nat) : fldN (d + 2 ^ 9 * r) 0 8 = d ∧ fldN (d + 2 ^ 9 * r) 8 1 = 0 := by
    simp only [fldN]
    omega
  cases t with
  | none =>
    have g : Fits [(9, d), (1, 0), (9, 0), (9, 0), (4, f)] := ⟨hd, by decide, by decide, by decide, hf, trivial⟩
    have m := fldN_pack _ g
    rw [word_pack _ g rfl (d + tagBits none + f * 0x10000000) (by simp only [pack, tagBits]; omega)]
    refine ⟨m 0 9, ?_, m 28 4, ?_, fun h8 => low [] h8 _⟩
    · simp only [decTag, bit_is _ 9 false (m 9 1)]
      rfl
    · simp only [show fldN _ 10 18 = 0 from m 10 18]
      simp
  | some x =>
    have g : Fits [(9, d), (1, 1), (9, x.tk.toNat), (9, x.tt.toNat), (4, f)] := ⟨hd, by decide, x.tk.isLt, x.tt.isLt, hf, trivial⟩
    have m := fldN_pack _ g
    rw [word_pack _ g rfl (d + tagBits (some x) + f * 0x10000000) (by simp only [pack, tagBits]; omega)]
    refine ⟨m 0 9, ?_, m 28 4, ?_, fun h8 => low [] h8 _⟩
    · simp only [decTag, bit_is _ 9 true (m 9 1), fld_is _ 10 9 x.tk (m 10 9), fld_is _ 19 9 x.tt (m 19 9), if_true]
    · simp only [bit_is _ 9 true (m 9 1), Bool.true_or]

/-- The follow-on fields of a COPY above its mode fields x: read back, with the zero field between. -/
theorem follow_word (x : Nat) (hx : x < 2 ^ 14) (f : Option Follow) :
    let w := (BitVec.ofNat 32 (x + followBits f)).toNat
    fldN w 0 14 = x ∧ decFollow w = f ∧ (fldN w 14 2 == 0 && (bit w 16 || fldN w 17 15 == 0)) = true := by
  cases f with
  | none =>
    have g : Fits [(14, x), (2, 0), (1, 0), (15, 0)] := ⟨hx, by decide, by decide, by decide, trivial⟩
    have m := fldN_pack _ g
    rw [word_pack _ g rfl (x + followBits none) (by simp only [pack, followBits]; omega)]
    refine ⟨m 0 14, ?_, ?_⟩
    · simp only [decFollow, bit_is _ 16 false (m 16 1)]
      rfl
    · simp only [show fldN _ 14 2 = 0 from m 14 2, show fldN _ 17 15 = 0 from m 17 15]
      simp
  | some y =>
    have g : Fits [(14, x), (2, 0), (1, 1), (2, y.macc.toNat), (3, y.ma.toNat), (3, y.mb.toNat), (2, y.mstr.toNat), (1, y.msp.toNat),
        (1, y.mneg.toNat), (1, y.mz.toNat), (2, y.mty.toNat)] :=
      ⟨hx, by decide, by decide, y.macc.isLt, y.ma.isLt, y.mb.isLt, y.mstr.isLt, y.msp.toNat_lt, y.mneg.toNat_lt, y.mz.toNat_lt, y.mty.isLt, trivial⟩
    have m := fldN_pack _ g
    rw [word_pack _ g rfl (x + followBits (some y)) (by simp only [pack, followBits]; omega)]
    refine ⟨m 0 14, ?_, ?_⟩
    · simp only [decFollow, bit_is _ 16 true (m 16 1), fld_is _ 17 2 y.macc (m 17 2), fld_is _ 19 3 y.ma (m 19 3), fld_is _ 22 3 y.mb (m 22 3),
        fld_is _ 25 2 y.mstr (m 25 2), bit_is _ 27 y.msp (m 27 1), bit_is _ 28 y.mneg (m 28 1), bit_is _ 29 y.mz (m 29 1),
        fld_is _ 30 2 y.mty (m 30 2), if_true]
    · simp only [show fldN _ 14 2 = 0 from m 14 2, bit_is _ 16 true (m 16 1)]
      rfl

/-- A field within the low bits of a word is a field of those bits. -/
theorem sub_field (w k lo n : Nat) (h : lo + n ≤ k) : fldN w lo n = fldN (w % 2 ^ k) lo n := by
  obtain ⟨j, rfl⟩ := Nat.exists_eq_add_of_le (Nat.le_trans (Nat.le_add_right lo n) h)
  simp only [fldN, Nat.pow_add, Nat.mod_mul_right_div_self]
  rw [Nat.mod_mod_of_dvd _ (Nat.pow_dvd_pow 2 (by omega))]

/-- Word 1 of a COPY whose mode fields are l. -/
theorem copy_word (l : List (Nat × Nat)) (h : Fits l) (hs : (l.map (·.1)).sum = 14) (x : Nat) (hx : x = pack l) (f : Option Follow) :
    let w := (BitVec.ofNat 32 (x + followBits f)).toNat
    decFollow w = f ∧ (fldN w 14 2 == 0 && (bit w 16 || fldN w 17 15 == 0)) = true ∧ ∀ lo n, lo + n ≤ 14 → fldN w lo n = readN l lo n := by
  have lt := pack_lt l h
  rw [hs] at lt
  obtain ⟨e, ef, ez⟩ := follow_word x (hx ▸ lt) f
  refine ⟨ef, ez, fun lo n hn => ?_⟩
  have e' : (BitVec.ofNat 32 (x + followBits f)).toNat % 2 ^ 14 = x := by simpa [fldN] using e
  rw [sub_field _ 14 lo n hn, e', hx, fldN_pack l h]

end Sys2Proof.Laws
end

