-- ==== Sys2Proof/Laws/PerInstr.lean ====
section
/-! SUPPORT. Decoding and encoding agree, instruction by instruction: the words of a well-formed instruction decode to it (R235 to R245, R344 to
R358). A step of a unit has no words. -/

namespace Sys2Proof.Laws
open Sys2Proof

/-! ## What a major leaves to its own decoder -/

theorem major_decIntR (w : Nat) (h : fldN w 26 6 = 1) : decWord w = decIntR w := by simp only [decWord, h]
theorem major_decShi (w : Nat) (h : fldN w 26 6 = 8) : decWord w = decShi w := by simp only [decWord, h]
theorem major_decFpR (w : Nat) (h : fldN w 26 6 = 11) : decWord w = decFpR w := by simp only [decWord, h]
theorem major_decBr (w : Nat) (h : fldN w 26 6 = 12) : decWord w = decBr w := by simp only [decWord, h]
theorem major_decLdstO (w : Nat) (h : fldN w 26 6 = 23) : decWord w = decLdstO w := by simp only [decWord, h]
theorem major_decAmo (w : Nat) (h : fldN w 26 6 = 17) : decWord w = decAmo w := by simp only [decWord, h]
theorem major_decRed (w : Nat) (h : fldN w 26 6 = 18) : decWord w = decRed w := by simp only [decWord, h]
theorem major_decSync (w : Nat) (h : fldN w 26 6 = 19) : decWord w = decSync w := by simp only [decWord, h]
theorem major_decCr (w : Nat) (h : fldN w 26 6 = 20) : decWord w = decCr w := by simp only [decWord, h]
theorem major_decSys (w : Nat) (h : fldN w 26 6 = 21) : decWord w = decSys w := by simp only [decWord, h]
theorem major_decNest (w : Nat) (h : fldN w 26 6 = 22) : decWord w = decNest w := by simp only [decWord, h]
theorem major_decVint (w : Nat) (h : fldN w 26 6 = 33) : decWord w = decVint w := by simp only [decWord, h]
theorem major_decVfp (w : Nat) (h : fldN w 26 6 = 34) : decWord w = decVfp w := by simp only [decWord, h]
theorem major_decVsfu (w : Nat) (h : fldN w 26 6 = 35) : decWord w = decVsfu w := by simp only [decWord, h]
theorem major_decVcmp (w : Nat) (h : fldN w 26 6 = 36) : decWord w = decVcmp w := by simp only [decWord, h]
theorem major_decVmask (w : Nat) (h : fldN w 26 6 = 37) : decWord w = decVmask w := by simp only [decWord, h]
theorem major_decVperm (w : Nat) (h : fldN w 26 6 = 38) : decWord w = decVperm w := by simp only [decWord, h]
theorem major_decVred (w : Nat) (h : fldN w 26 6 = 39) : decWord w = decVred w := by simp only [decWord, h]
theorem major_decVcvt (w : Nat) (h : fldN w 26 6 = 40) : decWord w = decVcvt w := by simp only [decWord, h]
theorem major_decVmov (w : Nat) (h : fldN w 26 6 = 41) : decWord w = decVmov w := by simp only [decWord, h]
theorem major_decVld (w : Nat) (h : fldN w 26 6 = 42) : decWord w = decVld w := by simp only [decWord, h]
theorem major_decVst (w : Nat) (h : fldN w 26 6 = 43) : decWord w = decVst w := by simp only [decWord, h]
theorem major_decVamo (w : Nat) (h : fldN w 26 6 = 44) : decWord w = decVamo w := by simp only [decWord, h]
theorem major_decVdb (w : Nat) (h : fldN w 26 6 = 45) : decWord w = decVdb w := by simp only [decWord, h]
theorem major_decVctl (w : Nat) (h : fldN w 26 6 = 46) : decWord w = decVctl w := by simp only [decWord, h]
theorem major_decMacc (w : Nat) (h : fldN w 26 6 = 51) : decWord w = decMacc w := by simp only [decWord, h]

/-! ## Commands by kind -/

/-- A command whose completion words are read: its word 1 is w1. -/
theorem cmd (k : Nat) (hk : k < 64) (r : CmdRegs) (w1 : BitVec 32) (c : Comp) (i : Instr)
    (hd : decCommand (cmdWord0 k r).toNat w1.toNat (word2 c).toNat c.sval.toNat = .ok i) (hi : i.wellFormed = true) :
    decode (cmdWord0 k r :: w1 :: compWords c) = .ok i :=
  decode_cmd _ _ _ _ _ (word0_command k hk r) hd hi

/-- A command whose words 2 and 3 are zero. -/
theorem cmdZ (k : Nat) (hk : k < 64) (r : CmdRegs) (w1 : BitVec 32) (i : Instr)
    (hd : decCommand (cmdWord0 k r).toNat w1.toNat 0 0 = .ok i) (hi : i.wellFormed = true) : decode [cmdWord0 k r, w1, 0, 0] = .ok i :=
  decode_cmd _ _ _ _ _ (word0_command k hk r) hd hi

theorem kindOf (k : Nat) (hk : k < 64) (r : CmdRegs) : fldN (cmdWord0 k r).toNat 20 6 = k := (word0_fld k hk r 20 6).trans rfl

end Sys2Proof.Laws

namespace Sys2Proof.Laws.RoundTrip
open Sys2Proof Sys2Proof.Laws

/-- The words of i, if it is an encoded instruction without a reserved field value, decode to i. -/
def Statement (i : Instr) : Prop := i.encoded = true → i.wellFormed = true → decode (encode i) = .ok i

theorem add (d : BitVec 5) (a : BitVec 5) (b : BitVec 5) (t : Bool) (u : Bool) (w : Bool) : Statement (.add d a b t u w) := fun _ hw => by
  have hf : Fits [(8, 0), (1, w.toNat), (1, u.toNat), (1, t.toNat), (5, b.toNat), (5, a.toNat), (5, d.toNat), (6, 1)] :=
    ⟨by decide, w.toNat_lt, u.toNat_lt, t.toNat_lt, b.isLt, a.isLt, d.isLt, by decide, trivial⟩
  have hm := fldN_pack _ hf
  refine decode_word _ hf rfl _ (by simp only [pack]; omega) _ (by simp only [isCommandWord, show _ = 1 from hm 26 6]; rfl) ?_ hw
  rw [major_decIntR _ (hm 26 6)]
  simp only [decIntR, show _ = 0 from hm 0 8, bit_is _ 8 w (hm 8 1), bit_is _ 9 u (hm 9 1), bit_is _ 10 t (hm 10 1), fld_is _ 11 5 b (hm 11 5), fld_is _ 16 5 a (hm 16 5), fld_is _ 21 5 d (hm 21 5)]

theorem sub (d : BitVec 5) (a : BitVec 5) (b : BitVec 5) (t : Bool) (u : Bool) (w : Bool) : Statement (.sub d a b t u w) := fun _ hw => by
  have hf : Fits [(8, 1), (1, w.toNat), (1, u.toNat), (1, t.toNat), (5, b.toNat), (5, a.toNat), (5, d.toNat), (6, 1)] :=
    ⟨by decide, w.toNat_lt, u.toNat_lt, t.toNat_lt, b.isLt, a.isLt, d.isLt, by decide, trivial⟩
  have hm := fldN_pack _ hf
  refine decode_word _ hf rfl _ (by simp only [pack]; omega) _ (by simp only [isCommandWord, show _ = 1 from hm 26 6]; rfl) ?_ hw
  rw [major_decIntR _ (hm 26 6)]
  simp only [decIntR, show _ = 1 from hm 0 8, bit_is _ 8 w (hm 8 1), bit_is _ 9 u (hm 9 1), bit_is _ 10 t (hm 10 1), fld_is _ 11 5 b (hm 11 5), fld_is _ 16 5 a (hm 16 5), fld_is _ 21 5 d (hm 21 5)]

theorem mul (d : BitVec 5) (a : BitVec 5) (b : BitVec 5) (t : Bool) (u : Bool) (w : Bool) : Statement (.mul d a b t u w) := fun _ hw => by
  have hf : Fits [(8, 2), (1, w.toNat), (1, u.toNat), (1, t.toNat), (5, b.toNat), (5, a.toNat), (5, d.toNat), (6, 1)] :=
    ⟨by decide, w.toNat_lt, u.toNat_lt, t.toNat_lt, b.isLt, a.isLt, d.isLt, by decide, trivial⟩
  have hm := fldN_pack _ hf
  refine decode_word _ hf rfl _ (by simp only [pack]; omega) _ (by simp only [isCommandWord, show _ = 1 from hm 26 6]; rfl) ?_ hw
  rw [major_decIntR _ (hm 26 6)]
  simp only [decIntR, show _ = 2 from hm 0 8, bit_is _ 8 w (hm 8 1), bit_is _ 9 u (hm 9 1), bit_is _ 10 t (hm 10 1), fld_is _ 11 5 b (hm 11 5), fld_is _ 16 5 a (hm 16 5), fld_is _ 21 5 d (hm 21 5)]

theorem mulh (d : BitVec 5) (a : BitVec 5) (b : BitVec 5) (t : Bool) (u : Bool) : Statement (.mulh d a b t u) := fun _ hw => by
  have hf : Fits [(8, 3), (1, 0), (1, u.toNat), (1, t.toNat), (5, b.toNat), (5, a.toNat), (5, d.toNat), (6, 1)] :=
    ⟨by decide, by decide, u.toNat_lt, t.toNat_lt, b.isLt, a.isLt, d.isLt, by decide, trivial⟩
  have hm := fldN_pack _ hf
  refine decode_word _ hf rfl _ (by simp only [pack]; omega) _ (by simp only [isCommandWord, show _ = 1 from hm 26 6]; rfl) ?_ hw
  rw [major_decIntR _ (hm 26 6)]
  simp only [decIntR, show _ = 3 from hm 0 8, show _ = 0 from hm 8 1, bit_is _ 9 u (hm 9 1), bit_is _ 10 t (hm 10 1), fld_is _ 11 5 b (hm 11 5), fld_is _ 16 5 a (hm 16 5), fld_is _ 21 5 d (hm 21 5)]
  rfl

theorem mulhu (d : BitVec 5) (a : BitVec 5) (b : BitVec 5) (t : Bool) (u : Bool) : Statement (.mulhu d a b t u) := fun _ hw => by
  have hf : Fits [(8, 4), (1, 0), (1, u.toNat), (1, t.toNat), (5, b.toNat), (5, a.toNat), (5, d.toNat), (6, 1)] :=
    ⟨by decide, by decide, u.toNat_lt, t.toNat_lt, b.isLt, a.isLt, d.isLt, by decide, trivial⟩
  have hm := fldN_pack _ hf
  refine decode_word _ hf rfl _ (by simp only [pack]; omega) _ (by simp only [isCommandWord, show _ = 1 from hm 26 6]; rfl) ?_ hw
  rw [major_decIntR _ (hm 26 6)]
  simp only [decIntR, show _ = 4 from hm 0 8, show _ = 0 from hm 8 1, bit_is _ 9 u (hm 9 1), bit_is _ 10 t (hm 10 1), fld_is _ 11 5 b (hm 11 5), fld_is _ 16 5 a (hm 16 5), fld_is _ 21 5 d (hm 21 5)]
  rfl

theorem div (d : BitVec 5) (a : BitVec 5) (b : BitVec 5) (t : Bool) (u : Bool) : Statement (.div d a b t u) := fun _ hw => by
  have hf : Fits [(8, 5), (1, 0), (1, u.toNat), (1, t.toNat), (5, b.toNat), (5, a.toNat), (5, d.toNat), (6, 1)] :=
    ⟨by decide, by decide, u.toNat_lt, t.toNat_lt, b.isLt, a.isLt, d.isLt, by decide, trivial⟩
  have hm := fldN_pack _ hf
  refine decode_word _ hf rfl _ (by simp only [pack]; omega) _ (by simp only [isCommandWord, show _ = 1 from hm 26 6]; rfl) ?_ hw
  rw [major_decIntR _ (hm 26 6)]
  simp only [decIntR, show _ = 5 from hm 0 8, show _ = 0 from hm 8 1, bit_is _ 9 u (hm 9 1), bit_is _ 10 t (hm 10 1), fld_is _ 11 5 b (hm 11 5), fld_is _ 16 5 a (hm 16 5), fld_is _ 21 5 d (hm 21 5)]
  rfl

theorem divu (d : BitVec 5) (a : BitVec 5) (b : BitVec 5) (t : Bool) (u : Bool) : Statement (.divu d a b t u) := fun _ hw => by
  have hf : Fits [(8, 6), (1, 0), (1, u.toNat), (1, t.toNat), (5, b.toNat), (5, a.toNat), (5, d.toNat), (6, 1)] :=
    ⟨by decide, by decide, u.toNat_lt, t.toNat_lt, b.isLt, a.isLt, d.isLt, by decide, trivial⟩
  have hm := fldN_pack _ hf
  refine decode_word _ hf rfl _ (by simp only [pack]; omega) _ (by simp only [isCommandWord, show _ = 1 from hm 26 6]; rfl) ?_ hw
  rw [major_decIntR _ (hm 26 6)]
  simp only [decIntR, show _ = 6 from hm 0 8, show _ = 0 from hm 8 1, bit_is _ 9 u (hm 9 1), bit_is _ 10 t (hm 10 1), fld_is _ 11 5 b (hm 11 5), fld_is _ 16 5 a (hm 16 5), fld_is _ 21 5 d (hm 21 5)]
  rfl

theorem rem (d : BitVec 5) (a : BitVec 5) (b : BitVec 5) (t : Bool) (u : Bool) : Statement (.rem d a b t u) := fun _ hw => by
  have hf : Fits [(8, 7), (1, 0), (1, u.toNat), (1, t.toNat), (5, b.toNat), (5, a.toNat), (5, d.toNat), (6, 1)] :=
    ⟨by decide, by decide, u.toNat_lt, t.toNat_lt, b.isLt, a.isLt, d.isLt, by decide, trivial⟩
  have hm := fldN_pack _ hf
  refine decode_word _ hf rfl _ (by simp only [pack]; omega) _ (by simp only [isCommandWord, show _ = 1 from hm 26 6]; rfl) ?_ hw
  rw [major_decIntR _ (hm 26 6)]
  simp only [decIntR, show _ = 7 from hm 0 8, show _ = 0 from hm 8 1, bit_is _ 9 u (hm 9 1), bit_is _ 10 t (hm 10 1), fld_is _ 11 5 b (hm 11 5), fld_is _ 16 5 a (hm 16 5), fld_is _ 21 5 d (hm 21 5)]
  rfl

theorem remu (d : BitVec 5) (a : BitVec 5) (b : BitVec 5) (t : Bool) (u : Bool) : Statement (.remu d a b t u) := fun _ hw => by
  have hf : Fits [(8, 8), (1, 0), (1, u.toNat), (1, t.toNat), (5, b.toNat), (5, a.toNat), (5, d.toNat), (6, 1)] :=
    ⟨by decide, by decide, u.toNat_lt, t.toNat_lt, b.isLt, a.isLt, d.isLt, by decide, trivial⟩
  have hm := fldN_pack _ hf
  refine decode_word _ hf rfl _ (by simp only [pack]; omega) _ (by simp only [isCommandWord, show _ = 1 from hm 26 6]; rfl) ?_ hw
  rw [major_decIntR _ (hm 26 6)]
  simp only [decIntR, show _ = 8 from hm 0 8, show _ = 0 from hm 8 1, bit_is _ 9 u (hm 9 1), bit_is _ 10 t (hm 10 1), fld_is _ 11 5 b (hm 11 5), fld_is _ 16 5 a (hm 16 5), fld_is _ 21 5 d (hm 21 5)]
  rfl

theorem and (d : BitVec 5) (a : BitVec 5) (b : BitVec 5) (t : Bool) (u : Bool) : Statement (.and d a b t u) := fun _ hw => by
  have hf : Fits [(8, 9), (1, 0), (1, u.toNat), (1, t.toNat), (5, b.toNat), (5, a.toNat), (5, d.toNat), (6, 1)] :=
    ⟨by decide, by decide, u.toNat_lt, t.toNat_lt, b.isLt, a.isLt, d.isLt, by decide, trivial⟩
  have hm := fldN_pack _ hf
  refine decode_word _ hf rfl _ (by simp only [pack]; omega) _ (by simp only [isCommandWord, show _ = 1 from hm 26 6]; rfl) ?_ hw
  rw [major_decIntR _ (hm 26 6)]
  simp only [decIntR, show _ = 9 from hm 0 8, show _ = 0 from hm 8 1, bit_is _ 9 u (hm 9 1), bit_is _ 10 t (hm 10 1), fld_is _ 11 5 b (hm 11 5), fld_is _ 16 5 a (hm 16 5), fld_is _ 21 5 d (hm 21 5)]
  rfl

theorem or (d : BitVec 5) (a : BitVec 5) (b : BitVec 5) (t : Bool) (u : Bool) : Statement (.or d a b t u) := fun _ hw => by
  have hf : Fits [(8, 10), (1, 0), (1, u.toNat), (1, t.toNat), (5, b.toNat), (5, a.toNat), (5, d.toNat), (6, 1)] :=
    ⟨by decide, by decide, u.toNat_lt, t.toNat_lt, b.isLt, a.isLt, d.isLt, by decide, trivial⟩
  have hm := fldN_pack _ hf
  refine decode_word _ hf rfl _ (by simp only [pack]; omega) _ (by simp only [isCommandWord, show _ = 1 from hm 26 6]; rfl) ?_ hw
  rw [major_decIntR _ (hm 26 6)]
  simp only [decIntR, show _ = 10 from hm 0 8, show _ = 0 from hm 8 1, bit_is _ 9 u (hm 9 1), bit_is _ 10 t (hm 10 1), fld_is _ 11 5 b (hm 11 5), fld_is _ 16 5 a (hm 16 5), fld_is _ 21 5 d (hm 21 5)]
  rfl

theorem xor (d : BitVec 5) (a : BitVec 5) (b : BitVec 5) (t : Bool) (u : Bool) : Statement (.xor d a b t u) := fun _ hw => by
  have hf : Fits [(8, 11), (1, 0), (1, u.toNat), (1, t.toNat), (5, b.toNat), (5, a.toNat), (5, d.toNat), (6, 1)] :=
    ⟨by decide, by decide, u.toNat_lt, t.toNat_lt, b.isLt, a.isLt, d.isLt, by decide, trivial⟩
  have hm := fldN_pack _ hf
  refine decode_word _ hf rfl _ (by simp only [pack]; omega) _ (by simp only [isCommandWord, show _ = 1 from hm 26 6]; rfl) ?_ hw
  rw [major_decIntR _ (hm 26 6)]
  simp only [decIntR, show _ = 11 from hm 0 8, show _ = 0 from hm 8 1, bit_is _ 9 u (hm 9 1), bit_is _ 10 t (hm 10 1), fld_is _ 11 5 b (hm 11 5), fld_is _ 16 5 a (hm 16 5), fld_is _ 21 5 d (hm 21 5)]
  rfl

theorem andn (d : BitVec 5) (a : BitVec 5) (b : BitVec 5) (t : Bool) (u : Bool) : Statement (.andn d a b t u) := fun _ hw => by
  have hf : Fits [(8, 12), (1, 0), (1, u.toNat), (1, t.toNat), (5, b.toNat), (5, a.toNat), (5, d.toNat), (6, 1)] :=
    ⟨by decide, by decide, u.toNat_lt, t.toNat_lt, b.isLt, a.isLt, d.isLt, by decide, trivial⟩
  have hm := fldN_pack _ hf
  refine decode_word _ hf rfl _ (by simp only [pack]; omega) _ (by simp only [isCommandWord, show _ = 1 from hm 26 6]; rfl) ?_ hw
  rw [major_decIntR _ (hm 26 6)]
  simp only [decIntR, show _ = 12 from hm 0 8, show _ = 0 from hm 8 1, bit_is _ 9 u (hm 9 1), bit_is _ 10 t (hm 10 1), fld_is _ 11 5 b (hm 11 5), fld_is _ 16 5 a (hm 16 5), fld_is _ 21 5 d (hm 21 5)]
  rfl

theorem orn (d : BitVec 5) (a : BitVec 5) (b : BitVec 5) (t : Bool) (u : Bool) : Statement (.orn d a b t u) := fun _ hw => by
  have hf : Fits [(8, 13), (1, 0), (1, u.toNat), (1, t.toNat), (5, b.toNat), (5, a.toNat), (5, d.toNat), (6, 1)] :=
    ⟨by decide, by decide, u.toNat_lt, t.toNat_lt, b.isLt, a.isLt, d.isLt, by decide, trivial⟩
  have hm := fldN_pack _ hf
  refine decode_word _ hf rfl _ (by simp only [pack]; omega) _ (by simp only [isCommandWord, show _ = 1 from hm 26 6]; rfl) ?_ hw
  rw [major_decIntR _ (hm 26 6)]
  simp only [decIntR, show _ = 13 from hm 0 8, show _ = 0 from hm 8 1, bit_is _ 9 u (hm 9 1), bit_is _ 10 t (hm 10 1), fld_is _ 11 5 b (hm 11 5), fld_is _ 16 5 a (hm 16 5), fld_is _ 21 5 d (hm 21 5)]
  rfl

theorem sll (d : BitVec 5) (a : BitVec 5) (b : BitVec 5) (t : Bool) (u : Bool) (w : Bool) : Statement (.sll d a b t u w) := fun _ hw => by
  have hf : Fits [(8, 14), (1, w.toNat), (1, u.toNat), (1, t.toNat), (5, b.toNat), (5, a.toNat), (5, d.toNat), (6, 1)] :=
    ⟨by decide, w.toNat_lt, u.toNat_lt, t.toNat_lt, b.isLt, a.isLt, d.isLt, by decide, trivial⟩
  have hm := fldN_pack _ hf
  refine decode_word _ hf rfl _ (by simp only [pack]; omega) _ (by simp only [isCommandWord, show _ = 1 from hm 26 6]; rfl) ?_ hw
  rw [major_decIntR _ (hm 26 6)]
  simp only [decIntR, show _ = 14 from hm 0 8, bit_is _ 8 w (hm 8 1), bit_is _ 9 u (hm 9 1), bit_is _ 10 t (hm 10 1), fld_is _ 11 5 b (hm 11 5), fld_is _ 16 5 a (hm 16 5), fld_is _ 21 5 d (hm 21 5)]

theorem srl (d : BitVec 5) (a : BitVec 5) (b : BitVec 5) (t : Bool) (u : Bool) (w : Bool) : Statement (.srl d a b t u w) := fun _ hw => by
  have hf : Fits [(8, 15), (1, w.toNat), (1, u.toNat), (1, t.toNat), (5, b.toNat), (5, a.toNat), (5, d.toNat), (6, 1)] :=
    ⟨by decide, w.toNat_lt, u.toNat_lt, t.toNat_lt, b.isLt, a.isLt, d.isLt, by decide, trivial⟩
  have hm := fldN_pack _ hf
  refine decode_word _ hf rfl _ (by simp only [pack]; omega) _ (by simp only [isCommandWord, show _ = 1 from hm 26 6]; rfl) ?_ hw
  rw [major_decIntR _ (hm 26 6)]
  simp only [decIntR, show _ = 15 from hm 0 8, bit_is _ 8 w (hm 8 1), bit_is _ 9 u (hm 9 1), bit_is _ 10 t (hm 10 1), fld_is _ 11 5 b (hm 11 5), fld_is _ 16 5 a (hm 16 5), fld_is _ 21 5 d (hm 21 5)]

theorem sra (d : BitVec 5) (a : BitVec 5) (b : BitVec 5) (t : Bool) (u : Bool) (w : Bool) : Statement (.sra d a b t u w) := fun _ hw => by
  have hf : Fits [(8, 16), (1, w.toNat), (1, u.toNat), (1, t.toNat), (5, b.toNat), (5, a.toNat), (5, d.toNat), (6, 1)] :=
    ⟨by decide, w.toNat_lt, u.toNat_lt, t.toNat_lt, b.isLt, a.isLt, d.isLt, by decide, trivial⟩
  have hm := fldN_pack _ hf
  refine decode_word _ hf rfl _ (by simp only [pack]; omega) _ (by simp only [isCommandWord, show _ = 1 from hm 26 6]; rfl) ?_ hw
  rw [major_decIntR _ (hm 26 6)]
  simp only [decIntR, show _ = 16 from hm 0 8, bit_is _ 8 w (hm 8 1), bit_is _ 9 u (hm 9 1), bit_is _ 10 t (hm 10 1), fld_is _ 11 5 b (hm 11 5), fld_is _ 16 5 a (hm 16 5), fld_is _ 21 5 d (hm 21 5)]

theorem rol (d : BitVec 5) (a : BitVec 5) (b : BitVec 5) (t : Bool) (u : Bool) (w : Bool) : Statement (.rol d a b t u w) := fun _ hw => by
  have hf : Fits [(8, 17), (1, w.toNat), (1, u.toNat), (1, t.toNat), (5, b.toNat), (5, a.toNat), (5, d.toNat), (6, 1)] :=
    ⟨by decide, w.toNat_lt, u.toNat_lt, t.toNat_lt, b.isLt, a.isLt, d.isLt, by decide, trivial⟩
  have hm := fldN_pack _ hf
  refine decode_word _ hf rfl _ (by simp only [pack]; omega) _ (by simp only [isCommandWord, show _ = 1 from hm 26 6]; rfl) ?_ hw
  rw [major_decIntR _ (hm 26 6)]
  simp only [decIntR, show _ = 17 from hm 0 8, bit_is _ 8 w (hm 8 1), bit_is _ 9 u (hm 9 1), bit_is _ 10 t (hm 10 1), fld_is _ 11 5 b (hm 11 5), fld_is _ 16 5 a (hm 16 5), fld_is _ 21 5 d (hm 21 5)]

theorem ror (d : BitVec 5) (a : BitVec 5) (b : BitVec 5) (t : Bool) (u : Bool) (w : Bool) : Statement (.ror d a b t u w) := fun _ hw => by
  have hf : Fits [(8, 18), (1, w.toNat), (1, u.toNat), (1, t.toNat), (5, b.toNat), (5, a.toNat), (5, d.toNat), (6, 1)] :=
    ⟨by decide, w.toNat_lt, u.toNat_lt, t.toNat_lt, b.isLt, a.isLt, d.isLt, by decide, trivial⟩
  have hm := fldN_pack _ hf
  refine decode_word _ hf rfl _ (by simp only [pack]; omega) _ (by simp only [isCommandWord, show _ = 1 from hm 26 6]; rfl) ?_ hw
  rw [major_decIntR _ (hm 26 6)]
  simp only [decIntR, show _ = 18 from hm 0 8, bit_is _ 8 w (hm 8 1), bit_is _ 9 u (hm 9 1), bit_is _ 10 t (hm 10 1), fld_is _ 11 5 b (hm 11 5), fld_is _ 16 5 a (hm 16 5), fld_is _ 21 5 d (hm 21 5)]

theorem slt (d : BitVec 5) (a : BitVec 5) (b : BitVec 5) (t : Bool) (u : Bool) : Statement (.slt d a b t u) := fun _ hw => by
  have hf : Fits [(8, 19), (1, 0), (1, u.toNat), (1, t.toNat), (5, b.toNat), (5, a.toNat), (5, d.toNat), (6, 1)] :=
    ⟨by decide, by decide, u.toNat_lt, t.toNat_lt, b.isLt, a.isLt, d.isLt, by decide, trivial⟩
  have hm := fldN_pack _ hf
  refine decode_word _ hf rfl _ (by simp only [pack]; omega) _ (by simp only [isCommandWord, show _ = 1 from hm 26 6]; rfl) ?_ hw
  rw [major_decIntR _ (hm 26 6)]
  simp only [decIntR, show _ = 19 from hm 0 8, show _ = 0 from hm 8 1, bit_is _ 9 u (hm 9 1), bit_is _ 10 t (hm 10 1), fld_is _ 11 5 b (hm 11 5), fld_is _ 16 5 a (hm 16 5), fld_is _ 21 5 d (hm 21 5)]
  rfl

theorem sltu (d : BitVec 5) (a : BitVec 5) (b : BitVec 5) (t : Bool) (u : Bool) : Statement (.sltu d a b t u) := fun _ hw => by
  have hf : Fits [(8, 20), (1, 0), (1, u.toNat), (1, t.toNat), (5, b.toNat), (5, a.toNat), (5, d.toNat), (6, 1)] :=
    ⟨by decide, by decide, u.toNat_lt, t.toNat_lt, b.isLt, a.isLt, d.isLt, by decide, trivial⟩
  have hm := fldN_pack _ hf
  refine decode_word _ hf rfl _ (by simp only [pack]; omega) _ (by simp only [isCommandWord, show _ = 1 from hm 26 6]; rfl) ?_ hw
  rw [major_decIntR _ (hm 26 6)]
  simp only [decIntR, show _ = 20 from hm 0 8, show _ = 0 from hm 8 1, bit_is _ 9 u (hm 9 1), bit_is _ 10 t (hm 10 1), fld_is _ 11 5 b (hm 11 5), fld_is _ 16 5 a (hm 16 5), fld_is _ 21 5 d (hm 21 5)]
  rfl

theorem min (d : BitVec 5) (a : BitVec 5) (b : BitVec 5) (t : Bool) (u : Bool) : Statement (.min d a b t u) := fun _ hw => by
  have hf : Fits [(8, 21), (1, 0), (1, u.toNat), (1, t.toNat), (5, b.toNat), (5, a.toNat), (5, d.toNat), (6, 1)] :=
    ⟨by decide, by decide, u.toNat_lt, t.toNat_lt, b.isLt, a.isLt, d.isLt, by decide, trivial⟩
  have hm := fldN_pack _ hf
  refine decode_word _ hf rfl _ (by simp only [pack]; omega) _ (by simp only [isCommandWord, show _ = 1 from hm 26 6]; rfl) ?_ hw
  rw [major_decIntR _ (hm 26 6)]
  simp only [decIntR, show _ = 21 from hm 0 8, show _ = 0 from hm 8 1, bit_is _ 9 u (hm 9 1), bit_is _ 10 t (hm 10 1), fld_is _ 11 5 b (hm 11 5), fld_is _ 16 5 a (hm 16 5), fld_is _ 21 5 d (hm 21 5)]
  rfl

theorem max (d : BitVec 5) (a : BitVec 5) (b : BitVec 5) (t : Bool) (u : Bool) : Statement (.max d a b t u) := fun _ hw => by
  have hf : Fits [(8, 22), (1, 0), (1, u.toNat), (1, t.toNat), (5, b.toNat), (5, a.toNat), (5, d.toNat), (6, 1)] :=
    ⟨by decide, by decide, u.toNat_lt, t.toNat_lt, b.isLt, a.isLt, d.isLt, by decide, trivial⟩
  have hm := fldN_pack _ hf
  refine decode_word _ hf rfl _ (by simp only [pack]; omega) _ (by simp only [isCommandWord, show _ = 1 from hm 26 6]; rfl) ?_ hw
  rw [major_decIntR _ (hm 26 6)]
  simp only [decIntR, show _ = 22 from hm 0 8, show _ = 0 from hm 8 1, bit_is _ 9 u (hm 9 1), bit_is _ 10 t (hm 10 1), fld_is _ 11 5 b (hm 11 5), fld_is _ 16 5 a (hm 16 5), fld_is _ 21 5 d (hm 21 5)]
  rfl

theorem minu (d : BitVec 5) (a : BitVec 5) (b : BitVec 5) (t : Bool) (u : Bool) : Statement (.minu d a b t u) := fun _ hw => by
  have hf : Fits [(8, 23), (1, 0), (1, u.toNat), (1, t.toNat), (5, b.toNat), (5, a.toNat), (5, d.toNat), (6, 1)] :=
    ⟨by decide, by decide, u.toNat_lt, t.toNat_lt, b.isLt, a.isLt, d.isLt, by decide, trivial⟩
  have hm := fldN_pack _ hf
  refine decode_word _ hf rfl _ (by simp only [pack]; omega) _ (by simp only [isCommandWord, show _ = 1 from hm 26 6]; rfl) ?_ hw
  rw [major_decIntR _ (hm 26 6)]
  simp only [decIntR, show _ = 23 from hm 0 8, show _ = 0 from hm 8 1, bit_is _ 9 u (hm 9 1), bit_is _ 10 t (hm 10 1), fld_is _ 11 5 b (hm 11 5), fld_is _ 16 5 a (hm 16 5), fld_is _ 21 5 d (hm 21 5)]
  rfl

theorem maxu (d : BitVec 5) (a : BitVec 5) (b : BitVec 5) (t : Bool) (u : Bool) : Statement (.maxu d a b t u) := fun _ hw => by
  have hf : Fits [(8, 24), (1, 0), (1, u.toNat), (1, t.toNat), (5, b.toNat), (5, a.toNat), (5, d.toNat), (6, 1)] :=
    ⟨by decide, by decide, u.toNat_lt, t.toNat_lt, b.isLt, a.isLt, d.isLt, by decide, trivial⟩
  have hm := fldN_pack _ hf
  refine decode_word _ hf rfl _ (by simp only [pack]; omega) _ (by simp only [isCommandWord, show _ = 1 from hm 26 6]; rfl) ?_ hw
  rw [major_decIntR _ (hm 26 6)]
  simp only [decIntR, show _ = 24 from hm 0 8, show _ = 0 from hm 8 1, bit_is _ 9 u (hm 9 1), bit_is _ 10 t (hm 10 1), fld_is _ 11 5 b (hm 11 5), fld_is _ 16 5 a (hm 16 5), fld_is _ 21 5 d (hm 21 5)]
  rfl

theorem clz (d : BitVec 5) (a : BitVec 5) (t : Bool) (w : Bool) : Statement (.clz d a t w) := fun _ hw => by
  have hf : Fits [(8, 25), (1, w.toNat), (1, 0), (1, t.toNat), (5, 0), (5, a.toNat), (5, d.toNat), (6, 1)] :=
    ⟨by decide, w.toNat_lt, by decide, t.toNat_lt, by decide, a.isLt, d.isLt, by decide, trivial⟩
  have hm := fldN_pack _ hf
  refine decode_word _ hf rfl _ (by simp only [pack]; omega) _ (by simp only [isCommandWord, show _ = 1 from hm 26 6]; rfl) ?_ hw
  rw [major_decIntR _ (hm 26 6)]
  simp only [decIntR, show _ = 25 from hm 0 8, show _ = 0 from hm 9 1, show _ = 0 from hm 11 5, bit_is _ 8 w (hm 8 1), bit_is _ 10 t (hm 10 1), fld_is _ 16 5 a (hm 16 5), fld_is _ 21 5 d (hm 21 5)]
  rfl

theorem ctz (d : BitVec 5) (a : BitVec 5) (t : Bool) (w : Bool) : Statement (.ctz d a t w) := fun _ hw => by
  have hf : Fits [(8, 26), (1, w.toNat), (1, 0), (1, t.toNat), (5, 0), (5, a.toNat), (5, d.toNat), (6, 1)] :=
    ⟨by decide, w.toNat_lt, by decide, t.toNat_lt, by decide, a.isLt, d.isLt, by decide, trivial⟩
  have hm := fldN_pack _ hf
  refine decode_word _ hf rfl _ (by simp only [pack]; omega) _ (by simp only [isCommandWord, show _ = 1 from hm 26 6]; rfl) ?_ hw
  rw [major_decIntR _ (hm 26 6)]
  simp only [decIntR, show _ = 26 from hm 0 8, show _ = 0 from hm 9 1, show _ = 0 from hm 11 5, bit_is _ 8 w (hm 8 1), bit_is _ 10 t (hm 10 1), fld_is _ 16 5 a (hm 16 5), fld_is _ 21 5 d (hm 21 5)]
  rfl

theorem popc (d : BitVec 5) (a : BitVec 5) (t : Bool) (w : Bool) : Statement (.popc d a t w) := fun _ hw => by
  have hf : Fits [(8, 27), (1, w.toNat), (1, 0), (1, t.toNat), (5, 0), (5, a.toNat), (5, d.toNat), (6, 1)] :=
    ⟨by decide, w.toNat_lt, by decide, t.toNat_lt, by decide, a.isLt, d.isLt, by decide, trivial⟩
  have hm := fldN_pack _ hf
  refine decode_word _ hf rfl _ (by simp only [pack]; omega) _ (by simp only [isCommandWord, show _ = 1 from hm 26 6]; rfl) ?_ hw
  rw [major_decIntR _ (hm 26 6)]
  simp only [decIntR, show _ = 27 from hm 0 8, show _ = 0 from hm 9 1, show _ = 0 from hm 11 5, bit_is _ 8 w (hm 8 1), bit_is _ 10 t (hm 10 1), fld_is _ 16 5 a (hm 16 5), fld_is _ 21 5 d (hm 21 5)]
  rfl

theorem bswap (d : BitVec 5) (a : BitVec 5) (t : Bool) : Statement (.bswap d a t) := fun _ hw => by
  have hf : Fits [(8, 28), (2, 0), (1, t.toNat), (5, 0), (5, a.toNat), (5, d.toNat), (6, 1)] :=
    ⟨by decide, by decide, t.toNat_lt, by decide, a.isLt, d.isLt, by decide, trivial⟩
  have hm := fldN_pack _ hf
  refine decode_word _ hf rfl _ (by simp only [pack]; omega) _ (by simp only [isCommandWord, show _ = 1 from hm 26 6]; rfl) ?_ hw
  rw [major_decIntR _ (hm 26 6)]
  simp only [decIntR, show _ = 28 from hm 0 8, show _ = 0 from hm 8 2, show _ = 0 from hm 11 5, bit_is _ 10 t (hm 10 1), fld_is _ 16 5 a (hm 16 5), fld_is _ 21 5 d (hm 21 5)]
  rfl

theorem sext (d : BitVec 5) (a : BitVec 5) (s : BitVec 5) (t : Bool) : Statement (.sext d a s t) := fun _ hw => by
  have hf : Fits [(8, 29), (2, 0), (1, t.toNat), (5, s.toNat), (5, a.toNat), (5, d.toNat), (6, 1)] :=
    ⟨by decide, by decide, t.toNat_lt, s.isLt, a.isLt, d.isLt, by decide, trivial⟩
  have hm := fldN_pack _ hf
  refine decode_word _ hf rfl _ (by simp only [pack]; omega) _ (by simp only [isCommandWord, show _ = 1 from hm 26 6]; rfl) ?_ hw
  rw [major_decIntR _ (hm 26 6)]
  simp only [decIntR, show _ = 29 from hm 0 8, show _ = 0 from hm 8 2, bit_is _ 10 t (hm 10 1), fld_is _ 11 5 s (hm 11 5), fld_is _ 16 5 a (hm 16 5), fld_is _ 21 5 d (hm 21 5)]
  rfl

theorem zext (d : BitVec 5) (a : BitVec 5) (s : BitVec 5) (t : Bool) : Statement (.zext d a s t) := fun _ hw => by
  have hf : Fits [(8, 30), (2, 0), (1, t.toNat), (5, s.toNat), (5, a.toNat), (5, d.toNat), (6, 1)] :=
    ⟨by decide, by decide, t.toNat_lt, s.isLt, a.isLt, d.isLt, by decide, trivial⟩
  have hm := fldN_pack _ hf
  refine decode_word _ hf rfl _ (by simp only [pack]; omega) _ (by simp only [isCommandWord, show _ = 1 from hm 26 6]; rfl) ?_ hw
  rw [major_decIntR _ (hm 26 6)]
  simp only [decIntR, show _ = 30 from hm 0 8, show _ = 0 from hm 8 2, bit_is _ 10 t (hm 10 1), fld_is _ 11 5 s (hm 11 5), fld_is _ 16 5 a (hm 16 5), fld_is _ 21 5 d (hm 21 5)]
  rfl

theorem cmov (d : BitVec 5) (a : BitVec 5) (b : BitVec 5) (t : Bool) (u : Bool) : Statement (.cmov d a b t u) := fun _ hw => by
  have hf : Fits [(8, 31), (1, 0), (1, u.toNat), (1, t.toNat), (5, b.toNat), (5, a.toNat), (5, d.toNat), (6, 1)] :=
    ⟨by decide, by decide, u.toNat_lt, t.toNat_lt, b.isLt, a.isLt, d.isLt, by decide, trivial⟩
  have hm := fldN_pack _ hf
  refine decode_word _ hf rfl _ (by simp only [pack]; omega) _ (by simp only [isCommandWord, show _ = 1 from hm 26 6]; rfl) ?_ hw
  rw [major_decIntR _ (hm 26 6)]
  simp only [decIntR, show _ = 31 from hm 0 8, show _ = 0 from hm 8 1, bit_is _ 9 u (hm 9 1), bit_is _ 10 t (hm 10 1), fld_is _ 11 5 b (hm 11 5), fld_is _ 16 5 a (hm 16 5), fld_is _ 21 5 d (hm 21 5)]
  rfl

theorem hmix (d : BitVec 5) (a : BitVec 5) (b : BitVec 5) (t : Bool) (u : Bool) : Statement (.hmix d a b t u) := fun _ hw => by
  have hf : Fits [(8, 32), (1, 0), (1, u.toNat), (1, t.toNat), (5, b.toNat), (5, a.toNat), (5, d.toNat), (6, 1)] :=
    ⟨by decide, by decide, u.toNat_lt, t.toNat_lt, b.isLt, a.isLt, d.isLt, by decide, trivial⟩
  have hm := fldN_pack _ hf
  refine decode_word _ hf rfl _ (by simp only [pack]; omega) _ (by simp only [isCommandWord, show _ = 1 from hm 26 6]; rfl) ?_ hw
  rw [major_decIntR _ (hm 26 6)]
  simp only [decIntR, show _ = 32 from hm 0 8, show _ = 0 from hm 8 1, bit_is _ 9 u (hm 9 1), bit_is _ 10 t (hm 10 1), fld_is _ 11 5 b (hm 11 5), fld_is _ 16 5 a (hm 16 5), fld_is _ 21 5 d (hm 21 5)]
  rfl

theorem crc32c (d : BitVec 5) (a : BitVec 5) (b : BitVec 5) (t : Bool) (u : Bool) : Statement (.crc32c d a b t u) := fun _ hw => by
  have hf : Fits [(8, 33), (1, 0), (1, u.toNat), (1, t.toNat), (5, b.toNat), (5, a.toNat), (5, d.toNat), (6, 1)] :=
    ⟨by decide, by decide, u.toNat_lt, t.toNat_lt, b.isLt, a.isLt, d.isLt, by decide, trivial⟩
  have hm := fldN_pack _ hf
  refine decode_word _ hf rfl _ (by simp only [pack]; omega) _ (by simp only [isCommandWord, show _ = 1 from hm 26 6]; rfl) ?_ hw
  rw [major_decIntR _ (hm 26 6)]
  simp only [decIntR, show _ = 33 from hm 0 8, show _ = 0 from hm 8 1, bit_is _ 9 u (hm 9 1), bit_is _ 10 t (hm 10 1), fld_is _ 11 5 b (hm 11 5), fld_is _ 16 5 a (hm 16 5), fld_is _ 21 5 d (hm 21 5)]
  rfl

theorem addi (d : BitVec 5) (a : BitVec 5) (t : Bool) (i : BitVec 15) : Statement (.addi d a t i) := fun _ hw => by
  have hf : Fits [(15, i.toNat), (1, t.toNat), (5, a.toNat), (5, d.toNat), (6, 2)] :=
    ⟨i.isLt, t.toNat_lt, a.isLt, d.isLt, by decide, trivial⟩
  have hm := fldN_pack _ hf
  refine decode_word _ hf rfl _ (by simp only [pack]; omega) _ (by simp only [isCommandWord, show _ = 2 from hm 26 6]; rfl) ?_ hw
  simp only [decWord, show _ = 2 from hm 26 6, fld_is _ 0 15 i (hm 0 15), bit_is _ 15 t (hm 15 1), fld_is _ 16 5 a (hm 16 5), fld_is _ 21 5 d (hm 21 5)]

theorem andi (d : BitVec 5) (a : BitVec 5) (t : Bool) (i : BitVec 15) : Statement (.andi d a t i) := fun _ hw => by
  have hf : Fits [(15, i.toNat), (1, t.toNat), (5, a.toNat), (5, d.toNat), (6, 3)] :=
    ⟨i.isLt, t.toNat_lt, a.isLt, d.isLt, by decide, trivial⟩
  have hm := fldN_pack _ hf
  refine decode_word _ hf rfl _ (by simp only [pack]; omega) _ (by simp only [isCommandWord, show _ = 3 from hm 26 6]; rfl) ?_ hw
  simp only [decWord, show _ = 3 from hm 26 6, fld_is _ 0 15 i (hm 0 15), bit_is _ 15 t (hm 15 1), fld_is _ 16 5 a (hm 16 5), fld_is _ 21 5 d (hm 21 5)]

theorem ori (d : BitVec 5) (a : BitVec 5) (t : Bool) (i : BitVec 15) : Statement (.ori d a t i) := fun _ hw => by
  have hf : Fits [(15, i.toNat), (1, t.toNat), (5, a.toNat), (5, d.toNat), (6, 4)] :=
    ⟨i.isLt, t.toNat_lt, a.isLt, d.isLt, by decide, trivial⟩
  have hm := fldN_pack _ hf
  refine decode_word _ hf rfl _ (by simp only [pack]; omega) _ (by simp only [isCommandWord, show _ = 4 from hm 26 6]; rfl) ?_ hw
  simp only [decWord, show _ = 4 from hm 26 6, fld_is _ 0 15 i (hm 0 15), bit_is _ 15 t (hm 15 1), fld_is _ 16 5 a (hm 16 5), fld_is _ 21 5 d (hm 21 5)]

theorem xori (d : BitVec 5) (a : BitVec 5) (t : Bool) (i : BitVec 15) : Statement (.xori d a t i) := fun _ hw => by
  have hf : Fits [(15, i.toNat), (1, t.toNat), (5, a.toNat), (5, d.toNat), (6, 5)] :=
    ⟨i.isLt, t.toNat_lt, a.isLt, d.isLt, by decide, trivial⟩
  have hm := fldN_pack _ hf
  refine decode_word _ hf rfl _ (by simp only [pack]; omega) _ (by simp only [isCommandWord, show _ = 5 from hm 26 6]; rfl) ?_ hw
  simp only [decWord, show _ = 5 from hm 26 6, fld_is _ 0 15 i (hm 0 15), bit_is _ 15 t (hm 15 1), fld_is _ 16 5 a (hm 16 5), fld_is _ 21 5 d (hm 21 5)]

theorem slti (d : BitVec 5) (a : BitVec 5) (t : Bool) (i : BitVec 15) : Statement (.slti d a t i) := fun _ hw => by
  have hf : Fits [(15, i.toNat), (1, t.toNat), (5, a.toNat), (5, d.toNat), (6, 6)] :=
    ⟨i.isLt, t.toNat_lt, a.isLt, d.isLt, by decide, trivial⟩
  have hm := fldN_pack _ hf
  refine decode_word _ hf rfl _ (by simp only [pack]; omega) _ (by simp only [isCommandWord, show _ = 6 from hm 26 6]; rfl) ?_ hw
  simp only [decWord, show _ = 6 from hm 26 6, fld_is _ 0 15 i (hm 0 15), bit_is _ 15 t (hm 15 1), fld_is _ 16 5 a (hm 16 5), fld_is _ 21 5 d (hm 21 5)]

theorem sltiu (d : BitVec 5) (a : BitVec 5) (t : Bool) (i : BitVec 15) : Statement (.sltiu d a t i) := fun _ hw => by
  have hf : Fits [(15, i.toNat), (1, t.toNat), (5, a.toNat), (5, d.toNat), (6, 7)] :=
    ⟨i.isLt, t.toNat_lt, a.isLt, d.isLt, by decide, trivial⟩
  have hm := fldN_pack _ hf
  refine decode_word _ hf rfl _ (by simp only [pack]; omega) _ (by simp only [isCommandWord, show _ = 7 from hm 26 6]; rfl) ?_ hw
  simp only [decWord, show _ = 7 from hm 26 6, fld_is _ 0 15 i (hm 0 15), bit_is _ 15 t (hm 15 1), fld_is _ 16 5 a (hm 16 5), fld_is _ 21 5 d (hm 21 5)]

theorem slli (d : BitVec 5) (a : BitVec 5) (t : Bool) (n : BitVec 6) (w : Bool) : Statement (.slli d a t n w) := fun _ hw => by
  have hf : Fits [(5, 0), (1, w.toNat), (6, n.toNat), (3, 0), (1, t.toNat), (5, a.toNat), (5, d.toNat), (6, 8)] :=
    ⟨by decide, w.toNat_lt, n.isLt, by decide, t.toNat_lt, a.isLt, d.isLt, by decide, trivial⟩
  have hm := fldN_pack _ hf
  refine decode_word _ hf rfl _ (by simp only [pack]; omega) _ (by simp only [isCommandWord, show _ = 8 from hm 26 6]; rfl) ?_ hw
  rw [major_decShi _ (hm 26 6)]
  simp only [decShi, show _ = 0 from hm 12 3, show _ = 0 from hm 0 5, bit_is _ 5 w (hm 5 1), fld_is _ 6 6 n (hm 6 6), bit_is _ 15 t (hm 15 1), fld_is _ 16 5 a (hm 16 5), fld_is _ 21 5 d (hm 21 5)]
  rfl

theorem srli (d : BitVec 5) (a : BitVec 5) (t : Bool) (n : BitVec 6) (w : Bool) : Statement (.srli d a t n w) := fun _ hw => by
  have hf : Fits [(5, 0), (1, w.toNat), (6, n.toNat), (3, 1), (1, t.toNat), (5, a.toNat), (5, d.toNat), (6, 8)] :=
    ⟨by decide, w.toNat_lt, n.isLt, by decide, t.toNat_lt, a.isLt, d.isLt, by decide, trivial⟩
  have hm := fldN_pack _ hf
  refine decode_word _ hf rfl _ (by simp only [pack]; omega) _ (by simp only [isCommandWord, show _ = 8 from hm 26 6]; rfl) ?_ hw
  rw [major_decShi _ (hm 26 6)]
  simp only [decShi, show _ = 1 from hm 12 3, show _ = 0 from hm 0 5, bit_is _ 5 w (hm 5 1), fld_is _ 6 6 n (hm 6 6), bit_is _ 15 t (hm 15 1), fld_is _ 16 5 a (hm 16 5), fld_is _ 21 5 d (hm 21 5)]
  rfl

theorem srai (d : BitVec 5) (a : BitVec 5) (t : Bool) (n : BitVec 6) (w : Bool) : Statement (.srai d a t n w) := fun _ hw => by
  have hf : Fits [(5, 0), (1, w.toNat), (6, n.toNat), (3, 2), (1, t.toNat), (5, a.toNat), (5, d.toNat), (6, 8)] :=
    ⟨by decide, w.toNat_lt, n.isLt, by decide, t.toNat_lt, a.isLt, d.isLt, by decide, trivial⟩
  have hm := fldN_pack _ hf
  refine decode_word _ hf rfl _ (by simp only [pack]; omega) _ (by simp only [isCommandWord, show _ = 8 from hm 26 6]; rfl) ?_ hw
  rw [major_decShi _ (hm 26 6)]
  simp only [decShi, show _ = 2 from hm 12 3, show _ = 0 from hm 0 5, bit_is _ 5 w (hm 5 1), fld_is _ 6 6 n (hm 6 6), bit_is _ 15 t (hm 15 1), fld_is _ 16 5 a (hm 16 5), fld_is _ 21 5 d (hm 21 5)]
  rfl

theorem rori (d : BitVec 5) (a : BitVec 5) (t : Bool) (n : BitVec 6) (w : Bool) : Statement (.rori d a t n w) := fun _ hw => by
  have hf : Fits [(5, 0), (1, w.toNat), (6, n.toNat), (3, 3), (1, t.toNat), (5, a.toNat), (5, d.toNat), (6, 8)] :=
    ⟨by decide, w.toNat_lt, n.isLt, by decide, t.toNat_lt, a.isLt, d.isLt, by decide, trivial⟩
  have hm := fldN_pack _ hf
  refine decode_word _ hf rfl _ (by simp only [pack]; omega) _ (by simp only [isCommandWord, show _ = 8 from hm 26 6]; rfl) ?_ hw
  rw [major_decShi _ (hm 26 6)]
  simp only [decShi, show _ = 3 from hm 12 3, show _ = 0 from hm 0 5, bit_is _ 5 w (hm 5 1), fld_is _ 6 6 n (hm 6 6), bit_is _ 15 t (hm 15 1), fld_is _ 16 5 a (hm 16 5), fld_is _ 21 5 d (hm 21 5)]
  rfl

theorem movhi (d : BitVec 5) (i : BitVec 21) : Statement (.movhi d i) := fun _ hw => by
  have hf : Fits [(21, i.toNat), (5, d.toNat), (6, 9)] :=
    ⟨i.isLt, d.isLt, by decide, trivial⟩
  have hm := fldN_pack _ hf
  refine decode_word _ hf rfl _ (by simp only [pack]; omega) _ (by simp only [isCommandWord, show _ = 9 from hm 26 6]; rfl) ?_ hw
  simp only [decWord, show _ = 9 from hm 26 6, fld_is _ 0 21 i (hm 0 21), fld_is _ 21 5 d (hm 21 5)]

theorem addpc (d : BitVec 5) (i : BitVec 21) : Statement (.addpc d i) := fun _ hw => by
  have hf : Fits [(21, i.toNat), (5, d.toNat), (6, 10)] :=
    ⟨i.isLt, d.isLt, by decide, trivial⟩
  have hm := fldN_pack _ hf
  refine decode_word _ hf rfl _ (by simp only [pack]; omega) _ (by simp only [isCommandWord, show _ = 10 from hm 26 6]; rfl) ?_ hw
  simp only [decWord, show _ = 10 from hm 26 6, fld_is _ 0 21 i (hm 0 21), fld_is _ 21 5 d (hm 21 5)]

theorem fadd (d : BitVec 5) (a : BitVec 5) (b : BitVec 5) (t : Bool) (u : Bool) (p : Bool) (m : BitVec 3) : Statement (.fadd d a b t u p m) := fun _ hw => by
  have hf : Fits [(5, 0), (3, m.toNat), (1, p.toNat), (1, u.toNat), (1, t.toNat), (5, b.toNat), (5, a.toNat), (5, d.toNat), (6, 11)] :=
    ⟨by decide, m.isLt, p.toNat_lt, u.toNat_lt, t.toNat_lt, b.isLt, a.isLt, d.isLt, by decide, trivial⟩
  have hm := fldN_pack _ hf
  refine decode_word _ hf rfl _ (by simp only [pack]; omega) _ (by simp only [isCommandWord, show _ = 11 from hm 26 6]; rfl) ?_ hw
  rw [major_decFpR _ (hm 26 6)]
  simp only [decFpR, show _ = 0 from hm 0 5, fld_is _ 5 3 m (hm 5 3), bit_is _ 8 p (hm 8 1), bit_is _ 9 u (hm 9 1), bit_is _ 10 t (hm 10 1), fld_is _ 11 5 b (hm 11 5), fld_is _ 16 5 a (hm 16 5), fld_is _ 21 5 d (hm 21 5)]

theorem fsub (d : BitVec 5) (a : BitVec 5) (b : BitVec 5) (t : Bool) (u : Bool) (p : Bool) (m : BitVec 3) : Statement (.fsub d a b t u p m) := fun _ hw => by
  have hf : Fits [(5, 1), (3, m.toNat), (1, p.toNat), (1, u.toNat), (1, t.toNat), (5, b.toNat), (5, a.toNat), (5, d.toNat), (6, 11)] :=
    ⟨by decide, m.isLt, p.toNat_lt, u.toNat_lt, t.toNat_lt, b.isLt, a.isLt, d.isLt, by decide, trivial⟩
  have hm := fldN_pack _ hf
  refine decode_word _ hf rfl _ (by simp only [pack]; omega) _ (by simp only [isCommandWord, show _ = 11 from hm 26 6]; rfl) ?_ hw
  rw [major_decFpR _ (hm 26 6)]
  simp only [decFpR, show _ = 1 from hm 0 5, fld_is _ 5 3 m (hm 5 3), bit_is _ 8 p (hm 8 1), bit_is _ 9 u (hm 9 1), bit_is _ 10 t (hm 10 1), fld_is _ 11 5 b (hm 11 5), fld_is _ 16 5 a (hm 16 5), fld_is _ 21 5 d (hm 21 5)]

theorem fmul (d : BitVec 5) (a : BitVec 5) (b : BitVec 5) (t : Bool) (u : Bool) (p : Bool) (m : BitVec 3) : Statement (.fmul d a b t u p m) := fun _ hw => by
  have hf : Fits [(5, 2), (3, m.toNat), (1, p.toNat), (1, u.toNat), (1, t.toNat), (5, b.toNat), (5, a.toNat), (5, d.toNat), (6, 11)] :=
    ⟨by decide, m.isLt, p.toNat_lt, u.toNat_lt, t.toNat_lt, b.isLt, a.isLt, d.isLt, by decide, trivial⟩
  have hm := fldN_pack _ hf
  refine decode_word _ hf rfl _ (by simp only [pack]; omega) _ (by simp only [isCommandWord, show _ = 11 from hm 26 6]; rfl) ?_ hw
  rw [major_decFpR _ (hm 26 6)]
  simp only [decFpR, show _ = 2 from hm 0 5, fld_is _ 5 3 m (hm 5 3), bit_is _ 8 p (hm 8 1), bit_is _ 9 u (hm 9 1), bit_is _ 10 t (hm 10 1), fld_is _ 11 5 b (hm 11 5), fld_is _ 16 5 a (hm 16 5), fld_is _ 21 5 d (hm 21 5)]

theorem fdiv (d : BitVec 5) (a : BitVec 5) (b : BitVec 5) (t : Bool) (u : Bool) (p : Bool) (m : BitVec 3) : Statement (.fdiv d a b t u p m) := fun _ hw => by
  have hf : Fits [(5, 3), (3, m.toNat), (1, p.toNat), (1, u.toNat), (1, t.toNat), (5, b.toNat), (5, a.toNat), (5, d.toNat), (6, 11)] :=
    ⟨by decide, m.isLt, p.toNat_lt, u.toNat_lt, t.toNat_lt, b.isLt, a.isLt, d.isLt, by decide, trivial⟩
  have hm := fldN_pack _ hf
  refine decode_word _ hf rfl _ (by simp only [pack]; omega) _ (by simp only [isCommandWord, show _ = 11 from hm 26 6]; rfl) ?_ hw
  rw [major_decFpR _ (hm 26 6)]
  simp only [decFpR, show _ = 3 from hm 0 5, fld_is _ 5 3 m (hm 5 3), bit_is _ 8 p (hm 8 1), bit_is _ 9 u (hm 9 1), bit_is _ 10 t (hm 10 1), fld_is _ 11 5 b (hm 11 5), fld_is _ 16 5 a (hm 16 5), fld_is _ 21 5 d (hm 21 5)]

theorem fsqrt (d : BitVec 5) (a : BitVec 5) (t : Bool) (p : Bool) (m : BitVec 3) : Statement (.fsqrt d a t p m) := fun _ hw => by
  have hf : Fits [(5, 4), (3, m.toNat), (1, p.toNat), (1, 0), (1, t.toNat), (5, 0), (5, a.toNat), (5, d.toNat), (6, 11)] :=
    ⟨by decide, m.isLt, p.toNat_lt, by decide, t.toNat_lt, by decide, a.isLt, d.isLt, by decide, trivial⟩
  have hm := fldN_pack _ hf
  refine decode_word _ hf rfl _ (by simp only [pack]; omega) _ (by simp only [isCommandWord, show _ = 11 from hm 26 6]; rfl) ?_ hw
  rw [major_decFpR _ (hm 26 6)]
  simp only [decFpR, show _ = 4 from hm 0 5, show _ = 0 from hm 9 1, show _ = 0 from hm 11 5, fld_is _ 5 3 m (hm 5 3), bit_is _ 8 p (hm 8 1), bit_is _ 10 t (hm 10 1), fld_is _ 16 5 a (hm 16 5), fld_is _ 21 5 d (hm 21 5)]
  rfl

theorem fma (d : BitVec 5) (a : BitVec 5) (b : BitVec 5) (t : Bool) (u : Bool) (p : Bool) (m : BitVec 3) : Statement (.fma d a b t u p m) := fun _ hw => by
  have hf : Fits [(5, 5), (3, m.toNat), (1, p.toNat), (1, u.toNat), (1, t.toNat), (5, b.toNat), (5, a.toNat), (5, d.toNat), (6, 11)] :=
    ⟨by decide, m.isLt, p.toNat_lt, u.toNat_lt, t.toNat_lt, b.isLt, a.isLt, d.isLt, by decide, trivial⟩
  have hm := fldN_pack _ hf
  refine decode_word _ hf rfl _ (by simp only [pack]; omega) _ (by simp only [isCommandWord, show _ = 11 from hm 26 6]; rfl) ?_ hw
  rw [major_decFpR _ (hm 26 6)]
  simp only [decFpR, show _ = 5 from hm 0 5, fld_is _ 5 3 m (hm 5 3), bit_is _ 8 p (hm 8 1), bit_is _ 9 u (hm 9 1), bit_is _ 10 t (hm 10 1), fld_is _ 11 5 b (hm 11 5), fld_is _ 16 5 a (hm 16 5), fld_is _ 21 5 d (hm 21 5)]

theorem fnma (d : BitVec 5) (a : BitVec 5) (b : BitVec 5) (t : Bool) (u : Bool) (p : Bool) (m : BitVec 3) : Statement (.fnma d a b t u p m) := fun _ hw => by
  have hf : Fits [(5, 6), (3, m.toNat), (1, p.toNat), (1, u.toNat), (1, t.toNat), (5, b.toNat), (5, a.toNat), (5, d.toNat), (6, 11)] :=
    ⟨by decide, m.isLt, p.toNat_lt, u.toNat_lt, t.toNat_lt, b.isLt, a.isLt, d.isLt, by decide, trivial⟩
  have hm := fldN_pack _ hf
  refine decode_word _ hf rfl _ (by simp only [pack]; omega) _ (by simp only [isCommandWord, show _ = 11 from hm 26 6]; rfl) ?_ hw
  rw [major_decFpR _ (hm 26 6)]
  simp only [decFpR, show _ = 6 from hm 0 5, fld_is _ 5 3 m (hm 5 3), bit_is _ 8 p (hm 8 1), bit_is _ 9 u (hm 9 1), bit_is _ 10 t (hm 10 1), fld_is _ 11 5 b (hm 11 5), fld_is _ 16 5 a (hm 16 5), fld_is _ 21 5 d (hm 21 5)]

theorem fmin (d : BitVec 5) (a : BitVec 5) (b : BitVec 5) (t : Bool) (u : Bool) (p : Bool) : Statement (.fmin d a b t u p) := fun _ hw => by
  have hf : Fits [(5, 7), (3, 0), (1, p.toNat), (1, u.toNat), (1, t.toNat), (5, b.toNat), (5, a.toNat), (5, d.toNat), (6, 11)] :=
    ⟨by decide, by decide, p.toNat_lt, u.toNat_lt, t.toNat_lt, b.isLt, a.isLt, d.isLt, by decide, trivial⟩
  have hm := fldN_pack _ hf
  refine decode_word _ hf rfl _ (by simp only [pack]; omega) _ (by simp only [isCommandWord, show _ = 11 from hm 26 6]; rfl) ?_ hw
  rw [major_decFpR _ (hm 26 6)]
  simp only [decFpR, show _ = 7 from hm 0 5, show _ = 0 from hm 5 3, bit_is _ 8 p (hm 8 1), bit_is _ 9 u (hm 9 1), bit_is _ 10 t (hm 10 1), fld_is _ 11 5 b (hm 11 5), fld_is _ 16 5 a (hm 16 5), fld_is _ 21 5 d (hm 21 5)]
  rfl

theorem fmax (d : BitVec 5) (a : BitVec 5) (b : BitVec 5) (t : Bool) (u : Bool) (p : Bool) : Statement (.fmax d a b t u p) := fun _ hw => by
  have hf : Fits [(5, 8), (3, 0), (1, p.toNat), (1, u.toNat), (1, t.toNat), (5, b.toNat), (5, a.toNat), (5, d.toNat), (6, 11)] :=
    ⟨by decide, by decide, p.toNat_lt, u.toNat_lt, t.toNat_lt, b.isLt, a.isLt, d.isLt, by decide, trivial⟩
  have hm := fldN_pack _ hf
  refine decode_word _ hf rfl _ (by simp only [pack]; omega) _ (by simp only [isCommandWord, show _ = 11 from hm 26 6]; rfl) ?_ hw
  rw [major_decFpR _ (hm 26 6)]
  simp only [decFpR, show _ = 8 from hm 0 5, show _ = 0 from hm 5 3, bit_is _ 8 p (hm 8 1), bit_is _ 9 u (hm 9 1), bit_is _ 10 t (hm 10 1), fld_is _ 11 5 b (hm 11 5), fld_is _ 16 5 a (hm 16 5), fld_is _ 21 5 d (hm 21 5)]
  rfl

theorem feq (d : BitVec 5) (a : BitVec 5) (b : BitVec 5) (t : Bool) (u : Bool) (p : Bool) : Statement (.feq d a b t u p) := fun _ hw => by
  have hf : Fits [(5, 9), (3, 0), (1, p.toNat), (1, u.toNat), (1, t.toNat), (5, b.toNat), (5, a.toNat), (5, d.toNat), (6, 11)] :=
    ⟨by decide, by decide, p.toNat_lt, u.toNat_lt, t.toNat_lt, b.isLt, a.isLt, d.isLt, by decide, trivial⟩
  have hm := fldN_pack _ hf
  refine decode_word _ hf rfl _ (by simp only [pack]; omega) _ (by simp only [isCommandWord, show _ = 11 from hm 26 6]; rfl) ?_ hw
  rw [major_decFpR _ (hm 26 6)]
  simp only [decFpR, show _ = 9 from hm 0 5, show _ = 0 from hm 5 3, bit_is _ 8 p (hm 8 1), bit_is _ 9 u (hm 9 1), bit_is _ 10 t (hm 10 1), fld_is _ 11 5 b (hm 11 5), fld_is _ 16 5 a (hm 16 5), fld_is _ 21 5 d (hm 21 5)]
  rfl

theorem flt (d : BitVec 5) (a : BitVec 5) (b : BitVec 5) (t : Bool) (u : Bool) (p : Bool) : Statement (.flt d a b t u p) := fun _ hw => by
  have hf : Fits [(5, 10), (3, 0), (1, p.toNat), (1, u.toNat), (1, t.toNat), (5, b.toNat), (5, a.toNat), (5, d.toNat), (6, 11)] :=
    ⟨by decide, by decide, p.toNat_lt, u.toNat_lt, t.toNat_lt, b.isLt, a.isLt, d.isLt, by decide, trivial⟩
  have hm := fldN_pack _ hf
  refine decode_word _ hf rfl _ (by simp only [pack]; omega) _ (by simp only [isCommandWord, show _ = 11 from hm 26 6]; rfl) ?_ hw
  rw [major_decFpR _ (hm 26 6)]
  simp only [decFpR, show _ = 10 from hm 0 5, show _ = 0 from hm 5 3, bit_is _ 8 p (hm 8 1), bit_is _ 9 u (hm 9 1), bit_is _ 10 t (hm 10 1), fld_is _ 11 5 b (hm 11 5), fld_is _ 16 5 a (hm 16 5), fld_is _ 21 5 d (hm 21 5)]
  rfl

theorem fle (d : BitVec 5) (a : BitVec 5) (b : BitVec 5) (t : Bool) (u : Bool) (p : Bool) : Statement (.fle d a b t u p) := fun _ hw => by
  have hf : Fits [(5, 11), (3, 0), (1, p.toNat), (1, u.toNat), (1, t.toNat), (5, b.toNat), (5, a.toNat), (5, d.toNat), (6, 11)] :=
    ⟨by decide, by decide, p.toNat_lt, u.toNat_lt, t.toNat_lt, b.isLt, a.isLt, d.isLt, by decide, trivial⟩
  have hm := fldN_pack _ hf
  refine decode_word _ hf rfl _ (by simp only [pack]; omega) _ (by simp only [isCommandWord, show _ = 11 from hm 26 6]; rfl) ?_ hw
  rw [major_decFpR _ (hm 26 6)]
  simp only [decFpR, show _ = 11 from hm 0 5, show _ = 0 from hm 5 3, bit_is _ 8 p (hm 8 1), bit_is _ 9 u (hm 9 1), bit_is _ 10 t (hm 10 1), fld_is _ 11 5 b (hm 11 5), fld_is _ 16 5 a (hm 16 5), fld_is _ 21 5 d (hm 21 5)]
  rfl

theorem fcvt (d : BitVec 5) (a : BitVec 5) (s : BitVec 5) (t : Bool) (p : Bool) (m : BitVec 3) : Statement (.fcvt d a s t p m) := fun _ hw => by
  have hf : Fits [(5, 12), (3, m.toNat), (1, p.toNat), (1, 0), (1, t.toNat), (5, s.toNat), (5, a.toNat), (5, d.toNat), (6, 11)] :=
    ⟨by decide, m.isLt, p.toNat_lt, by decide, t.toNat_lt, s.isLt, a.isLt, d.isLt, by decide, trivial⟩
  have hm := fldN_pack _ hf
  refine decode_word _ hf rfl _ (by simp only [pack]; omega) _ (by simp only [isCommandWord, show _ = 11 from hm 26 6]; rfl) ?_ hw
  rw [major_decFpR _ (hm 26 6)]
  simp only [decFpR, show _ = 12 from hm 0 5, show _ = 0 from hm 9 1, fld_is _ 5 3 m (hm 5 3), bit_is _ 8 p (hm 8 1), bit_is _ 10 t (hm 10 1), fld_is _ 11 5 s (hm 11 5), fld_is _ 16 5 a (hm 16 5), fld_is _ 21 5 d (hm 21 5)]
  rfl

theorem fclass (d : BitVec 5) (a : BitVec 5) (t : Bool) (p : Bool) : Statement (.fclass d a t p) := fun _ hw => by
  have hf : Fits [(5, 13), (3, 0), (1, p.toNat), (1, 0), (1, t.toNat), (5, 0), (5, a.toNat), (5, d.toNat), (6, 11)] :=
    ⟨by decide, by decide, p.toNat_lt, by decide, t.toNat_lt, by decide, a.isLt, d.isLt, by decide, trivial⟩
  have hm := fldN_pack _ hf
  refine decode_word _ hf rfl _ (by simp only [pack]; omega) _ (by simp only [isCommandWord, show _ = 11 from hm 26 6]; rfl) ?_ hw
  rw [major_decFpR _ (hm 26 6)]
  simp only [decFpR, show _ = 13 from hm 0 5, show _ = 0 from hm 5 3, show _ = 0 from hm 9 1, show _ = 0 from hm 11 5, bit_is _ 8 p (hm 8 1), bit_is _ 10 t (hm 10 1), fld_is _ 16 5 a (hm 16 5), fld_is _ 21 5 d (hm 21 5)]
  rfl

theorem beq (a : BitVec 5) (b : BitVec 5) (o : BitVec 13) : Statement (.beq a b o) := fun _ hw => by
  have hf : Fits [(13, o.toNat), (3, 0), (5, b.toNat), (5, a.toNat), (6, 12)] :=
    ⟨o.isLt, by decide, b.isLt, a.isLt, by decide, trivial⟩
  have hm := fldN_pack _ hf
  refine decode_word _ hf rfl _ (by simp only [pack]; omega) _ (by simp only [isCommandWord, show _ = 12 from hm 26 6]; rfl) ?_ hw
  rw [major_decBr _ (hm 26 6)]
  simp only [decBr, show _ = 0 from hm 13 3, fld_is _ 0 13 o (hm 0 13), fld_is _ 16 5 b (hm 16 5), fld_is _ 21 5 a (hm 21 5)]

theorem bne (a : BitVec 5) (b : BitVec 5) (o : BitVec 13) : Statement (.bne a b o) := fun _ hw => by
  have hf : Fits [(13, o.toNat), (3, 1), (5, b.toNat), (5, a.toNat), (6, 12)] :=
    ⟨o.isLt, by decide, b.isLt, a.isLt, by decide, trivial⟩
  have hm := fldN_pack _ hf
  refine decode_word _ hf rfl _ (by simp only [pack]; omega) _ (by simp only [isCommandWord, show _ = 12 from hm 26 6]; rfl) ?_ hw
  rw [major_decBr _ (hm 26 6)]
  simp only [decBr, show _ = 1 from hm 13 3, fld_is _ 0 13 o (hm 0 13), fld_is _ 16 5 b (hm 16 5), fld_is _ 21 5 a (hm 21 5)]

theorem blt (a : BitVec 5) (b : BitVec 5) (o : BitVec 13) : Statement (.blt a b o) := fun _ hw => by
  have hf : Fits [(13, o.toNat), (3, 2), (5, b.toNat), (5, a.toNat), (6, 12)] :=
    ⟨o.isLt, by decide, b.isLt, a.isLt, by decide, trivial⟩
  have hm := fldN_pack _ hf
  refine decode_word _ hf rfl _ (by simp only [pack]; omega) _ (by simp only [isCommandWord, show _ = 12 from hm 26 6]; rfl) ?_ hw
  rw [major_decBr _ (hm 26 6)]
  simp only [decBr, show _ = 2 from hm 13 3, fld_is _ 0 13 o (hm 0 13), fld_is _ 16 5 b (hm 16 5), fld_is _ 21 5 a (hm 21 5)]

theorem bge (a : BitVec 5) (b : BitVec 5) (o : BitVec 13) : Statement (.bge a b o) := fun _ hw => by
  have hf : Fits [(13, o.toNat), (3, 3), (5, b.toNat), (5, a.toNat), (6, 12)] :=
    ⟨o.isLt, by decide, b.isLt, a.isLt, by decide, trivial⟩
  have hm := fldN_pack _ hf
  refine decode_word _ hf rfl _ (by simp only [pack]; omega) _ (by simp only [isCommandWord, show _ = 12 from hm 26 6]; rfl) ?_ hw
  rw [major_decBr _ (hm 26 6)]
  simp only [decBr, show _ = 3 from hm 13 3, fld_is _ 0 13 o (hm 0 13), fld_is _ 16 5 b (hm 16 5), fld_is _ 21 5 a (hm 21 5)]

theorem bltu (a : BitVec 5) (b : BitVec 5) (o : BitVec 13) : Statement (.bltu a b o) := fun _ hw => by
  have hf : Fits [(13, o.toNat), (3, 4), (5, b.toNat), (5, a.toNat), (6, 12)] :=
    ⟨o.isLt, by decide, b.isLt, a.isLt, by decide, trivial⟩
  have hm := fldN_pack _ hf
  refine decode_word _ hf rfl _ (by simp only [pack]; omega) _ (by simp only [isCommandWord, show _ = 12 from hm 26 6]; rfl) ?_ hw
  rw [major_decBr _ (hm 26 6)]
  simp only [decBr, show _ = 4 from hm 13 3, fld_is _ 0 13 o (hm 0 13), fld_is _ 16 5 b (hm 16 5), fld_is _ 21 5 a (hm 21 5)]

theorem bgeu (a : BitVec 5) (b : BitVec 5) (o : BitVec 13) : Statement (.bgeu a b o) := fun _ hw => by
  have hf : Fits [(13, o.toNat), (3, 5), (5, b.toNat), (5, a.toNat), (6, 12)] :=
    ⟨o.isLt, by decide, b.isLt, a.isLt, by decide, trivial⟩
  have hm := fldN_pack _ hf
  refine decode_word _ hf rfl _ (by simp only [pack]; omega) _ (by simp only [isCommandWord, show _ = 12 from hm 26 6]; rfl) ?_ hw
  rw [major_decBr _ (hm 26 6)]
  simp only [decBr, show _ = 5 from hm 13 3, fld_is _ 0 13 o (hm 0 13), fld_is _ 16 5 b (hm 16 5), fld_is _ 21 5 a (hm 21 5)]

theorem jal (d : BitVec 5) (o : BitVec 21) : Statement (.jal d o) := fun _ hw => by
  have hf : Fits [(21, o.toNat), (5, d.toNat), (6, 13)] :=
    ⟨o.isLt, d.isLt, by decide, trivial⟩
  have hm := fldN_pack _ hf
  refine decode_word _ hf rfl _ (by simp only [pack]; omega) _ (by simp only [isCommandWord, show _ = 13 from hm 26 6]; rfl) ?_ hw
  simp only [decWord, show _ = 13 from hm 26 6, fld_is _ 0 21 o (hm 0 21), fld_is _ 21 5 d (hm 21 5)]

theorem jalr (d : BitVec 5) (a : BitVec 5) (t : Bool) (i : BitVec 15) : Statement (.jalr d a t i) := fun _ hw => by
  have hf : Fits [(15, i.toNat), (1, t.toNat), (5, a.toNat), (5, d.toNat), (6, 14)] :=
    ⟨i.isLt, t.toNat_lt, a.isLt, d.isLt, by decide, trivial⟩
  have hm := fldN_pack _ hf
  refine decode_word _ hf rfl _ (by simp only [pack]; omega) _ (by simp only [isCommandWord, show _ = 14 from hm 26 6]; rfl) ?_ hw
  simp only [decWord, show _ = 14 from hm 26 6, fld_is _ 0 15 i (hm 0 15), bit_is _ 15 t (hm 15 1), fld_is _ 16 5 a (hm 16 5), fld_is _ 21 5 d (hm 21 5)]

theorem ld (d : BitVec 5) (a : BitVec 5) (z : BitVec 2) (u : Bool) (t : Bool) (o : BitVec 12) : Statement (.ld d a z u t o) := fun _ hw => by
  have hf : Fits [(12, o.toNat), (1, t.toNat), (1, u.toNat), (2, z.toNat), (5, a.toNat), (5, d.toNat), (6, 15)] :=
    ⟨o.isLt, t.toNat_lt, u.toNat_lt, z.isLt, a.isLt, d.isLt, by decide, trivial⟩
  have hm := fldN_pack _ hf
  refine decode_word _ hf rfl _ (by simp only [pack]; omega) _ (by simp only [isCommandWord, show _ = 15 from hm 26 6]; rfl) ?_ hw
  simp only [decWord, show _ = 15 from hm 26 6, fld_is _ 0 12 o (hm 0 12), bit_is _ 12 t (hm 12 1), bit_is _ 13 u (hm 13 1), fld_is _ 14 2 z (hm 14 2), fld_is _ 16 5 a (hm 16 5), fld_is _ 21 5 d (hm 21 5)]

theorem st (s : BitVec 5) (a : BitVec 5) (z : BitVec 2) (t : Bool) (o : BitVec 12) : Statement (.st s a z t o) := fun _ hw => by
  have hf : Fits [(12, o.toNat), (1, t.toNat), (1, 0), (2, z.toNat), (5, a.toNat), (5, s.toNat), (6, 16)] :=
    ⟨o.isLt, t.toNat_lt, by decide, z.isLt, a.isLt, s.isLt, by decide, trivial⟩
  have hm := fldN_pack _ hf
  refine decode_word _ hf rfl _ (by simp only [pack]; omega) _ (by simp only [isCommandWord, show _ = 16 from hm 26 6]; rfl) ?_ hw
  simp only [decWord, show _ = 16 from hm 26 6, show _ = 0 from hm 13 1, fld_is _ 0 12 o (hm 0 12), bit_is _ 12 t (hm 12 1), fld_is _ 14 2 z (hm 14 2), fld_is _ 16 5 a (hm 16 5), fld_is _ 21 5 s (hm 21 5)]
  rfl

theorem ldo (d : BitVec 5) (a : BitVec 5) (z : BitVec 2) (u : Bool) (e : BitVec 2) (c : BitVec 3) (t : Bool) : Statement (.ldo d a z u e c t) := fun _ hw => by
  have hf : Fits [(6, 0), (1, t.toNat), (3, c.toNat), (2, e.toNat), (1, 0), (1, u.toNat), (2, z.toNat), (5, a.toNat), (5, d.toNat), (6, 23)] :=
    ⟨by decide, t.toNat_lt, c.isLt, e.isLt, by decide, u.toNat_lt, z.isLt, a.isLt, d.isLt, by decide, trivial⟩
  have hm := fldN_pack _ hf
  refine decode_word _ hf rfl _ (by simp only [pack]; omega) _ (by simp only [isCommandWord, show _ = 23 from hm 26 6]; rfl) ?_ hw
  rw [major_decLdstO _ (hm 26 6)]
  simp only [decLdstO, show _ = 0 from hm 12 1, show _ = 0 from hm 0 6, bit_is _ 6 t (hm 6 1), fld_is _ 7 3 c (hm 7 3), fld_is _ 10 2 e (hm 10 2), bit_is _ 13 u (hm 13 1), fld_is _ 14 2 z (hm 14 2), fld_is _ 16 5 a (hm 16 5), fld_is _ 21 5 d (hm 21 5)]
  rfl

theorem sto (s : BitVec 5) (a : BitVec 5) (z : BitVec 2) (e : BitVec 2) (c : BitVec 3) (t : Bool) : Statement (.sto s a z e c t) := fun _ hw => by
  have hf : Fits [(6, 0), (1, t.toNat), (3, c.toNat), (2, e.toNat), (1, 1), (1, 0), (2, z.toNat), (5, a.toNat), (5, s.toNat), (6, 23)] :=
    ⟨by decide, t.toNat_lt, c.isLt, e.isLt, by decide, by decide, z.isLt, a.isLt, s.isLt, by decide, trivial⟩
  have hm := fldN_pack _ hf
  refine decode_word _ hf rfl _ (by simp only [pack]; omega) _ (by simp only [isCommandWord, show _ = 23 from hm 26 6]; rfl) ?_ hw
  rw [major_decLdstO _ (hm 26 6)]
  simp only [decLdstO, show _ = 1 from hm 12 1, show _ = 0 from hm 0 6, show _ = 0 from hm 13 1, bit_is _ 6 t (hm 6 1), fld_is _ 7 3 c (hm 7 3), fld_is _ 10 2 e (hm 10 2), fld_is _ 14 2 z (hm 14 2), fld_is _ 16 5 a (hm 16 5), fld_is _ 21 5 s (hm 21 5)]
  rfl

theorem amoSwap (d : BitVec 5) (a : BitVec 5) (b : BitVec 5) (z : Bool) (e : BitVec 2) (c : BitVec 3) (t : Bool) : Statement (.amoSwap d a b z e c t) := fun _ hw => by
  have hf : Fits [(1, t.toNat), (3, c.toNat), (2, e.toNat), (1, z.toNat), (4, 0), (5, b.toNat), (5, a.toNat), (5, d.toNat), (6, 17)] :=
    ⟨t.toNat_lt, c.isLt, e.isLt, z.toNat_lt, by decide, b.isLt, a.isLt, d.isLt, by decide, trivial⟩
  have hm := fldN_pack _ hf
  refine decode_word _ hf rfl _ (by simp only [pack]; omega) _ (by simp only [isCommandWord, show _ = 17 from hm 26 6]; rfl) ?_ hw
  rw [major_decAmo _ (hm 26 6)]
  simp only [decAmo, show _ = 0 from hm 7 4, bit_is _ 0 t (hm 0 1), fld_is _ 1 3 c (hm 1 3), fld_is _ 4 2 e (hm 4 2), bit_is _ 6 z (hm 6 1), fld_is _ 11 5 b (hm 11 5), fld_is _ 16 5 a (hm 16 5), fld_is _ 21 5 d (hm 21 5)]

theorem amoCas (d : BitVec 5) (a : BitVec 5) (b : BitVec 5) (z : Bool) (e : BitVec 2) (c : BitVec 3) (t : Bool) : Statement (.amoCas d a b z e c t) := fun _ hw => by
  have hf : Fits [(1, t.toNat), (3, c.toNat), (2, e.toNat), (1, z.toNat), (4, 1), (5, b.toNat), (5, a.toNat), (5, d.toNat), (6, 17)] :=
    ⟨t.toNat_lt, c.isLt, e.isLt, z.toNat_lt, by decide, b.isLt, a.isLt, d.isLt, by decide, trivial⟩
  have hm := fldN_pack _ hf
  refine decode_word _ hf rfl _ (by simp only [pack]; omega) _ (by simp only [isCommandWord, show _ = 17 from hm 26 6]; rfl) ?_ hw
  rw [major_decAmo _ (hm 26 6)]
  simp only [decAmo, show _ = 1 from hm 7 4, bit_is _ 0 t (hm 0 1), fld_is _ 1 3 c (hm 1 3), fld_is _ 4 2 e (hm 4 2), bit_is _ 6 z (hm 6 1), fld_is _ 11 5 b (hm 11 5), fld_is _ 16 5 a (hm 16 5), fld_is _ 21 5 d (hm 21 5)]

theorem amoAdd (d : BitVec 5) (a : BitVec 5) (b : BitVec 5) (z : Bool) (e : BitVec 2) (c : BitVec 3) (t : Bool) : Statement (.amoAdd d a b z e c t) := fun _ hw => by
  have hf : Fits [(1, t.toNat), (3, c.toNat), (2, e.toNat), (1, z.toNat), (4, 2), (5, b.toNat), (5, a.toNat), (5, d.toNat), (6, 17)] :=
    ⟨t.toNat_lt, c.isLt, e.isLt, z.toNat_lt, by decide, b.isLt, a.isLt, d.isLt, by decide, trivial⟩
  have hm := fldN_pack _ hf
  refine decode_word _ hf rfl _ (by simp only [pack]; omega) _ (by simp only [isCommandWord, show _ = 17 from hm 26 6]; rfl) ?_ hw
  rw [major_decAmo _ (hm 26 6)]
  simp only [decAmo, show _ = 2 from hm 7 4, bit_is _ 0 t (hm 0 1), fld_is _ 1 3 c (hm 1 3), fld_is _ 4 2 e (hm 4 2), bit_is _ 6 z (hm 6 1), fld_is _ 11 5 b (hm 11 5), fld_is _ 16 5 a (hm 16 5), fld_is _ 21 5 d (hm 21 5)]

theorem amoAnd (d : BitVec 5) (a : BitVec 5) (b : BitVec 5) (z : Bool) (e : BitVec 2) (c : BitVec 3) (t : Bool) : Statement (.amoAnd d a b z e c t) := fun _ hw => by
  have hf : Fits [(1, t.toNat), (3, c.toNat), (2, e.toNat), (1, z.toNat), (4, 3), (5, b.toNat), (5, a.toNat), (5, d.toNat), (6, 17)] :=
    ⟨t.toNat_lt, c.isLt, e.isLt, z.toNat_lt, by decide, b.isLt, a.isLt, d.isLt, by decide, trivial⟩
  have hm := fldN_pack _ hf
  refine decode_word _ hf rfl _ (by simp only [pack]; omega) _ (by simp only [isCommandWord, show _ = 17 from hm 26 6]; rfl) ?_ hw
  rw [major_decAmo _ (hm 26 6)]
  simp only [decAmo, show _ = 3 from hm 7 4, bit_is _ 0 t (hm 0 1), fld_is _ 1 3 c (hm 1 3), fld_is _ 4 2 e (hm 4 2), bit_is _ 6 z (hm 6 1), fld_is _ 11 5 b (hm 11 5), fld_is _ 16 5 a (hm 16 5), fld_is _ 21 5 d (hm 21 5)]

theorem amoOr (d : BitVec 5) (a : BitVec 5) (b : BitVec 5) (z : Bool) (e : BitVec 2) (c : BitVec 3) (t : Bool) : Statement (.amoOr d a b z e c t) := fun _ hw => by
  have hf : Fits [(1, t.toNat), (3, c.toNat), (2, e.toNat), (1, z.toNat), (4, 4), (5, b.toNat), (5, a.toNat), (5, d.toNat), (6, 17)] :=
    ⟨t.toNat_lt, c.isLt, e.isLt, z.toNat_lt, by decide, b.isLt, a.isLt, d.isLt, by decide, trivial⟩
  have hm := fldN_pack _ hf
  refine decode_word _ hf rfl _ (by simp only [pack]; omega) _ (by simp only [isCommandWord, show _ = 17 from hm 26 6]; rfl) ?_ hw
  rw [major_decAmo _ (hm 26 6)]
  simp only [decAmo, show _ = 4 from hm 7 4, bit_is _ 0 t (hm 0 1), fld_is _ 1 3 c (hm 1 3), fld_is _ 4 2 e (hm 4 2), bit_is _ 6 z (hm 6 1), fld_is _ 11 5 b (hm 11 5), fld_is _ 16 5 a (hm 16 5), fld_is _ 21 5 d (hm 21 5)]

theorem amoXor (d : BitVec 5) (a : BitVec 5) (b : BitVec 5) (z : Bool) (e : BitVec 2) (c : BitVec 3) (t : Bool) : Statement (.amoXor d a b z e c t) := fun _ hw => by
  have hf : Fits [(1, t.toNat), (3, c.toNat), (2, e.toNat), (1, z.toNat), (4, 5), (5, b.toNat), (5, a.toNat), (5, d.toNat), (6, 17)] :=
    ⟨t.toNat_lt, c.isLt, e.isLt, z.toNat_lt, by decide, b.isLt, a.isLt, d.isLt, by decide, trivial⟩
  have hm := fldN_pack _ hf
  refine decode_word _ hf rfl _ (by simp only [pack]; omega) _ (by simp only [isCommandWord, show _ = 17 from hm 26 6]; rfl) ?_ hw
  rw [major_decAmo _ (hm 26 6)]
  simp only [decAmo, show _ = 5 from hm 7 4, bit_is _ 0 t (hm 0 1), fld_is _ 1 3 c (hm 1 3), fld_is _ 4 2 e (hm 4 2), bit_is _ 6 z (hm 6 1), fld_is _ 11 5 b (hm 11 5), fld_is _ 16 5 a (hm 16 5), fld_is _ 21 5 d (hm 21 5)]

theorem amoMin (d : BitVec 5) (a : BitVec 5) (b : BitVec 5) (z : Bool) (e : BitVec 2) (c : BitVec 3) (t : Bool) : Statement (.amoMin d a b z e c t) := fun _ hw => by
  have hf : Fits [(1, t.toNat), (3, c.toNat), (2, e.toNat), (1, z.toNat), (4, 6), (5, b.toNat), (5, a.toNat), (5, d.toNat), (6, 17)] :=
    ⟨t.toNat_lt, c.isLt, e.isLt, z.toNat_lt, by decide, b.isLt, a.isLt, d.isLt, by decide, trivial⟩
  have hm := fldN_pack _ hf
  refine decode_word _ hf rfl _ (by simp only [pack]; omega) _ (by simp only [isCommandWord, show _ = 17 from hm 26 6]; rfl) ?_ hw
  rw [major_decAmo _ (hm 26 6)]
  simp only [decAmo, show _ = 6 from hm 7 4, bit_is _ 0 t (hm 0 1), fld_is _ 1 3 c (hm 1 3), fld_is _ 4 2 e (hm 4 2), bit_is _ 6 z (hm 6 1), fld_is _ 11 5 b (hm 11 5), fld_is _ 16 5 a (hm 16 5), fld_is _ 21 5 d (hm 21 5)]

theorem amoMax (d : BitVec 5) (a : BitVec 5) (b : BitVec 5) (z : Bool) (e : BitVec 2) (c : BitVec 3) (t : Bool) : Statement (.amoMax d a b z e c t) := fun _ hw => by
  have hf : Fits [(1, t.toNat), (3, c.toNat), (2, e.toNat), (1, z.toNat), (4, 7), (5, b.toNat), (5, a.toNat), (5, d.toNat), (6, 17)] :=
    ⟨t.toNat_lt, c.isLt, e.isLt, z.toNat_lt, by decide, b.isLt, a.isLt, d.isLt, by decide, trivial⟩
  have hm := fldN_pack _ hf
  refine decode_word _ hf rfl _ (by simp only [pack]; omega) _ (by simp only [isCommandWord, show _ = 17 from hm 26 6]; rfl) ?_ hw
  rw [major_decAmo _ (hm 26 6)]
  simp only [decAmo, show _ = 7 from hm 7 4, bit_is _ 0 t (hm 0 1), fld_is _ 1 3 c (hm 1 3), fld_is _ 4 2 e (hm 4 2), bit_is _ 6 z (hm 6 1), fld_is _ 11 5 b (hm 11 5), fld_is _ 16 5 a (hm 16 5), fld_is _ 21 5 d (hm 21 5)]

theorem amoMinu (d : BitVec 5) (a : BitVec 5) (b : BitVec 5) (z : Bool) (e : BitVec 2) (c : BitVec 3) (t : Bool) : Statement (.amoMinu d a b z e c t) := fun _ hw => by
  have hf : Fits [(1, t.toNat), (3, c.toNat), (2, e.toNat), (1, z.toNat), (4, 8), (5, b.toNat), (5, a.toNat), (5, d.toNat), (6, 17)] :=
    ⟨t.toNat_lt, c.isLt, e.isLt, z.toNat_lt, by decide, b.isLt, a.isLt, d.isLt, by decide, trivial⟩
  have hm := fldN_pack _ hf
  refine decode_word _ hf rfl _ (by simp only [pack]; omega) _ (by simp only [isCommandWord, show _ = 17 from hm 26 6]; rfl) ?_ hw
  rw [major_decAmo _ (hm 26 6)]
  simp only [decAmo, show _ = 8 from hm 7 4, bit_is _ 0 t (hm 0 1), fld_is _ 1 3 c (hm 1 3), fld_is _ 4 2 e (hm 4 2), bit_is _ 6 z (hm 6 1), fld_is _ 11 5 b (hm 11 5), fld_is _ 16 5 a (hm 16 5), fld_is _ 21 5 d (hm 21 5)]

theorem amoMaxu (d : BitVec 5) (a : BitVec 5) (b : BitVec 5) (z : Bool) (e : BitVec 2) (c : BitVec 3) (t : Bool) : Statement (.amoMaxu d a b z e c t) := fun _ hw => by
  have hf : Fits [(1, t.toNat), (3, c.toNat), (2, e.toNat), (1, z.toNat), (4, 9), (5, b.toNat), (5, a.toNat), (5, d.toNat), (6, 17)] :=
    ⟨t.toNat_lt, c.isLt, e.isLt, z.toNat_lt, by decide, b.isLt, a.isLt, d.isLt, by decide, trivial⟩
  have hm := fldN_pack _ hf
  refine decode_word _ hf rfl _ (by simp only [pack]; omega) _ (by simp only [isCommandWord, show _ = 17 from hm 26 6]; rfl) ?_ hw
  rw [major_decAmo _ (hm 26 6)]
  simp only [decAmo, show _ = 9 from hm 7 4, bit_is _ 0 t (hm 0 1), fld_is _ 1 3 c (hm 1 3), fld_is _ 4 2 e (hm 4 2), bit_is _ 6 z (hm 6 1), fld_is _ 11 5 b (hm 11 5), fld_is _ 16 5 a (hm 16 5), fld_is _ 21 5 d (hm 21 5)]

theorem amoFadd (d : BitVec 5) (a : BitVec 5) (b : BitVec 5) (z : Bool) (e : BitVec 2) (c : BitVec 3) (t : Bool) : Statement (.amoFadd d a b z e c t) := fun _ hw => by
  have hf : Fits [(1, t.toNat), (3, c.toNat), (2, e.toNat), (1, z.toNat), (4, 10), (5, b.toNat), (5, a.toNat), (5, d.toNat), (6, 17)] :=
    ⟨t.toNat_lt, c.isLt, e.isLt, z.toNat_lt, by decide, b.isLt, a.isLt, d.isLt, by decide, trivial⟩
  have hm := fldN_pack _ hf
  refine decode_word _ hf rfl _ (by simp only [pack]; omega) _ (by simp only [isCommandWord, show _ = 17 from hm 26 6]; rfl) ?_ hw
  rw [major_decAmo _ (hm 26 6)]
  simp only [decAmo, show _ = 10 from hm 7 4, bit_is _ 0 t (hm 0 1), fld_is _ 1 3 c (hm 1 3), fld_is _ 4 2 e (hm 4 2), bit_is _ 6 z (hm 6 1), fld_is _ 11 5 b (hm 11 5), fld_is _ 16 5 a (hm 16 5), fld_is _ 21 5 d (hm 21 5)]

theorem redAdd (b : BitVec 5) (a : BitVec 5) (z : Bool) (e : BitVec 2) (c : BitVec 3) (t : Bool) : Statement (.redAdd b a z e c t) := fun _ hw => by
  have hf : Fits [(5, 0), (1, t.toNat), (3, c.toNat), (2, e.toNat), (1, z.toNat), (4, 0), (5, a.toNat), (5, b.toNat), (6, 18)] :=
    ⟨by decide, t.toNat_lt, c.isLt, e.isLt, z.toNat_lt, by decide, a.isLt, b.isLt, by decide, trivial⟩
  have hm := fldN_pack _ hf
  refine decode_word _ hf rfl _ (by simp only [pack]; omega) _ (by simp only [isCommandWord, show _ = 18 from hm 26 6]; rfl) ?_ hw
  rw [major_decRed _ (hm 26 6)]
  simp only [decRed, show _ = 0 from hm 12 4, show _ = 0 from hm 0 5, bit_is _ 5 t (hm 5 1), fld_is _ 6 3 c (hm 6 3), fld_is _ 9 2 e (hm 9 2), bit_is _ 11 z (hm 11 1), fld_is _ 16 5 a (hm 16 5), fld_is _ 21 5 b (hm 21 5)]
  rfl

theorem redAnd (b : BitVec 5) (a : BitVec 5) (z : Bool) (e : BitVec 2) (c : BitVec 3) (t : Bool) : Statement (.redAnd b a z e c t) := fun _ hw => by
  have hf : Fits [(5, 0), (1, t.toNat), (3, c.toNat), (2, e.toNat), (1, z.toNat), (4, 1), (5, a.toNat), (5, b.toNat), (6, 18)] :=
    ⟨by decide, t.toNat_lt, c.isLt, e.isLt, z.toNat_lt, by decide, a.isLt, b.isLt, by decide, trivial⟩
  have hm := fldN_pack _ hf
  refine decode_word _ hf rfl _ (by simp only [pack]; omega) _ (by simp only [isCommandWord, show _ = 18 from hm 26 6]; rfl) ?_ hw
  rw [major_decRed _ (hm 26 6)]
  simp only [decRed, show _ = 1 from hm 12 4, show _ = 0 from hm 0 5, bit_is _ 5 t (hm 5 1), fld_is _ 6 3 c (hm 6 3), fld_is _ 9 2 e (hm 9 2), bit_is _ 11 z (hm 11 1), fld_is _ 16 5 a (hm 16 5), fld_is _ 21 5 b (hm 21 5)]
  rfl

theorem redOr (b : BitVec 5) (a : BitVec 5) (z : Bool) (e : BitVec 2) (c : BitVec 3) (t : Bool) : Statement (.redOr b a z e c t) := fun _ hw => by
  have hf : Fits [(5, 0), (1, t.toNat), (3, c.toNat), (2, e.toNat), (1, z.toNat), (4, 2), (5, a.toNat), (5, b.toNat), (6, 18)] :=
    ⟨by decide, t.toNat_lt, c.isLt, e.isLt, z.toNat_lt, by decide, a.isLt, b.isLt, by decide, trivial⟩
  have hm := fldN_pack _ hf
  refine decode_word _ hf rfl _ (by simp only [pack]; omega) _ (by simp only [isCommandWord, show _ = 18 from hm 26 6]; rfl) ?_ hw
  rw [major_decRed _ (hm 26 6)]
  simp only [decRed, show _ = 2 from hm 12 4, show _ = 0 from hm 0 5, bit_is _ 5 t (hm 5 1), fld_is _ 6 3 c (hm 6 3), fld_is _ 9 2 e (hm 9 2), bit_is _ 11 z (hm 11 1), fld_is _ 16 5 a (hm 16 5), fld_is _ 21 5 b (hm 21 5)]
  rfl

theorem redXor (b : BitVec 5) (a : BitVec 5) (z : Bool) (e : BitVec 2) (c : BitVec 3) (t : Bool) : Statement (.redXor b a z e c t) := fun _ hw => by
  have hf : Fits [(5, 0), (1, t.toNat), (3, c.toNat), (2, e.toNat), (1, z.toNat), (4, 3), (5, a.toNat), (5, b.toNat), (6, 18)] :=
    ⟨by decide, t.toNat_lt, c.isLt, e.isLt, z.toNat_lt, by decide, a.isLt, b.isLt, by decide, trivial⟩
  have hm := fldN_pack _ hf
  refine decode_word _ hf rfl _ (by simp only [pack]; omega) _ (by simp only [isCommandWord, show _ = 18 from hm 26 6]; rfl) ?_ hw
  rw [major_decRed _ (hm 26 6)]
  simp only [decRed, show _ = 3 from hm 12 4, show _ = 0 from hm 0 5, bit_is _ 5 t (hm 5 1), fld_is _ 6 3 c (hm 6 3), fld_is _ 9 2 e (hm 9 2), bit_is _ 11 z (hm 11 1), fld_is _ 16 5 a (hm 16 5), fld_is _ 21 5 b (hm 21 5)]
  rfl

theorem redMin (b : BitVec 5) (a : BitVec 5) (z : Bool) (e : BitVec 2) (c : BitVec 3) (t : Bool) : Statement (.redMin b a z e c t) := fun _ hw => by
  have hf : Fits [(5, 0), (1, t.toNat), (3, c.toNat), (2, e.toNat), (1, z.toNat), (4, 4), (5, a.toNat), (5, b.toNat), (6, 18)] :=
    ⟨by decide, t.toNat_lt, c.isLt, e.isLt, z.toNat_lt, by decide, a.isLt, b.isLt, by decide, trivial⟩
  have hm := fldN_pack _ hf
  refine decode_word _ hf rfl _ (by simp only [pack]; omega) _ (by simp only [isCommandWord, show _ = 18 from hm 26 6]; rfl) ?_ hw
  rw [major_decRed _ (hm 26 6)]
  simp only [decRed, show _ = 4 from hm 12 4, show _ = 0 from hm 0 5, bit_is _ 5 t (hm 5 1), fld_is _ 6 3 c (hm 6 3), fld_is _ 9 2 e (hm 9 2), bit_is _ 11 z (hm 11 1), fld_is _ 16 5 a (hm 16 5), fld_is _ 21 5 b (hm 21 5)]
  rfl

theorem redMax (b : BitVec 5) (a : BitVec 5) (z : Bool) (e : BitVec 2) (c : BitVec 3) (t : Bool) : Statement (.redMax b a z e c t) := fun _ hw => by
  have hf : Fits [(5, 0), (1, t.toNat), (3, c.toNat), (2, e.toNat), (1, z.toNat), (4, 5), (5, a.toNat), (5, b.toNat), (6, 18)] :=
    ⟨by decide, t.toNat_lt, c.isLt, e.isLt, z.toNat_lt, by decide, a.isLt, b.isLt, by decide, trivial⟩
  have hm := fldN_pack _ hf
  refine decode_word _ hf rfl _ (by simp only [pack]; omega) _ (by simp only [isCommandWord, show _ = 18 from hm 26 6]; rfl) ?_ hw
  rw [major_decRed _ (hm 26 6)]
  simp only [decRed, show _ = 5 from hm 12 4, show _ = 0 from hm 0 5, bit_is _ 5 t (hm 5 1), fld_is _ 6 3 c (hm 6 3), fld_is _ 9 2 e (hm 9 2), bit_is _ 11 z (hm 11 1), fld_is _ 16 5 a (hm 16 5), fld_is _ 21 5 b (hm 21 5)]
  rfl

theorem redMinu (b : BitVec 5) (a : BitVec 5) (z : Bool) (e : BitVec 2) (c : BitVec 3) (t : Bool) : Statement (.redMinu b a z e c t) := fun _ hw => by
  have hf : Fits [(5, 0), (1, t.toNat), (3, c.toNat), (2, e.toNat), (1, z.toNat), (4, 6), (5, a.toNat), (5, b.toNat), (6, 18)] :=
    ⟨by decide, t.toNat_lt, c.isLt, e.isLt, z.toNat_lt, by decide, a.isLt, b.isLt, by decide, trivial⟩
  have hm := fldN_pack _ hf
  refine decode_word _ hf rfl _ (by simp only [pack]; omega) _ (by simp only [isCommandWord, show _ = 18 from hm 26 6]; rfl) ?_ hw
  rw [major_decRed _ (hm 26 6)]
  simp only [decRed, show _ = 6 from hm 12 4, show _ = 0 from hm 0 5, bit_is _ 5 t (hm 5 1), fld_is _ 6 3 c (hm 6 3), fld_is _ 9 2 e (hm 9 2), bit_is _ 11 z (hm 11 1), fld_is _ 16 5 a (hm 16 5), fld_is _ 21 5 b (hm 21 5)]
  rfl

theorem redMaxu (b : BitVec 5) (a : BitVec 5) (z : Bool) (e : BitVec 2) (c : BitVec 3) (t : Bool) : Statement (.redMaxu b a z e c t) := fun _ hw => by
  have hf : Fits [(5, 0), (1, t.toNat), (3, c.toNat), (2, e.toNat), (1, z.toNat), (4, 7), (5, a.toNat), (5, b.toNat), (6, 18)] :=
    ⟨by decide, t.toNat_lt, c.isLt, e.isLt, z.toNat_lt, by decide, a.isLt, b.isLt, by decide, trivial⟩
  have hm := fldN_pack _ hf
  refine decode_word _ hf rfl _ (by simp only [pack]; omega) _ (by simp only [isCommandWord, show _ = 18 from hm 26 6]; rfl) ?_ hw
  rw [major_decRed _ (hm 26 6)]
  simp only [decRed, show _ = 7 from hm 12 4, show _ = 0 from hm 0 5, bit_is _ 5 t (hm 5 1), fld_is _ 6 3 c (hm 6 3), fld_is _ 9 2 e (hm 9 2), bit_is _ 11 z (hm 11 1), fld_is _ 16 5 a (hm 16 5), fld_is _ 21 5 b (hm 21 5)]
  rfl

theorem redFadd (b : BitVec 5) (a : BitVec 5) (z : Bool) (e : BitVec 2) (c : BitVec 3) (t : Bool) : Statement (.redFadd b a z e c t) := fun _ hw => by
  have hf : Fits [(5, 0), (1, t.toNat), (3, c.toNat), (2, e.toNat), (1, z.toNat), (4, 8), (5, a.toNat), (5, b.toNat), (6, 18)] :=
    ⟨by decide, t.toNat_lt, c.isLt, e.isLt, z.toNat_lt, by decide, a.isLt, b.isLt, by decide, trivial⟩
  have hm := fldN_pack _ hf
  refine decode_word _ hf rfl _ (by simp only [pack]; omega) _ (by simp only [isCommandWord, show _ = 18 from hm 26 6]; rfl) ?_ hw
  rw [major_decRed _ (hm 26 6)]
  simp only [decRed, show _ = 8 from hm 12 4, show _ = 0 from hm 0 5, bit_is _ 5 t (hm 5 1), fld_is _ 6 3 c (hm 6 3), fld_is _ 9 2 e (hm 9 2), bit_is _ 11 z (hm 11 1), fld_is _ 16 5 a (hm 16 5), fld_is _ 21 5 b (hm 21 5)]
  rfl

theorem fence (c : BitVec 3) (k : BitVec 4) (e : Bool) : Statement (.fence c k e) := fun _ hw => by
  have hf : Fits [(4, 0), (1, e.toNat), (4, k.toNat), (3, c.toNat), (4, 0), (10, 0), (6, 19)] :=
    ⟨by decide, e.toNat_lt, k.isLt, c.isLt, by decide, by decide, by decide, trivial⟩
  have hm := fldN_pack _ hf
  refine decode_word _ hf rfl _ (by simp only [pack]; omega) _ (by simp only [isCommandWord, show _ = 19 from hm 26 6]; rfl) ?_ hw
  rw [major_decSync _ (hm 26 6)]
  simp only [decSync, show _ = 0 from hm 12 4, show _ = 0 from hm 0 4, show _ = 0 from hm 16 10, bit_is _ 4 e (hm 4 1), fld_is _ 5 4 k (hm 5 4), fld_is _ 9 3 c (hm 9 3)]
  rfl

theorem watch (a : BitVec 5) : Statement (.watch a) := fun _ hw => by
  have hf : Fits [(12, 0), (4, 1), (5, 0), (5, a.toNat), (6, 19)] :=
    ⟨by decide, by decide, by decide, a.isLt, by decide, trivial⟩
  have hm := fldN_pack _ hf
  refine decode_word _ hf rfl _ (by simp only [pack]; omega) _ (by simp only [isCommandWord, show _ = 19 from hm 26 6]; rfl) ?_ hw
  rw [major_decSync _ (hm 26 6)]
  simp only [decSync, show _ = 1 from hm 12 4, show _ = 0 from hm 0 12, show _ = 0 from hm 16 5, fld_is _ 21 5 a (hm 21 5)]
  rfl

theorem waitw (d : BitVec 5) (a : BitVec 5) (c : BitVec 3) (b : BitVec 5) : Statement (.waitw d a c b) := fun _ hw => by
  have hf : Fits [(4, 0), (5, b.toNat), (3, c.toNat), (4, 2), (5, a.toNat), (5, d.toNat), (6, 19)] :=
    ⟨by decide, b.isLt, c.isLt, by decide, a.isLt, d.isLt, by decide, trivial⟩
  have hm := fldN_pack _ hf
  refine decode_word _ hf rfl _ (by simp only [pack]; omega) _ (by simp only [isCommandWord, show _ = 19 from hm 26 6]; rfl) ?_ hw
  rw [major_decSync _ (hm 26 6)]
  simp only [decSync, show _ = 2 from hm 12 4, show _ = 0 from hm 0 4, fld_is _ 4 5 b (hm 4 5), fld_is _ 9 3 c (hm 9 3), fld_is _ 16 5 a (hm 16 5), fld_is _ 21 5 d (hm 21 5)]
  rfl

theorem bar (a : BitVec 5) (b : BitVec 5) (c : BitVec 3) : Statement (.bar a b c) := fun _ hw => by
  have hf : Fits [(9, 0), (3, c.toNat), (4, 3), (5, b.toNat), (5, a.toNat), (6, 19)] :=
    ⟨by decide, c.isLt, by decide, b.isLt, a.isLt, by decide, trivial⟩
  have hm := fldN_pack _ hf
  refine decode_word _ hf rfl _ (by simp only [pack]; omega) _ (by simp only [isCommandWord, show _ = 19 from hm 26 6]; rfl) ?_ hw
  rw [major_decSync _ (hm 26 6)]
  simp only [decSync, show _ = 3 from hm 12 4, show _ = 0 from hm 0 9, fld_is _ 9 3 c (hm 9 3), fld_is _ 16 5 b (hm 16 5), fld_is _ 21 5 a (hm 21 5)]
  rfl

theorem arrive (a : BitVec 5) (b : BitVec 5) (c : BitVec 3) : Statement (.arrive a b c) := fun _ hw => by
  have hf : Fits [(9, 0), (3, c.toNat), (4, 4), (5, b.toNat), (5, a.toNat), (6, 19)] :=
    ⟨by decide, c.isLt, by decide, b.isLt, a.isLt, by decide, trivial⟩
  have hm := fldN_pack _ hf
  refine decode_word _ hf rfl _ (by simp only [pack]; omega) _ (by simp only [isCommandWord, show _ = 19 from hm 26 6]; rfl) ?_ hw
  rw [major_decSync _ (hm 26 6)]
  simp only [decSync, show _ = 4 from hm 12 4, show _ = 0 from hm 0 9, fld_is _ 9 3 c (hm 9 3), fld_is _ 16 5 b (hm 16 5), fld_is _ 21 5 a (hm 21 5)]
  rfl

theorem waitb (a : BitVec 5) (b : BitVec 5) (c : BitVec 3) : Statement (.waitb a b c) := fun _ hw => by
  have hf : Fits [(9, 0), (3, c.toNat), (4, 5), (5, b.toNat), (5, a.toNat), (6, 19)] :=
    ⟨by decide, c.isLt, by decide, b.isLt, a.isLt, by decide, trivial⟩
  have hm := fldN_pack _ hf
  refine decode_word _ hf rfl _ (by simp only [pack]; omega) _ (by simp only [isCommandWord, show _ = 19 from hm 26 6]; rfl) ?_ hw
  rw [major_decSync _ (hm 26 6)]
  simp only [decSync, show _ = 5 from hm 12 4, show _ = 0 from hm 0 9, fld_is _ 9 3 c (hm 9 3), fld_is _ 16 5 b (hm 16 5), fld_is _ 21 5 a (hm 21 5)]
  rfl

theorem mfc (g : BitVec 5) (i : BitVec 12) : Statement (.mfc g i) := fun _ hw => by
  have hf : Fits [(12, i.toNat), (6, 0), (3, 0), (5, g.toNat), (6, 20)] :=
    ⟨i.isLt, by decide, by decide, g.isLt, by decide, trivial⟩
  have hm := fldN_pack _ hf
  refine decode_word _ hf rfl _ (by simp only [pack]; omega) _ (by simp only [isCommandWord, show _ = 20 from hm 26 6]; rfl) ?_ hw
  rw [major_decCr _ (hm 26 6)]
  simp only [decCr, show _ = 0 from hm 18 3, show _ = 0 from hm 12 6, fld_is _ 0 12 i (hm 0 12), fld_is _ 21 5 g (hm 21 5)]
  rfl

theorem mtc (g : BitVec 5) (t : Bool) (i : BitVec 12) : Statement (.mtc g t i) := fun _ hw => by
  have hf : Fits [(12, i.toNat), (5, 0), (1, t.toNat), (3, 1), (5, g.toNat), (6, 20)] :=
    ⟨i.isLt, by decide, t.toNat_lt, by decide, g.isLt, by decide, trivial⟩
  have hm := fldN_pack _ hf
  refine decode_word _ hf rfl _ (by simp only [pack]; omega) _ (by simp only [isCommandWord, show _ = 20 from hm 26 6]; rfl) ?_ hw
  rw [major_decCr _ (hm 26 6)]
  simp only [decCr, show _ = 1 from hm 18 3, show _ = 0 from hm 12 5, fld_is _ 0 12 i (hm 0 12), bit_is _ 17 t (hm 17 1), fld_is _ 21 5 g (hm 21 5)]
  rfl

theorem mtci (v : BitVec 5) (i : BitVec 12) : Statement (.mtci v i) := fun _ hw => by
  have hf : Fits [(12, i.toNat), (6, 0), (3, 2), (5, v.toNat), (6, 20)] :=
    ⟨i.isLt, by decide, by decide, v.isLt, by decide, trivial⟩
  have hm := fldN_pack _ hf
  refine decode_word _ hf rfl _ (by simp only [pack]; omega) _ (by simp only [isCommandWord, show _ = 20 from hm 26 6]; rfl) ?_ hw
  rw [major_decCr _ (hm 26 6)]
  simp only [decCr, show _ = 2 from hm 18 3, show _ = 0 from hm 12 6, fld_is _ 0 12 i (hm 0 12), fld_is _ 21 5 v (hm 21 5)]
  rfl

theorem crsb (g : BitVec 5) (t : Bool) (i : BitVec 12) : Statement (.crsb g t i) := fun _ hw => by
  have hf : Fits [(12, i.toNat), (5, 0), (1, t.toNat), (3, 3), (5, g.toNat), (6, 20)] :=
    ⟨i.isLt, by decide, t.toNat_lt, by decide, g.isLt, by decide, trivial⟩
  have hm := fldN_pack _ hf
  refine decode_word _ hf rfl _ (by simp only [pack]; omega) _ (by simp only [isCommandWord, show _ = 20 from hm 26 6]; rfl) ?_ hw
  rw [major_decCr _ (hm 26 6)]
  simp only [decCr, show _ = 3 from hm 18 3, show _ = 0 from hm 12 5, fld_is _ 0 12 i (hm 0 12), bit_is _ 17 t (hm 17 1), fld_is _ 21 5 g (hm 21 5)]
  rfl

theorem crcb (g : BitVec 5) (t : Bool) (i : BitVec 12) : Statement (.crcb g t i) := fun _ hw => by
  have hf : Fits [(12, i.toNat), (5, 0), (1, t.toNat), (3, 4), (5, g.toNat), (6, 20)] :=
    ⟨i.isLt, by decide, t.toNat_lt, by decide, g.isLt, by decide, trivial⟩
  have hm := fldN_pack _ hf
  refine decode_word _ hf rfl _ (by simp only [pack]; omega) _ (by simp only [isCommandWord, show _ = 20 from hm 26 6]; rfl) ?_ hw
  rw [major_decCr _ (hm 26 6)]
  simp only [decCr, show _ = 4 from hm 18 3, show _ = 0 from hm 12 5, fld_is _ 0 12 i (hm 0 12), bit_is _ 17 t (hm 17 1), fld_is _ 21 5 g (hm 21 5)]
  rfl

theorem trap (i : BitVec 11) : Statement (.trap i) := fun _ hw => by
  have hf : Fits [(11, i.toNat), (5, 0), (10, 0), (6, 21)] :=
    ⟨i.isLt, by decide, by decide, by decide, trivial⟩
  have hm := fldN_pack _ hf
  refine decode_word _ hf rfl _ (by simp only [pack]; omega) _ (by simp only [isCommandWord, show _ = 21 from hm 26 6]; rfl) ?_ hw
  rw [major_decSys _ (hm 26 6)]
  simp only [decSys, show _ = 0 from hm 11 5, show _ = 0 from hm 16 10, fld_is _ 0 11 i (hm 0 11)]
  rfl

theorem rfe : Statement (.rfe) := fun _ hw => by
  have hf : Fits [(11, 0), (5, 1), (10, 0), (6, 21)] :=
    ⟨by decide, by decide, by decide, by decide, trivial⟩
  have hm := fldN_pack _ hf
  refine decode_word _ hf rfl _ (by simp only [pack]; omega) _ (by simp only [isCommandWord, show _ = 21 from hm 26 6]; rfl) ?_ hw
  rw [major_decSys _ (hm 26 6)]
  simp only [decSys, show _ = 1 from hm 11 5, show _ = 0 from hm 0 11, show _ = 0 from hm 16 10]
  rfl

theorem halt (g : BitVec 5) : Statement (.halt g) := fun _ hw => by
  have hf : Fits [(11, 0), (5, 2), (5, 0), (5, g.toNat), (6, 21)] :=
    ⟨by decide, by decide, by decide, g.isLt, by decide, trivial⟩
  have hm := fldN_pack _ hf
  refine decode_word _ hf rfl _ (by simp only [pack]; omega) _ (by simp only [isCommandWord, show _ = 21 from hm 26 6]; rfl) ?_ hw
  rw [major_decSys _ (hm 26 6)]
  simp only [decSys, show _ = 2 from hm 11 5, show _ = 0 from hm 0 11, show _ = 0 from hm 16 5, fld_is _ 21 5 g (hm 21 5)]
  rfl

theorem yield (g : BitVec 5) : Statement (.yield g) := fun _ hw => by
  have hf : Fits [(11, 0), (5, 3), (5, 0), (5, g.toNat), (6, 21)] :=
    ⟨by decide, by decide, by decide, g.isLt, by decide, trivial⟩
  have hm := fldN_pack _ hf
  refine decode_word _ hf rfl _ (by simp only [pack]; omega) _ (by simp only [isCommandWord, show _ = 21 from hm 26 6]; rfl) ?_ hw
  rw [major_decSys _ (hm 26 6)]
  simp only [decSys, show _ = 3 from hm 11 5, show _ = 0 from hm 0 11, show _ = 0 from hm 16 5, fld_is _ 21 5 g (hm 21 5)]
  rfl

theorem brk : Statement (.brk) := fun _ hw => by
  have hf : Fits [(11, 0), (5, 4), (10, 0), (6, 21)] :=
    ⟨by decide, by decide, by decide, by decide, trivial⟩
  have hm := fldN_pack _ hf
  refine decode_word _ hf rfl _ (by simp only [pack]; omega) _ (by simp only [isCommandWord, show _ = 21 from hm 26 6]; rfl) ?_ hw
  rw [major_decSys _ (hm 26 6)]
  simp only [decSys, show _ = 4 from hm 11 5, show _ = 0 from hm 0 11, show _ = 0 from hm 16 10]
  rfl

theorem shoot (g : BitVec 5) (h : BitVec 5) : Statement (.shoot g h) := fun _ hw => by
  have hf : Fits [(11, 0), (5, 5), (5, h.toNat), (5, g.toNat), (6, 21)] :=
    ⟨by decide, by decide, h.isLt, g.isLt, by decide, trivial⟩
  have hm := fldN_pack _ hf
  refine decode_word _ hf rfl _ (by simp only [pack]; omega) _ (by simp only [isCommandWord, show _ = 21 from hm 26 6]; rfl) ?_ hw
  rw [major_decSys _ (hm 26 6)]
  simp only [decSys, show _ = 5 from hm 11 5, show _ = 0 from hm 0 11, fld_is _ 16 5 h (hm 16 5), fld_is _ 21 5 g (hm 21 5)]
  rfl

theorem cwb (g : BitVec 5) (h : BitVec 5) : Statement (.cwb g h) := fun _ hw => by
  have hf : Fits [(11, 0), (5, 6), (5, h.toNat), (5, g.toNat), (6, 21)] :=
    ⟨by decide, by decide, h.isLt, g.isLt, by decide, trivial⟩
  have hm := fldN_pack _ hf
  refine decode_word _ hf rfl _ (by simp only [pack]; omega) _ (by simp only [isCommandWord, show _ = 21 from hm 26 6]; rfl) ?_ hw
  rw [major_decSys _ (hm 26 6)]
  simp only [decSys, show _ = 6 from hm 11 5, show _ = 0 from hm 0 11, fld_is _ 16 5 h (hm 16 5), fld_is _ 21 5 g (hm 21 5)]
  rfl

theorem cinv (g : BitVec 5) : Statement (.cinv g) := fun _ hw => by
  have hf : Fits [(11, 0), (5, 7), (5, 0), (5, g.toNat), (6, 21)] :=
    ⟨by decide, by decide, by decide, g.isLt, by decide, trivial⟩
  have hm := fldN_pack _ hf
  refine decode_word _ hf rfl _ (by simp only [pack]; omega) _ (by simp only [isCommandWord, show _ = 21 from hm 26 6]; rfl) ?_ hw
  rw [major_decSys _ (hm 26 6)]
  simp only [decSys, show _ = 7 from hm 11 5, show _ = 0 from hm 16 5, show _ = 0 from hm 0 11, fld_is _ 21 5 g (hm 21 5)]
  rfl

theorem cinvRange (g : BitVec 5) (h : BitVec 5) : Statement (.cinvRange g h) := fun _ hw => by
  have hf : Fits [(11, 0), (5, 7), (5, h.toNat), (5, g.toNat), (6, 21)] :=
    ⟨by decide, by decide, h.isLt, g.isLt, by decide, trivial⟩
  have hne : (h.toNat == 0) = false := by
    simp only [Instr.wellFormed, bne_iff_ne] at hw
    exact beq_eq_false_iff_ne.mpr fun e => hw (BitVec.eq_of_toNat_eq e)
  have hm := fldN_pack _ hf
  refine decode_word _ hf rfl _ (by simp only [pack]; omega) _ (by simp only [isCommandWord, show _ = 21 from hm 26 6]; rfl) ?_ hw
  rw [major_decSys _ (hm 26 6)]
  simp only [decSys, show _ = 7 from hm 11 5, show _ = 0 from hm 0 11, show _ = h.toNat from hm 16 5, hne, fld_is _ 16 5 h (hm 16 5), fld_is _ 21 5 g (hm 21 5)]
  rfl

theorem cflush (g : BitVec 5) (h : BitVec 5) : Statement (.cflush g h) := fun _ hw => by
  have hf : Fits [(11, 0), (5, 8), (5, h.toNat), (5, g.toNat), (6, 21)] :=
    ⟨by decide, by decide, h.isLt, g.isLt, by decide, trivial⟩
  have hm := fldN_pack _ hf
  refine decode_word _ hf rfl _ (by simp only [pack]; omega) _ (by simp only [isCommandWord, show _ = 21 from hm 26 6]; rfl) ?_ hw
  rw [major_decSys _ (hm 26 6)]
  simp only [decSys, show _ = 8 from hm 11 5, show _ = 0 from hm 0 11, fld_is _ 16 5 h (hm 16 5), fld_is _ 21 5 g (hm 21 5)]
  rfl

theorem vcdef (g : BitVec 5) (h : BitVec 5) : Statement (.vcdef g h) := fun _ hw => by
  have hf : Fits [(11, 0), (5, 9), (5, h.toNat), (5, g.toNat), (6, 21)] :=
    ⟨by decide, by decide, h.isLt, g.isLt, by decide, trivial⟩
  have hm := fldN_pack _ hf
  refine decode_word _ hf rfl _ (by simp only [pack]; omega) _ (by simp only [isCommandWord, show _ = 21 from hm 26 6]; rfl) ?_ hw
  rw [major_decSys _ (hm 26 6)]
  simp only [decSys, show _ = 9 from hm 11 5, show _ = 0 from hm 0 11, fld_is _ 16 5 h (hm 16 5), fld_is _ 21 5 g (hm 21 5)]
  rfl

theorem vcqry (g : BitVec 5) (h : BitVec 5) : Statement (.vcqry g h) := fun _ hw => by
  have hf : Fits [(11, 0), (5, 10), (5, h.toNat), (5, g.toNat), (6, 21)] :=
    ⟨by decide, by decide, h.isLt, g.isLt, by decide, trivial⟩
  have hm := fldN_pack _ hf
  refine decode_word _ hf rfl _ (by simp only [pack]; omega) _ (by simp only [isCommandWord, show _ = 21 from hm 26 6]; rfl) ?_ hw
  rw [major_decSys _ (hm 26 6)]
  simp only [decSys, show _ = 10 from hm 11 5, show _ = 0 from hm 0 11, fld_is _ 16 5 h (hm 16 5), fld_is _ 21 5 g (hm 21 5)]
  rfl

theorem launch (g : BitVec 5) (h : BitVec 5) (n : Bool) : Statement (.launch g h n) := fun _ hw => by
  have hf : Fits [(11, 0), (1, n.toNat), (4, 0), (5, h.toNat), (5, g.toNat), (6, 22)] :=
    ⟨by decide, n.toNat_lt, by decide, h.isLt, g.isLt, by decide, trivial⟩
  have hm := fldN_pack _ hf
  refine decode_word _ hf rfl _ (by simp only [pack]; omega) _ (by simp only [isCommandWord, show _ = 22 from hm 26 6]; rfl) ?_ hw
  rw [major_decNest _ (hm 26 6)]
  simp only [decNest, show _ = 0 from hm 12 4, show _ = 0 from hm 0 11, bit_is _ 11 n (hm 11 1), fld_is _ 16 5 h (hm 16 5), fld_is _ 21 5 g (hm 21 5)]
  rfl

theorem retire : Statement (.retire) := fun _ hw => by
  have hf : Fits [(12, 0), (4, 1), (10, 0), (6, 22)] :=
    ⟨by decide, by decide, by decide, by decide, trivial⟩
  have hm := fldN_pack _ hf
  refine decode_word _ hf rfl _ (by simp only [pack]; omega) _ (by simp only [isCommandWord, show _ = 22 from hm 26 6]; rfl) ?_ hw
  rw [major_decNest _ (hm 26 6)]
  simp only [decNest, show _ = 1 from hm 12 4, show _ = 0 from hm 0 12, show _ = 0 from hm 16 10]
  rfl

theorem ctradd (g : BitVec 5) (h : BitVec 5) : Statement (.ctradd g h) := fun _ hw => by
  have hf : Fits [(12, 0), (4, 2), (5, h.toNat), (5, g.toNat), (6, 22)] :=
    ⟨by decide, by decide, h.isLt, g.isLt, by decide, trivial⟩
  have hm := fldN_pack _ hf
  refine decode_word _ hf rfl _ (by simp only [pack]; omega) _ (by simp only [isCommandWord, show _ = 22 from hm 26 6]; rfl) ?_ hw
  rw [major_decNest _ (hm 26 6)]
  simp only [decNest, show _ = 2 from hm 12 4, show _ = 0 from hm 0 12, fld_is _ 16 5 h (hm 16 5), fld_is _ 21 5 g (hm 21 5)]
  rfl

theorem ctrrd (g : BitVec 5) (h : BitVec 5) : Statement (.ctrrd g h) := fun _ hw => by
  have hf : Fits [(12, 0), (4, 3), (5, h.toNat), (5, g.toNat), (6, 22)] :=
    ⟨by decide, by decide, h.isLt, g.isLt, by decide, trivial⟩
  have hm := fldN_pack _ hf
  refine decode_word _ hf rfl _ (by simp only [pack]; omega) _ (by simp only [isCommandWord, show _ = 22 from hm 26 6]; rfl) ?_ hw
  rw [major_decNest _ (hm 26 6)]
  simp only [decNest, show _ = 3 from hm 12 4, show _ = 0 from hm 0 12, fld_is _ 16 5 h (hm 16 5), fld_is _ 21 5 g (hm 21 5)]
  rfl

theorem ctrset (g : BitVec 5) (h : BitVec 5) : Statement (.ctrset g h) := fun _ hw => by
  have hf : Fits [(12, 0), (4, 4), (5, h.toNat), (5, g.toNat), (6, 22)] :=
    ⟨by decide, by decide, h.isLt, g.isLt, by decide, trivial⟩
  have hm := fldN_pack _ hf
  refine decode_word _ hf rfl _ (by simp only [pack]; omega) _ (by simp only [isCommandWord, show _ = 22 from hm 26 6]; rfl) ?_ hw
  rw [major_decNest _ (hm 26 6)]
  simp only [decNest, show _ = 4 from hm 12 4, show _ = 0 from hm 0 12, fld_is _ 16 5 h (hm 16 5), fld_is _ 21 5 g (hm 21 5)]
  rfl

theorem setvl (d : BitVec 5) (a : BitVec 5) (e : BitVec 3) (f : BitVec 3) (l : BitVec 3) (m : BitVec 3) (c : BitVec 3) : Statement (.setvl d a e f l m c) := fun _ hw => by
  have hf : Fits [(1, 0), (3, c.toNat), (3, m.toNat), (3, l.toNat), (3, f.toNat), (3, e.toNat), (5, a.toNat), (5, d.toNat), (6, 32)] :=
    ⟨by decide, c.isLt, m.isLt, l.isLt, f.isLt, e.isLt, a.isLt, d.isLt, by decide, trivial⟩
  have hm := fldN_pack _ hf
  refine decode_word _ hf rfl _ (by simp only [pack]; omega) _ (by simp only [isCommandWord, show _ = 32 from hm 26 6]; rfl) ?_ hw
  simp only [decWord, show _ = 32 from hm 26 6, show _ = 0 from hm 0 1, fld_is _ 1 3 c (hm 1 3), fld_is _ 4 3 m (hm 4 3), fld_is _ 7 3 l (hm 7 3), fld_is _ 10 3 f (hm 10 3), fld_is _ 13 3 e (hm 13 3), fld_is _ 16 5 a (hm 16 5), fld_is _ 21 5 d (hm 21 5)]
  rfl

theorem vadd (d : BitVec 5) (a : BitVec 5) (b : BitVec 5) (k : BitVec 3) (c : Bool) (t : Bool) (s : Bool) : Statement (.vadd d a b k c t s) := fun _ hw => by
  have hf : Fits [(5, 0), (1, s.toNat), (1, t.toNat), (1, c.toNat), (3, k.toNat), (5, b.toNat), (5, a.toNat), (5, d.toNat), (6, 33)] :=
    ⟨by decide, s.toNat_lt, t.toNat_lt, c.toNat_lt, k.isLt, b.isLt, a.isLt, d.isLt, by decide, trivial⟩
  have hm := fldN_pack _ hf
  refine decode_word _ hf rfl _ (by simp only [pack]; omega) _ (by simp only [isCommandWord, show _ = 33 from hm 26 6]; rfl) ?_ hw
  rw [major_decVint _ (hm 26 6)]
  simp only [decVint, show _ = 0 from hm 0 5, bit_is _ 5 s (hm 5 1), bit_is _ 6 t (hm 6 1), bit_is _ 7 c (hm 7 1), fld_is _ 8 3 k (hm 8 3), fld_is _ 11 5 b (hm 11 5), fld_is _ 16 5 a (hm 16 5), fld_is _ 21 5 d (hm 21 5)]

theorem vsub (d : BitVec 5) (a : BitVec 5) (b : BitVec 5) (k : BitVec 3) (c : Bool) (t : Bool) (s : Bool) : Statement (.vsub d a b k c t s) := fun _ hw => by
  have hf : Fits [(5, 1), (1, s.toNat), (1, t.toNat), (1, c.toNat), (3, k.toNat), (5, b.toNat), (5, a.toNat), (5, d.toNat), (6, 33)] :=
    ⟨by decide, s.toNat_lt, t.toNat_lt, c.toNat_lt, k.isLt, b.isLt, a.isLt, d.isLt, by decide, trivial⟩
  have hm := fldN_pack _ hf
  refine decode_word _ hf rfl _ (by simp only [pack]; omega) _ (by simp only [isCommandWord, show _ = 33 from hm 26 6]; rfl) ?_ hw
  rw [major_decVint _ (hm 26 6)]
  simp only [decVint, show _ = 1 from hm 0 5, bit_is _ 5 s (hm 5 1), bit_is _ 6 t (hm 6 1), bit_is _ 7 c (hm 7 1), fld_is _ 8 3 k (hm 8 3), fld_is _ 11 5 b (hm 11 5), fld_is _ 16 5 a (hm 16 5), fld_is _ 21 5 d (hm 21 5)]

theorem vmul (d : BitVec 5) (a : BitVec 5) (b : BitVec 5) (k : BitVec 3) (c : Bool) (t : Bool) (s : Bool) : Statement (.vmul d a b k c t s) := fun _ hw => by
  have hf : Fits [(5, 2), (1, s.toNat), (1, t.toNat), (1, c.toNat), (3, k.toNat), (5, b.toNat), (5, a.toNat), (5, d.toNat), (6, 33)] :=
    ⟨by decide, s.toNat_lt, t.toNat_lt, c.toNat_lt, k.isLt, b.isLt, a.isLt, d.isLt, by decide, trivial⟩
  have hm := fldN_pack _ hf
  refine decode_word _ hf rfl _ (by simp only [pack]; omega) _ (by simp only [isCommandWord, show _ = 33 from hm 26 6]; rfl) ?_ hw
  rw [major_decVint _ (hm 26 6)]
  simp only [decVint, show _ = 2 from hm 0 5, bit_is _ 5 s (hm 5 1), bit_is _ 6 t (hm 6 1), bit_is _ 7 c (hm 7 1), fld_is _ 8 3 k (hm 8 3), fld_is _ 11 5 b (hm 11 5), fld_is _ 16 5 a (hm 16 5), fld_is _ 21 5 d (hm 21 5)]

theorem vmulh (d : BitVec 5) (a : BitVec 5) (b : BitVec 5) (k : BitVec 3) (c : Bool) (t : Bool) (s : Bool) : Statement (.vmulh d a b k c t s) := fun _ hw => by
  have hf : Fits [(5, 3), (1, s.toNat), (1, t.toNat), (1, c.toNat), (3, k.toNat), (5, b.toNat), (5, a.toNat), (5, d.toNat), (6, 33)] :=
    ⟨by decide, s.toNat_lt, t.toNat_lt, c.toNat_lt, k.isLt, b.isLt, a.isLt, d.isLt, by decide, trivial⟩
  have hm := fldN_pack _ hf
  refine decode_word _ hf rfl _ (by simp only [pack]; omega) _ (by simp only [isCommandWord, show _ = 33 from hm 26 6]; rfl) ?_ hw
  rw [major_decVint _ (hm 26 6)]
  simp only [decVint, show _ = 3 from hm 0 5, bit_is _ 5 s (hm 5 1), bit_is _ 6 t (hm 6 1), bit_is _ 7 c (hm 7 1), fld_is _ 8 3 k (hm 8 3), fld_is _ 11 5 b (hm 11 5), fld_is _ 16 5 a (hm 16 5), fld_is _ 21 5 d (hm 21 5)]

theorem vmulhu (d : BitVec 5) (a : BitVec 5) (b : BitVec 5) (k : BitVec 3) (c : Bool) (t : Bool) (s : Bool) : Statement (.vmulhu d a b k c t s) := fun _ hw => by
  have hf : Fits [(5, 4), (1, s.toNat), (1, t.toNat), (1, c.toNat), (3, k.toNat), (5, b.toNat), (5, a.toNat), (5, d.toNat), (6, 33)] :=
    ⟨by decide, s.toNat_lt, t.toNat_lt, c.toNat_lt, k.isLt, b.isLt, a.isLt, d.isLt, by decide, trivial⟩
  have hm := fldN_pack _ hf
  refine decode_word _ hf rfl _ (by simp only [pack]; omega) _ (by simp only [isCommandWord, show _ = 33 from hm 26 6]; rfl) ?_ hw
  rw [major_decVint _ (hm 26 6)]
  simp only [decVint, show _ = 4 from hm 0 5, bit_is _ 5 s (hm 5 1), bit_is _ 6 t (hm 6 1), bit_is _ 7 c (hm 7 1), fld_is _ 8 3 k (hm 8 3), fld_is _ 11 5 b (hm 11 5), fld_is _ 16 5 a (hm 16 5), fld_is _ 21 5 d (hm 21 5)]

theorem vand (d : BitVec 5) (a : BitVec 5) (b : BitVec 5) (k : BitVec 3) (c : Bool) (t : Bool) (s : Bool) : Statement (.vand d a b k c t s) := fun _ hw => by
  have hf : Fits [(5, 5), (1, s.toNat), (1, t.toNat), (1, c.toNat), (3, k.toNat), (5, b.toNat), (5, a.toNat), (5, d.toNat), (6, 33)] :=
    ⟨by decide, s.toNat_lt, t.toNat_lt, c.toNat_lt, k.isLt, b.isLt, a.isLt, d.isLt, by decide, trivial⟩
  have hm := fldN_pack _ hf
  refine decode_word _ hf rfl _ (by simp only [pack]; omega) _ (by simp only [isCommandWord, show _ = 33 from hm 26 6]; rfl) ?_ hw
  rw [major_decVint _ (hm 26 6)]
  simp only [decVint, show _ = 5 from hm 0 5, bit_is _ 5 s (hm 5 1), bit_is _ 6 t (hm 6 1), bit_is _ 7 c (hm 7 1), fld_is _ 8 3 k (hm 8 3), fld_is _ 11 5 b (hm 11 5), fld_is _ 16 5 a (hm 16 5), fld_is _ 21 5 d (hm 21 5)]

theorem vor (d : BitVec 5) (a : BitVec 5) (b : BitVec 5) (k : BitVec 3) (c : Bool) (t : Bool) (s : Bool) : Statement (.vor d a b k c t s) := fun _ hw => by
  have hf : Fits [(5, 6), (1, s.toNat), (1, t.toNat), (1, c.toNat), (3, k.toNat), (5, b.toNat), (5, a.toNat), (5, d.toNat), (6, 33)] :=
    ⟨by decide, s.toNat_lt, t.toNat_lt, c.toNat_lt, k.isLt, b.isLt, a.isLt, d.isLt, by decide, trivial⟩
  have hm := fldN_pack _ hf
  refine decode_word _ hf rfl _ (by simp only [pack]; omega) _ (by simp only [isCommandWord, show _ = 33 from hm 26 6]; rfl) ?_ hw
  rw [major_decVint _ (hm 26 6)]
  simp only [decVint, show _ = 6 from hm 0 5, bit_is _ 5 s (hm 5 1), bit_is _ 6 t (hm 6 1), bit_is _ 7 c (hm 7 1), fld_is _ 8 3 k (hm 8 3), fld_is _ 11 5 b (hm 11 5), fld_is _ 16 5 a (hm 16 5), fld_is _ 21 5 d (hm 21 5)]

theorem vxor (d : BitVec 5) (a : BitVec 5) (b : BitVec 5) (k : BitVec 3) (c : Bool) (t : Bool) (s : Bool) : Statement (.vxor d a b k c t s) := fun _ hw => by
  have hf : Fits [(5, 7), (1, s.toNat), (1, t.toNat), (1, c.toNat), (3, k.toNat), (5, b.toNat), (5, a.toNat), (5, d.toNat), (6, 33)] :=
    ⟨by decide, s.toNat_lt, t.toNat_lt, c.toNat_lt, k.isLt, b.isLt, a.isLt, d.isLt, by decide, trivial⟩
  have hm := fldN_pack _ hf
  refine decode_word _ hf rfl _ (by simp only [pack]; omega) _ (by simp only [isCommandWord, show _ = 33 from hm 26 6]; rfl) ?_ hw
  rw [major_decVint _ (hm 26 6)]
  simp only [decVint, show _ = 7 from hm 0 5, bit_is _ 5 s (hm 5 1), bit_is _ 6 t (hm 6 1), bit_is _ 7 c (hm 7 1), fld_is _ 8 3 k (hm 8 3), fld_is _ 11 5 b (hm 11 5), fld_is _ 16 5 a (hm 16 5), fld_is _ 21 5 d (hm 21 5)]

theorem vsll (d : BitVec 5) (a : BitVec 5) (b : BitVec 5) (k : BitVec 3) (c : Bool) (t : Bool) (s : Bool) : Statement (.vsll d a b k c t s) := fun _ hw => by
  have hf : Fits [(5, 8), (1, s.toNat), (1, t.toNat), (1, c.toNat), (3, k.toNat), (5, b.toNat), (5, a.toNat), (5, d.toNat), (6, 33)] :=
    ⟨by decide, s.toNat_lt, t.toNat_lt, c.toNat_lt, k.isLt, b.isLt, a.isLt, d.isLt, by decide, trivial⟩
  have hm := fldN_pack _ hf
  refine decode_word _ hf rfl _ (by simp only [pack]; omega) _ (by simp only [isCommandWord, show _ = 33 from hm 26 6]; rfl) ?_ hw
  rw [major_decVint _ (hm 26 6)]
  simp only [decVint, show _ = 8 from hm 0 5, bit_is _ 5 s (hm 5 1), bit_is _ 6 t (hm 6 1), bit_is _ 7 c (hm 7 1), fld_is _ 8 3 k (hm 8 3), fld_is _ 11 5 b (hm 11 5), fld_is _ 16 5 a (hm 16 5), fld_is _ 21 5 d (hm 21 5)]

theorem vsrl (d : BitVec 5) (a : BitVec 5) (b : BitVec 5) (k : BitVec 3) (c : Bool) (t : Bool) (s : Bool) : Statement (.vsrl d a b k c t s) := fun _ hw => by
  have hf : Fits [(5, 9), (1, s.toNat), (1, t.toNat), (1, c.toNat), (3, k.toNat), (5, b.toNat), (5, a.toNat), (5, d.toNat), (6, 33)] :=
    ⟨by decide, s.toNat_lt, t.toNat_lt, c.toNat_lt, k.isLt, b.isLt, a.isLt, d.isLt, by decide, trivial⟩
  have hm := fldN_pack _ hf
  refine decode_word _ hf rfl _ (by simp only [pack]; omega) _ (by simp only [isCommandWord, show _ = 33 from hm 26 6]; rfl) ?_ hw
  rw [major_decVint _ (hm 26 6)]
  simp only [decVint, show _ = 9 from hm 0 5, bit_is _ 5 s (hm 5 1), bit_is _ 6 t (hm 6 1), bit_is _ 7 c (hm 7 1), fld_is _ 8 3 k (hm 8 3), fld_is _ 11 5 b (hm 11 5), fld_is _ 16 5 a (hm 16 5), fld_is _ 21 5 d (hm 21 5)]

theorem vsra (d : BitVec 5) (a : BitVec 5) (b : BitVec 5) (k : BitVec 3) (c : Bool) (t : Bool) (s : Bool) : Statement (.vsra d a b k c t s) := fun _ hw => by
  have hf : Fits [(5, 10), (1, s.toNat), (1, t.toNat), (1, c.toNat), (3, k.toNat), (5, b.toNat), (5, a.toNat), (5, d.toNat), (6, 33)] :=
    ⟨by decide, s.toNat_lt, t.toNat_lt, c.toNat_lt, k.isLt, b.isLt, a.isLt, d.isLt, by decide, trivial⟩
  have hm := fldN_pack _ hf
  refine decode_word _ hf rfl _ (by simp only [pack]; omega) _ (by simp only [isCommandWord, show _ = 33 from hm 26 6]; rfl) ?_ hw
  rw [major_decVint _ (hm 26 6)]
  simp only [decVint, show _ = 10 from hm 0 5, bit_is _ 5 s (hm 5 1), bit_is _ 6 t (hm 6 1), bit_is _ 7 c (hm 7 1), fld_is _ 8 3 k (hm 8 3), fld_is _ 11 5 b (hm 11 5), fld_is _ 16 5 a (hm 16 5), fld_is _ 21 5 d (hm 21 5)]

theorem vmin (d : BitVec 5) (a : BitVec 5) (b : BitVec 5) (k : BitVec 3) (c : Bool) (t : Bool) (s : Bool) : Statement (.vmin d a b k c t s) := fun _ hw => by
  have hf : Fits [(5, 11), (1, s.toNat), (1, t.toNat), (1, c.toNat), (3, k.toNat), (5, b.toNat), (5, a.toNat), (5, d.toNat), (6, 33)] :=
    ⟨by decide, s.toNat_lt, t.toNat_lt, c.toNat_lt, k.isLt, b.isLt, a.isLt, d.isLt, by decide, trivial⟩
  have hm := fldN_pack _ hf
  refine decode_word _ hf rfl _ (by simp only [pack]; omega) _ (by simp only [isCommandWord, show _ = 33 from hm 26 6]; rfl) ?_ hw
  rw [major_decVint _ (hm 26 6)]
  simp only [decVint, show _ = 11 from hm 0 5, bit_is _ 5 s (hm 5 1), bit_is _ 6 t (hm 6 1), bit_is _ 7 c (hm 7 1), fld_is _ 8 3 k (hm 8 3), fld_is _ 11 5 b (hm 11 5), fld_is _ 16 5 a (hm 16 5), fld_is _ 21 5 d (hm 21 5)]

theorem vmax (d : BitVec 5) (a : BitVec 5) (b : BitVec 5) (k : BitVec 3) (c : Bool) (t : Bool) (s : Bool) : Statement (.vmax d a b k c t s) := fun _ hw => by
  have hf : Fits [(5, 12), (1, s.toNat), (1, t.toNat), (1, c.toNat), (3, k.toNat), (5, b.toNat), (5, a.toNat), (5, d.toNat), (6, 33)] :=
    ⟨by decide, s.toNat_lt, t.toNat_lt, c.toNat_lt, k.isLt, b.isLt, a.isLt, d.isLt, by decide, trivial⟩
  have hm := fldN_pack _ hf
  refine decode_word _ hf rfl _ (by simp only [pack]; omega) _ (by simp only [isCommandWord, show _ = 33 from hm 26 6]; rfl) ?_ hw
  rw [major_decVint _ (hm 26 6)]
  simp only [decVint, show _ = 12 from hm 0 5, bit_is _ 5 s (hm 5 1), bit_is _ 6 t (hm 6 1), bit_is _ 7 c (hm 7 1), fld_is _ 8 3 k (hm 8 3), fld_is _ 11 5 b (hm 11 5), fld_is _ 16 5 a (hm 16 5), fld_is _ 21 5 d (hm 21 5)]

theorem vminu (d : BitVec 5) (a : BitVec 5) (b : BitVec 5) (k : BitVec 3) (c : Bool) (t : Bool) (s : Bool) : Statement (.vminu d a b k c t s) := fun _ hw => by
  have hf : Fits [(5, 13), (1, s.toNat), (1, t.toNat), (1, c.toNat), (3, k.toNat), (5, b.toNat), (5, a.toNat), (5, d.toNat), (6, 33)] :=
    ⟨by decide, s.toNat_lt, t.toNat_lt, c.toNat_lt, k.isLt, b.isLt, a.isLt, d.isLt, by decide, trivial⟩
  have hm := fldN_pack _ hf
  refine decode_word _ hf rfl _ (by simp only [pack]; omega) _ (by simp only [isCommandWord, show _ = 33 from hm 26 6]; rfl) ?_ hw
  rw [major_decVint _ (hm 26 6)]
  simp only [decVint, show _ = 13 from hm 0 5, bit_is _ 5 s (hm 5 1), bit_is _ 6 t (hm 6 1), bit_is _ 7 c (hm 7 1), fld_is _ 8 3 k (hm 8 3), fld_is _ 11 5 b (hm 11 5), fld_is _ 16 5 a (hm 16 5), fld_is _ 21 5 d (hm 21 5)]

theorem vmaxu (d : BitVec 5) (a : BitVec 5) (b : BitVec 5) (k : BitVec 3) (c : Bool) (t : Bool) (s : Bool) : Statement (.vmaxu d a b k c t s) := fun _ hw => by
  have hf : Fits [(5, 14), (1, s.toNat), (1, t.toNat), (1, c.toNat), (3, k.toNat), (5, b.toNat), (5, a.toNat), (5, d.toNat), (6, 33)] :=
    ⟨by decide, s.toNat_lt, t.toNat_lt, c.toNat_lt, k.isLt, b.isLt, a.isLt, d.isLt, by decide, trivial⟩
  have hm := fldN_pack _ hf
  refine decode_word _ hf rfl _ (by simp only [pack]; omega) _ (by simp only [isCommandWord, show _ = 33 from hm 26 6]; rfl) ?_ hw
  rw [major_decVint _ (hm 26 6)]
  simp only [decVint, show _ = 14 from hm 0 5, bit_is _ 5 s (hm 5 1), bit_is _ 6 t (hm 6 1), bit_is _ 7 c (hm 7 1), fld_is _ 8 3 k (hm 8 3), fld_is _ 11 5 b (hm 11 5), fld_is _ 16 5 a (hm 16 5), fld_is _ 21 5 d (hm 21 5)]

theorem vabsd (d : BitVec 5) (a : BitVec 5) (b : BitVec 5) (k : BitVec 3) (c : Bool) (t : Bool) (s : Bool) : Statement (.vabsd d a b k c t s) := fun _ hw => by
  have hf : Fits [(5, 15), (1, s.toNat), (1, t.toNat), (1, c.toNat), (3, k.toNat), (5, b.toNat), (5, a.toNat), (5, d.toNat), (6, 33)] :=
    ⟨by decide, s.toNat_lt, t.toNat_lt, c.toNat_lt, k.isLt, b.isLt, a.isLt, d.isLt, by decide, trivial⟩
  have hm := fldN_pack _ hf
  refine decode_word _ hf rfl _ (by simp only [pack]; omega) _ (by simp only [isCommandWord, show _ = 33 from hm 26 6]; rfl) ?_ hw
  rw [major_decVint _ (hm 26 6)]
  simp only [decVint, show _ = 15 from hm 0 5, bit_is _ 5 s (hm 5 1), bit_is _ 6 t (hm 6 1), bit_is _ 7 c (hm 7 1), fld_is _ 8 3 k (hm 8 3), fld_is _ 11 5 b (hm 11 5), fld_is _ 16 5 a (hm 16 5), fld_is _ 21 5 d (hm 21 5)]

theorem vadds (d : BitVec 5) (a : BitVec 5) (b : BitVec 5) (k : BitVec 3) (c : Bool) (t : Bool) (s : Bool) : Statement (.vadds d a b k c t s) := fun _ hw => by
  have hf : Fits [(5, 16), (1, s.toNat), (1, t.toNat), (1, c.toNat), (3, k.toNat), (5, b.toNat), (5, a.toNat), (5, d.toNat), (6, 33)] :=
    ⟨by decide, s.toNat_lt, t.toNat_lt, c.toNat_lt, k.isLt, b.isLt, a.isLt, d.isLt, by decide, trivial⟩
  have hm := fldN_pack _ hf
  refine decode_word _ hf rfl _ (by simp only [pack]; omega) _ (by simp only [isCommandWord, show _ = 33 from hm 26 6]; rfl) ?_ hw
  rw [major_decVint _ (hm 26 6)]
  simp only [decVint, show _ = 16 from hm 0 5, bit_is _ 5 s (hm 5 1), bit_is _ 6 t (hm 6 1), bit_is _ 7 c (hm 7 1), fld_is _ 8 3 k (hm 8 3), fld_is _ 11 5 b (hm 11 5), fld_is _ 16 5 a (hm 16 5), fld_is _ 21 5 d (hm 21 5)]

theorem vsubs (d : BitVec 5) (a : BitVec 5) (b : BitVec 5) (k : BitVec 3) (c : Bool) (t : Bool) (s : Bool) : Statement (.vsubs d a b k c t s) := fun _ hw => by
  have hf : Fits [(5, 17), (1, s.toNat), (1, t.toNat), (1, c.toNat), (3, k.toNat), (5, b.toNat), (5, a.toNat), (5, d.toNat), (6, 33)] :=
    ⟨by decide, s.toNat_lt, t.toNat_lt, c.toNat_lt, k.isLt, b.isLt, a.isLt, d.isLt, by decide, trivial⟩
  have hm := fldN_pack _ hf
  refine decode_word _ hf rfl _ (by simp only [pack]; omega) _ (by simp only [isCommandWord, show _ = 33 from hm 26 6]; rfl) ?_ hw
  rw [major_decVint _ (hm 26 6)]
  simp only [decVint, show _ = 17 from hm 0 5, bit_is _ 5 s (hm 5 1), bit_is _ 6 t (hm 6 1), bit_is _ 7 c (hm 7 1), fld_is _ 8 3 k (hm 8 3), fld_is _ 11 5 b (hm 11 5), fld_is _ 16 5 a (hm 16 5), fld_is _ 21 5 d (hm 21 5)]

theorem vaddus (d : BitVec 5) (a : BitVec 5) (b : BitVec 5) (k : BitVec 3) (c : Bool) (t : Bool) (s : Bool) : Statement (.vaddus d a b k c t s) := fun _ hw => by
  have hf : Fits [(5, 18), (1, s.toNat), (1, t.toNat), (1, c.toNat), (3, k.toNat), (5, b.toNat), (5, a.toNat), (5, d.toNat), (6, 33)] :=
    ⟨by decide, s.toNat_lt, t.toNat_lt, c.toNat_lt, k.isLt, b.isLt, a.isLt, d.isLt, by decide, trivial⟩
  have hm := fldN_pack _ hf
  refine decode_word _ hf rfl _ (by simp only [pack]; omega) _ (by simp only [isCommandWord, show _ = 33 from hm 26 6]; rfl) ?_ hw
  rw [major_decVint _ (hm 26 6)]
  simp only [decVint, show _ = 18 from hm 0 5, bit_is _ 5 s (hm 5 1), bit_is _ 6 t (hm 6 1), bit_is _ 7 c (hm 7 1), fld_is _ 8 3 k (hm 8 3), fld_is _ 11 5 b (hm 11 5), fld_is _ 16 5 a (hm 16 5), fld_is _ 21 5 d (hm 21 5)]

theorem vsubus (d : BitVec 5) (a : BitVec 5) (b : BitVec 5) (k : BitVec 3) (c : Bool) (t : Bool) (s : Bool) : Statement (.vsubus d a b k c t s) := fun _ hw => by
  have hf : Fits [(5, 19), (1, s.toNat), (1, t.toNat), (1, c.toNat), (3, k.toNat), (5, b.toNat), (5, a.toNat), (5, d.toNat), (6, 33)] :=
    ⟨by decide, s.toNat_lt, t.toNat_lt, c.toNat_lt, k.isLt, b.isLt, a.isLt, d.isLt, by decide, trivial⟩
  have hm := fldN_pack _ hf
  refine decode_word _ hf rfl _ (by simp only [pack]; omega) _ (by simp only [isCommandWord, show _ = 33 from hm 26 6]; rfl) ?_ hw
  rw [major_decVint _ (hm 26 6)]
  simp only [decVint, show _ = 19 from hm 0 5, bit_is _ 5 s (hm 5 1), bit_is _ 6 t (hm 6 1), bit_is _ 7 c (hm 7 1), fld_is _ 8 3 k (hm 8 3), fld_is _ 11 5 b (hm 11 5), fld_is _ 16 5 a (hm 16 5), fld_is _ 21 5 d (hm 21 5)]

theorem vdot4 (d : BitVec 5) (a : BitVec 5) (b : BitVec 5) (k : BitVec 3) (c : Bool) (t : Bool) (s : Bool) : Statement (.vdot4 d a b k c t s) := fun _ hw => by
  have hf : Fits [(5, 20), (1, s.toNat), (1, t.toNat), (1, c.toNat), (3, k.toNat), (5, b.toNat), (5, a.toNat), (5, d.toNat), (6, 33)] :=
    ⟨by decide, s.toNat_lt, t.toNat_lt, c.toNat_lt, k.isLt, b.isLt, a.isLt, d.isLt, by decide, trivial⟩
  have hm := fldN_pack _ hf
  refine decode_word _ hf rfl _ (by simp only [pack]; omega) _ (by simp only [isCommandWord, show _ = 33 from hm 26 6]; rfl) ?_ hw
  rw [major_decVint _ (hm 26 6)]
  simp only [decVint, show _ = 20 from hm 0 5, bit_is _ 5 s (hm 5 1), bit_is _ 6 t (hm 6 1), bit_is _ 7 c (hm 7 1), fld_is _ 8 3 k (hm 8 3), fld_is _ 11 5 b (hm 11 5), fld_is _ 16 5 a (hm 16 5), fld_is _ 21 5 d (hm 21 5)]

theorem vmac (d : BitVec 5) (a : BitVec 5) (b : BitVec 5) (k : BitVec 3) (c : Bool) (t : Bool) (s : Bool) : Statement (.vmac d a b k c t s) := fun _ hw => by
  have hf : Fits [(5, 21), (1, s.toNat), (1, t.toNat), (1, c.toNat), (3, k.toNat), (5, b.toNat), (5, a.toNat), (5, d.toNat), (6, 33)] :=
    ⟨by decide, s.toNat_lt, t.toNat_lt, c.toNat_lt, k.isLt, b.isLt, a.isLt, d.isLt, by decide, trivial⟩
  have hm := fldN_pack _ hf
  refine decode_word _ hf rfl _ (by simp only [pack]; omega) _ (by simp only [isCommandWord, show _ = 33 from hm 26 6]; rfl) ?_ hw
  rw [major_decVint _ (hm 26 6)]
  simp only [decVint, show _ = 21 from hm 0 5, bit_is _ 5 s (hm 5 1), bit_is _ 6 t (hm 6 1), bit_is _ 7 c (hm 7 1), fld_is _ 8 3 k (hm 8 3), fld_is _ 11 5 b (hm 11 5), fld_is _ 16 5 a (hm 16 5), fld_is _ 21 5 d (hm 21 5)]

theorem vfadd (d : BitVec 5) (a : BitVec 5) (b : BitVec 5) (k : BitVec 3) (c : Bool) (t : Bool) (s : Bool) : Statement (.vfadd d a b k c t s) := fun _ hw => by
  have hf : Fits [(5, 0), (1, s.toNat), (1, t.toNat), (1, c.toNat), (3, k.toNat), (5, b.toNat), (5, a.toNat), (5, d.toNat), (6, 34)] :=
    ⟨by decide, s.toNat_lt, t.toNat_lt, c.toNat_lt, k.isLt, b.isLt, a.isLt, d.isLt, by decide, trivial⟩
  have hm := fldN_pack _ hf
  refine decode_word _ hf rfl _ (by simp only [pack]; omega) _ (by simp only [isCommandWord, show _ = 34 from hm 26 6]; rfl) ?_ hw
  rw [major_decVfp _ (hm 26 6)]
  simp only [decVfp, show _ = 0 from hm 0 5, bit_is _ 5 s (hm 5 1), bit_is _ 6 t (hm 6 1), bit_is _ 7 c (hm 7 1), fld_is _ 8 3 k (hm 8 3), fld_is _ 11 5 b (hm 11 5), fld_is _ 16 5 a (hm 16 5), fld_is _ 21 5 d (hm 21 5)]

theorem vfsub (d : BitVec 5) (a : BitVec 5) (b : BitVec 5) (k : BitVec 3) (c : Bool) (t : Bool) (s : Bool) : Statement (.vfsub d a b k c t s) := fun _ hw => by
  have hf : Fits [(5, 1), (1, s.toNat), (1, t.toNat), (1, c.toNat), (3, k.toNat), (5, b.toNat), (5, a.toNat), (5, d.toNat), (6, 34)] :=
    ⟨by decide, s.toNat_lt, t.toNat_lt, c.toNat_lt, k.isLt, b.isLt, a.isLt, d.isLt, by decide, trivial⟩
  have hm := fldN_pack _ hf
  refine decode_word _ hf rfl _ (by simp only [pack]; omega) _ (by simp only [isCommandWord, show _ = 34 from hm 26 6]; rfl) ?_ hw
  rw [major_decVfp _ (hm 26 6)]
  simp only [decVfp, show _ = 1 from hm 0 5, bit_is _ 5 s (hm 5 1), bit_is _ 6 t (hm 6 1), bit_is _ 7 c (hm 7 1), fld_is _ 8 3 k (hm 8 3), fld_is _ 11 5 b (hm 11 5), fld_is _ 16 5 a (hm 16 5), fld_is _ 21 5 d (hm 21 5)]

theorem vfmul (d : BitVec 5) (a : BitVec 5) (b : BitVec 5) (k : BitVec 3) (c : Bool) (t : Bool) (s : Bool) : Statement (.vfmul d a b k c t s) := fun _ hw => by
  have hf : Fits [(5, 2), (1, s.toNat), (1, t.toNat), (1, c.toNat), (3, k.toNat), (5, b.toNat), (5, a.toNat), (5, d.toNat), (6, 34)] :=
    ⟨by decide, s.toNat_lt, t.toNat_lt, c.toNat_lt, k.isLt, b.isLt, a.isLt, d.isLt, by decide, trivial⟩
  have hm := fldN_pack _ hf
  refine decode_word _ hf rfl _ (by simp only [pack]; omega) _ (by simp only [isCommandWord, show _ = 34 from hm 26 6]; rfl) ?_ hw
  rw [major_decVfp _ (hm 26 6)]
  simp only [decVfp, show _ = 2 from hm 0 5, bit_is _ 5 s (hm 5 1), bit_is _ 6 t (hm 6 1), bit_is _ 7 c (hm 7 1), fld_is _ 8 3 k (hm 8 3), fld_is _ 11 5 b (hm 11 5), fld_is _ 16 5 a (hm 16 5), fld_is _ 21 5 d (hm 21 5)]

theorem vfma (d : BitVec 5) (a : BitVec 5) (b : BitVec 5) (k : BitVec 3) (c : Bool) (t : Bool) (s : Bool) : Statement (.vfma d a b k c t s) := fun _ hw => by
  have hf : Fits [(5, 3), (1, s.toNat), (1, t.toNat), (1, c.toNat), (3, k.toNat), (5, b.toNat), (5, a.toNat), (5, d.toNat), (6, 34)] :=
    ⟨by decide, s.toNat_lt, t.toNat_lt, c.toNat_lt, k.isLt, b.isLt, a.isLt, d.isLt, by decide, trivial⟩
  have hm := fldN_pack _ hf
  refine decode_word _ hf rfl _ (by simp only [pack]; omega) _ (by simp only [isCommandWord, show _ = 34 from hm 26 6]; rfl) ?_ hw
  rw [major_decVfp _ (hm 26 6)]
  simp only [decVfp, show _ = 3 from hm 0 5, bit_is _ 5 s (hm 5 1), bit_is _ 6 t (hm 6 1), bit_is _ 7 c (hm 7 1), fld_is _ 8 3 k (hm 8 3), fld_is _ 11 5 b (hm 11 5), fld_is _ 16 5 a (hm 16 5), fld_is _ 21 5 d (hm 21 5)]

theorem vfnma (d : BitVec 5) (a : BitVec 5) (b : BitVec 5) (k : BitVec 3) (c : Bool) (t : Bool) (s : Bool) : Statement (.vfnma d a b k c t s) := fun _ hw => by
  have hf : Fits [(5, 4), (1, s.toNat), (1, t.toNat), (1, c.toNat), (3, k.toNat), (5, b.toNat), (5, a.toNat), (5, d.toNat), (6, 34)] :=
    ⟨by decide, s.toNat_lt, t.toNat_lt, c.toNat_lt, k.isLt, b.isLt, a.isLt, d.isLt, by decide, trivial⟩
  have hm := fldN_pack _ hf
  refine decode_word _ hf rfl _ (by simp only [pack]; omega) _ (by simp only [isCommandWord, show _ = 34 from hm 26 6]; rfl) ?_ hw
  rw [major_decVfp _ (hm 26 6)]
  simp only [decVfp, show _ = 4 from hm 0 5, bit_is _ 5 s (hm 5 1), bit_is _ 6 t (hm 6 1), bit_is _ 7 c (hm 7 1), fld_is _ 8 3 k (hm 8 3), fld_is _ 11 5 b (hm 11 5), fld_is _ 16 5 a (hm 16 5), fld_is _ 21 5 d (hm 21 5)]

theorem vfdiv (d : BitVec 5) (a : BitVec 5) (b : BitVec 5) (k : BitVec 3) (c : Bool) (t : Bool) (s : Bool) : Statement (.vfdiv d a b k c t s) := fun _ hw => by
  have hf : Fits [(5, 5), (1, s.toNat), (1, t.toNat), (1, c.toNat), (3, k.toNat), (5, b.toNat), (5, a.toNat), (5, d.toNat), (6, 34)] :=
    ⟨by decide, s.toNat_lt, t.toNat_lt, c.toNat_lt, k.isLt, b.isLt, a.isLt, d.isLt, by decide, trivial⟩
  have hm := fldN_pack _ hf
  refine decode_word _ hf rfl _ (by simp only [pack]; omega) _ (by simp only [isCommandWord, show _ = 34 from hm 26 6]; rfl) ?_ hw
  rw [major_decVfp _ (hm 26 6)]
  simp only [decVfp, show _ = 5 from hm 0 5, bit_is _ 5 s (hm 5 1), bit_is _ 6 t (hm 6 1), bit_is _ 7 c (hm 7 1), fld_is _ 8 3 k (hm 8 3), fld_is _ 11 5 b (hm 11 5), fld_is _ 16 5 a (hm 16 5), fld_is _ 21 5 d (hm 21 5)]

theorem vfsqrt (d : BitVec 5) (a : BitVec 5) (k : BitVec 3) (c : Bool) (t : Bool) : Statement (.vfsqrt d a k c t) := fun _ hw => by
  have hf : Fits [(5, 6), (1, 0), (1, t.toNat), (1, c.toNat), (3, k.toNat), (5, 0), (5, a.toNat), (5, d.toNat), (6, 34)] :=
    ⟨by decide, by decide, t.toNat_lt, c.toNat_lt, k.isLt, by decide, a.isLt, d.isLt, by decide, trivial⟩
  have hm := fldN_pack _ hf
  refine decode_word _ hf rfl _ (by simp only [pack]; omega) _ (by simp only [isCommandWord, show _ = 34 from hm 26 6]; rfl) ?_ hw
  rw [major_decVfp _ (hm 26 6)]
  simp only [decVfp, show _ = 6 from hm 0 5, show _ = 0 from hm 5 1, show _ = 0 from hm 11 5, bit_is _ 6 t (hm 6 1), bit_is _ 7 c (hm 7 1), fld_is _ 8 3 k (hm 8 3), fld_is _ 16 5 a (hm 16 5), fld_is _ 21 5 d (hm 21 5)]
  rfl

theorem vfmin (d : BitVec 5) (a : BitVec 5) (b : BitVec 5) (k : BitVec 3) (c : Bool) (t : Bool) (s : Bool) : Statement (.vfmin d a b k c t s) := fun _ hw => by
  have hf : Fits [(5, 7), (1, s.toNat), (1, t.toNat), (1, c.toNat), (3, k.toNat), (5, b.toNat), (5, a.toNat), (5, d.toNat), (6, 34)] :=
    ⟨by decide, s.toNat_lt, t.toNat_lt, c.toNat_lt, k.isLt, b.isLt, a.isLt, d.isLt, by decide, trivial⟩
  have hm := fldN_pack _ hf
  refine decode_word _ hf rfl _ (by simp only [pack]; omega) _ (by simp only [isCommandWord, show _ = 34 from hm 26 6]; rfl) ?_ hw
  rw [major_decVfp _ (hm 26 6)]
  simp only [decVfp, show _ = 7 from hm 0 5, bit_is _ 5 s (hm 5 1), bit_is _ 6 t (hm 6 1), bit_is _ 7 c (hm 7 1), fld_is _ 8 3 k (hm 8 3), fld_is _ 11 5 b (hm 11 5), fld_is _ 16 5 a (hm 16 5), fld_is _ 21 5 d (hm 21 5)]

theorem vfmax (d : BitVec 5) (a : BitVec 5) (b : BitVec 5) (k : BitVec 3) (c : Bool) (t : Bool) (s : Bool) : Statement (.vfmax d a b k c t s) := fun _ hw => by
  have hf : Fits [(5, 8), (1, s.toNat), (1, t.toNat), (1, c.toNat), (3, k.toNat), (5, b.toNat), (5, a.toNat), (5, d.toNat), (6, 34)] :=
    ⟨by decide, s.toNat_lt, t.toNat_lt, c.toNat_lt, k.isLt, b.isLt, a.isLt, d.isLt, by decide, trivial⟩
  have hm := fldN_pack _ hf
  refine decode_word _ hf rfl _ (by simp only [pack]; omega) _ (by simp only [isCommandWord, show _ = 34 from hm 26 6]; rfl) ?_ hw
  rw [major_decVfp _ (hm 26 6)]
  simp only [decVfp, show _ = 8 from hm 0 5, bit_is _ 5 s (hm 5 1), bit_is _ 6 t (hm 6 1), bit_is _ 7 c (hm 7 1), fld_is _ 8 3 k (hm 8 3), fld_is _ 11 5 b (hm 11 5), fld_is _ 16 5 a (hm 16 5), fld_is _ 21 5 d (hm 21 5)]

theorem vfabs (d : BitVec 5) (a : BitVec 5) (k : BitVec 3) (c : Bool) (t : Bool) : Statement (.vfabs d a k c t) := fun _ hw => by
  have hf : Fits [(5, 9), (1, 0), (1, t.toNat), (1, c.toNat), (3, k.toNat), (5, 0), (5, a.toNat), (5, d.toNat), (6, 34)] :=
    ⟨by decide, by decide, t.toNat_lt, c.toNat_lt, k.isLt, by decide, a.isLt, d.isLt, by decide, trivial⟩
  have hm := fldN_pack _ hf
  refine decode_word _ hf rfl _ (by simp only [pack]; omega) _ (by simp only [isCommandWord, show _ = 34 from hm 26 6]; rfl) ?_ hw
  rw [major_decVfp _ (hm 26 6)]
  simp only [decVfp, show _ = 9 from hm 0 5, show _ = 0 from hm 5 1, show _ = 0 from hm 11 5, bit_is _ 6 t (hm 6 1), bit_is _ 7 c (hm 7 1), fld_is _ 8 3 k (hm 8 3), fld_is _ 16 5 a (hm 16 5), fld_is _ 21 5 d (hm 21 5)]
  rfl

theorem vfneg (d : BitVec 5) (a : BitVec 5) (k : BitVec 3) (c : Bool) (t : Bool) : Statement (.vfneg d a k c t) := fun _ hw => by
  have hf : Fits [(5, 10), (1, 0), (1, t.toNat), (1, c.toNat), (3, k.toNat), (5, 0), (5, a.toNat), (5, d.toNat), (6, 34)] :=
    ⟨by decide, by decide, t.toNat_lt, c.toNat_lt, k.isLt, by decide, a.isLt, d.isLt, by decide, trivial⟩
  have hm := fldN_pack _ hf
  refine decode_word _ hf rfl _ (by simp only [pack]; omega) _ (by simp only [isCommandWord, show _ = 34 from hm 26 6]; rfl) ?_ hw
  rw [major_decVfp _ (hm 26 6)]
  simp only [decVfp, show _ = 10 from hm 0 5, show _ = 0 from hm 5 1, show _ = 0 from hm 11 5, bit_is _ 6 t (hm 6 1), bit_is _ 7 c (hm 7 1), fld_is _ 8 3 k (hm 8 3), fld_is _ 16 5 a (hm 16 5), fld_is _ 21 5 d (hm 21 5)]
  rfl

theorem vfscl (d : BitVec 5) (a : BitVec 5) (b : BitVec 5) (k : BitVec 3) (c : Bool) (t : Bool) (s : Bool) : Statement (.vfscl d a b k c t s) := fun _ hw => by
  have hf : Fits [(5, 11), (1, s.toNat), (1, t.toNat), (1, c.toNat), (3, k.toNat), (5, b.toNat), (5, a.toNat), (5, d.toNat), (6, 34)] :=
    ⟨by decide, s.toNat_lt, t.toNat_lt, c.toNat_lt, k.isLt, b.isLt, a.isLt, d.isLt, by decide, trivial⟩
  have hm := fldN_pack _ hf
  refine decode_word _ hf rfl _ (by simp only [pack]; omega) _ (by simp only [isCommandWord, show _ = 34 from hm 26 6]; rfl) ?_ hw
  rw [major_decVfp _ (hm 26 6)]
  simp only [decVfp, show _ = 11 from hm 0 5, bit_is _ 5 s (hm 5 1), bit_is _ 6 t (hm 6 1), bit_is _ 7 c (hm 7 1), fld_is _ 8 3 k (hm 8 3), fld_is _ 11 5 b (hm 11 5), fld_is _ 16 5 a (hm 16 5), fld_is _ 21 5 d (hm 21 5)]

theorem vsfuExp2 (d : BitVec 5) (a : BitVec 5) (k : BitVec 3) (c : Bool) (t : Bool) : Statement (.vsfuExp2 d a k c t) := fun _ hw => by
  have hf : Fits [(6, 0), (1, t.toNat), (1, c.toNat), (3, k.toNat), (5, 0), (5, a.toNat), (5, d.toNat), (6, 35)] :=
    ⟨by decide, t.toNat_lt, c.toNat_lt, k.isLt, by decide, a.isLt, d.isLt, by decide, trivial⟩
  have hm := fldN_pack _ hf
  refine decode_word _ hf rfl _ (by simp only [pack]; omega) _ (by simp only [isCommandWord, show _ = 35 from hm 26 6]; rfl) ?_ hw
  rw [major_decVsfu _ (hm 26 6)]
  simp only [decVsfu, show _ = 0 from hm 0 6, show _ = 0 from hm 11 5, bit_is _ 6 t (hm 6 1), bit_is _ 7 c (hm 7 1), fld_is _ 8 3 k (hm 8 3), fld_is _ 16 5 a (hm 16 5), fld_is _ 21 5 d (hm 21 5)]
  rfl

theorem vsfuLog2 (d : BitVec 5) (a : BitVec 5) (k : BitVec 3) (c : Bool) (t : Bool) : Statement (.vsfuLog2 d a k c t) := fun _ hw => by
  have hf : Fits [(6, 1), (1, t.toNat), (1, c.toNat), (3, k.toNat), (5, 0), (5, a.toNat), (5, d.toNat), (6, 35)] :=
    ⟨by decide, t.toNat_lt, c.toNat_lt, k.isLt, by decide, a.isLt, d.isLt, by decide, trivial⟩
  have hm := fldN_pack _ hf
  refine decode_word _ hf rfl _ (by simp only [pack]; omega) _ (by simp only [isCommandWord, show _ = 35 from hm 26 6]; rfl) ?_ hw
  rw [major_decVsfu _ (hm 26 6)]
  simp only [decVsfu, show _ = 1 from hm 0 6, show _ = 0 from hm 11 5, bit_is _ 6 t (hm 6 1), bit_is _ 7 c (hm 7 1), fld_is _ 8 3 k (hm 8 3), fld_is _ 16 5 a (hm 16 5), fld_is _ 21 5 d (hm 21 5)]
  rfl

theorem vsfuRcp (d : BitVec 5) (a : BitVec 5) (k : BitVec 3) (c : Bool) (t : Bool) : Statement (.vsfuRcp d a k c t) := fun _ hw => by
  have hf : Fits [(6, 2), (1, t.toNat), (1, c.toNat), (3, k.toNat), (5, 0), (5, a.toNat), (5, d.toNat), (6, 35)] :=
    ⟨by decide, t.toNat_lt, c.toNat_lt, k.isLt, by decide, a.isLt, d.isLt, by decide, trivial⟩
  have hm := fldN_pack _ hf
  refine decode_word _ hf rfl _ (by simp only [pack]; omega) _ (by simp only [isCommandWord, show _ = 35 from hm 26 6]; rfl) ?_ hw
  rw [major_decVsfu _ (hm 26 6)]
  simp only [decVsfu, show _ = 2 from hm 0 6, show _ = 0 from hm 11 5, bit_is _ 6 t (hm 6 1), bit_is _ 7 c (hm 7 1), fld_is _ 8 3 k (hm 8 3), fld_is _ 16 5 a (hm 16 5), fld_is _ 21 5 d (hm 21 5)]
  rfl

theorem vsfuRsqrt (d : BitVec 5) (a : BitVec 5) (k : BitVec 3) (c : Bool) (t : Bool) : Statement (.vsfuRsqrt d a k c t) := fun _ hw => by
  have hf : Fits [(6, 3), (1, t.toNat), (1, c.toNat), (3, k.toNat), (5, 0), (5, a.toNat), (5, d.toNat), (6, 35)] :=
    ⟨by decide, t.toNat_lt, c.toNat_lt, k.isLt, by decide, a.isLt, d.isLt, by decide, trivial⟩
  have hm := fldN_pack _ hf
  refine decode_word _ hf rfl _ (by simp only [pack]; omega) _ (by simp only [isCommandWord, show _ = 35 from hm 26 6]; rfl) ?_ hw
  rw [major_decVsfu _ (hm 26 6)]
  simp only [decVsfu, show _ = 3 from hm 0 6, show _ = 0 from hm 11 5, bit_is _ 6 t (hm 6 1), bit_is _ 7 c (hm 7 1), fld_is _ 8 3 k (hm 8 3), fld_is _ 16 5 a (hm 16 5), fld_is _ 21 5 d (hm 21 5)]
  rfl

theorem vsfuSin (d : BitVec 5) (a : BitVec 5) (k : BitVec 3) (c : Bool) (t : Bool) : Statement (.vsfuSin d a k c t) := fun _ hw => by
  have hf : Fits [(6, 4), (1, t.toNat), (1, c.toNat), (3, k.toNat), (5, 0), (5, a.toNat), (5, d.toNat), (6, 35)] :=
    ⟨by decide, t.toNat_lt, c.toNat_lt, k.isLt, by decide, a.isLt, d.isLt, by decide, trivial⟩
  have hm := fldN_pack _ hf
  refine decode_word _ hf rfl _ (by simp only [pack]; omega) _ (by simp only [isCommandWord, show _ = 35 from hm 26 6]; rfl) ?_ hw
  rw [major_decVsfu _ (hm 26 6)]
  simp only [decVsfu, show _ = 4 from hm 0 6, show _ = 0 from hm 11 5, bit_is _ 6 t (hm 6 1), bit_is _ 7 c (hm 7 1), fld_is _ 8 3 k (hm 8 3), fld_is _ 16 5 a (hm 16 5), fld_is _ 21 5 d (hm 21 5)]
  rfl

theorem vsfuCos (d : BitVec 5) (a : BitVec 5) (k : BitVec 3) (c : Bool) (t : Bool) : Statement (.vsfuCos d a k c t) := fun _ hw => by
  have hf : Fits [(6, 5), (1, t.toNat), (1, c.toNat), (3, k.toNat), (5, 0), (5, a.toNat), (5, d.toNat), (6, 35)] :=
    ⟨by decide, t.toNat_lt, c.toNat_lt, k.isLt, by decide, a.isLt, d.isLt, by decide, trivial⟩
  have hm := fldN_pack _ hf
  refine decode_word _ hf rfl _ (by simp only [pack]; omega) _ (by simp only [isCommandWord, show _ = 35 from hm 26 6]; rfl) ?_ hw
  rw [major_decVsfu _ (hm 26 6)]
  simp only [decVsfu, show _ = 5 from hm 0 6, show _ = 0 from hm 11 5, bit_is _ 6 t (hm 6 1), bit_is _ 7 c (hm 7 1), fld_is _ 8 3 k (hm 8 3), fld_is _ 16 5 a (hm 16 5), fld_is _ 21 5 d (hm 21 5)]
  rfl

theorem vsfuTanh (d : BitVec 5) (a : BitVec 5) (k : BitVec 3) (c : Bool) (t : Bool) : Statement (.vsfuTanh d a k c t) := fun _ hw => by
  have hf : Fits [(6, 6), (1, t.toNat), (1, c.toNat), (3, k.toNat), (5, 0), (5, a.toNat), (5, d.toNat), (6, 35)] :=
    ⟨by decide, t.toNat_lt, c.toNat_lt, k.isLt, by decide, a.isLt, d.isLt, by decide, trivial⟩
  have hm := fldN_pack _ hf
  refine decode_word _ hf rfl _ (by simp only [pack]; omega) _ (by simp only [isCommandWord, show _ = 35 from hm 26 6]; rfl) ?_ hw
  rw [major_decVsfu _ (hm 26 6)]
  simp only [decVsfu, show _ = 6 from hm 0 6, show _ = 0 from hm 11 5, bit_is _ 6 t (hm 6 1), bit_is _ 7 c (hm 7 1), fld_is _ 8 3 k (hm 8 3), fld_is _ 16 5 a (hm 16 5), fld_is _ 21 5 d (hm 21 5)]
  rfl

theorem vsfuSigm (d : BitVec 5) (a : BitVec 5) (k : BitVec 3) (c : Bool) (t : Bool) : Statement (.vsfuSigm d a k c t) := fun _ hw => by
  have hf : Fits [(6, 7), (1, t.toNat), (1, c.toNat), (3, k.toNat), (5, 0), (5, a.toNat), (5, d.toNat), (6, 35)] :=
    ⟨by decide, t.toNat_lt, c.toNat_lt, k.isLt, by decide, a.isLt, d.isLt, by decide, trivial⟩
  have hm := fldN_pack _ hf
  refine decode_word _ hf rfl _ (by simp only [pack]; omega) _ (by simp only [isCommandWord, show _ = 35 from hm 26 6]; rfl) ?_ hw
  rw [major_decVsfu _ (hm 26 6)]
  simp only [decVsfu, show _ = 7 from hm 0 6, show _ = 0 from hm 11 5, bit_is _ 6 t (hm 6 1), bit_is _ 7 c (hm 7 1), fld_is _ 8 3 k (hm 8 3), fld_is _ 16 5 a (hm 16 5), fld_is _ 21 5 d (hm 21 5)]
  rfl

theorem vcmp (d : BitVec 5) (a : BitVec 5) (b : BitVec 5) (k : BitVec 3) (c : Bool) (t : Bool) (s : Bool) (n : BitVec 4) : Statement (.vcmp d a b k c t s n) := fun _ hw => by
  have hf : Fits [(4, n.toNat), (1, 0), (1, s.toNat), (1, t.toNat), (1, c.toNat), (3, k.toNat), (5, b.toNat), (5, a.toNat), (5, d.toNat), (6, 36)] :=
    ⟨n.isLt, by decide, s.toNat_lt, t.toNat_lt, c.toNat_lt, k.isLt, b.isLt, a.isLt, d.isLt, by decide, trivial⟩
  have hm := fldN_pack _ hf
  refine decode_word _ hf rfl _ (by simp only [pack]; omega) _ (by simp only [isCommandWord, show _ = 36 from hm 26 6]; rfl) ?_ hw
  rw [major_decVcmp _ (hm 26 6)]
  simp only [decVcmp, show _ = 0 from hm 4 1, fld_is _ 0 4 n (hm 0 4), bit_is _ 5 s (hm 5 1), bit_is _ 6 t (hm 6 1), bit_is _ 7 c (hm 7 1), fld_is _ 8 3 k (hm 8 3), fld_is _ 11 5 b (hm 11 5), fld_is _ 16 5 a (hm 16 5), fld_is _ 21 5 d (hm 21 5)]

theorem vfcmp (d : BitVec 5) (a : BitVec 5) (b : BitVec 5) (k : BitVec 3) (c : Bool) (t : Bool) (s : Bool) (n : BitVec 4) : Statement (.vfcmp d a b k c t s n) := fun _ hw => by
  have hf : Fits [(4, n.toNat), (1, 1), (1, s.toNat), (1, t.toNat), (1, c.toNat), (3, k.toNat), (5, b.toNat), (5, a.toNat), (5, d.toNat), (6, 36)] :=
    ⟨n.isLt, by decide, s.toNat_lt, t.toNat_lt, c.toNat_lt, k.isLt, b.isLt, a.isLt, d.isLt, by decide, trivial⟩
  have hm := fldN_pack _ hf
  refine decode_word _ hf rfl _ (by simp only [pack]; omega) _ (by simp only [isCommandWord, show _ = 36 from hm 26 6]; rfl) ?_ hw
  rw [major_decVcmp _ (hm 26 6)]
  simp only [decVcmp, show _ = 1 from hm 4 1, fld_is _ 0 4 n (hm 0 4), bit_is _ 5 s (hm 5 1), bit_is _ 6 t (hm 6 1), bit_is _ 7 c (hm 7 1), fld_is _ 8 3 k (hm 8 3), fld_is _ 11 5 b (hm 11 5), fld_is _ 16 5 a (hm 16 5), fld_is _ 21 5 d (hm 21 5)]

theorem mand (d : BitVec 5) (a : BitVec 5) (b : BitVec 5) (k : BitVec 3) (c : Bool) (t : Bool) : Statement (.mand d a b k c t) := fun _ hw => by
  have hf : Fits [(6, 0), (1, t.toNat), (1, c.toNat), (3, k.toNat), (5, b.toNat), (5, a.toNat), (5, d.toNat), (6, 37)] :=
    ⟨by decide, t.toNat_lt, c.toNat_lt, k.isLt, b.isLt, a.isLt, d.isLt, by decide, trivial⟩
  have hm := fldN_pack _ hf
  refine decode_word _ hf rfl _ (by simp only [pack]; omega) _ (by simp only [isCommandWord, show _ = 37 from hm 26 6]; rfl) ?_ hw
  rw [major_decVmask _ (hm 26 6)]
  simp only [decVmask, show _ = 0 from hm 0 6, bit_is _ 6 t (hm 6 1), bit_is _ 7 c (hm 7 1), fld_is _ 8 3 k (hm 8 3), fld_is _ 11 5 b (hm 11 5), fld_is _ 16 5 a (hm 16 5), fld_is _ 21 5 d (hm 21 5)]

theorem mor (d : BitVec 5) (a : BitVec 5) (b : BitVec 5) (k : BitVec 3) (c : Bool) (t : Bool) : Statement (.mor d a b k c t) := fun _ hw => by
  have hf : Fits [(6, 1), (1, t.toNat), (1, c.toNat), (3, k.toNat), (5, b.toNat), (5, a.toNat), (5, d.toNat), (6, 37)] :=
    ⟨by decide, t.toNat_lt, c.toNat_lt, k.isLt, b.isLt, a.isLt, d.isLt, by decide, trivial⟩
  have hm := fldN_pack _ hf
  refine decode_word _ hf rfl _ (by simp only [pack]; omega) _ (by simp only [isCommandWord, show _ = 37 from hm 26 6]; rfl) ?_ hw
  rw [major_decVmask _ (hm 26 6)]
  simp only [decVmask, show _ = 1 from hm 0 6, bit_is _ 6 t (hm 6 1), bit_is _ 7 c (hm 7 1), fld_is _ 8 3 k (hm 8 3), fld_is _ 11 5 b (hm 11 5), fld_is _ 16 5 a (hm 16 5), fld_is _ 21 5 d (hm 21 5)]

theorem mxor (d : BitVec 5) (a : BitVec 5) (b : BitVec 5) (k : BitVec 3) (c : Bool) (t : Bool) : Statement (.mxor d a b k c t) := fun _ hw => by
  have hf : Fits [(6, 2), (1, t.toNat), (1, c.toNat), (3, k.toNat), (5, b.toNat), (5, a.toNat), (5, d.toNat), (6, 37)] :=
    ⟨by decide, t.toNat_lt, c.toNat_lt, k.isLt, b.isLt, a.isLt, d.isLt, by decide, trivial⟩
  have hm := fldN_pack _ hf
  refine decode_word _ hf rfl _ (by simp only [pack]; omega) _ (by simp only [isCommandWord, show _ = 37 from hm 26 6]; rfl) ?_ hw
  rw [major_decVmask _ (hm 26 6)]
  simp only [decVmask, show _ = 2 from hm 0 6, bit_is _ 6 t (hm 6 1), bit_is _ 7 c (hm 7 1), fld_is _ 8 3 k (hm 8 3), fld_is _ 11 5 b (hm 11 5), fld_is _ 16 5 a (hm 16 5), fld_is _ 21 5 d (hm 21 5)]

theorem mandn (d : BitVec 5) (a : BitVec 5) (b : BitVec 5) (k : BitVec 3) (c : Bool) (t : Bool) : Statement (.mandn d a b k c t) := fun _ hw => by
  have hf : Fits [(6, 3), (1, t.toNat), (1, c.toNat), (3, k.toNat), (5, b.toNat), (5, a.toNat), (5, d.toNat), (6, 37)] :=
    ⟨by decide, t.toNat_lt, c.toNat_lt, k.isLt, b.isLt, a.isLt, d.isLt, by decide, trivial⟩
  have hm := fldN_pack _ hf
  refine decode_word _ hf rfl _ (by simp only [pack]; omega) _ (by simp only [isCommandWord, show _ = 37 from hm 26 6]; rfl) ?_ hw
  rw [major_decVmask _ (hm 26 6)]
  simp only [decVmask, show _ = 3 from hm 0 6, bit_is _ 6 t (hm 6 1), bit_is _ 7 c (hm 7 1), fld_is _ 8 3 k (hm 8 3), fld_is _ 11 5 b (hm 11 5), fld_is _ 16 5 a (hm 16 5), fld_is _ 21 5 d (hm 21 5)]

theorem mnot (d : BitVec 5) (a : BitVec 5) (k : BitVec 3) (c : Bool) (t : Bool) : Statement (.mnot d a k c t) := fun _ hw => by
  have hf : Fits [(6, 4), (1, t.toNat), (1, c.toNat), (3, k.toNat), (5, 0), (5, a.toNat), (5, d.toNat), (6, 37)] :=
    ⟨by decide, t.toNat_lt, c.toNat_lt, k.isLt, by decide, a.isLt, d.isLt, by decide, trivial⟩
  have hm := fldN_pack _ hf
  refine decode_word _ hf rfl _ (by simp only [pack]; omega) _ (by simp only [isCommandWord, show _ = 37 from hm 26 6]; rfl) ?_ hw
  rw [major_decVmask _ (hm 26 6)]
  simp only [decVmask, show _ = 4 from hm 0 6, show _ = 0 from hm 11 5, bit_is _ 6 t (hm 6 1), bit_is _ 7 c (hm 7 1), fld_is _ 8 3 k (hm 8 3), fld_is _ 16 5 a (hm 16 5), fld_is _ 21 5 d (hm 21 5)]
  rfl

theorem mpopc (d : BitVec 5) (a : BitVec 5) (k : BitVec 3) (c : Bool) (t : Bool) : Statement (.mpopc d a k c t) := fun _ hw => by
  have hf : Fits [(6, 5), (1, t.toNat), (1, c.toNat), (3, k.toNat), (5, 0), (5, a.toNat), (5, d.toNat), (6, 37)] :=
    ⟨by decide, t.toNat_lt, c.toNat_lt, k.isLt, by decide, a.isLt, d.isLt, by decide, trivial⟩
  have hm := fldN_pack _ hf
  refine decode_word _ hf rfl _ (by simp only [pack]; omega) _ (by simp only [isCommandWord, show _ = 37 from hm 26 6]; rfl) ?_ hw
  rw [major_decVmask _ (hm 26 6)]
  simp only [decVmask, show _ = 5 from hm 0 6, show _ = 0 from hm 11 5, bit_is _ 6 t (hm 6 1), bit_is _ 7 c (hm 7 1), fld_is _ 8 3 k (hm 8 3), fld_is _ 16 5 a (hm 16 5), fld_is _ 21 5 d (hm 21 5)]
  rfl

theorem mfirst (d : BitVec 5) (a : BitVec 5) (k : BitVec 3) (c : Bool) (t : Bool) : Statement (.mfirst d a k c t) := fun _ hw => by
  have hf : Fits [(6, 6), (1, t.toNat), (1, c.toNat), (3, k.toNat), (5, 0), (5, a.toNat), (5, d.toNat), (6, 37)] :=
    ⟨by decide, t.toNat_lt, c.toNat_lt, k.isLt, by decide, a.isLt, d.isLt, by decide, trivial⟩
  have hm := fldN_pack _ hf
  refine decode_word _ hf rfl _ (by simp only [pack]; omega) _ (by simp only [isCommandWord, show _ = 37 from hm 26 6]; rfl) ?_ hw
  rw [major_decVmask _ (hm 26 6)]
  simp only [decVmask, show _ = 6 from hm 0 6, show _ = 0 from hm 11 5, bit_is _ 6 t (hm 6 1), bit_is _ 7 c (hm 7 1), fld_is _ 8 3 k (hm 8 3), fld_is _ 16 5 a (hm 16 5), fld_is _ 21 5 d (hm 21 5)]
  rfl

theorem mset (d : BitVec 5) (k : BitVec 3) (c : Bool) (t : Bool) : Statement (.mset d k c t) := fun _ hw => by
  have hf : Fits [(6, 7), (1, t.toNat), (1, c.toNat), (3, k.toNat), (10, 0), (5, d.toNat), (6, 37)] :=
    ⟨by decide, t.toNat_lt, c.toNat_lt, k.isLt, by decide, d.isLt, by decide, trivial⟩
  have hm := fldN_pack _ hf
  refine decode_word _ hf rfl _ (by simp only [pack]; omega) _ (by simp only [isCommandWord, show _ = 37 from hm 26 6]; rfl) ?_ hw
  rw [major_decVmask _ (hm 26 6)]
  simp only [decVmask, show _ = 7 from hm 0 6, show _ = 0 from hm 11 10, bit_is _ 6 t (hm 6 1), bit_is _ 7 c (hm 7 1), fld_is _ 8 3 k (hm 8 3), fld_is _ 21 5 d (hm 21 5)]
  rfl

theorem mclr (d : BitVec 5) (k : BitVec 3) (c : Bool) (t : Bool) : Statement (.mclr d k c t) := fun _ hw => by
  have hf : Fits [(6, 8), (1, t.toNat), (1, c.toNat), (3, k.toNat), (10, 0), (5, d.toNat), (6, 37)] :=
    ⟨by decide, t.toNat_lt, c.toNat_lt, k.isLt, by decide, d.isLt, by decide, trivial⟩
  have hm := fldN_pack _ hf
  refine decode_word _ hf rfl _ (by simp only [pack]; omega) _ (by simp only [isCommandWord, show _ = 37 from hm 26 6]; rfl) ?_ hw
  rw [major_decVmask _ (hm 26 6)]
  simp only [decVmask, show _ = 8 from hm 0 6, show _ = 0 from hm 11 10, bit_is _ 6 t (hm 6 1), bit_is _ 7 c (hm 7 1), fld_is _ 8 3 k (hm 8 3), fld_is _ 21 5 d (hm 21 5)]
  rfl

theorem vperm (d : BitVec 5) (a : BitVec 5) (b : BitVec 5) (k : BitVec 3) (c : Bool) (t : Bool) : Statement (.vperm d a b k c t) := fun _ hw => by
  have hf : Fits [(6, 0), (1, t.toNat), (1, c.toNat), (3, k.toNat), (5, b.toNat), (5, a.toNat), (5, d.toNat), (6, 38)] :=
    ⟨by decide, t.toNat_lt, c.toNat_lt, k.isLt, b.isLt, a.isLt, d.isLt, by decide, trivial⟩
  have hm := fldN_pack _ hf
  refine decode_word _ hf rfl _ (by simp only [pack]; omega) _ (by simp only [isCommandWord, show _ = 38 from hm 26 6]; rfl) ?_ hw
  rw [major_decVperm _ (hm 26 6)]
  simp only [decVperm, show _ = 0 from hm 0 6, bit_is _ 6 t (hm 6 1), bit_is _ 7 c (hm 7 1), fld_is _ 8 3 k (hm 8 3), fld_is _ 11 5 b (hm 11 5), fld_is _ 16 5 a (hm 16 5), fld_is _ 21 5 d (hm 21 5)]

theorem vslideup (d : BitVec 5) (a : BitVec 5) (b : BitVec 5) (k : BitVec 3) (c : Bool) (t : Bool) : Statement (.vslideup d a b k c t) := fun _ hw => by
  have hf : Fits [(6, 1), (1, t.toNat), (1, c.toNat), (3, k.toNat), (5, b.toNat), (5, a.toNat), (5, d.toNat), (6, 38)] :=
    ⟨by decide, t.toNat_lt, c.toNat_lt, k.isLt, b.isLt, a.isLt, d.isLt, by decide, trivial⟩
  have hm := fldN_pack _ hf
  refine decode_word _ hf rfl _ (by simp only [pack]; omega) _ (by simp only [isCommandWord, show _ = 38 from hm 26 6]; rfl) ?_ hw
  rw [major_decVperm _ (hm 26 6)]
  simp only [decVperm, show _ = 1 from hm 0 6, bit_is _ 6 t (hm 6 1), bit_is _ 7 c (hm 7 1), fld_is _ 8 3 k (hm 8 3), fld_is _ 11 5 b (hm 11 5), fld_is _ 16 5 a (hm 16 5), fld_is _ 21 5 d (hm 21 5)]

theorem vslidedn (d : BitVec 5) (a : BitVec 5) (b : BitVec 5) (k : BitVec 3) (c : Bool) (t : Bool) : Statement (.vslidedn d a b k c t) := fun _ hw => by
  have hf : Fits [(6, 2), (1, t.toNat), (1, c.toNat), (3, k.toNat), (5, b.toNat), (5, a.toNat), (5, d.toNat), (6, 38)] :=
    ⟨by decide, t.toNat_lt, c.toNat_lt, k.isLt, b.isLt, a.isLt, d.isLt, by decide, trivial⟩
  have hm := fldN_pack _ hf
  refine decode_word _ hf rfl _ (by simp only [pack]; omega) _ (by simp only [isCommandWord, show _ = 38 from hm 26 6]; rfl) ?_ hw
  rw [major_decVperm _ (hm 26 6)]
  simp only [decVperm, show _ = 2 from hm 0 6, bit_is _ 6 t (hm 6 1), bit_is _ 7 c (hm 7 1), fld_is _ 8 3 k (hm 8 3), fld_is _ 11 5 b (hm 11 5), fld_is _ 16 5 a (hm 16 5), fld_is _ 21 5 d (hm 21 5)]

theorem vcompress (d : BitVec 5) (a : BitVec 5) (k : BitVec 3) (c : Bool) (t : Bool) : Statement (.vcompress d a k c t) := fun _ hw => by
  have hf : Fits [(6, 3), (1, t.toNat), (1, c.toNat), (3, k.toNat), (5, 0), (5, a.toNat), (5, d.toNat), (6, 38)] :=
    ⟨by decide, t.toNat_lt, c.toNat_lt, k.isLt, by decide, a.isLt, d.isLt, by decide, trivial⟩
  have hm := fldN_pack _ hf
  refine decode_word _ hf rfl _ (by simp only [pack]; omega) _ (by simp only [isCommandWord, show _ = 38 from hm 26 6]; rfl) ?_ hw
  rw [major_decVperm _ (hm 26 6)]
  simp only [decVperm, show _ = 3 from hm 0 6, show _ = 0 from hm 11 5, bit_is _ 6 t (hm 6 1), bit_is _ 7 c (hm 7 1), fld_is _ 8 3 k (hm 8 3), fld_is _ 16 5 a (hm 16 5), fld_is _ 21 5 d (hm 21 5)]
  rfl

theorem vexpand (d : BitVec 5) (a : BitVec 5) (k : BitVec 3) (c : Bool) (t : Bool) : Statement (.vexpand d a k c t) := fun _ hw => by
  have hf : Fits [(6, 4), (1, t.toNat), (1, c.toNat), (3, k.toNat), (5, 0), (5, a.toNat), (5, d.toNat), (6, 38)] :=
    ⟨by decide, t.toNat_lt, c.toNat_lt, k.isLt, by decide, a.isLt, d.isLt, by decide, trivial⟩
  have hm := fldN_pack _ hf
  refine decode_word _ hf rfl _ (by simp only [pack]; omega) _ (by simp only [isCommandWord, show _ = 38 from hm 26 6]; rfl) ?_ hw
  rw [major_decVperm _ (hm 26 6)]
  simp only [decVperm, show _ = 4 from hm 0 6, show _ = 0 from hm 11 5, bit_is _ 6 t (hm 6 1), bit_is _ 7 c (hm 7 1), fld_is _ 8 3 k (hm 8 3), fld_is _ 16 5 a (hm 16 5), fld_is _ 21 5 d (hm 21 5)]
  rfl

theorem vscan (d : BitVec 5) (a : BitVec 5) (n : BitVec 4) (k : BitVec 3) (c : Bool) (t : Bool) : Statement (.vscan d a n k c t) := fun _ hw => by
  have hf : Fits [(6, 5), (1, t.toNat), (1, c.toNat), (3, k.toNat), (4, n.toNat), (1, 0), (5, a.toNat), (5, d.toNat), (6, 38)] :=
    ⟨by decide, t.toNat_lt, c.toNat_lt, k.isLt, n.isLt, by decide, a.isLt, d.isLt, by decide, trivial⟩
  have hm := fldN_pack _ hf
  refine decode_word _ hf rfl _ (by simp only [pack]; omega) _ (by simp only [isCommandWord, show _ = 38 from hm 26 6]; rfl) ?_ hw
  rw [major_decVperm _ (hm 26 6)]
  simp only [decVperm, show _ = 5 from hm 0 6, show bit _ 15 = false from bit_is _ 15 false (hm 15 1), bit_is _ 6 t (hm 6 1), bit_is _ 7 c (hm 7 1), fld_is _ 8 3 k (hm 8 3), fld_is _ 11 4 n (hm 11 4), fld_is _ 16 5 a (hm 16 5), fld_is _ 21 5 d (hm 21 5)]
  rfl

theorem vfscan (d : BitVec 5) (a : BitVec 5) (n : BitVec 4) (k : BitVec 3) (c : Bool) (t : Bool) : Statement (.vfscan d a n k c t) := fun _ hw => by
  have hf : Fits [(6, 5), (1, t.toNat), (1, c.toNat), (3, k.toNat), (4, n.toNat), (1, 1), (5, a.toNat), (5, d.toNat), (6, 38)] :=
    ⟨by decide, t.toNat_lt, c.toNat_lt, k.isLt, n.isLt, by decide, a.isLt, d.isLt, by decide, trivial⟩
  have hm := fldN_pack _ hf
  refine decode_word _ hf rfl _ (by simp only [pack]; omega) _ (by simp only [isCommandWord, show _ = 38 from hm 26 6]; rfl) ?_ hw
  rw [major_decVperm _ (hm 26 6)]
  simp only [decVperm, show _ = 5 from hm 0 6, show bit _ 15 = true from bit_is _ 15 true (hm 15 1), bit_is _ 6 t (hm 6 1), bit_is _ 7 c (hm 7 1), fld_is _ 8 3 k (hm 8 3), fld_is _ 11 4 n (hm 11 4), fld_is _ 16 5 a (hm 16 5), fld_is _ 21 5 d (hm 21 5)]
  rfl

theorem vrowbc (d : BitVec 5) (a : BitVec 5) (b : BitVec 5) (k : BitVec 3) (c : Bool) (t : Bool) : Statement (.vrowbc d a b k c t) := fun _ hw => by
  have hf : Fits [(6, 6), (1, t.toNat), (1, c.toNat), (3, k.toNat), (5, b.toNat), (5, a.toNat), (5, d.toNat), (6, 38)] :=
    ⟨by decide, t.toNat_lt, c.toNat_lt, k.isLt, b.isLt, a.isLt, d.isLt, by decide, trivial⟩
  have hm := fldN_pack _ hf
  refine decode_word _ hf rfl _ (by simp only [pack]; omega) _ (by simp only [isCommandWord, show _ = 38 from hm 26 6]; rfl) ?_ hw
  rw [major_decVperm _ (hm 26 6)]
  simp only [decVperm, show _ = 6 from hm 0 6, bit_is _ 6 t (hm 6 1), bit_is _ 7 c (hm 7 1), fld_is _ 8 3 k (hm 8 3), fld_is _ 11 5 b (hm 11 5), fld_is _ 16 5 a (hm 16 5), fld_is _ 21 5 d (hm 21 5)]

theorem vredSum (d : BitVec 5) (a : BitVec 5) (k : BitVec 3) (c : Bool) (t : Bool) : Statement (.vredSum d a k c t) := fun _ hw => by
  have hf : Fits [(6, 0), (1, t.toNat), (1, c.toNat), (3, k.toNat), (5, 0), (5, a.toNat), (5, d.toNat), (6, 39)] :=
    ⟨by decide, t.toNat_lt, c.toNat_lt, k.isLt, by decide, a.isLt, d.isLt, by decide, trivial⟩
  have hm := fldN_pack _ hf
  refine decode_word _ hf rfl _ (by simp only [pack]; omega) _ (by simp only [isCommandWord, show _ = 39 from hm 26 6]; rfl) ?_ hw
  rw [major_decVred _ (hm 26 6)]
  simp only [decVred, show _ = 0 from hm 0 6, show _ = 0 from hm 11 5, bit_is _ 6 t (hm 6 1), bit_is _ 7 c (hm 7 1), fld_is _ 8 3 k (hm 8 3), fld_is _ 16 5 a (hm 16 5), fld_is _ 21 5 d (hm 21 5)]
  rfl

theorem vredMax (d : BitVec 5) (a : BitVec 5) (k : BitVec 3) (c : Bool) (t : Bool) : Statement (.vredMax d a k c t) := fun _ hw => by
  have hf : Fits [(6, 1), (1, t.toNat), (1, c.toNat), (3, k.toNat), (5, 0), (5, a.toNat), (5, d.toNat), (6, 39)] :=
    ⟨by decide, t.toNat_lt, c.toNat_lt, k.isLt, by decide, a.isLt, d.isLt, by decide, trivial⟩
  have hm := fldN_pack _ hf
  refine decode_word _ hf rfl _ (by simp only [pack]; omega) _ (by simp only [isCommandWord, show _ = 39 from hm 26 6]; rfl) ?_ hw
  rw [major_decVred _ (hm 26 6)]
  simp only [decVred, show _ = 1 from hm 0 6, show _ = 0 from hm 11 5, bit_is _ 6 t (hm 6 1), bit_is _ 7 c (hm 7 1), fld_is _ 8 3 k (hm 8 3), fld_is _ 16 5 a (hm 16 5), fld_is _ 21 5 d (hm 21 5)]
  rfl

theorem vredMin (d : BitVec 5) (a : BitVec 5) (k : BitVec 3) (c : Bool) (t : Bool) : Statement (.vredMin d a k c t) := fun _ hw => by
  have hf : Fits [(6, 2), (1, t.toNat), (1, c.toNat), (3, k.toNat), (5, 0), (5, a.toNat), (5, d.toNat), (6, 39)] :=
    ⟨by decide, t.toNat_lt, c.toNat_lt, k.isLt, by decide, a.isLt, d.isLt, by decide, trivial⟩
  have hm := fldN_pack _ hf
  refine decode_word _ hf rfl _ (by simp only [pack]; omega) _ (by simp only [isCommandWord, show _ = 39 from hm 26 6]; rfl) ?_ hw
  rw [major_decVred _ (hm 26 6)]
  simp only [decVred, show _ = 2 from hm 0 6, show _ = 0 from hm 11 5, bit_is _ 6 t (hm 6 1), bit_is _ 7 c (hm 7 1), fld_is _ 8 3 k (hm 8 3), fld_is _ 16 5 a (hm 16 5), fld_is _ 21 5 d (hm 21 5)]
  rfl

theorem vredAnd (d : BitVec 5) (a : BitVec 5) (k : BitVec 3) (c : Bool) (t : Bool) : Statement (.vredAnd d a k c t) := fun _ hw => by
  have hf : Fits [(6, 3), (1, t.toNat), (1, c.toNat), (3, k.toNat), (5, 0), (5, a.toNat), (5, d.toNat), (6, 39)] :=
    ⟨by decide, t.toNat_lt, c.toNat_lt, k.isLt, by decide, a.isLt, d.isLt, by decide, trivial⟩
  have hm := fldN_pack _ hf
  refine decode_word _ hf rfl _ (by simp only [pack]; omega) _ (by simp only [isCommandWord, show _ = 39 from hm 26 6]; rfl) ?_ hw
  rw [major_decVred _ (hm 26 6)]
  simp only [decVred, show _ = 3 from hm 0 6, show _ = 0 from hm 11 5, bit_is _ 6 t (hm 6 1), bit_is _ 7 c (hm 7 1), fld_is _ 8 3 k (hm 8 3), fld_is _ 16 5 a (hm 16 5), fld_is _ 21 5 d (hm 21 5)]
  rfl

theorem vredOr (d : BitVec 5) (a : BitVec 5) (k : BitVec 3) (c : Bool) (t : Bool) : Statement (.vredOr d a k c t) := fun _ hw => by
  have hf : Fits [(6, 4), (1, t.toNat), (1, c.toNat), (3, k.toNat), (5, 0), (5, a.toNat), (5, d.toNat), (6, 39)] :=
    ⟨by decide, t.toNat_lt, c.toNat_lt, k.isLt, by decide, a.isLt, d.isLt, by decide, trivial⟩
  have hm := fldN_pack _ hf
  refine decode_word _ hf rfl _ (by simp only [pack]; omega) _ (by simp only [isCommandWord, show _ = 39 from hm 26 6]; rfl) ?_ hw
  rw [major_decVred _ (hm 26 6)]
  simp only [decVred, show _ = 4 from hm 0 6, show _ = 0 from hm 11 5, bit_is _ 6 t (hm 6 1), bit_is _ 7 c (hm 7 1), fld_is _ 8 3 k (hm 8 3), fld_is _ 16 5 a (hm 16 5), fld_is _ 21 5 d (hm 21 5)]
  rfl

theorem vredXor (d : BitVec 5) (a : BitVec 5) (k : BitVec 3) (c : Bool) (t : Bool) : Statement (.vredXor d a k c t) := fun _ hw => by
  have hf : Fits [(6, 5), (1, t.toNat), (1, c.toNat), (3, k.toNat), (5, 0), (5, a.toNat), (5, d.toNat), (6, 39)] :=
    ⟨by decide, t.toNat_lt, c.toNat_lt, k.isLt, by decide, a.isLt, d.isLt, by decide, trivial⟩
  have hm := fldN_pack _ hf
  refine decode_word _ hf rfl _ (by simp only [pack]; omega) _ (by simp only [isCommandWord, show _ = 39 from hm 26 6]; rfl) ?_ hw
  rw [major_decVred _ (hm 26 6)]
  simp only [decVred, show _ = 5 from hm 0 6, show _ = 0 from hm 11 5, bit_is _ 6 t (hm 6 1), bit_is _ 7 c (hm 7 1), fld_is _ 8 3 k (hm 8 3), fld_is _ 16 5 a (hm 16 5), fld_is _ 21 5 d (hm 21 5)]
  rfl

theorem vredMaxu (d : BitVec 5) (a : BitVec 5) (k : BitVec 3) (c : Bool) (t : Bool) : Statement (.vredMaxu d a k c t) := fun _ hw => by
  have hf : Fits [(6, 6), (1, t.toNat), (1, c.toNat), (3, k.toNat), (5, 0), (5, a.toNat), (5, d.toNat), (6, 39)] :=
    ⟨by decide, t.toNat_lt, c.toNat_lt, k.isLt, by decide, a.isLt, d.isLt, by decide, trivial⟩
  have hm := fldN_pack _ hf
  refine decode_word _ hf rfl _ (by simp only [pack]; omega) _ (by simp only [isCommandWord, show _ = 39 from hm 26 6]; rfl) ?_ hw
  rw [major_decVred _ (hm 26 6)]
  simp only [decVred, show _ = 6 from hm 0 6, show _ = 0 from hm 11 5, bit_is _ 6 t (hm 6 1), bit_is _ 7 c (hm 7 1), fld_is _ 8 3 k (hm 8 3), fld_is _ 16 5 a (hm 16 5), fld_is _ 21 5 d (hm 21 5)]
  rfl

theorem vredMinu (d : BitVec 5) (a : BitVec 5) (k : BitVec 3) (c : Bool) (t : Bool) : Statement (.vredMinu d a k c t) := fun _ hw => by
  have hf : Fits [(6, 7), (1, t.toNat), (1, c.toNat), (3, k.toNat), (5, 0), (5, a.toNat), (5, d.toNat), (6, 39)] :=
    ⟨by decide, t.toNat_lt, c.toNat_lt, k.isLt, by decide, a.isLt, d.isLt, by decide, trivial⟩
  have hm := fldN_pack _ hf
  refine decode_word _ hf rfl _ (by simp only [pack]; omega) _ (by simp only [isCommandWord, show _ = 39 from hm 26 6]; rfl) ?_ hw
  rw [major_decVred _ (hm 26 6)]
  simp only [decVred, show _ = 7 from hm 0 6, show _ = 0 from hm 11 5, bit_is _ 6 t (hm 6 1), bit_is _ 7 c (hm 7 1), fld_is _ 8 3 k (hm 8 3), fld_is _ 16 5 a (hm 16 5), fld_is _ 21 5 d (hm 21 5)]
  rfl

theorem vfredSum (d : BitVec 5) (a : BitVec 5) (k : BitVec 3) (c : Bool) (t : Bool) : Statement (.vfredSum d a k c t) := fun _ hw => by
  have hf : Fits [(6, 16), (1, t.toNat), (1, c.toNat), (3, k.toNat), (5, 0), (5, a.toNat), (5, d.toNat), (6, 39)] :=
    ⟨by decide, t.toNat_lt, c.toNat_lt, k.isLt, by decide, a.isLt, d.isLt, by decide, trivial⟩
  have hm := fldN_pack _ hf
  refine decode_word _ hf rfl _ (by simp only [pack]; omega) _ (by simp only [isCommandWord, show _ = 39 from hm 26 6]; rfl) ?_ hw
  rw [major_decVred _ (hm 26 6)]
  simp only [decVred, show _ = 16 from hm 0 6, show _ = 0 from hm 11 5, bit_is _ 6 t (hm 6 1), bit_is _ 7 c (hm 7 1), fld_is _ 8 3 k (hm 8 3), fld_is _ 16 5 a (hm 16 5), fld_is _ 21 5 d (hm 21 5)]
  rfl

theorem vfredMax (d : BitVec 5) (a : BitVec 5) (k : BitVec 3) (c : Bool) (t : Bool) : Statement (.vfredMax d a k c t) := fun _ hw => by
  have hf : Fits [(6, 17), (1, t.toNat), (1, c.toNat), (3, k.toNat), (5, 0), (5, a.toNat), (5, d.toNat), (6, 39)] :=
    ⟨by decide, t.toNat_lt, c.toNat_lt, k.isLt, by decide, a.isLt, d.isLt, by decide, trivial⟩
  have hm := fldN_pack _ hf
  refine decode_word _ hf rfl _ (by simp only [pack]; omega) _ (by simp only [isCommandWord, show _ = 39 from hm 26 6]; rfl) ?_ hw
  rw [major_decVred _ (hm 26 6)]
  simp only [decVred, show _ = 17 from hm 0 6, show _ = 0 from hm 11 5, bit_is _ 6 t (hm 6 1), bit_is _ 7 c (hm 7 1), fld_is _ 8 3 k (hm 8 3), fld_is _ 16 5 a (hm 16 5), fld_is _ 21 5 d (hm 21 5)]
  rfl

theorem vfredMin (d : BitVec 5) (a : BitVec 5) (k : BitVec 3) (c : Bool) (t : Bool) : Statement (.vfredMin d a k c t) := fun _ hw => by
  have hf : Fits [(6, 18), (1, t.toNat), (1, c.toNat), (3, k.toNat), (5, 0), (5, a.toNat), (5, d.toNat), (6, 39)] :=
    ⟨by decide, t.toNat_lt, c.toNat_lt, k.isLt, by decide, a.isLt, d.isLt, by decide, trivial⟩
  have hm := fldN_pack _ hf
  refine decode_word _ hf rfl _ (by simp only [pack]; omega) _ (by simp only [isCommandWord, show _ = 39 from hm 26 6]; rfl) ?_ hw
  rw [major_decVred _ (hm 26 6)]
  simp only [decVred, show _ = 18 from hm 0 6, show _ = 0 from hm 11 5, bit_is _ 6 t (hm 6 1), bit_is _ 7 c (hm 7 1), fld_is _ 8 3 k (hm 8 3), fld_is _ 16 5 a (hm 16 5), fld_is _ 21 5 d (hm 21 5)]
  rfl

theorem vcvth (d : BitVec 5) (a : BitVec 5) (i : Bool) (f : BitVec 3) (k : BitVec 3) (c : Bool) (t : Bool) : Statement (.vcvth d a i f k c t) := fun _ hw => by
  have hf : Fits [(6, 0), (1, t.toNat), (1, c.toNat), (3, k.toNat), (3, f.toNat), (1, i.toNat), (1, 0), (5, a.toNat), (5, d.toNat), (6, 40)] :=
    ⟨by decide, t.toNat_lt, c.toNat_lt, k.isLt, f.isLt, i.toNat_lt, by decide, a.isLt, d.isLt, by decide, trivial⟩
  have hm := fldN_pack _ hf
  refine decode_word _ hf rfl _ (by simp only [pack]; omega) _ (by simp only [isCommandWord, show _ = 40 from hm 26 6]; rfl) ?_ hw
  rw [major_decVcvt _ (hm 26 6)]
  simp only [decVcvt, show _ = 0 from hm 0 6, show _ = 0 from hm 15 1, bit_is _ 6 t (hm 6 1), bit_is _ 7 c (hm 7 1), fld_is _ 8 3 k (hm 8 3), fld_is _ 11 3 f (hm 11 3), bit_is _ 14 i (hm 14 1), fld_is _ 16 5 a (hm 16 5), fld_is _ 21 5 d (hm 21 5)]
  rfl

theorem vcvtd (d : BitVec 5) (a : BitVec 5) (u : Bool) (i : Bool) (f : BitVec 3) (k : BitVec 3) (c : Bool) (t : Bool) : Statement (.vcvtd d a u i f k c t) := fun _ hw => by
  have hf : Fits [(6, 1), (1, t.toNat), (1, c.toNat), (3, k.toNat), (3, f.toNat), (1, i.toNat), (1, u.toNat), (5, a.toNat), (5, d.toNat), (6, 40)] :=
    ⟨by decide, t.toNat_lt, c.toNat_lt, k.isLt, f.isLt, i.toNat_lt, u.toNat_lt, a.isLt, d.isLt, by decide, trivial⟩
  have hm := fldN_pack _ hf
  refine decode_word _ hf rfl _ (by simp only [pack]; omega) _ (by simp only [isCommandWord, show _ = 40 from hm 26 6]; rfl) ?_ hw
  rw [major_decVcvt _ (hm 26 6)]
  simp only [decVcvt, show _ = 1 from hm 0 6, bit_is _ 6 t (hm 6 1), bit_is _ 7 c (hm 7 1), fld_is _ 8 3 k (hm 8 3), fld_is _ 11 3 f (hm 11 3), bit_is _ 14 i (hm 14 1), bit_is _ 15 u (hm 15 1), fld_is _ 16 5 a (hm 16 5), fld_is _ 21 5 d (hm 21 5)]

theorem vcvti2f (d : BitVec 5) (a : BitVec 5) (u : Bool) (k : BitVec 3) (c : Bool) (t : Bool) : Statement (.vcvti2f d a u k c t) := fun _ hw => by
  have hf : Fits [(6, 2), (1, t.toNat), (1, c.toNat), (3, k.toNat), (4, 0), (1, u.toNat), (5, a.toNat), (5, d.toNat), (6, 40)] :=
    ⟨by decide, t.toNat_lt, c.toNat_lt, k.isLt, by decide, u.toNat_lt, a.isLt, d.isLt, by decide, trivial⟩
  have hm := fldN_pack _ hf
  refine decode_word _ hf rfl _ (by simp only [pack]; omega) _ (by simp only [isCommandWord, show _ = 40 from hm 26 6]; rfl) ?_ hw
  rw [major_decVcvt _ (hm 26 6)]
  simp only [decVcvt, show _ = 2 from hm 0 6, show _ = 0 from hm 11 4, bit_is _ 6 t (hm 6 1), bit_is _ 7 c (hm 7 1), fld_is _ 8 3 k (hm 8 3), bit_is _ 15 u (hm 15 1), fld_is _ 16 5 a (hm 16 5), fld_is _ 21 5 d (hm 21 5)]
  rfl

theorem vcvtf2i (d : BitVec 5) (a : BitVec 5) (u : Bool) (k : BitVec 3) (c : Bool) (t : Bool) : Statement (.vcvtf2i d a u k c t) := fun _ hw => by
  have hf : Fits [(6, 3), (1, t.toNat), (1, c.toNat), (3, k.toNat), (4, 0), (1, u.toNat), (5, a.toNat), (5, d.toNat), (6, 40)] :=
    ⟨by decide, t.toNat_lt, c.toNat_lt, k.isLt, by decide, u.toNat_lt, a.isLt, d.isLt, by decide, trivial⟩
  have hm := fldN_pack _ hf
  refine decode_word _ hf rfl _ (by simp only [pack]; omega) _ (by simp only [isCommandWord, show _ = 40 from hm 26 6]; rfl) ?_ hw
  rw [major_decVcvt _ (hm 26 6)]
  simp only [decVcvt, show _ = 3 from hm 0 6, show _ = 0 from hm 11 4, bit_is _ 6 t (hm 6 1), bit_is _ 7 c (hm 7 1), fld_is _ 8 3 k (hm 8 3), bit_is _ 15 u (hm 15 1), fld_is _ 16 5 a (hm 16 5), fld_is _ 21 5 d (hm 21 5)]
  rfl

theorem vcvt8 (d : BitVec 5) (a : BitVec 5) (k : BitVec 3) (c : Bool) (t : Bool) : Statement (.vcvt8 d a k c t) := fun _ hw => by
  have hf : Fits [(6, 4), (1, t.toNat), (1, c.toNat), (3, k.toNat), (5, 0), (5, a.toNat), (5, d.toNat), (6, 40)] :=
    ⟨by decide, t.toNat_lt, c.toNat_lt, k.isLt, by decide, a.isLt, d.isLt, by decide, trivial⟩
  have hm := fldN_pack _ hf
  refine decode_word _ hf rfl _ (by simp only [pack]; omega) _ (by simp only [isCommandWord, show _ = 40 from hm 26 6]; rfl) ?_ hw
  rw [major_decVcvt _ (hm 26 6)]
  simp only [decVcvt, show _ = 4 from hm 0 6, show _ = 0 from hm 11 5, bit_is _ 6 t (hm 6 1), bit_is _ 7 c (hm 7 1), fld_is _ 8 3 k (hm 8 3), fld_is _ 16 5 a (hm 16 5), fld_is _ 21 5 d (hm 21 5)]
  rfl

theorem vcvts (d : BitVec 5) (a : BitVec 5) (k : BitVec 3) (c : Bool) (t : Bool) : Statement (.vcvts d a k c t) := fun _ hw => by
  have hf : Fits [(6, 5), (1, t.toNat), (1, c.toNat), (3, k.toNat), (5, 0), (5, a.toNat), (5, d.toNat), (6, 40)] :=
    ⟨by decide, t.toNat_lt, c.toNat_lt, k.isLt, by decide, a.isLt, d.isLt, by decide, trivial⟩
  have hm := fldN_pack _ hf
  refine decode_word _ hf rfl _ (by simp only [pack]; omega) _ (by simp only [isCommandWord, show _ = 40 from hm 26 6]; rfl) ?_ hw
  rw [major_decVcvt _ (hm 26 6)]
  simp only [decVcvt, show _ = 5 from hm 0 6, show _ = 0 from hm 11 5, bit_is _ 6 t (hm 6 1), bit_is _ 7 c (hm 7 1), fld_is _ 8 3 k (hm 8 3), fld_is _ 16 5 a (hm 16 5), fld_is _ 21 5 d (hm 21 5)]
  rfl

theorem vmv (d : BitVec 5) (a : BitVec 5) (k : BitVec 3) (c : Bool) (t : Bool) : Statement (.vmv d a k c t) := fun _ hw => by
  have hf : Fits [(6, 0), (1, t.toNat), (1, c.toNat), (3, k.toNat), (5, 0), (5, a.toNat), (5, d.toNat), (6, 41)] :=
    ⟨by decide, t.toNat_lt, c.toNat_lt, k.isLt, by decide, a.isLt, d.isLt, by decide, trivial⟩
  have hm := fldN_pack _ hf
  refine decode_word _ hf rfl _ (by simp only [pack]; omega) _ (by simp only [isCommandWord, show _ = 41 from hm 26 6]; rfl) ?_ hw
  rw [major_decVmov _ (hm 26 6)]
  simp only [decVmov, show _ = 0 from hm 0 6, show _ = 0 from hm 11 5, bit_is _ 6 t (hm 6 1), bit_is _ 7 c (hm 7 1), fld_is _ 8 3 k (hm 8 3), fld_is _ 16 5 a (hm 16 5), fld_is _ 21 5 d (hm 21 5)]
  rfl

theorem vbcast (d : BitVec 5) (a : BitVec 5) (k : BitVec 3) (c : Bool) (t : Bool) : Statement (.vbcast d a k c t) := fun _ hw => by
  have hf : Fits [(6, 1), (1, t.toNat), (1, c.toNat), (3, k.toNat), (5, 0), (5, a.toNat), (5, d.toNat), (6, 41)] :=
    ⟨by decide, t.toNat_lt, c.toNat_lt, k.isLt, by decide, a.isLt, d.isLt, by decide, trivial⟩
  have hm := fldN_pack _ hf
  refine decode_word _ hf rfl _ (by simp only [pack]; omega) _ (by simp only [isCommandWord, show _ = 41 from hm 26 6]; rfl) ?_ hw
  rw [major_decVmov _ (hm 26 6)]
  simp only [decVmov, show _ = 1 from hm 0 6, show _ = 0 from hm 11 5, bit_is _ 6 t (hm 6 1), bit_is _ 7 c (hm 7 1), fld_is _ 8 3 k (hm 8 3), fld_is _ 16 5 a (hm 16 5), fld_is _ 21 5 d (hm 21 5)]
  rfl

theorem vextr (d : BitVec 5) (a : BitVec 5) (b : BitVec 5) (c : Bool) (t : Bool) : Statement (.vextr d a b c t) := fun _ hw => by
  have hf : Fits [(6, 2), (1, t.toNat), (1, c.toNat), (3, 0), (5, b.toNat), (5, a.toNat), (5, d.toNat), (6, 41)] :=
    ⟨by decide, t.toNat_lt, c.toNat_lt, by decide, b.isLt, a.isLt, d.isLt, by decide, trivial⟩
  have hm := fldN_pack _ hf
  refine decode_word _ hf rfl _ (by simp only [pack]; omega) _ (by simp only [isCommandWord, show _ = 41 from hm 26 6]; rfl) ?_ hw
  rw [major_decVmov _ (hm 26 6)]
  simp only [decVmov, show _ = 2 from hm 0 6, show _ = 0 from hm 8 3, bit_is _ 6 t (hm 6 1), bit_is _ 7 c (hm 7 1), fld_is _ 11 5 b (hm 11 5), fld_is _ 16 5 a (hm 16 5), fld_is _ 21 5 d (hm 21 5)]
  rfl

theorem vins (d : BitVec 5) (a : BitVec 5) (b : BitVec 5) (k : BitVec 3) (c : Bool) (t : Bool) : Statement (.vins d a b k c t) := fun _ hw => by
  have hf : Fits [(6, 3), (1, t.toNat), (1, c.toNat), (3, k.toNat), (5, b.toNat), (5, a.toNat), (5, d.toNat), (6, 41)] :=
    ⟨by decide, t.toNat_lt, c.toNat_lt, k.isLt, b.isLt, a.isLt, d.isLt, by decide, trivial⟩
  have hm := fldN_pack _ hf
  refine decode_word _ hf rfl _ (by simp only [pack]; omega) _ (by simp only [isCommandWord, show _ = 41 from hm 26 6]; rfl) ?_ hw
  rw [major_decVmov _ (hm 26 6)]
  simp only [decVmov, show _ = 3 from hm 0 6, bit_is _ 6 t (hm 6 1), bit_is _ 7 c (hm 7 1), fld_is _ 8 3 k (hm 8 3), fld_is _ 11 5 b (hm 11 5), fld_is _ 16 5 a (hm 16 5), fld_is _ 21 5 d (hm 21 5)]

theorem vsel (d : BitVec 5) (a : BitVec 5) (b : BitVec 5) (k : BitVec 3) (c : Bool) (t : Bool) : Statement (.vsel d a b k c t) := fun _ hw => by
  have hf : Fits [(6, 4), (1, t.toNat), (1, c.toNat), (3, k.toNat), (5, b.toNat), (5, a.toNat), (5, d.toNat), (6, 41)] :=
    ⟨by decide, t.toNat_lt, c.toNat_lt, k.isLt, b.isLt, a.isLt, d.isLt, by decide, trivial⟩
  have hm := fldN_pack _ hf
  refine decode_word _ hf rfl _ (by simp only [pack]; omega) _ (by simp only [isCommandWord, show _ = 41 from hm 26 6]; rfl) ?_ hw
  rw [major_decVmov _ (hm 26 6)]
  simp only [decVmov, show _ = 4 from hm 0 6, bit_is _ 6 t (hm 6 1), bit_is _ 7 c (hm 7 1), fld_is _ 8 3 k (hm 8 3), fld_is _ 11 5 b (hm 11 5), fld_is _ 16 5 a (hm 16 5), fld_is _ 21 5 d (hm 21 5)]

theorem vmrank (d : BitVec 5) (k : BitVec 3) (c : Bool) (t : Bool) : Statement (.vmrank d k c t) := fun _ hw => by
  have hf : Fits [(6, 5), (1, t.toNat), (1, c.toNat), (3, k.toNat), (10, 0), (5, d.toNat), (6, 41)] :=
    ⟨by decide, t.toNat_lt, c.toNat_lt, k.isLt, by decide, d.isLt, by decide, trivial⟩
  have hm := fldN_pack _ hf
  refine decode_word _ hf rfl _ (by simp only [pack]; omega) _ (by simp only [isCommandWord, show _ = 41 from hm 26 6]; rfl) ?_ hw
  rw [major_decVmov _ (hm 26 6)]
  simp only [decVmov, show _ = 5 from hm 0 6, show _ = 0 from hm 11 10, bit_is _ 6 t (hm 6 1), bit_is _ 7 c (hm 7 1), fld_is _ 8 3 k (hm 8 3), fld_is _ 21 5 d (hm 21 5)]
  rfl

theorem vscld (d : BitVec 5) (a : BitVec 5) (k : BitVec 3) (c : Bool) (t : Bool) : Statement (.vscld d a k c t) := fun _ hw => by
  have hf : Fits [(6, 6), (1, t.toNat), (1, c.toNat), (3, k.toNat), (5, 0), (5, a.toNat), (5, d.toNat), (6, 41)] :=
    ⟨by decide, t.toNat_lt, c.toNat_lt, k.isLt, by decide, a.isLt, d.isLt, by decide, trivial⟩
  have hm := fldN_pack _ hf
  refine decode_word _ hf rfl _ (by simp only [pack]; omega) _ (by simp only [isCommandWord, show _ = 41 from hm 26 6]; rfl) ?_ hw
  rw [major_decVmov _ (hm 26 6)]
  simp only [decVmov, show _ = 6 from hm 0 6, show _ = 0 from hm 11 5, bit_is _ 6 t (hm 6 1), bit_is _ 7 c (hm 7 1), fld_is _ 8 3 k (hm 8 3), fld_is _ 16 5 a (hm 16 5), fld_is _ 21 5 d (hm 21 5)]
  rfl

theorem vscst (d : BitVec 5) (a : BitVec 5) (k : BitVec 3) (c : Bool) (t : Bool) : Statement (.vscst d a k c t) := fun _ hw => by
  have hf : Fits [(6, 7), (1, t.toNat), (1, c.toNat), (3, k.toNat), (5, 0), (5, a.toNat), (5, d.toNat), (6, 41)] :=
    ⟨by decide, t.toNat_lt, c.toNat_lt, k.isLt, by decide, a.isLt, d.isLt, by decide, trivial⟩
  have hm := fldN_pack _ hf
  refine decode_word _ hf rfl _ (by simp only [pack]; omega) _ (by simp only [isCommandWord, show _ = 41 from hm 26 6]; rfl) ?_ hw
  rw [major_decVmov _ (hm 26 6)]
  simp only [decVmov, show _ = 7 from hm 0 6, show _ = 0 from hm 11 5, bit_is _ 6 t (hm 6 1), bit_is _ 7 c (hm 7 1), fld_is _ 8 3 k (hm 8 3), fld_is _ 16 5 a (hm 16 5), fld_is _ 21 5 d (hm 21 5)]
  rfl

theorem vld (d : BitVec 5) (a : BitVec 5) (k : BitVec 3) (c : Bool) (t : Bool) (o : Bool) (y : Bool) (e : BitVec 2) : Statement (.vld d a k c t o y e) := fun _ hw => by
  have hf : Fits [(2, e.toNat), (1, y.toNat), (1, o.toNat), (2, 0), (1, t.toNat), (1, c.toNat), (3, k.toNat), (5, 0), (5, a.toNat), (5, d.toNat), (6, 42)] :=
    ⟨e.isLt, y.toNat_lt, o.toNat_lt, by decide, t.toNat_lt, c.toNat_lt, k.isLt, by decide, a.isLt, d.isLt, by decide, trivial⟩
  have hm := fldN_pack _ hf
  refine decode_word _ hf rfl _ (by simp only [pack]; omega) _ (by simp only [isCommandWord, show _ = 42 from hm 26 6]; rfl) ?_ hw
  rw [major_decVld _ (hm 26 6)]
  simp only [decVld, show _ = 0 from hm 4 2, show _ = 0 from hm 11 5, fld_is _ 0 2 e (hm 0 2), bit_is _ 2 y (hm 2 1), bit_is _ 3 o (hm 3 1), bit_is _ 6 t (hm 6 1), bit_is _ 7 c (hm 7 1), fld_is _ 8 3 k (hm 8 3), fld_is _ 16 5 a (hm 16 5), fld_is _ 21 5 d (hm 21 5)]
  rfl

theorem vldStr (d : BitVec 5) (a : BitVec 5) (b : BitVec 5) (k : BitVec 3) (c : Bool) (t : Bool) (o : Bool) (y : Bool) (e : BitVec 2) : Statement (.vldStr d a b k c t o y e) := fun _ hw => by
  have hf : Fits [(2, e.toNat), (1, y.toNat), (1, o.toNat), (2, 1), (1, t.toNat), (1, c.toNat), (3, k.toNat), (5, b.toNat), (5, a.toNat), (5, d.toNat), (6, 42)] :=
    ⟨e.isLt, y.toNat_lt, o.toNat_lt, by decide, t.toNat_lt, c.toNat_lt, k.isLt, b.isLt, a.isLt, d.isLt, by decide, trivial⟩
  have hm := fldN_pack _ hf
  refine decode_word _ hf rfl _ (by simp only [pack]; omega) _ (by simp only [isCommandWord, show _ = 42 from hm 26 6]; rfl) ?_ hw
  rw [major_decVld _ (hm 26 6)]
  simp only [decVld, show _ = 1 from hm 4 2, fld_is _ 0 2 e (hm 0 2), bit_is _ 2 y (hm 2 1), bit_is _ 3 o (hm 3 1), bit_is _ 6 t (hm 6 1), bit_is _ 7 c (hm 7 1), fld_is _ 8 3 k (hm 8 3), fld_is _ 11 5 b (hm 11 5), fld_is _ 16 5 a (hm 16 5), fld_is _ 21 5 d (hm 21 5)]

theorem vldX (d : BitVec 5) (a : BitVec 5) (b : BitVec 5) (k : BitVec 3) (c : Bool) (t : Bool) (o : Bool) (y : Bool) (e : BitVec 2) : Statement (.vldX d a b k c t o y e) := fun _ hw => by
  have hf : Fits [(2, e.toNat), (1, y.toNat), (1, o.toNat), (2, 2), (1, t.toNat), (1, c.toNat), (3, k.toNat), (5, b.toNat), (5, a.toNat), (5, d.toNat), (6, 42)] :=
    ⟨e.isLt, y.toNat_lt, o.toNat_lt, by decide, t.toNat_lt, c.toNat_lt, k.isLt, b.isLt, a.isLt, d.isLt, by decide, trivial⟩
  have hm := fldN_pack _ hf
  refine decode_word _ hf rfl _ (by simp only [pack]; omega) _ (by simp only [isCommandWord, show _ = 42 from hm 26 6]; rfl) ?_ hw
  rw [major_decVld _ (hm 26 6)]
  simp only [decVld, show _ = 2 from hm 4 2, fld_is _ 0 2 e (hm 0 2), bit_is _ 2 y (hm 2 1), bit_is _ 3 o (hm 3 1), bit_is _ 6 t (hm 6 1), bit_is _ 7 c (hm 7 1), fld_is _ 8 3 k (hm 8 3), fld_is _ 11 5 b (hm 11 5), fld_is _ 16 5 a (hm 16 5), fld_is _ 21 5 d (hm 21 5)]

theorem vldChk (d : BitVec 5) (a : BitVec 5) (b : BitVec 5) (k : BitVec 3) (c : Bool) (t : Bool) (o : Bool) (y : Bool) (e : BitVec 2) : Statement (.vldChk d a b k c t o y e) := fun _ hw => by
  have hf : Fits [(2, e.toNat), (1, y.toNat), (1, o.toNat), (2, 3), (1, t.toNat), (1, c.toNat), (3, k.toNat), (5, b.toNat), (5, a.toNat), (5, d.toNat), (6, 42)] :=
    ⟨e.isLt, y.toNat_lt, o.toNat_lt, by decide, t.toNat_lt, c.toNat_lt, k.isLt, b.isLt, a.isLt, d.isLt, by decide, trivial⟩
  have hm := fldN_pack _ hf
  refine decode_word _ hf rfl _ (by simp only [pack]; omega) _ (by simp only [isCommandWord, show _ = 42 from hm 26 6]; rfl) ?_ hw
  rw [major_decVld _ (hm 26 6)]
  simp only [decVld, show _ = 3 from hm 4 2, fld_is _ 0 2 e (hm 0 2), bit_is _ 2 y (hm 2 1), bit_is _ 3 o (hm 3 1), bit_is _ 6 t (hm 6 1), bit_is _ 7 c (hm 7 1), fld_is _ 8 3 k (hm 8 3), fld_is _ 11 5 b (hm 11 5), fld_is _ 16 5 a (hm 16 5), fld_is _ 21 5 d (hm 21 5)]

theorem vst (d : BitVec 5) (a : BitVec 5) (k : BitVec 3) (c : Bool) (t : Bool) (o : Bool) (y : Bool) (e : BitVec 2) : Statement (.vst d a k c t o y e) := fun _ hw => by
  have hf : Fits [(2, e.toNat), (1, y.toNat), (1, o.toNat), (2, 0), (1, t.toNat), (1, c.toNat), (3, k.toNat), (5, 0), (5, a.toNat), (5, d.toNat), (6, 43)] :=
    ⟨e.isLt, y.toNat_lt, o.toNat_lt, by decide, t.toNat_lt, c.toNat_lt, k.isLt, by decide, a.isLt, d.isLt, by decide, trivial⟩
  have hm := fldN_pack _ hf
  refine decode_word _ hf rfl _ (by simp only [pack]; omega) _ (by simp only [isCommandWord, show _ = 43 from hm 26 6]; rfl) ?_ hw
  rw [major_decVst _ (hm 26 6)]
  simp only [decVst, show _ = 0 from hm 4 2, show _ = 0 from hm 11 5, fld_is _ 0 2 e (hm 0 2), bit_is _ 2 y (hm 2 1), bit_is _ 3 o (hm 3 1), bit_is _ 6 t (hm 6 1), bit_is _ 7 c (hm 7 1), fld_is _ 8 3 k (hm 8 3), fld_is _ 16 5 a (hm 16 5), fld_is _ 21 5 d (hm 21 5)]
  rfl

theorem vstStr (d : BitVec 5) (a : BitVec 5) (b : BitVec 5) (k : BitVec 3) (c : Bool) (t : Bool) (o : Bool) (y : Bool) (e : BitVec 2) : Statement (.vstStr d a b k c t o y e) := fun _ hw => by
  have hf : Fits [(2, e.toNat), (1, y.toNat), (1, o.toNat), (2, 1), (1, t.toNat), (1, c.toNat), (3, k.toNat), (5, b.toNat), (5, a.toNat), (5, d.toNat), (6, 43)] :=
    ⟨e.isLt, y.toNat_lt, o.toNat_lt, by decide, t.toNat_lt, c.toNat_lt, k.isLt, b.isLt, a.isLt, d.isLt, by decide, trivial⟩
  have hm := fldN_pack _ hf
  refine decode_word _ hf rfl _ (by simp only [pack]; omega) _ (by simp only [isCommandWord, show _ = 43 from hm 26 6]; rfl) ?_ hw
  rw [major_decVst _ (hm 26 6)]
  simp only [decVst, show _ = 1 from hm 4 2, fld_is _ 0 2 e (hm 0 2), bit_is _ 2 y (hm 2 1), bit_is _ 3 o (hm 3 1), bit_is _ 6 t (hm 6 1), bit_is _ 7 c (hm 7 1), fld_is _ 8 3 k (hm 8 3), fld_is _ 11 5 b (hm 11 5), fld_is _ 16 5 a (hm 16 5), fld_is _ 21 5 d (hm 21 5)]

theorem vstX (d : BitVec 5) (a : BitVec 5) (b : BitVec 5) (k : BitVec 3) (c : Bool) (t : Bool) (o : Bool) (y : Bool) (e : BitVec 2) : Statement (.vstX d a b k c t o y e) := fun _ hw => by
  have hf : Fits [(2, e.toNat), (1, y.toNat), (1, o.toNat), (2, 2), (1, t.toNat), (1, c.toNat), (3, k.toNat), (5, b.toNat), (5, a.toNat), (5, d.toNat), (6, 43)] :=
    ⟨e.isLt, y.toNat_lt, o.toNat_lt, by decide, t.toNat_lt, c.toNat_lt, k.isLt, b.isLt, a.isLt, d.isLt, by decide, trivial⟩
  have hm := fldN_pack _ hf
  refine decode_word _ hf rfl _ (by simp only [pack]; omega) _ (by simp only [isCommandWord, show _ = 43 from hm 26 6]; rfl) ?_ hw
  rw [major_decVst _ (hm 26 6)]
  simp only [decVst, show _ = 2 from hm 4 2, fld_is _ 0 2 e (hm 0 2), bit_is _ 2 y (hm 2 1), bit_is _ 3 o (hm 3 1), bit_is _ 6 t (hm 6 1), bit_is _ 7 c (hm 7 1), fld_is _ 8 3 k (hm 8 3), fld_is _ 11 5 b (hm 11 5), fld_is _ 16 5 a (hm 16 5), fld_is _ 21 5 d (hm 21 5)]

theorem vamoAdd (d : BitVec 5) (a : BitVec 5) (b : BitVec 5) (k : BitVec 3) (c : Bool) (t : Bool) (o : Bool) (y : Bool) : Statement (.vamoAdd d a b k c t o y) := fun _ hw => by
  have hf : Fits [(1, 0), (1, y.toNat), (1, o.toNat), (3, 0), (1, t.toNat), (1, c.toNat), (3, k.toNat), (5, b.toNat), (5, a.toNat), (5, d.toNat), (6, 44)] :=
    ⟨by decide, y.toNat_lt, o.toNat_lt, by decide, t.toNat_lt, c.toNat_lt, k.isLt, b.isLt, a.isLt, d.isLt, by decide, trivial⟩
  have hm := fldN_pack _ hf
  refine decode_word _ hf rfl _ (by simp only [pack]; omega) _ (by simp only [isCommandWord, show _ = 44 from hm 26 6]; rfl) ?_ hw
  rw [major_decVamo _ (hm 26 6)]
  simp only [decVamo, show _ = 0 from hm 3 3, show _ = 0 from hm 0 1, bit_is _ 1 y (hm 1 1), bit_is _ 2 o (hm 2 1), bit_is _ 6 t (hm 6 1), bit_is _ 7 c (hm 7 1), fld_is _ 8 3 k (hm 8 3), fld_is _ 11 5 b (hm 11 5), fld_is _ 16 5 a (hm 16 5), fld_is _ 21 5 d (hm 21 5)]
  rfl

theorem vamoMin (d : BitVec 5) (a : BitVec 5) (b : BitVec 5) (k : BitVec 3) (c : Bool) (t : Bool) (o : Bool) (y : Bool) : Statement (.vamoMin d a b k c t o y) := fun _ hw => by
  have hf : Fits [(1, 0), (1, y.toNat), (1, o.toNat), (3, 1), (1, t.toNat), (1, c.toNat), (3, k.toNat), (5, b.toNat), (5, a.toNat), (5, d.toNat), (6, 44)] :=
    ⟨by decide, y.toNat_lt, o.toNat_lt, by decide, t.toNat_lt, c.toNat_lt, k.isLt, b.isLt, a.isLt, d.isLt, by decide, trivial⟩
  have hm := fldN_pack _ hf
  refine decode_word _ hf rfl _ (by simp only [pack]; omega) _ (by simp only [isCommandWord, show _ = 44 from hm 26 6]; rfl) ?_ hw
  rw [major_decVamo _ (hm 26 6)]
  simp only [decVamo, show _ = 1 from hm 3 3, show _ = 0 from hm 0 1, bit_is _ 1 y (hm 1 1), bit_is _ 2 o (hm 2 1), bit_is _ 6 t (hm 6 1), bit_is _ 7 c (hm 7 1), fld_is _ 8 3 k (hm 8 3), fld_is _ 11 5 b (hm 11 5), fld_is _ 16 5 a (hm 16 5), fld_is _ 21 5 d (hm 21 5)]
  rfl

theorem vamoMax (d : BitVec 5) (a : BitVec 5) (b : BitVec 5) (k : BitVec 3) (c : Bool) (t : Bool) (o : Bool) (y : Bool) : Statement (.vamoMax d a b k c t o y) := fun _ hw => by
  have hf : Fits [(1, 0), (1, y.toNat), (1, o.toNat), (3, 2), (1, t.toNat), (1, c.toNat), (3, k.toNat), (5, b.toNat), (5, a.toNat), (5, d.toNat), (6, 44)] :=
    ⟨by decide, y.toNat_lt, o.toNat_lt, by decide, t.toNat_lt, c.toNat_lt, k.isLt, b.isLt, a.isLt, d.isLt, by decide, trivial⟩
  have hm := fldN_pack _ hf
  refine decode_word _ hf rfl _ (by simp only [pack]; omega) _ (by simp only [isCommandWord, show _ = 44 from hm 26 6]; rfl) ?_ hw
  rw [major_decVamo _ (hm 26 6)]
  simp only [decVamo, show _ = 2 from hm 3 3, show _ = 0 from hm 0 1, bit_is _ 1 y (hm 1 1), bit_is _ 2 o (hm 2 1), bit_is _ 6 t (hm 6 1), bit_is _ 7 c (hm 7 1), fld_is _ 8 3 k (hm 8 3), fld_is _ 11 5 b (hm 11 5), fld_is _ 16 5 a (hm 16 5), fld_is _ 21 5 d (hm 21 5)]
  rfl

theorem vamoOr (d : BitVec 5) (a : BitVec 5) (b : BitVec 5) (k : BitVec 3) (c : Bool) (t : Bool) (o : Bool) (y : Bool) : Statement (.vamoOr d a b k c t o y) := fun _ hw => by
  have hf : Fits [(1, 0), (1, y.toNat), (1, o.toNat), (3, 3), (1, t.toNat), (1, c.toNat), (3, k.toNat), (5, b.toNat), (5, a.toNat), (5, d.toNat), (6, 44)] :=
    ⟨by decide, y.toNat_lt, o.toNat_lt, by decide, t.toNat_lt, c.toNat_lt, k.isLt, b.isLt, a.isLt, d.isLt, by decide, trivial⟩
  have hm := fldN_pack _ hf
  refine decode_word _ hf rfl _ (by simp only [pack]; omega) _ (by simp only [isCommandWord, show _ = 44 from hm 26 6]; rfl) ?_ hw
  rw [major_decVamo _ (hm 26 6)]
  simp only [decVamo, show _ = 3 from hm 3 3, show _ = 0 from hm 0 1, bit_is _ 1 y (hm 1 1), bit_is _ 2 o (hm 2 1), bit_is _ 6 t (hm 6 1), bit_is _ 7 c (hm 7 1), fld_is _ 8 3 k (hm 8 3), fld_is _ 11 5 b (hm 11 5), fld_is _ 16 5 a (hm 16 5), fld_is _ 21 5 d (hm 21 5)]
  rfl

theorem vamoFadd (d : BitVec 5) (a : BitVec 5) (b : BitVec 5) (k : BitVec 3) (c : Bool) (t : Bool) (o : Bool) (y : Bool) : Statement (.vamoFadd d a b k c t o y) := fun _ hw => by
  have hf : Fits [(1, 0), (1, y.toNat), (1, o.toNat), (3, 4), (1, t.toNat), (1, c.toNat), (3, k.toNat), (5, b.toNat), (5, a.toNat), (5, d.toNat), (6, 44)] :=
    ⟨by decide, y.toNat_lt, o.toNat_lt, by decide, t.toNat_lt, c.toNat_lt, k.isLt, b.isLt, a.isLt, d.isLt, by decide, trivial⟩
  have hm := fldN_pack _ hf
  refine decode_word _ hf rfl _ (by simp only [pack]; omega) _ (by simp only [isCommandWord, show _ = 44 from hm 26 6]; rfl) ?_ hw
  rw [major_decVamo _ (hm 26 6)]
  simp only [decVamo, show _ = 4 from hm 3 3, show _ = 0 from hm 0 1, bit_is _ 1 y (hm 1 1), bit_is _ 2 o (hm 2 1), bit_is _ 6 t (hm 6 1), bit_is _ 7 c (hm 7 1), fld_is _ 8 3 k (hm 8 3), fld_is _ 11 5 b (hm 11 5), fld_is _ 16 5 a (hm 16 5), fld_is _ 21 5 d (hm 21 5)]
  rfl

theorem vhash (d : BitVec 5) (a : BitVec 5) (b : BitVec 5) (k : BitVec 3) (c : Bool) (t : Bool) : Statement (.vhash d a b k c t) := fun _ hw => by
  have hf : Fits [(6, 0), (1, t.toNat), (1, c.toNat), (3, k.toNat), (5, b.toNat), (5, a.toNat), (5, d.toNat), (6, 45)] :=
    ⟨by decide, t.toNat_lt, c.toNat_lt, k.isLt, b.isLt, a.isLt, d.isLt, by decide, trivial⟩
  have hm := fldN_pack _ hf
  refine decode_word _ hf rfl _ (by simp only [pack]; omega) _ (by simp only [isCommandWord, show _ = 45 from hm 26 6]; rfl) ?_ hw
  rw [major_decVdb _ (hm 26 6)]
  simp only [decVdb, show _ = 0 from hm 0 6, bit_is _ 6 t (hm 6 1), bit_is _ 7 c (hm 7 1), fld_is _ 8 3 k (hm 8 3), fld_is _ 11 5 b (hm 11 5), fld_is _ 16 5 a (hm 16 5), fld_is _ 21 5 d (hm 21 5)]

theorem vbucket (d : BitVec 5) (a : BitVec 5) (b : BitVec 5) (k : BitVec 3) (c : Bool) (t : Bool) : Statement (.vbucket d a b k c t) := fun _ hw => by
  have hf : Fits [(6, 1), (1, t.toNat), (1, c.toNat), (3, k.toNat), (5, b.toNat), (5, a.toNat), (5, d.toNat), (6, 45)] :=
    ⟨by decide, t.toNat_lt, c.toNat_lt, k.isLt, b.isLt, a.isLt, d.isLt, by decide, trivial⟩
  have hm := fldN_pack _ hf
  refine decode_word _ hf rfl _ (by simp only [pack]; omega) _ (by simp only [isCommandWord, show _ = 45 from hm 26 6]; rfl) ?_ hw
  rw [major_decVdb _ (hm 26 6)]
  simp only [decVdb, show _ = 1 from hm 0 6, bit_is _ 6 t (hm 6 1), bit_is _ 7 c (hm 7 1), fld_is _ 8 3 k (hm 8 3), fld_is _ 11 5 b (hm 11 5), fld_is _ 16 5 a (hm 16 5), fld_is _ 21 5 d (hm 21 5)]

theorem vconf (d : BitVec 5) (a : BitVec 5) (k : BitVec 3) (c : Bool) (t : Bool) : Statement (.vconf d a k c t) := fun _ hw => by
  have hf : Fits [(6, 2), (1, t.toNat), (1, c.toNat), (3, k.toNat), (5, 0), (5, a.toNat), (5, d.toNat), (6, 45)] :=
    ⟨by decide, t.toNat_lt, c.toNat_lt, k.isLt, by decide, a.isLt, d.isLt, by decide, trivial⟩
  have hm := fldN_pack _ hf
  refine decode_word _ hf rfl _ (by simp only [pack]; omega) _ (by simp only [isCommandWord, show _ = 45 from hm 26 6]; rfl) ?_ hw
  rw [major_decVdb _ (hm 26 6)]
  simp only [decVdb, show _ = 2 from hm 0 6, show _ = 0 from hm 11 5, bit_is _ 6 t (hm 6 1), bit_is _ 7 c (hm 7 1), fld_is _ 8 3 k (hm 8 3), fld_is _ 16 5 a (hm 16 5), fld_is _ 21 5 d (hm 21 5)]
  rfl

theorem vstrcmp (d : BitVec 5) (a : BitVec 5) (b : BitVec 5) (k : BitVec 3) (c : Bool) (t : Bool) : Statement (.vstrcmp d a b k c t) := fun _ hw => by
  have hf : Fits [(6, 3), (1, t.toNat), (1, c.toNat), (3, k.toNat), (5, b.toNat), (5, a.toNat), (5, d.toNat), (6, 45)] :=
    ⟨by decide, t.toNat_lt, c.toNat_lt, k.isLt, b.isLt, a.isLt, d.isLt, by decide, trivial⟩
  have hm := fldN_pack _ hf
  refine decode_word _ hf rfl _ (by simp only [pack]; omega) _ (by simp only [isCommandWord, show _ = 45 from hm 26 6]; rfl) ?_ hw
  rw [major_decVdb _ (hm 26 6)]
  simp only [decVdb, show _ = 3 from hm 0 6, bit_is _ 6 t (hm 6 1), bit_is _ 7 c (hm 7 1), fld_is _ 8 3 k (hm 8 3), fld_is _ 11 5 b (hm 11 5), fld_is _ 16 5 a (hm 16 5), fld_is _ 21 5 d (hm 21 5)]

theorem vstrhash (d : BitVec 5) (a : BitVec 5) (b : BitVec 5) (k : BitVec 3) (c : Bool) (t : Bool) : Statement (.vstrhash d a b k c t) := fun _ hw => by
  have hf : Fits [(6, 4), (1, t.toNat), (1, c.toNat), (3, k.toNat), (5, b.toNat), (5, a.toNat), (5, d.toNat), (6, 45)] :=
    ⟨by decide, t.toNat_lt, c.toNat_lt, k.isLt, b.isLt, a.isLt, d.isLt, by decide, trivial⟩
  have hm := fldN_pack _ hf
  refine decode_word _ hf rfl _ (by simp only [pack]; omega) _ (by simp only [isCommandWord, show _ = 45 from hm 26 6]; rfl) ?_ hw
  rw [major_decVdb _ (hm 26 6)]
  simp only [decVdb, show _ = 4 from hm 0 6, bit_is _ 6 t (hm 6 1), bit_is _ 7 c (hm 7 1), fld_is _ 8 3 k (hm 8 3), fld_is _ 11 5 b (hm 11 5), fld_is _ 16 5 a (hm 16 5), fld_is _ 21 5 d (hm 21 5)]

theorem setrc (a : BitVec 5) (t : Bool) : Statement (.setrc a t) := fun _ hw => by
  have hf : Fits [(6, 0), (1, t.toNat), (1, 0), (8, 0), (5, a.toNat), (5, 0), (6, 46)] :=
    ⟨by decide, t.toNat_lt, by decide, by decide, a.isLt, by decide, by decide, trivial⟩
  have hm := fldN_pack _ hf
  refine decode_word _ hf rfl _ (by simp only [pack]; omega) _ (by simp only [isCommandWord, show _ = 46 from hm 26 6]; rfl) ?_ hw
  rw [major_decVctl _ (hm 26 6)]
  simp only [decVctl, show _ = 0 from hm 0 6, show _ = 0 from hm 8 8, show _ = 0 from hm 21 5, bit_is _ 6 t (hm 6 1), fld_is _ 16 5 a (hm 16 5)]
  rfl

theorem vsplit (a : BitVec 5) (n : BitVec 5) (t : Bool) : Statement (.vsplit a n t) := fun _ hw => by
  have hf : Fits [(6, 1), (1, t.toNat), (1, 0), (3, 0), (5, n.toNat), (5, a.toNat), (5, 0), (6, 46)] :=
    ⟨by decide, t.toNat_lt, by decide, by decide, n.isLt, a.isLt, by decide, by decide, trivial⟩
  have hm := fldN_pack _ hf
  refine decode_word _ hf rfl _ (by simp only [pack]; omega) _ (by simp only [isCommandWord, show _ = 46 from hm 26 6]; rfl) ?_ hw
  rw [major_decVctl _ (hm 26 6)]
  simp only [decVctl, show _ = 1 from hm 0 6, show _ = 0 from hm 8 3, show _ = 0 from hm 21 5, bit_is _ 6 t (hm 6 1), fld_is _ 11 5 n (hm 11 5), fld_is _ 16 5 a (hm 16 5)]
  rfl

theorem vmerge : Statement .vmerge := fun _ hw => by
  have hf : Fits [(6, 2), (2, 0), (18, 0), (6, 46)] :=
    ⟨by decide, by decide, by decide, by decide, trivial⟩
  have hm := fldN_pack _ hf
  refine decode_word _ hf rfl _ (by simp only [pack]; omega) _ (by simp only [isCommandWord, show _ = 46 from hm 26 6]; rfl) ?_ hw
  rw [major_decVctl _ (hm 26 6)]
  simp only [decVctl, show _ = 2 from hm 0 6, show _ = 0 from hm 8 18]
  rfl

theorem vpark : Statement .vpark := fun _ hw => by
  have hf : Fits [(6, 3), (2, 0), (18, 0), (6, 46)] :=
    ⟨by decide, by decide, by decide, by decide, trivial⟩
  have hm := fldN_pack _ hf
  refine decode_word _ hf rfl _ (by simp only [pack]; omega) _ (by simp only [isCommandWord, show _ = 46 from hm 26 6]; rfl) ?_ hw
  rw [major_decVctl _ (hm 26 6)]
  simp only [decVctl, show _ = 3 from hm 0 6, show _ = 0 from hm 8 18]
  rfl

theorem mld (n : BitVec 3) (s : BitVec 2) (a : BitVec 5) (b : BitVec 5) (t : Bool) : Statement (.mld n s a b t) := fun _ hw => by
  have hf : Fits [(10, 0), (1, t.toNat), (5, b.toNat), (5, a.toNat), (2, s.toNat), (3, n.toNat), (6, 48)] :=
    ⟨by decide, t.toNat_lt, b.isLt, a.isLt, s.isLt, n.isLt, by decide, trivial⟩
  have hm := fldN_pack _ hf
  refine decode_word _ hf rfl _ (by simp only [pack]; omega) _ (by simp only [isCommandWord, show _ = 48 from hm 26 6]; rfl) ?_ hw
  simp only [decWord, show _ = 48 from hm 26 6, show _ = 0 from hm 0 10, bit_is _ 10 t (hm 10 1), fld_is _ 11 5 b (hm 11 5), fld_is _ 16 5 a (hm 16 5), fld_is _ 21 2 s (hm 21 2), fld_is _ 23 3 n (hm 23 3)]
  rfl

theorem mst (n : BitVec 3) (s : BitVec 2) (a : BitVec 5) (b : BitVec 5) (t : Bool) : Statement (.mst n s a b t) := fun _ hw => by
  have hf : Fits [(10, 0), (1, t.toNat), (5, b.toNat), (5, a.toNat), (2, s.toNat), (3, n.toNat), (6, 49)] :=
    ⟨by decide, t.toNat_lt, b.isLt, a.isLt, s.isLt, n.isLt, by decide, trivial⟩
  have hm := fldN_pack _ hf
  refine decode_word _ hf rfl _ (by simp only [pack]; omega) _ (by simp only [isCommandWord, show _ = 49 from hm 26 6]; rfl) ?_ hw
  simp only [decWord, show _ = 49 from hm 26 6, show _ = 0 from hm 0 10, bit_is _ 10 t (hm 10 1), fld_is _ 11 5 b (hm 11 5), fld_is _ 16 5 a (hm 16 5), fld_is _ 21 2 s (hm 21 2), fld_is _ 23 3 n (hm 23 3)]
  rfl

theorem mma (c : BitVec 2) (a : BitVec 3) (b : BitVec 3) (s : BitVec 2) (p : Bool) (n : Bool) (z : Bool) (y : BitVec 2) : Statement (.mma c a b s p n z y) := fun _ hw => by
  have hf : Fits [(8, 0), (2, y.toNat), (1, z.toNat), (1, n.toNat), (1, p.toNat), (3, 0), (2, s.toNat), (3, b.toNat), (3, a.toNat), (2, c.toNat), (6, 50)] :=
    ⟨by decide, y.isLt, z.toNat_lt, n.toNat_lt, p.toNat_lt, by decide, s.isLt, b.isLt, a.isLt, c.isLt, by decide, trivial⟩
  have hm := fldN_pack _ hf
  refine decode_word _ hf rfl _ (by simp only [pack]; omega) _ (by simp only [isCommandWord, show _ = 50 from hm 26 6]; rfl) ?_ hw
  simp only [decWord, show _ = 50 from hm 26 6, show _ = 0 from hm 0 8, show _ = 0 from hm 13 3, fld_is _ 8 2 y (hm 8 2), bit_is _ 10 z (hm 10 1), bit_is _ 11 n (hm 11 1), bit_is _ 12 p (hm 12 1), fld_is _ 16 2 s (hm 16 2), fld_is _ 18 3 b (hm 18 3), fld_is _ 21 3 a (hm 21 3), fld_is _ 24 2 c (hm 24 2)]
  rfl

theorem mzero (c : BitVec 2) (s : BitVec 2) : Statement (.mzero c s) := fun _ hw => by
  have hf : Fits [(11, 0), (3, 0), (2, s.toNat), (3, 0), (2, c.toNat), (5, 0), (6, 51)] :=
    ⟨by decide, by decide, s.isLt, by decide, c.isLt, by decide, by decide, trivial⟩
  have hm := fldN_pack _ hf
  refine decode_word _ hf rfl _ (by simp only [pack]; omega) _ (by simp only [isCommandWord, show _ = 51 from hm 26 6]; rfl) ?_ hw
  rw [major_decMacc _ (hm 26 6)]
  simp only [decMacc, show _ = 0 from hm 11 3, show _ = 0 from hm 0 11, show _ = 0 from hm 16 3, show _ = 0 from hm 21 5, fld_is _ 14 2 s (hm 14 2), fld_is _ 19 2 c (hm 19 2)]
  rfl

theorem macc2v (d : BitVec 5) (c : BitVec 2) (s : BitVec 2) : Statement (.macc2v d c s) := fun _ hw => by
  have hf : Fits [(11, 0), (3, 1), (2, s.toNat), (3, 0), (2, c.toNat), (5, d.toNat), (6, 51)] :=
    ⟨by decide, by decide, s.isLt, by decide, c.isLt, d.isLt, by decide, trivial⟩
  have hm := fldN_pack _ hf
  refine decode_word _ hf rfl _ (by simp only [pack]; omega) _ (by simp only [isCommandWord, show _ = 51 from hm 26 6]; rfl) ?_ hw
  rw [major_decMacc _ (hm 26 6)]
  simp only [decMacc, show _ = 1 from hm 11 3, show _ = 0 from hm 0 11, show _ = 0 from hm 16 3, fld_is _ 14 2 s (hm 14 2), fld_is _ 19 2 c (hm 19 2), fld_is _ 21 5 d (hm 21 5)]
  rfl

theorem macc2t (c : BitVec 2) (n : BitVec 3) (s : BitVec 2) : Statement (.macc2t c n s) := fun _ hw => by
  have hf : Fits [(11, 0), (3, 2), (2, s.toNat), (3, n.toNat), (2, c.toNat), (5, 0), (6, 51)] :=
    ⟨by decide, by decide, s.isLt, n.isLt, c.isLt, by decide, by decide, trivial⟩
  have hm := fldN_pack _ hf
  refine decode_word _ hf rfl _ (by simp only [pack]; omega) _ (by simp only [isCommandWord, show _ = 51 from hm 26 6]; rfl) ?_ hw
  rw [major_decMacc _ (hm 26 6)]
  simp only [decMacc, show _ = 2 from hm 11 3, show _ = 0 from hm 0 11, show _ = 0 from hm 21 5, fld_is _ 14 2 s (hm 14 2), fld_is _ 16 3 n (hm 16 3), fld_is _ 19 2 c (hm 19 2)]
  rfl

theorem msync (m : BitVec 4) : Statement (.msync m) := fun _ hw => by
  have hf : Fits [(22, 0), (4, m.toNat), (6, 52)] :=
    ⟨by decide, m.isLt, by decide, trivial⟩
  have hm := fldN_pack _ hf
  refine decode_word _ hf rfl _ (by simp only [pack]; omega) _ (by simp only [isCommandWord, show _ = 52 from hm 26 6]; rfl) ?_ hw
  simp only [decWord, show _ = 52 from hm 26 6, show _ = 0 from hm 0 22, fld_is _ 22 4 m (hm 22 4)]
  rfl

theorem copyLin (r : CmdRegs) (c : Comp) (f : Option Follow) : Statement (.copyLin r c f) := fun _ hw => by
  have ⟨ef, ez, hm⟩ := copy_word [(3, 0), (11, 0)] ⟨by decide, by decide, trivial⟩ rfl (0) rfl f
  rw [Nat.zero_add] at ef ez hm
  refine cmd 0 (by decide) r _ c _ ?_ hw
  simp only [decCommand, kindOf 0 (by decide), decCopy, word0_regs 0 (by decide), comp_words, ef, ez, show _ = 0 from hm 0 3 (by decide), show _ = 0 from hm 3 11 (by decide), zeroIf]
  rfl

theorem copyDeint (r : CmdRegs) (c : Comp) (f : Option Follow) (esz : BitVec 3) (np : BitVec 4) : Statement (.copyDeint r c f esz np) := fun _ hw => by
  have ⟨ef, ez, hm⟩ := copy_word [(3, 1), (3, esz.toNat), (4, np.toNat), (4, 0)] ⟨by decide, esz.isLt, np.isLt, by decide, trivial⟩ rfl (1 + esz.toNat * 8 + np.toNat * 0x40) (by simp only [pack]; omega) f
  refine cmd 0 (by decide) r _ c _ ?_ hw
  simp only [decCommand, kindOf 0 (by decide), decCopy, word0_regs 0 (by decide), comp_words, ef, ez, show _ = 1 from hm 0 3 (by decide), show _ = 0 from hm 10 4 (by decide), fld_is _ 3 3 esz (hm 3 3 (by decide)), fld_is _ 6 4 np (hm 6 4 (by decide)), zeroIf]
  rfl

theorem copyPerm (r : CmdRegs) (c : Comp) (f : Option Follow) (esz : BitVec 3) (perm : BitVec 8) : Statement (.copyPerm r c f esz perm) := fun _ hw => by
  have ⟨ef, ez, hm⟩ := copy_word [(3, 2), (3, esz.toNat), (8, perm.toNat)] ⟨by decide, esz.isLt, perm.isLt, trivial⟩ rfl (2 + esz.toNat * 8 + perm.toNat * 0x40) (by simp only [pack]; omega) f
  refine cmd 0 (by decide) r _ c _ ?_ hw
  simp only [decCommand, kindOf 0 (by decide), decCopy, word0_regs 0 (by decide), comp_words, ef, ez, show _ = 2 from hm 0 3 (by decide), fld_is _ 3 3 esz (hm 3 3 (by decide)), fld_is _ 6 8 perm (hm 6 8 (by decide)), zeroIf]
  rfl

theorem copyVreg (r : CmdRegs) (c : Comp) (f : Option Follow) : Statement (.copyVreg r c f) := fun _ hw => by
  have ⟨ef, ez, hm⟩ := copy_word [(3, 3), (11, 0)] ⟨by decide, by decide, trivial⟩ rfl (3) rfl f
  refine cmd 0 (by decide) r _ c _ ?_ hw
  simp only [decCommand, kindOf 0 (by decide), decCopy, word0_regs 0 (by decide), comp_words, ef, ez, show _ = 3 from hm 0 3 (by decide), show _ = 0 from hm 3 11 (by decide), zeroIf]
  rfl

theorem copyTile (r : CmdRegs) (c : Comp) (f : Option Follow) : Statement (.copyTile r c f) := fun _ hw => by
  have ⟨ef, ez, hm⟩ := copy_word [(3, 4), (11, 0)] ⟨by decide, by decide, trivial⟩ rfl (4) rfl f
  refine cmd 0 (by decide) r _ c _ ?_ hw
  simp only [decCommand, kindOf 0 (by decide), decCopy, word0_regs 0 (by decide), comp_words, ef, ez, show _ = 4 from hm 0 3 (by decide), show _ = 0 from hm 3 11 (by decide), zeroIf]
  rfl

theorem strm (ga gd : BitVec 5) (c : Comp) (q : BitVec 3) (file : Bool) (reg : BitVec 2) (dir : Bool) : Statement (.strm ga gd c q file reg dir) := fun _ hw => by
  have hf : Fits [(3, q.toNat), (1, file.toNat), (2, reg.toNat), (1, dir.toNat), (25, 0)] := ⟨q.isLt, file.toNat_lt, reg.isLt, dir.toNat_lt, by decide, trivial⟩
  have hm := fldN_pack _ hf
  refine cmd 1 (by decide) ⟨ga, 0, 0, gd⟩ (BitVec.ofNat 32 (q.toNat + file.toNat * 8 + reg.toNat * 0x10 + dir.toNat * 0x40)) c _ ?_ hw
  rw [word_pack _ hf rfl (q.toNat + file.toNat * 8 + reg.toNat * 0x10 + dir.toNat * 0x40) (by simp only [pack]; omega)]
  simp only [decCommand, kindOf 1 (by decide), word0_regs 1 (by decide), comp_words, show _ = 0 from hm 7 25, fld_is _ 0 3 q (hm 0 3), bit_is _ 3 file (hm 3 1), fld_is _ 4 2 reg (hm 4 2), bit_is _ 6 dir (hm 6 1), zeroIf]
  rfl

theorem unstrm (q : BitVec 3) : Statement (.unstrm q) := fun _ hw => by
  have hf : Fits [(3, q.toNat), (29, 0)] := ⟨q.isLt, by decide, trivial⟩
  have hm := fldN_pack _ hf
  refine cmdZ 2 (by decide) ⟨0, 0, 0, 0⟩ (BitVec.ofNat 32 (q.toNat)) _ ?_ hw
  rw [word_pack _ hf rfl (q.toNat) (by simp only [pack]; omega)]
  simp only [decCommand, kindOf 2 (by decide), word0_regs 2 (by decide), show _ = 0 from hm 3 29, fld_is _ 0 3 q (hm 0 3), zeroIf]
  rfl

theorem rsv (r : CmdRegs) (c : Comp) (esz : BitVec 3) (wr : Bool) (mode : BitVec 2) (hunit : BitVec 5) : Statement (.rsv r c esz wr mode hunit) := fun _ hw => by
  have hf : Fits [(3, esz.toNat), (1, wr.toNat), (2, mode.toNat), (5, hunit.toNat), (21, 0)] := ⟨esz.isLt, wr.toNat_lt, mode.isLt, hunit.isLt, by decide, trivial⟩
  have hm := fldN_pack _ hf
  refine cmd 3 (by decide) r (BitVec.ofNat 32 (esz.toNat + wr.toNat * 8 + mode.toNat * 0x10 + hunit.toNat * 0x40)) c _ ?_ hw
  rw [word_pack _ hf rfl (esz.toNat + wr.toNat * 8 + mode.toNat * 0x10 + hunit.toNat * 0x40) (by simp only [pack]; omega)]
  simp only [decCommand, kindOf 3 (by decide), word0_regs 3 (by decide), comp_words, show _ = 0 from hm 11 21, fld_is _ 0 3 esz (hm 0 3), bit_is _ 3 wr (hm 3 1), fld_is _ 4 2 mode (hm 4 2), fld_is _ 6 5 hunit (hm 6 5), zeroIf]
  rfl

theorem ursv (gd : BitVec 5) (c : Comp) (hunit : BitVec 5) : Statement (.ursv gd c hunit) := fun _ hw => by
  have hf : Fits [(6, 0), (5, hunit.toNat), (21, 0)] := ⟨by decide, hunit.isLt, by decide, trivial⟩
  have hm := fldN_pack _ hf
  refine cmd 4 (by decide) ⟨0, 0, 0, gd⟩ (BitVec.ofNat 32 (hunit.toNat * 0x40)) c _ ?_ hw
  rw [word_pack _ hf rfl (hunit.toNat * 0x40) (by simp only [pack]; omega)]
  simp only [decCommand, kindOf 4 (by decide), word0_regs 4 (by decide), comp_words, show _ = 0 from hm 0 6, show _ = 0 from hm 11 21, fld_is _ 6 5 hunit (hm 6 5), zeroIf]
  rfl

theorem nodeNest (ga : BitVec 5) : Statement (.nodeNest ga) := fun _ hw => by
  refine cmdZ 5 (by decide) ⟨ga, 0, 0, 0⟩ 0 _ ?_ hw
  simp only [decCommand, kindOf 5 (by decide), word0_regs 5 (by decide), zeroIf]
  rfl

theorem nodeCmd (ga : BitVec 5) : Statement (.nodeCmd ga) := fun _ hw => by
  refine cmdZ 5 (by decide) ⟨ga, 0, 0, 0⟩ 1 _ ?_ hw
  simp only [decCommand, kindOf 5 (by decide), word0_regs 5 (by decide), zeroIf]
  rfl

theorem put (r : CmdRegs) (c : Comp) (dpkg : BitVec 9) (tag : Option PodTag) : Statement (.put r c dpkg tag) := fun _ hw => by
  have ⟨h0, ht, h1, hz, h8⟩ := tag_word dpkg.toNat dpkg.isLt tag 0 (by decide)
  rw [Nat.zero_mul, Nat.add_zero] at h0 ht h1 hz h8
  refine cmd 6 (by decide) r (BitVec.ofNat 32 (dpkg.toNat + tagBits tag)) c _ ?_ hw
  simp only [decCommand, kindOf 6 (by decide), word0_regs 6 (by decide), comp_words, ht, hz, fld_is _ 0 9 dpkg h0, h1, zeroIf]
  rfl

theorem get (r : CmdRegs) (c : Comp) (dpkg : BitVec 9) : Statement (.get r c dpkg) := fun _ hw => by
  have hf : Fits [(9, dpkg.toNat), (23, 0)] := ⟨dpkg.isLt, by decide, trivial⟩
  have hm := fldN_pack _ hf
  refine cmd 7 (by decide) r (BitVec.ofNat 32 (dpkg.toNat)) c _ ?_ hw
  rw [word_pack _ hf rfl (dpkg.toNat) (by simp only [pack]; omega)]
  simp only [decCommand, kindOf 7 (by decide), word0_regs 7 (by decide), comp_words, show _ = 0 from hm 9 23, fld_is _ 0 9 dpkg (hm 0 9), zeroIf]
  rfl

theorem ramo (r : CmdRegs) (c : Comp) (dpkg : BitVec 9) (func : BitVec 4) : Statement (.ramo r c dpkg func) := fun _ hw => by
  have hf : Fits [(9, dpkg.toNat), (19, 0), (4, func.toNat)] := ⟨dpkg.isLt, by decide, func.isLt, trivial⟩
  have hm := fldN_pack _ hf
  refine cmd 8 (by decide) r (BitVec.ofNat 32 (dpkg.toNat + func.toNat * 0x10000000)) c _ ?_ hw
  rw [word_pack _ hf rfl (dpkg.toNat + func.toNat * 0x10000000) (by simp only [pack]; omega)]
  simp only [decCommand, kindOf 8 (by decide), word0_regs 8 (by decide), comp_words, show _ = 0 from hm 9 19, fld_is _ 0 9 dpkg (hm 0 9), fld_is _ 28 4 func (hm 28 4), zeroIf]
  rfl

theorem rred (r : CmdRegs) (c : Comp) (dpkg : BitVec 9) (tag : Option PodTag) (func : BitVec 4) : Statement (.rred r c dpkg tag func) := fun _ hw => by
  have ⟨h0, ht, h1, hz, h8⟩ := tag_word dpkg.toNat dpkg.isLt tag func.toNat func.isLt
  refine cmd 9 (by decide) r (BitVec.ofNat 32 (dpkg.toNat + tagBits tag + func.toNat * 0x10000000)) c _ ?_ hw
  simp only [decCommand, kindOf 9 (by decide), word0_regs 9 (by decide), comp_words, ht, hz, fld_is _ 0 9 dpkg h0, fld_is _ 28 4 func h1, zeroIf]
  simp only [if_true]

theorem mcast (r : CmdRegs) (c : Comp) (group : BitVec 8) (tag : Option PodTag) : Statement (.mcast r c group tag) := fun _ hw => by
  have ⟨h0, ht, h1, hz, h8⟩ := tag_word group.toNat (Nat.lt_trans group.isLt (by decide)) tag 0 (by decide)
  rw [Nat.zero_mul, Nat.add_zero] at h0 ht h1 hz h8
  refine cmd 10 (by decide) r (BitVec.ofNat 32 (group.toNat + tagBits tag)) c _ ?_ hw
  simp only [decCommand, kindOf 10 (by decide), word0_regs 10 (by decide), comp_words, ht, hz, (h8 group.isLt).2, fld_is _ 0 8 group (h8 group.isLt).1, h1, zeroIf]
  rfl

theorem tpost (ga gb gc : BitVec 5) (k : BitVec 9) (act : BitVec 2) (rel : Bool) : Statement (.tpost ga gb gc k act rel) := fun _ hw => by
  have hf : Fits [(9, k.toNat), (2, act.toNat), (1, rel.toNat), (20, 0)] := ⟨k.isLt, act.isLt, rel.toNat_lt, by decide, trivial⟩
  have hm := fldN_pack _ hf
  refine cmdZ 11 (by decide) ⟨ga, gb, gc, 0⟩ (BitVec.ofNat 32 (k.toNat + act.toNat * 0x200 + rel.toNat * 0x800)) _ ?_ hw
  rw [word_pack _ hf rfl (k.toNat + act.toNat * 0x200 + rel.toNat * 0x800) (by simp only [pack]; omega)]
  simp only [decCommand, kindOf 11 (by decide), word0_regs 11 (by decide), show _ = 0 from hm 12 20, fld_is _ 0 9 k (hm 0 9), fld_is _ 9 2 act (hm 9 2), bit_is _ 11 rel (hm 11 1), zeroIf]
  rfl

theorem tcancel (ga gd : BitVec 5) (k : BitVec 9) : Statement (.tcancel ga gd k) := fun _ hw => by
  have hf : Fits [(9, k.toNat), (23, 0)] := ⟨k.isLt, by decide, trivial⟩
  have hm := fldN_pack _ hf
  refine cmdZ 12 (by decide) ⟨ga, 0, 0, gd⟩ (BitVec.ofNat 32 (k.toNat)) _ ?_ hw
  rw [word_pack _ hf rfl (k.toNat) (by simp only [pack]; omega)]
  simp only [decCommand, kindOf 12 (by decide), word0_regs 12 (by decide), show _ = 0 from hm 9 23, fld_is _ 0 9 k (hm 0 9), zeroIf]
  rfl

theorem fcfg (ga gd : BitVec 5) (c : Comp) : Statement (.fcfg ga gd c) := fun _ hw => by
  refine cmd 13 (by decide) ⟨ga, 0, 0, gd⟩ 0 c _ ?_ hw
  simp only [decCommand, kindOf 13 (by decide), word0_regs 13 (by decide), comp_words, zeroIf]
  rfl

theorem frun (ga gd : BitVec 5) (c : Comp) : Statement (.frun ga gd c) := fun _ hw => by
  refine cmd 14 (by decide) ⟨ga, 0, 0, gd⟩ 0 c _ ?_ hw
  simp only [decCommand, kindOf 14 (by decide), word0_regs 14 (by decide), comp_words, zeroIf]
  rfl

theorem frunResume (ga gd : BitVec 5) (c : Comp) : Statement (.frunResume ga gd c) := fun _ hw => by
  refine cmd 14 (by decide) ⟨ga, 0, 0, gd⟩ 1 c _ ?_ hw
  simp only [decCommand, kindOf 14 (by decide), word0_regs 14 (by decide), comp_words, zeroIf]
  rfl

theorem fhalt (ga gd : BitVec 5) (c : Comp) : Statement (.fhalt ga gd c) := fun _ hw => by
  refine cmd 15 (by decide) ⟨ga, 0, 0, gd⟩ 0 c _ ?_ hw
  simp only [decCommand, kindOf 15 (by decide), word0_regs 15 (by decide), comp_words, zeroIf]
  rfl

/-! ## Steps of units -/

theorem tsackRetry (_id : Nat) (_own : Bool) : Statement (.tsackRetry _id _own) := fun h => nomatch h
theorem tsackFail (_id : Nat) (_own : Bool) : Statement (.tsackFail _id _own) := fun h => nomatch h
theorem tsackFrame (_id : Nat) (_own : Bool) : Statement (.tsackFrame _id _own) := fun h => nomatch h
theorem tsackInvalid (_id : Nat) (_action : Nat) (_own : Bool) : Statement (.tsackInvalid _id _action _own) := fun h => nomatch h
theorem nendWrite (_addr : BitVec 64) : Statement (.nendWrite _addr) := fun h => nomatch h
theorem watermarkWrite (_idx : Nat) (_val : BitVec 64) : Statement (.watermarkWrite _idx _val) := fun h => nomatch h
theorem yieldExpire (_hart : Nat) : Statement (.yieldExpire _hart) := fun h => nomatch h
theorem shootBroadcast (_id : Nat) : Statement (.shootBroadcast _id) := fun h => nomatch h
theorem shootDrop (_id : Nat) (_stack : Nat) : Statement (.shootDrop _id _stack) := fun h => nomatch h
theorem shootAck (_id : Nat) (_stack : Nat) : Statement (.shootAck _id _stack) := fun h => nomatch h
theorem shootComplete (_id : Nat) : Statement (.shootComplete _id) := fun h => nomatch h
theorem vcdefProceed (_hart : Nat) : Statement (.vcdefProceed _hart) := fun h => nomatch h
theorem convoyIssue (_words : List (BitVec 32)) : Statement (.convoyIssue _words) := fun h => nomatch h
theorem mmaBegin (_tile : Nat) : Statement (.mmaBegin _tile) := fun h => nomatch h
theorem matrixOpComplete (_tile : Nat) (_stream : Nat) : Statement (.matrixOpComplete _tile _stream) := fun h => nomatch h
theorem commandAccept (_hart : Nat) : Statement (.commandAccept _hart) := fun h => nomatch h
theorem copyBegin (_tile : Nat) : Statement (.copyBegin _tile) := fun h => nomatch h
theorem copyTransfer (_tile : Nat) (_cmd : Nat) : Statement (.copyTransfer _tile _cmd) := fun h => nomatch h
theorem commandComplete (_tile : Nat) (_cmd : Nat) : Statement (.commandComplete _tile _cmd) := fun h => nomatch h
theorem commandNodeBegin (_part : Nat) (_node : BitVec 64) : Statement (.commandNodeBegin _part _node) := fun h => nomatch h
theorem streamEngineAccess (_tile : Nat) (_q : Nat) : Statement (.streamEngineAccess _tile _q) := fun h => nomatch h
theorem streamComplete (_tile : Nat) (_q : Nat) : Statement (.streamComplete _tile _q) := fun h => nomatch h
theorem counterRaise (_tile : Nat) (_k : Nat) (_amount : BitVec 64) : Statement (.counterRaise _tile _k _amount) := fun h => nomatch h
theorem postExamine (_tile : Nat) (_k : Nat) : Statement (.postExamine _tile _k) := fun h => nomatch h
theorem firedOpHandoff (_tile : Nat) : Statement (.firedOpHandoff _tile) := fun h => nomatch h
theorem counterRunGrant (_tile : Nat) (_run : Nat) (_part : Nat) : Statement (.counterRunGrant _tile _run _part) := fun h => nomatch h
theorem counterRunRevoke (_tile : Nat) (_run : Nat) : Statement (.counterRunRevoke _tile _run) := fun h => nomatch h
theorem walkComplete (_tile : Nat) (_part : Nat) (_va : BitVec 64) (_kind : AccKind) (_sup : Bool) : Statement (.walkComplete _tile _part _va _kind _sup) := fun h => nomatch h
theorem tsqRecordWrite (_part : Nat) : Statement (.tsqRecordWrite _part) := fun h => nomatch h
theorem gets (_agent : Nat) (_gran : Nat) : Statement (.gets _agent _gran) := fun h => nomatch h
theorem getm (_agent : Nat) (_gran : Nat) : Statement (.getm _agent _gran) := fun h => nomatch h
theorem upg (_agent : Nat) (_gran : Nat) : Statement (.upg _agent _gran) := fun h => nomatch h
theorem puts (_agent : Nat) (_gran : Nat) : Statement (.puts _agent _gran) := fun h => nomatch h
theorem putm (_agent : Nat) (_gran : Nat) (_d : GData) : Statement (.putm _agent _gran _d) := fun h => nomatch h
theorem rdat (_agent : Nat) (_gran : Nat) (_d : Option GData) : Statement (.rdat _agent _gran _d) := fun h => nomatch h
theorem done (_agent : Nat) (_gran : Nat) : Statement (.done _agent _gran) := fun h => nomatch h
theorem data (_agent : Nat) (_gran : Nat) (_st : Grant) (_acks : Nat) (_d : GData) : Statement (.data _agent _gran _st _acks _d) := fun h => nomatch h
theorem gnt (_agent : Nat) (_gran : Nat) (_acks : Nat) : Statement (.gnt _agent _gran _acks) := fun h => nomatch h
theorem inv (_agent : Nat) (_gran : Nat) (_req : Nat) (_part : Nat) : Statement (.inv _agent _gran _req _part) := fun h => nomatch h
theorem rcls (_agent : Nat) (_gran : Nat) (_part : Nat) : Statement (.rcls _agent _gran _part) := fun h => nomatch h
theorem rcli (_agent : Nat) (_gran : Nat) (_part : Nat) : Statement (.rcli _agent _gran _part) := fun h => nomatch h
theorem iack (_req : Nat) (_agent : Nat) (_gran : Nat) : Statement (.iack _req _agent _gran) := fun h => nomatch h
theorem pack (_agent : Nat) (_gran : Nat) : Statement (.pack _agent _gran) := fun h => nomatch h
theorem err (_agent : Nat) (_gran : Nat) : Statement (.err _agent _gran) := fun h => nomatch h
theorem homeServedAccess (_id : Nat) : Statement (.homeServedAccess _id) := fun h => nomatch h
theorem homeAtomic (_id : Nat) : Statement (.homeAtomic _id) := fun h => nomatch h
theorem move (_part : Nat) (_vcid : Nat) (_gran : Nat) (_old : Nat) (_new : Nat) (_dirty : Bool) : Statement (.move _part _vcid _gran _old _new _dirty) := fun h => nomatch h
theorem mack (_part : Nat) (_vcid : Nat) (_gran : Nat) : Statement (.mack _part _vcid _gran) := fun h => nomatch h
theorem mnak (_part : Nat) (_vcid : Nat) (_gran : Nat) : Statement (.mnak _part _vcid _gran) := fun h => nomatch h
theorem migrationSweep (_part : Nat) (_vcid : Nat) : Statement (.migrationSweep _part _vcid) := fun h => nomatch h
theorem migrationEnd (_part : Nat) (_vcid : Nat) : Statement (.migrationEnd _part _vcid) := fun h => nomatch h
theorem drainSweep (_part : Nat) (_vcid : Nat) : Statement (.drainSweep _part _vcid) := fun h => nomatch h
theorem drainDone (_part : Nat) (_vcid : Nat) : Statement (.drainDone _part _vcid) := fun h => nomatch h
theorem correctedBankError (_bank : Nat) (_seg : Nat) : Statement (.correctedBankError _bank _seg) := fun h => nomatch h
theorem uncorrectableBankError (_bank : Nat) (_seg : Nat) : Statement (.uncorrectableBankError _bank _seg) := fun h => nomatch h
theorem pieceRegister (_piece : Nat) : Statement (.pieceRegister _piece) := fun h => nomatch h
theorem positionQuery (_piece : Nat) (_watch : Option Nat) : Statement (.positionQuery _piece _watch) := fun h => nomatch h
theorem positionAnswer (_piece : Nat) (_pos : Nat) : Statement (.positionAnswer _piece _pos) := fun h => nomatch h
theorem pieceEnd (_piece : Nat) : Statement (.pieceEnd _piece) := fun h => nomatch h
theorem hostMemRead (_gran : Nat) (_snp : HostSnp) : Statement (.hostMemRead _gran _snp) := fun h => nomatch h
theorem hostMemInv (_gran : Nat) : Statement (.hostMemInv _gran) := fun h => nomatch h
theorem hostMemWrite (_gran : Nat) (_d : GData) : Statement (.hostMemWrite _gran _d) := fun h => nomatch h
theorem hostMemCleanEvict (_gran : Nat) : Statement (.hostMemCleanEvict _gran) := fun h => nomatch h
theorem biResponse (_gran : Nat) (_keeps : Bool) (_d : Option GData) : Statement (.biResponse _gran _keeps _d) := fun h => nomatch h
theorem biConflict (_gran : Nat) : Statement (.biConflict _gran) := fun h => nomatch h
theorem h2dSnpData (_gran : Nat) : Statement (.h2dSnpData _gran) := fun h => nomatch h
theorem h2dSnpInv (_gran : Nat) : Statement (.h2dSnpInv _gran) := fun h => nomatch h
theorem h2dSnpCur (_gran : Nat) : Statement (.h2dSnpCur _gran) := fun h => nomatch h
theorem h2dResponse (_gran : Nat) (_d : GData) : Statement (.h2dResponse _gran _d) := fun h => nomatch h
theorem heartbeatMiss (_agent : Nat) : Statement (.heartbeatMiss _agent) := fun h => nomatch h
theorem hostLinkFail (_link : Nat) : Statement (.hostLinkFail _link) := fun h => nomatch h
theorem scrubStep (_stack : Nat) : Statement (.scrubStep _stack) := fun h => nomatch h
theorem storeSend (_hart : Nat) : Statement (.storeSend _hart) := fun h => nomatch h
theorem storeAck (_hart : Nat) (_id : Nat) : Statement (.storeAck _hart _id) := fun h => nomatch h
theorem mergeFlushIdle (_tile : Nat) (_idx : Nat) : Statement (.mergeFlushIdle _tile _idx) := fun h => nomatch h
theorem joinMarkers (_hart : Nat) : Statement (.joinMarkers _hart) := fun h => nomatch h
theorem joinMarkerArrive (_join : Nat) (_circuit : Nat) : Statement (.joinMarkerArrive _join _circuit) := fun h => nomatch h
theorem jackSend (_join : Nat) (_circuit : Nat) : Statement (.jackSend _join _circuit) := fun h => nomatch h
theorem jackArrive (_join : Nat) (_circuit : Nat) : Statement (.jackArrive _join _circuit) := fun h => nomatch h
theorem monitorNotify (_hart : Nat) : Statement (.monitorNotify _hart) := fun h => nomatch h
theorem watermarkRelease (_hart : Nat) : Statement (.watermarkRelease _hart) := fun h => nomatch h
theorem loadDataReturn (_id : Nat) : Statement (.loadDataReturn _id) := fun h => nomatch h
theorem dispatchDecision (_stack : Nat) : Statement (.dispatchDecision _stack) := fun h => nomatch h
theorem poolEntryTaken (_stack : Nat) (_level : Nat) : Statement (.poolEntryTaken _stack _level) := fun h => nomatch h
theorem pointSetAside (_hart : Nat) : Statement (.pointSetAside _hart) := fun h => nomatch h
theorem pointRestore (_tile : Nat) (_depth : Nat) : Statement (.pointRestore _tile _depth) := fun h => nomatch h
theorem quantumExpiry (_region : Nat) : Statement (.quantumExpiry _region) := fun h => nomatch h
theorem contextSwapBegin (_region : Nat) : Statement (.contextSwapBegin _region) := fun h => nomatch h
theorem contextSwapComplete (_region : Nat) : Statement (.contextSwapComplete _region) := fun h => nomatch h
theorem laneStepChange (_tile : Nat) (_lanes : Nat) : Statement (.laneStepChange _tile _lanes) := fun h => nomatch h
theorem thermalHalt : Statement (.thermalHalt) := fun h => nomatch h
theorem incomingPut (_p : PodIn) (_bytes : List (BitVec 8)) : Statement (.incomingPut _p _bytes) := fun h => nomatch h
theorem incomingGet (_p : PodIn) (_len : Nat) : Statement (.incomingGet _p _len) := fun h => nomatch h
theorem incomingRamo (_p : PodIn) (_func : Nat) (_dword : Bool) (_operand : BitVec 64) (_cmp : BitVec 64) : Statement (.incomingRamo _p _func _dword _operand _cmp) := fun h => nomatch h
theorem incomingRred (_p : PodIn) (_func : Nat) (_dword : Bool) (_bytes : List (BitVec 8)) : Statement (.incomingRred _p _func _dword _bytes) := fun h => nomatch h
theorem incomingMcast (_p : PodIn) (_bytes : List (BitVec 8)) : Statement (.incomingMcast _p _bytes) := fun h => nomatch h
theorem podAnswer (_tile : Nat) (_cmd : Nat) (_neg : Bool) (_bytes : List (BitVec 8)) (_nneg : Nat) (_low : Nat) : Statement (.podAnswer _tile _cmd _neg _bytes _nneg _low) := fun h => nomatch h
theorem mcastRoute (_tile : Nat) (_cmd : Nat) : Statement (.mcastRoute _tile _cmd) := fun h => nomatch h
theorem mcastMemberAnswer (_tile : Nat) (_cmd : Nat) (_pkg : Nat) (_neg : Bool) : Statement (.mcastMemberAnswer _tile _cmd _pkg _neg) := fun h => nomatch h
theorem podMergeSend (_idx : Nat) : Statement (.podMergeSend _idx) := fun h => nomatch h
theorem routerContribution (_x : Contrib) : Statement (.routerContribution _x) := fun h => nomatch h
theorem routerElementTimeout (_cluster : Nat) (_elem : Nat) : Statement (.routerElementTimeout _cluster _elem) := fun h => nomatch h
theorem routerAnswer (_cluster : Nat) (_elem : Nat) (_neg : Bool) : Statement (.routerAnswer _cluster _elem _neg) := fun h => nomatch h
theorem routerReplicate (_tile : Nat) (_part : Nat) (_pa : Nat) (_bytes : List (BitVec 8)) : Statement (.routerReplicate _tile _part _pa _bytes) := fun h => nomatch h
theorem routerEntryWrite (_tile : Nat) (_part : Nat) (_off : Nat) (_val : BitVec 64) : Statement (.routerEntryWrite _tile _part _off _val) := fun h => nomatch h
theorem crossbarDivergence : Statement (.crossbarDivergence) := fun h => nomatch h
theorem crossbarRetrainDone (_ok : Bool) : Statement (.crossbarRetrainDone _ok) := fun h => nomatch h
theorem correctedLaneError (_slice : Nat) : Statement (.correctedLaneError _slice) := fun h => nomatch h
theorem cellFire (_tile : Nat) (_pos : Nat) : Statement (.cellFire _tile _pos) := fun h => nomatch h
theorem awlElement (_tile : Nat) (_awl : Nat) : Statement (.awlElement _tile _awl) := fun h => nomatch h
theorem xlateTranslate (_tile : Nat) (_awl : Nat) : Statement (.xlateTranslate _tile _awl) := fun h => nomatch h
theorem awlExtentAnswer (_tile : Nat) (_awl : Nat) : Statement (.awlExtentAnswer _tile _awl) := fun h => nomatch h
theorem miuAccess (_tile : Nat) (_awl : Nat) : Statement (.miuAccess _tile _awl) := fun h => nomatch h
theorem miuBurstClose (_tile : Nat) (_awl : Nat) : Statement (.miuBurstClose _tile _awl) := fun h => nomatch h
theorem awlLoadReturn (_tile : Nat) (_awl : Nat) : Statement (.awlLoadReturn _tile _awl) := fun h => nomatch h
theorem portElement (_tile : Nat) (_q : Nat) : Statement (.portElement _tile _q) := fun h => nomatch h
theorem fabricRunComplete (_tile : Nat) : Statement (.fabricRunComplete _tile) := fun h => nomatch h
theorem cellFreeze (_tile : Nat) (_pos : Nat) : Statement (.cellFreeze _tile _pos) := fun h => nomatch h
theorem cutWrite (_tile : Nat) : Statement (.cutWrite _tile) := fun h => nomatch h
theorem freezeAbandon (_tile : Nat) : Statement (.freezeAbandon _tile) := fun h => nomatch h
theorem partitionStart (_part : Nat) : Statement (.partitionStart _part) := fun h => nomatch h
theorem partitionRemove (_part : Nat) : Statement (.partitionRemove _part) := fun h => nomatch h
theorem featureLock (_lock : Bool) : Statement (.featureLock _lock) := fun h => nomatch h
theorem segmentRevoke (_bank : Nat) (_seg : Nat) : Statement (.segmentRevoke _bank _seg) := fun h => nomatch h
theorem controlSpaceWrite (_off : Nat) (_size : Nat) (_val : BitVec 64) : Statement (.controlSpaceWrite _off _size _val) := fun h => nomatch h
theorem fretiaCsrRead (_off : Nat) : Statement (.fretiaCsrRead _off) := fun h => nomatch h
theorem fretiaCsrWrite (_off : Nat) (_val : BitVec 64) : Statement (.fretiaCsrWrite _off _val) := fun h => nomatch h
theorem fretiaBlackboxRead (_die : Nat) : Statement (.fretiaBlackboxRead _die) := fun h => nomatch h
theorem fretiaGroupWrite (_entry : Nat) (_members : BitVec 512) : Statement (.fretiaGroupWrite _entry _members) := fun h => nomatch h
theorem fretiaAttestation (_nonce : BitVec 256) : Statement (.fretiaAttestation _nonce) := fun h => nomatch h
theorem coldReset (_verified : Bool) : Statement (.coldReset _verified) := fun h => nomatch h
theorem warmReset : Statement (.warmReset) := fun h => nomatch h
theorem reservedEncoding (_word : BitVec 32) : Statement (.reservedEncoding _word) := fun h => nomatch h
theorem instructionFetchFault (_cause : Nat) (_sub : Nat) (_addr : BitVec 64) : Statement (.instructionFetchFault _cause _sub _addr) := fun h => nomatch h
theorem agentReadmit (_agent : Nat) : Statement (.agentReadmit _agent) := fun h => nomatch h
theorem managementSwap (_region : Nat) : Statement (.managementSwap _region) := fun h => nomatch h
theorem scaleUpLinkFailure (_dest : Nat) : Statement (.scaleUpLinkFailure _dest) := fun h => nomatch h

end Sys2Proof.Laws.RoundTrip
end

