-- ==== Sys2Proof/Tests/Slice0.lean ====
section
/-! SUPPORT. Our own tests: words written out from the encoding tables decode to their instructions; WellFormed refuses what is ill-formed; the spec's
worked cases; and for every statement states and operands that meet its hypotheses. -/

namespace Sys2Proof.Tests
open Sys2Proof Sys2Proof.Machine Sys2Proof.Claims

set_option Elab.async false

/-! ## Decoding -/

theorem test_decode_int_r_1 :
    decode [0x04611200] = .ok (.add 3 1 2 false true false) ∧
    decode [0x04611201] = .ok (.sub 3 1 2 false true false) ∧
    decode [0x04611202] = .ok (.mul 3 1 2 false true false) ∧
    decode [0x04611403] = .ok (.mulh 3 1 2 true false) ∧
    decode [0x04611204] = .ok (.mulhu 3 1 2 false true) ∧
    decode [0x04611205] = .ok (.div 3 1 2 false true) ∧
    decode [0x04611406] = .ok (.divu 3 1 2 true false) ∧
    decode [0x04611207] = .ok (.rem 3 1 2 false true) ∧
    decode [0x04611408] = .ok (.remu 3 1 2 true false) ∧
    decode [0x04611209] = .ok (.and 3 1 2 false true) ∧
    decode [0x0461140A] = .ok (.or 3 1 2 true false) ∧
    decode [0x0461120B] = .ok (.xor 3 1 2 false true) :=
  ⟨rfl, rfl, rfl, rfl, rfl, rfl, rfl, rfl, rfl, rfl, rfl, rfl⟩

theorem test_decode_int_r_2 :
    decode [0x0461140C] = .ok (.andn 3 1 2 true false) ∧
    decode [0x0461120D] = .ok (.orn 3 1 2 false true) ∧
    decode [0x0461120E] = .ok (.sll 3 1 2 false true false) ∧
    decode [0x0461120F] = .ok (.srl 3 1 2 false true false) ∧
    decode [0x04611210] = .ok (.sra 3 1 2 false true false) ∧
    decode [0x04611211] = .ok (.rol 3 1 2 false true false) ∧
    decode [0x04611212] = .ok (.ror 3 1 2 false true false) ∧
    decode [0x04611213] = .ok (.slt 3 1 2 false true) ∧
    decode [0x04611414] = .ok (.sltu 3 1 2 true false) ∧
    decode [0x04611215] = .ok (.min 3 1 2 false true) ∧
    decode [0x04611216] = .ok (.max 3 1 2 false true) ∧
    decode [0x04611417] = .ok (.minu 3 1 2 true false) :=
  ⟨rfl, rfl, rfl, rfl, rfl, rfl, rfl, rfl, rfl, rfl, rfl, rfl⟩

theorem test_decode_int_r_3 :
    decode [0x04611418] = .ok (.maxu 3 1 2 true false) ∧
    decode [0x04610419] = .ok (.clz 3 1 true false) ∧
    decode [0x0461041A] = .ok (.ctz 3 1 true false) ∧
    decode [0x0461011B] = .ok (.popc 3 1 false true) ∧
    decode [0x0461041C] = .ok (.bswap 3 1 true) ∧
    decode [0x0461141D] = .ok (.sext 3 1 2 true) ∧
    decode [0x0461141E] = .ok (.zext 3 1 2 true) ∧
    decode [0x0461141F] = .ok (.cmov 3 1 2 true false) ∧
    decode [0x04611420] = .ok (.hmix 3 1 2 true false) ∧
    decode [0x04611421] = .ok (.crc32c 3 1 2 true false) :=
  ⟨rfl, rfl, rfl, rfl, rfl, rfl, rfl, rfl, rfl, rfl⟩

theorem test_decode_immediate :
    decode [0x08614B4B] = .ok (.addi 3 1 false 19275) ∧
    decode [0x0C614B4B] = .ok (.andi 3 1 false 19275) ∧
    decode [0x1061CB4B] = .ok (.ori 3 1 true 19275) ∧
    decode [0x14614B4B] = .ok (.xori 3 1 false 19275) ∧
    decode [0x18614B4B] = .ok (.slti 3 1 false 19275) ∧
    decode [0x1C61CB4B] = .ok (.sltiu 3 1 true 19275) ∧
    decode [0x20610540] = .ok (.slli 3 1 false 21 false) ∧
    decode [0x20611540] = .ok (.srli 3 1 false 21 false) ∧
    decode [0x20612540] = .ok (.srai 3 1 false 21 false) ∧
    decode [0x20613540] = .ok (.rori 3 1 false 21 false) ∧
    decode [0x246B4B4B] = .ok (.movhi 3 740171) ∧
    decode [0x286B4B4B] = .ok (.addpc 3 740171) :=
  ⟨rfl, rfl, rfl, rfl, rfl, rfl, rfl, rfl, rfl, rfl, rfl, rfl⟩

theorem test_decode_fp_r_1 :
    decode [0x2C611560] = .ok (.fadd 3 1 2 true false true 3) ∧
    decode [0x2C611561] = .ok (.fsub 3 1 2 true false true 3) ∧
    decode [0x2C611562] = .ok (.fmul 3 1 2 true false true 3) ∧
    decode [0x2C611563] = .ok (.fdiv 3 1 2 true false true 3) ∧
    decode [0x2C610464] = .ok (.fsqrt 3 1 true false 3) ∧
    decode [0x2C611265] = .ok (.fma 3 1 2 false true false 3) ∧
    decode [0x2C611566] = .ok (.fnma 3 1 2 true false true 3) ∧
    decode [0x2C611507] = .ok (.fmin 3 1 2 true false true) ∧
    decode [0x2C611508] = .ok (.fmax 3 1 2 true false true) ∧
    decode [0x2C611209] = .ok (.feq 3 1 2 false true false) ∧
    decode [0x2C61120A] = .ok (.flt 3 1 2 false true false) ∧
    decode [0x2C61120B] = .ok (.fle 3 1 2 false true false) :=
  ⟨rfl, rfl, rfl, rfl, rfl, rfl, rfl, rfl, rfl, rfl, rfl, rfl⟩

theorem test_decode_fp_r_2 :
    decode [0x2C61246C] = .ok (.fcvt 3 1 4 true false 3) ∧
    decode [0x2C61010D] = .ok (.fclass 3 1 false true) :=
  ⟨rfl, rfl⟩

theorem test_decode_branch :
    decode [0x30220B4B] = .ok (.beq 1 2 2891) ∧
    decode [0x30222B4B] = .ok (.bne 1 2 2891) ∧
    decode [0x30224B4B] = .ok (.blt 1 2 2891) ∧
    decode [0x30226B4B] = .ok (.bge 1 2 2891) ∧
    decode [0x30228B4B] = .ok (.bltu 1 2 2891) ∧
    decode [0x3022AB4B] = .ok (.bgeu 1 2 2891) :=
  ⟨rfl, rfl, rfl, rfl, rfl, rfl⟩

theorem test_decode_jump :
    decode [0x346B4B4B] = .ok (.jal 3 740171) ∧
    decode [0x38614B4B] = .ok (.jalr 3 1 false 19275) :=
  ⟨rfl, rfl⟩

theorem test_decode_load_store :
    decode [0x3C61CB4B] = .ok (.ld 3 1 3 false false 2891) ∧
    decode [0x40C1DB4B] = .ok (.st 6 1 3 true 2891) ∧
    decode [0x5C61C640] = .ok (.ldo 3 1 3 false 1 4 true) ∧
    decode [0x5CC1DA00] = .ok (.sto 6 1 3 2 4 false) :=
  ⟨rfl, rfl, rfl, rfl⟩

theorem test_decode_amo :
    decode [0x44611058] = .ok (.amoSwap 3 1 2 true 1 4 false) ∧
    decode [0x44611099] = .ok (.amoCas 3 1 2 false 1 4 true) ∧
    decode [0x44611119] = .ok (.amoAdd 3 1 2 false 1 4 true) ∧
    decode [0x44611199] = .ok (.amoAnd 3 1 2 false 1 4 true) ∧
    decode [0x44611258] = .ok (.amoOr 3 1 2 true 1 4 false) ∧
    decode [0x44611299] = .ok (.amoXor 3 1 2 false 1 4 true) ∧
    decode [0x44611319] = .ok (.amoMin 3 1 2 false 1 4 true) ∧
    decode [0x44611399] = .ok (.amoMax 3 1 2 false 1 4 true) ∧
    decode [0x44611458] = .ok (.amoMinu 3 1 2 true 1 4 false) ∧
    decode [0x446114D8] = .ok (.amoMaxu 3 1 2 true 1 4 false) ∧
    decode [0x44611558] = .ok (.amoFadd 3 1 2 true 1 4 false) :=
  ⟨rfl, rfl, rfl, rfl, rfl, rfl, rfl, rfl, rfl, rfl, rfl⟩

theorem test_decode_red :
    decode [0x48410D00] = .ok (.redAdd 2 1 true 2 4 false) ∧
    decode [0x48411D00] = .ok (.redAnd 2 1 true 2 4 false) ∧
    decode [0x48412520] = .ok (.redOr 2 1 false 2 4 true) ∧
    decode [0x48413D00] = .ok (.redXor 2 1 true 2 4 false) ∧
    decode [0x48414D00] = .ok (.redMin 2 1 true 2 4 false) ∧
    decode [0x48415D00] = .ok (.redMax 2 1 true 2 4 false) ∧
    decode [0x48416520] = .ok (.redMinu 2 1 false 2 4 true) ∧
    decode [0x48417520] = .ok (.redMaxu 2 1 false 2 4 true) ∧
    decode [0x48418520] = .ok (.redFadd 2 1 false 2 4 true) :=
  ⟨rfl, rfl, rfl, rfl, rfl, rfl, rfl, rfl, rfl⟩

theorem test_decode_sync :
    decode [0x4C0008B0] = .ok (.fence 4 5 true) ∧
    decode [0x4C201000] = .ok (.watch 1) ∧
    decode [0x4C612820] = .ok (.waitw 3 1 4 2) ∧
    decode [0x4C223800] = .ok (.bar 1 2 4) ∧
    decode [0x4C224800] = .ok (.arrive 1 2 4) ∧
    decode [0x4C225800] = .ok (.waitb 1 2 4) :=
  ⟨rfl, rfl, rfl, rfl, rfl, rfl⟩

theorem test_decode_control :
    decode [0x50800B4B] = .ok (.mfc 4 2891) ∧
    decode [0x50840B4B] = .ok (.mtc 4 false 2891) ∧
    decode [0x52680B4B] = .ok (.mtci 19 2891) ∧
    decode [0x508E0B4B] = .ok (.crsb 4 true 2891) ∧
    decode [0x50920B4B] = .ok (.crcb 4 true 2891) :=
  ⟨rfl, rfl, rfl, rfl, rfl⟩

theorem test_decode_system :
    decode [0x5400034B] = .ok (.trap 843) ∧
    decode [0x54000800] = .ok .rfe ∧
    decode [0x54801000] = .ok (.halt 4) ∧
    decode [0x54801800] = .ok (.yield 4) ∧
    decode [0x54002000] = .ok .brk ∧
    decode [0x54852800] = .ok (.shoot 4 5) ∧
    decode [0x54853000] = .ok (.cwb 4 5) ∧
    decode [0x54803800] = .ok (.cinv 4) ∧
    decode [0x54853800] = .ok (.cinvRange 4 5) ∧
    decode [0x54854000] = .ok (.cflush 4 5) ∧
    decode [0x54854800] = .ok (.vcdef 4 5) ∧
    decode [0x54855000] = .ok (.vcqry 4 5) :=
  ⟨rfl, rfl, rfl, rfl, rfl, rfl, rfl, rfl, rfl, rfl, rfl, rfl⟩

theorem test_decode_nest :
    decode [0x58850000] = .ok (.launch 4 5 false) ∧
    decode [0x58001000] = .ok .retire ∧
    decode [0x58852000] = .ok (.ctradd 4 5) ∧
    decode [0x58853000] = .ok (.ctrrd 4 5) ∧
    decode [0x58854000] = .ok (.ctrset 4 5) :=
  ⟨rfl, rfl, rfl, rfl, rfl⟩

theorem test_decode_setvl :
    decode [0x8061162C] = .ok (.setvl 3 1 0 5 4 2 6) :=
  rfl

theorem test_decode_vint_1 :
    decode [0x84611440] = .ok (.vadd 3 1 2 4 false true false) ∧
    decode [0x84611441] = .ok (.vsub 3 1 2 4 false true false) ∧
    decode [0x84611442] = .ok (.vmul 3 1 2 4 false true false) ∧
    decode [0x846114A3] = .ok (.vmulh 3 1 2 4 true false true) ∧
    decode [0x84611444] = .ok (.vmulhu 3 1 2 4 false true false) ∧
    decode [0x84611445] = .ok (.vand 3 1 2 4 false true false) ∧
    decode [0x846114A6] = .ok (.vor 3 1 2 4 true false true) ∧
    decode [0x84611447] = .ok (.vxor 3 1 2 4 false true false) ∧
    decode [0x84611448] = .ok (.vsll 3 1 2 4 false true false) ∧
    decode [0x84611449] = .ok (.vsrl 3 1 2 4 false true false) ∧
    decode [0x8461144A] = .ok (.vsra 3 1 2 4 false true false) ∧
    decode [0x8461144B] = .ok (.vmin 3 1 2 4 false true false) :=
  ⟨rfl, rfl, rfl, rfl, rfl, rfl, rfl, rfl, rfl, rfl, rfl, rfl⟩

theorem test_decode_vint_2 :
    decode [0x8461144C] = .ok (.vmax 3 1 2 4 false true false) ∧
    decode [0x846114AD] = .ok (.vminu 3 1 2 4 true false true) ∧
    decode [0x846114AE] = .ok (.vmaxu 3 1 2 4 true false true) ∧
    decode [0x846114AF] = .ok (.vabsd 3 1 2 4 true false true) ∧
    decode [0x846114B0] = .ok (.vadds 3 1 2 4 true false true) ∧
    decode [0x846114B1] = .ok (.vsubs 3 1 2 4 true false true) ∧
    decode [0x84611452] = .ok (.vaddus 3 1 2 4 false true false) ∧
    decode [0x84611453] = .ok (.vsubus 3 1 2 4 false true false) ∧
    decode [0x846114B4] = .ok (.vdot4 3 1 2 4 true false true) ∧
    decode [0x84611455] = .ok (.vmac 3 1 2 4 false true false) :=
  ⟨rfl, rfl, rfl, rfl, rfl, rfl, rfl, rfl, rfl, rfl⟩

theorem test_decode_vfp :
    decode [0x886114A0] = .ok (.vfadd 3 1 2 4 true false true) ∧
    decode [0x886114A1] = .ok (.vfsub 3 1 2 4 true false true) ∧
    decode [0x886114A2] = .ok (.vfmul 3 1 2 4 true false true) ∧
    decode [0x88611443] = .ok (.vfma 3 1 2 4 false true false) ∧
    decode [0x886114A4] = .ok (.vfnma 3 1 2 4 true false true) ∧
    decode [0x886114A5] = .ok (.vfdiv 3 1 2 4 true false true) ∧
    decode [0x88610486] = .ok (.vfsqrt 3 1 4 true false) ∧
    decode [0x886114A7] = .ok (.vfmin 3 1 2 4 true false true) ∧
    decode [0x886114A8] = .ok (.vfmax 3 1 2 4 true false true) ∧
    decode [0x88610449] = .ok (.vfabs 3 1 4 false true) ∧
    decode [0x8861044A] = .ok (.vfneg 3 1 4 false true) ∧
    decode [0x886114AB] = .ok (.vfscl 3 1 2 4 true false true) :=
  ⟨rfl, rfl, rfl, rfl, rfl, rfl, rfl, rfl, rfl, rfl, rfl, rfl⟩

theorem test_decode_vsfu :
    decode [0x8C610440] = .ok (.vsfuExp2 3 1 4 false true) ∧
    decode [0x8C610441] = .ok (.vsfuLog2 3 1 4 false true) ∧
    decode [0x8C610482] = .ok (.vsfuRcp 3 1 4 true false) ∧
    decode [0x8C610483] = .ok (.vsfuRsqrt 3 1 4 true false) ∧
    decode [0x8C610484] = .ok (.vsfuSin 3 1 4 true false) ∧
    decode [0x8C610485] = .ok (.vsfuCos 3 1 4 true false) ∧
    decode [0x8C610446] = .ok (.vsfuTanh 3 1 4 false true) ∧
    decode [0x8C610447] = .ok (.vsfuSigm 3 1 4 false true) :=
  ⟨rfl, rfl, rfl, rfl, rfl, rfl, rfl, rfl⟩

theorem test_decode_vcmp :
    decode [0x90611445] = .ok (.vcmp 3 1 2 4 false true false 5) ∧
    decode [0x906114B5] = .ok (.vfcmp 3 1 2 4 true false true 5) :=
  ⟨rfl, rfl⟩

theorem test_decode_vmask :
    decode [0x94611440] = .ok (.mand 3 1 2 4 false true) ∧
    decode [0x94611481] = .ok (.mor 3 1 2 4 true false) ∧
    decode [0x94611442] = .ok (.mxor 3 1 2 4 false true) ∧
    decode [0x94611483] = .ok (.mandn 3 1 2 4 true false) ∧
    decode [0x94610484] = .ok (.mnot 3 1 4 true false) ∧
    decode [0x94610445] = .ok (.mpopc 3 1 4 false true) ∧
    decode [0x94610486] = .ok (.mfirst 3 1 4 true false) ∧
    decode [0x94600447] = .ok (.mset 3 4 false true) ∧
    decode [0x94600448] = .ok (.mclr 3 4 false true) :=
  ⟨rfl, rfl, rfl, rfl, rfl, rfl, rfl, rfl, rfl⟩

theorem test_decode_vperm :
    decode [0x98611480] = .ok (.vperm 3 1 2 4 true false) ∧
    decode [0x98611441] = .ok (.vslideup 3 1 2 4 false true) ∧
    decode [0x98611442] = .ok (.vslidedn 3 1 2 4 false true) ∧
    decode [0x98610443] = .ok (.vcompress 3 1 4 false true) ∧
    decode [0x98610444] = .ok (.vexpand 3 1 4 false true) ∧
    decode [0x98612C85] = .ok (.vscan 3 1 5 4 true false) ∧
    decode [0x98619445] = .ok (.vfscan 3 1 2 4 false true) ∧
    decode [0x98611446] = .ok (.vrowbc 3 1 2 4 false true) :=
  ⟨rfl, rfl, rfl, rfl, rfl, rfl, rfl, rfl⟩

theorem test_decode_vred :
    decode [0x9C610480] = .ok (.vredSum 3 1 4 true false) ∧
    decode [0x9C610481] = .ok (.vredMax 3 1 4 true false) ∧
    decode [0x9C610482] = .ok (.vredMin 3 1 4 true false) ∧
    decode [0x9C610483] = .ok (.vredAnd 3 1 4 true false) ∧
    decode [0x9C610444] = .ok (.vredOr 3 1 4 false true) ∧
    decode [0x9C610485] = .ok (.vredXor 3 1 4 true false) ∧
    decode [0x9C610446] = .ok (.vredMaxu 3 1 4 false true) ∧
    decode [0x9C610447] = .ok (.vredMinu 3 1 4 false true) ∧
    decode [0x9C610450] = .ok (.vfredSum 3 1 4 false true) ∧
    decode [0x9C610451] = .ok (.vfredMax 3 1 4 false true) ∧
    decode [0x9C610452] = .ok (.vfredMin 3 1 4 false true) :=
  ⟨rfl, rfl, rfl, rfl, rfl, rfl, rfl, rfl, rfl, rfl, rfl⟩

theorem test_decode_vcvt :
    decode [0xA0612C40] = .ok (.vcvth 3 1 false 5 4 false true) ∧
    decode [0xA0614481] = .ok (.vcvtd 3 1 false true 0 4 true false) ∧
    decode [0xA0618482] = .ok (.vcvti2f 3 1 true 4 true false) ∧
    decode [0xA0618483] = .ok (.vcvtf2i 3 1 true 4 true false) ∧
    decode [0xA0610444] = .ok (.vcvt8 3 1 4 false true) ∧
    decode [0xA0610445] = .ok (.vcvts 3 1 4 false true) :=
  ⟨rfl, rfl, rfl, rfl, rfl, rfl⟩

theorem test_decode_vmov :
    decode [0xA4610440] = .ok (.vmv 3 1 4 false true) ∧
    decode [0xA4610481] = .ok (.vbcast 3 1 4 true false) ∧
    decode [0xA4611042] = .ok (.vextr 3 1 2 false true) ∧
    decode [0xA4611443] = .ok (.vins 3 1 2 4 false true) ∧
    decode [0xA4611444] = .ok (.vsel 3 1 2 4 false true) ∧
    decode [0xA4600445] = .ok (.vmrank 3 4 false true) ∧
    decode [0xA4610446] = .ok (.vscld 3 1 4 false true) ∧
    decode [0xA4610447] = .ok (.vscst 3 1 4 false true) :=
  ⟨rfl, rfl, rfl, rfl, rfl, rfl, rfl, rfl⟩

theorem test_decode_vld :
    decode [0xA8610445] = .ok (.vld 3 1 4 false true false true 1) ∧
    decode [0xA8611499] = .ok (.vldStr 3 1 2 4 true false true false 1) ∧
    decode [0xA86114A9] = .ok (.vldX 3 1 2 4 true false true false 1) ∧
    decode [0xA86114B9] = .ok (.vldChk 3 1 2 4 true false true false 1) :=
  ⟨rfl, rfl, rfl, rfl⟩

theorem test_decode_vst :
    decode [0xAC610445] = .ok (.vst 3 1 4 false true false true 1) ∧
    decode [0xAC611499] = .ok (.vstStr 3 1 2 4 true false true false 1) ∧
    decode [0xAC6114A9] = .ok (.vstX 3 1 2 4 true false true false 1) :=
  ⟨rfl, rfl, rfl⟩

theorem test_decode_vamo :
    decode [0xB0611442] = .ok (.vamoAdd 3 1 2 4 false true false true) ∧
    decode [0xB061144A] = .ok (.vamoMin 3 1 2 4 false true false true) ∧
    decode [0xB0611452] = .ok (.vamoMax 3 1 2 4 false true false true) ∧
    decode [0xB061149C] = .ok (.vamoOr 3 1 2 4 true false true false) ∧
    decode [0xB06114A4] = .ok (.vamoFadd 3 1 2 4 true false true false) :=
  ⟨rfl, rfl, rfl, rfl, rfl⟩

theorem test_decode_vdb :
    decode [0xB4611480] = .ok (.vhash 3 1 2 4 true false) ∧
    decode [0xB4611481] = .ok (.vbucket 3 1 2 4 true false) ∧
    decode [0xB4610442] = .ok (.vconf 3 1 4 false true) ∧
    decode [0xB4611483] = .ok (.vstrcmp 3 1 2 4 true false) ∧
    decode [0xB4611444] = .ok (.vstrhash 3 1 2 4 false true) :=
  ⟨rfl, rfl, rfl, rfl, rfl⟩

theorem test_decode_vctl :
    decode [0xB8010000] = .ok (.setrc 1 false) ∧
    decode [0xB8011001] = .ok (.vsplit 1 2 false) ∧
    decode [0xB8000002] = .ok .vmerge ∧
    decode [0xB80000C3] = .ok .vpark :=
  ⟨rfl, rfl, rfl, rfl⟩

theorem test_decode_matrix :
    decode [0xC2C11400] = .ok (.mld 5 2 1 2 true) ∧
    decode [0xC6C11400] = .ok (.mst 5 2 1 2 true) ∧
    decode [0xCAB61500] = .ok (.mma 2 5 5 2 true false true 1) ∧
    decode [0xD2400000] = .ok (.msync 9) :=
  ⟨rfl, rfl, rfl, rfl⟩

theorem test_decode_macc :
    decode [0xCC108000] = .ok (.mzero 2 2) ∧
    decode [0xCC708800] = .ok (.macc2v 3 2 2) ∧
    decode [0xCC159000] = .ok (.macc2t 2 5 2) :=
  ⟨rfl, rfl, rfl⟩

theorem test_decode_commands_1 :
    decode [0xFC0214C7, 0, 0x101005, 0x7] = .ok (.copyLin ⟨4, 5, 6, 7⟩ ⟨5, 8, false, false, 1, 7⟩ none) ∧
    decode [0xFC0214C7, 0xD1, 0x101005, 0x7] = .ok (.copyDeint ⟨4, 5, 6, 7⟩ ⟨5, 8, false, false, 1, 7⟩ none 2 3) ∧
    decode [0xFC0214C7, 0x6DA, 0x101005, 0x7] = .ok (.copyPerm ⟨4, 5, 6, 7⟩ ⟨5, 8, false, false, 1, 7⟩ none 3 0x1B) ∧
    decode [0xFC0214C7, 0x3, 0x101005, 0x7] = .ok (.copyVreg ⟨4, 5, 6, 7⟩ ⟨5, 8, false, false, 1, 7⟩ none) ∧
    decode [0xFC0214C7, 0x735D0004, 0x101005, 0x7] = .ok (.copyTile ⟨4, 5, 6, 7⟩ ⟨5, 8, false, false, 1, 7⟩ (some ⟨2, 3, 5, 1, false, true, true, 1⟩)) ∧
    decode [0xFC120007, 0x6D, 0x101005, 0x7] = .ok (.strm 4 7 ⟨5, 8, false, false, 1, 7⟩ 5 true 2 true) ∧
    decode [0xFC200000, 0x6, 0, 0] = .ok (.unstrm 6) ∧
    decode [0xFC3214C7, 0x46B, 0x101005, 0x7] = .ok (.rsv ⟨4, 5, 6, 7⟩ ⟨5, 8, false, false, 1, 7⟩ 3 true 2 17) ∧
    decode [0xFC400007, 0x200, 0x101005, 0x7] = .ok (.ursv 7 ⟨5, 8, false, false, 1, 7⟩ 8) ∧
    decode [0xFC520000, 0, 0, 0] = .ok (.nodeNest 4) ∧
    decode [0xFC520000, 0x1, 0, 0] = .ok (.nodeCmd 4) :=
  ⟨rfl, rfl, rfl, rfl, rfl, rfl, rfl, rfl, rfl, rfl, rfl⟩

theorem test_decode_commands_2 :
    decode [0xFC6214C7, 0x9602603, 0x101005, 0x7] = .ok (.put ⟨4, 5, 6, 7⟩ ⟨5, 8, false, false, 1, 7⟩ 3 (some ⟨9, 300⟩)) ∧
    decode [0xFC7214C7, 0x12C, 0x101005, 0x7] = .ok (.get ⟨4, 5, 6, 7⟩ ⟨5, 8, false, false, 1, 7⟩ 300) ∧
    decode [0xFC8214C7, 0x10000003, 0x3C1005, 0x7] = .ok (.ramo ⟨4, 5, 6, 7⟩ ⟨5, 8, true, true, 3, 7⟩ 3 1) ∧
    decode [0xFC9214C7, 0x90000003, 0x3C1005, 0x7] = .ok (.rred ⟨4, 5, 6, 7⟩ ⟨5, 8, true, true, 3, 7⟩ 3 none 9) ∧
    decode [0xFCA214C7, 0xA5, 0x101005, 0x7] = .ok (.mcast ⟨4, 5, 6, 7⟩ ⟨5, 8, false, false, 1, 7⟩ 0xA5 none) ∧
    decode [0xFCB214C0, 0xB2C, 0, 0] = .ok (.tpost 4 5 6 300 1 true) ∧
    decode [0xFCC20007, 0x12C, 0, 0] = .ok (.tcancel 4 7 300) ∧
    decode [0xFCD20007, 0, 0x101005, 0x7] = .ok (.fcfg 4 7 ⟨5, 8, false, false, 1, 7⟩) ∧
    decode [0xFCE20007, 0, 0x101005, 0x7] = .ok (.frun 4 7 ⟨5, 8, false, false, 1, 7⟩) ∧
    decode [0xFCE20007, 0x1, 0x101005, 0x7] = .ok (.frunResume 4 7 ⟨5, 8, false, false, 1, 7⟩) ∧
    decode [0xFCF20007, 0, 0x101005, 0x7] = .ok (.fhalt 4 7 ⟨5, 8, false, false, 1, 7⟩) :=
  ⟨rfl, rfl, rfl, rfl, rfl, rfl, rfl, rfl, rfl, rfl, rfl⟩

theorem test_decode_spec_command_words :
    decode [0xFCB42400, 0x5, 0, 0] = .ok (.tpost 8 9 0 5 0 false) ∧
    decode [0xFC0214C7, 0x51, 0x105005, 0x1] = .ok (.copyDeint ⟨4, 5, 6, 7⟩ ⟨5, 40, false, false, 1, 1⟩ none 2 1) ∧
    decode [0xFCD20007, 0, 0, 0] = .ok (.fcfg 4 7 ⟨0, 0, false, false, 0, 0⟩) ∧
    decode [0xFCE28008, 0, 0, 0] = .ok (.frun 5 8 ⟨0, 0, false, false, 0, 0⟩) ∧
    decode [0xFCF30007, 0, 0, 0] = .ok (.fhalt 6 7 ⟨0, 0, false, false, 0, 0⟩) :=
  ⟨rfl, rfl, rfl, rfl, rfl⟩

/-! ## Small states that meet the hypotheses of the statements -/

/-- Partition 0 runs on tile 0, one page at 0x40000; hart 0 stands at its start in supervisor mode, with lanes and grants; g1 names a double word of the page. -/
def placed : State := setG (State.reset.withFetchWord 32 0x04611000) 1 0x40108
def withHart (s : State) (f : Hart → Hart) : State := setCur s (f (curH s))
def withTile0 (s : State) (f : Tile → Tile) : State := setTile s 0 (f (tileOf s 0))
def withPart0 (s : State) (f : Part → Part) : State := setPart s 0 (f (partOf s 0))
def user : State := withHart placed fun h => { h with sup := false }
def nextOf (o : Answer) : State := match o with | .next t => t | _ => State.reset
def okRange (r : RangeRes) : Bool := match r with | .ok _ (_ :: _) => true | _ => false
def badRange (r : RangeRes) : Bool := match r with | .fault .. => true | _ => false
def okX (r : TrRes) : Bool := match r with | .ok .. => true | _ => false
def okAcc (r : Acc) : Bool := match r with | .ok .. => true | _ => false
def errAcc (r : Acc) : Bool := match r with | .err .. => true | _ => false
def waitAcc (r : Acc) : Bool := match r with | .wait .. => true | _ => false
def okRd (r : Rd) : Bool := match r with | .ok .. => true | _ => false
/-- The piece of the double word, and its granule. -/
def word8 : Piece := ⟨0x130108, 8, 0, 0x40108, false⟩
def mark : Mark := ⟨10, 0, 8, 0⟩
def comp0 : Comp := ⟨0, 0, false, false, 0, 0⟩
/-- A store has entered the store buffer; a load is in flight; the granule stands in the L1. -/
noncomputable def storing : State := nextOf (exec (.st 3 1 3 false 0) placed)
noncomputable def loading : State := nextOf (exec (.ld 4 1 3 false false 0) placed)
def cached (psn : Bool) : State := setCopy (withTile0 placed fun t => { t with l1 := [⟨0x2602, 0, true⟩] }) 0 0x2602 ⟨.s, 5, 0, psn, none, 0, 0, none⟩

/-- Operands for the register forms of IntegerOperations, IntegerImmediates, FloatResults, BranchesAndJumps. -/
theorem witness_operands : Ready placed [(1, true), (3, false)] (some 2) ∧ Ready placed [(1, true), (3, false), (2, false)] (some 2) ∧
    Ready placed [] (some 2) ∧ Ready placed [(1, true)] none ∧ (2 : BitVec 5).toNat ≤ 2 := by decide +kernel

/-- Numbers for FloatExactness, Rounding, FloatComparisons and FloatConversions. -/
theorem witness_numbers : (3 : Nat) ≠ 0 ∧ zeroTimesInf (.fin true 0 0) (.inf false) ∧ ¬zeroTimesInf (.inf true) (.fin false 3 0) ∧ (Fp.inf true).isInf ∧ (Fp.nan true).isNan ∧ (Fp.fin false 0 0).isZero ∧ (0 : Int) < 2 ∧ 2 * (5 % 4) < 4 ∧ 4 < 2 * (7 % 4) ∧ 2 * (6 % 4) = 4 ∧
    0x3F80 < 2 ^ bf16.width ∧ (bf16.read 0x3F80).isNan = false ∧ 2 ^ fp32.fb ≤ 2 ^ 24 ∧ (fp32.bias : Int) + 1 - fp32.fb ≤ 200 ∧ (3 : Nat) < 5 ∧ (-128 : Int) ≤ 0 := by
  decide +kernel

theorem witness_ScalarFrame : (scalar (.add 2 1 3 false false false)).isSome = true ∧ (curH (nextOf (exec (.add 2 1 3 false false false) placed))).pc = 0x40004 ∧
    (scalar (.beq 1 3 5)).isSome = true ∧ (curH (nextOf (exec (.beq 3 3 5) placed))).pc = 0x40014 := by decide +kernel

theorem witness_EmptyOperands :
    gSrcSt (withHart placed fun h => { h with gEmpty := [1] }) 1 = .empty ∧ gSrcSt (withHart placed fun h => { h with gFault := [(1, mark)] }) 1 = .marked mark ∧
    gSrcSt placed 3 = .ready ∧ rowStop placed [(3, false)] (some 2) = none ∧ gDstSt (withHart placed fun h => { h with gEmpty := [2] }) 2 = .empty := by decide +kernel

theorem witness_RegisterFile : (29 : BitVec 5) ≠ 0 ∧ boundTo placed false 29 = none ∧ boundTo placed false 3 = none ∧ 28 ≤ (29 : BitVec 5).toNat ∧ (curH placed).sup = true := by
  decide +kernel

/-- TVEC is valid. -/
def handled : State := withPart0 placed fun p => { p with tvec := 0x40003 }

theorem witness_TakeTrap : (tvec handled).getLsbD 0 = true ∧ (curH handled).tr.estat.getLsbD 1 = false := by decide +kernel

theorem witness_DoubleTrap : (tvec placed).getLsbD 0 = false ∧ (curH (nextOf (exec .brk handled))).tr.estat.getLsbD 1 = true := by decide +kernel

/-- A release store has entered the store buffer. -/
noncomputable def releasing : State := nextOf (exec (.sto 3 1 3 2 1 false) placed)

theorem witness_TrapAndReturn : (curH user).sup = false ∧ (curH placed).sup = true ∧ (curH placed).tr.epc.toNat % 4 = 0 ∧
    (curH (withHart placed fun h => { h with tr := { h.tr with epc := 2 } })).tr.epc.toNat % 4 ≠ 0 ∧
    releasePending placed 0 = false ∧ releasePending releasing 0 = true := by decide +kernel

theorem witness_ControlRegisters : crCheck placed 0xC00 true false = some 1 ∧ crCheck user 0x802 false true = some 2 ∧ crCheck user 0x802 true true = some 2 ∧
    crCheck placed 0x802 true false = none ∧ crCheck placed 0x802 false true = none ∧ crCheck placed 0x802 true true = none ∧ Ready placed [(1, false)] none := by
  decide +kernel

theorem witness_ControlWrites : plainRegister 0x812 = some 0xFFFFFFFF ∧ plainRegister 0x11 = some 0x7FFFF := by decide +kernel

theorem witness_Halt : (curH placed).sup = true ∧ Ready placed [(1, false)] none ∧ storesDone (flushHart placed 0) 0 = true ∧
    (curH storing).sup = true ∧ storesDone (flushHart storing 0) 0 = false := by decide +kernel

noncomputable def yielding : State := nextOf (exec (.yield 1) placed)

theorem witness_Yield : (curH placed).wait ≠ .yielding ∧ gVal placed 3 = 0 ∧ gVal placed 1 ≠ 0 ∧ (curH yielding).wait = .yielding ∧ yielding.clock < (hartOf yielding 0).prog ∧
    (hartOf { yielding with clock := 70000 } 0).prog ≤ 70000 := by decide +kernel

noncomputable def shooting : State := nextOf (exec (.shoot 1 3) placed)
/-- Sixteen shootdowns on their way. -/
noncomputable def shootMany : State := { shooting with shoots := (List.range 16).map fun id => ⟨id, 0, 0, 0, 0x40108, 0, true, [], []⟩ }

theorem witness_ShootInstruction : (curH placed).shoot = none ∧ shootBad (gVal placed 1) (gVal placed 3) = false ∧ shootBad (gVal placed 1) 3 = true ∧
    Ready placed [(1, false), (3, false)] none ∧ (curH storing).shoot = none ∧ storesDone (flushHart storing 0) 0 = false ∧ (curH shooting).shoot = some 0 ∧
    (shooting.shoots.any fun x => x.id == 0) = true ∧ (({ shooting with shoots := [] }).shoots.any fun x => x.id == 0) = false := by decide +kernel

theorem witness_ShootSteps : (shootOf shooting 0).isSome = true ∧ (shooting.shoots.filter (·.sent)).length < 16 ∧ shooting.pend = [] ∧ (∀ p ∈ shooting.harts, p.2.sb = []) ∧
    (∀ y ∈ shooting.tiles, y.2.merge = [] ∧ shootBursts (shootMany.shoots.headD ⟨0, 0, 0, 0, 0, 0, true, [], []⟩) y.2 = false) ∧ shooting.admitted = [] ∧
    16 ≤ (shootMany.shoots.filter (·.sent)).length := by decide +kernel

def req (src unit : Nat) : TsReq := ⟨7, 0x90000, src, unit, 0, 0, 0, 0, false, 0⟩
def requesting : State := withPart0 placed fun p => { p with tsReqs := [req 1 2], tsqb := 0x100004 }

theorem witness_ServiceAnswers : ((partOf placed 0).tsReqs.find? fun q => q.id == 7) = none ∧ ((partOf requesting 0).tsReqs.find? fun q => q.id == 7) = some (req 1 2) ∧
    (req 1 2).src ≠ 4 ∧ tilePart requesting 0 = some 0 ∧ curPart requesting = 0 ∧ (curH placed).pfault = false ∧
    (curH (withHart placed fun h => { h with pfault := true })).pfault = true := by decide +kernel

def engine (write : Bool) : SEng :=
  { bound := true, fabric := false, hart := 0, part := 0, sup := true, vfile := false, reg := 28, write, recd := [0x40100, 0, 3, 1, 8, 0, 0, 0], comp := comp0, gd := 0, pos := 0,
    used := 0, data := if write then [9] else [], mask := if write then [true] else [], stall := none, err := none, complete := false }

/-- Hart 0 in user mode, with the stream engine e bound to its g28. -/
def streamed (e : SEng) : State := withTile0 user fun t => { t with se := [(2, { e with sup := false })] }
def used : SEng := { engine false with used := 1000 }

theorem witness_EmptyOperandsStreams :
    gSrcSt (streamed (engine true)) 28 = .misuse ∧ gDstSt (streamed (engine false)) 28 = .misuse ∧ gSrcSt (streamed (engine false)) 28 = .empty ∧
    gSrcSt (streamed used) 28 = .ended ∧ rowStop (streamed used) [(28, false)] (some 2) = none ∧
    gDstSt (streamed { engine true with used := 1000 }) 28 = .ended ∧ rowStop (streamed { engine true with used := 1000 }) [(1, false)] (some 28) = none ∧
    srcLate (streamed { engine true with used := 1000 }) [(1, false)] = none := by decide +kernel

def asideMs (stall : Option Nat) : State := withTile0 placed fun t => { t with
  ms := [(1, ⟨none, [], stall, 0⟩)], aside := [(4, ⟨Hart.init, 3, 0, true, false, [], [], [], [], [], [], [], [], [(1, ⟨none, [], stall, 0⟩)], none, [], [], [], []⟩)] }

theorem witness_ServiceSources : mfind (tileOf (withTile0 placed fun t => { t with se := [(2, engine false)] }) (req 1 2).tile).se (req 1 2).unit = some (engine false) ∧
    (engine false).fabric = false ∧ (engine false).stall ≠ some (req 1 2).id ∧ ({ engine false with stall := some 7 } : SEng).stall = some (req 1 2).id ∧
    mfind (tileOf (asideMs (some 7)) (req 2 1).tile).ms (req 2 1).unit = some ⟨none, [], some 7, 0⟩ ∧
    ((mfind (tileOf (asideMs (some 7)) (req 2 1).tile).aside 4).bind fun a => mfind a.ms (req 2 1).unit) = some ⟨none, [], some 7, 0⟩ ∧
    mfind (tileOf (asideMs (some 8)) (req 2 1).tile).ms (req 2 1).unit = some ⟨none, [], some 8, 0⟩ ∧ (some 8 : Option Nat) ≠ some (req 2 1).id := by
  decide +kernel

/-- A node of partition 0 at 0x40100. -/
def node (isCmd : Bool) (st : NodeSt) (preds : Nat) : Node :=
  { id := 1, addr := 0x40100, part := 0, level := 1, isCmd, recd := [0x40000, 0, 0x40200, 0, 0, 0, 0, 0, 0, 4, 0, 0, 0, 0, 0, 0], succ := [], foot := [], derived := [], st, preds, taint := false,
    nextP := 0, live := 0, ended := false, prio := 0, pass := 0, readyAt := 0, lastTile := 512, tile := 0, hart := 0, sup := true }
def noded (n : Node) : State := setNode placed 128 n

theorem witness_NodeEndAndWatermark : findNode placed 0 0x40100 (fun _ => true) = none ∧ findNode (noded (node true .pending 2)) 0 0x40100 (fun _ => true) = some 128 ∧
    nodeAt (noded (node true .pending 2)) 128 = some (node true .pending 2) ∧ (node true .pending 2).ended = false ∧ (node true .pending 2).st ≠ .running := by decide +kernel

theorem witness_TranslationSteps : okX (xlate placed 0 0 0x40108 .read true) = true ∧ okX (xlate placed 0 0 0x90000 .read true) = false ∧ queueOf (partOf placed 0).tsqb = none ∧
    queueOf (partOf requesting 0).tsqb = some (0x100000, 16) ∧ regionOwner requesting 0x100000 = some 0 ∧
    regionOwner requesting 0x100080 = some 0 ∧ ((partOf requesting 0).tsReqs.find? fun r => !r.written) = some (req 1 2) ∧
    (partOf requesting 0).tsProduced - (partOf requesting 0).tscons.toNat % 2 ^ 63 < 16 ∧
    16 ≤ (partOf (withPart0 requesting fun p => { p with tsProduced := 16 }) 0).tsProduced - (partOf requesting 0).tscons.toNat % 2 ^ 63 := by decide +kernel

theorem witness_Loads : Ready placed [(1, false)] (some 4) ∧ (gVal placed 1).toNat % 8 = 0 ∧ (gVal (setG placed 1 3) 1).toNat % 8 ≠ 0 ∧
    badRange (Claims.span placed 0x90000 8 .read .scalar) = true ∧ okRange (Claims.span placed 0x40108 8 .read .scalar) = true ∧ l1Holds placed [word8] = false ∧
    l1Holds (cached false) [word8] = true ∧ (curH loading).gEmpty = [4] ∧ l1Bytes (cached true) [word8] = none ∧ (l1Bytes (cached false) [word8]).isSome = true ∧
    pendHeld (cached false) ⟨0, 0, none, [word8], 0x40108, .g 4 8 true, false, order placed false false false, none, none⟩ = false := by decide +kernel

theorem witness_Stores : Ready placed [(1, false), (3, false)] none ∧ badRange (Claims.span placed 0x90000 8 .write .scalar) = true ∧
    okRange (Claims.span placed 0x40108 8 .write .scalar) = true ∧ ((curH storing).sb.map (·.pieces)) = [[word8]] := by decide +kernel

theorem witness_Atomics : Ready placed [(1, false), (3, false), (4, false)] (some 4) ∧ okRange (Claims.span placed 0x40108 8 .amo .none) = true ∧
    badRange (Claims.span placed 0x90000 8 .amo .none) = true ∧ (gVal placed 1).toNat % wide true = 0 ∧ (gVal (setG placed 1 3) 1).toNat % wide false ≠ 0 := by decide +kernel

/-- A second page at 0x50000, whose frame another stack holds. -/
def far : State := setG (pokeHome placed 0x120028 (leBytes 8 (0x7F + 0x2000000000 * 4))) 1 0x50008
def farWord : Piece := ⟨0x2000000008, 8, 0, 0x50008, false⟩
noncomputable def merging : State := nextOf (exec (.redAdd 1 1 true 0 0 false) far)

theorem witness_Reductions : Ready far [(1, false), (1, false)] none ∧ Claims.span far 0x50008 8 .amo .none = .ok (nextOf (exec (.walkComplete 0 0 0x50008 .amo true) far)) [farWord] ∧
    (placeStack far 0 farWord != curTile far / 128) = true ∧ (placeStack placed 0 word8 != curTile placed / 128) = false ∧
    (far.pend.any fun p => p.hart == far.cur && !p.ord.apart) = false ∧ ((unsent (curH far)).any fun y => overlap y.pieces [farWord] || (y.isRmw && !y.ord.apart)) = false ∧
    mergeHit (tileOf far 0) 0 (0x2000000008 / 128) 2 true = none ∧ mergeFree (tileOf far 0) = some 0 ∧
    (mergeHit (tileOf merging 0) 0 (0x2000000008 / 128) 2 true).isSome = true := by decide +kernel

/-- Every entry of the merge buffer holds another granule. -/
def fullMerge : State := withTile0 far fun t =>
  { t with merge := (List.range 32).map fun k => (k, ⟨k, 0, [⟨3, k, k, false, k⟩], true, 0x80000100 + k, 0, 0x50080, 2, true, [(8, 1)], false, 0, 0⟩) }

theorem witness_ReductionsWait : mergeHit (tileOf fullMerge 0) 0 (0x2000000008 / 128) 2 true = none ∧ mergeFree (tileOf fullMerge 0) = none ∧
    (∃ n ∈ (tileOf fullMerge 0).merge, n.2.touched ≤ fullMerge.clock) := by decide +kernel

theorem witness_Delivery : (4 : Nat) ≠ 0 ∧ (loading.pend.map (·.dest)) = [.g 4 8 true] ∧
    ((tileOf (withTile0 loading fun t => { t with se := [(2, { engine true with reg := 4 })] }) 0).se.find? fun (_, e) =>
      e.bound && !e.fabric && e.hart == 0 && !e.vfile && e.reg == 4 && e.write).isSome = true := by decide +kernel

/-- A load in flight in state s. -/
def pnd (chk : Bool) : Pend := ⟨5, 0, none, [word8], 0x40108, .g 4 8 true, chk, ⟨5, true, false, false, false, false, false, false⟩, none, none⟩
def inFlight (s : State) (chk : Bool) : State := { s with pend := [pnd chk] }
/-- Watermark register 0 is valid, its word at 0x40100, its base 0x40108. -/
def waiting : State := withHart (inFlight placed true) fun h => { h with wm := [(0, 0x40101)], wmb := [(0, 0x40108)] }

theorem witness_AccessesInFlight : 5 < hartMark ∧ ((inFlight placed false).pend.find? fun q => q.id == 5) = some (pnd false) ∧ (hartOf placed 0).st ≠ .free ∧
    pendHeld { placed with pend := [{ pnd false with id := 4, ord := ⟨4, true, false, true, false, false, false, false⟩ }, pnd false] } (pnd false) = true ∧
    pendHeld (inFlight placed false) (pnd false) = false ∧ okAcc (perform (cached false) (pnd false)) = true ∧ errAcc (perform (cached true) (pnd false)) = true ∧
    waitAcc (perform placed (pnd false)) = true ∧ pendHeld waiting (pnd true) = false ∧ (watermarkOk waiting 0 0 0 0x40108 8 true (some (pendEvent waiting (pnd true), 6))).2 = false ∧
    (watermarkOk (inFlight (cached false) true) 0 0 0 0x40108 8 true (some (pendEvent (inFlight (cached false) true) (pnd true), 6))).2 = true := by decide +kernel

/-- Slot 1 is a cache of one segment of bank 0, with the granule in place and, in agent 0's copy, M; pol is its write policy. -/
def recOf (pol : Word) : List Word := [2052 + pol * 256, 0, 0, 0, 0, 0, 0, 0]
def slotted (pol : Word) : State :=
  setCopy (setSlot placed 0 1 { Slot.init with st := .active, recd := recOf pol, lines := [(256, ⟨0x2602, false, none, none, 0, 0, []⟩)] }) 0 0x2602 ⟨.m, 5, 0, false, none, 0, 0, none⟩
def word1 : Piece := { word8 with vcid := 1 }
def isHome (r : Reach) : Bool := match r with | .home _ => true | _ => false
def isCopy (r : Reach) : Bool := match r with | .copy _ 0 => true | _ => false

theorem witness_WrittenBytes : word8.pk % 128 + 8 ≤ 128 ∧ (copyOf (cached false) 0 (word8.pk / 128)).isSome = true ∧ writesThrough (cached false) (whoHart placed 0 true) word8 = false ∧
    (copyOf (slotted 1) 0 (word8.pk / 128)).isSome = true ∧ writesThrough (slotted 1) (whoHart placed 0 true) word1 = true := by decide +kernel

theorem witness_AccessesAtTheirPlace : isHome (reach placed (whoHart placed 0 false) word8 .read) = true ∧ isHome (reach placed (whoHart placed 0 false) word8 .write) = true ∧
    isHome (reach placed (whoHart placed 0 false) word8 .amo) = true ∧ placed.psn.contains 0x2602 = false ∧
    isCopy (reach (cached true) (whoHart placed 0 true) word8 .read) = true ∧ isCopy (reach (slotted 0) (whoHart placed 0 false) word1 .read) = true ∧
    isCopy (reach (slotted 0) (whoHart placed 0 true) word1 .write) = true ∧ isCopy (reach (slotted 0) (whoHart placed 0 false) word1 .amo) = true := by decide +kernel

def entry : SbEntry := ⟨0, .write (leBytes 8 7), [word8], 0x40108, order placed false false false, false, false, false, false⟩
def sending (s : State) : State := withHart s fun h => { h with sb := [entry] }
/-- A write-intent piece of another unit stands over the granule: its mode 2 refuses the write, its mode 0 holds it. -/
def pieceOver (mode : Nat) : PieceT := ⟨0, 0, 0, 0, 0x130100, 0x40100, 3, true, mode, 8, 0, 16, 0, 8, true, [], [], false, none⟩

/-- The unit that sends the entry. -/
def sendWho : Who := { whoHart placed 0 true with ev := some (.storeSend 0, 1) }

theorem witness_StoreBuffer : unsent (hartOf placed 0) = [] ∧ unsent (hartOf (sending placed) 0) = [entry] ∧ entryHeld (sending placed) 0 entry = false ∧ parked (sending placed) 0 entry = false ∧ entry.refused = false ∧ entry.away = false ∧
    okAcc (accWrite (sending placed) sendWho word8 (leBytes 8 7) false) = true ∧
    errAcc (accWrite { sending placed with pieces := [pieceOver 2] } sendWho word8 (leBytes 8 7) false) = true ∧
    waitAcc (accWrite { sending placed with pieces := [pieceOver 0] } sendWho word8 (leBytes 8 7) false) = true := by decide +kernel

def mergeEntry (dword : Bool) (vals : SMap Word) : MergeE := ⟨0, 0, [⟨0, 0, 0, false, 0⟩], true, 0x2602, 0, 0x40100, 2, dword, vals, true, 0, 0⟩
def merged (e : MergeE) : State := withTile0 placed fun t => { t with merge := [(0, e)] }

/-- A later contribution of the hart that stands in entry 0. -/
def laterEntry : MergeE := ⟨5, 0, [⟨0, 5, 5, false, 5⟩], true, 0x2603, 0, 0x40180, 2, true, [(8, 1)], true, 0, 0⟩
def mergedTwo : State := withTile0 placed fun t => { t with merge := [(0, mergeEntry true [(8, 1)]), (1, laterEntry)] }

theorem witness_MergeBuffer : mfind (tileOf placed 0).merge 0 = none ∧ mfind (tileOf merging 0).merge 0 ≠ none ∧ ((mfind (tileOf merging 0).merge 0).map (·.going)) = some false ∧
    merging.clock < 4096 ∧ mfind (tileOf (merged (mergeEntry true [])) 0).merge 0 = some (mergeEntry true []) ∧
    routed (merged (mergeEntry true [(8, 1)])) 0 0 0 word8 = false ∧
    ((tileOf (merged (mergeEntry true [(8, 1)])) 0).merge.any fun y => (y.2.gk == 0x2602 && decide (y.2.id < 0)) || (mergeEntry true [(8, 1)]).behind y.2) = false ∧
    ((tileOf mergedTwo 0).merge.any fun y => (y.2.gk == laterEntry.gk && decide (y.2.id < laterEntry.id)) || laterEntry.behind y.2) = true ∧ mfind (tileOf mergedTwo 0).merge 1 = some laterEntry ∧
    okAcc (accRmw (useCircuit (merged (mergeEntry true [(8, 1)])) 0 (5 * 1024 + placeDie (merged (mergeEntry true [(8, 1)])) 0 word8)) { tile := 0, part := 0, unit := 100, l1 := false, ev := some (.mergeFlushIdle 0 0, 1) } word8 (amoBytes 2 true 1 0)) = true := by decide +kernel
def joining : State := withHart placed fun h => { h with join := some ⟨3, false, true, 0, [1]⟩ }

theorem witness_Fence : (15 : BitVec 4) ≠ 0 ∧ (curH placed).join = none ∧ fenceReady (flushHart loading 0) 0 15 false = false ∧ fenceReady (flushHart placed 0) 0 15 false = true ∧
    (curH joining).join = some ⟨3, false, true, 0, [1]⟩ ∧ joinHart joining 3 = some 0 ∧ (4 : BitVec 3).toNat = 4 := by decide +kernel

/-- A join of a hart with a circuit to another package, while that path retrains, and while it does not. -/
theorem witness_Joins : joinHart joining 3 = some 0 ∧ 16 ≤ (3 * 1024 + 17) % 1024 ∧ circuitWaits joining (17 - 16) = false ∧
    circuitWaits { joining with xbarDown := true } (ownPkg joining) = true ∧ aheadOf joining 0 (5 * 1024 + 4) = false := by decide +kernel

def monitoring : State := withHart placed fun h => { h with monitor := some ⟨0x2602, false⟩, wait := .monitor }

theorem witness_WatchAndWait : Ready placed [(1, false)] none ∧ okRange (Claims.span placed 0x40108 8 .read .counter) = true ∧ badRange (Claims.span placed 0x90000 8 .read .counter) = true ∧
    Ready placed [(1, false), (3, false)] (some 4) ∧ (curH monitoring).monitor = some ⟨monitorGran word8, false⟩ ∧ (curH monitoring).wait = .monitor ∧
    waitClear (watching placed 0x2602) word8 0x40108 ∧ okAcc (wordRead placed word8) = true ∧ errAcc (wordRead { placed with psn := [0x2602] } word8) = true ∧
    waitAcc (wordRead { placed with txns := [(0x2602, ⟨0, 0, [], false, []⟩)] } word8) = true ∧ ¬waitClear (watching storing 0x2602) word8 0x40108 := by decide +kernel

theorem witness_Barriers : Ready placed [(1, false), (1, false)] none ∧ (gVal placed 3).toNat = 0 ∧ (gVal (setG placed 1 3) 1).toNat % 8 ≠ 0 ∧ 1 ≤ (gVal placed 1).toNat ∧
    (gVal placed 1).toNat < 2 ^ 32 ∧ okRange (Claims.span placed 0x40108 8 .amo .none) = true ∧ (curH placed).barPh = none ∧
    (curH (withHart placed fun h => { h with barPh := some 3 })).barPh = some 3 ∧ drained (flushHart placed 0) 0 = true ∧ drained (flushHart storing 0) 0 = false ∧
    okAcc (accRmw placed (whoInstr placed) word8 fun o => some (arriveBytes 1 o)) = true := by decide +kernel

def isTreat (n : Nat) (r : Treat) : Bool := match r with | .done _ => n == 0 | .wait _ => n == 1 | .stop .. => n == 2

theorem witness_CacheMaintenance : Ready placed [(1, false), (3, false)] none ∧ rangeBad (gVal placed 1) 0 = false ∧ rangeBad (gVal placed 1) (2 ^ 33) = true ∧
    (gVal (setG placed 1 0x40100) 1).toNat % 128 = 0 ∧ (gVal placed 1).toNat % 128 ≠ 0 ∧ rangeBad 0x40100 128 = false ∧ (128 : Nat) ≤ 2 ^ 32 ∧ 2 ^ 32 < (2 ^ 33 : Nat) ∧ 0 < granCount 0x40108 0 ∧
    (∀ rw ∈ [false, true], okRange (rangeWith (treatXlate rw) placed 0 0 0x40108 1 .read .none) = true ∧
      badRange (rangeWith (treatXlate rw) placed 0 0 0x90000 1 .read .none) = true) ∧ isTreat 0 (writeBackGran placed 0x2602) = true ∧
    isTreat 1 (writeBackGran { placed with txns := [(0x2602, ⟨0, 0, [], false, []⟩)] } 0x2602) = true ∧ isTreat 2 (discardGran { placed with pieces := [pieceOver 2] } 0x2602) = true ∧
    okX (xlateFetch placed 0 0 0x40108 true) = true ∧ okX (xlateFetch placed 0 0 0x90000 true) = false ∧ storesDone (flushHart placed 0) 0 = true ∧ storesDone (flushHart storing 0) 0 = false ∧
    slotRefuses placed 0 0 0x40108 .fetch = none ∧ slotRefuses (setSlot placed 0 2 { Slot.init with st := .active, recd := [2053, 0, 0, 0, 0, 0, 0, 0] }) 0 2 0x40108 .fetch = some 6 := by decide +kernel

def dirEntry (owned : Bool) : DirE := newDir 0x2602 owned [0] 0
def listed (owned : Bool) : State := setDir placed 0x2602 (dirEntry owned)

/-- No partition owns the regions of the first stack. -/
def foreignRegion : State := setCtl placed 0x10000000 0

/-- Partition 1 holds a granule of host memory. -/
def hostListed : State := setDir placed (2 ^ 45) (newDir (2 ^ 45) true [0] 1)

theorem witness_GranuleTreatmentHost : dirOf hostListed (2 ^ 45) = some (newDir (2 ^ 45) true [0] 1) ∧ isHostGran (2 ^ 45) = true ∧
    ownp (newDir (2 ^ 45) true [0] 1) ≠ curPart hostListed ∧ ownp (newDir (2 ^ 45) true [0] 0) = curPart placed := by decide +kernel

theorem witness_GranuleTreatment : (stackOf placed (granStack 0x2602)).stopped = false ∧ mfind placed.txns 0x2602 = none ∧ turnDue placed (whoInstr placed) = false ∧ clash placed 0x2602 false (curTile placed) 100 (whoInstr placed).ev = .free ∧
    regionOk placed 0 0x2602 = true ∧ regionOk foreignRegion 0 0x2602 = false ∧
    (∀ e ∈ [dirEntry true, dirEntry false], e.bad = false ∧ vote e ≠ none) ∧ dirOf placed 0x2602 = none ∧ dirOf (listed true) 0x2602 = some (dirEntry true) ∧ dirOf (listed false) 0x2602 = some (dirEntry false) ∧ isHostGran 0x2602 = false ∧
    isHostGran (2 ^ 45) = true ∧ ((copiesOf (cached false) 0x2602).all fun (_, c) => c.st.holds && c.st != .sm) = true ∧
    ((copiesOf (setCopy placed 0 0x2602 ⟨.im, 0, 0, false, none, 0, 0, none⟩) 0x2602).all fun (_, c) => c.st.holds && c.st != .sm) = false := by decide +kernel

theorem witness_WatermarkRelease : (∀ p ∈ (inFlight placed false).pend, p.hart = 0 → p.chk = false) ∧
    ((inFlight (cached false) true).pend.filter fun q => q.hart == 0 && q.chk) = [pnd true] ∧ pendHeld (inFlight (cached false) true) (pnd true) = false ∧
    okAcc (perform (cached false) (pnd true)) = true := by decide +kernel

def okEng (r : EngR) : Bool := match r with | .ok .. => true | _ => false
/-- g1 names a source, g2 a destination and g3 a count of 16. -/
def operands (s : State) : State := setG (setG s 2 0x40200) 3 16
def regs : CmdRegs := ⟨1, 2, 3, 0⟩
def lin : Cmd := hartCmd (operands placed) 0 0 regs comp0
noncomputable def queued : State := nextOf (exec (.copyLin regs comp0 none) (operands placed))
noncomputable def begunCopy : State := nextOf (exec (.copyBegin 0) queued)
def withQueue (l : List Cmd) : State := withTile0 placed fun t => { t with cq := l }
noncomputable def full : State := withQueue (List.replicate 64 lin)

theorem witness_CopyCommands : Ready (operands placed) (cmdSrcs regs) none ∧ cmdGated { placed with ctl := mset 0 placed.ctl 2 0 } (hartCmd placed 10 0 regs comp0) = true ∧
    cmdGated (operands placed) lin = false ∧ copyGrantless (operands placed) lin = false ∧ copyGrantless (withHart placed fun h => { h with v := { h.v with lanes := 0 } }) { lin with kind := 3 } = true ∧ cmdBad (operands placed) lin = false ∧ followBad (operands placed) lin = false ∧ cmdMisaligned lin = none ∧
    cmdBad placed { lin with gc := 2 ^ 40 } = true ∧ cmdMisaligned { lin with gd := 4 } = some 4 := by decide +kernel

theorem witness_CopyCommands_place : takesCommand (operands placed) lin ∧ ¬takesCommand full lin := by
  have no : lin.follow = none := by decide +kernel
  have m : ¬lin.mode = 3 := by decide +kernel
  have room : (copyQueue (flushHart (operands placed) (operands placed).cur) lin.tile).length < 64 := by decide +kernel
  have none' : ¬(copyQueue (flushHart full full.cur) lin.tile).length < 64 := by decide +kernel
  have claims : claimsWait (flushHart (operands placed) (operands placed).cur) lin = false := by decide +kernel
  unfold takesCommand
  exact ⟨⟨fun _ h => absurd h m, ⟨fun f h => (by rw [no] at h; cases h), room, claims⟩⟩, fun h => none' h.2.2.1⟩

theorem witness_CommandTaken : (hartCmd placed 7 0 regs comp0).follow = none ∧ (hartCmd placed 7 0 regs comp0).k ≠ 0 ∧ 3 ≤ (hartCmd placed 0 3 regs comp0).mode := by decide +kernel

noncomputable def late : State := nextOf (exec (.copyLin regs comp0 none) (operands loading))
def linBegun : Cmd := { lin with begun := true }
def vregCopy : Cmd := { Cmd.blank 0 0 0 0 true with kind := 3, ga := 0x40100, gc := 64, snap := 15, begun := true }
def tileCopy : Cmd := { Cmd.blank 0 0 0 0 true with kind := 4, ga := 0x40100, gc := 16, snap := 0x3011, begun := true }
def copySrc : List (Word × Nat) := joinRuns ((granPlan (copySpans linBegun) 0x804).map fun q => copySource linBegun q.2.1 q.2.2)

theorem witness_CopySteps : ((copyQueue queued 0).find? fun c => !c.begun) = some lin ∧ ((copyQueue queued 0).filter (·.begun)).length < 8 ∧ drainedBefore queued 0 0 = true ∧
    ((copyQueue late 0).find? fun c => !c.begun).isSome = true ∧ drainedBefore late 0 1 = false ∧ cmdOf begunCopy 0 0 = some linBegun ∧
    nextPos (copySpans linBegun) 0 (((copySpans linBegun).map spanGrans).sum + (copySpans linBegun).length + 1) = some 0 ∧ (copySpans linBegun)[0]? = some (0x40200, 16) ∧ nextPos (copySpans linBegun) 1 (((copySpans linBegun).map spanGrans).sum + (copySpans linBegun).length + 1) = none ∧ (lin.k ≠ 4 ∨ lin.begun = true) ∧ linBegun.due = 0 ∧
    okEng (engGatherSome begunCopy (whoCmd linBegun) true copySrc []).1 = true ∧ okEng (engScatter begunCopy (whoCmd linBegun) true [(0x40200, leBytes 16 7)]) = true ∧
    vregCopy.k = 0 ∧ vregCopy.mode = 3 ∧ vregCopy.pos * 64 < vregCopy.gc.toNat ∧ okEng (engRead placed (whoCmd vregCopy) true 0x40100 64) = true ∧
    tileCopy.mode = 4 ∧ tileCopy.pos < tcRows tileCopy.snap ∧ okEng (loadRow placed (whoCmd tileCopy) true tileCopy.snap 0 0 0x40100 []).1 = true ∧
    ursvBusy begunCopy linBegun = false ∧ repBusy begunCopy (ofCmd linBegun) = false ∧ repErr begunCopy (ofCmd linBegun) = false ∧
    okEng (engScatter begunCopy (whoCmd linBegun) true (lastWords { linBegun with gd := 0x40300 })) = true := by decide +kernel

def permCopy : Cmd := { Cmd.blank 0 0 0 0 true with kind := 2, esz := 3, param := 0xE1, gc := 0x0001000100030002 }

theorem witness_CopySources : 0 < eBytes lin ∧ lin.mode = 0 ∧ 1 < deintN { lin with kind := 1, param := 1 } ∧ 7 < eBytes permCopy ∧ permCopy.mode = 2 ∧ 5 < permTotal permCopy ∧
    1 < permD permCopy 0 ∧ 2 < permD permCopy 1 ∧ 0 < permD permCopy 2 * permD permCopy 3 := by decide +kernel

/-- Run 0 of tile 0's counters belongs to partition 0; g1 is a multiple of 128. -/
noncomputable def granted : State := setG (nextOf (exec (.counterRunGrant 0 0 0) placed)) 1 0x40100

/-- A record of n words whose command is a COPY of nothing. -/
def cmdRec (n : Nat) : List Word := 0xFC000000 :: List.replicate (n - 1) 0

theorem witness_Posts : ownsCounter placed 0 0 3 = false ∧ ownsCounter granted 0 0 3 = true ∧ gVal placed 3 = 0 ∧ slotsUsed (tileOf granted 0) < 4096 ∧
    (gVal granted 1).toNat % 64 = 0 ∧ (gVal placed 1).toNat % 64 ≠ 0 ∧ drained (flushHart granted 0) 0 = true ∧ drained (flushHart storing 0) 0 = false ∧
    okRd (readRec (flushHart granted 0) (byRuns 0x40100 64 2)) = true ∧ (recCmd granted 0 0 0 true 1 (cmdRec 8)).isSome = true ∧
    (findNode (flushHart (noded (node true .pending 2)) 0) 0 0x40100 (· == .pending)).isSome = true ∧ Canonical (gVal granted 1) ∧ (gVal granted 1).toNat % 8 = 0 := by decide +kernel

def postOf (act : Nat) : Post := ⟨0, true, 3, 0x40100, 2, 1, act, false, some lin⟩
noncomputable def posted (act : Nat) (v : Word) : State := withTile0 (nextOf (exec (.counterRaise 0 3 v) granted)) fun t => { t with posts := [postOf act] }

theorem witness_PostsFire : (tileOf (posted 0 1) 0).posts = [postOf 0] ∧ (counter (posted 0 1) 0 3).toNat < (postOf 0).thr.toNat ∧
    (postOf 3).thr.toNat ≤ (counter (posted 3 5) 0 3).toNat ∧ (tileOf placed 0).fired = [] ∧ (tileOf (withTile0 placed fun t => { t with fired := [lin] }) 0).fired = [lin] ∧
    64 ≤ (copyQueue full 0).length ∧ (copyQueue placed 0).length < 64 ∧ claimsWait placed lin = false := by decide +kernel

theorem witness_CounterRuns : (5 : Nat) < 512 ∧ (7 : Nat) < 8 ∧ (63 : Nat) < 64 ∧ (tileOf granted 0).fired = [] ∧ granted.firmware = true ∧ ctlByte granted 0x40000000 / 64 % 2 = 1 ∧ ¬ctlByte granted 0x40000001 / 64 % 2 = 1 ∧
    ({ granted with firmware := false } : State).firmware = false := by decide +kernel

theorem witness_CounterInstructions : Ready granted [(1, false), (3, false)] none ∧ Ready granted [(3, false)] (some 4) ∧ Ready (setG placed 3 0x40000) [(3, false)] (some 4) ∧ Ready placed [(1, false), (3, false)] none ∧ (gVal placed 3).toNat < 2 ^ 18 ∧ Ready placed [(3, false)] (some 4) ∧ (gVal granted 3).toNat < 2 ^ 18 ∧
    2 ^ 18 ≤ (gVal (setG placed 3 0x40000) 3).toNat ∧ ownsCounter granted (curPart granted) 0 0 = true ∧ ownsCounter placed (curPart placed) 0 0 = false := by decide +kernel

/-- A nest record for tile 0 at 0x40100, which g1 names. -/
def nestRec : List Word := [0x40000, 0, 0x40200, 0, 0, 0, 2, 0, 0, 0, 0, 1, 0, 0, 0, 0]
noncomputable def nested : State := setG (pokeHome placed 0x130100 (nestRec.flatMap fun w => leBytes 8 w.toNat)) 1 0x40100
noncomputable def afterRec : State := match readRec (flushHart nested 0) (byRuns 0x40100 128 3) with | .ok s _ => s | .stop s _ => s
noncomputable def submission : Submission := ⟨afterRec, afterRec, afterRec, nestRec, [], []⟩

/-- The pool has taken the request of hart 0 while its point was set aside. -/
def takenSt (s : State) : State := withHart s fun h => { h with taken := true }

theorem witness_Submissions : (gVal nested 1).toNat % 128 = 0 ∧ (gVal placed 1).toNat % 128 ≠ 0 ∧ (curH nested).taken = false ∧ (curH placed).taken = false ∧
    Ready (takenSt placed) [(1, false)] (some 4) ∧ Ready (takenSt placed) [(1, false)] none ∧ (curH (takenSt placed)).taken = true ∧ Ready nested [(1, false)] (some 4) ∧ Ready nested [(1, false)] none ∧
    nestBad afterRec nestRec false = false ∧ nestBad afterRec nestRec true = false ∧ nodeBad (cmdRec 16) = false ∧
    (recCmd placed 0 0 0 true 2 (cmdRec 16)).isSome = true ∧ pointDepth afterRec < 7 ∧ levelRoom afterRec 0 1 0 = true ∧ freeEntry afterRec 0 1 = some 128 ∧
    levelRoom (setStack afterRec 0 { stackOf afterRec 0 with stalls := [(1, List.range' 1 128)] }) 0 1 0 = false ∧
    7 ≤ pointDepth (withHart afterRec fun h => { h with point := some ⟨none, 7⟩ }) := by decide +kernel

theorem witness_Submissions_record : captured (flushHart nested 0) (gVal nested 1) 16 submission.u submission.recd :=
  ⟨by decide +kernel, nestRec.flatMap fun w => leBytes 8 w.toNat, by decide +kernel, by decide +kernel⟩

theorem witness_Submissions_lists : listsRead submission (nestAddr (nestRec.getD 4 0)) (nestAddr (nestRec.getD 5 0)) (bits (nestRec.getD 8 0) 31 24) 0 :=
  ⟨⟨[], by decide +kernel⟩, ⟨[], by decide +kernel⟩, .inl rfl⟩

theorem witness_NodeStates : (node true .pending 2).foot = [] ∧ (node true .pending 2).preds ≠ 0 ∧ (node true .pending 0).preds = 0 ∧
    nodeAt (noded (node true .pending 2)) 128 = some (node true .pending 2) ∧ (node true .pending 1).preds = 1 ∧ { node true .running 0 with id := 2, succ := [(128, 1)] }.derived = [] ∧ (node true .pending 2).id = 1 ∧
    nodeAt (setNode (noded (node true .pending 2)) 129 { node true .running 0 with id := 2, succ := [(128, 1)] }) 128 = some (node true .pending 2) := by decide +kernel

def readyCmd : State := noded { node true .ready 0 with recd := cmdRec 16 }

theorem witness_NodeBeginAndRetire : findNode readyCmd 0 0x40100 (· == .ready) = some 128 ∧ (nodeAt readyCmd 128).isSome = true ∧ (copyQueue readyCmd 0).length < 64 ∧
    64 ≤ (copyQueue full 0).length ∧ (recParse 0 0 0 true 2 128 (cmdRec 16)).isSome = true ∧ ((recParse 0 0 0 true 2 128 (cmdRec 16)).all fun c => !claimsWait readyCmd c) = true ∧ (curH placed).v.split = false ∧ (curH placed).v.tnum = 0 ∧
    retireReady (flushHart loading 0) 0 = false ∧ retireReady (flushHart placed 0) 0 = true ∧ boundEngines (flushHart placed 0) 0 = [] ∧
    retireReady (flushHart (withTile0 placed fun t => { t with se := [(2, engine true)] }) 0) 0 = true ∧
    (∃ x ∈ boundEngines (flushHart (withTile0 placed fun t => { t with se := [(2, engine true)] }) 0) 0, bindingBusy (flushHart (withTile0 placed fun t => { t with se := [(2, engine true)] }) 0) 0 x.1 x.2 = true) := by decide +kernel

/-- A stream engine of tile 0, bound to g28. -/
def streaming (e : SEng) : State := withTile0 placed fun t => { t with se := [(2, e)] }

/-- One that writes sixteen double words, which fill a granule. -/
def pushing16 : SEng := { engine true with recd := [0x40100, 3, 16, 1, 8, 0, 0, 0], data := List.replicate 16 9, mask := List.replicate 16 true }

/-- The same, half of the granule pushed so far. -/
def pushing8 : SEng := { pushing16 with data := List.replicate 8 9, mask := List.replicate 8 true }
/-- A stream of hart 1's, which waits for its data. -/
def awaited : SEng := { engine false with hart := 1 }
def awaiting : State := setHart (streaming awaited) 1 { Hart.init with st := .running, wait := .reg }

/-- A write of a unit of tile 0 that a router still copies, or whose copies ended with a refusal. -/
def repOf (unit job : Nat) (err : Bool) : Rep := ⟨0, unit, job, 0, 0x130100, 256, 2, if err then 3 else 1, err⟩
def withCopies (s : State) (unit job : Nat) (err : Bool) : State := { s with reps := [repOf unit job err] }

theorem witness_Streams : Ready granted [(1, false), (3, false)] none ∧ compBad granted 0 0 comp0 = false ∧ compBad granted 0 (2 ^ 60) comp0 = true ∧ (∀ e ∈ (tileOf granted 0).se, e.2.bound = false) ∧
    (curH granted).v.lanes ≠ 0 ∧ (gVal granted 1).toNat % 64 = 0 ∧ bindBusy granted false 28 = false ∧ drained (flushHart granted 0) 0 = true ∧
    okRd (readRec (flushHart granted 0) (byRuns 0x40100 64 2)) = true ∧ patBad [0x40100, 0, 3, 0, 8, 0, 0, 0] = false ∧
    mfind (tileOf (streaming (engine false)) 0).se 2 = some (engine false) ∧ (engine false).pos < patTotal (engine false).recd ∧
    patTotal (engine false).recd ≤ 1000 ∧ fetchRoom (streaming (engine false)) (engine false) = true ∧
    okEng (engRead (streaming (engine false)) (whoEng (engine false) 0 2 (.streamEngineAccess 0 2)) true (patAddr (engine false).recd 0) (patBytes (engine false).recd)) = true ∧
    okEng (engWrite (streaming (engine true)) (whoEng (engine true) 0 2 (.streamEngineAccess 0 2)) true (patAddr (engine true).recd 0) (leBytes (patBytes (engine true).recd) 9)) = true ∧
    nextPush (engine true).recd 0 [9] [true] true = some [0] ∧ (engine true).mask.headD true = true ∧ pushBytes (engine true).recd 0 [9] [0] = (0x40100, leBytes 1 9) ∧
    nextPush pushing16.recd 0 pushing16.data pushing16.mask true = some (List.range 16) ∧ pushBytes pushing16.recd 0 pushing16.data (List.range 16) = (0x40100, (List.replicate 16 (leBytes 8 9)).flatten) ∧
    okEng (engWrite (streaming pushing16) (whoEng pushing16 0 2 (.streamEngineAccess 0 2)) true 0x40100 (pushBytes pushing16.recd 0 pushing16.data (List.range 16)).2) = true ∧
    nextPush pushing16.recd 0 (List.replicate 8 9) (List.replicate 8 true) (pushesMore (streaming pushing8) pushing8) = none ∧
    (dropPush pushing16 (List.range 16)).mask.headD true = false ∧ (dropPush pushing16 (List.range 16)).data ≠ [] ∧
    (streaming (engine false)).reps = [] ∧ bindingBusy (streaming (engine true)) 0 2 (engine true) = true ∧ useWaits awaiting awaited = true ∧ bindingBusy (streaming (engine false)) 0 2 (engine false) = false ∧
    useWaits (streaming (engine false)) (engine false) = false ∧ (engine false).complete = false ∧ (curH (withHart placed fun h => { h with v := { h.v with lanes := 0 } })).v.lanes = 0 ∧
    repBusy (withCopies (streaming (engine false)) 2 0 false) (fun r => r.tile == 0 && r.unit == 2) = true ∧ mfind (tileOf placed 0).se 2 = none := by decide +kernel

theorem witness_PatternAddress : 2 < patCount [0x40100, 0x10, 0x200000003, 0, 8, 64, 0, 0] 0 ∧ 1 < patCount [0x40100, 0x10, 0x200000003, 0, 8, 64, 0, 0] 1 ∧
    0 < patCount [0x40100, 0x10, 0x200000003, 0, 8, 64, 0, 0] 2 := by decide +kernel

def isCut (r : Cut) (n : Nat) : Bool := match r with | .ok _ l => l.length == n | _ => false
/-- g2 is the stride 8 and g3 the count 16. -/
def affine : State := setG (setG placed 2 8) 3 16
def pieced (live : Bool) : State := { placed with pieces := [{ pieceOver 0 with live }] }

def ursv : Cmd := { Cmd.blank 0 0 0 0 true with kind := 32, param := 8 }
def rsvCmd : Cmd := { Cmd.blank 0 0 0 0 true with kind := 24, param := 8 }
def ursv9 : Cmd := { ursv with id := 9 }

theorem witness_Cinches : Ready affine (cmdSrcs regs) none ∧ compBad affine 0 (gVal affine 0) comp0 = false ∧ unitCinch affine 0 8 = none ∧ (tileOf affine 0).fb = some affine.cur ∧
    (gVal affine 1).toNat % 2 ^ 3 = 0 ∧ (gVal affine 2).toNat % 2 ^ 3 = 0 ∧ (gVal affine 3).toNat < 2 ^ 32 ∧ cinchRangeBad (gVal affine 1) (gVal affine 2) 16 3 = false ∧
    portQueue affine 0 < 16 ∧ drained (flushHart affine 0) 0 = true ∧ isCut (cutPages (flushHart affine 0) (gVal affine 1) 8 16 .write 0 16) 1 = true ∧
    isCut (cutPages (flushHart affine 0) (gVal affine 1) 8 0 .write 0 0) 0 = true ∧ (tileOf (withTile0 affine fun t => { t with fb := none }) 0).fb ≠ some affine.cur ∧
    cmdOf (withQueue [ursv]) 0 0 = some ursv ∧ ursv.k = 4 ∧ ursv.begun = false ∧ ursv.stall = none ∧ ursvWaits (withQueue [ursv]) ursv = false ∧
    cmdOf (withQueue [rsvCmd, ursv9]) 0 9 = some ursv9 ∧ ursvWaits (withQueue [rsvCmd, ursv9]) ursv9 = true ∧
    pieceOf (pieced false) 0 = some { pieceOver 0 with live := false } ∧ pieceOf (pieced true) 0 = some (pieceOver 0) ∧
    ((pieced true).pieces.any fun y => y.live && (y.wr || true) && (pieceGrans (pieceOver 0)).any (covers y)) = true ∧
    ((pieced false).pieces.any fun y => y.live && (y.wr || true) && (pieceGrans (pieceOver 0)).any (covers y)) = false ∧
    ((pieceGrans (pieceOver 0)).all (regionOk placed 0)) = true ∧ ((pieceGrans (pieceOver 0)).all (regionOk foreignRegion 0)) = false ∧
    (∀ g ∈ pieceGrans (pieceOver 0), mfind placed.txns g = none ∧ dirOf placed g = none) := by decide +kernel

theorem witness_PositionQueries : pieceOf (pieced true) 0 = some (pieceOver 0) ∧ (pieceOver 0).first + (pieceOver 0).count = 16 := by decide +kernel

noncomputable def launched : State := nextOf (exec (.launch 4 1 false) nested)
noncomputable def nest : Node := (nodeAt launched 128).getD (node false .ready 0)
noncomputable def tainted : State := setNode launched 128 { nest with taint := true }
noncomputable def handed : State := handOut launched 128 nest 0 1 0

theorem witness_Dispatch : onlyChoice launched 0 128 nest 0 1 0 ∧ asideWanted handed 0 = [] ∧ endedNests handed 0 = [] ∧ endedNests placed 0 = [] ∧ taintedNode placed 0 = none ∧
    stackNests placed 0 = [] ∧ asideWanted placed 0 = [] ∧ endedNests tainted 0 = [] ∧ taintedNode tainted 0 = some 128 ∧ asideWanted (completeNode tainted 128 true) 0 = [] ∧
    endedNests (completeNode tainted 128 true) 0 = [] := by decide +kernel

theorem witness_PointEntry : needMx { node false .ready 0 with recd := nestRec.set 8 0xC000 } = true ∧ needFb { node false .ready 0 with recd := nestRec.set 8 0xC000 } = true := by decide +kernel

/-- Three by two points. -/
def grid : List Word := [0x40000, 0, 0, 0, 0, 0, 0x200000003, 0, 1, 0, 0, 1, 0, 0, 0, 0]
theorem witness_PointOrder : bits (grid.getD 8 0) 3 2 < 2 ∧ bits ((grid.set 8 29).getD 8 0) 3 2 = 3 ∧ permOk 29 (nestDims grid) = true ∧ bits ((grid.set 8 29).getD 8 0) 5 4 = 1 ∧ 2 + 1 < nestPoints (grid.set 8 29) ∧ (2 + 1) % nestBound (grid.set 8 29) 1 ≠ 0 ∧ 4 < nestPoints grid ∧ 1 < nestDims grid ∧ (2 + 1) % nestBound grid (nestDims grid - 1) ≠ 0 := by decide +kernel

/-- Every entry of level 1 of stack 0 is taken by a nest of hart 0's; hart 0 stalled, since clock 0. -/
def crowded : State :=
  withHart (setStack placed 0 { stackOf placed 0 with pool := (List.range 128).map fun i => (128 + i, { node false .ready 0 with recd := nestRec.set 8 0x4000 }), stalls := [(1, [0])] }) fun h =>
    { h with stalled := true, wait := .pool, point := some ⟨none, 0⟩, req := some { node false .ready 0 with recd := nestRec } }
def crowdedLater : State := { crowded with clock := 5000 }
noncomputable def asideState : State := nextOf (exec (.pointSetAside 0) crowdedLater)

theorem witness_StalledPoints_entry : mgetD (stackOf (setStack placed 0 { stackOf placed 0 with stalls := [(1, [0])] }) 0).stalls 1 [] = [0] ∧ levelUsed placed 0 1 < 128 := by decide +kernel
noncomputable def emptied : State := setStack asideState 0 { stackOf asideState 0 with pool := [] }
noncomputable def entered : State := nextOf (exec (.poolEntryTaken 0 1) emptied)
/-- What the set-aside hart waits for in state s, and where it would be restored. -/
def asideOf (s : State) : Option Aside := mfind (tileOf s 0).aside 0
def freezeFirst (s : State) : State := freezeTile (flushHart s 0) 0
theorem witness_StalledPoints : mayAside placed 0 = false ∧ (tileOf (withTile0 placed fun t => { t with fb := none }) 0).fb ≠ some 0 ∧ mayAside crowdedLater 0 = true ∧
    (hartOf crowdedLater 0).prog + 4096 ≤ crowdedLater.clock ∧ (hartOf (freezeFirst crowdedLater) 0).point = some ⟨none, 0⟩ ∧ asideReady (freezeFirst crowdedLater) 0 = true ∧
    asideReady (freezeFirst { crowdedLater with pend := [pnd false] }) 0 = false ∧ (asideOf asideState).isSome = true := by decide +kernel
theorem witness_StalledPoints_restore : ((asideOf emptied).bind fun a => a.hart.req).map (·.recd) = some nestRec ∧
    ((asideOf emptied).bind fun a => a.hart.req).map (footFull emptied) = some false ∧ freeEntry emptied 0 1 = some 128 ∧ mgetD (stackOf emptied 0).stalls 1 [] = [asideKey 0 0] ∧
    levelUsed emptied 0 1 < 128 ∧ (asideOf emptied).map (·.hart.taken) = some false ∧ (asideOf entered).map (·.hart.taken) = some true ∧
    (asideOf entered).map (restoreFits entered 0) = some (some 0) ∧ (asideOf entered).map (·.hart.sb) = some [] ∧ (asideOf entered).map (·.pend) = some [] ∧ entered.pend = [] ∧
    (asideOf entered).map (restoreFits (withTile0 entered fun t => { t with fb := some 3 }) 0) = some none := by decide +kernel

theorem witness_PowerSteps : (48 : Nat) ∈ [64, 48, 32, 16] ∧ (tileOf placed 0).laneStep ≠ 48 ∧ (7 : Nat) ∉ [64, 48, 32, 16] ∧ ptState placed 0 = 1 := by decide +kernel

/-- Partition 1 shares region 0 and runs too. -/
def shared : State := setPt (setCtl placed 0x0C008000 3) 1 0 3
noncomputable def swapping : State := { nextOf (exec (.managementSwap 0) shared) with agenda := [] }

theorem witness_Quanta : (regionOf State.reset 0).running = 0 ∧ (regionOf placed 0).running ≠ 0 ∧ (regionOf placed 0).halting = false ∧ placed.clock < (regionOf placed 0).ends ∧
    nextPart shared 0 0 = some 1 ∧ nextPart placed 0 0 = none ∧ (regionOf swapping 0).halting = true ∧ ((regionTiles swapping 0).all fun t => tileQuiet swapping t 0 && cachesQuiet swapping t) = true ∧
    ((regionTiles swapping 0).all fun t => tileQuiet { swapping with pend := [{ pnd false with dest := .v 15 2 0 32 0, op := some (.rmw 0 true 0 0) }] } t 0 && cachesQuiet swapping t) = false ∧
    (regionOf placed 0).ends ≤ 2 ^ 33 := by decide +kernel

theorem witness_SavedContext : (mfind placed.harts 0).isSome = true ∧ (hartOf placed 0).wait ≠ .yielding ∧ (hartOf placed 0).stalled = false := by decide +kernel

/-- Segment 0 of bank 0 is granted to partition 0; the record of slot 1 stands at 0x40100. -/
def recorded (seg : Bool) : State :=
  setG (pokeHome (if seg then setCtl placed 0x08000000 0x40 else placed) 0x130100 ((recOf 0).flatMap fun w => leBytes 8 w.toNat)) 1 0x40100
def slotAt (x : Slot) : State := setSlot placed 0 1 x
def active : Slot := { Slot.init with st := .active, recd := recOf 0, lines := [(256, ⟨0x2602, false, none, none, 0, 0, []⟩)] }

theorem witness_SlotInstructions : (curH user).sup = false ∧ (curH placed).sup = true ∧ Ready placed [(1, false), (3, false)] none ∧ slotBusy (slotOf placed 0 1) = false ∧
    slotBusy (slotOf (slotAt { active with st := .draining }) 0 1) = true ∧ (gVal placed 1).toNat % 64 ≠ 0 ∧ (gVal (recorded true) 1).toNat % 64 = 0 ∧
    okRd (readRec (flushHart (recorded true) 0) (byRuns 0x40100 64 2)) = true ∧ drained (flushHart (recorded true) 0) 0 = true ∧ recordFieldsBad 1 (recOf 0) = false ∧ recordFieldsBad 1 (recOf 7) = true ∧
    recordForeign (recorded true) 0 (recOf 0) = false ∧ recordForeign (recorded false) 0 (recOf 0) = true ∧ recordShapeBad (recOf 0) = false ∧ recordTaken (recorded true) 0 1 (recOf 0) = false ∧
    recordOffline (recorded true) (recOf 0) = false ∧ recordWaits (recorded true) 0 1 (recOf 0) = false ∧
    recordOffline { recorded true with offline := [0] } (recOf 0) = true ∧ Ready placed [(3, false)] (some 4) ∧ 64 ≤ (gVal placed 1).toNat ∧ (gVal placed 3).toNat < 64 ∧ tilePart placed 0 = some 0 := by decide +kernel

theorem witness_SlotTransitions : (slotOf placed 0 1).st = .empty ∧ (slotOf (slotAt active) 0 1).st = .active ∧ sameShape active.recd (recOf 0) = true ∧ sameShape active.recd (recOf 1) = false := by decide +kernel

def migrating (n : Nat) (l : SMap Line) : Slot := { active with st := .migrating, newRecd := recOf 0, sweep := n, lines := l }

theorem witness_SlotSteps : recBytes (recOf 0) / recLine (recOf 0) ≤ 512 ∧ mfind (migrating 1 active.lines).lines (locIn (recShares (recOf 0)) (1 * recLine (recOf 0))) = none ∧
    mfind (migrating 2 active.lines).lines (locIn (recShares (recOf 0)) (2 * recLine (recOf 0))) = some ⟨0x2602, false, none, none, 0, 0, []⟩ ∧
    lineLive (slotted 0) (recLine (recOf 0)) 256 ⟨0x2602, false, none, none, 0, 0, []⟩ = true ∧ lineStable (slotted 0) (recLine (recOf 0)) 256 ⟨0x2602, false, none, none, 0, 0, []⟩ = true ∧
    (∀ y ∈ (migrating 512 [(256, ⟨0x2602, true, none, none, 0, 0, []⟩)]).lines, y.2.mv = none ∧ y.2.newmap = true) ∧
    (slotOf (slotAt { active with st := .draining, lines := [], removing := true }) 0 1).lines = [] ∧
    lineLive placed (recLine (recOf 0)) 256 ⟨0x2602, false, none, none, 0, 0, []⟩ = false ∧ recordOffline placed (recOf 0) = false ∧
    recordForeign (recorded true) 0 (recOf 0) = false ∧ recordForeign (recorded false) 0 (recOf 0) = true := by decide +kernel

theorem witness_MoveNotices : dirOf placed 0x2602 = none ∧ dirOf (listed true) 0x2602 = some (dirEntry true) ∧ placed.fenced.contains 0 = false ∧ names (dirEntry true) 3 = false ∧ vote (dirEntry true) ≠ none ∧
    vote { dirEntry true with idb := 1, idc := 2 } = none ∧
    names { dirEntry false with ptrs := [], coarse := true, cv := 1 } 0 = true ∧ movingLine (slotOf placed 0 1) 0x2602 = none ∧
    movingLine (slotOf (slotAt (migrating 3 [(256, ⟨0x2602, false, some 384, none, 0, 0, []⟩)])) 0 1) 0x2602 = some (256, 384, ⟨0x2602, false, some 384, none, 0, 0, []⟩) ∧
    (copyOf (slotted 0) 0 0x2602).isSome = true ∧ (0x2602 : Nat) < 2 ^ 46 := by decide +kernel

theorem witness_BankErrors : State.reset.offline.contains 5 = false ∧ ({ placed with offline := [5] }).offline.contains 5 = true ∧ (∀ q ∈ placed.parts, q.2.slots = []) ∧
    (slotted 0).parts.map (·.1) = [0] ∧ (slotted 0).parts.map (fun q => q.2.slots.map (·.1)) = [[1]] ∧
    sharesOf (slotOf (slotted 0) 0 1) 0 ≠ [] ∧ sharesOf (slotOf (slotted 0) 0 1) 5 = [] := by decide +kernel

/-- A vector thread of 2^(e+2)-bit elements, eight rows; and with one row. -/
def vec (e : BitVec 3) : State := nextOf (execSetvl 4 1 e 0 0 0 0 placed)
def oneRow (s : State) : State := withHart s fun h => { h with v := { h.v with vrc := 1 } }
/-- 8-bit narrow elements in blocks, one row. -/
def narrow : State := oneRow (nextOf (execSetvl 4 1 1 1 3 0 0 (withHart placed fun h => { h with fmt := [(1, 5)] })))
def vw (maj fn : Nat) (b : BitVec 5) : VW := ⟨maj, 2, 1, b, 0, false, fn⟩

theorem witness_VectorIntegers : ∀ fn < 22, Issues (vec 3) (vw 0x21 fn 3) ∧ Issues (vec 3) (vw 0x21 (fn + 32) 3) := by decide +kernel

theorem witness_VectorFloats : ieeeAt (seen (vec 3) (vw 0x22 0 3)).ew (seen (vec 3) (vw 0x22 0 3)).fsel = some fp32 ∧
    ∀ fn < 12, Issues (vec 3) (vw 0x22 fn 3) ∧ Issues (vec 3) (vw 0x22 (fn + 32) 3) := by decide +kernel

theorem witness_SpecialFunctions : (∀ fn < 8, Issues (vec 3) (vw 0x23 fn 0)) ∧ (sfuSpecial 2 (fp32.get false 0)).isSome = true ∧ 2 ^ 23 + 4 ≤ (fp32.round 2 false false 3 0).1 ∧
    (fp32.round 2 false false 3 0).1 + 4 < 255 * 2 ^ 23 := by decide +kernel

theorem witness_VectorMasks : (∀ n < 8, Issues (vec 3) (vw 0x24 n 3)) ∧ (∀ n < 7, Issues (vec 3) (vw 0x24 (n + 48) 3)) ∧ ∀ fn < 9, Issues (vec 3) (vw 0x25 fn 0) := by decide +kernel

theorem witness_VectorPermutes : (∀ fn ∈ [0, 1, 2, 3, 4, 6], Issues (vec 3) (vw 0x26 fn 3)) ∧ (∀ n < 8, Issues (vec 3) (vw 0x26 5 (BitVec.ofNat 5 n))) ∧
    (∀ n < 3, Issues (vec 3) (vw 0x26 5 (BitVec.ofNat 5 (16 + n)))) ∧ (∀ n < 8, Issues (vec 3) (vw 0x27 n 0)) ∧ (∀ n < 3, Issues (vec 3) (vw 0x27 (16 + n) 0)) ∧
    (seen (vec 3) (vw 0x27 0 0)).vl = 2 ^ 8 ∧ (seen (nextOf (execSetvl 4 0 3 0 0 0 0 placed)) (vw 0x27 0 0)).vl = 0 := by decide +kernel

theorem witness_VectorConversions : Issues (vec 3) (vw 0x28 2 0) ∧ Issues (vec 3) (vw 0x28 3 16) ∧ Issues (oneRow (vec 3)) (vw 0x28 0 0) ∧ Issues (oneRow (vec 3)) (vw 0x28 1 8) ∧
    Issues narrow (vw 0x28 4 0) ∧ Issues narrow (vw 0x28 5 0) ∧ ∀ fn < 6, Issues (vec 3) (vw 0x29 fn 3) := by decide +kernel

theorem witness_DatabasePrimitives : ∀ fn < 5, Issues (vec 4) (vw 0x2D fn 1) := by decide +kernel

/-- Two 64-bit elements a row, one row; the base in g1 is aligned, misaligned or not mapped. -/
def pair (base : Word) : State := oneRow (nextOf (execSetvl 4 3 4 0 0 0 0 (setG (setG placed 3 2) 1 base)))
def okProbe (r : Probe) : Bool := match r with | .ok _ l => l.length == 2 | _ => false
def badProbe (r : Probe) : Bool := match r with | .stop _ (.trap ..) => true | _ => false
def vload : VW := vw 0x2A 0 0
def pushing : State := withTile0 (pair 0x40108) fun t => { t with se := [(2, { engine true with vfile := true, reg := 2 })] }

/-- Stores of sixteen double words, which fill a granule; and the last of them again. -/
def fillItems : List (MemOp × List Piece × Word) :=
  ((List.range 16).map fun i => (.write (leBytes 8 i), [⟨0x130100 + 8 * i, 8, 0, BitVec.ofNat 64 (0x40100 + 8 * i), false⟩], BitVec.ofNat 64 (0x40100 + 8 * i)))
    ++ [(.nibble true 5, [⟨0x130178, 1, 0, 0x40178, false⟩], 0x40178)]

theorem witness_VectorMemoryWhole : (fillItems.all fun q => match q.1, q.2.1 with
      | .write bs, [x] => !x.io && decide (x.pk % 128 + x.n ≤ 128) && bs.length == x.n
      | .nibble .., [x] => !x.io && decide (x.pk % 128 + x.n ≤ 128) && x.n == 1
      | _, _ => false) = true ∧ wholeGrans fillItems = [0x2602] ∧
    fillItems = fillItems.take 3 ++ (.write (leBytes 8 3), [⟨0x130118, 8, 0, 0x40118, false⟩], 0x40118) :: fillItems.drop 4 ∧
    ((fillItems.drop 4).all fun q => q.2.1.all fun z => decide (0x1C < z.pk % 128)) = true ∧ (wholeBytes fillItems 0x2602).getD 0x18 0 = 3 ∧
    (storeEntries 7 (order placed false false false) [0x2602] (wholeBytes fillItems) [] fillItems).map (fun e => (e.id, e.full, e.va)) = [(7, true, 0x40100)] := by decide +kernel

theorem witness_VectorMemory : (∀ m < 4, Issues (pair 0x40108) (vw 0x2A (16 * m) 3)) ∧ (∀ m < 3, Issues (pair 0x40108) (vw 0x2B (16 * m) 3)) ∧ (∀ m < 5, Issues (pair 0x40108) (vw 0x2C (8 * m) 3)) ∧
    Issues narrow (vw 0x29 6 0) ∧ Issues narrow (vw 0x29 7 0) ∧ baseAligned (pair 0x40108) vload (seen (pair 0x40108) vload) ∧ ¬baseAligned (pair 0x40101) vload (seen (pair 0x40101) vload) ∧
    okProbe (vload.probe (pair 0x40108) (elementAccs vload (seen (pair 0x40108) vload) (unitPlace (pair 0x40108) vload (seen (pair 0x40108) vload)))) = true ∧
    badProbe (vload.probe (pair 0x90000) (elementAccs vload (seen (pair 0x90000) vload) (unitPlace (pair 0x90000) vload (seen (pair 0x90000) vload)))) = true ∧
    (boundTo (pair 0x40108) true 2).isSome = false ∧ (boundTo pushing true 2).isSome = true ∧
    okProbe ((vw 0x2C 0 3).probe (pair 0x40108) (elementAccs vload (seen (pair 0x40108) vload) (unitPlace (pair 0x40108) vload (seen (pair 0x40108) vload)))) = true ∧
    okProbe ((vw 0x2B 0 0).probe (pair 0x40108) (elementAccs vload (seen (pair 0x40108) vload) (unitPlace (pair 0x40108) vload (seen (pair 0x40108) vload)))) = true ∧
    (vw 0x2A 16 3).unitStride = false ∧ (seen (pair 0x40108) (vw 0x2A 16 3)).ew ≠ 4 ∧ (vw 0x2A 16 3).vmode ≠ 3 ∧ (0x40101 : Word).toNat % 4 ≠ 0 ∧
    wholeGrans [(MemOp.write (leBytes 8 7), [word8], 0x40108)] = [] := by decide +kernel

theorem witness_VectorWrites : (5 + 1) * 32 ≤ 8 * rowBytes 15 ∧ 3 < rowBytes 3 ∧ (12 : BitVec 4) &&& 3 = 0 ∧ 5 < 512 * (laneList 15).length ∧ boundTo (vec 3) true 2 = none := by decide +kernel

theorem witness_VectorLength : (curH (withHart placed fun h => { h with v := { h.v with lanes := 0 } })).v.lanes = 0 ∧ (curH placed).v.lanes ≠ 0 ∧ Ready placed [(1, false)] (some 4) ∧
    nfOk (mgetD (curH placed).fmt 1 0) 8 = false ∧ nfOk (mgetD (curH narrow).fmt 1 0) 8 = true ∧ gVal placed 3 = 0 ∧ 8 < (gVal placed 1).toNat ∧ (gVal (setG placed 1 5) 1).toNat ≤ 8 := by decide +kernel

def onHart (s : State) (f : Hart → Hart) (n : Nat) : State := setHart s n (f (hartOf s n))
/-- Hart 1 is parked; and hart 0 is thread n of a split row, hart 1 as given. -/
def parkedHart : State := onHart placed (fun h => { h with st := .parked }) 1
def splitRow (n : Nat) (other : Bool) : State :=
  onHart (withHart placed fun h => { h with v := { h.v with split := true, tnum := n, lanes := 3 } }) (fun h => { h with v := { h.v with split := other } }) 1

theorem witness_VectorThreads : featOn { placed with ctl := mset 0 placed.ctl 2 0 } 5 = false ∧ featOn placed 5 = true ∧ (curH (splitRow 0 false)).v.lanes ≠ 15 ∧ (curH placed).v.lanes = 15 ∧
    (curH placed).v.split = false ∧ (gVal placed 1).toNat % 4 = 0 ∧ lanesFull (tileOf placed 0) 15 = true ∧ lanesFull (tileOf (withTile0 placed fun t => { t with vEmpty := [0] }) 0) 15 = false ∧
    (parkedHart.harts.filter fun q => q.1 / 16 == 0 && q.2.st == .parked).map (·.1) = [1] ∧ (curH (splitRow 2 false)).v.tnum ≠ 0 ∧ lanesFull (tileOf (splitRow 0 true) 0) 3 = true ∧
    ((splitRow 2 true).harts.find? fun q => q.1 / 16 == 0 && q.2.v.split && q.2.v.tnum == 0).map (·.1) = some 1 ∧ (tileOf placed 0).aside = [] ∧
    (∃ q ∈ (splitRow 0 true).harts, q.1 / 16 = 0 ∧ q.1 ≠ 0 ∧ q.2.v.split = true) ∧ (∀ q ∈ (splitRow 0 false).harts, q.1 / 16 = 0 → q.1 ≠ 0 → q.2.v.split = false) := by decide +kernel

/-- vadd v2, v1, v3, and the same with C set; two more make it unsound. -/
def chained : List (BitVec 32) := [0x84411800, 0x84411880]

theorem witness_Convoys : (chained.all fun w => !vGated (vec 3) (vwOf w.toNat) && ((vwOf w.toNat).maj != 0x2E || (vwOf w.toNat).f == 0 || featOn (vec 3) 5) && vwOk w.toNat) = true ∧
    convoyFault (match chained.head? with | some w => w.getLsbD 7 | none => false) (chained.map fun w => vwOf w.toNat) = none ∧ (convoyFault false ((chained ++ chained).map fun w => vwOf w.toNat)).isSome = true ∧
    vPres (vec 3) (chained.map fun w => vwOf w.toNat) = none ∧ (curH (vec 3)).conv = none ∧ (tileOf (vec 3) 0).vFault = [] ∧ (curH (vec 3)).gFault = [] ∧ ((chained.map fun w => vwOf w.toNat).any fun x => x.isMem) = false ∧
    vPres (withTile0 (vec 3) fun t => { t with vEmpty := [128] }) (chained.map fun w => vwOf w.toNat) = some (Stop.wait .reg) ∧
    vPres (vec 3) [vw 0x2D 4 0] = some (Stop.trap 0x0B 0 0) ∧ vwOk 0x84411814 = true ∧ vwOk 0x84411816 = false := by decide +kernel

/-- vld v2, (g1) and vst v6, (g5); and the load with a vadd that reads v2. -/
def moving2 : List (BitVec 32) := [0xA8410000, 0xACC50080]
def collecting : List (BitVec 32) := [0xA8410000, 0x84821880]
def apart2 : State := setG (pair 0x40108) 5 0x40208

theorem witness_ConvoysOfMemory : ((moving2 ++ collecting).all fun w => !vGated apart2 (vwOf w.toNat) && (vwOf w.toNat).maj != 0x2E && vwOk w.toNat) = true ∧
    convoyFault (match moving2.head? with | some w => w.getLsbD 7 | none => false) (moving2.map fun w => vwOf w.toNat) = none ∧ vPres apart2 (moving2.map fun w => vwOf w.toNat) = none ∧
    (match convoyRuns apart2 [] [] (moving2.map fun w => vwOf w.toNat) with | some (_, rd, wr) => !overlap rd wr && !rd.isEmpty && !wr.isEmpty | none => false) = true ∧
    convoyFault (match collecting.head? with | some w => w.getLsbD 7 | none => false) (collecting.map fun w => vwOf w.toNat) = none ∧ vPres apart2 (collecting.map fun w => vwOf w.toNat) = none ∧ (vwOf 0xA8410000).isLoad = true ∧
    touches (vwOf 0x84821880) 2 (bits (curH apart2).v.vrc 3 0) (vtEw (curH apart2).v.vtype) = true ∧
    baseStop (vwOf 0xA8410000) (seen apart2 (vwOf 0xA8410000)) (gVal apart2 1) ((vwOf 0xA8410000).accs apart2) = none ∧
    okProbe ((vwOf 0xA8410000).probe apart2 ((vwOf 0xA8410000).accs apart2)) = true := by decide +kernel

theorem witness_VectorShapeKept : AllShaped (vec 3) := by decide +kernel

/-- INT8 rows of 16 elements in tile registers 2 and 3; 32 operands a row where cfg says so. -/
def tiled (cfg : Word) : State := withTile0 placed fun t => { t with tcfg := [(2, cfg), (3, cfg)] }
def mop (s : State) (kind : Nat) (begun : Bool) : MOp := { Claims.fresh s kind with a := 2, b := 3, cfgA := 0x0800F001, cfgB := 0x0800F001, flags := 8, base := 0x40100, stride := 16, begun }
def streamOf (x : MStream) : State := withTile0 placed fun t => { t with ms := [(1, x)] }
def fullStream : State := streamOf ⟨none, List.replicate 8 (mop placed 3 false), none, 0⟩

theorem witness_MatrixInstructions : ¬holdsArray (withTile0 placed fun t => { t with mx := none }) ∧ holdsArray (tiled 0x0800F001) ∧ featOn { placed with ctl := mset 0 placed.ctl 2 0 } 3 = false ∧
    featOn placed 3 = true ∧ Ready placed [(1, false), (3, false)] none ∧ tcOk 0x0800F001 (curH placed).fmt = true ∧ tcOk 0x08000000 (curH placed).fmt = false ∧
    (gVal placed 1).toNat % max 1 (tcEw 0x0800F001 / 8) = 0 ∧ (gVal (setG placed 1 3) 1).toNat % max 1 (tcEw 0x00003002 / 8) ≠ 0 ∧ tcOk 0x00003002 (curH placed).fmt = true ∧
    mmaOk (tiled 0x0800F001) 2 3 false true = true ∧ mmaOk (tiled 0x0800F001) 2 3 false false = false ∧ 8 ≤ (streamAt (tileOf fullStream 0) 1).ops.length ∧
    (streamAt (tileOf placed 0) 1).ops.length < 8 ∧ (curH placed).v.split = false ∧ (∀ x ∈ macc2vGroups 15 4, x ∉ (tileOf placed 0).vEmpty) ∧ 4 + macc2vRegs 15 ≤ 32 ∧ 32 < 31 + macc2vRegs 15 ∧
    tcCols 0x0800F001 ≤ 64 ∧ 64 < tcCols 0x08063000 ∧ (2 : BitVec 4).getLsbD 1 = true ∧ (streamAt (tileOf (streamOf ⟨some mark, [], none, 0⟩) 0) 1).err = some mark := by decide +kernel

def heading (o : MOp) (err : Option Mark) : State := streamOf ⟨err, [o], none, 0⟩

/-- The matrix streams of tile 0. -/
def rowsBy (kind : Nat) : Who := whoRows (heading (mop placed kind true) none) 0 1 (mop placed kind true)

theorem witness_MatrixSteps : (tileOf placed 0).mxBusy = false ∧ issues placed 0 = true ∧ (tileOf (heading (mop placed 2 false) none) 0).ms = [(1, streamAt (tileOf (heading (mop placed 2 false) none) 0) 1)] ∧
    (streamAt (tileOf (heading (mop placed 2 false) none) 0) 1).ops = [mop placed 2 false] ∧ (mop placed 2 false).kind = 2 ∧ (mop placed 2 false).waits = none ∧
    (streamAt (tileOf (heading (mop placed 0 true) (some mark)) 0) 1).err = some mark ∧ drainedBefore (inFlight placed false) 0 9 = false ∧ drainedBefore placed 0 9 = true ∧ (mop placed 0 true).pos < tcRows (mop placed 0 true).cfgA ∧ tcRows (mop placed 0 true).cfgA ≤ 64 ∧
    okEng (loadRow (heading (mop placed 0 true) none) (rowsBy 0) true 0x0800F001 2 0 0x40100 []).1 = true ∧
    (match (loadRow (heading (mop placed 0 true) none) (rowsBy 0) true 0x0800F001 2 0 0x90000 []).1 with | .serve _ va _ _ => va == 0x90000 | _ => false) = true ∧
    okEng (storeRow (heading (mop placed 1 true) none) (rowsBy 1) true 0x0800F001 2 0 0x40100 16) = true ∧
    repBusy (withCopies placed 102 (mop placed 1 true).seq false) (ofRows 0 (mop placed 1 true)) = true ∧
    repErr (withCopies placed 102 (mop placed 1 true).seq true) (ofRows 0 (mop placed 1 true)) = true ∧ repBusy (withCopies placed 102 (mop placed 1 true).seq true) (ofRows 0 (mop placed 1 true)) = false := by decide +kernel

theorem witness_MatrixValues : (mop placed 2 true).flags / 8 % 2 = 1 ∧ (mop placed 2 true).flags % 2 = 0 ∧ (mop placed 4 true).lanes ≠ 0 ∧ (mop placed 4 true).vd + macc2vRegs (mop placed 4 true).lanes ≤ 32 := by
  decide +kernel

/-- A loop that loads four words: tokens of load 0 go to a sink. -/
def loopWords : List Word :=
  [0x10000200200] ++ List.replicate 7 0 ++ [0x3a000, 0xffffffffff000, 0x3c001, 0xffffffffff000, 0x7fffffe0001000, 0, 0, 4, 0, 4, 0, 0]
/-- Loads, an accumulator, a store and two ports: cells 0 and 5 translate, 1 and 4 are sinks, 2 moves and 3 accumulates. -/
def gridWords : List Word :=
  [0x30300400600] ++ List.replicate 7 0 ++ [0x3a000, 0xffffffffff000, 0x3c001, 0xfffffffffe002, 0x2002, 0xffffffffff000, 0x500038003, 0xffffffffff000, 0x3c004, 0xfffffffffe003, 0x3a005, 0x1ffffffffff001, 0x7fffffe0001000, 0, 0, 4, 0, 4, 0, 0, 0x7ffc0040051101, 0, 0, 4, 0, 4, 0, 0, 0x3ffe10, 0x200029]

/-- The record of words at 0x40100 (home address 0x130100), which g1 names. -/
def recorded6 (l : List Word) : State := setG (pokeHome placed 0x130100 (l.flatMap fun w => leBytes 8 w.toNat)) 1 0x40100
def readsAs (s : State) (va : Word) (l : List Word) : Bool :=
  match readRec s (byRuns va (8 * l.length) (l.length / 16 + 2)) with | .ok _ bs => drained s s.cur && wordsOf l.length bs == l | _ => false
/-- Tile 0 holds the image l; and runs it as u. -/
def fabOfWords (l : List Word) (run : Option FabRun) : Fabric := ⟨l, 7, 0, 0, run, [], []⟩
def loaded (s : State) (l : List Word) (run : Option FabRun) : State := setG (withTile0 s fun t => { t with fab := some (fabOfWords l run) }) 1 0x40100
/-- A run whose two awls read at 0x40108 and write there. -/
def run0 : FabRun := { newRun placed 0 comp0 with awls := [(0, newAwl 0x40108), (1, newAwl 0x40108)], ports := [(0, ⟨0, false, false⟩), (1, ⟨0, false, false⟩)] }
def freezing (pos : Nat) : Freeze := ⟨false, 0x40100, 0, comp0, true, 0, 0, pos⟩

theorem witness_FabricCommands_configure : featOn State.reset 4 = false ∧ FabReady (recorded6 loopWords) 1 3 comp0 128 ∧ fabBusy (recorded6 loopWords) 0 = false ∧
    fabBusy (loaded placed gridWords (some run0)) 0 = true ∧ FabReady (loaded placed gridWords (some run0)) 1 3 comp0 128 ∧
    imgWords 0x10000200200 = loopWords.length ∧ headBad 0x30300400600 = false ∧ headBad 0x20100 = true ∧ headBad 0x20000 = false ∧ headBad 0x2200000 = true ∧ headBad 0x2000000 = false ∧
    imgBad (imgOf loopWords) = false ∧ imgBad (imgOf gridWords) = false ∧ imgBad (imgOf (gridWords.set 1 1)) = true ∧ (imgOf gridWords).join = false ∧ claimBad placed (imgOf gridWords) = false := by decide +kernel
theorem witness_FabricCommands_image : readsAs (flushHart (recorded6 loopWords) 0) 0x40100 loopWords = true := by decide +kernel
theorem witness_FabricCommands_head : readsAs (flushHart (recorded6 loopWords) 0) 0x40100 (loopWords.take 8) = true := by decide +kernel

/-- The arguments of the loop, and the cut of its run at its start, at 0x40200. -/
def argued : State := setG (loaded (pokeHome placed 0x130100 (leBytes 8 0x40108)) loopWords none) 1 0x40100
def loopRun : FabRun := { newRun placed 0 comp0 with awls := [(0, newAwl 0x40108)] }
def loopCut : List Word := cutWords (fabOfWords loopWords none) (imgOf loopWords) loopRun
def cutAt (s : State) : State := setG (pokeHome s 0x130200 (loopCut.flatMap fun w => leBytes 8 w.toNat)) 1 0x40200

theorem witness_FabricCommands_grant : FabGrant (setG placed 1 0x40104) 1 3 comp0 ∧ fabBusy (setG placed 1 0x40104) 0 = false ∧ (gVal (setG placed 1 0x40104) 3).toNat % 8 = 0 ∧
    (gVal (setG placed 1 0x40104) 1).toNat % 8 ≠ 0 ∧ FabGrant (setG placed 3 4) 1 3 comp0 ∧ (gVal (setG placed 3 4) 3).toNat % 8 ≠ 0 ∧ FabGrant (loaded placed gridWords (some run0)) 1 3 comp0 ∧
    FabGrant (setG argued 1 0x40104) 1 3 comp0 ∧ ownFabric (setG argued 1 0x40104) ≠ none ∧ ownFabric (setG placed 1 0x40104) = none := by decide +kernel
theorem witness_FabricCommands_run : FabReady argued 1 3 comp0 8 ∧ ownFabric argued = some (fabOfWords loopWords none) ∧ readsAs (flushHart argued 0) 0x40100 [0x40108] = true ∧
    (imgOf loopWords).narg = 1 ∧ ((imgOf loopWords).awls.all fun x => !baseBad [0x40108] x) = true ∧ ownFabric placed = none ∧ FabReady (setG placed 1 0x40100) 1 3 comp0 8 := by decide +kernel
theorem witness_FabricCommands_ports (s : State) (args : List Word) : ∀ K, readPats s args (imgOf loopWords).ports [] K = K s [] := fun _ => rfl
theorem witness_FabricCommands_resume : FabReady (cutAt argued) 1 3 comp0 128 ∧ ownFabric (cutAt argued) = some (fabOfWords loopWords none) ∧
    cutSize (imgOf loopWords) = loopCut.length ∧ cutBad (fabOfWords loopWords none) (imgOf loopWords) loopCut = false ∧
    cutBad (fabOfWords loopWords none) (imgOf loopWords) (loopCut.set 1 1) = true ∧ cutPats argued 0 0x40200 loopCut (imgOf loopWords).ports = some [] ∧
    cutPats placed 0 0x40200 loopCut (imgOf gridWords).ports = none ∧
    cutPats (withPart0 placed fun p => { p with cuts := [⟨0x40200, loopCut, [(0, [0x40100])]⟩] }) 0 0x40200 loopCut (imgOf gridWords).ports = some [(0, [0x40100])] := by decide +kernel
theorem witness_FabricCommands_halt : FabReady (setG placed 1 0x40100) 1 3 comp0 128 ∧ drained (flushHart (setG placed 1 0x40100) 0) 0 = true ∧ fabOf (flushHart placed 0) 0 = none ∧
    run0.freeze = none ∧ run0.stopped = false ∧ runOver (imgOf gridWords) run0 = false ∧ FabReady (loaded placed gridWords (some run0)) 1 3 comp0 128 ∧
    drained (flushHart (loaded placed gridWords (some run0)) 0) 0 = true ∧ ({ run0 with stopped := true } : FabRun).stopped = true := by decide +kernel
theorem witness_FabricCommands_haltLater : FabReady (setG storing 1 0x40100) 1 3 comp0 128 ∧ drained (flushHart (setG storing 1 0x40100) 0) 0 = false := by decide +kernel

/-- A run that freezes, with k more FHALTs behind it. -/
def queuedHalts (k : Nat) : State :=
  setG (withTile0 placed fun t => { t with fab := some { fabOfWords gridWords (some { run0 with freeze := some (freezing 0) }) with halts := List.replicate k (freezing 0) } }) 1 0x40100
theorem witness_FabricCommands_haltsQueue : ∀ k ∈ [2, 3], FabReady (queuedHalts k) 1 3 comp0 128 ∧ drained (flushHart (queuedHalts k) 0) 0 = true ∧
    ((fabOf (flushHart (queuedHalts k) 0) 0).map fun f => (f.lead, f.halts.length, f.run.all fun u => u.freeze.isSome)) = some (0, k, true) := by decide +kernel

/-! Cells. Cell 2 moves, cell 3 accumulates and cell 1 is a sink. -/

def cellNo (n : Nat) : FCell := ((imgOf gridWords).cells.drop n).headD ⟨0, 0, 0, 0, 0, [], 0, 0⟩
def queuesAt (l : List (Nat × List Tok)) : FabRun := { run0 with queues := l }
/-- Every input of each of the three cells holds x. -/
def fedWith (x : Tok) : FabRun := queuesAt [(4, [x]), (8, [x]), (12, [x])]

theorem witness_FabricCells_runs : Runs (loaded placed gridWords (some run0)) 0 (fabOfWords gridWords (some run0)) (imgOf gridWords) run0 := ⟨rfl, rfl, rfl⟩
theorem witness_FabricCells : ((imgOf gridWords).cell 2 = some (cellNo 2) ∧ (imgOf gridWords).cell 3 = some (cellNo 3) ∧ (imgOf gridWords).cell 1 = some (cellNo 1)) ∧
    (cellNo 2).op = 1 ∧ (cellNo 3).op = 28 ∧ (cellNo 1).op = 30 ∧ (cellNo 2).pos = 2 ∧ (∀ n ∈ [1, 2, 3], (cellNo n).fedInputs = [0]) ∧ run0.frozen = [] ∧
    (∀ n ∈ [1, 2, 3], inputHead run0 (cellNo n) 0 = none) ∧
    (∀ n ∈ [1, 2, 3], inputHead (fedWith (dataTok 7)) (cellNo n) 0 = some (dataTok 7) ∧ inputHead (fedWith endTok) (cellNo n) 0 = some endTok ∧
      markHead (fedWith (dataTok 7)) (cellQ (cellNo n).pos 0) = false ∧ markHead (fedWith endTok) (cellQ (cellNo n).pos 0) = false) ∧
    (∀ n ∈ [2, 3], room (fedWith endTok) (feeds (imgOf gridWords) n) 2 = true) ∧ room (queuesAt [(4, List.replicate 4 endTok)]) (feeds (imgOf gridWords) 2) 1 = false ∧
    markHead { run0 with marks := [8] } (cellQ (cellNo 2).pos 0) = true := by decide +kernel
/-- A cell of two fed inputs, data and an end at its heads. -/
def adder : FCell := ⟨2, 2, 0, 0, 0, [0x1000, 0x1000, 0x1FFF, 0x1FFF], 0, 0⟩
theorem witness_FabricCells_mixed : adder.fedInputs = [0, 1] ∧ inputHead (queuesAt [(8, [dataTok 7]), (9, [endTok])]) adder 0 = some (dataTok 7) ∧
    inputHead (queuesAt [(8, [dataTok 7]), (9, [endTok])]) adder 1 = some endTok := by decide +kernel

/-! Awls. Awl 0 loads, awl 1 stores. -/

def awlNo (n : Nat) : FAwl := ((imgOf gridWords).awls.drop n).headD (awlEntry [])
def page : Xlat := match xlate placed 0 0 0x40108 .write true with | .ok _ x => x | _ => ⟨0, 0, 0, 0, 0, false, false, 0, false⟩
/-- The extent of the address a, asked for with write intent or not. -/
def extentOf (a : Word) (wr : Bool) : Extent := { va0 := a, pk := page.pk a, left := page.vbase + page.size - a.toNat, part := 0, wr, vcid := page.vcid }
def held (wr : Bool) : Extent := extentOf 0x40108 wr
def one (f : Awl → Awl) : FabRun := { loopRun with awls := [(0, f (newAwl 0x40108))] }
def loopOn (u : FabRun) : State := loaded placed loopWords (some u)
def loopImg : FImg := imgOf loopWords
def load0 : FAwl := (loopImg.awls.headD (awlEntry []))
def load1 (f : Awl → Awl) : Awl := f (newAwl 0x40108)
/-- A burst of n elements of the store awl, which write under the mask m. -/
def open1 (n : Nat) (m : BitVec 128) : Burst := ⟨0x2602, (held true).vcid, 0x40100, true, 0, m, n, 0, false, false⟩
/-- The store awl gathers in a burst of the granule of its next place and has a token to store. -/
def storing1 : FabRun := { run0 with awls := [(1, { newAwl 0x40108 with busy := true, extent := some (held true), burst := some (open1 0 0) })], queues := [(2 ^ 15 + 4, [dataTok 7])] }

theorem witness_FabricAwls_held (x : Awl) : Runs (loopOn (one fun _ => x)) 0 (fabOfWords loopWords (some (one fun _ => x))) loopImg (one fun _ => x) ∧ mfind (one fun _ => x).awls 0 = some x ∧
    loopImg.awl 0 = some load0 ∧ (one fun _ => x).stopped = false ∧ ({ x with busy := true } : Awl).busy = true := ⟨⟨rfl, rfl, rfl⟩, rfl, by decide +kernel, rfl, rfl⟩
theorem witness_FabricAwls_generates : load0.store = false ∧ load0.oout = false ∧ load0.idx = false ∧ load0.oin = none ∧ awlTotal load0 = 4 ∧ (newAwl 0x40108).gen = 0 ∧
    (newAwl 0x40108).emitted = 0 ∧ (newAwl 0x40108).req = none ∧ (newAwl 0x40108).extent = none ∧ (0x40110 - (held false).va0).toNat < (held false).left ∧ (newAwl 0x40108).endSent = false ∧ loopRun.freeze = none ∧
    (nowAddr loopRun load0 (newAwl 0x40108)).toNat % 2 ^ load0.esz = 0 ∧ (nowAddr loopRun load0 (newAwl 0x40109)).toNat % 2 ^ load0.esz ≠ 0 := by decide +kernel
theorem witness_FabricAwls_emits : feeds loopImg (awlSrc 0) = [4] ∧ room loopRun (feeds loopImg (awlSrc 0)) 1 = true ∧ awlTotal load0 ≤ (load1 fun x => { x with gen := 4, emitted := 3 }).gen ∧
    mfind (load1 fun x => { x with gen := 4, emitted := 3, buf := [(3, 9)] }).buf 3 = some 9 := by decide +kernel
theorem witness_FabricAwls_translates : okX (xlate (loopOn loopRun) (tileOfCell loopImg 0 load0.xsrc) 0 0x40108 (awlIntent loopImg load0) true) = true ∧
    okX (xlate (loopOn loopRun) (tileOfCell loopImg 0 load0.xsrc) 0 0x90000 (awlIntent loopImg load0) true) = false ∧ nowAddr loopRun load0 (newAwl 0x90000) = 0x90000 ∧
    (load1 fun x => { x with answer := some 1 }).answer = some 1 ∧ (newAwl 0).answer = none := by decide +kernel
theorem witness_FabricAwls_accesses : miuRefuses (loopOn loopRun) (fabOfWords loopWords none) load0 (held false) 0x40108 = none ∧
    miuRefuses (loopOn loopRun) (fabOfWords loopWords none) load0 (held false) 0x3FFFC = some 0 ∧
    miuRefuses (loopOn loopRun) (fabOfWords loopWords none) load0 (held false) 0x50000 = some 0 ∧
    miuRefuses (loopOn loopRun) (fabOfWords loopWords none) load0 (held false) 0x4FFFC = none ∧
    (match accRead (loopOn loopRun) (whoAwl (fabOfWords loopWords none) loopImg 0 0 (.awlLoadReturn 0 0)) (awlPiece load0 (held false) 0x40108) with | .ok .. => true | _ => false) = true ∧
    waitAcc (accRead { loopOn loopRun with txns := [(0x2602, ⟨0, 0, [], false, []⟩)] } (whoAwl (fabOfWords loopWords none) loopImg 0 0 (.awlLoadReturn 0 0)) (awlPiece load0 (held false) 0x40108)) = true := by decide +kernel
def storeWho : Who := whoAwl (fabOfWords gridWords none) (imgOf gridWords) 0 1 (.miuBurstClose 0 1)
theorem witness_FabricAwls_stores : miuRefuses (loaded placed gridWords (some storing1)) (fabOfWords gridWords none) (awlNo 1) (held true) 0x40108 = none ∧
    (awlNo 1).store = true ∧ (imgOf gridWords).awl 1 = some (awlNo 1) ∧ (awlPiece (awlNo 1) (held true) 0x40108).pk / 128 = 0x2602 ∧
    joinBurst (awlNo 1) (load1 fun x => { x with burst := some (open1 0 0) }) (awlPiece (awlNo 1) (held true) 0x40108) = some (open1 0 0) ∧
    (joinBurst (awlNo 1) (newAwl 0x40108) (awlPiece (awlNo 1) (held true) 0x40108)).isSome = true ∧
    joinBurst (awlNo 1) (load1 fun x => { x with burst := some { open1 0 0 with gk := 0x2603 } }) (awlPiece (awlNo 1) (held true) 0x40108) = none ∧
    burstDue (loaded placed gridWords (some storing1)) storing1 (newAwl 0x40108) (open1 1 0xF00) = false ∧
    burstDue (loaded placed gridWords (some storing1)) storing1 (newAwl 0x40108) { open1 1 0xF00 with send := true } = true ∧
    okAcc (burstWrite (loaded placed gridWords (some storing1)) storeWho (open1 1 0xF00)) = true ∧
    waitAcc (burstWrite { loaded placed gridWords (some storing1) with txns := [(0x2602, ⟨0, 0, [], false, []⟩)] } storeWho (open1 1 0xF00)) = true ∧
    (held false).part = (fabOfWords gridWords none).part ∧ (held false).wr = false := by decide +kernel

/-! Ports. Port 0 reads, port 1 writes; each moves four words. -/

def portEng (write : Bool) : SEng := { engine write with fabric := true, recd := [0x40100, 2, 4, 0, 4, 0, 0, 0] }
def porting (u : FabRun) : State := withTile0 (loaded placed gridWords (some u)) fun t => { t with se := [(0, portEng false), (1, portEng true)] }
/-- Port 1's queue holds x. -/
def atPort (x : Tok) : FabRun := queuesAt [(2 ^ 16 + 4, [x])]

theorem witness_FabricPortsAndEnds_ports : ((imgOf gridWords).ports.map fun p => (p.q, p.write)) = [(0, false), (1, true)] ∧ mfind run0.ports 0 = some ⟨0, false, false⟩ ∧
    mfind run0.ports 1 = some ⟨0, false, false⟩ ∧ mfind (tileOf (porting run0) 0).se 0 = some (portEng false) ∧ (portEng false).stall = none ∧ (portEng true).err = none ∧
    patTotal (portEng false).recd = 4 ∧ room run0 (feeds (imgOf gridWords) (portSrc 0)) 1 = true ∧
    okEng (engRead (porting run0) (whoEng (portEng false) 0 0 (.portElement 0 0)) true (patAddr (portEng false).recd 0) 4) = true ∧
    okEng (engRead (porting run0) (whoEng (portEng false) 0 0 (.portElement 0 0)) true (patAddr (portEng false).recd 3) 4) = true ∧
    headAt (atPort (dataTok 7)) (portQ 1) = some (dataTok 7) ∧ headAt (atPort endTok) (portQ 1) = some endTok ∧
    okEng (engWrite (porting (atPort (dataTok 7))) (whoEng (portEng true) 0 1 (.portElement 0 1)) true (patAddr (portEng true).recd 0) (leBytes 4 7)) = true := by decide +kernel

/-- Port 1 has taken values that it has not written: one of two in a granule whose rest it does not write, or all of a granule. -/
def takenEng : SEng := { portEng true with data := [7], mask := [true] }
def wholeEng (n : Nat) : SEng := { portEng true with recd := [0x40100, 2, 32, 0, 4, 0, 0, 0], data := List.replicate n 7, mask := List.replicate n true }
def portingOf (e : SEng) (u : FabRun) : State := withTile0 (loaded placed gridWords (some u)) fun t => { t with se := [(1, e)] }

theorem witness_FabricPortsAndEnds_gathers : takenEng.data ≠ [] ∧ patTotal takenEng.recd - (0 + takenEng.data.length) ≠ 0 ∧ takenEng.data.length * patBytes takenEng.recd < 4096 ∧
    headAt run0 (portQ 1) = none ∧ takenEng.mask.headD true = true ∧ (dropPush (wholeEng 32) (List.range 32)).mask.headD true = false ∧
    nextPush (wholeEng 32).recd 0 (wholeEng 32).data (wholeEng 32).mask false = some (List.range 32) ∧ patTotal (wholeEng 32).recd - (0 + (wholeEng 32).data.length) = 0 ∧
    okEng (engWrite (portingOf (wholeEng 32) run0) (whoEng (wholeEng 32) 0 1 (.portElement 0 1)) true (pushBytes (wholeEng 32).recd 0 (wholeEng 32).data (List.range 32)).1
      (pushBytes (wholeEng 32).recd 0 (wholeEng 32).data (List.range 32)).2) = true ∧
    (portEng true).data = [9] ∧ ({ portEng true with data := [] } : SEng).data = [] ∧ wholePos (portEng true).recd 0 = none ∧ wholePos (wholeEng 0).recd 0 = some (List.range 32) ∧ (wholeEng 0).data = [] ∧
    okEng (engXlate (portingOf (wholeEng 0) (atPort (dataTok 7))) (whoEng (wholeEng 0) 0 1 (.portElement 0 1)) true 0x40100 4 .write (fun v _ => .ok v [])) = true := by decide +kernel

def sunk : FabRun := { loopRun with sinks := [1] }
def frozenRun (pos : Nat) : FabRun := { loopRun with freeze := some (freezing pos), frozen := [1], awls := [(0, { newAwl 0x40108 with frozen := true })] }
theorem witness_FabricPortsAndEnds_ends : runOver loopImg loopRun = false ∧ runOver loopImg sunk = true ∧ sunk.err = none ∧ sunk.freeze = none ∧ (loopOn sunk).reps = [] ∧
    allFrozen loopImg { loopRun with freeze := some (freezing 0) } = false ∧ allFrozen loopImg (frozenRun 0) = true ∧ runOver loopImg (frozenRun 0) = false ∧ (freezing 0).swap = false ∧
    (cutWords (fabOfWords loopWords none) loopImg (frozenRun 0)).length = 114 ∧ (freezing 128).pos = 128 ∧
    okEng (engWrite (loopOn (frozenRun 0)) (whoCut 0 0) true 0x40100 (leBytes 8 7)) = true ∧
    repBusy (withCopies (loopOn (frozenRun 128)) 103 0 false) (ofCut 0) = true ∧ repBusy (loopOn (frozenRun 128)) (ofCut 0) = false ∧ (loopOn loopRun).clock < 65536 := by decide +kernel

/-- The page of 0x40000 takes pod operations, and package 3's partition 5 is partition 0's peer. -/
def peered : State := setCtl (pokeHome placed 0x120020 (leBytes 8 (0x16F + 0x130000 * 4))) 0x0C010000 0x45000000
def podOp (pkg : Nat) (va : Word) : PodIn := ⟨0, pkg, 5, 1, 2, va, none, 0, 0⟩
def podRefused (s : State) (k : AccKind) (va : Word) (n : Nat) : Bool := match podPieces s 0 va n k (n / 128 + 2) with | .bad .. => true | _ => false
def podOne (s : State) (k : AccKind) (va : Word) (n : Nat) : Bool := match podPieces s 0 va n k (n / 128 + 2) with | .ok _ l => l == [⟨0x130108, 8, 64, va, false⟩] | _ => false
def podWord : Piece := ⟨0x130108, 8, 64, 0x40108, false⟩
def busyGran (s : State) : State := { s with txns := [(0x2602, ⟨0, 0, [], false, []⟩)] }

def op3 : PodIn := podOp 3 0x40108
def putEv : Event := .incomingPut op3 (leBytes 8 7)
def getEv : Event := .incomingGet op3 8
def ramoEv : Event := .incomingRamo op3 0 true 7 0
/-- An operation is under way; and an earlier one of its circuit has the same word still to write. -/
def underWay : State := letIn peered op3 0x40108 [podWord] true
def behind : State := letIn (letIn peered { op3 with ocmd := 1 } 0x40108 [podWord] true) op3 0x40108 [podWord] true

/-- A raise whose payload is done, behind the payload of another for the same counter; and alone. -/
def tagged3 (ocmd : Nat) : PodIn := { op3 with ocmd, tag := some ⟨0, 3⟩, raises := 1, oe := 1 }
def raiseBehind : State := letIn (letIn peered (tagged3 1) 0x40108 [podWord] true) (tagged3 2) 0x40108 [] true

theorem witness_PodArrivals_raises : raisesWait raiseBehind (tagged3 2) = true ∧ raisesWait (letIn peered (tagged3 2) 0x40108 [] true) (tagged3 2) = false ∧ raisesWait underWay op3 = false ∧
    (tagged3 2).tag = some ⟨0, 3⟩ ∧ (tagged3 2).raises ≠ 0 ∧ op3.oe = 0 := by decide +kernel

theorem witness_PodArrivals : admits peered op3 ∧ ¬admits peered (podOp 4 0x40108) ∧ ¬admits placed op3 ∧ admittedOp peered op3 = none ∧ admittedOp placed op3 = none ∧
    (admittedOp underWay op3).map (·.pieces) = some [podWord] ∧ podBehind underWay op3 [podWord] = false ∧ podBehind behind op3 [podWord] = true ∧
    (∀ k ∈ [AccKind.read, .write, .amo], podOne peered k 0x40108 8 = true ∧ podRefused placed k 0x40108 8 = true) ∧ podRefused peered .write 0x4FFFC 8 = true := by decide +kernel
theorem witness_PodArrivals_performed : okAcc (accWrite underWay (whoPod 0 putEv) podWord (leBytes 8 7) true) = true ∧ waitAcc (accWrite (busyGran underWay) (whoPod 0 putEv) podWord (leBytes 8 7) true) = true ∧
    okAcc (accWrite underWay (whoPod 0 (.incomingMcast op3 (leBytes 8 7))) podWord (leBytes 8 7) true) = true ∧
    okAcc (rredPiece underWay (whoPod 0 (.incomingRred op3 0 true (leBytes 8 7))) 0 8 podWord (leBytes 8 7) 64) = true ∧ okAcc (accReads underWay (whoPod 0 getEv) [podWord]) = true ∧
    waitAcc (accReads (busyGran underWay) (whoPod 0 getEv) [podWord]) = true ∧ errAcc (accReads { underWay with psn := [0x2602] } (whoPod 0 getEv) [podWord]) = true ∧
    okAcc (accRmw underWay (whoPod 0 ramoEv) podWord (amoBytes 0 true 7 0)) = true ∧ waitAcc (accRmw (busyGran underWay) (whoPod 0 ramoEv) podWord (amoBytes 0 true 7 0)) = true := by decide +kernel

def ramoCmd : Cmd := { Cmd.blank 5 0 0 0 true with kind := 64, dpkg := 3 }
/-- A multicast to group 2, whose member is package 3. -/
def mcastCmd : Cmd := { Cmd.blank 6 0 0 0 true with kind := 80, dpkg := 2 }
def mcasting : State := { withTile0 peered (fun t => { t with cq := [ramoCmd, mcastCmd] }) with groups := [(2, 8)] }
def podEntry (sent : Bool) (due : Nat) : PodM := ⟨9, 0, 3, 0, 8, 0x802, [(0, 7)], none, [], false, sent, due, false, 0⟩
def mergingPod (sent : Bool) (due : Nat) : State := { peered with podMerge := [podEntry sent due] }
def memberT (more : Bool) (due : List Nat) : McastT := ⟨0, 6, [3, 4], more, due, []⟩
/-- The second packet of a multicast of 300 bytes. -/
def packet2 (due : List Nat) : Cmd × State :=
  let c := { mcastCmd with gc := 300, pos := 1, buf := List.replicate 300 7 }
  (c, { withTile0 peered (fun t => { t with cq := [c] }) with groups := [(2, 8)], mcasts := [memberT true due] })

theorem witness_PodAnswers : cmdOf mcasting 0 5 = some ramoCmd ∧ tilePart mcasting 0 = some 0 ∧ ramoCmd.k = 8 ∧ cmdOf mcasting 0 6 = some mcastCmd ∧ mcastCmd.k = 10 ∧ elemAt placed 0 0 = none ∧
    ((mergingPod true 2).podMerge.find? fun m => m.id == 9) = some (podEntry true 2) ∧ (podEntry true 2).due = 2 ∧ ((mergingPod true 1).podMerge.find? fun m => m.id == 9) = some (podEntry true 1) ∧
    (podEntry true 1).cmds = [] ∧ ((mergingPod false 0).podMerge.find? fun m => m.id == 9) = some (podEntry false 0) ∧ peerOf (mergingPod false 0) 0 3 = some 5 ∧
    pathFenced (mergingPod false 0) 3 = false ∧ pathWaits (mergingPod false 0) 3 = false ∧ pathWaits { mergingPod false 0 with xbarDown := true } 3 = true ∧
    pathFenced { mergingPod false 0 with xbarDown := true } 3 = false ∧ mergeRuns 8 (podEntry false 0).vals = [(0, leBytes 8 7)] ∧ mergeReady (mergingPod false 0) (podEntry false 0) = true ∧
    mergeReady { mcasting with podMerge := [{ podEntry false 0 with cmds := [(0, 6)] }] } { podEntry false 0 with cmds := [(0, 6)] } = false ∧
    raisesOf (mergingPod false 0) (podEntry false 0).tag (podEntry false 0).cmds = some (0, 0) ∧ groupMembers mcasting 0 2 = [3] ∧
    peerOf mcasting 0 3 = some 5 ∧ raiseHeld mcasting mcastCmd = false ∧ mcastCmd.answered = false ∧ mcastCmd.pos < mcastPackets mcastCmd ∧ mcastCmd.tag = none ∧ mcasting.mcasts = [] ∧
    cmdOf (packet2 [3]).2 0 6 = some (packet2 [3]).1 ∧ (packet2 [3]).1.pos < mcastPackets (packet2 [3]).1 ∧ ((packet2 [3]).2.mcasts.find? fun x => x.tile == 0 && x.cmd == 6) = some (memberT true [3]) ∧ mcasting.xbarDown = false ∧ mcasting.xbarFenced = false ∧ mcasting.linksDown = [] ∧
    3 ∉ (memberT true [4]).due ∧ (memberT false [3]).more = false ∧ (memberT false [3]).due = [3] ∧ 3 ∈ (memberT false [3, 3]).due ∧ 3 ∈ (memberT false [3, 3]).due.erase 3 := by decide +kernel

/-! Routers. Entry 0 of cluster 0 adds what tiles 0 and 1 contribute at 0x1000 to 0x1FFF for this package. -/

def routed (mask : Nat) : State := setCtl (setCtl (setCtl placed (rtOff 0 0 0) (BitVec.ofNat 64 (1 + mask * 2 ^ 9 + 0x1FF * 2 ^ 17))) (rtOff 0 0 1) 0x1000) (rtOff 0 0 2) 0x1000
def contribution (t a : Nat) : Contrib := ⟨t, 0, 0x1FF, 0, a, leBytes 4 7, none, 0⟩
def relem (sent leaving : Bool) (dpkg : Nat) : RElem := ⟨0, 4, 0, dpkg, 0, 0, 0x1000, none, [(1, some 5, 0)], 0, leaving, sent⟩
def gathering (mask : Nat) (y : RElem) : State := { routed mask with relems := [y] }
def rep0 : Rep := ⟨0, 0, 0, 0, 0x130100, 128, 2, 1, false⟩

theorem witness_RouterSteps_entries : rtReduce placed 0 0 0x1FF 0 0x1000 4 = none ∧ rtReduce (routed 3) 0 0 0x1FF 0 0x1000 4 = some 0 ∧ rtReduce (routed 3) 0 0 0x1FF 0 0x1FFC 4 = some 0 ∧
    rtReduce (routed 3) 0 0 0x1FF 0 0xFFC 4 = none ∧ rtReduce (routed 3) 0 0 0x1FF 0 0x1FFD 4 = none ∧ rtReduce (routed 3) 2 0 0x1FF 0 0x1000 4 = none ∧
    (routed 3).relems = [] ∧ rtMask (routed 3) 0 0 = 3 ∧ rtMask (routed 1) 0 0 = 2 ^ 0 ∧ (relem false false 0x1FF).leaving = false ∧ (∀ z ∈ (relem false false 0x1FF).vals, z.1 ≠ 0) ∧
    elemAt (gathering 3 (relem false false 0x1FF)) 0 4 = some (relem false false 0x1FF) ∧ (routed 3).clock < 4096 ∧ 4096 ≤ ({ routed 3 with clock := 4096 }).clock ∧ elemAt placed 0 4 = none := by decide +kernel
theorem witness_RouterSteps_values : ({ relem false true 3 with vals := [(1, none, 0)] }).value = none ∧ (relem false true 3).value = some 5 ∧ raisesOf peered (relem false true 3).tag [] = some (0, 0) ∧ peerOf peered 0 3 = some 5 ∧ pathFenced peered 3 = false ∧
    pathWaits peered 3 = false ∧ 0 ≤ (rep0.pa : Int) + rep0.stride * rep0.next ∧ okAcc (copyWrite placed 0 0 0x130180 [7] (.routerReplicate 0 0 0x130100 [7])) = true ∧
    waitAcc (copyWrite { placed with txns := [(0x2603, ⟨0, 0, [], false, []⟩)] } 0 0 0x130180 [7] (.routerReplicate 0 0 0x130100 [7])) = true ∧ Machine.queued placed (.routerReplicate 0 0 0x130100 [7], 0) = false ∧ okAcc (copyWrite placed 0 0 0x130100 [7] (.routerReplicate 0 0 0x130100 [7])) = true := by decide +kernel
theorem witness_RouterSteps_writes : (∀ i < 8, inTileSet placed 1 (0 * 8 + i) = false) ∧ (∃ i < 8, inTileSet (routed 3) 0 (0 * 8 + i) = true) ∧ 1 % 4 ≠ 0 ∧ bits (rtWord (routed 3) 0 (1 / 4) 0) 31 26 = 0 ∧ bitOf (rtWord (routed 3) 0 0 0) 0 = true ∧
    bits (rtWord (routed 3) 0 0 0) 31 26 ≠ 1 ∧ rtValid (routed 3) 0 0 0 (0x201 + 0x1FF * 2 ^ 17) = true ∧ rtValid (routed 3) 0 0 0 (0x205 + 0x1FF * 2 ^ 17) = false ∧
    rtValid (routed 3) 0 1 0 (0x201 + 0x1FF * 2 ^ 17) = true ∧ rtValid (routed 3) 0 0 0 (0x301 + 2 ^ 32) = false := by decide +kernel

theorem witness_CrossbarAndLinks : placed.xbarDown = false ∧ ({ placed with xbarDown := true }).xbarFails < 2 ∧ 2 ≤ ({ placed with xbarDown := true, xbarFails := 2 }).xbarFails ∧
    podEntry true 1 ∈ (mergingPod true 1).podMerge ∧ (podEntry true 1).sent = true ∧ (podEntry true 1).dpkg = 3 ∧ (podEntry true 1).due ≠ 0 := by decide +kernel

/-! ## Coherence. Granule 0x2602 is device memory of partition 0; tile 0 and its pool hold copies. -/

/-- The entry of the granule names agents l. -/
def entryOf (owned : Bool) (l : List Nat) : DirE := { dirEntry owned with ptrs := l }
def inDir (owned : Bool) (l : List Nat) : State := setDir placed 0x2602 (entryOf owned l)
/-- Sixteen other granules of the set. -/
def fullSet : State := { placed with dir := (List.range 16).map fun i => ((i + 1) * 2 ^ 17 * 4 + 0x2602, entryOf true [1]) }
def gates (s : State) (a gk : Nat) (wr : Bool) (e : Event) : Bool := match gate s a gk wr e with | .pass => true | _ => false
def pieceNow (mode : Nat) : State := { placed with pieces := [pieceOver mode] }
def isClash (c : Clash) (n : Nat) : Bool := match c with | .free => n == 0 | .held _ => n == 1 | .trap => n == 2
def hostGran : Nat := 2 ^ 45

/-- Tile 0 asks for the granule, for its hart's access 3. -/
def askedBy (asker : Option (Event × Nat)) : State := setCopy placed 0 0x2602 ⟨.im, 0, 0, false, none, 0, 0, asker⟩
theorem witness_RequestsAtTheHome_errors : (copyOf (askedBy (some (.homeServedAccess 3, 4))) 0 0x2602).bind (·.asker) = some (.homeServedAccess 3, 4) ∧
    (Event.homeServedAccess 5, 6) ≠ (Event.homeServedAccess 3, 4) ∧ (copyOf (askedBy none) 0 0x2602).bind (·.asker) = none := by decide +kernel

theorem witness_RequestsAtTheHome : gates placed 0 0x2602 false (.gets 0 0x2602) = true ∧ gates { placed with fenced := [0] } 0 0x2602 false (.gets 0 0x2602) = false ∧ 0 ∉ placed.fenced ∧
    (stackOf placed (granStack 0x2602)).stopped = false ∧ (mfind (busyGran placed).txns 0x2602).isSome = true ∧ mfind placed.txns 0x2602 = none ∧ homeAllows placed 8 0x2602 = false ∧
    homeAllows placed 0 0x2602 = true ∧ (∀ e ∈ [Event.getm 0 0x2602, .upg 0 0x2602],
      isClash (clash (pieceNow 2) 0x2602 true 0 100 (some (e, 0))) 2 = true ∧ isClash (clash (pieceNow 0) 0x2602 true 0 100 (some (e, 0))) 1 = true ∧ isClash (clash placed 0x2602 true 0 100 (some (e, 0))) 0 = true) ∧
    vote { entryOf true [1] with ida := 1, idb := 2, idc := 3 } = none ∧ (vote { entryOf true [1] with bad := true }).isSome = true ∧ isHostGran hostGran = true ∧
    reqPart placed 0 hostGran ≠ some (ownp (newDir hostGran true [1] 1)) ∧ (vote (newDir hostGran true [1] 1)).isSome = true ∧ homeAllows placed 0 hostGran = true ∧
    0x2602 ∈ ({ placed with psn := [0x2602] }).psn ∧ (entryOf true [1]).bad = false ∧ (vote (entryOf true [1])).isSome = true ∧ dirOf fullSet 0x2602 = none ∧ (setMates fullSet 0x2602).length = 16 ∧ (setMates placed 0x2602).length < 16 ∧
    ((setMates fullSet 0x2602).find? fun g => (mfind fullSet.txns g).isNone) = some (2 ^ 19 + 0x2602) ∧ dirOf fullSet (2 ^ 19 + 0x2602) = some (entryOf true [1]) ∧
    probeSet fullSet (entryOf true [1]) homeMark = [1] ∧ gates fullSet 0 0x2602 true (.getm 0 0x2602) = true := by decide +kernel

def gran : Nat := 0x2602
def txn (kind req : Nat) (due leave : List Nat) : Txn := ⟨kind, req, due, false, leave⟩
/-- The granule's entry with transaction t. -/
def inTxn (owned : Bool) (l : List Nat) (t : Txn) : State := { inDir owned l with txns := [(gran, t)] }

/-- A read-intent piece covers the granule. -/
def sharedPiece : State := { placed with pieces := [{ pieceOver 0 with wr := false }] }

theorem witness_HomeProtocol_requests : (∀ l ∈ [[1], [0, 1], [1, 2, 3, 4]], gates (inDir false l) 0 gran false (.gets 0 gran) = true ∧ gates (inDir false l) 0 gran true (.getm 0 gran) = true ∧
      gates (inDir false l) 0 gran true (.upg 0 gran) = true) ∧ gates (inDir true [1]) 0 gran false (.gets 0 gran) = true ∧ gates (inDir true [1]) 0 gran true (.getm 0 gran) = true ∧
    gates (inDir true [0]) 0 gran true (.upg 0 gran) = true ∧ gates { inDir true [1] with fenced := [1] } 0 gran false (.gets 0 gran) = true ∧
    gates placed 0 gran false (.gets 0 gran) = true ∧ gates placed 0 gran true (.getm 0 gran) = true ∧ roomy placed gran ∧ dirOf placed gran = none ∧
    dirOf (inDir true [1]) gran = some (entryOf true [1]) ∧ names (entryOf false [0, 1]) 0 = true ∧ names (entryOf false [1]) 0 = false ∧ isHostGran gran = false ∧
    gates { inDir true [1] with fenced := [1] } 0 gran true (.getm 0 gran) = true ∧ pieceShares placed gran = false ∧ gates sharedPiece 0 gran false (.gets 0 gran) = true ∧
    pieceShares sharedPiece gran = true ∧ roomy sharedPiece gran ∧ dirOf sharedPiece gran = none := by decide +kernel
theorem witness_HomeProtocol_entries : (∀ l ∈ [[0, 1], [1], [0]], ∀ o : Bool, (vote (entryOf o l)).isSome = true ∧ (entryOf o l).bad = false) ∧ vote { entryOf true [0] with idb := 1, idc := 2 } = none ∧
    (vote { entryOf true [0] with bad := true }).isSome = true ∧ (BitVec.allOnes 128) ≠ 0 ∧ (0 : Nat) ≠ hostAgent ∧ (1 : Nat) ≠ hostAgent := by decide +kernel
theorem witness_HomeProtocol_returns : mfind (inDir false [0, 1]).txns gran = none ∧ (entryOf false [0, 1]).coarse = false ∧ (entryOf false [0, 1]).ptrs.contains 0 = true ∧
    (entryOf true [0]).ptrs.contains 0 = true ∧ (entryOf true [1]).ptrs.contains 0 = false ∧ ({ entryOf false [] with coarse := true }).coarse = true ∧
    mfind (inTxn true [0] (txn 2 1 [0] [])).txns gran = some (txn 2 1 [0] []) ∧ (2 : Nat) ∈ [1, 2, 3, 4] ∧ (0 : Nat) ∈ (txn 2 1 [0] []).due := by decide +kernel
theorem witness_HomeProtocol_transactions (k : Nat) : inB (inTxn true [1] (txn k 0 [1] [])) gran (txn k 0 [1] []) (entryOf true [1]) ∧ inB (inTxn true [1] (txn k 0 [1] [1])) gran (txn k 0 [1] [1]) (entryOf true [1]) ∧
    inB (inTxn false [0] (txn 0 0 [] [])) gran (txn 0 0 [] []) (entryOf false [0]) ∧ inB (inTxn true [1] (txn 3 homeMark [1] [])) gran (txn 3 homeMark [1] []) (entryOf true [1]) ∧
    0 ∉ placed.fenced ∧ (txn k 0 [1] []).kind = k := ⟨⟨rfl, rfl⟩, ⟨rfl, rfl⟩, ⟨rfl, rfl⟩, ⟨rfl, rfl⟩, by decide +kernel, rfl⟩

def copied (st : CopySt) (need : Option Nat) (got : Nat) : State := setCopy placed 0 gran ⟨st, 5, 0, false, need, got, 0, none⟩
theorem witness_AgentProtocol (st : CopySt) (need : Option Nat) (got : Nat) : copyOf (copied st need got) 0 gran = some ⟨st, 5, 0, false, need, got, 0, none⟩ ∧ (0 : Nat) ≠ hostAgent ∧ (0 : Nat) ≠ homeMark ∧
    (copied st need got).fenced.contains 0 = false := ⟨by cases st <;> rfl, by decide, by decide, rfl⟩
/-- The copy stands in a line that is being moved. -/
def movingCopy (st : CopySt) : State := setSlot (copied st none 0) 0 1 (migrating 3 [(256, ⟨0x2602, false, some 384, none, 0, 0, []⟩)])

theorem witness_AgentProtocol_probes : probed (copied .m none 0) 0 0 ∧ probed placed 0 0 ∧ copyOf placed 0 gran = none ∧ (∀ c ∈ [CopySt.s, .e, .m, .sm, .si, .mi], foreign (copied c none 0) 0 0 = false) ∧
    (∀ n ∈ [1, 2], n ≤ 1 + 1 → ¬n + 1 < n) ∧ (anyLine (copied .m none 0) 0 gran fun _ y => y.mv.isSome && !y.newmap) = false ∧
    (∀ c ∈ [CopySt.m, .e], (anyLine (movingCopy c) 0 gran fun _ y => y.mv.isSome && !y.newmap) = true ∧ probed (movingCopy c) 0 0) ∧ tilePart placed 0 ≠ some 1 ∧ ckey 1 gran ≠ ckey 0 gran := by decide +kernel

theorem witness_Sharers : (entryOf false [1, 2, 3]).ptrs.length < 4 ∧ 0 ∉ (entryOf false [1, 2, 3]).ptrs ∧ 1 ∈ (entryOf false [1]).ptrs ∧ 4 ≤ (entryOf false [1, 2, 3, 576]).ptrs.length ∧
    0 ∉ (entryOf false [1, 2, 3, 576]).ptrs ∧ ((0 :: (entryOf false [1, 2, 3, 576]).ptrs).all fun x => decide (x ≤ 576)) = true ∧
    ({ entryOf false [] with coarse := true, h := true }).coarse = true ∧ (576 : Nat) ≤ 576 ∧ names { entryOf false [] with coarse := true, h := true } 576 = true := by decide +kernel

/-- The host may hold granules of the region; the directory entry names agents l. -/
def hosted (owned : Bool) (l : List Nat) : State := setCtl (inDir owned l) 0x10000000 0xC0
def hostTxn (kind : Nat) (putm : Bool) : Txn := ⟨kind, 576, [0], putm, []⟩
def snooped (s : State) (e : Event) : Bool := (snoopGate s gran (e == .h2dSnpInv gran) e).isNone

theorem witness_HostCoherence_requests : (∀ k ∈ [HostSnp.cur, .none], gates (hosted false [0]) 576 gran false (.hostMemRead gran k) = true ∧ gates (hosted true [0]) 576 gran false (.hostMemRead gran k) = true) ∧
    (0 : Nat) ≠ 576 ∧ 0 ∉ (hosted true [0]).fenced ∧ 576 ∉ (hosted true [0]).fenced ∧ isHostGran gran = false ∧ homeAllows (hosted false [0]) 576 gran = true ∧ homeAllows placed 576 gran = false ∧ isHostGran hostGran = true ∧
    isClash (clash (hosted false [0]) gran true 576 100 none) 0 = true ∧ isClash (clash { hosted false [0] with pieces := [pieceOver 2] } gran true 576 100 none) 2 = true := by decide +kernel
theorem witness_HostCoherence_answers (x : GData) : isClash (clash (hosted false [0]) gran true 576 100 (some (.hostMemWrite gran x, 0))) 0 = true ∧
    isClash (clash { hosted false [0] with pieces := [pieceOver 2] } gran true 576 100 (some (.hostMemWrite gran x, 0))) 2 = true ∧
    isClash (clash { hosted false [0] with pieces := [pieceOver 0] } gran true 576 100 (some (.hostMemWrite gran x, 0))) 1 = true ∧ placed.bis = [] ∧ (0 : Nat) ≠ 1024 ∧ (∃ y ∈ ({ placed with bis := [(gran, 0)] }).bis, y.1 = gran) ∧
    ({ placed with bis := [(gran, 0)] }).bis = [(gran, 0)] ∧ ({ inTxn true [576] (txn 4 0 [576] []) with bis := [(gran, 1024)] }).bis = [(gran, 1024)] ∧
    mfind ({ inTxn true [576] (txn 4 0 [576] []) with bis := [(gran, 1024)] }).txns gran = some (txn 4 0 [576] []) := ⟨rfl, rfl, rfl, rfl, by decide, by decide +kernel, rfl, rfl, rfl⟩
theorem witness_HostCoherence_snoops : (∀ e ∈ [Event.h2dSnpData gran, .h2dSnpInv gran, .h2dSnpCur gran], snooped placed e = true ∧ snooped (inDir true [0]) e = true ∧ snooped (inDir false [0]) e = true) ∧
    mfind placed.txns gran = none ∧ (probeSet (inDir false [0]) (entryOf false [0]) homeMark = [0]) ∧ (probeSet (inDir true [0]) (entryOf true [0]) homeMark = [0]) ∧
    (∀ k ∈ [3, 4], ∀ b : Bool, inB (inTxn true [0] (hostTxn k b)) gran (hostTxn k b) (entryOf true [0]) ∧ (hostTxn k b).req = 576 ∧ (hostTxn k b).due = [0]) := by decide +kernel
/-- Of a granule of the host's memory: its entry names agents l, and it is in transaction k of tile 0. -/
def askedHost (k : Nat) (l : List Nat) : State := { setDir placed hostGran (newDir hostGran false l 0) with txns := [(hostGran, txn k 0 [576] [])] }
theorem witness_HostCoherence_fills : (∀ k ∈ [6, 7, 10], ∀ l ∈ [[], [0]], inB (askedHost k l) hostGran (txn k 0 [576] []) (newDir hostGran false l 0)) ∧ (∀ k ∈ [6, 7, 10], (txn k 0 [576] []).req = 0) ∧
    0 ∉ placed.fenced ∧ 576 ∉ placed.fenced ∧ isHostGran hostGran = true ∧ dirOf placed hostGran = none ∧ (setMates placed hostGran).length < 16 ∧
    gates placed 0 hostGran false (.gets 0 hostGran) = true ∧ gates placed 0 hostGran true (.getm 0 hostGran) = true ∧
    gates (setDir placed hostGran (newDir hostGran false [0] 0)) 0 hostGran true (.getm 0 hostGran) = true ∧ gates (setDir placed hostGran (newDir hostGran false [0] 0)) 0 hostGran true (.upg 0 hostGran) = true ∧
    names (newDir hostGran false [0] 0) 0 = true ∧ 576 ∈ ({ placed with fenced := [576] }).fenced := by decide +kernel

/-- The host takes an exclusive copy of its granule back from tile 0, which leaves it. -/
def givingBack (putm : Bool) : Txn := ⟨4, homeMark, [0], putm, [0]⟩
theorem witness_HostCoherence_givesBack (b : Bool) : inB { setDir placed hostGran (newDir hostGran true [0] 0) with txns := [(hostGran, givingBack b)] } hostGran (givingBack b) (newDir hostGran true [0] 0) ∧
    (givingBack b).due = [0] ∧ (newDir hostGran true [0] 0).ptrs = [0] ∧ 0 ∈ (givingBack b).leave := ⟨⟨rfl, rfl⟩, rfl, rfl, .head _⟩

def scrubbing (owned : Bool) (l : List Nat) (i : Nat) : State := { setStack (inDir owned l) (granStack gran) { stackOf placed (granStack gran) with scrub := [(1, i)] } with fenced := [1] }
theorem witness_DeadAgents : mgetD placed.missed 1 0 = 0 ∧ mgetD ({ placed with missed := [(1, 4 * 7 + 1)] }).missed 1 0 = 4 * 7 + 1 ∧ mgetD ({ placed with missed := [(1, 4 * 7 + 2)] }).missed 1 0 = 4 * 7 + 2 ∧
    placed.clock < 7 + 480000 ∧ 1 ∉ placed.fenced ∧ placed.txns = [] ∧ placed.pieces = [] ∧ placed.bis = [] ∧ (stackOf placed 0).scrub = [] ∧
    (∀ i ∈ [15, 2 ^ 21 - 1, 16 * (gran % 2 ^ 17)], (stackOf (scrubbing true [1] i) (granStack gran)).scrub = [(1, i)]) ∧ 15 % 16 ≠ 0 ∧ 15 + 1 ≠ 2 ^ 21 ∧ (16 * (gran % 2 ^ 17)) / 16 = gran % 2 ^ 17 ∧
    (scrubbing true [1] 0).dir = [(gran, entryOf true [1])] ∧ (scrubbing false [0, 1] 0).dir = [(gran, entryOf false [0, 1])] ∧ isHostGran gran = false ∧
    (vote (entryOf true [1])).isSome = true ∧ (vote (entryOf false [0, 1])).isSome = true ∧ (vote { entryOf true [1] with bad := true }).isSome = true ∧ (entryOf true [1]).bad = false ∧
    (∃ k < 4, ∃ j ∈ [0], (1, j) ∈ (stackOf (scrubbing true [1] 0) k).scrub) := by decide +kernel
theorem witness_DeadAgents_readmit : (∀ k < 4, ∀ j, (1, j) ∉ (stackOf { placed with fenced := [1] } k).scrub) ∧ 1 ∈ ({ placed with fenced := [1] }).fenced := by
  refine ⟨fun k hk j => ?_, by decide +kernel⟩
  have h : ∀ k < 4, (stackOf { placed with fenced := [1] } k).scrub = [] := by decide +kernel
  simp [h k hk]

/-- Partition 1 has a valid entry, region 1 with tiles 8 and 9, another ASID and the least quantum; the feature lock is shut. -/
def ready1 : State :=
  let s := setCtl (setCtl State.reset 0x20 1) 0x0C007010 0x80018001
  let s := setCtl (setCtl s 0x0C008008 2) 0x0C000008 1024
  setPt (setPt s 1 0 0x101) 1 2 0x40000
def atTable (w : Word) : State := setPt ready1 1 0 w

/-- Partition 1 ran on its tiles before. -/
def restarted : State := setRegion ready1 1 { running := 2, halting := false, ends := 0 }

theorem witness_StartAndRemove : startRefused ready1 1 = false ∧ tilePart restarted 8 = some 1 ∧ startRefused restarted 1 = false ∧ Alone restarted 1 ∧ tileSet restarted 1 = [8, 9] ∧ Alone ready1 1 ∧ tileSet ready1 1 = [8, 9] ∧ startRefused State.reset 1 = true ∧ ptState ready1 1 ≠ 1 ∧ ptState placed 0 = 1 ∧
    bitOf (ptWord ready1 1 0) 0 = true ∧ bitOf (ptWord State.reset 1 0) 0 = false ∧ bitOf (ctlWord State.reset 0x20) 0 = false ∧ tileSet State.reset 1 = [] ∧
    (ptWord (setPt ready1 1 2 0x40002) 1 2).toNat % 4 ≠ 0 ∧ (ptWord (setPt ready1 1 2 (2 ^ 54)) 1 2).getLsbD 54 = true ∧ ready1.firmware = true ∧ ptState State.reset 1 ≠ 1 ∧ quantumOk (ctlWord (setCtl ready1 0x0C000008 1023) 0x0C000008) = false ∧
    (bitOf (ptWord (setPt ready1 2 0 0x101) 2 0) 0 = true ∧ ptAsid (setPt ready1 2 0 0x101) 2 = ptAsid (setPt ready1 2 0 0x101) 1) := by decide +kernel

/-- Firmware was not verified. -/
def unverified : State := { ready1 with firmware := false }

theorem witness_ControlSpace_refusals : unverified.firmware = false ∧ ready1.firmware = true ∧ State.reset.firmware = true ∧ placed.firmware = true ∧ (recorded true).firmware = true ∧ readOnlyCtl 0x10 = false ∧
    (0x109 : Word).getLsbD 0 = true ∧ (0x109 : Word).getLsbD 3 = true ∧ startRefused (setPt ready1 1 0 ((0x109 &&& 0x000000FF0103FF01) ||| (ptWord ready1 1 0 &&& 6))) 1 = false ∧
    startRefused (setPt ready1 2 0 ((0x109 &&& 0x000000FF0103FF01) ||| (ptWord ready1 2 0 &&& 6))) 2 = true ∧ ptState ready1 2 ≠ 1 ∧
    (∃ j < 8, grantBad (setCtl ready1 0x08000000 0x40) (0x08000000 + j) (bits (0x41 : Word) (8 * j + 7) (8 * j)) = true) ∧
    (∃ j < 8, grantBad (setCtl ready1 0x40000000 0x40) (0x40000000 + j) (bits (0x41 : Word) (8 * j + 7) (8 * j)) = true) ∧
    (∃ j < 8, regionBad placed (0x10000000 + j) (bits (0x41 : Word) (8 * j + 7) (8 * j)) = true) ∧
    (∃ j < 4, tileRegionBad placed (0 + j) (bits (0x8005 : Word) (16 * j + 15) (16 * j)) = true) ∧
    (∀ j < 4, tileRegionBad State.reset (0 + j) (bits (0x8005 : Word) (16 * j + 15) (16 * j)) = false) := by decide +kernel

theorem witness_ControlSpace : bitOf (ctlWord ready1 0x20) 0 = true ∧ bitOf (ctlWord State.reset 0x20) 0 = false ∧ quantumOk 1024 = true ∧ quantumOk 4294967296 = true ∧ quantumOk 1023 = false ∧
    quantumOk 4294967297 = false ∧ ptState placed 0 = 1 ∧ ptState State.reset 63 ≠ 1 ∧ (0x101 : Word).getLsbD 0 = true ∧ (0x101 : Word).getLsbD 3 = false ∧ (∀ q < 64, ptState State.reset q ≠ 1) ∧
    segOwner placed 0 0 = none ∧ segOwner (recorded true) 0 0 = some 0 ∧ ptState (recorded true) 0 = 1 ∧ (partOf { recorded true with parts := [] } 0).slots = [] ∧
    segOwner (setCtl State.reset 0x08000000 0x40) 0 0 = some 0 ∧ ptState (setCtl State.reset 0x08000000 0x40) 0 ≠ 1 := by decide +kernel

def boxed (n : Nat) : State := { State.reset with boxes := [(8, [⟨5, 4, 0, 0x1000, 0, false⟩])], boxN := [(8, n)] }
theorem witness_PortAndResets : mgetD State.reset.boxN 8 0 = 0 ∧ mgetD (boxed 1).boxes 8 [] = ⟨5, 4, 0, 0x1000, 0, false⟩ :: [] ∧ mgetD (boxed 1).boxN 8 0 = 0 + 1 ∧ State.reset.firmware = true ∧
    ({ State.reset with firmware := false }).firmware = false := by decide +kernel

theorem witness_ResetState : State.reset.memWf = true ∧ (setHomeByte State.reset 0x130100 7).memWf = true := by decide +kernel

theorem witness_MemoryStaysCanonical : placed.memWf = true ∧ (match Machine.step placed with | .next t => t.clock == placed.clock + 1 | _ => false) = true := by decide +kernel

theorem witness_DecodeEncode : (Instr.add 3 1 2 false false false).encoded = true ∧ (Instr.add 3 1 2 false false false).wellFormed = true ∧ (Instr.halt 31).encoded = true ∧ (Instr.halt 31).wellFormed = true := by
  decide +kernel

/-- Hart 0 is examined first, on its own tile; and where the words w stand at its start. -/
def later : State := { placed with clock := placed.clock + 1 }
def turn : State := atTurn later 0
def turnAt (nbits w : Nat) : State := atTurn (State.reset.withFetchWord nbits w) 0
def isWords (i : Issue) (w : Nat) : Bool := match i with | .words _ [x] => x == w | _ => false
def busyFetch : State := { later with txns := [(0x2600, ⟨0, 0, [], false, []⟩)] }

theorem witness_StepRunsDecoded : turnOrder later = [0] ∧ placed.agenda = [] ∧ placed.evTurn = false ∧ isWords (fetchIssue turn) 0x04611000 = true ∧ hasC 0x04611000 = false ∧
    (decode [0x04611000]).isOk = true ∧ (match fetchIssue (atTurn (withHart placed fun h => { h with pc := 0x90000 }) 0) with | .fault .. => true | _ => false) = true ∧
    turnOrder { State.reset with clock := 1 } = [] ∧ State.reset.agenda = [] ∧ (match xlateFetch turn 0 0 0x40000 true with | .ok .. => true | _ => false) = true ∧
    slotRefuses turn 0 0 0x40000 .fetch = none := by decide +kernel
theorem witness_StepRunsDecoded_issued : decode [0x04611000] = .ok (.add 3 1 2 false false false) ∧ (match stepHart later 0 with | .next t => issued later t 0 | _ => false) = true := by decide +kernel
theorem witness_StepRunsDecoded_words : isWords (fetchIssue (turnAt 32 0xF8000000)) 0xF8000000 = true ∧ (match decode [0xF8000000] with | .error _ => true | _ => false) = true ∧
    (match fetchIssue (turnAt 64 0x8441188084411800) with | .words _ l => l == [0x84411800, 0x84411880] | _ => false) = true ∧ hasC 0x84411800 = true ∧ cBit 0x84411800 = false ∧
    (match fetchIssue (atTurn busyFetch 0) with | .wait _ => true | _ => false) = true := by decide +kernel
/-- A BAR has arrived, and its hart has been sent elsewhere; or stands at it. -/
def arrived (w : Nat) : State := atTurn (withHart (State.reset.withFetchWord 32 w) fun h => { h with barPh := some 3 }) 0
theorem witness_StepRunsDecoded_barrier : (match fetchWords (arrived 0x04611000) with | .words u [_] => (curH u).barPh == some 3 | _ => false) = true ∧
    (match fetchIssue (arrived 0x04611000) with | .words u [_] => (curH u).barPh == none | _ => false) = true := by decide +kernel

theorem witness_StepRunsDecoded_agenda : ({ State.reset with agenda := [Event.inv 0 0x2602 1 0] }).agenda = Event.inv 0 0x2602 1 0 :: [] ∧ turnOrder { State.reset with clock := 1 } = [] ∧
    ({ placed with agenda := [Event.inv 0 0x2602 1 0], evTurn := true }).evTurn = true ∧ mfind (tileOf (withTile0 turn fun t => { t with ic := [(0x2600, 7)] }) 0).ic 0x2600 = some 7 := by decide +kernel
theorem witness_NothingRefused : (match Machine.step State.reset with | .fault .idle => true | _ => false) = true := by decide +kernel

/-! ## WellFormed refuses an ill-formed term for each of its checks -/

def badComp : Comp := ⟨5, 0, false, false, 0, 0⟩
def sizedComp : Comp := ⟨0, 0, false, true, 1, 0⟩
def goodComp : Comp := ⟨5, 8, false, false, 1, 7⟩

theorem test_wellFormed_refuses_scalar : (Instr.sext 1 2 3 false).wellFormed = false ∧ (Instr.zext 1 2 3 false).wellFormed = false ∧ (Instr.slli 1 2 false 32 true).wellFormed = false ∧
    (Instr.srli 1 2 false 32 true).wellFormed = false ∧ (Instr.srai 1 2 false 32 true).wellFormed = false ∧ (Instr.rori 1 2 false 32 true).wellFormed = false ∧ (Instr.fadd 1 2 3 false false false 5).wellFormed = false ∧
    (Instr.fsqrt 1 2 false false 6).wellFormed = false ∧ (Instr.fcvt 1 2 5 false false 0).wellFormed = false ∧ (Instr.fcvt 1 2 4 false false 6).wellFormed = false := by decide
theorem test_wellFormed_refuses_memory : (Instr.ld 1 2 3 true false 0).wellFormed = false ∧ (Instr.ldo 1 2 3 true 0 0 false).wellFormed = false ∧ (Instr.ldo 1 2 3 false 2 0 false).wellFormed = false ∧
    (Instr.ldo 1 2 3 false 1 7 false).wellFormed = false ∧ (Instr.sto 1 2 3 1 0 false).wellFormed = false ∧ (Instr.sto 1 2 3 0 7 false).wellFormed = false ∧ (Instr.amoAdd 1 2 3 false 0 1 false).wellFormed = false ∧
    (Instr.amoAdd 1 2 3 false 1 7 false).wellFormed = false ∧ (Instr.redAdd 1 2 false 1 0 false).wellFormed = false ∧ (Instr.redAdd 1 2 false 0 1 false).wellFormed = false ∧
    (Instr.redAdd 1 2 false 2 7 false).wellFormed = false ∧ (Instr.fence 7 0 false).wellFormed = false ∧ (Instr.waitw 1 2 7 0).wellFormed = false ∧ (Instr.bar 1 2 7).wellFormed = false ∧
    (Instr.arrive 1 2 7).wellFormed = false ∧ (Instr.waitb 1 2 7).wellFormed = false ∧ (Instr.cinvRange 1 0).wellFormed = false := by decide
theorem test_wellFormed_refuses_vector : (Instr.setvl 1 2 5 0 0 0 0).wellFormed = false ∧ (Instr.setvl 1 2 0 0 6 0 0).wellFormed = false ∧ (Instr.setvl 1 2 0 0 0 5 0).wellFormed = false ∧
    (Instr.setvl 1 2 0 0 0 0 7).wellFormed = false ∧ (Instr.setvl 1 2 3 0 1 0 0).wellFormed = false ∧ (Instr.setvl 1 2 2 2 0 0 0).wellFormed = false ∧ (Instr.setvl 1 2 3 1 0 0 0).wellFormed = false ∧
    (Instr.vcmp 0 1 2 0 false false false 0).wellFormed = false ∧ (Instr.vcmp 1 1 2 0 false false false 8).wellFormed = false ∧ (Instr.vfcmp 8 1 2 0 false false false 0).wellFormed = false ∧
    (Instr.vfcmp 1 1 2 0 false false false 6).wellFormed = false ∧ (Instr.mand 0 1 2 0 false false).wellFormed = false ∧ (Instr.mand 1 0 2 0 false false).wellFormed = false ∧
    (Instr.mand 1 2 8 0 false false).wellFormed = false ∧ (Instr.mnot 0 1 0 false false).wellFormed = false ∧ (Instr.mpopc 1 0 0 false false).wellFormed = false ∧ (Instr.mset 0 0 false false).wellFormed = false ∧
    (Instr.vscan 1 2 8 0 false false).wellFormed = false ∧ (Instr.vfscan 1 2 3 0 false false).wellFormed = false := by decide
theorem test_wellFormed_refuses_more_vector : (Instr.vcvth 1 2 true 1 0 false false).wellFormed = false ∧ (Instr.vcvtd 1 2 false true 1 0 false false).wellFormed = false ∧
    (Instr.vcvtd 1 2 true false 0 0 false false).wellFormed = false ∧ (Instr.vsel 1 2 3 0 false false).wellFormed = false ∧ (Instr.vld 1 2 0 false false false false 2).wellFormed = false ∧
    (Instr.vstX 1 2 3 0 false false false false 3).wellFormed = false ∧ (Instr.vsplit 1 0 false).wellFormed = false ∧ (Instr.vsplit 1 3 false).wellFormed = false ∧
    (Instr.mma 0 1 2 0 false false false 2).wellFormed = false := by decide
theorem test_wellFormed_refuses_commands : (Instr.copyLin regs badComp none).wellFormed = false ∧ (Instr.copyLin regs sizedComp none).wellFormed = false ∧
    (Instr.copyLin regs goodComp (some ⟨0, 1, 2, 0, false, false, false, 2⟩)).wellFormed = false ∧ (Instr.rsv regs goodComp 0 false 3 0).wellFormed = false ∧ (Instr.rsv regs goodComp 0 false 0 9).wellFormed = false ∧
    (Instr.ursv 1 goodComp 15).wellFormed = false ∧ (Instr.ramo regs sizedComp 3 11).wellFormed = false ∧ (Instr.ramo regs sizedComp 3 0).wellFormed = false ∧ (Instr.rred regs sizedComp 3 none 10).wellFormed = false ∧
    (Instr.tpost 1 2 3 0 0 false).wellFormed = false ∧ (Instr.put regs sizedComp 3 none).wellFormed = false ∧ (Instr.fcfg 1 2 badComp).wellFormed = false ∧ (Instr.copyLin regs goodComp none).wellFormed = true := by decide

/-! ## The spec's worked cases -/

/-- What g1 holds after an instruction on g2 and g3. -/
def rd (i : Instr) (a b : Word) : Word := mgetD (curH (nextOf (exec i (setG (setG placed 2 a) 3 b)))).g 1 0

/-- "Worked case: integer corner values" of spec/09_scalar_instructions.md, row by row. -/
theorem test_integer_corners : rd (.div 1 2 3 false false) (-7) 2 = -3 ∧ rd (.rem 1 2 3 false false) (-7) 2 = -1 ∧ rd (.div 1 2 3 false false) (-7) 0 = 0xFFFFFFFFFFFFFFFF ∧
    rd (.remu 1 2 3 false false) (-7) 0 = 0xFFFFFFFFFFFFFFF9 ∧ rd (.div 1 2 3 false false) 0x8000000000000000 (-1) = 0x8000000000000000 ∧ rd (.rem 1 2 3 false false) 0x8000000000000000 (-1) = 0 ∧
    rd (.mulh 1 2 3 false false) (-1) (-1) = 0 ∧ rd (.mulhu 1 2 3 false false) (-1) (-1) = 0xFFFFFFFFFFFFFFFE := by decide +kernel
theorem test_integer_word_forms : decode [0x04221910] = .ok (.sra 1 2 3 false false true) ∧ rd (.add 1 2 3 false false true) 0x7FFFFFFF 1 = 0xFFFFFFFF80000000 ∧ rd (.srl 1 2 3 false false true) 0xFFFFFFFF80000000 4 = 0x08000000 ∧
    rd (.sra 1 2 3 false false true) 0xFFFFFFFF80000000 4 = 0xFFFFFFFFF8000000 ∧ rd (.sll 1 2 3 false false false) 1 68 = 0x10 ∧ rd (.rol 1 2 3 false false true) 0x80000001 1 = 3 ∧
    rd (.ror 1 2 3 false false true) 3 1 = 0xFFFFFFFF80000001 := by decide +kernel
theorem test_integer_bits : rd (.clz 1 2 false false) 0 0 = 64 ∧ rd (.clz 1 2 false true) 0xFFFFFFFF00000000 0 = 32 ∧ rd (.popc 1 2 false true) 0xFFFFFFFF0000000F 0 = 4 ∧
    decode [0x0422081D] = .ok (.sext 1 2 1 false) ∧ rd (.sext 1 2 1 false) 0x8001 0 = 0xFFFFFFFFFFFF8001 ∧ rd (.bswap 1 2 false) 0x0102030405060708 0 = 0x0807060504030201 := by decide +kernel

/-- "Worked case: one rounding against two" of spec/09_scalar_instructions.md. -/
def floats : State := setG (setG (setG placed 1 0x3F800800) 2 0x3F800800) 3 0xBF801000
theorem test_fma_rounds_once : decode [0x2C611005] = .ok (.fma 3 1 2 false false false 0) ∧ mgetD (curH (nextOf (exec (.fma 3 1 2 false false false 0) floats))).g 3 0 = 0x33800000 ∧
    (curH (nextOf (exec (.fma 3 1 2 false false false 0) floats))).fcsr = 0 := by decide +kernel
theorem test_fmul_rounds_to_even : decode [0x2C811002] = .ok (.fmul 4 1 2 false false false 0) ∧ mgetD (curH (nextOf (exec (.fmul 4 1 2 false false false 0) floats))).g 4 0 = 0x3F801000 ∧
    (curH (nextOf (exec (.fmul 4 1 2 false false false 0) floats))).fcsr = 0x1000 := by decide +kernel

/-- "Worked case: grants" of spec/11_vector_instructions.md: rows 1, 3, 4, 6 and 7. -/
def withFmt (n : Word) : State := setG (withHart placed fun h => { h with fmt := [(1, 0x20312)] }) 6 n
def grant (s : State) (i : Instr) : Word × Word × Word := let t := nextOf (exec i s); ((curH t).v.vl, (curH t).v.vlreq, mgetD (curH t).g 5 0)
theorem test_setvl_grants : grant (withFmt 1000) (.setvl 5 6 0 1 3 0 0) = (1024, 1000, 1024) ∧ (curH (nextOf (exec (.setvl 5 6 0 1 3 0 0) (withFmt 1000)))).v.vtype = 0xB ∧
    grant (withFmt 3000) (.setvl 5 6 0 1 3 0 0) = (2048, 2048, 2048) ∧ grant (withFmt 300) (.setvl 5 6 3 0 0 0 0) = (256, 256, 256) := by decide +kernel
theorem test_setvl_refuses : bits (curH (nextOf (exec (.setvl 5 6 1 1 3 0 0) (setPart (withFmt 8) 0 { partOf placed 0 with tvec := 0x40003 })))).tr.ecause 7 0 = 0x0B ∧ (match decode [0x80A66080] with | .error _ => true | .ok _ => false) = true := by decide +kernel

/-- "A call through TRAP" of spec/16_traps_preemption_system.md, with the entry of this state. -/
def calling : State := withHart (setPart placed 0 { partOf placed 0 with tvec := 0x100001 }) fun h => { h with sup := false, pc := 0x40000200 }
theorem test_trap_entry : decode [0x54000005] = .ok (.trap 5) ∧ (let h := curH (nextOf (exec (.trap 5) calling)); (h.pc, h.sup, h.tr.epc, h.tr.ecause, h.tr.eaddr, h.tr.estat) = (0x100000, true, 0x40000204, 0x0D, 5, 2)) ∧
    (let h := curH (nextOf (exec .rfe (nextOf (exec (.trap 5) calling)))); (h.pc, h.sup) = (0x40000204, false)) := by decide +kernel

/-- "Worked case: enabling every feature on a QQX1-M12" of spec/17_host_interface_and_management.md. -/
theorem test_enable_masked : ctlWord (nextOf (exec (.controlSpaceWrite 0x10 8 0x3F) (setCtl State.reset 0 0x3E))) 0x10 = 0x3E := by decide +kernel

/-- R263 and R267: ADDPC adds its immediate shifted to the pc; JAL links the next word. -/
theorem test_pc_forms : mgetD (curH (nextOf (exec (.addpc 4 1) placed))).g 4 0 = 0x40000 + 2048 ∧ gVal (nextOf (exec (.jal 31 4) placed)) 31 = 0x40004 ∧
    (curH (nextOf (exec (.jal 31 4) placed))).pc = 0x40010 ∧ hmix64 0 0 = 0 := by decide +kernel

theorem witness_FcvtCompletes : Ready placed [(1, true)] (some 2) ∧ (4 : BitVec 5).toNat ≤ 4 := by decide +kernel

theorem witness_VectorArithmeticCompletes : (∀ fn < 22, Issues (vec 3) (vw 0x21 fn 3) ∧ Issues (vec 3) (vw 0x21 (fn + 32) 3)) ∧
    (∀ fn < 12, Issues (vec 3) (vw 0x22 fn 3) ∧ Issues (vec 3) (vw 0x22 (fn + 32) 3)) ∧ ∀ fn < 8, Issues (vec 3) (vw 0x23 fn 0) :=
  ⟨witness_VectorIntegers, witness_VectorFloats.2, witness_SpecialFunctions.1⟩

theorem witness_VectorPermutesComplete : (∀ n < 8, Issues (vec 3) (vw 0x24 n 3)) ∧ (∀ fn < 9, Issues (vec 3) (vw 0x25 fn 0)) ∧
    (∀ fn ∈ [0, 1, 2, 3, 4, 6], Issues (vec 3) (vw 0x26 fn 3)) ∧ ∀ n < 8, Issues (vec 3) (vw 0x27 n 0) :=
  ⟨witness_VectorMasks.1, witness_VectorMasks.2.2, witness_VectorPermutes.1, witness_VectorPermutes.2.2.2.1⟩

theorem witness_VectorConversionsComplete : Issues (vec 3) (vw 0x28 2 0) ∧ (∀ fn < 6, Issues (vec 3) (vw 0x29 fn 3)) ∧ ∀ fn < 5, Issues (vec 4) (vw 0x2D fn 1) :=
  ⟨witness_VectorConversions.1, witness_VectorConversions.2.2.2.2.2.2, witness_DatabasePrimitives⟩

end Sys2Proof.Tests
end

section
/-! PROOFS. The statements of spec/00_scope.md: home memory, the system instructions, and the management of partitions. -/

namespace Sys2Proof.Machine
open Sys2Proof

/-! ## Home memory (R6, R16) -/

/-- What a byte of home memory reads after a write of one byte. -/
theorem homeByte_setHomeByte (s : State) (a c : Nat) (b : Byte) :
    homeByte (setHomeByte s a b) c = if c = a then b else homeByte s c := by
  split
  · next h => rw [h, homeByte_setHomeByte_same]
  · next h => exact homeByte_setHomeByte_other s b h

/-- What it reads after a run of bytes is written in ascending order. -/
theorem homeByte_pokeHome (s : State) (a c : Nat) (bs : List Byte) :
    homeByte (pokeHome s a bs) c = if a ≤ c ∧ c < a + bs.length then bs.getD (c - a) 0 else homeByte s c := by
  induction bs generalizing s a with
  | nil => rw [if_neg (by simp), pokeHome]
  | cons b r ih =>
    rw [pokeHome, ih, homeByte_setHomeByte]
    rcases Nat.lt_trichotomy c a with hlt | rfl | hgt
    · rw [if_neg (by omega), if_neg (by omega), if_neg (by omega)]
    · rw [if_neg (by omega), if_pos rfl, if_pos (by simp), Nat.sub_self, List.getD_cons_zero]
    · obtain ⟨k, rfl⟩ := Nat.exists_eq_add_of_lt hgt
      have hk : a + k + 1 - a = k + 1 := by omega
      have hk' : a + k + 1 - (a + 1) = k := by omega
      rw [hk, hk', List.getD_cons_succ, if_neg (by omega : ¬a + k + 1 = a)]
      simp only [List.length_cons]
      congr 1
      simp only [eq_iff_iff]
      omega

theorem maskBit_eq_getLsbD (m : BitVec 128) (i : Nat) : maskBit m i = m.getLsbD i := by
  rw [maskBit, BitVec.getLsbD, Nat.testBit_eq_decide_div_mod_eq]
  rfl

theorem granByte_eq_extractLsb' (d : BitVec 1024) (i : Nat) : granByte d i = d.extractLsb' (8 * i) 8 := by
  apply BitVec.eq_of_toNat_eq
  rw [granByte, BitVec.toNat_ofNat, BitVec.extractLsb'_toNat, Nat.shiftRight_eq_div_pow]

/-- Byte i of granule g written home where its mask names it: one turn of the loop of `writeGran`. -/
def putMaskedByte (g : Nat) (x : GData) (i : Nat) (s : State) : State :=
  if maskBit x.mask i then setHomeByte s (g * 128 + i) (granByte x.data i) else s

/-- After the first n bytes of a granule, those of them that the mask names are new. -/
theorem homeByte_loop_putMaskedByte (s : State) (g : Nat) (x : GData) (n c : Nat) :
    homeByte (loop n (putMaskedByte g x) s) c =
      if g * 128 ≤ c ∧ c < g * 128 + n ∧ x.mask.getLsbD (c - g * 128) = true then x.data.extractLsb' (8 * (c - g * 128)) 8 else homeByte s c := by
  induction n with
  | zero => rw [if_neg (by omega), loop]
  | succ n ih =>
    rw [loop, putMaskedByte, maskBit_eq_getLsbD, granByte_eq_extractLsb']
    by_cases hc : c = g * 128 + n
    · subst hc
      rw [Nat.add_sub_cancel_left] at ih ⊢
      split
      · next hm => rw [homeByte_setHomeByte_same, if_pos ⟨by omega, by omega, hm⟩]
      · next hm => rw [ih, if_neg (by omega), if_neg (fun ⟨_, _, h⟩ => hm h)]
    · have hn : c < g * 128 + (n + 1) ↔ c < g * 128 + n := by omega
      simp only [hn, ← ih]
      split
      · exact homeByte_setHomeByte_other _ _ hc
      · rfl

/-- Beside the masked bytes, a granule written home changes the list of poisoned granules alone. -/
theorem writeGran_eq_loop (s : State) (g : Nat) (x : GData) :
    writeGran s g x = { loop 128 (putMaskedByte g x) s with psn := (writeGran s g x).psn } := by
  simp only [writeGran]
  split
  · split <;> rfl
  · split <;> rfl

/-- The masked bytes of a granule are new, every other byte of home memory stays (R104). -/
theorem homeByte_writeGran (s : State) (g : Nat) (x : GData) (c : Nat) :
    homeByte (writeGran s g x) c =
      if c / 128 = g ∧ x.mask.getLsbD (c % 128) = true then x.data.extractLsb' (8 * (c % 128)) 8 else homeByte s c := by
  have hl : homeByte (writeGran s g x) c = homeByte (loop 128 (putMaskedByte g x) s) c := by
    rw [writeGran_eq_loop]
    rfl
  rw [hl, homeByte_loop_putMaskedByte]
  by_cases hg : c / 128 = g
  · have hm : c - g * 128 = c % 128 := by omega
    simp only [hm, hg, show g * 128 ≤ c by omega, show c < g * 128 + 128 by omega, true_and]
  · rw [if_neg (by omega), if_neg (fun ⟨h, _⟩ => hg h)]

@[simp] theorem setHomeByte_parts (s : State) (a : Nat) (b : Byte) : (setHomeByte s a b).parts = s.parts := by
  rw [setHomeByte]
  split <;> rfl

theorem loop_putMaskedByte_parts (s : State) (g : Nat) (x : GData) (n : Nat) : (loop n (putMaskedByte g x) s).parts = s.parts := by
  refine loop_keeps (fun t : State => t.parts = s.parts) (fun i t ht => ?_) n rfl
  show (putMaskedByte g x i t).parts = s.parts
  rw [putMaskedByte]
  split
  · rw [setHomeByte_parts, ht]
  · exact ht

@[simp] theorem writeGran_parts (s : State) (g : Nat) (x : GData) : (writeGran s g x).parts = s.parts := by
  rw [writeGran_eq_loop]
  exact loop_putMaskedByte_parts s g x 128

@[simp] theorem homeByte_setPart (s : State) (p : Nat) (x : Part) (c : Nat) : homeByte (setPart s p x) c = homeByte s c := rfl

@[simp] theorem homeByte_setCopy (s : State) (a gk : Nat) (x : Copy) (c : Nat) : homeByte (setCopy s a gk x) c = homeByte s c := rfl

/-! ## Lines that leave a slot (R65, R66, R102) -/

/-- An eviction notice takes the dirty data with it: no byte of home memory changes before it arrives (R102). -/
@[simp] theorem homeByte_evict (s : State) (a gk c : Nat) : homeByte (evict s a gk) c = homeByte s c := by
  have toHome_byte (k : State) (e : Event) : homeByte (toHome k a gk e) c = homeByte k c := by
    rw [toHome]
    split <;> rfl
  rw [evict]
  split
  · split
    · exact toHome_byte _ _
    · exact toHome_byte _ _
    · exact toHome_byte _ _
    · rfl
  · rfl

/-- Where another line still shows the copy, the dirty bytes of the line that goes are written home at once (R65). -/
theorem release_shown_dirty {s : State} {a gk : Nat} {m : BitVec 128} {c : Copy} (hl : lineShows s a gk = true) (hc : copyOf s a gk = some c)
    (hst : c.st = .m) (hm : c.mask &&& m ≠ 0) :
    release s a gk m = setCopy (writeGran s gk ⟨c.data, c.mask &&& m, c.psn⟩) a gk { c with mask := c.mask &&& ~~~m } := by
  have hd : (c.mask &&& m != 0) = true := bne_iff_ne.mpr hm
  simp only [release, hl, hc, hst, hd, beq_self_eq_true, Bool.and_self, if_true]

/-- A line that goes changes no byte that it does not show. -/
theorem homeByte_release_outside (s : State) (a gk : Nat) {m : BitVec 128} {c : Nat} (hm : m.getLsbD (c % 128) = false) :
    homeByte (release s a gk m) c = homeByte s c := by
  rw [release]
  split
  · split
    · next y _ =>
      split
      · exact (homeByte_writeGran s gk ⟨y.data, y.mask &&& m, y.psn⟩ c).trans (if_neg (by simp [hm]))
      · rfl
    · rfl
  · exact homeByte_evict s a gk c

/-- The granules of a line that goes, one after the other. -/
theorem homeByte_releases_outside (a : Nat) (gks : List Nat) {m : BitVec 128} {c : Nat} (hm : m.getLsbD (c % 128) = false) (s : State) :
    homeByte (gks.foldl (fun s gk => release s a gk m) s) c = homeByte s c := by
  induction gks generalizing s with
  | nil => rfl
  | cons g r ih => exact (ih _).trans (homeByte_release_outside s a g hm)

theorem homeByte_dropShelter (s : State) (a : Nat) (sp : Option Nat) (gks : List Nat) (c : Nat) :
    homeByte (dropShelter s a sp gks) c = homeByte s c := by
  cases sp <;> rfl

/-- A listed line leaves its position. -/
theorem evictLine_listed {s : State} {p v loc : Nat} {x : Line} (hx : mfind (slotOf s p v).lines loc = some x) :
    evictLine s p v loc =
      let l := recLine (slotRec (slotOf s p v))
      (lineGrans l x.addr).foldl (fun s gk => release s (agentOfLoc loc) gk (lineMask l x.addr))
        (dropShelter (setLines s p v (mdel (slotOf s p v).lines loc)) (agentOfLoc loc) x.sp (lineGrans l x.addr)) := by
  simp only [evictLine, hx]

/-- No byte outside what the line shows of its granules changes when it leaves. -/
theorem homeByte_evictLine_outside {s : State} {p v loc : Nat} {x : Line} (hx : mfind (slotOf s p v).lines loc = some x) {c : Nat}
    (hm : (lineMask (recLine (slotRec (slotOf s p v))) x.addr).getLsbD (c % 128) = false) :
    homeByte (evictLine s p v loc) c = homeByte s c := by
  rw [evictLine_listed hx]
  refine (homeByte_releases_outside _ _ hm _).trans ?_
  exact homeByte_dropShelter _ _ _ _ c

/-! ## Stopping and removing a partition (R418, R432) -/

@[simp] theorem wakeStalls_harts (s : State) : (wakeStalls s).harts = s.harts := by
  have keeps (l : List Event) (k : State) : (l.foldl postOnce k).harts = k.harts := by
    induction l generalizing k with
    | nil => rfl
    | cons e r ih =>
      refine (ih _).trans ?_
      rw [postOnce]
      split <;> rfl
  exact keeps _ s

/-- Where no tile runs the partition, no hart of a tile is stopped. -/
theorem haltHarts_harts_of_absent {s : State} {p : Nat} (h : ∀ t, tilePart s t ≠ some p) : (haltHarts s p).harts = s.harts := by
  have hn : (below 512 fun t => tilePart s t == some p) = [] := by
    rw [below, List.filter_eq_nil_iff]
    intro t _
    simpa using h t
  simp only [haltHarts, hn, List.foldl_nil]

@[simp] theorem dropWork_harts (s : State) (p : Nat) (all : Bool) : (dropWork s p all).harts = s.harts := wakeStalls_harts _

@[simp] theorem dropAllClaims_harts (s : State) (p : Nat) : (dropAllClaims s p).harts = s.harts := rfl

@[simp] theorem setPtState_harts (s : State) (p v : Nat) : (setPtState s p v).harts = s.harts := rfl

/-- The harts that stop are those of the tiles as they stand once the exit code is written (R418). -/
theorem haltPartition_harts (s : State) (p : Nat) (code : Word) :
    (haltPartition s p code).harts = (haltHarts (setPt (endPieces { s with cinches := s.cinches.filter (·.part != p) } p) p 3
      (BitVec.ofNat 64 (code.toNat % 2 ^ 32))) p).harts := by
  simp only [haltPartition, send_harts, setPtState_harts, dropAllClaims_harts, dropWork_harts]

/-- A tile without a region word runs no partition. -/
theorem tilePart_of_ctl_nil {s : State} (h : s.ctl = []) (t : Nat) : tilePart s t = none := by
  simp [tilePart, tileRegion, ctlWord, h, mgetD, mfind]

theorem rtLeave_of_no_elements {s : State} (h : s.relems = []) (f : RElem → Bool) : rtLeave s f = s := by
  rw [rtLeave, h, List.map_nil, ← h]

/-- Clearing V of a partition that does not run leaves home memory as the emptying of its slots leaves it. -/
theorem removePartition_valid_mem {s : State} {p : Nat} (hp : p < 64) (hf : s.firmware = true) (hr : running s p = false)
    (hv : bitOf (ptWord s p 0) 0 = true) (he : s.relems = []) : (removePartition s p).mem = (clearSlots s p).mem := by
  have hn : ¬64 ≤ p := by omega
  simp only [removePartition, hn, hr, hf, hv, decide_false, Bool.not_true, Bool.or_self, Bool.false_eq_true, if_false, dropPart,
    rtLeave_of_no_elements he]
  rfl

end Sys2Proof.Machine

namespace Sys2Proof.Proofs
open Sys2Proof Sys2Proof.Machine

/-- Settles O6: one byte by the laws of the sparse maps, a run of them by induction on the bytes, a granule by induction on the bytes passed. -/
theorem homeMemory : Obligations.HomeMemory := fun s a c b bs =>
  ⟨homeByte_setHomeByte s a c b, homeByte_pokeHome s a c bs, fun h => ⟨setHomeByte_memWf h a b, pokeHome_memWf h a bs⟩,
    fun g x => homeByte_writeGran s g x c⟩

/-! ## HALT of a partition past the table (R418, R432) -/

/-- The hart of tile 12 that runs is the supervisor of partition 64: its region holds a number that no entry of the table of R432 has. Word 3 of entry 64 would
stand at 0x0C007018, where the region words of tiles 12 to 15 stand (R433). -/
def runsPartition64 : State :=
  { State.reset with
    ctl := [(0x0C007018 / 8, 0x8000)]
    regions := [(0, { running := 65, halting := false, ends := 0 })]
    harts := [(192, { Hart.init with st := .running, sup := true })]
    cur := 192 }

/-- HALT in supervisor mode with its operand ready and its hart's stores performed ends the partition. -/
theorem exec_halt_storesDone {s : State} {g : BitVec 5} (hs : (curH s).sup = true) (hr : regStop s [(g, false)] none = none)
    (hd : storesDone (flushHart s s.cur) s.cur = true) :
    exec (.halt g) s = .next (haltPartition (popSrcs (flushHart s s.cur) [(g, false)]) (curPart s) (gVal s g)) := by
  have hc : storesDone (flushHart s s.cur) (flushHart s s.cur).cur = true := hd
  simp only [exec_halt, execHalt, hs, hr, hc, Bool.not_true, Bool.false_eq_true, if_false, if_true]

/-- The exit code, written past the table, takes tile 12 from its region before the harts of the partition's tiles are stopped. -/
theorem halt_runsPartition64_hart_runs :
    (hartOf (haltPartition (popSrcs (flushHart runsPartition64 runsPartition64.cur) [(0, false)]) 64 0) 192).st = .running := by
  rw [hartOf, haltPartition_harts, haltHarts_harts_of_absent fun t => ?_]
  · rfl
  · rw [tilePart_of_ctl_nil rfl t]
    exact (Option.some_ne_none 64).symm

/-- Refutes O20: its part on HALT fails where the region of the tile runs partition 64, since the exit code then overwrites the tile's region word and the hart
that executes HALT is not stopped. -/
theorem not_systemInstructions : ¬Obligations.SystemInstructions := by
  rintro ⟨-, halts, -⟩
  have hs : (curH runsPartition64).sup = true := rfl
  have hr : regStop runsPartition64 [(0, false)] none = none := rfl
  have hd : storesDone (flushHart runsPartition64 192) 192 = true := rfl
  have hp : curPart runsPartition64 = 64 := rfl
  have ht : tilePart runsPartition64 (192 / 16) = some 64 := rfl
  obtain ⟨t, he, -, -, stopped, -⟩ := (halts runsPartition64 0 hs hr).2 hd
  rw [exec_halt_storesDone hs hr hd, hp, gVal_zero] at he
  obtain rfl := Host.Outcome.next.inj he
  have h192 := stopped 192 (by decide) (by rw [hp, ht])
  rw [halt_runsPartition64_hart_runs] at h192
  exact absurd h192 (by decide)

/-! ## Removing a partition whose slot holds dirty data (R65, R432) -/

/-- The slot: both halves of granule 0 in two lines of 64 bytes, in tile 0's banks. -/
def halvesSlot : Slot := { Slot.init with st := .active, recd := [0xF0], lines := [(0, Line.at 0 false), (64, Line.at 1 false)] }
/-- The copy of granule 0 that they show, with one dirty byte. -/
def dirtyCopy : Copy := { st := .m, data := 1, mask := 1, psn := false, need := none, got := 0, part := 1, asker := none }
/-- Partition 1 has halted with that slot. -/
def haltedWithDirtyHalf : State :=
  { State.reset with
    ctl := [((0x0C006000 + 64) / 8, 5)]
    parts := [(1, { Part.init with slots := [(0, halvesSlot)] })]
    copies := [(0, dirtyCopy)]
    dir := [(0, newDir 0 true [0] 1)] }
/-- The same without the line of the first half, whose data are not yet home. -/
def firstHalfTaken : State := setLines haltedWithDirtyHalf 1 0 [(64, Line.at 1 false)]

/-- When the first of the two lines goes, the other still shows the copy, so the dirty byte is written home. -/
theorem evictLine_haltedWithDirtyHalf :
    evictLine haltedWithDirtyHalf 1 0 0 =
      setCopy (writeGran firstHalfTaken 0 ⟨1, 1 &&& lineMask 64 0, false⟩) 0 0 { dirtyCopy with mask := 1 &&& ~~~lineMask 64 0 } := by
  rw [evictLine_listed (x := Line.at 0 false) rfl]
  change release firstHalfTaken 0 0 (lineMask 64 0) = _
  exact release_shown_dirty (c := dirtyCopy) rfl rfl rfl (by decide)

/-- The second line leaves that byte as it is. -/
theorem homeByte_clearSlots_haltedWithDirtyHalf : homeByte (clearSlots haltedWithDirtyHalf 1) 0 = 1 := by
  have hp : (partOf haltedWithDirtyHalf 1).slots = [(0, halvesSlot)] := rfl
  have hs : slotOf (evictLine haltedWithDirtyHalf 1 0 0) 1 0 = slotOf firstHalfTaken 1 0 := by
    simp only [evictLine_haltedWithDirtyHalf, slotOf, partOf, setCopy, writeGran_parts]
  have hx : mfind (slotOf (evictLine haltedWithDirtyHalf 1 0 0) 1 0).lines 64 = some (Line.at 1 false) := by rw [hs]; rfl
  have hl : recLine (slotRec (slotOf (evictLine haltedWithDirtyHalf 1 0 0) 1 0)) = 64 := by rw [hs]; rfl
  calc homeByte (clearSlots haltedWithDirtyHalf 1) 0
      = homeByte (evictLine (evictLine haltedWithDirtyHalf 1 0 0) 1 0 64) 0 := by
        simp only [clearSlots, homeByte_setPart, hp, halvesSlot, List.foldl_cons, List.foldl_nil]
    _ = homeByte (evictLine haltedWithDirtyHalf 1 0 0) 0 := homeByte_evictLine_outside hx (by rw [hl]; decide)
    _ = homeByte (writeGran firstHalfTaken 0 ⟨1, 1 &&& lineMask 64 0, false⟩) 0 := by rw [evictLine_haltedWithDirtyHalf, homeByte_setCopy]
    _ = 1 := by rw [homeByte_writeGran, if_pos (by decide)]; simp

/-- Refutes O60: clearing V of a partition empties its slots, and a line of 64 bytes that goes while another line shows the other half of its granule writes its
dirty bytes home, so memory does not stay as it was. -/
theorem not_managementSteps : ¬Obligations.ManagementSteps := by
  rintro ⟨startAndRemove, -, -⟩
  have hr : running haltedWithDirtyHalf 1 = false := rfl
  have hv : bitOf (ptWord haltedWithDirtyHalf 1 0) 0 = true := rfl
  obtain ⟨-, -, -, -, -, removes⟩ := startAndRemove haltedWithDirtyHalf 1 0 [] (by decide)
  obtain ⟨u, he, -, hmem, -⟩ := removes rfl (by simpa [running] using hr) hv
  obtain rfl := Host.Outcome.next.inj ((exec_partitionRemove _).symm.trans he)
  have hclear : (clearSlots haltedWithDirtyHalf 1).mem = [] := (removePartition_valid_mem (by decide) rfl hr hv rfl).symm.trans hmem
  have hbyte := homeByte_clearSlots_haltedWithDirtyHalf
  rw [homeByte, if_pos (by decide), hclear] at hbyte
  exact absurd hbyte (by decide)

end Sys2Proof.Proofs
end

section
/-! PROOFS. The statements of spec/01_address_spaces_and_translation.md: taking a trap. -/

namespace Sys2Proof.Machine
open Sys2Proof

/-! ## Words read by their bits (R9, R411, R413) -/

theorem bitOf_eq_getLsbD (w : Word) (i : Nat) : bitOf w i = w.getLsbD i := by
  rw [bitOf, BitVec.getLsbD, Nat.testBit_eq_decide_div_mod_eq]
  rfl

/-- The number of 55 bits sign-extended to a word: the canonical address with those low bits. -/
theorem canon_eq_signExtend (v : Nat) : canon v = (BitVec.ofNat 55 v).signExtend 64 := by
  apply BitVec.eq_of_toNat_eq
  rw [BitVec.toNat_signExtend, canon, sext, BitVec.msb_eq_decide]
  simp only [BitVec.toNat_ofNat, BitVec.toNat_setWidth, Nat.reducePow, Nat.reduceSub, Nat.reduceBEq, Bool.false_eq_true, if_false, beq_iff_eq,
    decide_eq_true_eq, apply_ite BitVec.toNat, Nat.mod_mod]
  split <;> split <;> omega

/-- tvec holds its entry by the 53 bits above its low two. -/
theorem tvecEntry_eq (w : Word) : tvecEntry w = ((w >>> 2).setWidth 53 ++ (0 : BitVec 2)).signExtend 64 := by
  rw [tvecEntry, canon_eq_signExtend]
  congr 1
  apply BitVec.eq_of_toNat_eq
  have hz : (0 : BitVec 2).toNat = 0 := rfl
  simp only [bits, BitVec.toNat_append, BitVec.toNat_setWidth, BitVec.toNat_ushiftRight, BitVec.toNat_ofNat, Nat.shiftRight_eq_div_pow,
    Nat.shiftLeft_eq, hz, Nat.or_zero]
  omega

/-- estat of R413 as a sum of its fields. -/
theorem estatOf_eq (sup : Bool) (bar : Option (BitVec 31)) :
    estatOf sup bar = (if sup then 1 else 0) + 2 + (match bar with | none => 0 | some p => 4 + p.setWidth 64 <<< 4) := by
  cases bar with
  | none => cases sup <;> rfl
  | some p =>
    apply BitVec.eq_of_toNat_eq
    cases sup <;> simp [estatOf, Nat.shiftLeft_eq]

end Sys2Proof.Machine
namespace Sys2Proof.Proofs
open Sys2Proof Sys2Proof.Machine

/-- Settles O18: the entry is the branch of `takeTrap` that writes the executing hart alone, field by field. -/
theorem takeTrap : Obligations.TakeTrap := by
  intro s cause sub addr resume hv hx
  have hv' : bitOf (partOf s (curPart s)).tvec 0 = true := (bitOf_eq_getLsbD _ 0).trans hv
  have hx' : bitOf (curH s).tr.estat 1 = false := (bitOf_eq_getLsbD _ 1).trans hx
  simp only [takeTrap_entry hv' hx', curH_setCur]
  refine ⟨trivial, ?_, trivial, estatOf_eq _ _, trivial, tvecEntry_eq _, trivial, rfl, trivial, trivial, rfl, fun h hn => hartOf_setCur_other s _ hn⟩
  rw [Nat.add_comm, Nat.mul_comm]

end Sys2Proof.Proofs
end

section
/-! PROOFS. The statements of spec/01_address_spaces_and_translation.md: shootdowns. -/

namespace Sys2Proof.Machine
open Sys2Proof

/-! ## Maps changed entry by entry -/

theorem mfind_map {α β : Type} (f : Nat → α → β) (m : SMap α) (k : Nat) : mfind (m.map fun p => (p.1, f p.1 p.2)) k = (mfind m k).map (f k) := by
  induction m with
  | nil => rfl
  | cons p r ih =>
    simp only [List.map_cons, mfind]
    split
    · simp_all
    · exact ih

/-- Every value of a map changed entry by entry satisfies what the changed values and the default do. -/
theorem mgetD_map_of {α : Type} {P : α → Prop} {f : Nat → α → α} {m : SMap α} {k : Nat} {d : α} (hf : ∀ a, P (f k a)) (hd : P d) :
    P (mgetD (m.map fun p => (p.1, f p.1 p.2)) k d) := by
  rw [mgetD, mfind_map]
  cases mfind m k with
  | none => exact hd
  | some a => exact hf a

/-! ## The operands (R14, R43) -/

theorem canonical_iff (a : Word) : canonical a = true ↔ Claims.Canonical a := by
  have ha := a.isLt
  rw [Claims.Canonical, ← BitVec.toNat_inj, BitVec.toNat_signExtend, BitVec.msb_eq_decide]
  simp only [canonical, bits, Bool.or_eq_true, beq_iff_eq, BitVec.toNat_setWidth, decide_eq_true_eq]
  split <;> omega

/-! ## The list of shootdowns -/

theorem shootOf_id {s : State} {id : Nat} {x : Shoot} (h : shootOf s id = some x) : x.id = id := by
  simpa using List.find?_some h

/-- A shootdown written back under its number is found there. -/
theorem shootOf_setShoot {s : State} {id : Nat} {x y : Shoot} (h : shootOf s id = some x) (hy : y.id = id) : shootOf (setShoot s y) id = some y := by
  subst hy
  rw [shootOf] at h
  have hp : ((fun z : Shoot => z.id == y.id) ∘ fun z => if z.id == y.id then y else z) = fun z => z.id == y.id := by
    funext z
    simp only [Function.comp_apply, beq_iff_eq]
    split <;> simp [*]
  have hx : x.id = y.id := shootOf_id h
  simp only [shootOf, setShoot, List.find?_map, hp, h, Option.map_some, hx, beq_self_eq_true, if_true]

theorem shootOf_congr {s t : State} (h : t.shoots = s.shoots) (id : Nat) : shootOf t id = shootOf s id := by rw [shootOf, h, shootOf]

/-! ## What a stack's drop does to its tiles (R44) -/

/-- The states that differ from s in tiles alone, and there not in their translations. -/
structure KeepsXlats (s t : State) : Prop where
  rest : ∃ m, t = { s with tiles := m }
  gtlb : ∀ i, (tileOf t i).gtlb = (tileOf s i).gtlb
  itlb : ∀ i, (tileOf t i).itlb = (tileOf s i).itlb

theorem KeepsXlats.refl (s : State) : KeepsXlats s s := ⟨⟨s.tiles, rfl⟩, fun _ => rfl, fun _ => rfl⟩

theorem KeepsXlats.trans {s t u : State} (h : KeepsXlats s t) (g : KeepsXlats t u) : KeepsXlats s u where
  rest := by
    obtain ⟨m, rfl⟩ := h.rest
    obtain ⟨n, rfl⟩ := g.rest
    exact ⟨n, rfl⟩
  gtlb i := (g.gtlb i).trans (h.gtlb i)
  itlb i := (g.itlb i).trans (h.itlb i)

theorem keepsXlats_setTile {s : State} {k : Nat} {x : Tile} (hg : x.gtlb = (tileOf s k).gtlb) (hi : x.itlb = (tileOf s k).itlb) : KeepsXlats s (setTile s k x) where
  rest := ⟨_, rfl⟩
  gtlb i := by
    by_cases h : i = k
    · subst h
      exact (congrArg Tile.gtlb (mgetD_mput_same _ _ _ _)).trans hg
    · exact congrArg Tile.gtlb (mgetD_mput_other _ _ _ _ h)
  itlb i := by
    by_cases h : i = k
    · subst h
      exact (congrArg Tile.itlb (mgetD_mput_same _ _ _ _)).trans hi
    · exact congrArg Tile.itlb (mgetD_mput_other _ _ _ _ h)

theorem keepsXlats_flushMerge (s : State) (t : Nat) (p : MergeE → Bool) : KeepsXlats s (flushMerge s t p) := keepsXlats_setTile rfl rfl

theorem keepsXlats_shootFabric (s : State) (x : Shoot) (t : Nat) : KeepsXlats s (shootFabric s x t) := by
  simp only [shootFabric]
  split
  · split
    · split
      · exact .refl s
      · exact keepsXlats_setTile rfl rfl
    · exact .refl s
  · exact .refl s

theorem keepsXlats_foldl {α : Type} {f : State → α → State} (hf : ∀ s a, KeepsXlats s (f s a)) (l : List α) (s : State) : KeepsXlats s (l.foldl f s) := by
  induction l generalizing s with
  | nil => exact .refl s
  | cons a r ih => exact (hf s a).trans (ih _)

/-- A tile that dropped a shootdown's translations holds none. -/
theorem shootTile_clean (x : Shoot) (asid : Nat) (t : Tile) :
    (∀ y ∈ (shootTile x asid t).gtlb, shootHits x asid y.2 = false) ∧ ∀ y ∈ (shootTile x asid t).itlb, shootHits x asid y = false := by
  constructor
  · intro y hy
    simpa using (List.mem_filter.mp hy).2
  · intro y hy
    simpa using (List.mem_filter.mp hy).2

/-- A hart that dropped them holds none in its unit-stride register. -/
theorem shootHart_clean {x : Shoot} {asid : Nat} {h : Hart} {y : Xlat} (hy : (shootHart x asid h).ustr = some y) : shootHits x asid y = false := by
  simpa using (Option.filter_eq_some_iff.mp hy).2

/-! ## The steps -/

/-- What shootDrop does before the merge buffers and awls: the caches of the stack, of its tiles, its harts and the saved contexts drop what x names. -/
def dropXlats (s : State) (x : Shoot) (k : Nat) : State :=
  let asid := asidOf s x.part
  let st := stackOf s k
  { setStack s k { st with llc := st.llc.filter (fun y => !shootHits x asid y), walk := st.walk.filter (fun w => w.1 != asid) } with
    tiles := s.tiles.map (fun p => (p.1, if p.1 / 128 == k then shootTile x asid p.2 else p.2))
    harts := s.harts.map (fun p => (p.1, if p.1 / 2048 == k then shootHart x asid p.2 else p.2))
    shadow := s.shadow.map fun p => (p.1, if p.1 / 64 / 128 == k then shootSaved x asid p.2 else p.2) }

theorem tileOf_dropXlats_clean (s : State) (x : Shoot) {k i : Nat} (h : i / 128 = k) :
    (∀ y ∈ (tileOf (dropXlats s x k) i).gtlb, shootHits x (asidOf s x.part) y.2 = false) ∧
      ∀ y ∈ (tileOf (dropXlats s x k) i).itlb, shootHits x (asidOf s x.part) y = false := by
  refine mgetD_map_of (P := fun t : Tile => (∀ y ∈ t.gtlb, shootHits x (asidOf s x.part) y.2 = false) ∧ ∀ y ∈ t.itlb, shootHits x (asidOf s x.part) y = false)
    (f := fun i t => if i / 128 == k then shootTile x (asidOf s x.part) t else t) (fun t => ?_) ?_
  · simp only [h, beq_self_eq_true, if_true]
    exact shootTile_clean x _ t
  · simp [Tile.init]

theorem hartOf_dropXlats_clean (s : State) (x : Shoot) {k h : Nat} {y : Xlat} (hk : h / 2048 = k) (hy : (hartOf (dropXlats s x k) h).ustr = some y) :
    shootHits x (asidOf s x.part) y = false := by
  have := mgetD_map_of (P := fun t : Hart => t.ustr = some y → shootHits x (asidOf s x.part) y = false)
    (f := fun i t => if i / 2048 == k then shootHart x (asidOf s x.part) t else t) (m := s.harts) (k := h) (d := Hart.init) (fun t => ?_) ?_
  · exact this hy
  · simp only [hk, beq_self_eq_true, if_true]
    exact shootHart_clean
  · simp [Hart.init]

theorem shadow_dropXlats_clean (s : State) (x : Shoot) {k : Nat} {y : Nat × TileCtx} (hy : y ∈ (dropXlats s x k).shadow) (hk : y.1 / 64 / 128 = k) :
    (∀ z ∈ y.2.tile.gtlb, shootHits x (asidOf s x.part) z.2 = false) ∧ ∀ z ∈ y.2.tile.itlb, shootHits x (asidOf s x.part) z = false := by
  obtain ⟨p, -, rfl⟩ := List.mem_map.mp hy
  have hp : (p.1 / 64 / 128 == k) = true := by simpa using hk
  simp only [hp, if_true]
  exact shootTile_clean x _ p.2.tile

/-- shootDrop is dropXlats, then changes of tiles that keep their translations, then the mark on the shootdown. -/
theorem exec_shootDrop_keeps {s : State} {id : Nat} {x : Shoot} (h : shootOf s id = some x) (k : Nat) : ∃ u, KeepsXlats (dropXlats s x k) u ∧
    exec (.shootDrop id k) s = .next (post (setShoot u { x with dropped := x.dropped ++ [(k, u.nextId)] }) (.shootAck id k)) := by
  refine ⟨_, keepsXlats_foldl (fun t (y : Nat × Tile) => (keepsXlats_flushMerge t y.1 (shootMerges x)).trans (keepsXlats_shootFabric _ x y.1))
    ((dropXlats s x k).tiles.filter fun y => y.1 / 128 == k) _, ?_⟩
  have htiles : (fun p : Nat × Tile => match p with | (i, t) => if i / 128 == k then (i, shootTile x (asidOf s x.part) t) else (i, t)) =
      fun p => (p.1, if p.1 / 128 == k then shootTile x (asidOf s x.part) p.2 else p.2) := by
    funext p
    simp only
    split <;> rfl
  simp only [exec_shootDrop, execShootDrop, h, htiles]
  rfl

end Sys2Proof.Machine
namespace Sys2Proof.Proofs
open Sys2Proof Sys2Proof.Machine

theorem shootInstruction : Claims.ShootInstruction := by
  intro s g h hs hr
  simp only [exec_shoot, execShoot, hs, withRegs_ready hr]
  refine ⟨fun hn hbad => ?_, fun hn hbad hd => ?_, fun hn hbad hd => ?_, fun id hi ha => ?_, fun id hi ha => ?_⟩
  · simp only [hn, hbad]
    rfl
  · have hd' : storesDone (flushHart s s.cur) (flushHart s s.cur).cur = false := hd
    simp only [hn, hbad, hd']
    rfl
  · have hd' : storesDone (flushHart s s.cur) (flushHart s s.cur).cur = true := hd
    simp only [hn, hbad, hd']
    have hk : bits (gVal s h) 1 0 = (gVal s h).toNat % 4 := by simp [bits]
    have hc : ∀ (t : State) (y : Hart) l n ag, curH { setCur t y with shoots := l, nextId := n, agenda := ag } = y := fun t y _ _ _ => curH_setCur t y
    refine ⟨_, rfl, ⟨_, rfl, rfl, rfl, rfl, hk, rfl, ?_, rfl, rfl⟩, ?_, ?_, ?_, ?_⟩
    · simp only [hk, beq_iff_eq]
    · simp only [post, newId, hc]
      rfl
    · simp only [curH_setCur]
    · simp only [post, newId, hc]
      rfl
    · exact List.mem_append_right _ (List.mem_singleton_self _)
  · simp only [hi, ha]
    rfl
  · simp only [hi, ha]
    refine ⟨_, rfl, ?_⟩
    simp only [curH_goTo, curH_setCur]
    exact ⟨trivial, rfl, trivial⟩

theorem shootOperands : Claims.ShootOperands := by
  intro a e
  have he := e.isLt
  have hk : bits e 1 0 = e.toNat % 4 := by simp [bits]
  have hr : bits e 15 2 = e.toNat / 4 % 2 ^ 14 := rfl
  have hn : bits e 40 16 = e.toNat / 2 ^ 16 % 2 ^ 25 := rfl
  have ht : bits e 63 41 ≠ 0 ↔ 2 ^ 41 ≤ e.toNat := by
    rw [bits]
    omega
  simp only [shootBad, Bool.or_eq_true, Bool.and_eq_true, beq_iff_eq, bne_iff_ne, ht, decide_eq_true_eq, Bool.not_eq_true', ← Bool.not_eq_true, canonical_iff]
  rw [hk, hr, hn]
  tauto

theorem shootSteps : Claims.ShootSteps := by
  intro s id k x h
  have hid := shootOf_id h
  refine ⟨fun hl => ?_, fun hl => ?_, ?_, fun hp hb ht ha => ?_, rfl⟩
  · simp only [exec_shootBroadcast, execShootBroadcast, h, if_neg (Nat.not_le.mpr hl)]
    exact ⟨_, rfl, shootOf_setShoot h hid, rfl⟩
  · simp only [exec_shootBroadcast, execShootBroadcast, h, if_pos hl]
  · obtain ⟨u, hu, he⟩ := exec_shootDrop_keeps h k
    obtain ⟨m, rfl⟩ := hu.rest
    have hstk := mgetD_mput_same s.stks k { stackOf s k with
      llc := (stackOf s k).llc.filter (fun y => !shootHits x (asidOf s x.part) y)
      walk := (stackOf s k).walk.filter (fun w => w.1 != asidOf s x.part) } Stack.init
    refine ⟨_, he, fun y hy => ?_, fun w hw => ?_, fun i hi => ?_, fun j y hj hy => ?_, fun y hy hj => ?_, ?_, ?_, rfl⟩
    · rw [stackOf] at hy
      replace hy := (congrArg Stack.llc hstk) ▸ hy
      simpa using (List.mem_filter.mp hy).2
    · replace hw := (congrArg Stack.walk hstk) ▸ hw
      simpa using (List.mem_filter.mp hw).2
    · show (∀ y ∈ (tileOf { dropXlats s x k with tiles := m } i).gtlb, _) ∧ ∀ y ∈ (tileOf { dropXlats s x k with tiles := m } i).itlb, _
      rw [hu.gtlb, hu.itlb]
      exact tileOf_dropXlats_clean s x hi
    · exact hartOf_dropXlats_clean s x hj hy
    · exact shadow_dropXlats_clean s x hy hj
    · exact shootOf_setShoot (s := { dropXlats s x k with tiles := m }) (id := id) h hid
    · exact List.mem_append_right _ (List.mem_singleton_self _)
  · have hall : (List.range 4).all (k :: x.acked).contains = true ↔ 0 ∈ k :: x.acked ∧ 1 ∈ k :: x.acked ∧ 2 ∈ k :: x.acked ∧ 3 ∈ k :: x.acked := by
      simp only [List.range_eq_range', List.range', List.all_cons, List.all_nil, List.contains_eq_mem, Bool.and_eq_true, decide_eq_true_eq, Bool.and_true]
    have hsb : ∀ (o : Nat → Bool) (f : SbEntry → Bool), (s.harts.any fun p => o p.1 && p.2.sb.any f) = false := fun o f =>
      List.any_eq_false.mpr fun p hm => by simp [hb p hm]
    have hmerge : ∀ (o : Nat → Bool) (f : Nat × MergeE → Bool), (s.tiles.any fun p => o p.1 && p.2.merge.any f) = false := fun o f =>
      List.any_eq_false.mpr fun p hm => by simp [(ht p hm).1]
    have hburst : ∀ o : Nat → Bool, (s.tiles.any fun p => o p.1 && shootBursts x p.2) = false := fun o =>
      List.any_eq_false.mpr fun p hm => by simp [(ht p hm).2]
    simp only [exec_shootAck, execShootAck, h, hp, ha, hsb (fun i => i / 2048 == k && tilePart s (i / 16) == some x.part),
      hmerge (fun i => i / 128 == k), hburst (fun i => i / 128 == k), List.any_nil, Bool.or_self, Bool.false_eq_true, if_false]
    split
    · rename_i hy
      rw [if_pos (hall.mp hy)]
      exact ⟨_, rfl, shootOf_setShoot h hid, rfl⟩
    · rename_i hy
      rw [if_neg fun hm => hy (hall.mpr hm), List.append_nil]
      exact ⟨_, rfl, shootOf_setShoot h hid, rfl⟩

/-- Settles O22: the drop removes by filters what the shootdown names, and the changes of tiles after it keep their translations. -/
theorem shootdown : Obligations.Shootdown := ⟨shootInstruction, shootOperands, shootSteps⟩

end Sys2Proof.Proofs
end

section
/-! PROOFS. The statements of spec/01_address_spaces_and_translation.md: control registers. -/

namespace Sys2Proof.Machine
open Sys2Proof

/-! ## What a write of a control register leaves (R270) -/

theorem tileOf_setTile_same (s : State) (t : Nat) (x : Tile) : tileOf (setTile s t x) t = x := mgetD_mput_same _ _ _ _
theorem partOf_setPart_same (s : State) (p : Nat) (x : Part) : partOf (setPart s p x) p = x := mgetD_mput_same _ _ _ _

/-- Two harts hold the same at the place of register j. -/
structure SameHartAt (h k : Hart) (j : Nat) : Prop where
  fmt : 0x11 ≤ j → j ≤ 0x17 → mgetD h.fmt (j - 0x10) 0 = mgetD k.fmt (j - 0x10) 0 := by intros; rfl
  ctab : 0x18 ≤ j → j ≤ 0x1B → mgetD h.ctab (j - 0x18) 0 = mgetD k.ctab (j - 0x18) 0 := by intros; rfl
  wm : 0x28 ≤ j → j ≤ 0x2B → mgetD h.wm (j - 0x28) 0 = mgetD k.wm (j - 0x28) 0 := by intros; rfl
  wmb : 0x2C ≤ j → j ≤ 0x2F → mgetD h.wmb (j - 0x2C) 0 = mgetD k.wmb (j - 0x2C) 0 := by intros; rfl
  fcsr : j = 0 → h.fcsr = k.fcsr := by intros; rfl
  vcsr : j = 1 → h.v.vcsr = k.v.vcsr := by intros; rfl
  vrc : j = 2 → h.v.vrc = k.v.vrc := by intros; rfl
  vfill : j = 3 → h.v.vfill = k.v.vfill := by intros; rfl
  vrs : j = 4 → h.v.vrs = k.v.vrs := by intros; rfl
  epc : j = 0x805 → h.tr.epc = k.tr.epc := by intros; rfl
  ecause : j = 0x806 → h.tr.ecause = k.tr.ecause := by intros; rfl
  eaddr : j = 0x807 → h.tr.eaddr = k.tr.eaddr := by intros; rfl
  estat : j = 0x808 → h.tr.estat = k.tr.estat := by intros; rfl
  ix : h.ix = k.ix := by rfl
  vl : h.v.vl = k.v.vl := by rfl
  vlreq : h.v.vlreq = k.v.vlreq := by rfl
  vtype : h.v.vtype = k.v.vtype := by rfl

/-- A write of the executing hart leaves the registers whose places in it stay as they were. -/
theorem crRead_setCur_keeps {s : State} {h : Hart} {j : Nat} (same : SameHartAt h (curH s) j) : crRead (setCur s h) j = crRead s j := by
  simp only [crRead, curH_setCur, curTile_setCur, curPart_setCur, tileOf_setCur, partOf_setCur, Bool.and_eq_true, decide_eq_true_eq]
  split
  · exact same.fmt (And.left ‹_›) (And.right ‹_›)
  split
  · exact same.ctab (And.left ‹_›) (And.right ‹_›)
  split
  · rfl
  split
  · exact same.wm (And.left ‹_›) (And.right ‹_›)
  split
  · rw [same.wmb (And.left ‹_›) (And.right ‹_›)]
  split
  · rw [same.ix]
  split
  · exact same.fcsr rfl
  · exact same.vcsr rfl
  · exact same.vrc rfl
  · exact same.vfill rfl
  · exact same.vrs rfl
  · exact same.vl
  · exact same.vlreq
  · exact same.vtype
  any_goals rfl
  · exact same.epc rfl
  · exact same.ecause rfl
  · exact same.eaddr rfl
  · exact same.estat rfl

/-- Two partitions hold the same at the place of register j. -/
structure SamePartAt (p q : Part) (j : Nat) : Prop where
  ptbr : j = 0x800 → p.ptbr = q.ptbr := by intros; rfl
  tsqb : j = 0x801 → p.tsqb = q.tsqb := by intros; rfl
  tscons : j = 0x802 → p.tscons = q.tscons := by intros; rfl
  tvec : j = 0x804 → p.tvec = q.tvec := by intros; rfl
  fsqb : j = 0x810 → p.fsqb = q.fsqb := by intros; rfl
  fscons : j = 0x811 → p.fscons = q.fscons := by intros; rfl
  fsdrop : j = 0x812 → p.fsdrop = q.fsdrop := by intros; rfl

/-- A write of the partition leaves the registers whose places in it stay as they were. -/
theorem crRead_setPart_keeps {s : State} {p : Part} {j : Nat} (same : SamePartAt p (partOf s (curPart s)) j) :
    crRead (setPart s (curPart s) p) j = crRead s j := by
  have hp : partOf (setPart s (curPart s) p) (curPart (setPart s (curPart s) p)) = p := partOf_setPart_same _ _ _
  simp only [crRead, hp]
  iterate 6
    split
    · rfl
  split
  any_goals rfl
  · exact same.ptbr rfl
  · exact same.tsqb rfl
  · exact same.tscons rfl
  · exact same.tvec rfl
  · exact same.fsqb rfl
  · exact same.fscons rfl
  · exact same.fsdrop rfl

/-- A write of the tile leaves the registers whose places in it stay as they were. -/
theorem crRead_setTile_keeps {s : State} {x : Tile} {j : Nat}
    (tcfg : 0x20 ≤ j → j ≤ 0x27 → mgetD x.tcfg (j - 0x20) 0 = mgetD (tileOf s (curTile s)).tcfg (j - 0x20) 0)
    (laneStep : x.laneStep = (tileOf s (curTile s)).laneStep := by rfl) :
    crRead (setTile s (curTile s) x) j = crRead s j := by
  have ht : tileOf (setTile s (curTile s) x) (curTile (setTile s (curTile s) x)) = x := tileOf_setTile_same _ _ _
  simp only [crRead, ht, Bool.and_eq_true, decide_eq_true_eq]
  iterate 2
    split
    · rfl
  split
  · exact tcfg (And.left ‹_›) (And.right ‹_›)
  iterate 3
    split
    · rfl
  split
  any_goals rfl
  · rw [laneStep]

theorem curH_post (s : State) (e : Event) : curH (post s e) = curH s := rfl
theorem crRead_post (s : State) (e : Event) (j : Nat) : crRead (post s e) j = crRead s j := rfl

/-- A write of a register is read at no other, but for the two whose writes are commands. -/
theorem crRead_crWrite_other (s : State) {i j : Nat} (v : Word) (ha : i ≠ 0x803) (he : i ≠ 0x813) (hn : i ≠ j) : crRead (crWrite s i v) j = crRead s j := by
  simp only [crWrite, Bool.and_eq_true, decide_eq_true_eq]
  split
  · exact crRead_setCur_keeps { fmt := fun _ _ => mgetD_mset_other _ _ _ _ (by omega) }
  split
  · exact crRead_setCur_keeps { ctab := fun _ _ => mgetD_mset_other _ _ _ _ (by omega) }
  split
  · exact crRead_setTile_keeps (fun _ _ => mgetD_mset_other _ _ _ _ (by omega))
  split
  · rw [watermarkOp, crRead_post]
    split
    · exact crRead_setCur_keeps { wm := fun _ _ => mgetD_mset_other _ _ _ _ (by omega) }
    · exact crRead_setCur_keeps { wmb := fun _ _ => mgetD_mset_other _ _ _ _ (by omega) }
  have away : ∀ {p : Prop}, j = i → p := fun e => absurd e.symm hn
  split
  · exact crRead_setCur_keeps { fcsr := away }
  · exact crRead_setCur_keeps { vcsr := away }
  · split
    · exact crRead_setCur_keeps { vrc := away }
    · rfl
  · exact crRead_setCur_keeps { vfill := away }
  · exact crRead_setCur_keeps { vrs := away }
  · exact crRead_setPart_keeps { ptbr := away }
  · rw [crRead_post]
    exact crRead_setPart_keeps { tsqb := away }
  · rw [crRead_post]
    exact crRead_setPart_keeps { tscons := away }
  · exact absurd rfl ha
  · exact crRead_setPart_keeps { tvec := away }
  · exact crRead_setCur_keeps { epc := away }
  · exact crRead_setCur_keeps { ecause := away }
  · exact crRead_setCur_keeps { eaddr := away }
  · exact crRead_setCur_keeps { estat := away }
  · exact crRead_setPart_keeps { fsqb := away }
  · exact crRead_setPart_keeps { fscons := away }
  · exact crRead_setPart_keeps { fsdrop := away }
  · exact absurd rfl he
  · rfl

/-! ## What a written register reads (R217, R270) -/

/-- The low three bits replaced. -/
theorem setBits_low3 (w : Word) (n : Nat) : setBits w 2 0 n = (w &&& ~~~(7 : Word)) ||| BitVec.ofNat 64 (n % 8) := by
  have hs : w >>> 3 <<< 3 = w &&& ~~~(7 : Word) := BitVec.shiftLeft_ushiftRight
  have hw : (w >>> 3 <<< 3).toNat = 2 ^ 3 * (w.toNat / 8) := by
    simp only [BitVec.toNat_shiftLeft, BitVec.toNat_ushiftRight, Nat.shiftLeft_eq, Nat.shiftRight_eq_div_pow]
    omega
  apply BitVec.eq_of_toNat_eq
  rw [← hs, BitVec.toNat_or, hw, BitVec.toNat_ofNat, Nat.mod_eq_of_lt (by omega : n % 8 < 2 ^ 64), ← Nat.two_pow_add_eq_or_of_lt (by omega),
    setBits, bits, BitVec.toNat_ofNat]
  omega

theorem frmOf_eq (w : Word) : frmOf w = w.toNat % 8 := by simp [frmOf, bits]

theorem and_seven (w : Word) : w &&& 7 = BitVec.ofNat 64 (w.toNat % 8) := by
  apply BitVec.eq_of_toNat_eq
  rw [BitVec.toNat_and, BitVec.toNat_ofNat, show (7 : Word).toNat = 2 ^ 3 - 1 from rfl, Nat.and_two_pow_sub_one_eq_mod]
  omega

/-- FRM keeps its value against the reserved modes. -/
theorem writeStatus_eq (vec : Bool) (old new : Word) : writeStatus vec old new =
    if 5 ≤ new.toNat % 8 then (new &&& (if vec then 0x7F18 else 0x1F18)) ||| (old &&& 7) else new &&& (if vec then 0x7F1F else 0x1F1F) := by
  simp only [writeStatus, frmOf_eq, setBits_low3, and_seven old, Nat.mod_mod, BitVec.and_assoc]
  cases vec <;> rfl
/-- A register of writable bits reads those of the word written. -/
theorem crRead_crWrite_plain (s : State) {i : Nat} {v m : Word} (h : Claims.plainRegister i = some m) : crRead (crWrite s i v) i = v &&& m := by
  have hall : v &&& (-1) = v := BitVec.and_allOnes
  simp only [Claims.plainRegister] at h
  split at h
  · rename_i hi
    cases h
    simp [crWrite, crRead, hi]
  split at h
  · rename_i hi
    cases h
    have h1 : ¬i ≤ 0x17 := by omega
    simp [crWrite, crRead, hi, h1]
    exact hall.symm
  split at h
  · rename_i hi
    cases h
    have h1 : ¬i ≤ 0x17 := by omega
    have h2 : ¬i ≤ 0x1B := by omega
    have ht : ∀ x, tileOf (setTile s (curTile s) x) (curTile (setTile s (curTile s) x)) = x := tileOf_setTile_same _ _
    simp [crWrite, crRead, hi, h1, h2, ht]
  split at h
  · rename_i hi
    cases h
    have h1 : ¬i ≤ 0x17 := by omega
    have h2 : ¬i ≤ 0x1B := by omega
    have h3 : ¬i ≤ 0x27 := by omega
    have h4 : i ≤ 0x2F := by omega
    have h5 : i < 0x2C := by omega
    simp [crWrite, watermarkOp, curH_post, crRead, hi, h1, h2, h3, h4, h5]
  split at h <;> cases h
  · rw [hall]
    exact congrArg (·.v.vfill) (curH_setCur s _)
  · rw [hall]
    exact congrArg (·.v.vrs) (curH_setCur s _)
  · exact congrArg Part.tscons (partOf_setPart_same s (curPart s) _)
  · exact congrArg Part.tvec (partOf_setPart_same s (curPart s) _)
  · rw [hall]
    exact congrArg (·.tr.epc) (curH_setCur s _)
  · exact congrArg (·.tr.ecause) (curH_setCur s _)
  · rw [hall]
    exact congrArg (·.tr.eaddr) (curH_setCur s _)
  · exact congrArg (·.tr.estat) (curH_setCur s _)
  · exact congrArg Part.fscons (partOf_setPart_same s (curPart s) _)
  · exact congrArg Part.fsdrop (partOf_setPart_same s (curPart s) _)

/-- wmb holds an address of 55 bits and reads it in its canonical form (R14). -/
theorem crRead_crWrite_wmb (s : State) {i : Nat} (v : Word) (h : 0x2C ≤ i) (hl : i ≤ 0x2F) : crRead (crWrite s i v) i = (v.setWidth 55).signExtend 64 := by
  have h1 : ¬i ≤ 0x17 := by omega
  have h2 : ¬i ≤ 0x1B := by omega
  have h3 : ¬i ≤ 0x27 := by omega
  have h4 : ¬i ≤ 0x2B := by omega
  have h5 : ¬i < 0x2C := by omega
  have hc : canon (v &&& 0x007FFFFFFFFFFFFF).toNat = (v.setWidth 55).signExtend 64 := by
    rw [canon_eq_signExtend, BitVec.toNat_and, show (0x007FFFFFFFFFFFFF : Word).toNat = 2 ^ 55 - 1 from rfl, Nat.and_two_pow_sub_one_eq_mod]
    congr 1
    apply BitVec.eq_of_toNat_eq
    simp
  have hi : 0x28 ≤ i := by omega
  simp [crWrite, watermarkOp, curH_post, crRead, h, hl, h1, h2, h3, h4, h5, hi, ← hc]

theorem crRead_crWrite_fcsr (s : State) (v : Word) : crRead (crWrite s 0 v) 0 = writeStatus false (crRead s 0) v :=
  congrArg Hart.fcsr (curH_setCur s _)

theorem crRead_crWrite_vcsr (s : State) (v : Word) : crRead (crWrite s 1 v) 1 = writeStatus true (crRead s 1) v :=
  congrArg (·.v.vcsr) (curH_setCur s _)

/-- vrc takes a register count of 1 to 8 (R183). -/
theorem crRead_crWrite_vrc (s : State) (v : Word) :
    crRead (crWrite s 2 v) 2 = if 1 ≤ v.toNat % 16 ∧ v.toNat % 16 ≤ 8 then v &&& 0xF else crRead s 2 := by
  have hb : bits v 3 0 = v.toNat % 16 := by simp [bits]
  show crRead (if (1 ≤ bits v 3 0 && bits v 3 0 ≤ 8) = true then _ else s) 2 = _
  simp only [hb, Bool.and_eq_true, decide_eq_true_eq]
  split
  · exact congrArg (·.v.vrc) (curH_setCur s _)
  · rfl

/-! ## The checks (R236) -/

theorem crAssigned_iff (i : Nat) : crAssigned i = true ↔ i ≤ 4 ∨ 0x11 ≤ i ∧ i ≤ 0x1B ∨ 0x20 ≤ i ∧ i ≤ 0x2F ∨ 0x400 ≤ i ∧ i ≤ 0x402 ∨ 0x408 ≤ i ∧ i ≤ 0x40B ∨
    0x410 ≤ i ∧ i ≤ 0x414 ∨ i = 0x418 ∨ i = 0x419 ∨ 0x800 ≤ i ∧ i ≤ 0x808 ∨ 0x810 ≤ i ∧ i ≤ 0x813 := by
  simp only [crAssigned, crPartition, Bool.or_eq_true, Bool.and_eq_true, decide_eq_true_eq, beq_iff_eq, List.contains_eq_mem, List.mem_cons, List.not_mem_nil, or_false]
  omega

theorem crWriteOnly_iff (i : Nat) : crWriteOnly i = true ↔ i = 0x803 ∨ i = 0x813 := by simp [crWriteOnly]

/-- The checks as conditions on the number. -/
theorem crCheck_eq (s : State) (i : Nat) (reads writes : Bool) : crCheck s i reads writes =
    if i / 0x400 = 3 then some 0x01
    else if i / 0x400 = 2 ∧ (curH s).sup = false then some 0x02
    else if crAssigned i = false then some 0x01
    else if writes = true ∧ i / 0x400 = 1 ∨ reads = true ∧ (i = 0x803 ∨ i = 0x813) then some 0x01
    else if (0x20 ≤ i ∧ i ≤ 0x27) ∧ (tileOf s (curTile s)).mx ≠ some s.cur then some 0x0B
    else if (1 ≤ i ∧ i ≤ 4 ∨ 0x400 ≤ i ∧ i ≤ 0x402) ∧ (curH s).v.lanes = 0 then some 0x0B
    else none := by
  simp only [crCheck, ← crWriteOnly_iff, Bool.and_eq_true, Bool.or_eq_true, beq_iff_eq, bne_iff_ne, decide_eq_true_eq, Bool.not_eq_true', cILLOP, cPRIV, cOPERAND]

/-- The checks of an assigned register of class 0. -/
theorem crCheck_low {s : State} {i : Nat} {reads writes : Bool} (h : i < 0x400) (ha : crAssigned i = true) : crCheck s i reads writes =
    if (0x20 ≤ i ∧ i ≤ 0x27) ∧ (tileOf s (curTile s)).mx ≠ some s.cur then some 0x0B
    else if (1 ≤ i ∧ i ≤ 4) ∧ (curH s).v.lanes = 0 then some 0x0B else none := by
  have hv : (1 ≤ i ∧ i ≤ 4 ∨ 0x400 ≤ i ∧ i ≤ 0x402) ↔ 1 ≤ i ∧ i ≤ 4 := by omega
  rw [crCheck_eq, if_neg (by omega), if_neg (by omega), if_neg (by simp [ha]), if_neg (by omega)]
  simp only [hv]

/-- The registers whose writes are commands are not read. -/
theorem crCheck_command_read {s : State} {i : Nat} {writes : Bool} (h : i = 0x803 ∨ i = 0x813) (hs : (curH s).sup = true) : crCheck s i true writes = some 0x01 := by
  rw [crCheck_eq, if_neg (by omega), if_neg (by simp [hs])]
  split
  · rfl
  · rw [if_pos (.inr ⟨rfl, h⟩)]

/-! ## The instructions (R270) -/

section
variable {s : State} {i : BitVec 12} {rd wr : Bool} {srcs : List (BitVec 5 × Bool)} {d : Option (BitVec 5)}

theorem crOp_refused {c : Nat} (h : crCheck s i.toNat rd wr = some c) (f : State → State) : crOp i rd wr srcs d f s = Claims.traps s c 0 0 := by
  simp only [crOp, h]
  rfl

theorem crOp_waits (h : crCheck s i.toNat rd wr = none) (hr : Claims.Ready s srcs d) (hi : i = 0x803) (hp : releasePending s s.cur = true) (f : State → State) :
    crOp i rd wr srcs d f s = Claims.sleeps s .drain := by
  have hb : (i == 0x803 && releasePending s s.cur) = true := by rw [hi, hp]; rfl
  simp only [crOp, h, withRegs_ready hr, hb]
  rfl

theorem crOp_next (h : crCheck s i.toNat rd wr = none) (hr : Claims.Ready s srcs d) (hi : i ≠ 0x803 ∨ releasePending s s.cur = false) (f : State → State) :
    crOp i rd wr srcs d f s = .next (goTo (f (popSrcs s srcs)) ((curH s).pc + 4)) := by
  have hb : (i == 0x803 && releasePending s s.cur) = false := by
    rw [Bool.and_eq_false_iff, beq_eq_false_iff_ne]
    exact hi
  simp only [crOp, h, withRegs_ready hr, hb]
  rfl

end

end Sys2Proof.Machine
namespace Sys2Proof.Proofs
open Sys2Proof Sys2Proof.Machine

theorem controlRegisters : Claims.ControlRegisters := by
  intro s g v u i
  refine ⟨fun c hc => crOp_refused hc _, fun c hc => ⟨crOp_refused hc _, crOp_refused hc _⟩, fun c hc => ⟨crOp_refused hc _, crOp_refused hc _⟩,
    fun hc hr => crOp_next hc hr ?_ _, fun hc hi hp => crOp_waits hc rfl hi hp _, fun hi => ⟨fun hc hr => crOp_next hc hr hi _, fun hc => crOp_next hc rfl hi _,
    fun hc hr => ⟨crOp_next hc hr hi _, crOp_next hc hr hi _⟩⟩⟩
  refine .inl fun hi => ?_
  have h3 : i.toNat = 0x803 := congrArg BitVec.toNat hi
  cases hs : (curH s).sup
  · rw [crCheck_eq, if_neg (by omega), if_pos ⟨by omega, hs⟩] at hc
    cases hc
  · rw [crCheck_command_read (.inl h3) hs] at hc
    cases hc

theorem controlChecks : Claims.ControlChecks := by
  intro s i reads writes
  refine ⟨fun h1 h2 => ?_, fun h1 h2 hs => ?_, fun h1 h2 => ?_, fun h hs => ⟨?_, ?_⟩, fun h1 h2 => ?_, fun h1 h2 => ?_, fun h => ?_, fun h1 h2 => ?_⟩
  · rw [crCheck_eq, if_pos (by omega)]
  · rw [crCheck_eq, if_neg (by omega), if_pos ⟨by omega, hs⟩]
  · rw [crCheck_eq, if_neg (by omega), if_neg (by omega)]
    split
    · rfl
    · rw [if_pos (.inl ⟨rfl, by omega⟩)]
  · exact crCheck_command_read h hs
  · have ha : crAssigned i = true := (crAssigned_iff i).mpr (by omega)
    rw [crCheck_eq, if_neg (by omega), if_neg (by simp [hs]), if_neg (by simp [ha]), if_neg (by simp; omega), if_neg (by omega), if_neg (by omega)]
  · rw [crCheck_low (by omega) ((crAssigned_iff i).mpr (by omega))]
    simp only [h1, h2, and_self, true_and, ite_not]
    split
    · rw [if_neg (by omega)]
    · rfl
  · rw [crCheck_low (by omega) ((crAssigned_iff i).mpr (by omega)), if_neg (by omega)]
    simp only [h1, h2, and_self, true_and]
  · rw [crCheck_low (by omega) ((crAssigned_iff i).mpr (by omega)), if_neg (by omega), if_neg (by omega)]
  · have ha : crAssigned i = false := Bool.eq_false_iff.mpr fun h => by rw [crAssigned_iff] at h; omega
    rw [crCheck_eq, if_neg (by omega), if_neg (by omega), if_pos ha]

theorem controlWrites : Claims.ControlWrites := by
  intro s i j v m
  refine ⟨crRead_crWrite_plain s, crRead_crWrite_wmb s v, ?_, ?_, crRead_crWrite_vrc s v, crRead_crWrite_other s v⟩
  · rw [crRead_crWrite_fcsr, writeStatus_eq]
    rfl
  · rw [crRead_crWrite_vcsr, writeStatus_eq]
    rfl

/-- Settles O21: the instructions from the shape they share, the checks from their conditions on the number, the writes place by place. -/
theorem controlAccess : Obligations.ControlAccess := ⟨controlRegisters, controlChecks, controlWrites⟩

end Sys2Proof.Proofs
end

section
/-! PROOFS. The statements of spec/01_address_spaces_and_translation.md: pod operations. -/

namespace Sys2Proof.Machine
open Sys2Proof

/-! ## A multicast whose command names another tile (R384, R385) -/

/-- An MCAST of partition 0 that names tile 1 as its own: one packet, with no bytes, to group 0. -/
def strayMcast : Cmd := { Cmd.blank 0 0 1 0 true with kind := 80 }
/-- It stands in the queue of tile 0; group 0 holds package 1, whose peer mapping partition 0 has. -/
def strayMcastQueued : State :=
  { State.reset with
    ctl := [(0x0C007000 / 8, 0x8000), (0x0C010000 / 8, 0x4000)]
    regions := [(0, { running := 1, halting := false, ends := 0 })]
    groups := [(0, 2)]
    tiles := [(0, { Tile.init with cq := [strayMcast] })] }

/-- The tile that a pod message gives as its origin. -/
def originTile : Out → Option Nat
  | .pod t _ _ _ _ _ _ _ _ _ _ _ => some t
  | _ => none
/-- The origins of what a next state has sent. -/
def sentFrom (o : Host.Outcome State Fault Refusal) : List (Option Nat) :=
  match o with
  | .next u => u.out.map originTile
  | _ => []

/-- Group 0 has the one member 1. -/
theorem groupMembers_strayMcastQueued : groupMembers strayMcastQueued strayMcast.part strayMcast.dpkg = [1] := by decide +kernel
theorem peerOf_strayMcastQueued : peerOf strayMcastQueued strayMcast.part 1 = some 0 := by decide +kernel

/-- The packet names the command's own tile, not the tile in whose queue it was found. -/
theorem sentFrom_mcastRoute_strayMcastQueued : sentFrom (exec (.mcastRoute 0 0) strayMcastQueued) = [some 1] := by decide +kernel

end Sys2Proof.Machine

namespace Sys2Proof.Proofs
open Sys2Proof Sys2Proof.Machine

/-- Refutes O55: a multicast packet gives as its origin the tile that the command's record names. In a queue of tile 0 that holds a command which names
tile 1, MCAST_ROUTE of tile 0 sends a packet with origin 1, where the statement has origin 0. -/
theorem not_podOperations : ¬Obligations.PodOperations := by
  rintro ⟨-, answers⟩
  obtain ⟨-, -, -, -, -, -, -, -, route, -⟩ := answers strayMcastQueued 0 0 0 0 false [] strayMcast
    ⟨0, 0, 0, 0, 0, 0, [], none, [], false, false, 0, false, 0⟩ ⟨0, 0, [], true, [], []⟩
  obtain ⟨-, sends⟩ := route rfl rfl rfl rfl (by decide)
  rw [groupMembers_strayMcastQueued] at sends
  obtain ⟨u, he, -, -, -, hout⟩ := sends rfl rfl (.inr (.inl rfl)) (.inl rfl) rfl rfl
    (by simp [peerOf_strayMcastQueued]) (.inr (by decide))
  have horigin := sentFrom_mcastRoute_strayMcastQueued
  rw [he, sentFrom, hout] at horigin
  exact absurd horigin (by decide)

end Sys2Proof.Proofs
end

section
/-! PROOFS. The statements of spec/01_address_spaces_and_translation.md: every step keeps the memories in their canonical form (R16).

For each function `f` of the model on the way from the bytes at home to the step, `f_memWf` says that a state `f` answers has its
memories in canonical form when the state given to it has. They stand in the order of the definitions; each takes its function's
branches apart and cites the lemmas of what it calls. -/

namespace Sys2Proof.Machine
open Sys2Proof

/-- The memories of the state that the answer holds are in canonical form. -/
def TrRes.memWf : TrRes → Bool
  | .ok s _ => s.memWf
  | .fault s _ _ => s.memWf
theorem TrRes.ok_memWf {r : TrRes} {s : State} {x} (e : r = .ok s x) (h : r.memWf) : s.memWf := by rwa [e] at h
theorem TrRes.fault_memWf {r : TrRes} {s : State} {cause sub} (e : r = .fault s cause sub) (h : r.memWf) : s.memWf := by rwa [e] at h

/-- The memories of the state that the answer holds are in canonical form. -/
def SpanRes.memWf : SpanRes → Bool
  | .ok s _ => s.memWf
  | .fault s _ _ _ => s.memWf
theorem SpanRes.ok_memWf {r : SpanRes} {s : State} {l} (e : r = .ok s l) (h : r.memWf) : s.memWf := by rwa [e] at h
theorem SpanRes.fault_memWf {r : SpanRes} {s : State} {cause sub va} (e : r = .fault s cause sub va) (h : r.memWf) : s.memWf := by rwa [e] at h

/-- The memories of the state that the answer holds are in canonical form. -/
def RangeRes.memWf : RangeRes → Bool
  | .ok s _ => s.memWf
  | .fault s _ _ _ => s.memWf
theorem RangeRes.ok_memWf {r : RangeRes} {s : State} {ps} (e : r = .ok s ps) (h : r.memWf) : s.memWf := by rwa [e] at h
theorem RangeRes.fault_memWf {r : RangeRes} {s : State} {cause sub va} (e : r = .fault s cause sub va) (h : r.memWf) : s.memWf := by rwa [e] at h

/-- The memories of the state that the answer holds are in canonical form. -/
def Clash.memWf : Clash → Bool
  | .free  => true
  | .held s => s.memWf
  | .trap  => true
theorem Clash.held_memWf {r : Clash} {s : State} (e : r = .held s) (h : r.memWf) : s.memWf := by rwa [e] at h

/-- The memories of the state that the answer holds are in canonical form. -/
def Gate.memWf : Gate → Bool
  | .pass  => true
  | .done s => s.memWf
theorem Gate.done_memWf {r : Gate} {s : State} (e : r = .done s) (h : r.memWf) : s.memWf := by rwa [e] at h

/-- The memories of the state that the answer holds are in canonical form. -/
def Reach.memWf : Reach → Bool
  | .home s => s.memWf
  | .copy s _ => s.memWf
  | .wait s => s.memWf
  | .err s _ _ => s.memWf
theorem Reach.home_memWf {r : Reach} {s : State} (e : r = .home s) (h : r.memWf) : s.memWf := by rwa [e] at h
theorem Reach.copy_memWf {r : Reach} {s : State} {agent} (e : r = .copy s agent) (h : r.memWf) : s.memWf := by rwa [e] at h
theorem Reach.wait_memWf {r : Reach} {s : State} (e : r = .wait s) (h : r.memWf) : s.memWf := by rwa [e] at h
theorem Reach.err_memWf {r : Reach} {s : State} {cause sub} (e : r = .err s cause sub) (h : r.memWf) : s.memWf := by rwa [e] at h

/-- The memories of the state that the answer holds are in canonical form. -/
def Acc.memWf : Acc → Bool
  | .ok s _ => s.memWf
  | .wait s => s.memWf
  | .err s _ _ => s.memWf
theorem Acc.ok_memWf {r : Acc} {s : State} {bs} (e : r = .ok s bs) (h : r.memWf) : s.memWf := by rwa [e] at h
theorem Acc.wait_memWf {r : Acc} {s : State} (e : r = .wait s) (h : r.memWf) : s.memWf := by rwa [e] at h
theorem Acc.err_memWf {r : Acc} {s : State} {cause sub} (e : r = .err s cause sub) (h : r.memWf) : s.memWf := by rwa [e] at h

/-- The memories of the state that the answer holds are in canonical form. -/
def Sent.memWf : Sent → Bool
  | .done s => s.memWf
  | .wait s => s.memWf
theorem Sent.done_memWf {r : Sent} {s : State} (e : r = .done s) (h : r.memWf) : s.memWf := by rwa [e] at h
theorem Sent.wait_memWf {r : Sent} {s : State} (e : r = .wait s) (h : r.memWf) : s.memWf := by rwa [e] at h

/-- The memories of the state that the answer holds are in canonical form. -/
def Probe.memWf : Probe → Bool
  | .ok s _ => s.memWf
  | .stop s _ => s.memWf
theorem Probe.ok_memWf {r : Probe} {s : State} {l} (e : r = .ok s l) (h : r.memWf) : s.memWf := by rwa [e] at h
theorem Probe.stop_memWf {r : Probe} {s : State} {x} (e : r = .stop s x) (h : r.memWf) : s.memWf := by rwa [e] at h

/-- The memories of the state that the answer holds are in canonical form. -/
def VStep.memWf : VStep → Bool
  | .ok s _ _ => s.memWf
  | .need _ _ _ => true
  | .stop s _ => s.memWf
theorem VStep.ok_memWf {r : VStep} {s : State} {rd wr} (e : r = .ok s rd wr) (h : r.memWf) : s.memWf := by rwa [e] at h
theorem VStep.stop_memWf {r : VStep} {s : State} {x} (e : r = .stop s x) (h : r.memWf) : s.memWf := by rwa [e] at h

/-- The memories of the state that the answer holds are in canonical form. -/
def EngR.memWf : EngR → Bool
  | .ok s _ => s.memWf
  | .wait s => s.memWf
  | .serve s _ _ _ => s.memWf
  | .err s _ => s.memWf
theorem EngR.ok_memWf {r : EngR} {s : State} {bs} (e : r = .ok s bs) (h : r.memWf) : s.memWf := by rwa [e] at h
theorem EngR.wait_memWf {r : EngR} {s : State} (e : r = .wait s) (h : r.memWf) : s.memWf := by rwa [e] at h
theorem EngR.serve_memWf {r : EngR} {s : State} {va acc fk} (e : r = .serve s va acc fk) (h : r.memWf) : s.memWf := by rwa [e] at h
theorem EngR.err_memWf {r : EngR} {s : State} {m} (e : r = .err s m) (h : r.memWf) : s.memWf := by rwa [e] at h

/-- The memories of the state that the answer holds are in canonical form. -/
def Treat.memWf : Treat → Bool
  | .done s => s.memWf
  | .wait s => s.memWf
  | .stop s _ _ => s.memWf
theorem Treat.done_memWf {r : Treat} {s : State} (e : r = .done s) (h : r.memWf) : s.memWf := by rwa [e] at h
theorem Treat.wait_memWf {r : Treat} {s : State} (e : r = .wait s) (h : r.memWf) : s.memWf := by rwa [e] at h
theorem Treat.stop_memWf {r : Treat} {s : State} {cause sub} (e : r = .stop s cause sub) (h : r.memWf) : s.memWf := by rwa [e] at h

/-- The memories of the state that the answer holds are in canonical form. -/
def Rd.memWf : Rd → Bool
  | .ok s _ => s.memWf
  | .stop s _ => s.memWf
theorem Rd.ok_memWf {r : Rd} {s : State} {bs} (e : r = .ok s bs) (h : r.memWf) : s.memWf := by rwa [e] at h
theorem Rd.stop_memWf {r : Rd} {s : State} {x} (e : r = .stop s x) (h : r.memWf) : s.memWf := by rwa [e] at h

/-- The memories of the state that the answer holds are in canonical form. -/
def Cut.memWf : Cut → Bool
  | .ok s _ => s.memWf
  | .stop s _ => s.memWf
theorem Cut.ok_memWf {r : Cut} {s : State} {l} (e : r = .ok s l) (h : r.memWf) : s.memWf := by rwa [e] at h
theorem Cut.stop_memWf {r : Cut} {s : State} {x} (e : r = .stop s x) (h : r.memWf) : s.memWf := by rwa [e] at h

/-- The memories of the state that the answer holds are in canonical form. -/
def PodTr.memWf : PodTr → Bool
  | .ok s _ => s.memWf
  | .bad s _ => s.memWf
theorem PodTr.ok_memWf {r : PodTr} {s : State} {xs} (e : r = .ok s xs) (h : r.memWf) : s.memWf := by rwa [e] at h
theorem PodTr.bad_memWf {r : PodTr} {s : State} {va} (e : r = .bad s va) (h : r.memWf) : s.memWf := by rwa [e] at h

/-- The memories of the state that the answer holds are in canonical form. -/
def FetchRes.memWf : FetchRes → Bool
  | .word s _ => s.memWf
  | .wait s => s.memWf
  | .fault s _ _ _ => s.memWf
theorem FetchRes.word_memWf {r : FetchRes} {s : State} {w} (e : r = .word s w) (h : r.memWf) : s.memWf := by rwa [e] at h
theorem FetchRes.wait_memWf {r : FetchRes} {s : State} (e : r = .wait s) (h : r.memWf) : s.memWf := by rwa [e] at h
theorem FetchRes.fault_memWf {r : FetchRes} {s : State} {cause sub va} (e : r = .fault s cause sub va) (h : r.memWf) : s.memWf := by rwa [e] at h

/-- The memories of the state that the answer holds are in canonical form. -/
def Issue.memWf : Issue → Bool
  | .words s _ => s.memWf
  | .wait s => s.memWf
  | .fault s _ _ _ => s.memWf
theorem Issue.words_memWf {r : Issue} {s : State} {ws} (e : r = .words s ws) (h : r.memWf) : s.memWf := by rwa [e] at h
theorem Issue.wait_memWf {r : Issue} {s : State} (e : r = .wait s) (h : r.memWf) : s.memWf := by rwa [e] at h
theorem Issue.fault_memWf {r : Issue} {s : State} {cause sub va} (e : r = .fault s cause sub va) (h : r.memWf) : s.memWf := by rwa [e] at h

/-- The memories of the state that the answer holds are in canonical form. -/
def Res.memWf : Res → Bool
  | .ok s => s.memWf
  | .jump s _ => s.memWf
  | .stop s _ => s.memWf
theorem Res.ok_memWf {r : Res} {s : State} (e : r = .ok s) (h : r.memWf) : s.memWf := by rwa [e] at h
theorem Res.jump_memWf {r : Res} {s : State} {target} (e : r = .jump s target) (h : r.memWf) : s.memWf := by rwa [e] at h
theorem Res.stop_memWf {r : Res} {s : State} {x} (e : r = .stop s x) (h : r.memWf) : s.memWf := by rwa [e] at h

/-- The memories of the next state are in canonical form, where there is one. -/
def nextWf (o : Host.Outcome State Fault Refusal) : Bool :=
  match o with
  | .next t => t.memWf
  | _ => true

theorem fst_memWf {α : Type} {r : State × α} {s : State} {x : α} (e : r = (s, x)) (h : r.1.memWf) : s.memWf := by rwa [e] at h

theorem all_of_forall {α : Type} {o : Option α} {f : α → Bool} (h : ∀ a, f a) : o.all f := by
  cases o
  exacts [rfl, h _]

theorem some_memWf {o : Option State} {s : State} (e : o = some s) (h : o.all State.memWf) : s.memWf := by rwa [e] at h

theorem some_fst_memWf {α : Type} {o : Option (State × α)} {s : State} {x : α} (e : o = some (s, x)) (h : o.all (·.1.memWf)) :
    s.memWf := by rwa [e] at h

theorem ite_memWf {c : Prop} [Decidable c] {s t : State} (hs : s.memWf) (ht : t.memWf) : (if c then s else t).memWf := by
  split
  exacts [hs, ht]

theorem Reach.ite_memWf {c : Prop} [Decidable c] {r q : Reach} (hr : r.memWf) (hq : q.memWf) : (if c then r else q).memWf := by
  split
  exacts [hr, hq]

theorem TrRes.ite_memWf {c : Prop} [Decidable c] {r q : TrRes} (hr : r.memWf) (hq : q.memWf) : (if c then r else q).memWf := by
  split
  exacts [hr, hq]

theorem Res.ite_memWf {c : Prop} [Decidable c] {r q : Res} (hr : r.memWf) (hq : q.memWf) : (if c then r else q).memWf := by
  split
  exacts [hr, hq]

/-- A fold keeps the form where its step does. -/
theorem foldl_fst_memWf {α β : Type} {f : State × β → α → State × β} {l : List α} {r : State × β} (h : r.1.memWf)
    (hf : ∀ r x, r.1.memWf → (f r x).1.memWf) :
    (l.foldl f r).1.memWf := by
  induction l generalizing r with
  | nil => exact h
  | cons x q ih => exact ih (hf r x h)

theorem foldl_memWf {α : Type} {f : State → α → State} {l : List α} {s : State} (h : s.memWf) (hf : ∀ s x, s.memWf → (f s x).memWf) :
    (l.foldl f s).memWf := by
  induction l generalizing s with
  | nil => exact h
  | cons x r ih => exact ih (hf s x h)

/-- What leaves both memories as they were keeps their form. -/
theorem update_memWf {s t : State} (h : s.memWf) (hm : t.mem = s.mem) (hh : t.hostMem = s.hostMem) : t.memWf :=
  memWf_of_eq hm hh h

theorem takeNext_memWf {o : Host.Outcome State Fault Refusal} {s : State} (ho : nextWf o) (h : s.memWf) :
    (match o with | .next s => s | _ => s).memWf := by
  cases o with
  | next t => exact ho
  | _ => exact h

/-! ## Machine/Ops -/

theorem setHart_memWf {s : State} {hart x} (h : s.memWf) : (setHart s hart x).memWf := h

theorem setTile_memWf {s : State} {t x} (h : s.memWf) : (setTile s t x).memWf := h

theorem setPart_memWf {s : State} {p x} (h : s.memWf) : (setPart s p x).memWf := h

theorem setStack_memWf {s : State} {k x} (h : s.memWf) : (setStack s k x).memWf := h

theorem setCur_memWf {s : State} {x} (h : s.memWf) : (setCur s x).memWf := h

theorem post_memWf {s : State} {e} (h : s.memWf) : (post s e).memWf := h

theorem postOnce_memWf {s : State} {e} (h : s.memWf) : (postOnce s e).memWf := by
  unfold postOnce
  repeat' split
  all_goals exact h

theorem newId_memWf {s : State} (h : s.memWf) : (newId s).memWf := h

theorem drew_memWf {s : State} (h : s.memWf) : (drew s).memWf := h

theorem send_memWf {s : State} {o} (h : s.memWf) : (send s o).memWf := h

theorem setCtl_memWf {s : State} {off w} (h : s.memWf) : (setCtl s off w).memWf := h

theorem setPt_memWf {s : State} {p j w} (h : s.memWf) : (setPt s p j w).memWf := h

theorem setPtState_memWf {s : State} {p v} (h : s.memWf) : (setPtState s p v).memWf := h

theorem withTile_memWf {s : State} {t p f} (h : s.memWf) (hf1 : ∀ s, s.memWf → (f s).memWf) : (withTile s t p f).memWf := by
  unfold withTile
  repeat' split
  all_goals exact hf1 _ h

theorem boxAdd_memWf {s : State} {die kind part addr data} (h : s.memWf) : (boxAdd s die kind part addr data).memWf := h

theorem logTile_memWf {s : State} {t part addr} (h : s.memWf) : (logTile s t part addr).memWf := h

theorem logHome_memWf {s : State} {part pk} (h : s.memWf) : (logHome s part pk).memWf := h

theorem trapR_memWf {s : State} {cause addr} (h : s.memWf) : (trapR s cause addr).memWf := h

theorem protR_memWf {s : State} {sub addr} (h : s.memWf) : (protR s sub addr).memWf := h

theorem operandR_memWf {s : State} (h : s.memWf) : (operandR s).memWf := h

theorem waitR_memWf {s : State} {w} (h : s.memWf) : (waitR s w).memWf := h

theorem haltHarts_memWf {s : State} {p} (h : s.memWf) : (haltHarts s p).memWf := by
  unfold haltHarts
  exact update_memWf h rfl rfl

theorem wakeStalls_memWf {s : State} (h : s.memWf) : (wakeStalls s).memWf := foldl_memWf h (fun _ _ hs => postOnce_memWf hs)

theorem dropWork_memWf {s : State} {p all} (h : s.memWf) : (dropWork s p all).memWf := wakeStalls_memWf h

theorem zeroCounters_memWf {s : State} {p} (h : s.memWf) : (zeroCounters s p).memWf := h

theorem endPieces_memWf {s : State} {p} (h : s.memWf) : (endPieces s p).memWf := h

theorem dropAllClaims_memWf {s : State} {p} (h : s.memWf) : (dropAllClaims s p).memWf := h

theorem failUnit_memWf {s : State} {part tile hart sup src unit gd comp} (h : s.memWf) : (failUnit part tile hart sup src unit gd comp s).1.memWf := h

theorem failRun_memWf {s : State} {p t f} (h : s.memWf) : (failRun p t f s).1.memWf := by
  unfold failRun
  repeat' split
  any_goals exact h
  all_goals exact foldl_fst_memWf (fst_memWf ‹_› (failUnit_memWf h)) (fun _ _ hs => hs)

theorem failedWork_memWf {s : State} {p t x} (h : s.memWf) : (failedWork s p t x).1.memWf := by
  refine foldl_fst_memWf (foldl_fst_memWf h (fun _ _ hs => hs)) fun _ _ hs => ?_
  repeat' split
  all_goals exact fst_memWf ‹_› (failRun_memWf hs)

theorem failTile_memWf {s : State} {p t x} (h : s.memWf) : (failTile p t x s).memWf := by
  unfold failTile
  split
  have hw := fst_memWf ‹_› (failedWork_memWf h)
  exact update_memWf hw rfl rfl

theorem failWork_memWf {s : State} {p} (h : s.memWf) : (failWork s p).memWf := by
  simp only [failWork]
  refine foldl_memWf (foldl_memWf h (fun _ _ hs => failTile_memWf hs)) fun _ _ hs => ?_
  repeat' split
  exacts [failTile_memWf hs, hs]

theorem endPartition_memWf {s : State} {p why data} (h : s.memWf) : (endPartition s p why data).memWf :=
  send_memWf (setPtState_memWf (dropAllClaims_memWf
      (endPieces_memWf (zeroCounters_memWf (dropWork_memWf (setPart_memWf (failWork_memWf (haltHarts_memWf h))))))))

theorem doubleTrap_memWf {s : State} {cause} (h : s.memWf) : (doubleTrap s cause).memWf := endPartition_memWf h

theorem takeTrap_memWf {s : State} {cause sub addr resume} (h : s.memWf) : (takeTrap s cause sub addr resume).memWf := by
  simp only [takeTrap]
  repeat' split
  exacts [doubleTrap_memWf h, h]

theorem finish_memWf {pc len r} (h : r.memWf) : nextWf (finish pc len r) := by
  unfold finish
  repeat' split
  any_goals exact h
  all_goals exact takeTrap_memWf h

theorem finish1_memWf {s : State} {r} (h : r.memWf) : nextWf (finish1 s r) := finish_memWf h

theorem finish4_memWf {s : State} {r} (h : r.memWf) : nextWf (finish4 s r) := finish_memWf h

theorem setEng_memWf {s : State} {t q e} (h : s.memWf) : (setEng s t q e).memWf := h

theorem popOne_memWf {s : State} {r} (h : s.memWf) : (popOne s r).memWf := by
  unfold popOne
  repeat' split
  all_goals exact h

theorem popSrcs_memWf {s : State} {l} (h : s.memWf) : (popSrcs s l).memWf := foldl_memWf h (fun _ _ hs => popOne_memWf hs)

theorem setG_memWf {s : State} {r v} (h : s.memWf) : (setG s r v).memWf := by
  unfold setG
  repeat' split
  all_goals exact h

theorem emptyG_memWf {s : State} {r} (h : s.memWf) : (emptyG s r).memWf := by
  unfold emptyG
  repeat' split
  all_goals exact h

theorem withRegs_memWf {s : State} {srcs dst k} (h : s.memWf) (hf1 : ∀ s, s.memWf → (k s).memWf) : (withRegs s srcs dst k).memWf := by
  simp only [withRegs]
  repeat' split
  any_goals exact h
  all_goals exact hf1 _ (popSrcs_memWf h)

/-! ## Machine/Flags -/

theorem addFlags_memWf {s : State} {fl} (h : s.memWf) : (addFlags s fl).memWf := by
  unfold addFlags
  repeat' split
  all_goals exact h

/-! ## Machine/Translate -/

theorem useCircuit_memWf {s : State} {t c} (h : s.memWf) : (useCircuit s t c).memWf := h

theorem notifyGran_memWf {s : State} {gran} (h : s.memWf) : (notifyGran s gran).memWf := h

theorem pokesFor_memWf {s : State} {p pk bs} (h : s.memWf) : (pokesFor s p pk bs).memWf := by
  unfold pokesFor
  repeat' split
  exacts [pokes_memWf h .., h]

theorem walkFill_memWf {s : State} {st ps} (h : s.memWf) : (walkFill s st ps).memWf := h

theorem walkFrom_memWf {s : State} {st p va k sup t lvl ps fuel} (h : s.memWf) : (walkFrom s st p va k sup t lvl ps fuel).memWf := by
  induction fuel generalizing t lvl ps with
  | zero => exact h
  | succ f ih =>
    refine TrRes.ite_memWf h (TrRes.ite_memWf h (TrRes.ite_memWf (TrRes.ite_memWf h ih) (TrRes.ite_memWf h (TrRes.ite_memWf h ?_))))
    -- With the entry and its translation taken apart the kernel has no table entry to read and evaluate.
    generalize peek64 s _ = e
    generalize leafXlat _ e _ _ _ = x
    obtain ⟨x⟩ := x
    obtain ⟨e⟩ := e
    dsimp only
    split
    · exact h
    · exact walkFill_memWf (ite_memWf h (pokesFor_memWf h))

theorem walk_memWf {s : State} {st p va k sup} (h : s.memWf) : (walk s st p va k sup).memWf := by
  simp only [walk]
  repeat' split
  any_goals exact h
  all_goals exact walkFrom_memWf h

theorem useXlat_memWf {s : State} {x va k} (h : s.memWf) : (useXlat s x va k).memWf := by
  unfold useXlat
  repeat' split
  all_goals exact h

theorem llcWalk_memWf {s : State} {st p va k sup} (h : s.memWf) : (llcWalk s st p va k sup).memWf := by
  unfold llcWalk
  repeat' split
  exacts [setStack_memWf (TrRes.ok_memWf ‹_› (walk_memWf h)), walk_memWf h]

theorem llcXlate_memWf {s : State} {st p va k sup} (h : s.memWf) : (llcXlate s st p va k sup).memWf := by
  unfold llcXlate
  repeat' split
  exacts [useXlat_memWf h, llcWalk_memWf h]

theorem gtlbTake_memWf {t va r} (h : r.memWf) : (gtlbTake t va r).memWf := by
  unfold gtlbTake
  repeat' split
  all_goals exact h

theorem xlate_memWf {s : State} {t p va k sup} (h : s.memWf) : (xlate s t p va k sup).memWf := by
  unfold xlate
  repeat' split
  exacts [h, useXlat_memWf h, gtlbTake_memWf (llcWalk_memWf h), gtlbTake_memWf (llcXlate_memWf h)]

theorem xlateFetch_memWf {s : State} {t p va sup} (h : s.memWf) : (xlateFetch s t p va sup).memWf := by
  simp only [xlateFetch]
  repeat' split
  · exact h
  · exact useXlat_memWf h
  · exact setTile_memWf (TrRes.ok_memWf ‹_› (llcWalk_memWf h))
  · exact llcWalk_memWf h
  · exact setTile_memWf (TrRes.ok_memWf ‹_› (llcXlate_memWf h))
  · exact llcXlate_memWf h

theorem setSlot_memWf {s : State} {p v x} (h : s.memWf) : (setSlot s p v x).memWf := h

theorem spansWith_memWf {s : State} {tr va n} (hf : ∀ s x1, s.memWf → (tr s x1).memWf) (h1 : s.memWf) : (spansWith tr s va n).memWf := by
  simp only [spansWith]
  repeat' split
  · exact TrRes.fault_memWf ‹_› (hf _ _ h1)
  · exact TrRes.ok_memWf ‹_› (hf _ _ h1)
  · exact TrRes.fault_memWf ‹_› (hf _ _ (TrRes.ok_memWf ‹_› (hf _ _ h1)))
  · exact TrRes.ok_memWf ‹_› (hf _ _ (TrRes.ok_memWf ‹_› (hf _ _ h1)))

theorem spanLog_memWf {s : State} {t p io x} (h : s.memWf) : (spanLog s t p io x).memWf := by
  unfold spanLog
  repeat' split
  all_goals exact h

theorem rangeWith_memWf {s : State} {tr t p va n k io} (hf : ∀ s x1, s.memWf → (tr s x1).memWf) (h1 : s.memWf) :
    (rangeWith tr s t p va n k io).memWf := by
  simp only [rangeWith]
  repeat' split
  · exact SpanRes.fault_memWf ‹_› (spansWith_memWf (fun _ _ hs => hf _ _ hs) h1)
  · exact spanLog_memWf (SpanRes.ok_memWf ‹_› (spansWith_memWf (fun _ _ hs => hf _ _ hs) h1))
  · exact spanLog_memWf (SpanRes.ok_memWf ‹_› (spansWith_memWf (fun _ _ hs => hf _ _ hs) h1))
  · exact SpanRes.ok_memWf ‹_› (spansWith_memWf (fun _ _ hs => hf _ _ hs) h1)
  · exact SpanRes.ok_memWf ‹_› (spansWith_memWf (fun _ _ hs => hf _ _ hs) h1)

theorem rangeOf_memWf {s : State} {t p va n k sup io} (h : s.memWf) : (rangeOf s t p va n k sup io).memWf :=
  rangeWith_memWf (fun _ _ hs => xlate_memWf hs) h

/-! ## Machine/Home -/

theorem setCopy_memWf {s : State} {a gk c} (h : s.memWf) : (setCopy s a gk c).memWf := h

theorem landBits_memWf {s : State} {a gk} (h : s.memWf) : (landBits s a gk).memWf := h

theorem dropCopy_memWf {s : State} {a gk} (h : s.memWf) : (dropCopy s a gk).memWf := h

theorem poisonHome_memWf {s : State} {gk} (h : s.memWf) : (poisonHome s gk).memWf := by
  unfold poisonHome
  repeat' split
  all_goals exact h

theorem clearPsn_memWf {s : State} {gk} (h : s.memWf) : (clearPsn s gk).memWf := h

theorem setDir_memWf {s : State} {gk e} (h : s.memWf) : (setDir s gk e).memWf := h

theorem delDir_memWf {s : State} {gk} (h : s.memWf) : (delDir s gk).memWf := h

theorem posts_memWf {s : State} {es} (h : s.memWf) : (posts s es).memWf := h

theorem waitOn_memWf {s : State} {gk e} (h : s.memWf) : (waitOn s gk e).memWf := h

theorem waitTurn_memWf {s : State} {gk e} (h : s.memWf) : (waitTurn s gk e).memWf := by
  unfold waitTurn
  repeat' split
  all_goals exact h

theorem retry_memWf {s : State} {e} (h : s.memWf) : (retry s e).memWf := by
  unfold retry
  repeat' split
  exacts [h, postOnce_memWf h]

theorem endTxn_memWf {s : State} {gk} (h : s.memWf) : (endTxn s gk).memWf := h

theorem givenBack_memWf {s : State} {gk dirty} (h : s.memWf) : (givenBack s gk dirty).memWf := by
  unfold givenBack
  repeat' split
  all_goals exact h

theorem recallFor_memWf {s : State} {gk who} (h : s.memWf) : (recallFor s gk who).memWf := by
  simp only [recallFor]
  repeat' split
  any_goals exact h
  exacts [poisonHome_memWf h, givenBack_memWf (poisonHome_memWf h), givenBack_memWf h]

theorem recallAll_memWf {s : State} {gk} (h : s.memWf) : (recallAll s gk).memWf := recallFor_memWf h

theorem recallSharedFor_memWf {s : State} {gk who} (h : s.memWf) : (recallSharedFor s gk who).memWf := by
  unfold recallSharedFor
  repeat' split
  any_goals exact h
  exacts [poisonHome_memWf h, givenBack_memWf (poisonHome_memWf h)]

theorem recallShared_memWf {s : State} {gk} (h : s.memWf) : (recallShared s gk).memWf := recallSharedFor_memWf h

theorem recallBad_memWf {s : State} {gk e} (h : s.memWf) : (recallBad s gk e).memWf := h

theorem machineCheck_memWf {s : State} {st} (h : s.memWf) : (machineCheck s st).memWf := foldl_memWf h (fun _ _ hs => endPartition_memWf hs)

theorem setPiece_memWf {s : State} {x} (h : s.memWf) : (setPiece s x).memWf := h

theorem clash_memWf {s : State} {gk wr tile unit e} (h : s.memWf) : (clash s gk wr tile unit e).memWf := by
  unfold clash
  repeat' split
  any_goals exact h
  all_goals exact rfl

theorem refuse_memWf {s : State} {a gk code} (h : s.memWf) : (refuse s a gk code).memWf := by
  unfold refuse
  repeat' split
  all_goals exact h

theorem refuseForeign_memWf {s : State} {a gk wr} (h : s.memWf) : (refuseForeign s a gk wr).memWf := refuse_memWf h

theorem gate_memWf {s : State} {a gk wr e} (h : s.memWf) : (gate s a gk wr e).memWf := by
  simp only [gate]
  repeat' split
  any_goals exact h
  · exact refuse_memWf h
  · exact Clash.held_memWf ‹_› (clash_memWf h)
  · exact refuseForeign_memWf h
  · exact rfl
  · exact machineCheck_memWf h
  · exact waitOn_memWf (recallAll_memWf h)
  · exact post_memWf (recallAll_memWf h)
  · exact rfl

theorem sendData_memWf {s : State} {a gk g n} (h : s.memWf) : (sendData s a gk g n).memWf := h

theorem sharedBy_memWf {s : State} {gk l p} (h : s.memWf) : (sharedBy s gk l p).memWf := by
  unfold sharedBy
  repeat' split
  exacts [givenBack_memWf h, h]

theorem ownedBy_memWf {s : State} {gk a p} (h : s.memWf) : (ownedBy s gk a p).memWf := by
  unfold ownedBy
  repeat' split
  exacts [givenBack_memWf h, h]

theorem recallEnd_memWf {s : State} {gk t} (h : s.memWf) : (recallEnd s gk t).memWf := by
  unfold recallEnd
  repeat' split
  any_goals exact h
  all_goals exact givenBack_memWf h

theorem grantAll_memWf {s : State} {gk a d data} (h : s.memWf) : (grantAll s gk a d data).memWf := by
  unfold grantAll
  repeat' split
  all_goals exact h

theorem settle_memWf {s : State} {gk t} (h : s.memWf) : (settle s gk t).memWf := by
  unfold settle
  extract_lets p
  split
  · exact endTxn_memWf (ownedBy_memWf h)
  · exact endTxn_memWf (ite_memWf (sharedBy_memWf h) (sharedBy_memWf (sendData_memWf h)))
  · exact endTxn_memWf (ownedBy_memWf (sendData_memWf h))
  · exact endTxn_memWf (recallEnd_memWf (delDir_memWf h))
  · split
    · exact endTxn_memWf (recallEnd_memWf (ite_memWf (delDir_memWf h) (setDir_memWf h)))
    · exact endTxn_memWf h
  · exact endTxn_memWf (ite_memWf (sharedBy_memWf h) (sharedBy_memWf (sendData_memWf h)))
  · split
    · exact ite_memWf (endTxn_memWf (ownedBy_memWf (sendData_memWf h))) (ite_memWf (endTxn_memWf h) (grantAll_memWf h))
    · exact endTxn_memWf (ownedBy_memWf (sendData_memWf h))
  · exact endTxn_memWf (ownedBy_memWf (sendData_memWf h))
  · exact endTxn_memWf (ownedBy_memWf (post_memWf h))
  · split
    · exact ite_memWf (endTxn_memWf h) (grantAll_memWf h)
    · exact endTxn_memWf (ownedBy_memWf (sendData_memWf h))
  · exact endTxn_memWf (givenBack_memWf (boxAdd_memWf (delDir_memWf (poisonHome_memWf h))))

theorem collect_memWf {s : State} {gk l p kind} (h : s.memWf) : (collect s gk l p kind).memWf := by
  unfold collect
  repeat' split
  exacts [settle_memWf h, h]

theorem needsRoom_memWf {s : State} {gk e} (h : s.memWf) : (needsRoom s gk e).all State.memWf := by
  simp only [needsRoom]
  repeat' split
  any_goals exact h
  exacts [rfl, machineCheck_memWf h, waitOn_memWf (recallAll_memWf h), post_memWf (recallAll_memWf h)]

theorem askHost_memWf {s : State} {a gk kind code} (h : s.memWf) : (askHost s a gk kind code).memWf := by
  simp only [askHost]
  repeat' split
  any_goals exact h
  exacts [settle_memWf h, settle_memWf (poisonHome_memWf h), settle_memWf h, settle_memWf (poisonHome_memWf h)]

theorem onGets_memWf {s : State} {a gk} (h : s.memWf) : (onGets s a gk).memWf := by
  fun_cases onGets s a gk
  any_goals exact h
  · exact Gate.done_memWf ‹_› (gate_memWf h)
  · exact some_memWf ‹_› (needsRoom_memWf h)
  · exact askHost_memWf h
  · exact sharedBy_memWf (sendData_memWf (poisonHome_memWf h))

theorem onGetm_memWf {s : State} {a gk} (h : s.memWf) : (onGetm s a gk).memWf := by
  fun_cases onGetm s a gk
  any_goals exact h
  · exact Gate.done_memWf ‹_› (gate_memWf h)
  · exact some_memWf ‹_› (needsRoom_memWf h)
  · exact askHost_memWf h
  · exact collect_memWf h
  · exact askHost_memWf h
  · exact setDir_memWf (sendData_memWf (poisonHome_memWf h))

theorem onUpg_memWf {s : State} {a gk} (h : s.memWf) : (onUpg s a gk).memWf := by
  unfold onUpg
  repeat' split
  exacts [Gate.done_memWf ‹_› (gate_memWf h), collect_memWf h, askHost_memWf h, grantAll_memWf h, onGetm_memWf h, onGetm_memWf h]

theorem onPuts_memWf {s : State} {a gk} (h : s.memWf) : (onPuts s a gk).memWf := by
  simp only [onPuts]
  repeat' split
  any_goals exact h
  exacts [machineCheck_memWf h, givenBack_memWf h]

theorem hostWrote_memWf {s : State} {a gk d} (h : s.memWf) : (hostWrote s a gk d).memWf := by
  unfold hostWrote
  repeat' split
  exacts [notifyGran_memWf (writeGran_memWf h ..), writeGran_memWf h ..]

theorem onPutm_memWf {s : State} {a gk d} (h : s.memWf) : (onPutm s a gk d).memWf := by
  simp only [onPutm]
  repeat' split
  any_goals exact h
  exacts [hostWrote_memWf h, hostWrote_memWf h, hostWrote_memWf h, machineCheck_memWf h, givenBack_memWf (delDir_memWf (hostWrote_memWf h))]

theorem answered_memWf {s : State} {a gk} (h : s.memWf) : (answered s a gk).memWf := by
  simp only [answered]
  repeat' split
  any_goals exact h
  all_goals exact settle_memWf h

theorem onRdat_memWf {s : State} {a gk d} (h : s.memWf) : (onRdat s a gk d).memWf := by
  unfold onRdat
  repeat' split
  any_goals exact h
  exacts [answered_memWf h, answered_memWf (hostWrote_memWf h), answered_memWf h]

theorem onDone_memWf {s : State} {a gk} (h : s.memWf) : (onDone s a gk).memWf := by
  unfold onDone
  repeat' split
  any_goals exact h
  all_goals exact settle_memWf h

theorem toHome_memWf {s : State} {a gk e} (h : s.memWf) : (toHome s a gk e).memWf := by
  unfold toHome
  repeat' split
  all_goals exact h

theorem promote_memWf {s : State} (h : s.memWf) : (promote s).memWf := h

theorem tryOwn_memWf {s : State} {a gk c} (h : s.memWf) : (tryOwn s a gk c).memWf := by
  unfold tryOwn
  repeat' split
  any_goals exact h
  all_goals exact promote_memWf (toHome_memWf h)

theorem onData_memWf {s : State} {a gk g n d} (h : s.memWf) : (onData s a gk g n d).memWf := by
  unfold onData
  repeat' split
  any_goals exact h
  all_goals exact tryOwn_memWf h

theorem onGnt_memWf {s : State} {a gk n} (h : s.memWf) : (onGnt s a gk n).memWf := by
  unfold onGnt
  repeat' split
  any_goals exact h
  all_goals exact tryOwn_memWf h

theorem onIack_memWf {s : State} {req a gk} (h : s.memWf) : (onIack s req a gk).memWf := by
  unfold onIack
  repeat' split
  any_goals exact h
  exacts [answered_memWf h, tryOwn_memWf h]

theorem onInv_memWf {s : State} {a gk req p} (h : s.memWf) : (onInv s a gk req p).memWf := by
  unfold onInv
  repeat' split
  all_goals exact h

theorem onRcls_memWf {s : State} {a gk p} (h : s.memWf) : (onRcls s a gk p).memWf := by
  unfold onRcls
  repeat' split
  · exact answered_memWf (poisonHome_memWf h)
  · exact h
  · exact toHome_memWf h
  · exact toHome_memWf (toHome_memWf h)
  · exact toHome_memWf h
  · exact toHome_memWf h
  · exact toHome_memWf (toHome_memWf h)
  · exact toHome_memWf h
  · exact toHome_memWf h
  · exact toHome_memWf h

theorem onRcli_memWf {s : State} {a gk p} (h : s.memWf) : (onRcli s a gk p).memWf := by
  unfold onRcli
  repeat' split
  · exact answered_memWf (poisonHome_memWf h)
  · exact h
  · exact toHome_memWf h
  · exact toHome_memWf h
  · exact toHome_memWf h
  · exact toHome_memWf h
  · exact toHome_memWf h
  · exact toHome_memWf h

theorem onPack_memWf {s : State} {a gk} (h : s.memWf) : (onPack s a gk).memWf := by
  unfold onPack
  repeat' split
  all_goals exact h

theorem onErr_memWf {s : State} {a gk} (h : s.memWf) : (onErr s a gk).memWf := by
  unfold onErr
  repeat' split
  all_goals exact h

theorem evict_memWf {s : State} {a gk} (h : s.memWf) : (evict s a gk).memWf := by
  unfold evict
  repeat' split
  any_goals exact h
  all_goals exact toHome_memWf h

theorem request_memWf {s : State} {p a gk wr asker} (h : s.memWf) : (request s p a gk wr asker).memWf := by
  unfold request
  repeat' split
  exacts [toHome_memWf h, toHome_memWf h, toHome_memWf h, h]

/-! ## Machine/Access -/

theorem release_memWf {s : State} {a gk m} (h : s.memWf) : (release s a gk m).memWf := by
  unfold release
  repeat' split
  any_goals exact h
  exacts [setCopy_memWf (writeGran_memWf h ..), evict_memWf h]

theorem setLines_memWf {s : State} {p v l} (h : s.memWf) : (setLines s p v l).memWf := h

theorem putLine_memWf {s : State} {p v loc x} (h : s.memWf) : (putLine s p v loc x).memWf := h

theorem newLine_memWf {s : State} {p v loc addr newmap} (h : s.memWf) : (newLine s p v loc addr newmap).memWf := by
  simp only [newLine]
  repeat' split
  all_goals exact h

theorem dropShelter_memWf {s : State} {a sp gks} (h : s.memWf) : (dropShelter s a sp gks).memWf := by
  unfold dropShelter
  repeat' split
  all_goals exact h

theorem evictLine_memWf {s : State} {p v loc} (h : s.memWf) : (evictLine s p v loc).memWf := by
  unfold evictLine
  repeat' split
  exacts [h, foldl_memWf (dropShelter_memWf h) (fun _ _ hs => release_memWf hs)]

theorem fillWay_memWf {s : State} {p v l locs moved} (h : s.memWf) : (fillWay s p v l locs moved).all (·.1.memWf) := by
  simp only [fillWay]
  split
  · exact h
  · rw [Option.all_map]
    exact all_of_forall fun _ => evictLine_memWf h

theorem movePlace_memWf {s : State} {p v loc y} (h : s.memWf) : (movePlace s p v loc y).all (·.1.memWf) := by
  simp only [movePlace]
  split
  · exact h
  · rw [Option.all_map]
    exact all_of_forall fun _ => evictLine_memWf h

theorem moveLine_memWf {s : State} {p v loc y} (h : s.memWf) : (moveLine s p v loc y).memWf := by
  fun_cases moveLine s p v loc y
  any_goals exact h
  · exact evictLine_memWf h
  · exact putLine_memWf (setLines_memWf (some_fst_memWf ‹_› (movePlace_memWf h)))
  · exact posts_memWf (putLine_memWf (putLine_memWf (some_fst_memWf ‹_› (movePlace_memWf h))))

theorem refusedReach_memWf {s : State} {w gk k} (h : s.memWf) : (refusedReach s w gk k).memWf := by
  simp only [refusedReach]
  repeat' split
  any_goals exact h
  all_goals exact Clash.held_memWf ‹_› (clash_memWf h)

theorem agentReach_memWf {s : State} {w a gk k} (h : s.memWf) : (agentReach s w a gk k).memWf := by
  unfold agentReach
  repeat' split
  any_goals exact h
  exacts [refusedReach_memWf h, request_memWf h, evict_memWf h, request_memWf h]

theorem turn_memWf {s : State} {w gk} (h : s.memWf) : (turn s w gk).memWf := by
  unfold turn
  repeat' split
  exacts [waitTurn_memWf h, h]

theorem homeReach_memWf {s : State} {w gk k} (h : s.memWf) : (homeReach s w gk k).memWf := by
  have hr : (turn (recallAll s gk) w gk).memWf := turn_memWf (recallAll_memWf h)
  unfold homeReach
  refine Reach.ite_memWf h (Reach.ite_memWf h (Reach.ite_memWf (turn_memWf h) ?_))
  split
  · exact h
  · exact Clash.held_memWf ‹_› (clash_memWf h)
  refine Reach.ite_memWf (refusedReach_memWf h) (Reach.ite_memWf h ?_)
  split
  · exact h
  refine Reach.ite_memWf (machineCheck_memWf h) (Reach.ite_memWf (turn_memWf (recallBad_memWf h)) (Reach.ite_memWf hr ?_))
  exact Reach.ite_memWf (Reach.ite_memWf (turn_memWf (recallShared_memWf h)) h) (Reach.ite_memWf h hr)

theorem fillRest_memWf {s : State} {p a l addr gk} (h : s.memWf) : (fillRest s p a l addr gk).memWf := by
  refine foldl_memWf h fun _ _ hs => ?_
  repeat' split
  exacts [request_memWf hs, hs]

theorem fillReach_memWf {s : State} {w x k moved} (h : s.memWf) : (fillReach s w x k moved).memWf := by
  fun_cases fillReach s w x k moved
  exacts [homeReach_memWf h, h, agentReach_memWf (fillRest_memWf (newLine_memWf (some_fst_memWf ‹_› (fillWay_memWf h))))]

theorem cacheReach_memWf {s : State} {w x k} (h : s.memWf) : (cacheReach s w x k).memWf := by
  have hev : ∀ {v loc}, (evictLine s w.part v loc).memWf := evictLine_memWf h
  unfold cacheReach
  extract_lets v gk sl r l passes
  split
  · split
    · exact h
    split
    · exact homeReach_memWf h
    split
    · exact Reach.ite_memWf (homeReach_memWf h) (agentReach_memWf h)
    split
    · exact agentReach_memWf h
    split
    · exact h
    split
    · exact moveLine_memWf h
    · exact Reach.ite_memWf (homeReach_memWf hev) (fillReach_memWf hev)
  · exact Reach.ite_memWf (homeReach_memWf h) (fillReach_memWf h)

theorem stashReach_memWf {s : State} {w x k} (h : s.memWf) : (stashReach s w x k).memWf := by
  simp only [stashReach]
  repeat' split
  any_goals exact h
  · exact homeReach_memWf h
  · exact landBits_memWf (Reach.copy_memWf ‹_› (agentReach_memWf h))
  · exact fillRest_memWf (Reach.wait_memWf ‹_› (agentReach_memWf h))
  · exact agentReach_memWf h
  · exact evictLine_memWf h
  · exact homeReach_memWf h
  · exact landBits_memWf (Reach.copy_memWf ‹_› (agentReach_memWf (newLine_memWf h)))
  · exact fillRest_memWf (Reach.wait_memWf ‹_› (agentReach_memWf (newLine_memWf h)))
  · exact agentReach_memWf (newLine_memWf h)

theorem reachPart_memWf {s : State} {w x k} (h : s.memWf) : (reachPart s w x k).memWf := by
  simp only [reachPart]
  repeat' split
  exacts [h, homeReach_memWf h, agentReach_memWf h, homeReach_memWf h, stashReach_memWf h, cacheReach_memWf h]

theorem reach_memWf {s : State} {w x k} (h : s.memWf) : (reach s w x k).memWf := by
  unfold reach
  repeat' split
  · exact Reach.copy_memWf ‹_› (reachPart_memWf (Reach.copy_memWf ‹_› (reachPart_memWf h)))
  · exact evict_memWf (Reach.copy_memWf ‹_› (reachPart_memWf (Reach.copy_memWf ‹_› (reachPart_memWf h))))
  · exact Reach.home_memWf ‹_› (reachPart_memWf (Reach.copy_memWf ‹_› (reachPart_memWf h)))
  · exact reachPart_memWf (Reach.copy_memWf ‹_› (reachPart_memWf h))
  · exact reachPart_memWf h
  · exact reachPart_memWf h

theorem l1Leave_memWf {s : State} {t e} (h : s.memWf) : (l1Leave s t e).memWf := by
  simp only [l1Leave]
  repeat' split
  any_goals exact h
  all_goals exact evict_memWf h

theorem l1Room_memWf {s : State} {t} (h : s.memWf) : (l1Room s t).memWf := by
  unfold l1Room
  repeat' split
  exacts [h, l1Leave_memWf h]

theorem l1Add_memWf {s : State} {t e} (h : s.memWf) : (l1Add s t e).memWf := setTile_memWf (l1Room_memWf h)

theorem l1Fill_memWf {s : State} {p t a x} (h : s.memWf) : (l1Fill s p t a x).memWf := by
  simp only [l1Fill]
  repeat' split
  any_goals exact h
  exacts [l1Add_memWf h, putLine_memWf (l1Add_memWf h), request_memWf (l1Add_memWf h)]

theorem l1Drop_memWf {s : State} {w a x} (h : s.memWf) : (l1Drop s w a x).memWf := foldl_memWf h (fun _ _ hs => l1Leave_memWf hs)

theorem ownWhole_memWf {s : State} {w x poisoned} (h : s.memWf) : (ownWhole s w x poisoned).1.memWf := by
  simp only [ownWhole]
  repeat' split
  all_goals exact h

theorem forgetWrote_memWf {s : State} {tile unit} (h : s.memWf) : (forgetWrote s tile unit).memWf := h

theorem writeAt_memWf {s : State} {w x at' bs full} (h : s.memWf) : (writeAt s w x at' bs full).memWf := by
  have clear : ∀ {k : State} {c : Bool} {gk}, k.memWf → (if c then clearPsn k gk else k).memWf :=
    fun hk => ite_memWf (clearPsn_memWf hk) hk
  unfold writeAt
  extract_lets gk
  split
  have ho := fst_memWf ‹_› (ownWhole_memWf h)
  refine notifyGran_memWf ?_
  split
  · extract_lets s1 s2
    have h2 : s2.memWf := clear (putHome_memWf ho ..)
    split
    · exact ite_memWf (setCopy_memWf h2) h2
    · exact h2
  · split
    · exact ho
    · exact ite_memWf (clear (putHome_memWf (setCopy_memWf ho) _ _)) (clear (setCopy_memWf ho))

theorem accRead_memWf {s : State} {w x} (h : s.memWf) : (accRead s w x).memWf := by
  unfold accRead
  repeat' split
  · exact Reach.wait_memWf ‹_› (reach_memWf h)
  · exact Reach.err_memWf ‹_› (reach_memWf h)
  · exact Reach.home_memWf ‹_› (reach_memWf h)
  · exact Reach.home_memWf ‹_› (reach_memWf h)
  · exact Reach.copy_memWf ‹_› (reach_memWf h)
  · exact Reach.copy_memWf ‹_› (reach_memWf h)
  · exact l1Fill_memWf (Reach.copy_memWf ‹_› (reach_memWf h))
  · exact Reach.copy_memWf ‹_› (reach_memWf h)

theorem accWrite_memWf {s : State} {w x bs full} (h : s.memWf) : (accWrite s w x bs full).memWf := by
  unfold accWrite
  repeat' split
  · exact Reach.wait_memWf ‹_› (reach_memWf h)
  · exact Reach.err_memWf ‹_› (reach_memWf h)
  · exact writeAt_memWf (Reach.home_memWf ‹_› (reach_memWf h))
  · exact writeAt_memWf (Reach.copy_memWf ‹_› (reach_memWf h))
  · exact writeAt_memWf (l1Drop_memWf (Reach.copy_memWf ‹_› (reach_memWf h)))

theorem accRmw_memWf {s : State} {w x f} (h : s.memWf) : (accRmw s w x f).memWf := by
  simp only [accRmw]
  repeat' split
  · exact Reach.wait_memWf ‹_› (reach_memWf h)
  · exact Reach.err_memWf ‹_› (reach_memWf h)
  · exact Reach.home_memWf ‹_› (reach_memWf h)
  · exact writeAt_memWf (Reach.home_memWf ‹_› (reach_memWf h))
  · exact Reach.home_memWf ‹_› (reach_memWf h)
  · exact Reach.copy_memWf ‹_› (reach_memWf h)
  · exact Reach.copy_memWf ‹_› (reach_memWf h)
  · exact writeAt_memWf (Reach.copy_memWf ‹_› (reach_memWf h))
  · exact writeAt_memWf (l1Drop_memWf (Reach.copy_memWf ‹_› (reach_memWf h)))
  · exact Reach.copy_memWf ‹_› (reach_memWf h)

theorem accNibble_memWf {s : State} {w x hi v} (h : s.memWf) : (accNibble s w x hi v).memWf := by
  unfold accNibble
  repeat' split
  · exact Reach.wait_memWf ‹_› (reach_memWf h)
  · exact Reach.err_memWf ‹_› (reach_memWf h)
  · exact writeAt_memWf (Reach.home_memWf ‹_› (reach_memWf h))
  · exact Reach.copy_memWf ‹_› (reach_memWf h)
  · exact writeAt_memWf (l1Drop_memWf (Reach.copy_memWf ‹_› (reach_memWf h)))

theorem accReads_memWf {s : State} {w xs} (h : s.memWf) : (accReads s w xs).memWf := by
  fun_induction accReads s w xs
  · exact h
  · exact Acc.ok_memWf ‹_› (‹_ → _› (Acc.ok_memWf ‹_› (accRead_memWf h)))
  · exact ‹_ → _› (Acc.ok_memWf ‹_› (accRead_memWf h))
  · exact accRead_memWf h

theorem accReady_memWf {s : State} {w xs k} (h : s.memWf) : (accReady s w xs k).memWf := by
  fun_induction accReady s w xs k
  · exact h
  · exact Reach.wait_memWf ‹_› (reach_memWf h)
  · exact Reach.err_memWf ‹_› (reach_memWf h)
  · exact ‹_ → _› (Reach.home_memWf ‹_› (reach_memWf h))
  · exact ‹_ → _› (Reach.copy_memWf ‹_› (reach_memWf h))

theorem accWrites_memWf {s : State} {w xs bs full} (h : s.memWf) : (accWrites s w xs bs full).memWf := by
  fun_induction accWrites s w xs bs full
  exacts [h, ‹_ → _› (Acc.ok_memWf ‹_› (accWrite_memWf h)), accWrite_memWf h]

/-! ## Machine/Records -/

theorem faultRecord_memWf {s : State} {p r} (h : s.memWf) : (faultRecord s p r).memWf := by
  simp only [faultRecord]
  repeat' split
  any_goals exact h
  all_goals exact setPart_memWf (pokesFor_memWf (pokesFor_memWf h))

theorem workRecord_memWf {s : State} {p src unit tile m tag hart} (h : s.memWf) : (workRecord s p src unit tile m tag hart).memWf :=
  faultRecord_memWf h

theorem noticeRecord_memWf {s : State} {p kind agent tag tile} (h : s.memWf) : (noticeRecord s p kind agent tag tile).memWf := faultRecord_memWf h

theorem bankRecord_memWf {s : State} {p v desc revoked bank seg dropped poisoned} (h : s.memWf) :
    (bankRecord s p v desc revoked bank seg dropped poisoned).memWf := faultRecord_memWf h

theorem askService_memWf {s : State} {p va src unit tile acc fk tag cmd} (h : s.memWf) : (askService s p va src unit tile acc fk tag cmd).memWf := h

theorem tsqWrite_memWf {s : State} {p} (h : s.memWf) : (tsqWrite s p).memWf := by
  simp only [tsqWrite]
  repeat' split
  any_goals exact h
  all_goals exact setPart_memWf (pokesFor_memWf (pokesFor_memWf h))

theorem setCounter_memWf {s : State} {tile k v} (h : s.memWf) : (setCounter s tile k v).memWf := by
  simp only [setCounter]
  repeat' split
  all_goals exact h

theorem raiseCounter_memWf {s : State} {tile k amount} (h : s.memWf) : (raiseCounter s tile k amount).memWf := setCounter_memWf h

theorem sendRaise_memWf {s : State} {t tile k amount} (h : s.memWf) : (sendRaise s t tile k amount).memWf := h

/-! ## Machine/Router -/

theorem replicate_memWf {s : State} {w pk bs} (h : s.memWf) : (replicate s w pk bs).memWf := by
  unfold replicate
  repeat' split
  all_goals exact h

theorem replicateAll_memWf {s : State} {w xs bs} (h : s.memWf) : (replicateAll s w xs bs).memWf := by
  fun_induction replicateAll s w xs bs
  exacts [h, ‹_ → _› (replicate_memWf h)]

theorem repClear_memWf {s : State} {mine} (h : s.memWf) : (repClear s mine).memWf := h

theorem rtLeave_memWf {s : State} {p} (h : s.memWf) : (rtLeave s p).memWf := h

theorem rtOpen_memWf {s : State} {x e v leaving} (h : s.memWf) : (rtOpen s x e v leaving).memWf := h

theorem rtContribute_memWf {s : State} {x} (h : s.memWf) : (rtContribute s x).memWf := by
  unfold rtContribute
  extract_lets c
  split
  · exact rtOpen_memWf h
  extract_lets v same
  split
  · exact ite_memWf (rtOpen_memWf h) (rtOpen_memWf h)
  · exact ite_memWf (rtOpen_memWf (rtLeave_memWf h)) (update_memWf h rfl rfl)

theorem rtWrite_memWf {s : State} {t p off w} (h : s.memWf) : (rtWrite s t p off w).1.memWf := by
  simp only [rtWrite]
  repeat' split
  all_goals exact h

/-! ## Machine/Mem -/

theorem ioLoad_memWf {s : State} {p x} (h : s.memWf) : (ioLoad s p x).memWf := by
  unfold ioLoad
  repeat' split
  all_goals exact h

theorem ioStore_memWf {s : State} {t p x bs} (h : s.memWf) : (ioStore s t p x bs).memWf := by
  unfold ioStore
  repeat' split
  any_goals exact h
  exacts [putHome_memWf h .., fst_memWf ‹_› (rtWrite_memWf h), fst_memWf ‹_› (rtWrite_memWf h)]

theorem flushMerge_memWf {s : State} {t p} (h : s.memWf) : (flushMerge s t p).memWf := h

theorem flushHart_memWf {s : State} {hart} (h : s.memWf) : (flushHart s hart).memWf := h

theorem fillG_memWf {s : State} {hart key v} (h : s.memWf) : (fillG s hart key v).memWf := by
  simp only [fillG]
  repeat' split
  all_goals exact h

theorem markG_memWf {s : State} {hart key m} (h : s.memWf) : (markG s hart key m).memWf := by
  unfold markG
  repeat' split
  all_goals exact h

theorem settleGroup_memWf {s : State} {t k} (h : s.memWf) : (settleGroup s t k).memWf := by
  unfold settleGroup
  repeat' split
  all_goals exact h

theorem deliver_memWf {s : State} {p bs} (h : s.memWf) : (deliver s p bs).memWf := by
  unfold deliver
  repeat' split
  any_goals exact h
  exacts [fillG_memWf h, fillG_memWf h, settleGroup_memWf h]

theorem deliverMark_memWf {s : State} {p m} (h : s.memWf) : (deliverMark s p m).memWf := by
  unfold deliverMark
  repeat' split
  any_goals exact h
  exacts [markG_memWf h, settleGroup_memWf h]

theorem watermarkOk_memWf {s : State} {hart t p va n sup ev} (h : s.memWf) : (watermarkOk s hart t p va n sup ev).1.memWf := by
  refine foldl_fst_memWf h fun _ _ hs => ?_
  dsimp only
  repeat' split
  · exact hs
  · exact RangeRes.fault_memWf ‹_› (rangeOf_memWf hs)
  · exact Acc.ok_memWf ‹_› (accReads_memWf (RangeRes.ok_memWf ‹_› (rangeOf_memWf hs)))
  · exact Acc.wait_memWf ‹_› (accReads_memWf (RangeRes.ok_memWf ‹_› (rangeOf_memWf hs)))
  · exact Acc.err_memWf ‹_› (accReads_memWf (RangeRes.ok_memWf ‹_› (rangeOf_memWf hs)))

theorem perform_memWf {s : State} {p} (h : s.memWf) : (perform s p).memWf := by
  simp only [perform]
  repeat' split
  any_goals exact h
  exacts [ioLoad_memWf h, Acc.ok_memWf ‹_› (accReads_memWf h), accReads_memWf h, accRmw_memWf h]

theorem pendAgain_memWf {s : State} {p} (h : s.memWf) : (pendAgain s p).memWf := h

theorem dropPend_memWf {s : State} {id} (h : s.memWf) : (dropPend s id).memWf := h

theorem pendTry_memWf {s : State} {id again} (h : s.memWf) : (pendTry s id again).memWf := by
  unfold pendTry
  split
  · exact h
  next p _ =>
    extract_lets hart t ev again'
    have hagain : ∀ k : State, k.memWf → (again' k).memWf := fun k hk => ite_memWf (retry_memWf hk) hk
    split
    · exact dropPend_memWf h
    split
    · exact hagain _ (flushMerge_memWf h)
    split
    next k ok e =>
      have hk : k.memWf := by
        split at e
        · exact fst_memWf e (watermarkOk_memWf h)
        · exact fst_memWf e h
      split
      · exact hagain _ hk
      split
      · exact hagain _ (Acc.wait_memWf ‹_› (perform_memWf hk))
      · exact deliver_memWf (dropPend_memWf (Acc.ok_memWf ‹_› (perform_memWf hk)))
      · exact deliverMark_memWf (dropPend_memWf (Acc.err_memWf ‹_› (perform_memWf hk)))

theorem pendStep_memWf {s : State} {id} (h : s.memWf) : (pendStep s id).memWf := pendTry_memWf h

theorem issuePend_memWf {s : State} {op xs va dest chk o query} (h : s.memWf) : (issuePend s op xs va dest chk o query).memWf := h

theorem issueValue_memWf {s : State} {r v} (h : s.memWf) : (issueValue s r v).memWf := post_memWf (newId_memWf (emptyG_memWf h))

theorem setEntry_memWf {s : State} {hart e} (h : s.memWf) : (setEntry s hart e).memWf := h

theorem entryDone_memWf {s : State} {hart e} (h : s.memWf) : (entryDone s hart e).memWf := h

theorem mergeRed_memWf {s : State} {hart id o x f d b} (h : s.memWf) : (mergeRed s hart id o x f d b).1.memWf := by
  simp only [mergeRed]
  repeat' split
  all_goals exact h

theorem refuseEntry_memWf {s : State} {hart e x c} (h : s.memWf) : (refuseEntry s hart e x c).memWf := by
  unfold refuseEntry
  repeat' split
  all_goals exact faultRecord_memWf h

theorem sendPiece_memWf {s : State} {hart e x} (h : s.memWf) : (sendPiece s hart e x).memWf := by
  simp only [sendPiece]
  repeat' split
  any_goals exact h
  · exact ioStore_memWf h
  · exact accWrite_memWf h
  · exact accNibble_memWf h
  · exact fst_memWf ‹_› (mergeRed_memWf h)
  · exact fst_memWf ‹_› (mergeRed_memWf h)
  · exact accRmw_memWf h
  · exact accRmw_memWf h
  · exact setCounter_memWf h

theorem entryAway_memWf {s : State} {hart e} (h : s.memWf) : (entryAway s hart e).memWf := by
  unfold entryAway
  repeat' split
  all_goals exact h

theorem sendPieces_memWf {s : State} {hart e xs} (h : s.memWf) : (sendPieces s hart e xs).memWf := by
  induction xs generalizing s e with
  | nil => exact entryDone_memWf h
  | cons x r ih =>
    simp only [sendPieces]
    have hp := sendPiece_memWf (hart := hart) (e := e) (x := x) h
    split
    · exact setEntry_memWf (Acc.wait_memWf ‹_› hp)
    · split
      · exact entryAway_memWf (Acc.ok_memWf ‹_› hp)
      · exact ih (Acc.ok_memWf ‹_› hp)
    · exact ih (ite_memWf (Acc.err_memWf ‹_› hp) (refuseEntry_memWf (Acc.err_memWf ‹_› hp)))

theorem sendFirst_memWf {s : State} {hart es} (h : s.memWf) : (sendFirst s hart es).memWf := by
  fun_induction sendFirst s hart es
  · exact h
  · exact ‹_ → _› h
  · exact Sent.done_memWf ‹_› (sendPieces_memWf h)
  · exact Sent.wait_memWf ‹_› (sendPieces_memWf h)
  · exact ‹_ → _› (Sent.wait_memWf ‹_› (sendPieces_memWf h))

theorem storeStep_memWf {s : State} {hart} (h : s.memWf) : (storeStep s hart).memWf := by
  simp only [storeStep]
  repeat' split
  · exact h
  · exact postOnce_memWf (Sent.done_memWf ‹_› (sendFirst_memWf h))
  · exact Sent.done_memWf ‹_› (sendFirst_memWf h)
  · exact flushMerge_memWf (Sent.wait_memWf ‹_› (sendFirst_memWf h))
  · exact post_memWf (flushMerge_memWf (Sent.wait_memWf ‹_› (sendFirst_memWf h)))

theorem putEntry_memWf {s : State} {op xs va o full} (h : s.memWf) : (putEntry s op xs va o full).memWf := h

theorem mergeStep_memWf {s : State} {t i} (h : s.memWf) : (mergeStep s t i).memWf := by
  unfold mergeStep
  split
  · exact h
  extract_lets put
  have hput : ∀ (k : State) e, k.memWf → (put k e).memWf := fun k e hk => ite_memWf (setTile_memWf hk) (post_memWf (setTile_memWf hk))
  split
  · exact post_memWf h
  split
  · exact post_memWf (flushMerge_memWf h)
  split
  · exact hput _ _ h
  · extract_lets x e' s1
    have h1 : s1.memWf := useCircuit_memWf h
    split
    · exact hput _ _ (post_memWf h1)
    split
    · exact hput _ _ (Acc.ok_memWf ‹_› (accRmw_memWf h1))
    · exact retry_memWf (setTile_memWf (Acc.wait_memWf ‹_› (accRmw_memWf h1)))
    · have he := Acc.err_memWf ‹_› (accRmw_memWf h1)
      exact hput _ _ (faultRecord_memWf (ite_memWf he (logHome_memWf he)))

/-! ## Machine/VecMem -/

theorem popVStreams_memWf {s : State} {c srcs} (h : s.memWf) : (popVStreams s c srcs).memWf := by
  refine foldl_memWf h fun _ _ hs => ?_
  repeat' split
  all_goals exact hs

theorem popAll_memWf {s : State} {x c srcs} (h : s.memWf) : (popAll s x c srcs).memWf := popVStreams_memWf (popSrcs_memWf h)

theorem vCommit_memWf {s : State} {x c r} (h : s.memWf) : (vCommit s x c r).memWf := by
  unfold vCommit
  repeat' split
  any_goals exact h
  all_goals exact setCur_memWf (issueValue_memWf h)

theorem vProbeBy_memWf {s : State} {tr aligned k io l} (hf : ∀ s x1, s.memWf → (tr s x1).memWf) (h1 : s.memWf) :
    (vProbeBy tr s aligned k io l).memWf := by
  fun_induction vProbeBy tr s aligned k io l
  · exact h1
  · exact h1
  · exact RangeRes.fault_memWf ‹_› (rangeWith_memWf (fun _ _ hs => hf _ _ hs) h1)
  · exact RangeRes.ok_memWf ‹_› (rangeWith_memWf (fun _ _ hs => hf _ _ hs) h1)
  · exact Probe.ok_memWf ‹_› (‹_ → _› (RangeRes.ok_memWf ‹_› (rangeWith_memWf (fun _ _ hs => hf _ _ hs) h1)))
  · exact ‹_ → _› (RangeRes.ok_memWf ‹_› (rangeWith_memWf (fun _ _ hs => hf _ _ hs) h1))

theorem ustrLoad_memWf {s : State} {l} (h : s.memWf) : (ustrLoad s l).memWf := by
  unfold ustrLoad
  repeat' split
  all_goals exact h

theorem vProbe_memWf {s : State} {unit aligned k io l} (h : s.memWf) : (vProbe s unit aligned k io l).memWf := by
  simp only [vProbe]
  repeat' split
  · exact vProbeBy_memWf (fun _ _ hs => xlate_memWf hs) h
  · exact vProbeBy_memWf (fun _ _ hs => useXlat_memWf hs) h
  · exact ustrLoad_memWf (Probe.ok_memWf ‹_› (vProbeBy_memWf (fun _ _ hs => xlate_memWf hs) h))
  · exact vProbeBy_memWf (fun _ _ hs => xlate_memWf hs) h

theorem Probe.state_memWf {p} (h : p.memWf) : (Probe.state p).memWf := by
  unfold Probe.state
  repeat' split
  all_goals exact h

theorem issueLoads_memWf {s : State} {chk o l} (h : s.memWf) : (issueLoads s chk o l).memWf := foldl_memWf h (fun _ _ hs => hs)

theorem loadGo_memWf {s : State} {x c l} (h : s.memWf) : (loadGo s x c l).memWf := issueLoads_memWf (setTile_memWf (vCommit_memWf h))

theorem markLoaded_memWf {s : State} {cv l} (h : s.memWf) : (markLoaded s cv l).memWf := by
  refine foldl_memWf h fun _ _ hs => ?_
  repeat' split
  all_goals exact hs

theorem loadUse_memWf {s : State} {x c cv l} (h : s.memWf) : (loadUse s x c cv l).memWf := by
  unfold loadUse
  repeat' split
  exacts [markLoaded_memWf (setTile_memWf (vCommit_memWf h)), markLoaded_memWf (vCommit_memWf h)]

theorem storeGo_memWf {s : State} {x c l} (h : s.memWf) : (storeGo s x c l).memWf := by
  unfold storeGo
  extract_lets o items whole s1
  have h1 : s1.memWf := ite_memWf (flushHart_memWf h) h
  refine foldl_fst_memWf h1 fun _ _ hs => ?_
  repeat' split
  all_goals exact hs

theorem VW.probe_memWf {s : State} {x l} (h : s.memWf) : (VW.probe x s l).memWf := vProbe_memWf h

theorem vRun_memWf {s : State} {x collect cv} (h : s.memWf) : (vRun s x collect cv).memWf := by
  simp only [vRun]
  repeat' split
  any_goals exact h
  · exact vCommit_memWf (popAll_memWf h)
  · exact Probe.stop_memWf ‹_› (VW.probe_memWf h)
  · exact loadGo_memWf (popAll_memWf (Probe.ok_memWf ‹_› (VW.probe_memWf h)))
  · exact Probe.ok_memWf ‹_› (VW.probe_memWf h)
  · exact loadUse_memWf (popAll_memWf (Probe.ok_memWf ‹_› (VW.probe_memWf h)))
  · exact loadGo_memWf (popAll_memWf (Probe.ok_memWf ‹_› (VW.probe_memWf h)))
  · exact rfl
  · exact storeGo_memWf (popAll_memWf (Probe.ok_memWf ‹_› (VW.probe_memWf h)))

theorem reprobe_memWf {s : State} {ps} (h : s.memWf) : (reprobe s ps).memWf := foldl_memWf h (fun _ _ hs => Probe.state_memWf (VW.probe_memWf hs))

theorem vMembers_memWf {orig s : State} {pc j rd wr ps xs} (h : orig.memWf) (h1 : s.memWf) : (vMembers orig s pc j rd wr ps xs).memWf := by
  induction xs generalizing s j rd wr ps with
  | nil => exact setCur_memWf h1
  | cons x rest ih =>
    simp only [vMembers]
    split
    · exact reprobe_memWf h
    · exact waitR_memWf (issueLoads_memWf (setCur_memWf (reprobe_memWf h)))
    · have hv := VStep.ok_memWf ‹_› (vRun_memWf h1)
      split
      · split
        · exact reprobe_memWf h
        · exact ih hv
      · exact ih hv

theorem vBody_memWf {s : State} {xs} (h : s.memWf) : (vBody xs s).memWf := by
  simp only [vBody]
  repeat' split
  exacts [h, waitR_memWf h, vMembers_memWf h h, vMembers_memWf h h]

theorem vIssue_memWf {s : State} {c x} (h : s.memWf) : nextWf (vIssue c x s) := by
  unfold vIssue
  refine finish1_memWf ?_
  repeat' split
  exacts [trapR_memWf h, trapR_memWf h, vBody_memWf h]

theorem convoyBody_memWf {s : State} {ws} (h : s.memWf) : (convoyBody ws s).memWf := by
  simp only [convoyBody]
  repeat' split
  exacts [trapR_memWf h, trapR_memWf h, vBody_memWf h]

/-! ## Machine/Nodes -/

theorem engTr_memWf {s : State} {w k sup va} (h : s.memWf) : (engTr w k sup s va).memWf := by
  unfold engTr
  repeat' split
  exacts [h, xlate_memWf h]

theorem engXlate_memWf {s : State} {w sup va n k f} (h : s.memWf) (hf1 : ∀ s x1, s.memWf → (f s x1).memWf) : (engXlate s w sup va n k f).memWf := by
  unfold engXlate
  repeat' split
  · exact hf1 _ _ (RangeRes.ok_memWf ‹_› (rangeWith_memWf (fun _ _ hs => engTr_memWf hs) h))
  · exact RangeRes.fault_memWf ‹_› (rangeWith_memWf (fun _ _ hs => engTr_memWf hs) h)
  · exact RangeRes.fault_memWf ‹_› (rangeWith_memWf (fun _ _ hs => engTr_memWf hs) h)

theorem engOf_memWf {a va xs} (h : a.memWf) : (engOf a va xs).memWf := by
  unfold engOf
  repeat' split
  all_goals exact h

theorem engTouch_memWf {r w va n wr} (h : r.memWf) : (engTouch r w va n wr).memWf := by
  unfold engTouch
  repeat' split
  all_goals exact h

theorem useCircuits_memWf {s : State} {w xs} (h : s.memWf) : (useCircuits s w xs).memWf := by
  unfold useCircuits
  repeat' split
  exacts [h, foldl_memWf h (fun _ _ hs => hs)]

theorem engRead_memWf {s : State} {w sup va n} (h : s.memWf) : (engRead s w sup va n).memWf := by
  unfold engRead
  repeat' split
  exacts [h, engTouch_memWf (engXlate_memWf h (fun _ _ hs => engOf_memWf (accReads_memWf hs)))]

theorem engWrite_memWf {s : State} {w sup va bs} (h : s.memWf) : (engWrite s w sup va bs).memWf := by
  unfold engWrite
  repeat' split
  · exact h
  · refine engTouch_memWf ?_
    refine engXlate_memWf h fun _ _ hs => ?_
    repeat' split
    · exact engOf_memWf (replicateAll_memWf (Acc.ok_memWf ‹_› (accWrites_memWf (useCircuits_memWf (Acc.ok_memWf ‹_› (accReady_memWf hs))))))
    · exact engOf_memWf (accWrites_memWf (useCircuits_memWf (Acc.ok_memWf ‹_› (accReady_memWf hs))))
    · exact engOf_memWf (accReady_memWf hs)

theorem engGatherSome_memWf {s : State} {w sup runs got} (h : s.memWf) : (engGatherSome s w sup runs got).1.memWf := by
  fun_induction engGatherSome s w sup runs got
  exacts [h, ‹_ → _› (EngR.ok_memWf ‹_› (engRead_memWf h)), engRead_memWf h]

theorem engReady_memWf {s : State} {w sup runs} (h : s.memWf) : (engReady s w sup runs).memWf := by
  fun_induction engReady s w sup runs
  · exact h
  · exact ‹_ → _› (EngR.ok_memWf ‹_› (engXlate_memWf h (fun _ _ hs => engOf_memWf (accReady_memWf hs))))
  · exact engXlate_memWf h fun _ _ hs => engOf_memWf (accReady_memWf hs)

theorem engWrites_memWf {s : State} {w sup runs} (h : s.memWf) : (engWrites s w sup runs).memWf := by
  fun_induction engWrites s w sup runs
  exacts [h, ‹_ → _› (EngR.ok_memWf ‹_› (engWrite_memWf h)), engWrite_memWf h]

theorem engScatter_memWf {s : State} {w sup runs} (h : s.memWf) : (engScatter s w sup runs).memWf := by
  unfold engScatter
  repeat' split
  exacts [engWrites_memWf (EngR.ok_memWf ‹_› (engReady_memWf h)), engReady_memWf h]

theorem setCmd_memWf {s : State} {c} (h : s.memWf) : (setCmd s c).memWf := h

theorem addCmd_memWf {s : State} {c} (h : s.memWf) : (addCmd s c).memWf := h

theorem addStamp_memWf {s : State} {part tile hart sup src naddr gd val err} (h : s.memWf) :
    (addStamp s part tile hart sup src naddr gd val err).memWf := by
  unfold addStamp
  repeat' split
  all_goals exact h

theorem setNode_memWf {s : State} {k n} (h : s.memWf) : (setNode s k n).memWf := h

theorem readyNode_memWf {s : State} {k n} (h : s.memWf) : (readyNode s k n).memWf := by
  simp only [readyNode]
  repeat' split
  all_goals exact h

theorem decrNode_memWf {s : State} {k id taint} (h : s.memWf) : (decrNode s k id taint).memWf := by
  simp only [decrNode]
  repeat' split
  any_goals exact h
  all_goals exact readyNode_memWf h

theorem entryFreed_memWf {s : State} {k} (h : s.memWf) : (entryFreed s k).memWf := by
  simp only [entryFreed]
  repeat' split
  all_goals exact h

theorem winQuantum_memWf {s : State} {n} (h : s.memWf) : (winQuantum s n).memWf := by
  refine foldl_memWf h fun _ _ hs => ?_
  dsimp only
  repeat' split
  all_goals exact hs

theorem completeNode_memWf {s : State} {k err} (h : s.memWf) : (completeNode s k err).memWf := by
  unfold completeNode
  split
  · exact h
  extract_lets w s1 s2 s3 s4 st b s5 s6 s7 gd val
  have h1 : s1.memWf := ite_memWf h (winQuantum_memWf h)
  have h2 : s2.memWf := ite_memWf (sendRaise_memWf h1) h1
  have h3 : s3.memWf := ite_memWf (sendRaise_memWf h2) h2
  have h4 : s4.memWf := foldl_memWf h3 fun _ _ hs => decrNode_memWf hs
  have h6 : s6.memWf := entryFreed_memWf (setStack_memWf h4)
  exact addStamp_memWf (ite_memWf h6 (wakeStalls_memWf h6))

theorem enterNode_memWf {s : State} {k n} (h : s.memWf) : (enterNode s k n).memWf := by
  simp only [enterNode]
  repeat' split
  · exact readyNode_memWf (setNode_memWf (foldl_memWf h (fun _ _ hs => hs)))
  · exact setNode_memWf (foldl_memWf h (fun _ _ hs => hs))
  · exact readyNode_memWf (setNode_memWf (foldl_memWf h (fun _ _ hs => hs)))
  · exact setNode_memWf (foldl_memWf h (fun _ _ hs => hs))

theorem releaseNode_memWf {s : State} {t p addr} (h : s.memWf) : (releaseNode s t p addr).memWf := by
  unfold releaseNode
  repeat' split
  exacts [decrNode_memWf h, h]

/-! ## Machine/Work -/

theorem flushBefore_memWf {s : State} {hart id} (h : s.memWf) : (flushBefore s hart id).memWf := h

theorem stallCmd_memWf {s : State} {c va acc fk} (h : s.memWf) : (stallCmd s c va acc fk).memWf := h

theorem overClaims_memWf {s : State} {c} (h : s.memWf) : (overClaims s c).1.memWf := by
  unfold overClaims
  split
  · exact h
  · refine foldl_fst_memWf h fun r x hr => loop_keeps (fun a : State × List ClaimPos => a.1.memWf = true) (fun j a ha => ?_) _ hr
    extract_lets g bs
    split
    split
    · exact ha
    · split
      · exact TrRes.ok_memWf ‹_› (xlate_memWf ha)
      · exact ha

theorem claimBlocks_memWf {s : State} {c} (h : s.memWf) : (claimBlocks s c).memWf := by
  unfold claimBlocks
  split
  refine foldl_memWf (fst_memWf ‹_› (overClaims_memWf h)) fun s x hs => ?_
  extract_lets s1 s2 y jobs s3 a
  have h1 : s1.memWf := by
    unfold s1
    split
    · exact ite_memWf (evictLine_memWf hs) hs
    · exact hs
  have h2 : s2.memWf := ite_memWf h1 (newLine_memWf h1)
  have h3 : s3.memWf := putLine_memWf h2
  exact ite_memWf h3 (request_memWf h3)

theorem revertBytes_memWf {s : State} {a gk m} (h : s.memWf) : (revertBytes s a gk m).memWf := by
  unfold revertBytes
  repeat' split
  all_goals exact h

theorem dropClaims_memWf {s : State} {c} (h : s.memWf) : (dropClaims s c).memWf :=
  foldl_memWf h (fun _ _ hs => foldl_memWf hs (fun _ _ hs => putLine_memWf (foldl_memWf hs (fun _ _ hs => revertBytes_memWf hs))))

theorem landBlock_memWf {s : State} {c va} (h : s.memWf) : (landBlock c s va).memWf := by
  simp only [landBlock]
  repeat' split
  all_goals exact h

theorem landGran_memWf {s : State} {c g} (h : s.memWf) : (landGran s c g).memWf := foldl_memWf h (fun _ _ hs => landBlock_memWf hs)

theorem again_memWf {s : State} {c} (h : s.memWf) : (again s c).memWf := h

theorem toEnd_memWf {s : State} {c} (h : s.memWf) : (toEnd s c).memWf := h

theorem pursue_memWf {c r k} (h : r.memWf) (hf1 : ∀ s x1, s.memWf → (k s x1).memWf) : (pursue c r k).memWf := by
  unfold pursue
  repeat' split
  any_goals exact h
  exacts [hf1 _ _ h, retry_memWf h]

theorem copyGran_memWf {s : State} {c} (h : s.memWf) : (copyGran s c).memWf := by
  simp only [copyGran]
  repeat' split
  · exact h
  · exact pursue_memWf (engScatter_memWf h) fun _ _ hs => again_memWf (landGran_memWf hs)
  · exact pursue_memWf (engScatter_memWf h) fun _ _ hs => again_memWf (landGran_memWf hs)
  · refine pursue_memWf (engGatherSome_memWf h) fun _ _ hs => ?_
    exact pursue_memWf (engScatter_memWf hs) fun _ _ hs => again_memWf (landGran_memWf hs)
  · refine pursue_memWf (engGatherSome_memWf h) fun _ _ hs => ?_
    exact pursue_memWf (engScatter_memWf hs) fun _ _ hs => again_memWf (landGran_memWf hs)

theorem copyVreg_memWf {s : State} {c} (h : s.memWf) : (copyVreg s c).memWf := by
  unfold copyVreg
  repeat' split
  exacts [h, pursue_memWf (engRead_memWf h) (fun _ _ hs => hs)]

theorem loadRow_memWf {s : State} {w sup cfg n row a buf} (h : s.memWf) : (loadRow s w sup cfg n row a buf).1.memWf := by
  simp only [loadRow]
  repeat' split
  exacts [setTile_memWf (EngR.ok_memWf ‹_› (engGatherSome_memWf h)), engGatherSome_memWf h]

theorem storeRow_memWf {s : State} {w sup cfg n row base stride} (h : s.memWf) : (storeRow s w sup cfg n row base stride).memWf := engScatter_memWf h

theorem copyTile_memWf {s : State} {c} (h : s.memWf) : (copyTile s c).memWf := by
  unfold copyTile
  repeat' split
  exacts [h, pursue_memWf (loadRow_memWf h) (fun _ _ hs => hs)]

theorem podMerge_memWf {s : State} {c va v n} (h : s.memWf) : (podMerge s c va v n).1.memWf := by
  simp only [podMerge]
  repeat' split
  all_goals exact h

theorem rredOut_memWf {s : State} {c n count bs} (h : s.memWf) : (rredOut s c n count bs).1.memWf := by
  fun_induction rredOut s c n count bs
  exacts [h, ‹_ → _› h, fst_memWf ‹_› (podMerge_memWf h), ‹_ → _› (fst_memWf ‹_› (podMerge_memWf h))]

theorem podSend_memWf {s : State} {c} (h : s.memWf) : (podSend s c).memWf := by
  unfold podSend
  split
  · exact toEnd_memWf h
  split
  · exact toEnd_memWf h
  split
  · exact again_memWf h
  extract_lets s1 r msg n
  have h1 : s1.memWf := ite_memWf h (useCircuit_memWf h)
  have hmsg : ∀ va len bs, (msg va len bs).memWf := fun _ _ _ => setCmd_memWf (send_memWf h1)
  split
  · exact hmsg ..
  split
  · exact hmsg ..
  split
  · split
    have ho := fst_memWf ‹_› (rredOut_memWf h1)
    exact ite_memWf (again_memWf ho) (ite_memWf (again_memWf ho) (setCmd_memWf ho))
  · exact hmsg ..

theorem podStep_memWf {s : State} {c} (h : s.memWf) : (podStep s c).memWf := by
  simp only [podStep]
  repeat' split
  any_goals exact h
  exacts [copyGran_memWf h, postOnce_memWf h, pursue_memWf (engRead_memWf h) (fun _ _ hs => hs), postOnce_memWf h, podSend_memWf h]

theorem transfer_memWf {s : State} {t id} (h : s.memWf) : (transfer s t id).memWf := by
  unfold transfer
  repeat' split
  any_goals exact h
  exacts [copyVreg_memWf h, copyTile_memWf h, copyGran_memWf h, podStep_memWf h]

theorem beginNext_memWf {s : State} {t} (h : s.memWf) : (beginNext s t).memWf := by
  simp only [beginNext]
  repeat' split
  all_goals exact h

theorem cmdRecord_memWf {s : State} {c m} (h : s.memWf) : (cmdRecord s c m).memWf := by
  unfold cmdRecord
  repeat' split
  all_goals exact workRecord_memWf h

theorem followOn_memWf {s : State} {c} (h : s.memWf) : (followOn s c).memWf := by
  unfold followOn
  repeat' split
  all_goals exact h

theorem raiseOf_memWf {s : State} {c} (h : s.memWf) : (raiseOf s c).memWf := by
  unfold raiseOf
  extract_lets s1 s2 s3 s4 s5
  have h1 : s1.memWf := ite_memWf (foldl_memWf h fun _ _ hs => hs) h
  have h2 : s2.memWf := ite_memWf (dropClaims_memWf h1) h1
  have h3 : s3.memWf := followOn_memWf h2
  have h4 : s4.memWf := ite_memWf (sendRaise_memWf h3) h3
  have h5 : s5.memWf := by
    unfold s5
    split
    · exact ite_memWf h4 (cmdRecord_memWf h4)
    · exact h4
  exact ite_memWf (completeNode_memWf h5) h5

theorem leaveQueue_memWf {s : State} {c} (h : s.memWf) : (leaveQueue s c).memWf := by
  simp only [leaveQueue]
  repeat' split
  all_goals exact h

theorem ursvBegin_memWf {s : State} {c} (h : s.memWf) : (ursvBegin s c).memWf := toEnd_memWf (posts_memWf (foldl_memWf h (fun _ _ hs => hs)))

theorem dropCinch_memWf {s : State} {c} (h : s.memWf) : (dropCinch s c).memWf := by
  unfold dropCinch
  repeat' split
  all_goals exact h

theorem complete_memWf {s : State} {t id} (h : s.memWf) : (complete s t id).memWf := by
  unfold complete
  split
  · exact h
  split
  · exact h
  split
  · exact ite_memWf (post_memWf (flushBefore_memWf h)) (ursvBegin_memWf h)
  split
  · exact post_memWf h
  split
  · exact post_memWf h
  split
  · extract_lets c s1 c' s2
    have h2 : s2.memWf := raiseOf_memWf (dropCinch_memWf (setCmd_memWf (repClear_memWf h)))
    exact ite_memWf (leaveQueue_memWf h2) (post_memWf h2)
  split
  · exact leaveQueue_memWf (EngR.ok_memWf ‹_› (engScatter_memWf h))
  · exact retry_memWf (EngR.wait_memWf ‹_› (engScatter_memWf h))
  · have hk := EngR.serve_memWf ‹_› (engScatter_memWf h)
    exact ite_memWf (leaveQueue_memWf hk) (stallCmd_memWf hk)
  · exact leaveQueue_memWf (cmdRecord_memWf (EngR.err_memWf ‹_› (engScatter_memWf h)))

theorem podAnswered_memWf {s : State} {t id neg bs word} (h : s.memWf) : (podAnswered s t id neg bs word).memWf := by
  simp only [podAnswered]
  repeat' split
  all_goals exact h

/-! ## Machine/Matrix -/

theorem setStream_memWf {s : State} {t k x} (h : s.memWf) : (setStream s t k x).memWf := h

theorem moveStream_memWf {s : State} {t k} (h : s.memWf) : (moveStream s t k).memWf := by
  simp only [moveStream]
  repeat' split
  all_goals exact h

theorem popOp_memWf {s : State} {t k} (h : s.memWf) : (popOp s t k).memWf := moveStream_memWf h

theorem showFlags_memWf {s : State} {l} (h : s.memWf) : (showFlags s l).memWf := foldl_memWf h (fun _ _ hs => hs)

theorem mmaStart_memWf {s : State} {t} (h : s.memWf) : (mmaStart s t).memWf := by
  simp only [mmaStart]
  repeat' split
  all_goals exact h

theorem failOp_memWf {s : State} {t k o m} (h : s.memWf) : (failOp s t k o m).memWf := by
  unfold failOp
  repeat' split
  all_goals exact popOp_memWf h

theorem moveRow_memWf {s : State} {t k x o} (h : s.memWf) : (moveRow s t k x o).memWf := by
  unfold moveRow
  split
  · exact ite_memWf (postOnce_memWf h) (ite_memWf (popOp_memWf (setStream_memWf (repClear_memWf h))) (popOp_memWf (repClear_memWf h)))
  split
  · exact post_memWf (flushBefore_memWf h)
  extract_lets p w put
  split
  next r buf e =>
    have hr : r.memWf := by
      split at e
      · have hl : (r, buf).1.memWf := e ▸ loadRow_memWf h
        exact hl
      · cases e
        exact storeRow_memWf h
    split
    · exact post_memWf (setStream_memWf hr)
    · exact retry_memWf (setStream_memWf hr)
    · exact setStream_memWf (askService_memWf hr)
    · exact popOp_memWf (setStream_memWf hr)

theorem matrixStep_memWf {s : State} {t k} (h : s.memWf) : (matrixStep s t k).memWf := by
  simp only [matrixStep]
  repeat' split
  any_goals exact h
  exacts [failOp_memWf h, post_memWf (popOp_memWf h), popOp_memWf h, popOp_memWf h, popOp_memWf h, moveRow_memWf h]

theorem enterOp_memWf {s : State} {k o} (h : s.memWf) : (enterOp s k o).memWf := by
  simp only [enterOp]
  repeat' split
  exacts [moveStream_memWf h, h]

theorem rowsOp_memWf {s : State} {kind n k a b t} (h : s.memWf) : nextWf (rowsOp kind n k a b t s) := by
  simp only [rowsOp]
  refine finish1_memWf ?_
  split
  · exact operandR_memWf h
  refine withRegs_memWf h fun _ hs => ?_
  repeat' split
  exacts [operandR_memWf h, trapR_memWf h, waitR_memWf h, enterOp_memWf hs]

theorem execMld_memWf {s : State} {n x a b t} (h : s.memWf) : nextWf (execMld n x a b t s) := rowsOp_memWf h

theorem execMst_memWf {s : State} {n x a b t} (h : s.memWf) : nextWf (execMst n x a b t s) := rowsOp_memWf h

theorem execMma_memWf {s : State} {c a b x p n z y} (h : s.memWf) : nextWf (execMma c a b x p n z y s) := by
  unfold execMma
  refine finish1_memWf ?_
  repeat' split
  exacts [trapR_memWf h, operandR_memWf h, waitR_memWf h, enterOp_memWf h]

theorem execMzero_memWf {s : State} {c x} (h : s.memWf) : nextWf (execMzero c x s) := by
  unfold execMzero
  refine finish1_memWf ?_
  repeat' split
  exacts [operandR_memWf h, waitR_memWf h, enterOp_memWf h]

theorem execMacc2v_memWf {s : State} {d c x} (h : s.memWf) : nextWf (execMacc2v d c x s) := by
  simp only [execMacc2v]
  refine finish1_memWf ?_
  repeat' split
  exacts [operandR_memWf h, waitR_memWf h, operandR_memWf h, waitR_memWf h, setTile_memWf (enterOp_memWf h)]

theorem execMacc2t_memWf {s : State} {c n x} (h : s.memWf) : nextWf (execMacc2t c n x s) := by
  simp only [execMacc2t]
  refine finish1_memWf ?_
  repeat' split
  exacts [operandR_memWf h, waitR_memWf h, enterOp_memWf h]

theorem execMsync_memWf {s : State} {m} (h : s.memWf) : nextWf (execMsync m s) := by
  simp only [execMsync]
  repeat' split
  exacts [finish1_memWf (operandR_memWf h), finish1_memWf (waitR_memWf h), finish1_memWf h, finish1_memWf (showFlags_memWf h)]

theorem execMmaBegin_memWf {s : State} {tile} (h : s.memWf) : nextWf (execMmaBegin tile s) := mmaStart_memWf h

theorem execMatrixOpComplete_memWf {s : State} {tile stream} (h : s.memWf) : nextWf (execMatrixOpComplete tile stream s) := matrixStep_memWf h

/-! ## Machine/MemInstr -/

theorem loadOp_memWf {s : State} {srcs d z u va ldsto acq} (h : s.memWf) : nextWf (loadOp srcs d z u va ldsto acq s) := by
  unfold loadOp
  refine finish1_memWf (withRegs_memWf h fun _ _ => ?_)
  extract_lets n
  split
  · exact trapR_memWf h
  split
  · exact RangeRes.fault_memWf ‹_› (rangeOf_memWf h)
  · have hr := RangeRes.ok_memWf ‹_› (rangeOf_memWf h)
    extract_lets o dest p k
    split
    · split
      · exact trapR_memWf hr
      · exact setG_memWf (popSrcs_memWf hr)
    · exact issuePend_memWf (emptyG_memWf (popSrcs_memWf hr))

theorem storeOp_memWf {s : State} {r a z t va ldsto rel} (h : s.memWf) : nextWf (storeOp r a z t va ldsto rel s) := by
  simp only [storeOp]
  refine finish1_memWf ?_
  refine withRegs_memWf h fun _ _ => ?_
  repeat' split
  · exact trapR_memWf h
  · exact RangeRes.fault_memWf ‹_› (rangeOf_memWf h)
  · exact putEntry_memWf (flushHart_memWf (popSrcs_memWf (RangeRes.ok_memWf ‹_› (rangeOf_memWf h))))
  · exact putEntry_memWf (popSrcs_memWf (RangeRes.ok_memWf ‹_› (rangeOf_memWf h)))

theorem amoOp_memWf {s : State} {f d a b z e t} (h : s.memWf) : nextWf (amoOp f d a b z e t s) := by
  unfold amoOp
  extract_lets srcs
  refine finish1_memWf (withRegs_memWf h fun _ _ => ?_)
  extract_lets
  split
  · exact trapR_memWf h
  split
  · exact RangeRes.fault_memWf ‹_› (rangeOf_memWf h)
  · have hk := emptyG_memWf (r := d) (popSrcs_memWf (l := srcs) (RangeRes.ok_memWf ‹_› (rangeOf_memWf h)))
    exact issuePend_memWf (ite_memWf (flushHart_memWf hk) hk)

theorem redOp_memWf {s : State} {f b a z e t} (h : s.memWf) : nextWf (redOp f b a z e t s) := by
  unfold redOp
  refine finish1_memWf (withRegs_memWf h fun _ _ => ?_)
  extract_lets n va
  split
  · exact trapR_memWf h
  split
  · exact RangeRes.fault_memWf ‹_› (rangeOf_memWf h)
  · have hr := RangeRes.ok_memWf ‹_› (rangeOf_memWf h)
    extract_lets v st far k k1 k2
    have hk1 : k1.memWf := ite_memWf (flushHart_memWf (popSrcs_memWf hr)) (popSrcs_memWf hr)
    have hk2 : k2.memWf := ite_memWf (useCircuit_memWf hk1) hk1
    split
    · split
      · exact waitR_memWf hr
      split
      · split
        · exact fst_memWf ‹_› (mergeRed_memWf (popSrcs_memWf hr))
        · exact waitR_memWf (mergeRed_memWf hr)
      · exact hr
    · exact putEntry_memWf hk2

theorem execLd_memWf {s : State} {d a z u t o} (h : s.memWf) : nextWf (execLd d a z u t o s) := loadOp_memWf h

theorem execSt_memWf {s : State} {r a z t o} (h : s.memWf) : nextWf (execSt r a z t o s) := storeOp_memWf h

theorem execLdo_memWf {s : State} {d a z u e _c t} (h : s.memWf) : nextWf (execLdo d a z u e _c t s) := loadOp_memWf h

theorem execSto_memWf {s : State} {r a z e _c t} (h : s.memWf) : nextWf (execSto r a z e _c t s) := storeOp_memWf h

theorem execAmoSwap_memWf {s : State} {d a b z e _c t} (h : s.memWf) : nextWf (execAmoSwap d a b z e _c t s) := amoOp_memWf h

theorem execAmoCas_memWf {s : State} {d a b z e _c t} (h : s.memWf) : nextWf (execAmoCas d a b z e _c t s) := amoOp_memWf h

theorem execAmoAdd_memWf {s : State} {d a b z e _c t} (h : s.memWf) : nextWf (execAmoAdd d a b z e _c t s) := amoOp_memWf h

theorem execAmoAnd_memWf {s : State} {d a b z e _c t} (h : s.memWf) : nextWf (execAmoAnd d a b z e _c t s) := amoOp_memWf h

theorem execAmoOr_memWf {s : State} {d a b z e _c t} (h : s.memWf) : nextWf (execAmoOr d a b z e _c t s) := amoOp_memWf h

theorem execAmoXor_memWf {s : State} {d a b z e _c t} (h : s.memWf) : nextWf (execAmoXor d a b z e _c t s) := amoOp_memWf h

theorem execAmoMin_memWf {s : State} {d a b z e _c t} (h : s.memWf) : nextWf (execAmoMin d a b z e _c t s) := amoOp_memWf h

theorem execAmoMax_memWf {s : State} {d a b z e _c t} (h : s.memWf) : nextWf (execAmoMax d a b z e _c t s) := amoOp_memWf h

theorem execAmoMinu_memWf {s : State} {d a b z e _c t} (h : s.memWf) : nextWf (execAmoMinu d a b z e _c t s) := amoOp_memWf h

theorem execAmoMaxu_memWf {s : State} {d a b z e _c t} (h : s.memWf) : nextWf (execAmoMaxu d a b z e _c t s) := amoOp_memWf h

theorem execAmoFadd_memWf {s : State} {d a b z e _c t} (h : s.memWf) : nextWf (execAmoFadd d a b z e _c t s) := amoOp_memWf h

theorem execRedAdd_memWf {s : State} {b a z e _c t} (h : s.memWf) : nextWf (execRedAdd b a z e _c t s) := redOp_memWf h

theorem execRedAnd_memWf {s : State} {b a z e _c t} (h : s.memWf) : nextWf (execRedAnd b a z e _c t s) := redOp_memWf h

theorem execRedOr_memWf {s : State} {b a z e _c t} (h : s.memWf) : nextWf (execRedOr b a z e _c t s) := redOp_memWf h

theorem execRedXor_memWf {s : State} {b a z e _c t} (h : s.memWf) : nextWf (execRedXor b a z e _c t s) := redOp_memWf h

theorem execRedMin_memWf {s : State} {b a z e _c t} (h : s.memWf) : nextWf (execRedMin b a z e _c t s) := redOp_memWf h

theorem execRedMax_memWf {s : State} {b a z e _c t} (h : s.memWf) : nextWf (execRedMax b a z e _c t s) := redOp_memWf h

theorem execRedMinu_memWf {s : State} {b a z e _c t} (h : s.memWf) : nextWf (execRedMinu b a z e _c t s) := redOp_memWf h

theorem execRedMaxu_memWf {s : State} {b a z e _c t} (h : s.memWf) : nextWf (execRedMaxu b a z e _c t s) := redOp_memWf h

theorem execRedFadd_memWf {s : State} {b a z e _c t} (h : s.memWf) : nextWf (execRedFadd b a z e _c t s) := redOp_memWf h

theorem execFence_memWf {s : State} {c k e} (h : s.memWf) : nextWf (execFence c k e s) := by
  simp only [execFence]
  repeat' split
  · exact finish1_memWf h
  · exact finish1_memWf h
  · exact finish1_memWf h
  · exact finish1_memWf (waitR_memWf h)
  · exact finish1_memWf (waitR_memWf h)
  · exact finish1_memWf (waitR_memWf h)
  · exact finish1_memWf h
  · exact finish1_memWf (waitR_memWf h)
  · exact finish1_memWf (waitR_memWf h)
  · exact finish1_memWf h

theorem execJoinMarkers_memWf {s : State} {hart} (h : s.memWf) : nextWf (execJoinMarkers hart s) := by
  simp only [execJoinMarkers]
  repeat' split
  all_goals exact h

theorem execJoinMarkerArrive_memWf {s : State} {join circuit} (h : s.memWf) : nextWf (execJoinMarkerArrive join circuit s) := by
  simp only [execJoinMarkerArrive]
  repeat' split
  all_goals exact h

theorem execJackSend_memWf {s : State} {join circuit} (h : s.memWf) : nextWf (execJackSend join circuit s) := h

theorem execJackArrive_memWf {s : State} {join _circuit} (h : s.memWf) : nextWf (execJackArrive join _circuit s) := by
  unfold execJackArrive
  repeat' split
  all_goals exact h

theorem memWf_arm {s : State} {g} (h : s.memWf) : (arm s g).memWf := h

theorem execWatch_memWf {s : State} {a} (h : s.memWf) : nextWf (execWatch a s) := by
  simp only [execWatch]
  refine finish1_memWf ?_
  refine withRegs_memWf h fun _ _ => ?_
  repeat' split
  · exact RangeRes.fault_memWf ‹_› (rangeOf_memWf h)
  · exact memWf_arm (popSrcs_memWf (RangeRes.ok_memWf ‹_› (rangeOf_memWf h)))
  · exact RangeRes.ok_memWf ‹_› (rangeOf_memWf h)

theorem execMonitorNotify_memWf {s : State} {hart} (h : s.memWf) : nextWf (execMonitorNotify hart s) := h

theorem waitWord_memWf {s : State} {x va passes k} (h : s.memWf) (hf1 : ∀ s x1, s.memWf → (k s x1).memWf) : (waitWord s x va passes k).memWf := by
  unfold waitWord
  extract_lets g hart s1 read
  refine Res.ite_memWf (waitR_memWf h) ?_
  have h1 : s1.memWf := memWf_arm h
  have hr : (if x.io then ioLoad s1 (curPart s1) x else accRead s1 (whoInstr s1) x).memWf := by
    split
    · exact ioLoad_memWf h1
    · exact accRead_memWf h1
  split
  · exact waitR_memWf (flushMerge_memWf h1)
  split
  · exact waitR_memWf (Acc.wait_memWf ‹_› hr)
  · exact Acc.err_memWf ‹_› hr
  · have hk := Acc.ok_memWf ‹_› hr
    split
    · exact hf1 _ _ hk
    · exact waitR_memWf hk

theorem execWaitw_memWf {s : State} {d a _c b} (h : s.memWf) : nextWf (execWaitw d a _c b s) := by
  simp only [execWaitw]
  refine finish1_memWf ?_
  refine withRegs_memWf h fun _ hs => ?_
  repeat' split
  · exact trapR_memWf h
  · exact RangeRes.fault_memWf ‹_› (rangeOf_memWf h)
  · exact waitWord_memWf (RangeRes.ok_memWf ‹_› (rangeOf_memWf h)) fun _ _ hs => setG_memWf (popSrcs_memWf hs)
  · exact RangeRes.ok_memWf ‹_› (rangeOf_memWf h)

theorem barrierWord_memWf {s : State} {va k} (h : s.memWf) (hf1 : ∀ s x1, s.memWf → (k s x1).memWf) : (barrierWord s va k).memWf := by
  unfold barrierWord
  repeat' split
  · exact trapR_memWf h
  · exact RangeRes.fault_memWf ‹_› (rangeOf_memWf h)
  · exact hf1 _ _ (RangeRes.ok_memWf ‹_› (rangeOf_memWf h))
  · exact RangeRes.ok_memWf ‹_› (rangeOf_memWf h)

theorem execArrive_memWf {s : State} {a b _c} (h : s.memWf) : nextWf (execArrive a b _c s) := by
  refine finish1_memWf ?_
  refine withRegs_memWf h fun _ hs => ?_
  repeat' split
  exacts [operandR_memWf h, barrierWord_memWf h (fun _ _ hs => putEntry_memWf (flushHart_memWf (popSrcs_memWf hs)))]

theorem execWaitb_memWf {s : State} {a b _c} (h : s.memWf) : nextWf (execWaitb a b _c s) :=
  finish1_memWf (withRegs_memWf h (fun _ _ => barrierWord_memWf h (fun _ _ hs => waitWord_memWf hs (fun _ _ hs => popSrcs_memWf hs))))

theorem execBar_memWf {s : State} {a b _c} (h : s.memWf) : nextWf (execBar a b _c s) := by
  refine finish1_memWf ?_
  refine withRegs_memWf h fun _ hs => ?_
  repeat' split
  · exact operandR_memWf h
  · refine barrierWord_memWf h fun _ _ hs => ?_
    dsimp only
    repeat' split
    · exact waitWord_memWf hs fun _ _ hs => setCur_memWf (popSrcs_memWf hs)
    · exact waitR_memWf hs
    · exact waitR_memWf (Acc.wait_memWf ‹_› (accRmw_memWf (flushHart_memWf hs)))
    · exact Acc.err_memWf ‹_› (accRmw_memWf (flushHart_memWf hs))
    · exact waitR_memWf (setCur_memWf (Acc.ok_memWf ‹_› (accRmw_memWf (flushHart_memWf hs))))

theorem treatGate_memWf {s : State} {gk k} (h : s.memWf) (hf1 : ∀ s, s.memWf → (k s).memWf) : (treatGate s gk k).memWf := by
  simp only [treatGate]
  repeat' split
  any_goals exact h
  exacts [waitTurn_memWf h, Clash.held_memWf ‹_› (clash_memWf h), hf1 _ h, machineCheck_memWf h, hf1 _ h]

theorem flushGran_memWf {s : State} {gk} (h : s.memWf) : (flushGran s gk).memWf := by
  refine treatGate_memWf h fun _ hs => ?_
  repeat' split
  exacts [hs, recallAll_memWf hs]

theorem writeBackGran_memWf {s : State} {gk} (h : s.memWf) : (writeBackGran s gk).memWf := by
  refine treatGate_memWf h fun _ hs => ?_
  repeat' split
  exacts [hs, hs, recallAll_memWf hs, recallShared_memWf hs]

theorem discardGran_memWf {s : State} {gk} (h : s.memWf) : (discardGran s gk).memWf := by
  refine treatGate_memWf h fun _ hs => ?_
  dsimp only
  repeat' split
  · exact recallAll_memWf hs
  · exact hs
  · exact givenBack_memWf (delDir_memWf (setTile_memWf (foldl_memWf hs (fun _ _ hs => hs))))
  · exact setTile_memWf (foldl_memWf hs (fun _ _ hs => hs))
  · exact recallAll_memWf hs
  · exact hs
  · exact givenBack_memWf (delDir_memWf (setTile_memWf (foldl_memWf hs (fun _ _ hs => hs))))
  · exact setTile_memWf (foldl_memWf hs (fun _ _ hs => hs))

theorem treatXlate_memWf {s : State} {rw a} (h : s.memWf) : (treatXlate rw s a).memWf := by
  simp only [treatXlate]
  repeat' split
  · exact TrRes.fault_memWf ‹_› (xlate_memWf h)
  · exact TrRes.ok_memWf ‹_› (xlate_memWf h)
  · exact TrRes.fault_memWf ‹_› (gtlbTake_memWf (llcWalk_memWf (TrRes.ok_memWf ‹_› (xlate_memWf h))))
  · exact TrRes.ok_memWf ‹_› (gtlbTake_memWf (llcWalk_memWf (TrRes.ok_memWf ‹_› (xlate_memWf h))))
  · exact TrRes.ok_memWf ‹_› (gtlbTake_memWf (llcWalk_memWf (TrRes.ok_memWf ‹_› (xlate_memWf h))))

theorem treatRange_memWf {s : State} {srcs va len rw treat} (h : s.memWf) (hf1 : ∀ s x1, s.memWf → (treat s x1).memWf) :
    (treatRange s srcs va len rw treat).memWf := by
  have hx : ∀ a, (rangeWith (treatXlate rw) s (curTile s) (curPart s) a 1 .read .none).memWf :=
    fun a => rangeWith_memWf (fun _ _ hs => treatXlate_memWf hs) h
  unfold treatRange
  extract_lets first n i setP a
  split
  · exact setCur_memWf (popSrcs_memWf h)
  split
  · exact setCur_memWf (RangeRes.fault_memWf ‹_› (hx a))
  · have hr := RangeRes.ok_memWf ‹_› (hx a)
    split
    · exact hr
    split
    · have hd := Treat.done_memWf ‹_› (hf1 _ _ hr)
      split
      · exact setCur_memWf (popSrcs_memWf hd)
      · exact waitR_memWf (setCur_memWf hd)
    · exact waitR_memWf (Treat.wait_memWf ‹_› (hf1 _ _ hr))
    · exact setCur_memWf (Treat.stop_memWf ‹_› (hf1 _ _ hr))

theorem execCwb_memWf {s : State} {g hart} (h : s.memWf) : nextWf (execCwb g hart s) := by
  refine finish1_memWf ?_
  refine withRegs_memWf h fun _ hs => ?_
  repeat' split
  exacts [operandR_memWf h, treatRange_memWf h (fun _ _ hs => writeBackGran_memWf hs)]

theorem execCflush_memWf {s : State} {g hart} (h : s.memWf) : nextWf (execCflush g hart s) := by
  refine finish1_memWf ?_
  refine withRegs_memWf h fun _ hs => ?_
  repeat' split
  exacts [operandR_memWf h, treatRange_memWf h (fun _ _ hs => flushGran_memWf hs)]

theorem execCinv_memWf {s : State} {g} (h : s.memWf) : nextWf (execCinv g s) := by
  simp only [execCinv]
  refine finish1_memWf ?_
  refine withRegs_memWf h fun _ _ => ?_
  repeat' split
  · exact TrRes.fault_memWf ‹_› (xlateFetch_memWf h)
  · exact TrRes.ok_memWf ‹_› (xlateFetch_memWf h)
  · exact waitR_memWf (flushHart_memWf (TrRes.ok_memWf ‹_› (xlateFetch_memWf h)))
  · exact setTile_memWf (popSrcs_memWf (flushHart_memWf (TrRes.ok_memWf ‹_› (xlateFetch_memWf h))))

theorem execCinvRange_memWf {s : State} {g hart} (h : s.memWf) : nextWf (execCinvRange g hart s) := by
  unfold execCinvRange
  split
  · exact finish1_memWf (trapR_memWf h)
  refine finish1_memWf (withRegs_memWf h fun _ _ => ?_)
  exact Res.ite_memWf (operandR_memWf h) (treatRange_memWf h fun _ _ hs => discardGran_memWf hs)

theorem execLoadDataReturn_memWf {s : State} {id} (h : s.memWf) : nextWf (execLoadDataReturn id s) := pendStep_memWf h

theorem execHomeServedAccess_memWf {s : State} {id} (h : s.memWf) : nextWf (execHomeServedAccess id s) := by
  unfold execHomeServedAccess
  repeat' split
  exacts [h, pendStep_memWf h]

theorem execHomeAtomic_memWf {s : State} {id} (h : s.memWf) : nextWf (execHomeAtomic id s) := pendStep_memWf h

theorem execStoreSend_memWf {s : State} {hart} (h : s.memWf) : nextWf (execStoreSend hart s) := storeStep_memWf h

theorem execStoreAck_memWf {s : State} {hart id} (h : s.memWf) : nextWf (execStoreAck hart id s) := h

theorem execMergeFlushIdle_memWf {s : State} {tile idx} (h : s.memWf) : nextWf (execMergeFlushIdle tile idx s) := mergeStep_memWf h

theorem execWatermarkRelease_memWf {s : State} {hart} (h : s.memWf) : nextWf (execWatermarkRelease hart s) :=
  foldl_memWf h (fun _ _ hs => pendTry_memWf hs)

/-! ## Machine/Commands -/

theorem readRec_memWf {s : State} {runs} (h : s.memWf) : (readRec s runs).memWf := by
  fun_induction readRec s runs
  · exact h
  · exact RangeRes.fault_memWf ‹_› (rangeOf_memWf h)
  · exact Acc.wait_memWf ‹_› (accReads_memWf (RangeRes.ok_memWf ‹_› (rangeOf_memWf h)))
  · exact Acc.err_memWf ‹_› (accReads_memWf (RangeRes.ok_memWf ‹_› (rangeOf_memWf h)))
  · exact Rd.ok_memWf ‹_› (‹_ → _› (Acc.ok_memWf ‹_› (accReads_memWf (RangeRes.ok_memWf ‹_› (rangeOf_memWf h)))))
  · exact ‹_ → _› (Acc.ok_memWf ‹_› (accReads_memWf (RangeRes.ok_memWf ‹_› (rangeOf_memWf h))))

theorem record_memWf {s : State} {va n k} (h : s.memWf) (hf1 : ∀ s x1, s.memWf → (k s x1).memWf) : (record s va n k).memWf := by
  unfold record
  repeat' split
  exacts [hf1 _ _ (Rd.ok_memWf ‹_› (readRec_memWf h)), Rd.stop_memWf ‹_› (readRec_memWf h)]

theorem afterDrain_memWf {s : State} {k} (h : s.memWf) (hf1 : ∀ s, s.memWf → (k s).memWf) : (afterDrain s k).memWf := by
  simp only [afterDrain]
  repeat' split
  exacts [hf1 _ h, waitR_memWf h]

theorem refuseRecord_memWf {s : State} {va} (h : s.memWf) : (refuseRecord s va).memWf := h

theorem logComp_memWf {s : State} {c} (h : s.memWf) : (logComp s c).memWf := by
  unfold logComp
  repeat' split
  all_goals exact h

theorem acceptCopy_memWf {s : State} {c} (h : s.memWf) : (acceptCopy s c).memWf := by
  unfold acceptCopy
  repeat' split
  · exact post_memWf (enterOp_memWf (setTile_memWf (claimBlocks_memWf h)))
  · exact post_memWf (setTile_memWf (claimBlocks_memWf h))
  · exact post_memWf (enterOp_memWf (claimBlocks_memWf h))
  · exact post_memWf (claimBlocks_memWf h)

theorem copyIssue_memWf {s : State} {r c} (h : s.memWf) : nextWf (copyIssue r c s) := by
  unfold copyIssue
  refine finish4_memWf ?_
  split
  · exact trapR_memWf h
  split
  · exact operandR_memWf h
  refine withRegs_memWf h fun _ _ => ?_
  split
  · exact operandR_memWf (logComp_memWf h)
  split
  · exact trapR_memWf h
  extract_lets t s1
  have h1 : s1.memWf := flushHart_memWf h
  exact Res.ite_memWf (waitR_memWf h1) (Res.ite_memWf (waitR_memWf h1) (Res.ite_memWf (waitR_memWf h1) (acceptCopy_memWf (popSrcs_memWf h1))))

theorem execCopyLin_memWf {s : State} {r c f} (h : s.memWf) : nextWf (execCopyLin r c f s) := copyIssue_memWf h

theorem execCopyDeint_memWf {s : State} {r c f esz np} (h : s.memWf) : nextWf (execCopyDeint r c f esz np s) := copyIssue_memWf h

theorem execCopyPerm_memWf {s : State} {r c f esz perm} (h : s.memWf) : nextWf (execCopyPerm r c f esz perm s) := copyIssue_memWf h

theorem execCopyVreg_memWf {s : State} {r c f} (h : s.memWf) : nextWf (execCopyVreg r c f s) := copyIssue_memWf h

theorem execCopyTile_memWf {s : State} {r c f} (h : s.memWf) : nextWf (execCopyTile r c f s) := copyIssue_memWf h

theorem execPut_memWf {s : State} {r c dpkg tag} (h : s.memWf) : nextWf (execPut r c dpkg tag s) := copyIssue_memWf h

theorem execGet_memWf {s : State} {r c dpkg} (h : s.memWf) : nextWf (execGet r c dpkg s) := copyIssue_memWf h

theorem execRamo_memWf {s : State} {r c dpkg func} (h : s.memWf) : nextWf (execRamo r c dpkg func s) := copyIssue_memWf h

theorem execRred_memWf {s : State} {r c dpkg tag func} (h : s.memWf) : nextWf (execRred r c dpkg tag func s) := copyIssue_memWf h

theorem execMcast_memWf {s : State} {r c group tag} (h : s.memWf) : nextWf (execMcast r c group tag s) := copyIssue_memWf h

theorem execCommandAccept_memWf {s : State} {hart} (h : s.memWf) : nextWf (execCommandAccept hart s) := by
  simp only [execCommandAccept]
  repeat' split
  all_goals exact h

theorem execCopyBegin_memWf {s : State} {tile} (h : s.memWf) : nextWf (execCopyBegin tile s) := beginNext_memWf h

theorem execCopyTransfer_memWf {s : State} {tile cmd} (h : s.memWf) : nextWf (execCopyTransfer tile cmd s) := transfer_memWf h

theorem execCommandComplete_memWf {s : State} {tile cmd} (h : s.memWf) : nextWf (execCommandComplete tile cmd s) := complete_memWf h

theorem logRecord_memWf {s : State} {w} (h : s.memWf) : (logRecord s w).memWf := by
  unfold logRecord
  repeat' split
  exacts [logComp_memWf h, h]

theorem execTpost_memWf {s : State} {ga gb gc k act rel} (h : s.memWf) : nextWf (execTpost ga gb gc k act rel s) := by
  refine finish4_memWf ?_
  refine withRegs_memWf h fun _ hs => ?_
  dsimp only
  split
  · exact operandR_memWf h
  split
  · exact trapR_memWf h
  split
  · exact waitR_memWf h
  refine afterDrain_memWf h fun _ hs => ?_
  split
  · repeat' split
    exacts [post_memWf (setTile_memWf (popSrcs_memWf hs)), operandR_memWf hs]
  refine record_memWf hs fun _ _ hs => ?_
  repeat' split
  exacts [post_memWf (setTile_memWf (popSrcs_memWf hs)), refuseRecord_memWf hs, refuseRecord_memWf (logRecord_memWf hs)]

theorem execTcancel_memWf {s : State} {ga gd k} (h : s.memWf) : nextWf (execTcancel ga gd k s) := by
  simp only [execTcancel]
  refine finish4_memWf ?_
  refine withRegs_memWf h fun _ hs => ?_
  split
  · exact operandR_memWf h
  split
  · exact trapR_memWf h
  exact afterDrain_memWf h fun _ hs => addStamp_memWf (setTile_memWf (popSrcs_memWf hs))

theorem firePost_memWf {s : State} {t x} (h : s.memWf) : (firePost s t x).memWf := by
  unfold firePost
  repeat' split
  any_goals exact h
  all_goals exact releaseNode_memWf h

theorem examine_memWf {s : State} {t k l} (h : s.memWf) : (examine t k l s).1.memWf := by
  fun_induction examine t k l s
  · exact h
  · exact fst_memWf ‹_› (‹_ → _› h)
  · exact ‹_ → _› (firePost_memWf h)
  · exact fst_memWf ‹_› (‹_ → _› (firePost_memWf h))
  · exact ‹_ → _› (update_memWf (firePost_memWf h) rfl rfl)
  · exact fst_memWf ‹_› (‹_ → _› (update_memWf (firePost_memWf h) rfl rfl))

theorem execPostExamine_memWf {s : State} {tile k} (h : s.memWf) : nextWf (execPostExamine tile k s) := by
  simp only [execPostExamine]
  repeat' split
  exacts [setTile_memWf (examine_memWf h), setCounter_memWf (setTile_memWf (examine_memWf h))]

theorem execFiredOpHandoff_memWf {s : State} {tile} (h : s.memWf) : nextWf (execFiredOpHandoff tile s) := by
  unfold execFiredOpHandoff
  repeat' split
  any_goals exact h
  exacts [acceptCopy_memWf h, post_memWf (acceptCopy_memWf h)]

theorem execCounterRaise_memWf {s : State} {tile k amount} (h : s.memWf) : nextWf (execCounterRaise tile k amount s) := raiseCounter_memWf h

theorem setCtlByte_memWf {s : State} {off v} (h : s.memWf) : (setCtlByte s off v).memWf := h

theorem zeroRun_memWf {s : State} {t r} (h : s.memWf) : (zeroRun s t r).memWf := h

theorem refuseCtl_memWf {s : State} {off} (h : s.memWf) : (refuseCtl s off).memWf := h

theorem broughtUp_memWf {s k : State} {off} (h : s.memWf) (h1 : k.memWf) : (broughtUp s off k).memWf := by
  unfold broughtUp
  repeat' split
  exacts [h1, h]

theorem execCounterRunGrant_memWf {s : State} {tile run part} (h : s.memWf) : nextWf (execCounterRunGrant tile run part s) := by
  simp only [execCounterRunGrant]
  repeat' split
  all_goals exact broughtUp_memWf h h

theorem endFired_memWf {s : State} {c} (h : s.memWf) : (endFired s c).memWf := addStamp_memWf (cmdRecord_memWf h)

theorem execCounterRunRevoke_memWf {s : State} {tile run} (h : s.memWf) : nextWf (execCounterRunRevoke tile run s) :=
  broughtUp_memWf h (zeroRun_memWf (setCtlByte_memWf (foldl_memWf h (fun _ _ hs => endFired_memWf hs))))

theorem ctrInstr_memWf {s : State} {srcs d hart f} (h : s.memWf) (hf1 : ∀ s x1 x2 x3, s.memWf → (f s x1 x2 x3).memWf) :
    nextWf (ctrInstr srcs d hart s f) := by
  simp only [ctrInstr]
  refine finish1_memWf ?_
  refine withRegs_memWf h fun _ hs => ?_
  repeat' split
  exacts [operandR_memWf h, protR_memWf h, hf1 _ _ _ _ hs]

theorem execCtradd_memWf {s : State} {g hart} (h : s.memWf) : nextWf (execCtradd g hart s) := ctrInstr_memWf h (fun _ _ _ _ hs => hs)

theorem execCtrrd_memWf {s : State} {g hart} (h : s.memWf) : nextWf (execCtrrd g hart s) :=
  ctrInstr_memWf h (fun _ _ _ _ hs => issuePend_memWf (emptyG_memWf hs))

theorem execCtrset_memWf {s : State} {g hart} (h : s.memWf) : nextWf (execCtrset g hart s) := ctrInstr_memWf h (fun _ _ _ _ hs => hs)

/-! ## Machine/Streams -/

theorem execStrm_memWf {s : State} {ga gd c q file reg dir} (h : s.memWf) : nextWf (execStrm ga gd c q file reg dir s) := by
  unfold execStrm
  extract_lets srcs
  refine finish4_memWf ?_
  split
  · exact operandR_memWf h
  refine withRegs_memWf h fun _ _ => ?_
  extract_lets
  refine Res.ite_memWf (operandR_memWf (logComp_memWf h)) ?_
  split
  · exact trapR_memWf h
  split
  · exact trapR_memWf h
  split
  · exact waitR_memWf h
  refine afterDrain_memWf h fun _ hs => record_memWf hs fun _ _ hs => ?_
  split
  · exact refuseRecord_memWf hs
  · exact post_memWf (setEng_memWf (forgetWrote_memWf (popSrcs_memWf hs)))

theorem streamEnd_memWf {s : State} {t q e} (h : s.memWf) : (streamEnd s t q e).memWf := by
  unfold streamEnd
  repeat' split
  exacts [h, addStamp_memWf (workRecord_memWf h), addStamp_memWf h, addStamp_memWf (workRecord_memWf h), addStamp_memWf h]

theorem engStep_memWf {t q e r k} (h : r.memWf) (hf1 : ∀ s x1, s.memWf → (k s x1).memWf) : (engStep t q e r k).memWf := by
  unfold engStep
  repeat' split
  any_goals exact h
  exacts [post_memWf (hf1 _ _ h), retry_memWf h]

theorem execStreamEngineAccess_memWf {s : State} {tile q} (h : s.memWf) : nextWf (execStreamEngineAccess tile q s) := by
  unfold execStreamEngineAccess
  repeat' split
  any_goals exact h
  exacts [engStep_memWf (engRead_memWf h) (fun _ _ hs => hs), engStep_memWf (engWrite_memWf h) (fun _ _ hs => hs)]

theorem execStreamComplete_memWf {s : State} {tile q} (h : s.memWf) : nextWf (execStreamComplete tile q s) := by
  simp only [execStreamComplete]
  repeat' split
  any_goals exact h
  exacts [postOnce_memWf h, streamEnd_memWf h, streamEnd_memWf h]

theorem unbind_memWf {s : State} {t q e} (h : s.memWf) : (unbind s t q e).memWf := by
  simp only [unbind]
  repeat' split
  exacts [setEng_memWf (streamEnd_memWf h), setEng_memWf (streamEnd_memWf h), streamEnd_memWf h, streamEnd_memWf h]

theorem execUnstrm_memWf {s : State} {q} (h : s.memWf) : nextWf (execUnstrm q s) := by
  unfold execUnstrm
  repeat' split
  exacts [finish4_memWf h, finish4_memWf h, finish4_memWf (waitR_memWf h), finish4_memWf (unbind_memWf h)]

/-! ## Machine/Launch -/

theorem stallOn_memWf {s : State} {st lvl n} (h : s.memWf) : (stallOn s st lvl n).memWf := by
  simp only [stallOn]
  repeat' split
  exacts [h, postOnce_memWf h]

theorem unstall_memWf {s : State} {hart} (h : s.memWf) : (unstall s hart).memWf := by
  unfold unstall
  repeat' split
  exacts [h, wakeStalls_memWf h]

theorem submitting_memWf {s : State} {done r} (h : s.memWf) (hf1 : ∀ s x1, s.memWf → (done s x1).memWf) (h2 : r.memWf) :
    (submitting s done r).memWf := by
  unfold submitting
  repeat' split
  exacts [hf1 _ _ h, unstall_memWf h2, h2]

theorem place_memWf {s : State} {st a nb n done} (h : s.memWf) (hf1 : ∀ s x1, s.memWf → (done s x1).memWf) : (place s st a nb n done).memWf := by
  simp only [place]
  repeat' split
  exacts [hf1 _ _ h, h, hf1 _ _ (enterNode_memWf (unstall_memWf h)), waitR_memWf h, hf1 _ _ h, waitR_memWf (stallOn_memWf h)]

theorem submit_memWf {s : State} {a w isCmd st preds succ foot ns nf nb done} (h : s.memWf) (hf1 : ∀ s x1, s.memWf → (done s x1).memWf) :
    (submit s a w isCmd st preds succ foot ns nf nb done).memWf := by
  simp only [submit]
  repeat' split
  · exact Rd.stop_memWf ‹_› (readRec_memWf h)
  · exact Rd.stop_memWf ‹_› (readRec_memWf (Rd.ok_memWf ‹_› (readRec_memWf h)))
  · exact waitR_memWf (Rd.ok_memWf ‹_› (readRec_memWf (Rd.ok_memWf ‹_› (readRec_memWf h))))
  · exact place_memWf (Rd.ok_memWf ‹_› (readRec_memWf (Rd.ok_memWf ‹_› (readRec_memWf h)))) fun _ _ hs => hf1 _ _ hs
  · exact refuseRecord_memWf (Rd.ok_memWf ‹_› (readRec_memWf (Rd.ok_memWf ‹_› (readRec_memWf h))))

theorem submitNest_memWf {s : State} {a nd nb done} (h : s.memWf) (hf1 : ∀ s x1, s.memWf → (done s x1).memWf) :
    (submitNest s a nd nb done).memWf := by
  refine submitting_memWf h hf1 ?_
  split
  · exact trapR_memWf h
  refine afterDrain_memWf h fun _ hs => record_memWf hs fun _ _ hs => ?_
  split
  · exact refuseRecord_memWf hs
  · exact submit_memWf hs hf1

theorem execLaunch_memWf {s : State} {g hart n} (h : s.memWf) : nextWf (execLaunch g hart n s) :=
  finish1_memWf (withRegs_memWf h (fun _ _ => submitNest_memWf h (fun _ _ hs => setG_memWf (popSrcs_memWf hs))))

theorem execNodeNest_memWf {s : State} {ga} (h : s.memWf) : nextWf (execNodeNest ga s) :=
  finish4_memWf (withRegs_memWf h (fun _ _ => submitNest_memWf h (fun _ _ hs => popSrcs_memWf hs)))

theorem execNodeCmd_memWf {s : State} {ga} (h : s.memWf) : nextWf (execNodeCmd ga s) := by
  refine finish4_memWf ?_
  refine withRegs_memWf h fun _ hs => ?_
  dsimp only
  repeat' split
  · exact submitting_memWf h (fun _ _ hs => popSrcs_memWf hs) (trapR_memWf h)
  · refine submitting_memWf h (fun _ _ hs => popSrcs_memWf hs) ?_
    refine afterDrain_memWf h fun _ hs => ?_
    refine record_memWf hs fun _ _ hs => ?_
    repeat' split
    exacts [refuseRecord_memWf (logRecord_memWf hs), submit_memWf hs (fun _ _ hs => popSrcs_memWf hs)]

theorem execCommandNodeBegin_memWf {s : State} {part node} (h : s.memWf) : nextWf (execCommandNodeBegin part node s) := by
  unfold execCommandNodeBegin
  repeat' split
  any_goals exact h
  all_goals exact acceptCopy_memWf h

theorem pointDone_memWf {s : State} {k} (h : s.memWf) : (pointDone s k).memWf := by
  simp only [pointDone]
  repeat' split
  any_goals exact h
  all_goals exact completeNode_memWf h

theorem freeHart_memWf {s : State} {hart} (h : s.memWf) : (freeHart s hart).memWf := by
  simp only [freeHart]
  repeat' split
  any_goals exact h
  all_goals exact post_memWf (pointDone_memWf h)

theorem streamErrors_memWf {s : State} {hart} (h : s.memWf) : (streamErrors s hart).memWf := by
  simp only [streamErrors]
  repeat' split
  · exact h
  · refine setTile_memWf ?_
    refine foldl_memWf h fun _ _ hs => ?_
    repeat' split
    exacts [workRecord_memWf hs, hs]

theorem retireHart_memWf {s : State} {hart} (h : s.memWf) : (retireHart s hart).memWf :=
  freeHart_memWf (streamErrors_memWf (foldl_memWf h (fun _ _ hs => unbind_memWf hs)))

theorem execRetire_memWf {s : State} (h : s.memWf) : nextWf (execRetire s) := by
  simp only [execRetire]
  repeat' split
  exacts [finish1_memWf (operandR_memWf h), finish1_memWf (waitR_memWf h), finish1_memWf (waitR_memWf h), retireHart_memWf h]

/-! ## Machine/System -/

theorem answerAwl_memWf {s : State} {p r fail m} (h : s.memWf) : (answerAwl s p r fail m).memWf := by
  unfold answerAwl
  repeat' split
  all_goals exact h

theorem answerSource_memWf {s : State} {p r fail} (h : s.memWf) : (answerSource s p r fail).memWf := by
  unfold answerSource
  extract_lets m t
  split
  · split
    · exact ite_memWf (post_memWf (setTile_memWf h)) (setTile_memWf h)
    · exact setTile_memWf h
  · exact post_memWf (setTile_memWf h)
  · exact answerAwl_memWf h
  · split
    · exact ite_memWf (ite_memWf (leaveQueue_memWf (cmdRecord_memWf (setCmd_memWf h))) (post_memWf (setCmd_memWf h)))
        (ite_memWf (toEnd_memWf h) (again_memWf h))
    · exact h

theorem tsackById_memWf {s : State} {p id action} (h : s.memWf) : (tsackById s p id action).memWf := by
  unfold tsackById
  split
  · exact h
  split
  · exact endPartition_memWf h
  refine withTile_memWf h fun _ hs => ?_
  exact answerSource_memWf hs

theorem tsackWrite_memWf {s : State} {id action own} (h : s.memWf) : (tsackWrite s id action own).memWf := by
  unfold tsackWrite
  repeat' split
  any_goals exact h
  exacts [endPartition_memWf h, tsackById_memWf h]

theorem failNodeCmd_memWf {s : State} {c} (h : s.memWf) : (failNodeCmd s c).memWf := by
  unfold failNodeCmd
  repeat' split
  all_goals exact h

theorem endCmd_memWf {s : State} {k} (h : s.memWf) : (endCmd s k).memWf := by
  simp only [endCmd]
  repeat' split
  exacts [failNodeCmd_memWf h, withTile_memWf h (fun _ hs => failNodeCmd_memWf hs), completeNode_memWf h]

theorem nendOp_memWf {s : State} {addr} (h : s.memWf) : (nendOp s addr).memWf := by
  simp only [nendOp]
  repeat' split
  any_goals exact h
  · exact endCmd_memWf (setNode_memWf (noticeRecord_memWf h))
  · exact completeNode_memWf (noticeRecord_memWf h)
  · exact postOnce_memWf (completeNode_memWf (noticeRecord_memWf h))
  · exact post_memWf (setNode_memWf (noticeRecord_memWf h))

theorem watermarkOp_memWf {s : State} {i v} (h : s.memWf) : (watermarkOp s i v).memWf := h

theorem crWrite_memWf {s : State} {i v} (h : s.memWf) : (crWrite s i v).memWf := by
  unfold crWrite
  extract_lets hart t pn p
  refine ite_memWf (setCur_memWf h) (ite_memWf (setCur_memWf h) (ite_memWf (setTile_memWf h) (ite_memWf (watermarkOp_memWf h) ?_)))
  split
  case h_9 => exact tsackWrite_memWf h
  case h_18 => exact nendOp_memWf h
  case h_3 => exact ite_memWf (setCur_memWf h) h
  all_goals exact update_memWf h rfl rfl

theorem keepMatrixFlags_memWf {s : State} {i m} (h : s.memWf) : (keepMatrixFlags s i m).memWf := by
  unfold keepMatrixFlags
  repeat' split
  all_goals exact h

theorem crOp_memWf {s : State} {i reads writes srcs d f} (hf : ∀ s, s.memWf → (f s).memWf) (h1 : s.memWf) :
    nextWf (crOp i reads writes srcs d f s) := by
  unfold crOp
  refine finish1_memWf ?_
  split
  · exact trapR_memWf h1
  refine withRegs_memWf h1 fun _ hs => ?_
  repeat' split
  exacts [waitR_memWf h1, hf _ hs]

theorem execMfc_memWf {s : State} {g i} (h : s.memWf) : nextWf (execMfc g i s) := crOp_memWf (fun _ hs => setG_memWf hs) h

theorem execMtc_memWf {s : State} {g t i} (h : s.memWf) : nextWf (execMtc g t i s) :=
  crOp_memWf (fun _ hs => crWrite_memWf (keepMatrixFlags_memWf hs)) h

theorem execMtci_memWf {s : State} {v i} (h : s.memWf) : nextWf (execMtci v i s) :=
  crOp_memWf (fun _ hs => crWrite_memWf (keepMatrixFlags_memWf hs)) h

theorem execCrsb_memWf {s : State} {g t i} (h : s.memWf) : nextWf (execCrsb g t i s) := crOp_memWf (fun _ hs => crWrite_memWf hs) h

theorem execCrcb_memWf {s : State} {g t i} (h : s.memWf) : nextWf (execCrcb g t i s) :=
  crOp_memWf (fun _ hs => crWrite_memWf (keepMatrixFlags_memWf hs)) h

theorem execTsackRetry_memWf {s : State} {id own} (h : s.memWf) : nextWf (execTsackRetry id own s) := tsackWrite_memWf h

theorem execTsackFail_memWf {s : State} {id own} (h : s.memWf) : nextWf (execTsackFail id own s) := tsackWrite_memWf h

theorem execTsackFrame_memWf {s : State} {id own} (h : s.memWf) : nextWf (execTsackFrame id own s) := tsackWrite_memWf h

theorem execTsackInvalid_memWf {s : State} {id action _own} (h : s.memWf) : nextWf (execTsackInvalid id action _own s) := h

theorem execNendWrite_memWf {s : State} {addr} (h : s.memWf) : nextWf (execNendWrite addr s) := nendOp_memWf h

theorem execWatermarkWrite_memWf {s : State} {idx val} (h : s.memWf) : nextWf (execWatermarkWrite idx val s) := by
  unfold execWatermarkWrite
  repeat' split
  all_goals exact h

theorem execTrap_memWf {s : State} {i} (h : s.memWf) : nextWf (execTrap i s) := takeTrap_memWf h

theorem execRfe_memWf {s : State} (h : s.memWf) : nextWf (execRfe s) := by
  unfold execRfe
  repeat' split
  exacts [finish1_memWf (trapR_memWf h), finish1_memWf (trapR_memWf h), finish1_memWf (waitR_memWf h), h]

theorem haltPartition_memWf {s : State} {p code} (h : s.memWf) : (haltPartition s p code).memWf :=
  send_memWf (setPtState_memWf (dropAllClaims_memWf (dropWork_memWf h)))

theorem execHalt_memWf {s : State} {g} (h : s.memWf) : nextWf (execHalt g s) := by
  simp only [execHalt]
  repeat' split
  exacts [finish1_memWf (trapR_memWf h), finish1_memWf h, haltPartition_memWf (popSrcs_memWf h), finish1_memWf (waitR_memWf h)]

theorem execYield_memWf {s : State} {g} (h : s.memWf) : nextWf (execYield g s) := by
  simp only [execYield]
  refine finish1_memWf ?_
  split
  · exact waitR_memWf h
  refine withRegs_memWf h fun _ hs => ?_
  repeat' split
  exacts [hs, waitR_memWf hs]

theorem execYieldExpire_memWf {s : State} {hart} (h : s.memWf) : nextWf (execYieldExpire hart s) := by
  simp only [execYieldExpire]
  repeat' split
  all_goals exact h

theorem execBrk_memWf {s : State} (h : s.memWf) : nextWf (execBrk s) := finish1_memWf (trapR_memWf h)

theorem execShoot_memWf {s : State} {g hart} (h : s.memWf) : nextWf (execShoot g hart s) := by
  unfold execShoot
  extract_lets srcs
  split
  · exact finish1_memWf (trapR_memWf h)
  refine finish1_memWf (withRegs_memWf h fun _ _ => ?_)
  have hk : (flushHart s s.cur).memWf := flushHart_memWf h
  split
  · exact Res.ite_memWf (waitR_memWf h) (setCur_memWf (popSrcs_memWf h))
  split
  · exact operandR_memWf h
  split
  · exact waitR_memWf hk
  · exact waitR_memWf (update_memWf hk rfl rfl)

theorem setShoot_memWf {s : State} {x} (h : s.memWf) : (setShoot s x).memWf := h

theorem execShootBroadcast_memWf {s : State} {id} (h : s.memWf) : nextWf (execShootBroadcast id s) := by
  unfold execShootBroadcast
  repeat' split
  all_goals exact h

theorem shootFabric_memWf {s : State} {x t} (h : s.memWf) : (shootFabric s x t).memWf := by
  unfold shootFabric
  repeat' split
  all_goals exact h

theorem execShootDrop_memWf {s : State} {id stack} (h : s.memWf) : nextWf (execShootDrop id stack s) := by
  unfold execShootDrop
  repeat' split
  exacts [h, post_memWf (setShoot_memWf (foldl_memWf h (fun _ _ hs => shootFabric_memWf hs)))]

theorem execShootAck_memWf {s : State} {id stack} (h : s.memWf) : nextWf (execShootAck id stack s) := by
  simp only [execShootAck]
  repeat' split
  all_goals exact h

theorem execShootComplete_memWf {s : State} {id} (h : s.memWf) : nextWf (execShootComplete id s) := h

theorem execWalkComplete_memWf {s : State} {tile part va kind sup} (h : s.memWf) : nextWf (execWalkComplete tile part va kind sup s) := by
  unfold execWalkComplete
  repeat' split
  exacts [TrRes.ok_memWf ‹_› (xlate_memWf h), TrRes.fault_memWf ‹_› (xlate_memWf h)]

theorem execTsqRecordWrite_memWf {s : State} {part} (h : s.memWf) : nextWf (execTsqRecordWrite part s) := by
  simp only [execTsqRecordWrite]
  repeat' split
  exacts [post_memWf (tsqWrite_memWf h), tsqWrite_memWf h]

/-! ## Machine/Sched -/

theorem handOut_memWf {s : State} {k n t hart lanes} (h : s.memWf) : (handOut s k n t hart lanes).memWf := h

theorem dropReads_memWf {s : State} {hart} (h : s.memWf) : (dropReads s hart).memWf := h

theorem stopHart_memWf {s : State} {hart} (h : s.memWf) : (stopHart s hart).memWf := by
  simp only [stopHart]
  repeat' split
  · exact retireHart_memWf (dropReads_memWf (setHart_memWf (flushHart_memWf (unstall_memWf h))))
  · exact dropReads_memWf (setHart_memWf (flushHart_memWf (unstall_memWf h)))

theorem stopNest_memWf {s : State} {k} (h : s.memWf) : (stopNest s k).memWf :=
  foldl_memWf (foldl_memWf h (fun _ _ hs => pointDone_memWf hs)) (fun _ _ hs => stopHart_memWf hs)

theorem decide1_memWf {s : State} {st} (h : s.memWf) : (decide1 s st).1.memWf := by
  simp only [decide1]
  repeat' split
  · exact completeNode_memWf h
  · exact h
  · refine completeNode_memWf ?_
    refine foldl_memWf h fun _ _ hs => ?_
    repeat' split
    all_goals exact hs
  · refine handOut_memWf ?_
    refine foldl_memWf h fun _ _ hs => ?_
    repeat' split
    all_goals exact hs

theorem execDispatchDecision_memWf {s : State} {stack} (h : s.memWf) : nextWf (execDispatchDecision stack s) := by
  simp only [execDispatchDecision]
  repeat' split
  · exact postOnce_memWf (foldl_memWf (decide1_memWf (foldl_memWf h (fun _ _ hs => stopNest_memWf hs))) (fun _ _ hs => postOnce_memWf hs))
  · refine foldl_memWf (decide1_memWf (foldl_memWf h (fun _ _ hs => stopNest_memWf hs))) fun _ _ hs => ?_
    exact postOnce_memWf hs

theorem takeAside_memWf {s : State} {st lvl key} (h : s.memWf) : (takeAside s st lvl key).memWf := by
  simp only [takeAside]
  repeat' split
  any_goals exact h
  all_goals exact postOnce_memWf (enterNode_memWf h)

theorem execPoolEntryTaken_memWf {s : State} {stack level} (h : s.memWf) : nextWf (execPoolEntryTaken stack level s) :=
  foldl_memWf h (fun _ _ hs => ite_memWf hs (ite_memWf (takeAside_memWf hs) (withTile_memWf hs (fun _ hs => takeAside_memWf hs))))

theorem execLaneStepChange_memWf {s : State} {tile lanes} (h : s.memWf) : nextWf (execLaneStepChange tile lanes s) := by
  unfold execLaneStepChange
  split
  · exact h
  · exact boxAdd_memWf (setCtl_memWf (setTile_memWf h))

theorem execThermalHalt_memWf {s : State} (h : s.memWf) : nextWf (execThermalHalt s) := by
  refine foldl_memWf h fun _ _ hs => ?_
  repeat' split
  exacts [haltPartition_memWf hs, hs]

/-! ## Machine/Fabric -/

theorem setRun_memWf {s : State} {t u} (h : s.memWf) : (setRun s t u).memWf := h

theorem withRun_memWf {s : State} {t k} (h : s.memWf) (hf1 : ∀ x0 x1 x2, (k x0 x1 x2).memWf) : (withRun s t k).memWf := by
  unfold withRun
  repeat' split
  any_goals exact h
  all_goals exact hf1 _ _ _

theorem putRun_memWf {s : State} {t i u} (h : s.memWf) : (putRun s t i u).memWf := by
  unfold putRun
  repeat' split
  exacts [postOnce_memWf h, h]

theorem execCellFire_memWf {s : State} {tile pos} (h : s.memWf) : nextWf (execCellFire tile pos s) := by
  refine withRun_memWf h fun _ _ _ => ?_
  repeat' split
  exacts [h, h, postOnce_memWf (putRun_memWf h)]

theorem execAwlElement_memWf {s : State} {tile awl} (h : s.memWf) : nextWf (execAwlElement tile awl s) := by
  refine withRun_memWf h fun _ _ _ => ?_
  repeat' split
  · exact h
  · refine ite_memWf (putRun_memWf h) ?_
    refine ite_memWf (postOnce_memWf (putRun_memWf h)) ?_
    repeat' split
    exacts [postOnce_memWf (putRun_memWf h), postOnce_memWf h, postOnce_memWf h]
  · refine ite_memWf (putRun_memWf h) ?_
    refine ite_memWf (postOnce_memWf (putRun_memWf h)) ?_
    repeat' split
    exacts [postOnce_memWf (putRun_memWf h), postOnce_memWf h, postOnce_memWf h]
  · exact h

theorem execXlateTranslate_memWf {s : State} {tile awl} (h : s.memWf) : nextWf (execXlateTranslate tile awl s) := by
  simp only [execXlateTranslate]
  refine withRun_memWf h fun _ _ _ => ?_
  repeat' split
  · exact h
  · exact postOnce_memWf (setRun_memWf (TrRes.ok_memWf ‹_› (xlate_memWf h)))
  · exact postOnce_memWf (setRun_memWf (TrRes.ok_memWf ‹_› (xlate_memWf h)))
  · exact postOnce_memWf (setRun_memWf (TrRes.fault_memWf ‹_› (xlate_memWf h)))
  · exact postOnce_memWf (setRun_memWf (TrRes.fault_memWf ‹_› (xlate_memWf h)))
  · exact h

theorem execAwlExtentAnswer_memWf {s : State} {tile awl} (h : s.memWf) : nextWf (execAwlExtentAnswer tile awl s) := by
  refine withRun_memWf h fun _ _ _ => ?_
  repeat' split
  exacts [h, postOnce_memWf h, postOnce_memWf h, h, h, postOnce_memWf h, h]

theorem awlMoved_memWf {s : State} {t f i a n} (h : s.memWf) : (awlMoved s t f i a n).memWf := h

theorem elementDone_memWf {s : State} {t f i u a x} (h : s.memWf) : (elementDone s t f i u a x).memWf := postOnce_memWf (putRun_memWf h)

theorem burstStore_memWf {s : State} {t i u a x p b} (h : s.memWf) : (burstStore s t i u a x p b).memWf :=
  postOnce_memWf (postOnce_memWf (putRun_memWf h))

theorem execMiuAccess_memWf {s : State} {tile awl} (h : s.memWf) : nextWf (execMiuAccess tile awl s) := by
  simp only [execMiuAccess]
  refine withRun_memWf h fun _ _ _ => ?_
  repeat' split
  · exact h
  · exact postOnce_memWf (putRun_memWf h)
  · exact postOnce_memWf (putRun_memWf h)
  · exact postOnce_memWf (putRun_memWf h)
  · exact postOnce_memWf h
  · exact burstStore_memWf h
  · exact postOnce_memWf (postOnce_memWf h)
  · exact h

theorem burstWrite_memWf {s : State} {w b} (h : s.memWf) : (burstWrite s w b).memWf := by
  simp only [burstWrite]
  repeat' split
  · exact replicateAll_memWf (Acc.ok_memWf ‹_› (accWrites_memWf (useCircuits_memWf (Acc.ok_memWf ‹_› (accReady_memWf h)))))
  · exact accWrites_memWf (useCircuits_memWf (Acc.ok_memWf ‹_› (accReady_memWf h)))
  · exact accReady_memWf h

theorem execMiuBurstClose_memWf {s : State} {tile awl} (h : s.memWf) : nextWf (execMiuBurstClose tile awl s) := by
  refine withRun_memWf h fun f i u => ?_
  split
  · split
    · exact h
    extract_lets go
    split
    · exact postOnce_memWf h
    split
    · exact ite_memWf (postOnce_memWf (putRun_memWf h)) (setRun_memWf h)
    split
    · exact postOnce_memWf (putRun_memWf (awlMoved_memWf (Acc.ok_memWf ‹_› (burstWrite_memWf h))))
    · exact retry_memWf (Acc.wait_memWf ‹_› (burstWrite_memWf h))
    · exact postOnce_memWf (putRun_memWf (Acc.err_memWf ‹_› (burstWrite_memWf h)))
  · exact h

theorem execAwlLoadReturn_memWf {s : State} {tile awl} (h : s.memWf) : nextWf (execAwlLoadReturn tile awl s) := by
  simp only [execAwlLoadReturn]
  refine withRun_memWf h fun _ _ _ => ?_
  repeat' split
  · exact elementDone_memWf (Acc.ok_memWf ‹_› (accRead_memWf h))
  · exact elementDone_memWf (Acc.ok_memWf ‹_› (accRead_memWf h))
  · exact retry_memWf (Acc.wait_memWf ‹_› (accRead_memWf h))
  · exact postOnce_memWf (putRun_memWf (Acc.err_memWf ‹_› (accRead_memWf h)))
  · exact postOnce_memWf h
  · exact h
  · exact h

theorem portStep_memWf {t q i u e e' r k} (h : r.memWf) : (portStep t q i u e e' r k).memWf := by
  unfold portStep
  repeat' split
  exacts [postOnce_memWf (putRun_memWf h), retry_memWf h, h, postOnce_memWf h]

theorem readPort_memWf {s : State} {t q i u x e} (h : s.memWf) : (readPort s t q i u x e).memWf := by
  simp only [readPort]
  repeat' split
  · exact putRun_memWf h
  · exact postOnce_memWf (putRun_memWf h)
  · exact postOnce_memWf (putRun_memWf h)
  · exact postOnce_memWf (putRun_memWf h)
  · exact portStep_memWf (engRead_memWf h)

theorem writePort_memWf {s : State} {t q i u x e} (h : s.memWf) : (writePort s t q i u x e).memWf := by
  simp only [writePort]
  repeat' split
  · exact postOnce_memWf (putRun_memWf h)
  · exact postOnce_memWf (putRun_memWf h)
  · exact postOnce_memWf (putRun_memWf h)
  · exact portStep_memWf (engWrite_memWf h)
  · exact putRun_memWf h
  · exact postOnce_memWf (putRun_memWf h)
  · exact postOnce_memWf (putRun_memWf h)
  · exact postOnce_memWf (putRun_memWf h)
  · exact postOnce_memWf (putRun_memWf h)
  · exact postOnce_memWf (putRun_memWf h)
  · exact portStep_memWf (engXlate_memWf h (fun _ _ hs => hs))
  · exact portStep_memWf (engWrite_memWf h)

theorem execPortElement_memWf {s : State} {tile q} (h : s.memWf) : nextWf (execPortElement tile q s) := by
  refine withRun_memWf h fun _ _ _ => ?_
  repeat' split
  · exact ite_memWf h (writePort_memWf h)
  · exact ite_memWf h (readPort_memWf h)
  · exact ite_memWf h (writePort_memWf h)
  · exact ite_memWf h (readPort_memWf h)
  · exact h

theorem fabActions_memWf {s : State} {part tile hart sup gd c err} (h : s.memWf) : (fabActions s part tile hart sup gd c err).memWf := by
  unfold fabActions
  repeat' split
  all_goals exact addStamp_memWf h

theorem endFreeze_memWf {s : State} {t part z err} (h : s.memWf) : (endFreeze s t part z err).memWf := by
  unfold endFreeze
  repeat' split
  exacts [h, fabActions_memWf (faultRecord_memWf h), fabActions_memWf h]

theorem idleFabric_memWf {s : State} {t f u asked} (h : s.memWf) : (idleFabric s t f u asked).memWf := by
  simp only [idleFabric]
  repeat' split
  all_goals exact h

theorem endRun_memWf {s : State} {t f u} (h : s.memWf) : (endRun s t f u).memWf := by
  unfold endRun
  repeat' split
  exacts [fabActions_memWf (faultRecord_memWf (idleFabric_memWf h)), fabActions_memWf (idleFabric_memWf h)]

theorem endHalts_memWf {s : State} {t part l} (h : s.memWf) : (endHalts s t part l).memWf := foldl_memWf h (fun _ _ hs => endFreeze_memWf hs)

theorem execFabricRunComplete_memWf {s : State} {tile} (h : s.memWf) : nextWf (execFabricRunComplete tile s) :=
  withRun_memWf h (fun _ _ _ => ite_memWf h (ite_memWf (postOnce_memWf h) (endHalts_memWf (endRun_memWf h))))

theorem execCellFreeze_memWf {s : State} {tile pos} (h : s.memWf) : nextWf (execCellFreeze tile pos s) := by
  refine withRun_memWf h fun _ _ _ => ?_
  repeat' split
  exacts [ite_memWf h (postOnce_memWf h), h]

theorem beginFreeze_memWf {s : State} {t i u z} (h : s.memWf) : (beginFreeze s t i u z).memWf :=
  postOnce_memWf (foldl_memWf h (fun _ _ hs => postOnce_memWf hs))

theorem keepCut_memWf {s : State} {t f i u z} (h : s.memWf) : (keepCut s t f i u z).memWf := by
  unfold keepCut
  repeat' split
  all_goals exact h

theorem execCutWrite_memWf {s : State} {tile} (h : s.memWf) : nextWf (execCutWrite tile s) := by
  refine withRun_memWf h fun f i u => ?_
  split
  · exact h
  split
  · exact h
  split
  · exact postOnce_memWf h
  split
  · exact postOnce_memWf h
  extract_lets ws
  split
  · split
    · exact postOnce_memWf h
    · exact endHalts_memWf (endFreeze_memWf (idleFabric_memWf (keepCut_memWf h)))
  · split
    · exact postOnce_memWf (setRun_memWf (EngR.ok_memWf ‹_› (engWrite_memWf h)))
    · exact retry_memWf (EngR.wait_memWf ‹_› (engWrite_memWf h))
    · exact askService_memWf (EngR.serve_memWf ‹_› (engWrite_memWf h))
    · exact postOnce_memWf (setRun_memWf (EngR.err_memWf ‹_› (engWrite_memWf h)))

theorem execFreezeAbandon_memWf {s : State} {tile} (h : s.memWf) : nextWf (execFreezeAbandon tile s) := by
  refine withRun_memWf h fun _ _ _ => ?_
  repeat' split
  · exact h
  · exact endHalts_memWf (endFreeze_memWf (endRun_memWf h))
  · exact endHalts_memWf (endFreeze_memWf (endRun_memWf h))
  · exact h
  · exact postOnce_memWf h
  · exact endHalts_memWf (endFreeze_memWf (endRun_memWf h))

theorem startNodes_memWf {s : State} {t i} (h : s.memWf) : (startNodes s t i).memWf :=
  foldl_memWf (foldl_memWf (foldl_memWf h (fun _ _ hs => postOnce_memWf hs)) (fun _ _ hs => postOnce_memWf hs)) (fun _ _ hs => postOnce_memWf hs)

theorem readPats_memWf {s : State} {args ps got k} (h : s.memWf) (hf1 : ∀ s x1, s.memWf → (k s x1).memWf) : (readPats s args ps got k).memWf := by
  fun_induction readPats s args ps got k
  · exact hf1 _ _ h
  · exact trapR_memWf h
  · exact Rd.stop_memWf ‹_› (readRec_memWf h)
  · exact refuseRecord_memWf (Rd.ok_memWf ‹_› (readRec_memWf h))
  · exact ‹_ → _› (Rd.ok_memWf ‹_› (readRec_memWf h))

theorem setPats_memWf {s : State} {t i gd pats} (h : s.memWf) : (setPats s t i gd pats).memWf := foldl_memWf h (fun _ _ hs => hs)

theorem fabIssue_memWf {s : State} {ga gd c align refused k} (hf : ∀ s x1 x2, s.memWf → (k s x1 x2).memWf) (h1 : s.memWf) :
    nextWf (fabIssue ga gd c align refused k s) := by
  simp only [fabIssue]
  refine finish4_memWf ?_
  split
  · exact trapR_memWf h1
  split
  · exact operandR_memWf h1
  refine withRegs_memWf h1 fun _ _ => ?_
  repeat' split
  · exact operandR_memWf (logComp_memWf h1)
  · exact operandR_memWf h1
  · exact trapR_memWf h1
  · exact trapR_memWf h1
  · exact popSrcs_memWf (Res.ok_memWf ‹_› (hf _ _ _ h1))
  · exact hf _ _ _ h1

theorem dropConfig_memWf {s : State} {t} (h : s.memWf) : (dropConfig s t).memWf := by
  unfold dropConfig
  repeat' split
  exacts [h, postOnce_memWf h]

theorem loadImage_memWf {s : State} {w i} (h : s.memWf) : (loadImage s w i).memWf := by
  unfold loadImage
  repeat' split
  · exact setPats_memWf (setTile_memWf (foldl_memWf (dropConfig_memWf h) (fun _ _ hs => setTile_memWf (dropConfig_memWf hs))))
  · exact setPats_memWf (setTile_memWf (dropConfig_memWf h))

theorem execFcfg_memWf {s : State} {ga gd c} (h : s.memWf) : nextWf (execFcfg ga gd c s) := by
  refine fabIssue_memWf (fun _ _ _ hs => afterDrain_memWf hs fun _ hs => record_memWf hs fun _ _ hs => ?_) h
  split
  · exact refuseRecord_memWf hs
  refine record_memWf hs fun _ _ hs => ?_
  extract_lets i
  split
  · exact refuseRecord_memWf hs
  split
  · exact operandR_memWf hs
  · exact fabActions_memWf (loadImage_memWf hs)

theorem execFrun_memWf {s : State} {ga gd c} (h : s.memWf) : nextWf (execFrun ga gd c s) := by
  refine fabIssue_memWf (fun _ _ _ hs => ?_) h
  split
  · exact operandR_memWf hs
  refine afterDrain_memWf hs fun _ hs => record_memWf hs fun _ _ hs => ?_
  split
  · exact operandR_memWf hs
  refine readPats_memWf hs fun _ _ hs => startNodes_memWf (setRun_memWf (setPats_memWf ?_))
  exact foldl_memWf (foldl_memWf hs fun _ _ hs => hs) fun _ _ hs => hs

theorem execFrunResume_memWf {s : State} {ga gd c} (h : s.memWf) : nextWf (execFrunResume ga gd c s) := by
  refine fabIssue_memWf (fun _ _ _ hs => ?_) h
  split
  · exact operandR_memWf hs
  refine afterDrain_memWf hs fun _ hs => record_memWf hs fun _ _ hs => ?_
  split
  · exact refuseRecord_memWf hs
  split
  · exact operandR_memWf hs
  · exact startNodes_memWf (putRun_memWf (setPats_memWf (foldl_memWf hs fun _ _ hs => ite_memWf hs hs)))

theorem execFhalt_memWf {s : State} {ga gd c} (h : s.memWf) : nextWf (execFhalt ga gd c s) := by
  refine fabIssue_memWf (fun _ _ _ hs => afterDrain_memWf hs fun _ hs => ?_) h
  extract_lets t z
  split
  · exact endFreeze_memWf hs
  split
  · exact endFreeze_memWf hs
  extract_lets i
  split
  · exact Res.ite_memWf (waitR_memWf hs) (setTile_memWf hs)
  split
  · exact endFreeze_memWf hs
  · exact postOnce_memWf (beginFreeze_memWf hs)

theorem nextHalt_memWf {s : State} {t} (h : s.memWf) : (nextHalt s t).memWf := by
  refine withRun_memWf h fun _ _ _ => ?_
  repeat' split
  exacts [h, postOnce_memWf (beginFreeze_memWf h)]

theorem unfreeze_memWf {s : State} {t} (h : s.memWf) : (unfreeze s t).memWf := by
  simp only [unfreeze]
  refine withRun_memWf h fun _ _ _ => ?_
  repeat' split
  exacts [h, h, nextHalt_memWf (startNodes_memWf h)]

/-! ## Machine/Cinches -/

theorem cutPages_memWf {s : State} {base stride count kind i fuel} (h : s.memWf) : (cutPages s base stride count kind i fuel).memWf := by
  fun_induction cutPages s base stride count kind i fuel
  any_goals exact h
  · exact TrRes.fault_memWf ‹_› (xlate_memWf h)
  · exact TrRes.ok_memWf ‹_› (xlate_memWf h)
  · exact TrRes.ok_memWf ‹_› (xlate_memWf h)
  · exact Cut.ok_memWf ‹_› (‹_ → _› (TrRes.ok_memWf ‹_› (xlate_memWf h)))
  · exact ‹_ → _› (TrRes.ok_memWf ‹_› (xlate_memWf h))

theorem addPieces_memWf {s : State} {x l} (h : s.memWf) : (addPieces s x l).memWf := by
  fun_induction addPieces s x l
  exacts [h, ‹_ → _› h]

theorem execRsv_memWf {s : State} {r c esz wr mode hunit} (h : s.memWf) : nextWf (execRsv r c esz wr mode hunit s) := by
  unfold execRsv
  refine finish4_memWf ?_
  split
  · exact operandR_memWf h
  refine withRegs_memWf h fun _ _ => ?_
  extract_lets x t e count u
  split
  · exact operandR_memWf (logComp_memWf h)
  split
  · exact trapR_memWf h
  split
  · exact waitR_memWf h
  refine afterDrain_memWf h fun s hs => ?_
  split
  · exact Cut.stop_memWf ‹_› (cutPages_memWf hs)
  · have hc := Cut.ok_memWf ‹_› (cutPages_memWf hs)
    extract_lets cid s1 y p s2
    have h1 : s1.memWf := newId_memWf (addCmd_memWf (popSrcs_memWf hc))
    have h2 : s2.memWf := setPart_memWf (update_memWf h1 rfl rfl)
    exact ite_memWf (post_memWf h2) (addPieces_memWf h2)

theorem execUrsv_memWf {s : State} {gd c hunit} (h : s.memWf) : nextWf (execUrsv gd c hunit s) := by
  simp only [execUrsv]
  refine finish4_memWf ?_
  refine withRegs_memWf h fun _ _ => ?_
  repeat' split
  exacts [operandR_memWf (logComp_memWf h), trapR_memWf h, waitR_memWf h, post_memWf (newId_memWf (addCmd_memWf (popSrcs_memWf h)))]

theorem takeHeld_memWf {s : State} {l} (h : s.memWf) : (takeHeld s l).memWf := h

theorem rsvFail_memWf {s : State} {x cause sub} (h : s.memWf) : (rsvFail s x cause sub).memWf := by
  simp only [rsvFail]
  repeat' split
  all_goals exact h

theorem makeCurrent_memWf {s : State} {x l} (h : s.memWf) : (makeCurrent s x l).1.memWf := by
  fun_induction makeCurrent s x l
  any_goals exact h
  exacts [‹_›, machineCheck_memWf h, recallAll_memWf h, recallShared_memWf h, ‹_›]

theorem execPieceRegister_memWf {s : State} {piece} (h : s.memWf) : nextWf (execPieceRegister piece s) := by
  simp only [execPieceRegister]
  repeat' split
  any_goals exact h
  · exact rsvFail_memWf h
  · exact rsvFail_memWf h
  · exact post_memWf (makeCurrent_memWf h)
  · exact post_memWf (takeHeld_memWf (setPiece_memWf (makeCurrent_memWf h)))
  · exact takeHeld_memWf (setPiece_memWf (makeCurrent_memWf h))

theorem execPieceEnd_memWf {s : State} {piece} (h : s.memWf) : nextWf (execPieceEnd piece s) := by
  unfold execPieceEnd
  repeat' split
  all_goals exact h

theorem execPositionQuery_memWf {s : State} {piece watch} (h : s.memWf) : nextWf (execPositionQuery piece watch s) := by
  simp only [execPositionQuery]
  repeat' split
  all_goals exact h

theorem execPositionAnswer_memWf {s : State} {piece pos} (h : s.memWf) : nextWf (execPositionAnswer piece pos s) := by
  simp only [execPositionAnswer]
  repeat' split
  all_goals exact h

/-! ## Machine/Swap -/

theorem startQuantum_memWf {s : State} {r p} (h : s.memWf) : (startQuantum s r p).memWf := postOnce_memWf h

theorem flushTile_memWf {s : State} {t} (h : s.memWf) : (flushTile s t).memWf := by
  simp only [flushTile]
  refine foldl_memWf (foldl_memWf (foldl_memWf h (fun _ _ hs => l1Leave_memWf hs))
      (fun _ _ hs => foldl_memWf hs (fun _ _ hs => foldl_memWf hs (fun _ _ hs => by repeat' split; exacts [evictLine_memWf hs, hs])))) fun _ _ hs =>
      ?_
  exact evict_memWf hs

theorem beginSwap_memWf {s : State} {r} (h : s.memWf) : (beginSwap s r).memWf := by
  simp only [beginSwap]
  repeat' split
  exacts [h, postOnce_memWf h, startQuantum_memWf h]

theorem execQuantumExpiry_memWf {s : State} {region} (h : s.memWf) : nextWf (execQuantumExpiry region s) := by
  simp only [execQuantumExpiry]
  repeat' split
  exacts [h, postOnce_memWf h, beginSwap_memWf h]

theorem execManagementSwap_memWf {s : State} {region} (h : s.memWf) : nextWf (execManagementSwap region s) := beginSwap_memWf h

theorem freezeTile_memWf {s : State} {t} (h : s.memWf) : (freezeTile s t).memWf := by
  refine withRun_memWf h fun _ _ _ => ?_
  repeat' split
  exacts [h, beginFreeze_memWf h]

theorem execContextSwapBegin_memWf {s : State} {region} (h : s.memWf) : nextWf (execContextSwapBegin region s) := by
  unfold execContextSwapBegin
  repeat' split
  exacts [h, postOnce_memWf (foldl_memWf h (fun _ _ hs => freezeTile_memWf hs))]

theorem saveTile_memWf {s : State} {p t} (h : s.memWf) : (saveTile s p t).memWf := wakeStalls_memWf h

theorem renameStall_memWf {s : State} {hart k} (h : s.memWf) : (renameStall s hart k).memWf := h

theorem rejoin_memWf {s : State} {t p d a} (h : s.memWf) : (rejoin s t p d a).memWf := by
  unfold rejoin
  repeat' split
  all_goals exact postOnce_memWf h

theorem resumeCmd_memWf {s : State} {c} (h : s.memWf) : (resumeCmd s c).memWf := by
  unfold resumeCmd
  repeat' split
  exacts [postOnce_memWf h, postOnce_memWf h, h, postOnce_memWf h, postOnce_memWf h]

theorem reissuePiece_memWf {s : State} {t p k sup x} (h : s.memWf) : (reissuePiece s t p k sup x).memWf := by
  unfold reissuePiece
  repeat' split
  exacts [h, rangeOf_memWf h, rangeOf_memWf h]

theorem reissuePieces_memWf {s : State} {t p k sup xs} (h : s.memWf) : (reissuePieces s t p k sup xs).memWf := by
  fun_induction reissuePieces s t p k sup xs
  · exact h
  · exact RangeRes.ok_memWf ‹_› (‹_ → _› (RangeRes.ok_memWf ‹_› (reissuePiece_memWf h)))
  · exact ‹_ → _› (RangeRes.ok_memWf ‹_› (reissuePiece_memWf h))
  · exact reissuePiece_memWf h

theorem reissuePend_memWf {s : State} {p q} (h : s.memWf) : (reissuePend p s q).memWf := by
  unfold reissuePend
  split
  · have hk := RangeRes.ok_memWf ‹_› (reissuePieces_memWf h)
    exact pendAgain_memWf (update_memWf hk rfl rfl)
  · exact deliverMark_memWf (dropPend_memWf (RangeRes.fault_memWf ‹_› (reissuePieces_memWf h)))

theorem reissueStore_memWf {s : State} {p hart e} (h : s.memWf) : (reissueStore p hart s e).memWf := by
  unfold reissueStore
  repeat' split
  · exact h
  · exact setEntry_memWf (RangeRes.ok_memWf ‹_› (reissuePieces_memWf h))
  · exact entryDone_memWf (refuseEntry_memWf (RangeRes.fault_memWf ‹_› (reissuePieces_memWf h)))
  · exact RangeRes.fault_memWf ‹_› (reissuePieces_memWf h)

theorem reissueHart_memWf {s : State} {p hart} (h : s.memWf) : (reissueHart p hart s).memWf := by
  simp only [reissueHart]
  repeat' split
  exacts [foldl_memWf h (fun _ _ hs => reissueStore_memWf hs), postOnce_memWf (foldl_memWf h (fun _ _ hs => reissueStore_memWf hs))]

theorem reissueMerge_memWf {s : State} {t p i} (h : s.memWf) : (reissueMerge s t p i).memWf := by
  unfold reissueMerge
  repeat' split
  · exact h
  · exact postOnce_memWf h
  · exact postOnce_memWf (setTile_memWf (RangeRes.ok_memWf ‹_› (rangeOf_memWf h)))
  · exact postOnce_memWf (setTile_memWf (RangeRes.ok_memWf ‹_› (rangeOf_memWf h)))
  · exact postOnce_memWf (setTile_memWf (foldl_memWf (RangeRes.fault_memWf ‹_› (rangeOf_memWf h)) (fun _ _ hs => faultRecord_memWf hs)))

theorem resumeTile_memWf {s : State} {t p} (h : s.memWf) : (resumeTile s t p).memWf :=
  unfreeze_memWf (postOnce_memWf (foldl_memWf (foldl_memWf
      (foldl_memWf (foldl_memWf (foldl_memWf (foldl_memWf (foldl_memWf h (fun _ _ hs => reissuePend_memWf hs)) (fun _ _ hs => reissueHart_memWf hs))
      (fun _ _ hs => reissueMerge_memWf hs)) (fun _ _ hs => resumeCmd_memWf hs)) (fun _ _ hs => postOnce_memWf hs))
      (fun _ _ hs => postOnce_memWf hs)) (fun _ _ hs => rejoin_memWf hs)))

theorem restoreTile_memWf {s : State} {p t} (h : s.memWf) : (restoreTile s p t).memWf := by
  unfold restoreTile
  repeat' split
  all_goals exact h

theorem execContextSwapComplete_memWf {s : State} {region} (h : s.memWf) : nextWf (execContextSwapComplete region s) := by
  simp only [execContextSwapComplete]
  repeat' split
  · exact h
  · exact postOnce_memWf h
  · refine foldl_memWf (foldl_memWf (startQuantum_memWf h) (fun _ _ hs => resumeTile_memWf hs)) fun _ _ hs => ?_
    exact postOnce_memWf hs
  · refine foldl_memWf (foldl_memWf (startQuantum_memWf (foldl_memWf h (fun _ _ hs => restoreTile_memWf (saveTile_memWf (flushTile_memWf hs)))))
        (fun _ _ hs => resumeTile_memWf hs)) fun _ _ hs => ?_
    exact postOnce_memWf hs

/-! ## Machine/Aside -/

theorem setAside_memWf {s : State} {hart d} (h : s.memWf) : (setAside s hart d).memWf :=
  postOnce_memWf (renameStall_memWf (setHart_memWf (setTile_memWf (foldl_memWf h (fun _ _ hs => hs)))))

theorem execPointSetAside_memWf {s : State} {hart} (h : s.memWf) : nextWf (execPointSetAside hart s) := by
  simp only [execPointSetAside]
  repeat' split
  any_goals exact h
  · exact unfreeze_memWf h
  · exact postOnce_memWf (freezeTile_memWf h)
  · exact setAside_memWf (freezeTile_memWf h)
  · exact freezeTile_memWf h
  · exact postOnce_memWf h
  · exact setAside_memWf h

theorem restorePoint_memWf {s : State} {t d hart a} (h : s.memWf) : (restorePoint s t d hart a).memWf := by
  unfold restorePoint
  extract_lets x p l x1 x2 b s1 s2 s3 s4 s5 s6
  have h2 : s2.memWf := foldl_memWf (setHart_memWf (setTile_memWf h)) fun _ _ hs => setTile_memWf hs
  have h4 : s4.memWf := foldl_memWf (update_memWf h2 rfl rfl) fun _ _ hs => reissuePend_memWf hs
  have h6 : s6.memWf := foldl_memWf (reissueHart_memWf h4) fun _ _ hs => postOnce_memWf hs
  exact postOnce_memWf (postOnce_memWf (ite_memWf (unfreeze_memWf h6) h6))

theorem execPointRestore_memWf {s : State} {tile depth} (h : s.memWf) : nextWf (execPointRestore tile depth s) := by
  unfold execPointRestore
  repeat' split
  any_goals exact h
  exacts [restorePoint_memWf h, postOnce_memWf h]

/-! ## Machine/Slots -/

theorem slotChange_memWf {s : State} {p v r} (h : s.memWf) : (slotChange s p v r).memWf := by
  simp only [slotChange]
  repeat' split
  all_goals exact h

theorem execVcdef_memWf {s : State} {g hart} (h : s.memWf) : nextWf (execVcdef g hart s) := by
  unfold execVcdef
  extract_lets srcs
  split
  · exact finish1_memWf (trapR_memWf h)
  refine finish1_memWf (withRegs_memWf h fun _ _ => ?_)
  extract_lets
  split
  · exact operandR_memWf h
  split
  · split
    · exact operandR_memWf h
    · exact Res.ite_memWf (waitR_memWf h) (slotChange_memWf (popSrcs_memWf h))
  split
  · exact trapR_memWf h
  refine afterDrain_memWf h fun _ hs => record_memWf hs fun _ _ hs => ?_
  refine Res.ite_memWf (refuseRecord_memWf hs) (Res.ite_memWf (refuseRecord_memWf (logTile_memWf hs)) (Res.ite_memWf (refuseRecord_memWf hs) ?_))
  exact Res.ite_memWf (waitR_memWf hs) (slotChange_memWf (popSrcs_memWf hs))

theorem execVcdefProceed_memWf {s : State} {hart} (h : s.memWf) : nextWf (execVcdefProceed hart s) := by
  simp only [execVcdefProceed]
  repeat' split
  all_goals exact h

theorem execVcqry_memWf {s : State} {g hart} (h : s.memWf) : nextWf (execVcqry g hart s) := by
  refine finish1_memWf ?_
  refine withRegs_memWf h fun _ hs => ?_
  dsimp only
  repeat' split
  exacts [operandR_memWf h, issuePend_memWf (emptyG_memWf hs)]

theorem execMigrationSweep_memWf {s : State} {part vcid} (h : s.memWf) : nextWf (execMigrationSweep part vcid s) := by
  simp only [execMigrationSweep]
  repeat' split
  any_goals exact h
  all_goals exact post_memWf (setSlot_memWf (moveLine_memWf h))

theorem execMigrationEnd_memWf {s : State} {part vcid} (h : s.memWf) : nextWf (execMigrationEnd part vcid s) := by
  simp only [execMigrationEnd]
  repeat' split
  any_goals exact h
  all_goals exact post_memWf (moveLine_memWf h)

theorem endMove_memWf {s : State} {p v loc n y} (h : s.memWf) : (endMove s p v loc n y).memWf := by
  simp only [endMove]
  repeat' split
  · exact h
  · exact putLine_memWf (foldl_memWf (dropShelter_memWf h) (fun _ _ hs => release_memWf hs))
  · exact putLine_memWf (foldl_memWf (dropShelter_memWf h) (fun _ _ hs => release_memWf hs))
  · exact setLines_memWf (foldl_memWf (dropShelter_memWf h) (fun _ _ hs => release_memWf hs))
  · exact foldl_memWf (dropShelter_memWf h) fun _ _ hs => release_memWf hs

theorem passCopy_memWf {s : State} {a b gk} (h : s.memWf) : (passCopy s a b gk).memWf := by
  unfold passCopy
  repeat' split
  all_goals exact h

theorem execMove_memWf {s : State} {part vcid gran old new _dirty} (h : s.memWf) : nextWf (execMove part vcid gran old new _dirty s) := by
  unfold execMove
  repeat' split
  any_goals exact h
  all_goals exact post_memWf (machineCheck_memWf h)

theorem execMack_memWf {s : State} {part vcid gran} (h : s.memWf) : nextWf (execMack part vcid gran s) := by
  unfold execMack
  repeat' split
  exacts [h, endMove_memWf (passCopy_memWf h)]

theorem execMnak_memWf {s : State} {part vcid gran} (h : s.memWf) : nextWf (execMnak part vcid gran s) := by
  unfold execMnak
  repeat' split
  exacts [h, endMove_memWf h]

theorem execDrainSweep_memWf {s : State} {part vcid} (h : s.memWf) : nextWf (execDrainSweep part vcid s) := by
  simp only [execDrainSweep]
  repeat' split
  any_goals exact h
  all_goals exact post_memWf (evictLine_memWf h)

theorem execDrainDone_memWf {s : State} {part vcid} (h : s.memWf) : nextWf (execDrainDone part vcid s) := by
  simp only [execDrainDone]
  repeat' split
  all_goals exact h

theorem execCorrectedBankError_memWf {s : State} {bank seg} (h : s.memWf) : nextWf (execCorrectedBankError bank seg s) := h

theorem loseCopy_memWf {s : State} {a gk m} (h : s.memWf) : (loseCopy s a gk m).memWf := by
  unfold loseCopy
  split
  · exact delDir_memWf (poisonHome_memWf (writeGran_memWf (dropCopy_memWf h) ..))
  · exact h

theorem loseLine_memWf {p v l loc y a} (h : a.1.memWf) : (loseLine p v l loc y a).1.memWf := by
  unfold loseLine
  repeat' split
  · exact h
  · exact ite_memWf (evictLine_memWf (foldl_memWf (dropShelter_memWf h) (fun _ _ hs => ite_memWf (loseCopy_memWf hs) hs)))
        (foldl_memWf (dropShelter_memWf h) (fun _ _ hs => ite_memWf (loseCopy_memWf hs) hs))

theorem loseShare_memWf {s : State} {p v bank seg revoked y} (h : s.memWf) : (loseShare p v bank seg revoked s y).memWf :=
  bankRecord_memWf (foldl_fst_memWf h fun _ _ hs => loseLine_memWf hs)

theorem shareOffline_memWf {s : State} {p v bank seg off revoked} (h : s.memWf) : (shareOffline s p v bank seg off revoked).memWf := by
  unfold shareOffline
  repeat' split
  exacts [h, postOnce_memWf (foldl_memWf h (fun _ _ hs => loseShare_memWf hs))]

theorem segmentOffline_memWf {s : State} {bank seg revoked} (h : s.memWf) : (segmentOffline s bank seg revoked).memWf :=
  foldl_memWf h (fun _ _ hs => foldl_memWf hs (fun _ _ hs => shareOffline_memWf hs))

theorem execUncorrectableBankError_memWf {s : State} {bank seg} (h : s.memWf) : nextWf (execUncorrectableBankError bank seg s) := by
  unfold execUncorrectableBankError
  repeat' split
  exacts [h, segmentOffline_memWf h]

/-! ## Machine/Coherence -/

theorem execGets_memWf {s : State} {agent gran} (h : s.memWf) : nextWf (execGets agent gran s) := onGets_memWf h

theorem execGetm_memWf {s : State} {agent gran} (h : s.memWf) : nextWf (execGetm agent gran s) := onGetm_memWf h

theorem execUpg_memWf {s : State} {agent gran} (h : s.memWf) : nextWf (execUpg agent gran s) := onUpg_memWf h

theorem execPuts_memWf {s : State} {agent gran} (h : s.memWf) : nextWf (execPuts agent gran s) := onPuts_memWf h

theorem execPutm_memWf {s : State} {agent gran d} (h : s.memWf) : nextWf (execPutm agent gran d s) := onPutm_memWf h

theorem execRdat_memWf {s : State} {agent gran d} (h : s.memWf) : nextWf (execRdat agent gran d s) := onRdat_memWf h

theorem execDone_memWf {s : State} {agent gran} (h : s.memWf) : nextWf (execDone agent gran s) := onDone_memWf h

theorem execData_memWf {s : State} {agent gran st acks d} (h : s.memWf) : nextWf (execData agent gran st acks d s) := onData_memWf h

theorem execGnt_memWf {s : State} {agent gran acks} (h : s.memWf) : nextWf (execGnt agent gran acks s) := onGnt_memWf h

theorem execInv_memWf {s : State} {agent gran req part} (h : s.memWf) : nextWf (execInv agent gran req part s) := onInv_memWf h

theorem execRcls_memWf {s : State} {agent gran part} (h : s.memWf) : nextWf (execRcls agent gran part s) := onRcls_memWf h

theorem execRcli_memWf {s : State} {agent gran part} (h : s.memWf) : nextWf (execRcli agent gran part s) := onRcli_memWf h

theorem execIack_memWf {s : State} {req agent gran} (h : s.memWf) : nextWf (execIack req agent gran s) := onIack_memWf h

theorem execPack_memWf {s : State} {agent gran} (h : s.memWf) : nextWf (execPack agent gran s) := onPack_memWf h

theorem execErr_memWf {s : State} {agent gran} (h : s.memWf) : nextWf (execErr agent gran s) := onErr_memWf h

theorem execHostMemRead_memWf {s : State} {gran snp} (h : s.memWf) : nextWf (execHostMemRead gran snp s) := by
  simp only [execHostMemRead]
  repeat' split
  any_goals exact h
  · exact onGets_memWf h
  · exact onGetm_memWf h
  · exact Gate.done_memWf ‹_› (gate_memWf h)
  · exact waitOn_memWf (recallShared_memWf h)
  · exact send_memWf (recallShared_memWf h)

theorem execHostMemInv_memWf {s : State} {gran} (h : s.memWf) : nextWf (execHostMemInv gran s) := onUpg_memWf h

theorem execHostMemWrite_memWf {s : State} {gran d} (h : s.memWf) : nextWf (execHostMemWrite gran d s) := by
  refine ite_memWf h ?_
  repeat' split
  · exact refuse_memWf h
  · refine Clash.held_memWf ‹_› ?_
    repeat' split
    exacts [rfl, clash_memWf h]
  · exact refuse_memWf h
  · exact send_memWf (onPutm_memWf h)

theorem execHostMemCleanEvict_memWf {s : State} {gran} (h : s.memWf) : nextWf (execHostMemCleanEvict gran s) := by
  unfold execHostMemCleanEvict
  repeat' split
  exacts [h, refuse_memWf h, onPuts_memWf h]

theorem execBiResponse_memWf {s : State} {gran keeps d} (h : s.memWf) : nextWf (execBiResponse gran keeps d s) := by
  simp only [execBiResponse]
  repeat' split
  any_goals exact h
  all_goals exact onRdat_memWf h

theorem execBiConflict_memWf {s : State} {gran} (h : s.memWf) : nextWf (execBiConflict gran s) := h

theorem snoopGate_memWf {s : State} {gk wr e} (h : s.memWf) : (snoopGate s gk wr e).all State.memWf := by
  unfold snoopGate
  repeat' split
  any_goals exact h
  exacts [Clash.held_memWf ‹_› (clash_memWf h), rfl, machineCheck_memWf h, rfl]

theorem execH2dSnpData_memWf {s : State} {gran} (h : s.memWf) : nextWf (execH2dSnpData gran s) := by
  refine ite_memWf h ?_
  repeat' split
  exacts [some_memWf ‹_› (snoopGate_memWf h), ite_memWf (recallSharedFor_memWf h) (send_memWf (recallSharedFor_memWf h))]

theorem execH2dSnpInv_memWf {s : State} {gran} (h : s.memWf) : nextWf (execH2dSnpInv gran s) := by
  refine ite_memWf h ?_
  repeat' split
  exacts [some_memWf ‹_› (snoopGate_memWf h), ite_memWf (recallFor_memWf h) (notifyGran_memWf (send_memWf (recallFor_memWf h)))]

theorem execH2dSnpCur_memWf {s : State} {gran} (h : s.memWf) : nextWf (execH2dSnpCur gran s) := by
  refine ite_memWf h ?_
  repeat' split
  exacts [some_memWf ‹_› (snoopGate_memWf h), h]

theorem execH2dResponse_memWf {s : State} {gran d} (h : s.memWf) : nextWf (execH2dResponse gran d s) := by
  unfold execH2dResponse
  repeat' split
  any_goals exact h
  exacts [settle_memWf (notifyGran_memWf (writeGran_memWf h ..)), settle_memWf h]

theorem fenceTxn_memWf {s : State} {a x} (h : s.memWf) : (fenceTxn a s x).memWf := by
  unfold fenceTxn
  repeat' split
  any_goals exact h
  · exact answered_memWf (poisonHome_memWf h)
  · exact answered_memWf h
  · exact answered_memWf (poisonHome_memWf h)
  · exact answered_memWf h
  · exact answered_memWf h
  · exact answered_memWf (poisonHome_memWf h)
  · exact answered_memWf h
  · exact settle_memWf h

theorem fencePiece_memWf {s : State} {x} (h : s.memWf) : (fencePiece s x).memWf := by
  unfold fencePiece
  repeat' split
  exacts [takeHeld_memWf (foldl_memWf h (fun _ _ hs => poisonHome_memWf hs)), h]

theorem fenceAgent_memWf {s : State} {a} (h : s.memWf) : (fenceAgent s a).memWf := by
  unfold fenceAgent
  split
  · exact h
  extract_lets l s1 s2 s3 s4 s5 s6
  have h2 : s2.memWf := update_memWf h rfl rfl
  have h3 : s3.memWf := foldl_memWf h2 fun _ _ hs => noticeRecord_memWf hs
  have h4 : s4.memWf := foldl_memWf h3 fun _ _ hs => fenceTxn_memWf hs
  have h5 : s5.memWf := ite_memWf (update_memWf h4 rfl rfl) h4
  have h6 : s6.memWf := ite_memWf (foldl_memWf (update_memWf h5 rfl rfl) fun _ _ hs => fencePiece_memWf hs) h5
  exact foldl_memWf h6 fun _ _ hs => postOnce_memWf (setStack_memWf hs)

theorem execHeartbeatMiss_memWf {s : State} {agent} (h : s.memWf) : nextWf (execHeartbeatMiss agent s) := by
  simp only [execHeartbeatMiss]
  repeat' split
  any_goals exact h
  all_goals exact fenceAgent_memWf h

theorem execHostLinkFail_memWf {s : State} {_link} (h : s.memWf) : nextWf (execHostLinkFail _link s) := fenceAgent_memWf h

theorem scrubEntry_memWf {s : State} {a gk} (h : s.memWf) : (scrubEntry a s gk).memWf := by
  unfold scrubEntry
  repeat' split
  any_goals exact h
  exacts [machineCheck_memWf h, givenBack_memWf (delDir_memWf (poisonHome_memWf h)), givenBack_memWf h]

theorem execScrubStep_memWf {s : State} {stack} (h : s.memWf) : nextWf (execScrubStep stack s) := by
  simp only [execScrubStep]
  repeat' split
  any_goals exact h
  · exact setStack_memWf (foldl_memWf h (fun _ _ hs => scrubEntry_memWf hs))
  · exact post_memWf (setStack_memWf (foldl_memWf h (fun _ _ hs => scrubEntry_memWf hs)))
  · exact setStack_memWf (foldl_memWf h (fun _ _ hs => scrubEntry_memWf hs))
  · exact post_memWf (setStack_memWf (foldl_memWf h (fun _ _ hs => scrubEntry_memWf hs)))

theorem execAgentReadmit_memWf {s : State} {agent} (h : s.memWf) : nextWf (execAgentReadmit agent s) := by
  simp only [execAgentReadmit]
  repeat' split
  all_goals exact h

/-! ## Machine/Pod -/

theorem podXlate_memWf {s : State} {q va k} (h : s.memWf) : (podXlate s q va k).memWf := by
  simp only [podXlate]
  repeat' split
  · exact h
  · exact useXlat_memWf h
  · exact TrRes.ok_memWf ‹_› (llcWalk_memWf h)
  · exact TrRes.ok_memWf ‹_› (llcWalk_memWf h)
  · exact llcWalk_memWf h
  · exact TrRes.ok_memWf ‹_› (llcWalk_memWf h)
  · exact TrRes.ok_memWf ‹_› (llcWalk_memWf h)
  · exact llcWalk_memWf h

theorem podPieces_memWf {s : State} {q va n k fuel} (h : s.memWf) : (podPieces s q va n k fuel).memWf := by
  fun_induction podPieces s q va n k fuel
  any_goals exact h
  · exact TrRes.fault_memWf ‹_› (podXlate_memWf h)
  · exact PodTr.ok_memWf ‹_› (‹_ → _› (TrRes.ok_memWf ‹_› (podXlate_memWf h)))
  · exact ‹_ → _› (TrRes.ok_memWf ‹_› (podXlate_memWf h))

theorem podDone_memWf {s : State} {p neg bs} (h : s.memWf) : (podDone s p neg bs).memWf := h

theorem podRefuse_memWf {s : State} {p va k} (h : s.memWf) : (podRefuse s p va k).memWf := h

theorem podRaise_memWf {s : State} {p n} (h : s.memWf) : (podRaise s p n).memWf := by
  unfold podRaise
  repeat' split
  all_goals exact h

theorem podPerformed_memWf {s : State} {p bs} (h : s.memWf) : (podPerformed s p bs).memWf := podDone_memWf (podRaise_memWf h)

theorem podPageRefused_memWf {s : State} {p va k} (h : s.memWf) : (podPageRefused s p va k).memWf := by
  unfold podPageRefused
  repeat' split
  exacts [h, podRefuse_memWf (podRaise_memWf h), podRefuse_memWf (podRaise_memWf h)]

theorem letIn_memWf {s : State} {p va xs wr} (h : s.memWf) : (letIn s p va xs wr).memWf := h

theorem podEnter_memWf {s : State} {p n k ev f} (h : s.memWf) (hf1 : ∀ s x1, s.memWf → (f s x1).memWf) : (podEnter s p n k ev f).memWf := by
  simp only [podEnter]
  repeat' split
  · exact postOnce_memWf h
  · exact hf1 _ _ h
  · exact h
  · exact podPageRefused_memWf (PodTr.bad_memWf ‹_› (podPieces_memWf h))
  · exact postOnce_memWf (letIn_memWf (PodTr.ok_memWf ‹_› (podPieces_memWf h)))
  · exact hf1 _ _ (letIn_memWf (PodTr.ok_memWf ‹_› (podPieces_memWf h)))

theorem podPart_memWf {s : State} {p xs act again} (h : s.memWf) (hf1 : ∀ x0, (act x0).memWf) : (podPart p xs s act again).memWf := by
  unfold podPart
  repeat' split
  · exact postOnce_memWf h
  · exact podPerformed_memWf h
  · exact retry_memWf (Acc.wait_memWf ‹_› (hf1 _))
  · exact podDone_memWf (Acc.err_memWf ‹_› (hf1 _))
  · exact podPerformed_memWf (Acc.ok_memWf ‹_› (hf1 _))
  · exact post_memWf (letIn_memWf (Acc.ok_memWf ‹_› (hf1 _)))

theorem execIncomingPut_memWf {s : State} {p bytes} (h : s.memWf) : nextWf (execIncomingPut p bytes s) :=
  podEnter_memWf h (fun _ _ hs => podPart_memWf hs (fun _ => accWrite_memWf hs))

theorem execIncomingMcast_memWf {s : State} {p bytes} (h : s.memWf) : nextWf (execIncomingMcast p bytes s) :=
  podEnter_memWf h (fun _ _ hs => podPart_memWf hs (fun _ => accWrite_memWf hs))

theorem execIncomingGet_memWf {s : State} {p len} (h : s.memWf) : nextWf (execIncomingGet p len s) := by
  refine podEnter_memWf h fun _ _ hs => ?_
  repeat' split
  · exact retry_memWf (Acc.wait_memWf ‹_› (accReads_memWf hs))
  · exact podDone_memWf (Acc.err_memWf ‹_› (accReads_memWf hs))
  · exact podPerformed_memWf (Acc.ok_memWf ‹_› (accReads_memWf hs))

theorem execIncomingRamo_memWf {s : State} {p func dword operand cmp} (h : s.memWf) : nextWf (execIncomingRamo p func dword operand cmp s) := by
  refine podEnter_memWf h fun _ _ hs => ?_
  repeat' split
  · exact retry_memWf (Acc.wait_memWf ‹_› (accRmw_memWf hs))
  · exact podDone_memWf (Acc.err_memWf ‹_› (accRmw_memWf hs))
  · exact podPerformed_memWf (Acc.ok_memWf ‹_› (accRmw_memWf hs))
  · exact hs

theorem rredPiece_memWf {s : State} {w f n x bs fuel} (h : s.memWf) : (rredPiece s w f n x bs fuel).memWf := by
  fun_induction rredPiece s w f n x bs fuel
  any_goals exact h
  exacts [‹_ → _› (Acc.ok_memWf ‹_› (accRmw_memWf h)), accRmw_memWf h]

theorem execIncomingRred_memWf {s : State} {p func dword bytes} (h : s.memWf) : nextWf (execIncomingRred p func dword bytes s) :=
  podEnter_memWf h (fun _ _ hs => podPart_memWf hs (fun _ => rredPiece_memWf hs))

theorem commandAnswer_memWf {s : State} {t id neg bs nneg low} (h : s.memWf) : (commandAnswer s t id neg bs nneg low).memWf := by
  unfold commandAnswer
  split
  · exact h
  refine withTile_memWf h fun _ hs => ?_
  split
  · exact hs
  · exact podAnswered_memWf hs

theorem mergeAnswer_memWf {s : State} {id neg} (h : s.memWf) : (mergeAnswer s id neg).memWf := by
  unfold mergeAnswer
  repeat' split
  any_goals exact h
  all_goals exact foldl_memWf h (fun _ _ hs => commandAnswer_memWf hs)

theorem originAnswer_memWf {s : State} {y neg z} (h : s.memWf) : (originAnswer s y neg z).memWf := by
  simp only [originAnswer]
  repeat' split
  any_goals exact h
  · refine withTile_memWf h fun _ hs => ?_
    repeat' split
    exacts [hs, faultRecord_memWf hs]
  · refine withTile_memWf h fun _ hs => ?_
    repeat' split
    all_goals exact hs
  · exact entryDone_memWf (refuseEntry_memWf h)
  · exact commandAnswer_memWf h

theorem relemAnswer_memWf {s : State} {cluster elem neg} (h : s.memWf) : (relemAnswer s cluster elem neg).memWf := by
  unfold relemAnswer
  repeat' split
  exacts [h, foldl_memWf h (fun _ _ hs => originAnswer_memWf hs)]

theorem execRouterAnswer_memWf {s : State} {cluster elem neg} (h : s.memWf) : nextWf (execRouterAnswer cluster elem neg s) := relemAnswer_memWf h

theorem execPodAnswer_memWf {s : State} {tile cmd neg bytes nneg low} (h : s.memWf) : nextWf (execPodAnswer tile cmd neg bytes nneg low s) := by
  unfold execPodAnswer
  repeat' split
  exacts [mergeAnswer_memWf h, relemAnswer_memWf h, commandAnswer_memWf h]

theorem execPodMergeSend_memWf {s : State} {idx} (h : s.memWf) : nextWf (execPodMergeSend idx s) := by
  unfold execPodMergeSend
  repeat' split
  any_goals exact h
  exacts [mergeAnswer_memWf h, mergeAnswer_memWf h, foldl_memWf h (fun _ _ hs => hs)]

theorem mcastDone_memWf {s : State} {m} (h : s.memWf) : (mcastDone s m).memWf := by
  unfold mcastDone
  repeat' split
  all_goals exact h

theorem mcastTo_memWf {s : State} {c m i n} (h : s.memWf) : (mcastTo s c m i n).memWf := by
  unfold mcastTo
  repeat' split
  all_goals exact h

theorem execMcastRoute_memWf {s : State} {tile cmd} (h : s.memWf) : nextWf (execMcastRoute tile cmd s) := by
  simp only [execMcastRoute]
  repeat' split
  any_goals exact h
  · exact postOnce_memWf h
  · exact postOnce_memWf (mcastDone_memWf (foldl_memWf h (fun _ _ hs => mcastTo_memWf hs)))
  · exact postOnce_memWf (mcastDone_memWf (foldl_memWf h (fun _ _ hs => mcastTo_memWf hs)))
  · exact mcastDone_memWf (foldl_memWf h (fun _ _ hs => mcastTo_memWf hs))
  · exact mcastDone_memWf (foldl_memWf h (fun _ _ hs => mcastTo_memWf hs))

theorem execMcastMemberAnswer_memWf {s : State} {tile cmd pkg neg} (h : s.memWf) : nextWf (execMcastMemberAnswer tile cmd pkg neg s) := by
  unfold execMcastMemberAnswer
  repeat' split
  any_goals exact h
  all_goals exact mcastDone_memWf h

theorem execRouterContribution_memWf {s : State} {x} (h : s.memWf) : nextWf (execRouterContribution x s) := rtContribute_memWf h

theorem elementOut_memWf {s : State} {y} (h : s.memWf) : (elementOut s y).memWf := by
  fun_cases elementOut s y
  any_goals exact h
  · have hk := Acc.ok_memWf ‹_› (accRmw_memWf h)
    exact post_memWf (update_memWf hk rfl rfl)
  · exact retry_memWf (Acc.wait_memWf ‹_› (accRmw_memWf h))
  · have hk := Acc.err_memWf ‹_› (accRmw_memWf h)
    exact post_memWf (update_memWf hk rfl rfl)
  · exact retry_memWf h
  · exact retry_memWf h

theorem execRouterElementTimeout_memWf {s : State} {cluster elem} (h : s.memWf) : nextWf (execRouterElementTimeout cluster elem s) := by
  unfold execRouterElementTimeout
  repeat' split
  any_goals exact h
  all_goals exact elementOut_memWf h

theorem copyWrite_memWf {s : State} {t p a bs ev} (h : s.memWf) : (copyWrite s t p a bs ev).memWf := by
  unfold copyWrite
  repeat' split
  exacts [h, accWrites_memWf h]

theorem execRouterReplicate_memWf {s : State} {tile part pa bytes} (h : s.memWf) : nextWf (execRouterReplicate tile part pa bytes s) := by
  unfold execRouterReplicate
  extract_lets ev again mine
  show State.memWf _ = true
  split
  · split
    · exact retry_memWf (Acc.wait_memWf ‹_› (copyWrite_memWf h))
    · exact Acc.err_memWf ‹_› (copyWrite_memWf h)
    · exact replicate_memWf (Acc.ok_memWf ‹_› (copyWrite_memWf h))
  · extract_lets next a
    have hnext : ∀ (k : State) bad, k.memWf → (next k bad).memWf :=
      fun k bad hk => ite_memWf (retry_memWf (update_memWf hk rfl rfl)) (update_memWf hk rfl rfl)
    split
    · exact hnext _ _ h
    split
    · exact retry_memWf (Acc.wait_memWf ‹_› (copyWrite_memWf h))
    · exact hnext _ _ (Acc.err_memWf ‹_› (copyWrite_memWf h))
    · exact hnext _ _ (Acc.ok_memWf ‹_› (copyWrite_memWf h))

theorem execRouterEntryWrite_memWf {s : State} {tile part off val} (h : s.memWf) : nextWf (execRouterEntryWrite tile part off val s) := by
  unfold execRouterEntryWrite
  repeat' split
  exacts [rtWrite_memWf h, h]

theorem failPath_memWf {s : State} {hit hitM} (h : s.memWf) : (failPath s hit hitM).memWf := h

theorem execCrossbarDivergence_memWf {s : State} (h : s.memWf) : nextWf (execCrossbarDivergence s) := h

theorem execCrossbarRetrainDone_memWf {s : State} {ok} (h : s.memWf) : nextWf (execCrossbarRetrainDone ok s) := by
  unfold execCrossbarRetrainDone
  repeat' split
  any_goals exact h
  all_goals exact failPath_memWf (foldl_memWf h (fun _ _ hs => noticeRecord_memWf hs))

theorem execCorrectedLaneError_memWf {s : State} {_slice} (h : s.memWf) : nextWf (execCorrectedLaneError _slice s) := h

theorem execScaleUpLinkFailure_memWf {s : State} {dest} (h : s.memWf) : nextWf (execScaleUpLinkFailure dest s) := h

/-! ## Machine/Manage -/

theorem execReservedEncoding_memWf {s : State} {_word} (h : s.memWf) : nextWf (execReservedEncoding _word s) := finish1_memWf (trapR_memWf h)

theorem execInstructionFetchFault_memWf {s : State} {cause sub addr} (h : s.memWf) : nextWf (execInstructionFetchFault cause sub addr s) :=
  finish1_memWf h

theorem installDefault_memWf {s : State} {p} (h : s.memWf) : (installDefault s p).memWf := by
  unfold installDefault
  repeat' split
  all_goals exact h

theorem startTile.startHere_memWf {s : State} {p t hs x} (h : s.memWf) : (startTile.startHere p t hs x s).memWf := by
  unfold startTile.startHere
  refine update_memWf ?_ rfl rfl
  split
  · exact ite_memWf h (update_memWf h rfl rfl)
  · exact h

theorem startTile_memWf {s : State} {p root t} (h : s.memWf) : (startTile p root s t).memWf := by
  simp only [startTile]
  split
  · exact ite_memWf (update_memWf h rfl rfl) (startTile.startHere_memWf h)
  · exact startTile.startHere_memWf h

theorem startRegion_memWf {s : State} {p r} (h : s.memWf) : (startRegion p s r).memWf := by
  simp only [startRegion]
  repeat' split
  exacts [startQuantum_memWf h, h, startQuantum_memWf (foldl_memWf h (fun _ _ hs => flushTile_memWf hs))]

theorem startPartition_memWf {s : State} {p} (h : s.memWf) : (startPartition s p).memWf := by
  unfold startPartition
  repeat' split
  · exact h
  · exact setPtState_memWf (foldl_memWf (foldl_memWf (installDefault_memWf h) (fun _ _ hs => startTile_memWf hs))
        (fun _ _ hs => startRegion_memWf hs))

theorem execPartitionStart_memWf {s : State} {part} (h : s.memWf) : nextWf (execPartitionStart part s) := startPartition_memWf h

theorem dropAsid_memWf {s : State} {asid} (h : s.memWf) : (dropAsid s asid).memWf := h

theorem clearSlots_memWf {s : State} {p} (h : s.memWf) : (clearSlots s p).memWf :=
  setPart_memWf (foldl_memWf h (fun _ _ hs => foldl_memWf hs (fun _ _ hs => evictLine_memWf hs)))

theorem dropPart_memWf {s : State} {p} (h : s.memWf) : (dropPart s p).memWf := dropAsid_memWf (clearSlots_memWf h)

theorem removePartition_memWf {s : State} {p} (h : s.memWf) : (removePartition s p).memWf := by
  unfold removePartition
  repeat' split
  any_goals exact h
  all_goals exact setPt_memWf (dropPart_memWf h)

theorem execPartitionRemove_memWf {s : State} {part} (h : s.memWf) : nextWf (execPartitionRemove part s) := removePartition_memWf h

theorem lockFeatures_memWf {s : State} {lock} (h : s.memWf) : (lockFeatures s lock).memWf := by
  unfold lockFeatures
  repeat' split
  all_goals exact h

theorem execFeatureLock_memWf {s : State} {lock} (h : s.memWf) : nextWf (execFeatureLock lock s) := broughtUp_memWf h (lockFeatures_memWf h)

theorem revokeSegment_memWf {s : State} {bank seg} (h : s.memWf) : (revokeSegment s bank seg).memWf := by
  unfold revokeSegment
  repeat' split
  exacts [h, setCtlByte_memWf (segmentOffline_memWf h), setCtlByte_memWf (foldl_memWf h (fun _ _ hs => shareOffline_memWf hs))]

theorem execSegmentRevoke_memWf {s : State} {bank seg} (h : s.memWf) : nextWf (execSegmentRevoke bank seg s) :=
  broughtUp_memWf h (revokeSegment_memWf h)

theorem grantByte_memWf {s : State} {off b free revoke} (h : s.memWf) (hf1 : ∀ s, s.memWf → (free s).memWf) (hf2 : ∀ s, s.memWf → (revoke s).memWf) :
    (grantByte s off b free revoke).memWf := by
  simp only [grantByte]
  repeat' split
  any_goals exact h
  exacts [hf2 _ h, hf1 _ h]

theorem grantSegment_memWf {s : State} {off b} (h : s.memWf) : (grantSegment s off b).memWf := by
  unfold grantSegment
  exact grantByte_memWf h (fun _ hs => hs) (fun _ hs => revokeSegment_memWf hs)

theorem grantRun_memWf {s : State} {off b} (h : s.memWf) : (grantRun s off b).memWf := by
  unfold grantRun
  refine grantByte_memWf h (fun s hs => ?_) fun s hs => ?_
  · exact takeNext_memWf (execCounterRunGrant_memWf hs) hs
  · exact takeNext_memWf (execCounterRunRevoke_memWf hs) hs

theorem grantRegion_memWf {s : State} {off b} (h : s.memWf) : (grantRegion s off b).memWf := by
  unfold grantRegion
  repeat' split
  all_goals exact h

theorem byBytes_memWf {s : State} {off w bad f} (h : s.memWf) (hf1 : ∀ s x1 x2, s.memWf → (f s x1 x2).memWf) : (byBytes s off w bad f).memWf := by
  simp only [byBytes]
  repeat' split
  exacts [h, foldl_memWf h (fun _ _ hs => hf1 _ _ _ hs)]

theorem writeRegions_memWf {s : State} {off w} (h : s.memWf) : (writeRegions s off w).memWf := by
  unfold writeRegions
  exact ite_memWf (refuseCtl_memWf h) (setCtl_memWf h)

theorem writeIdentity_memWf {s : State} {off w} (h : s.memWf) : (writeIdentity s off w).memWf := by
  simp only [writeIdentity]
  repeat' split
  all_goals exact h

theorem writePartition_memWf {s : State} {off w} (h : s.memWf) : (writePartition s off w).memWf := by
  simp only [writePartition]
  repeat' split
  any_goals exact h
  exacts [startPartition_memWf h, setPt_memWf (dropPart_memWf h)]

theorem writeEntry_memWf {s : State} {off w} (h : s.memWf) : (writeEntry s off w).memWf := by
  simp only [writeEntry]
  repeat' split
  all_goals exact h

theorem writeCtl_memWf {s : State} {off w} (h : s.memWf) : (writeCtl s off w).memWf := by
  have hc : ∀ {v}, (setCtl s off v).memWf := setCtl_memWf h
  have hr : (refuseCtl s off).memWf := refuseCtl_memWf h
  unfold writeCtl
  extract_lets locked inR
  refine ite_memWf h (ite_memWf hr ?_)
  refine ite_memWf (ite_memWf hr hc) ?_
  refine ite_memWf (ite_memWf hr h) ?_
  refine ite_memWf (ite_memWf h (lockFeatures_memWf h)) ?_
  refine ite_memWf (byBytes_memWf h fun _ _ _ hs => grantSegment_memWf hs) ?_
  refine ite_memWf (ite_memWf hc hr) ?_
  refine ite_memWf hc ?_
  refine ite_memWf (writeIdentity_memWf h) ?_
  refine ite_memWf (writePartition_memWf h) ?_
  refine ite_memWf (writeRegions_memWf h) ?_
  refine ite_memWf (ite_memWf h (ite_memWf hr hc)) ?_
  refine ite_memWf hc ?_
  refine ite_memWf (byBytes_memWf h fun _ _ _ hs => grantRegion_memWf hs) ?_
  refine ite_memWf (byBytes_memWf h fun _ _ _ hs => grantRun_memWf hs) ?_
  exact ite_memWf (writeEntry_memWf h) hr

theorem execControlSpaceWrite_memWf {s : State} {off size val} (h : s.memWf) : nextWf (execControlSpaceWrite off size val s) := by
  unfold execControlSpaceWrite
  repeat' split
  exacts [h, writeCtl_memWf h, writeCtl_memWf h]

theorem execFretiaCsrRead_memWf {s : State} {off} (h : s.memWf) : nextWf (execFretiaCsrRead off s) := by
  unfold execFretiaCsrRead
  repeat' split
  all_goals exact h

theorem execFretiaCsrWrite_memWf {s : State} {off val} (h : s.memWf) : nextWf (execFretiaCsrWrite off val s) := by
  unfold execFretiaCsrWrite
  repeat' split
  exacts [h, send_memWf (writeCtl_memWf h)]

theorem execFretiaBlackboxRead_memWf {s : State} {die} (h : s.memWf) : nextWf (execFretiaBlackboxRead die s) := h

theorem execFretiaGroupWrite_memWf {s : State} {entry members} (h : s.memWf) : nextWf (execFretiaGroupWrite entry members s) := h

theorem execFretiaAttestation_memWf {s : State} {nonce} (h : s.memWf) : nextWf (execFretiaAttestation nonce s) := h

theorem bringUp_memWf {s : State} {step} (h : s.memWf) : (bringUp s step).memWf := h

theorem execColdReset_memWf {s : State} {verified} (h : s.memWf) : nextWf (execColdReset verified s) :=
  ite_memWf (bringUp_memWf (bringUp_memWf (afterReset_memWf h))) (boxAdd_memWf (update_memWf (drew_memWf (afterReset_memWf h)) rfl rfl))

theorem execWarmReset_memWf {s : State} (h : s.memWf) : nextWf (execWarmReset s) := by
  unfold execWarmReset
  repeat' split
  all_goals exact h

/-! ## Machine/Scalar -/

theorem intOp_memWf {s : State} {d a b t u f} (h : s.memWf) : nextWf (intOp d a b t u f s) := by
  unfold intOp
  exact finish1_memWf (withRegs_memWf h (fun _ hs => setG_memWf hs))

theorem intOp1_memWf {s : State} {d a t f} (h : s.memWf) : nextWf (intOp1 d a t f s) := by
  unfold intOp1
  exact finish1_memWf (withRegs_memWf h (fun _ hs => setG_memWf hs))

theorem intOp0_memWf {s : State} {d v} (h : s.memWf) : nextWf (intOp0 d v s) := finish1_memWf (withRegs_memWf h (fun _ hs => setG_memWf hs))

theorem fpOp_memWf {s : State} {srcs d p m f} (h : s.memWf) : nextWf (fpOp srcs d p m f s) := by
  unfold fpOp
  exact finish1_memWf (withRegs_memWf h (fun _ hs => setG_memWf (addFlags_memWf hs)))

theorem fpPick_memWf {s : State} {d a b t u p mx} (h : s.memWf) : nextWf (fpPick d a b t u p mx s) :=
  finish1_memWf (withRegs_memWf h (fun _ hs => setG_memWf (addFlags_memWf hs)))

theorem fpCmp_memWf {s : State} {d a b t u p quiet f} (h : s.memWf) : nextWf (fpCmp d a b t u p quiet f s) := by
  unfold fpCmp
  repeat' split
  all_goals exact finish1_memWf (withRegs_memWf h (fun _ hs => setG_memWf (addFlags_memWf hs)))

theorem branch_memWf {s : State} {a b o c} (h : s.memWf) : nextWf (branch a b o c s) := by
  simp only [branch]
  refine finish1_memWf ?_
  refine withRegs_memWf h fun _ hs => ?_
  repeat' split
  exacts [hs, hs, protR_memWf h]

theorem execAdd_memWf {s : State} {d a b t u w} (h : s.memWf) : nextWf (execAdd d a b t u w s) := intOp_memWf h

theorem execSub_memWf {s : State} {d a b t u w} (h : s.memWf) : nextWf (execSub d a b t u w s) := intOp_memWf h

theorem execMul_memWf {s : State} {d a b t u w} (h : s.memWf) : nextWf (execMul d a b t u w s) := intOp_memWf h

theorem execMulh_memWf {s : State} {d a b t u} (h : s.memWf) : nextWf (execMulh d a b t u s) := intOp_memWf h

theorem execMulhu_memWf {s : State} {d a b t u} (h : s.memWf) : nextWf (execMulhu d a b t u s) := intOp_memWf h

theorem execDiv_memWf {s : State} {d a b t u} (h : s.memWf) : nextWf (execDiv d a b t u s) := intOp_memWf h

theorem execDivu_memWf {s : State} {d a b t u} (h : s.memWf) : nextWf (execDivu d a b t u s) := intOp_memWf h

theorem execRem_memWf {s : State} {d a b t u} (h : s.memWf) : nextWf (execRem d a b t u s) := intOp_memWf h

theorem execRemu_memWf {s : State} {d a b t u} (h : s.memWf) : nextWf (execRemu d a b t u s) := intOp_memWf h

theorem execAnd_memWf {s : State} {d a b t u} (h : s.memWf) : nextWf (execAnd d a b t u s) := intOp_memWf h

theorem execOr_memWf {s : State} {d a b t u} (h : s.memWf) : nextWf (execOr d a b t u s) := intOp_memWf h

theorem execXor_memWf {s : State} {d a b t u} (h : s.memWf) : nextWf (execXor d a b t u s) := intOp_memWf h

theorem execAndn_memWf {s : State} {d a b t u} (h : s.memWf) : nextWf (execAndn d a b t u s) := intOp_memWf h

theorem execOrn_memWf {s : State} {d a b t u} (h : s.memWf) : nextWf (execOrn d a b t u s) := intOp_memWf h

theorem execSll_memWf {s : State} {d a b t u w} (h : s.memWf) : nextWf (execSll d a b t u w s) := intOp_memWf h

theorem execSrl_memWf {s : State} {d a b t u w} (h : s.memWf) : nextWf (execSrl d a b t u w s) := intOp_memWf h

theorem execSra_memWf {s : State} {d a b t u w} (h : s.memWf) : nextWf (execSra d a b t u w s) := intOp_memWf h

theorem execRol_memWf {s : State} {d a b t u w} (h : s.memWf) : nextWf (execRol d a b t u w s) := intOp_memWf h

theorem execRor_memWf {s : State} {d a b t u w} (h : s.memWf) : nextWf (execRor d a b t u w s) := intOp_memWf h

theorem execSlt_memWf {s : State} {d a b t u} (h : s.memWf) : nextWf (execSlt d a b t u s) := intOp_memWf h

theorem execSltu_memWf {s : State} {d a b t u} (h : s.memWf) : nextWf (execSltu d a b t u s) := intOp_memWf h

theorem execMin_memWf {s : State} {d a b t u} (h : s.memWf) : nextWf (execMin d a b t u s) := intOp_memWf h

theorem execMax_memWf {s : State} {d a b t u} (h : s.memWf) : nextWf (execMax d a b t u s) := intOp_memWf h

theorem execMinu_memWf {s : State} {d a b t u} (h : s.memWf) : nextWf (execMinu d a b t u s) := intOp_memWf h

theorem execMaxu_memWf {s : State} {d a b t u} (h : s.memWf) : nextWf (execMaxu d a b t u s) := intOp_memWf h

theorem execClz_memWf {s : State} {d a t w} (h : s.memWf) : nextWf (execClz d a t w s) := intOp1_memWf h

theorem execCtz_memWf {s : State} {d a t w} (h : s.memWf) : nextWf (execCtz d a t w s) := intOp1_memWf h

theorem execPopc_memWf {s : State} {d a t w} (h : s.memWf) : nextWf (execPopc d a t w s) := intOp1_memWf h

theorem execBswap_memWf {s : State} {d a t} (h : s.memWf) : nextWf (execBswap d a t s) := intOp1_memWf h

theorem execSext_memWf {s : State} {d a c t} (h : s.memWf) : nextWf (execSext d a c t s) := intOp1_memWf h

theorem execZext_memWf {s : State} {d a c t} (h : s.memWf) : nextWf (execZext d a c t s) := intOp1_memWf h

theorem execCmov_memWf {s : State} {d a b t u} (h : s.memWf) : nextWf (execCmov d a b t u s) :=
  finish1_memWf (withRegs_memWf h (fun _ hs => setG_memWf hs))

theorem execHmix_memWf {s : State} {d a b t u} (h : s.memWf) : nextWf (execHmix d a b t u s) := intOp_memWf h

theorem execCrc32c_memWf {s : State} {d a b t u} (h : s.memWf) : nextWf (execCrc32c d a b t u s) := intOp_memWf h

theorem execAddi_memWf {s : State} {d a t i} (h : s.memWf) : nextWf (execAddi d a t i s) := intOp1_memWf h

theorem execAndi_memWf {s : State} {d a t i} (h : s.memWf) : nextWf (execAndi d a t i s) := intOp1_memWf h

theorem execOri_memWf {s : State} {d a t i} (h : s.memWf) : nextWf (execOri d a t i s) := intOp1_memWf h

theorem execXori_memWf {s : State} {d a t i} (h : s.memWf) : nextWf (execXori d a t i s) := intOp1_memWf h

theorem execSlti_memWf {s : State} {d a t i} (h : s.memWf) : nextWf (execSlti d a t i s) := intOp1_memWf h

theorem execSltiu_memWf {s : State} {d a t i} (h : s.memWf) : nextWf (execSltiu d a t i s) := intOp1_memWf h

theorem execSlli_memWf {s : State} {d a t n w} (h : s.memWf) : nextWf (execSlli d a t n w s) := intOp1_memWf h

theorem execSrli_memWf {s : State} {d a t n w} (h : s.memWf) : nextWf (execSrli d a t n w s) := intOp1_memWf h

theorem execSrai_memWf {s : State} {d a t n w} (h : s.memWf) : nextWf (execSrai d a t n w s) := intOp1_memWf h

theorem execRori_memWf {s : State} {d a t n w} (h : s.memWf) : nextWf (execRori d a t n w s) := intOp1_memWf h

theorem execMovhi_memWf {s : State} {d i} (h : s.memWf) : nextWf (execMovhi d i s) := intOp0_memWf h

theorem execAddpc_memWf {s : State} {d i} (h : s.memWf) : nextWf (execAddpc d i s) := intOp0_memWf h

theorem execFadd_memWf {s : State} {d a b t u p m} (h : s.memWf) : nextWf (execFadd d a b t u p m s) := fpOp_memWf h

theorem execFsub_memWf {s : State} {d a b t u p m} (h : s.memWf) : nextWf (execFsub d a b t u p m s) := fpOp_memWf h

theorem execFmul_memWf {s : State} {d a b t u p m} (h : s.memWf) : nextWf (execFmul d a b t u p m s) := fpOp_memWf h

theorem execFdiv_memWf {s : State} {d a b t u p m} (h : s.memWf) : nextWf (execFdiv d a b t u p m s) := fpOp_memWf h

theorem execFsqrt_memWf {s : State} {d a t p m} (h : s.memWf) : nextWf (execFsqrt d a t p m s) := fpOp_memWf h

theorem execFma_memWf {s : State} {d a b t u p m} (h : s.memWf) : nextWf (execFma d a b t u p m s) := fpOp_memWf h

theorem execFnma_memWf {s : State} {d a b t u p m} (h : s.memWf) : nextWf (execFnma d a b t u p m s) := fpOp_memWf h

theorem execFmin_memWf {s : State} {d a b t u p} (h : s.memWf) : nextWf (execFmin d a b t u p s) := fpPick_memWf h

theorem execFmax_memWf {s : State} {d a b t u p} (h : s.memWf) : nextWf (execFmax d a b t u p s) := fpPick_memWf h

theorem execFeq_memWf {s : State} {d a b t u p} (h : s.memWf) : nextWf (execFeq d a b t u p s) := fpCmp_memWf h

theorem execFlt_memWf {s : State} {d a b t u p} (h : s.memWf) : nextWf (execFlt d a b t u p s) := fpCmp_memWf h

theorem execFle_memWf {s : State} {d a b t u p} (h : s.memWf) : nextWf (execFle d a b t u p s) := fpCmp_memWf h

theorem execFcvt_memWf {s : State} {d a c t p m} (h : s.memWf) : nextWf (execFcvt d a c t p m s) :=
  finish1_memWf (withRegs_memWf h (fun _ hs => setG_memWf (addFlags_memWf hs)))

theorem execFclass_memWf {s : State} {d a t p} (h : s.memWf) : nextWf (execFclass d a t p s) := intOp1_memWf h

theorem execBeq_memWf {s : State} {a b o} (h : s.memWf) : nextWf (execBeq a b o s) := branch_memWf h

theorem execBne_memWf {s : State} {a b o} (h : s.memWf) : nextWf (execBne a b o s) := branch_memWf h

theorem execBlt_memWf {s : State} {a b o} (h : s.memWf) : nextWf (execBlt a b o s) := branch_memWf h

theorem execBge_memWf {s : State} {a b o} (h : s.memWf) : nextWf (execBge a b o s) := branch_memWf h

theorem execBltu_memWf {s : State} {a b o} (h : s.memWf) : nextWf (execBltu a b o s) := branch_memWf h

theorem execBgeu_memWf {s : State} {a b o} (h : s.memWf) : nextWf (execBgeu a b o s) := branch_memWf h

theorem execJal_memWf {s : State} {d o} (h : s.memWf) : nextWf (execJal d o s) := by
  simp only [execJal]
  refine finish1_memWf ?_
  refine withRegs_memWf h fun _ hs => ?_
  repeat' split
  exacts [setG_memWf hs, protR_memWf h]

theorem execJalr_memWf {s : State} {d a t i} (h : s.memWf) : nextWf (execJalr d a t i s) := by
  simp only [execJalr]
  refine finish1_memWf ?_
  refine withRegs_memWf h fun _ hs => ?_
  repeat' split
  exacts [trapR_memWf h, setG_memWf hs, protR_memWf h]

/-! ## Machine/Vector -/

theorem execVadd_memWf {s : State} {d a b k c t x} (h : s.memWf) : nextWf (execVadd d a b k c t x s) := vIssue_memWf h

theorem execVsub_memWf {s : State} {d a b k c t x} (h : s.memWf) : nextWf (execVsub d a b k c t x s) := vIssue_memWf h

theorem execVmul_memWf {s : State} {d a b k c t x} (h : s.memWf) : nextWf (execVmul d a b k c t x s) := vIssue_memWf h

theorem execVmulh_memWf {s : State} {d a b k c t x} (h : s.memWf) : nextWf (execVmulh d a b k c t x s) := vIssue_memWf h

theorem execVmulhu_memWf {s : State} {d a b k c t x} (h : s.memWf) : nextWf (execVmulhu d a b k c t x s) := vIssue_memWf h

theorem execVand_memWf {s : State} {d a b k c t x} (h : s.memWf) : nextWf (execVand d a b k c t x s) := vIssue_memWf h

theorem execVor_memWf {s : State} {d a b k c t x} (h : s.memWf) : nextWf (execVor d a b k c t x s) := vIssue_memWf h

theorem execVxor_memWf {s : State} {d a b k c t x} (h : s.memWf) : nextWf (execVxor d a b k c t x s) := vIssue_memWf h

theorem execVsll_memWf {s : State} {d a b k c t x} (h : s.memWf) : nextWf (execVsll d a b k c t x s) := vIssue_memWf h

theorem execVsrl_memWf {s : State} {d a b k c t x} (h : s.memWf) : nextWf (execVsrl d a b k c t x s) := vIssue_memWf h

theorem execVsra_memWf {s : State} {d a b k c t x} (h : s.memWf) : nextWf (execVsra d a b k c t x s) := vIssue_memWf h

theorem execVmin_memWf {s : State} {d a b k c t x} (h : s.memWf) : nextWf (execVmin d a b k c t x s) := vIssue_memWf h

theorem execVmax_memWf {s : State} {d a b k c t x} (h : s.memWf) : nextWf (execVmax d a b k c t x s) := vIssue_memWf h

theorem execVminu_memWf {s : State} {d a b k c t x} (h : s.memWf) : nextWf (execVminu d a b k c t x s) := vIssue_memWf h

theorem execVmaxu_memWf {s : State} {d a b k c t x} (h : s.memWf) : nextWf (execVmaxu d a b k c t x s) := vIssue_memWf h

theorem execVabsd_memWf {s : State} {d a b k c t x} (h : s.memWf) : nextWf (execVabsd d a b k c t x s) := vIssue_memWf h

theorem execVadds_memWf {s : State} {d a b k c t x} (h : s.memWf) : nextWf (execVadds d a b k c t x s) := vIssue_memWf h

theorem execVsubs_memWf {s : State} {d a b k c t x} (h : s.memWf) : nextWf (execVsubs d a b k c t x s) := vIssue_memWf h

theorem execVaddus_memWf {s : State} {d a b k c t x} (h : s.memWf) : nextWf (execVaddus d a b k c t x s) := vIssue_memWf h

theorem execVsubus_memWf {s : State} {d a b k c t x} (h : s.memWf) : nextWf (execVsubus d a b k c t x s) := vIssue_memWf h

theorem execVdot4_memWf {s : State} {d a b k c t x} (h : s.memWf) : nextWf (execVdot4 d a b k c t x s) := vIssue_memWf h

theorem execVmac_memWf {s : State} {d a b k c t x} (h : s.memWf) : nextWf (execVmac d a b k c t x s) := vIssue_memWf h

theorem execVfadd_memWf {s : State} {d a b k c t x} (h : s.memWf) : nextWf (execVfadd d a b k c t x s) := vIssue_memWf h

theorem execVfsub_memWf {s : State} {d a b k c t x} (h : s.memWf) : nextWf (execVfsub d a b k c t x s) := vIssue_memWf h

theorem execVfmul_memWf {s : State} {d a b k c t x} (h : s.memWf) : nextWf (execVfmul d a b k c t x s) := vIssue_memWf h

theorem execVfma_memWf {s : State} {d a b k c t x} (h : s.memWf) : nextWf (execVfma d a b k c t x s) := vIssue_memWf h

theorem execVfnma_memWf {s : State} {d a b k c t x} (h : s.memWf) : nextWf (execVfnma d a b k c t x s) := vIssue_memWf h

theorem execVfdiv_memWf {s : State} {d a b k c t x} (h : s.memWf) : nextWf (execVfdiv d a b k c t x s) := vIssue_memWf h

theorem execVfsqrt_memWf {s : State} {d a k c t} (h : s.memWf) : nextWf (execVfsqrt d a k c t s) := vIssue_memWf h

theorem execVfmin_memWf {s : State} {d a b k c t x} (h : s.memWf) : nextWf (execVfmin d a b k c t x s) := vIssue_memWf h

theorem execVfmax_memWf {s : State} {d a b k c t x} (h : s.memWf) : nextWf (execVfmax d a b k c t x s) := vIssue_memWf h

theorem execVfabs_memWf {s : State} {d a k c t} (h : s.memWf) : nextWf (execVfabs d a k c t s) := vIssue_memWf h

theorem execVfneg_memWf {s : State} {d a k c t} (h : s.memWf) : nextWf (execVfneg d a k c t s) := vIssue_memWf h

theorem execVfscl_memWf {s : State} {d a b k c t x} (h : s.memWf) : nextWf (execVfscl d a b k c t x s) := vIssue_memWf h

theorem execVsfuExp2_memWf {s : State} {d a k c t} (h : s.memWf) : nextWf (execVsfuExp2 d a k c t s) := vIssue_memWf h

theorem execVsfuLog2_memWf {s : State} {d a k c t} (h : s.memWf) : nextWf (execVsfuLog2 d a k c t s) := vIssue_memWf h

theorem execVsfuRcp_memWf {s : State} {d a k c t} (h : s.memWf) : nextWf (execVsfuRcp d a k c t s) := vIssue_memWf h

theorem execVsfuRsqrt_memWf {s : State} {d a k c t} (h : s.memWf) : nextWf (execVsfuRsqrt d a k c t s) := vIssue_memWf h

theorem execVsfuSin_memWf {s : State} {d a k c t} (h : s.memWf) : nextWf (execVsfuSin d a k c t s) := vIssue_memWf h

theorem execVsfuCos_memWf {s : State} {d a k c t} (h : s.memWf) : nextWf (execVsfuCos d a k c t s) := vIssue_memWf h

theorem execVsfuTanh_memWf {s : State} {d a k c t} (h : s.memWf) : nextWf (execVsfuTanh d a k c t s) := vIssue_memWf h

theorem execVsfuSigm_memWf {s : State} {d a k c t} (h : s.memWf) : nextWf (execVsfuSigm d a k c t s) := vIssue_memWf h

theorem execVcmp_memWf {s : State} {d a b k c t x n} (h : s.memWf) : nextWf (execVcmp d a b k c t x n s) := vIssue_memWf h

theorem execVfcmp_memWf {s : State} {d a b k c t x n} (h : s.memWf) : nextWf (execVfcmp d a b k c t x n s) := vIssue_memWf h

theorem execMand_memWf {s : State} {d a b k c t} (h : s.memWf) : nextWf (execMand d a b k c t s) := vIssue_memWf h

theorem execMor_memWf {s : State} {d a b k c t} (h : s.memWf) : nextWf (execMor d a b k c t s) := vIssue_memWf h

theorem execMxor_memWf {s : State} {d a b k c t} (h : s.memWf) : nextWf (execMxor d a b k c t s) := vIssue_memWf h

theorem execMandn_memWf {s : State} {d a b k c t} (h : s.memWf) : nextWf (execMandn d a b k c t s) := vIssue_memWf h

theorem execMnot_memWf {s : State} {d a k c t} (h : s.memWf) : nextWf (execMnot d a k c t s) := vIssue_memWf h

theorem execMpopc_memWf {s : State} {d a k c t} (h : s.memWf) : nextWf (execMpopc d a k c t s) := vIssue_memWf h

theorem execMfirst_memWf {s : State} {d a k c t} (h : s.memWf) : nextWf (execMfirst d a k c t s) := vIssue_memWf h

theorem execMset_memWf {s : State} {d k c t} (h : s.memWf) : nextWf (execMset d k c t s) := vIssue_memWf h

theorem execMclr_memWf {s : State} {d k c t} (h : s.memWf) : nextWf (execMclr d k c t s) := vIssue_memWf h

theorem execVperm_memWf {s : State} {d a b k c t} (h : s.memWf) : nextWf (execVperm d a b k c t s) := vIssue_memWf h

theorem execVslideup_memWf {s : State} {d a b k c t} (h : s.memWf) : nextWf (execVslideup d a b k c t s) := vIssue_memWf h

theorem execVslidedn_memWf {s : State} {d a b k c t} (h : s.memWf) : nextWf (execVslidedn d a b k c t s) := vIssue_memWf h

theorem execVcompress_memWf {s : State} {d a k c t} (h : s.memWf) : nextWf (execVcompress d a k c t s) := vIssue_memWf h

theorem execVexpand_memWf {s : State} {d a k c t} (h : s.memWf) : nextWf (execVexpand d a k c t s) := vIssue_memWf h

theorem execVscan_memWf {s : State} {d a n k c t} (h : s.memWf) : nextWf (execVscan d a n k c t s) := vIssue_memWf h

theorem execVfscan_memWf {s : State} {d a n k c t} (h : s.memWf) : nextWf (execVfscan d a n k c t s) := vIssue_memWf h

theorem execVrowbc_memWf {s : State} {d a b k c t} (h : s.memWf) : nextWf (execVrowbc d a b k c t s) := vIssue_memWf h

theorem execVredSum_memWf {s : State} {d a k c t} (h : s.memWf) : nextWf (execVredSum d a k c t s) := vIssue_memWf h

theorem execVredMax_memWf {s : State} {d a k c t} (h : s.memWf) : nextWf (execVredMax d a k c t s) := vIssue_memWf h

theorem execVredMin_memWf {s : State} {d a k c t} (h : s.memWf) : nextWf (execVredMin d a k c t s) := vIssue_memWf h

theorem execVredAnd_memWf {s : State} {d a k c t} (h : s.memWf) : nextWf (execVredAnd d a k c t s) := vIssue_memWf h

theorem execVredOr_memWf {s : State} {d a k c t} (h : s.memWf) : nextWf (execVredOr d a k c t s) := vIssue_memWf h

theorem execVredXor_memWf {s : State} {d a k c t} (h : s.memWf) : nextWf (execVredXor d a k c t s) := vIssue_memWf h

theorem execVredMaxu_memWf {s : State} {d a k c t} (h : s.memWf) : nextWf (execVredMaxu d a k c t s) := vIssue_memWf h

theorem execVredMinu_memWf {s : State} {d a k c t} (h : s.memWf) : nextWf (execVredMinu d a k c t s) := vIssue_memWf h

theorem execVfredSum_memWf {s : State} {d a k c t} (h : s.memWf) : nextWf (execVfredSum d a k c t s) := vIssue_memWf h

theorem execVfredMax_memWf {s : State} {d a k c t} (h : s.memWf) : nextWf (execVfredMax d a k c t s) := vIssue_memWf h

theorem execVfredMin_memWf {s : State} {d a k c t} (h : s.memWf) : nextWf (execVfredMin d a k c t s) := vIssue_memWf h

theorem execVcvth_memWf {s : State} {d a i f k c t} (h : s.memWf) : nextWf (execVcvth d a i f k c t s) := vIssue_memWf h

theorem execVcvtd_memWf {s : State} {d a u i f k c t} (h : s.memWf) : nextWf (execVcvtd d a u i f k c t s) := vIssue_memWf h

theorem execVcvti2f_memWf {s : State} {d a u k c t} (h : s.memWf) : nextWf (execVcvti2f d a u k c t s) := vIssue_memWf h

theorem execVcvtf2i_memWf {s : State} {d a u k c t} (h : s.memWf) : nextWf (execVcvtf2i d a u k c t s) := vIssue_memWf h

theorem execVcvt8_memWf {s : State} {d a k c t} (h : s.memWf) : nextWf (execVcvt8 d a k c t s) := vIssue_memWf h

theorem execVcvts_memWf {s : State} {d a k c t} (h : s.memWf) : nextWf (execVcvts d a k c t s) := vIssue_memWf h

theorem execVmv_memWf {s : State} {d a k c t} (h : s.memWf) : nextWf (execVmv d a k c t s) := vIssue_memWf h

theorem execVbcast_memWf {s : State} {d a k c t} (h : s.memWf) : nextWf (execVbcast d a k c t s) := vIssue_memWf h

theorem execVextr_memWf {s : State} {d a b c t} (h : s.memWf) : nextWf (execVextr d a b c t s) := vIssue_memWf h

theorem execVins_memWf {s : State} {d a b k c t} (h : s.memWf) : nextWf (execVins d a b k c t s) := vIssue_memWf h

theorem execVsel_memWf {s : State} {d a b k c t} (h : s.memWf) : nextWf (execVsel d a b k c t s) := vIssue_memWf h

theorem execVmrank_memWf {s : State} {d k c t} (h : s.memWf) : nextWf (execVmrank d k c t s) := vIssue_memWf h

theorem execVscld_memWf {s : State} {d a k c t} (h : s.memWf) : nextWf (execVscld d a k c t s) := vIssue_memWf h

theorem execVscst_memWf {s : State} {d a k c t} (h : s.memWf) : nextWf (execVscst d a k c t s) := vIssue_memWf h

theorem execVld_memWf {s : State} {d a k c t o y e} (h : s.memWf) : nextWf (execVld d a k c t o y e s) := vIssue_memWf h

theorem execVldStr_memWf {s : State} {d a b k c t o y e} (h : s.memWf) : nextWf (execVldStr d a b k c t o y e s) := vIssue_memWf h

theorem execVldX_memWf {s : State} {d a b k c t o y e} (h : s.memWf) : nextWf (execVldX d a b k c t o y e s) := vIssue_memWf h

theorem execVldChk_memWf {s : State} {d a b k c t o y e} (h : s.memWf) : nextWf (execVldChk d a b k c t o y e s) := vIssue_memWf h

theorem execVst_memWf {s : State} {d a k c t o y e} (h : s.memWf) : nextWf (execVst d a k c t o y e s) := vIssue_memWf h

theorem execVstStr_memWf {s : State} {d a b k c t o y e} (h : s.memWf) : nextWf (execVstStr d a b k c t o y e s) := vIssue_memWf h

theorem execVstX_memWf {s : State} {d a b k c t o y e} (h : s.memWf) : nextWf (execVstX d a b k c t o y e s) := vIssue_memWf h

theorem execVamoAdd_memWf {s : State} {d a b k c t o y} (h : s.memWf) : nextWf (execVamoAdd d a b k c t o y s) := vIssue_memWf h

theorem execVamoMin_memWf {s : State} {d a b k c t o y} (h : s.memWf) : nextWf (execVamoMin d a b k c t o y s) := vIssue_memWf h

theorem execVamoMax_memWf {s : State} {d a b k c t o y} (h : s.memWf) : nextWf (execVamoMax d a b k c t o y s) := vIssue_memWf h

theorem execVamoOr_memWf {s : State} {d a b k c t o y} (h : s.memWf) : nextWf (execVamoOr d a b k c t o y s) := vIssue_memWf h

theorem execVamoFadd_memWf {s : State} {d a b k c t o y} (h : s.memWf) : nextWf (execVamoFadd d a b k c t o y s) := vIssue_memWf h

theorem execVhash_memWf {s : State} {d a b k c t} (h : s.memWf) : nextWf (execVhash d a b k c t s) := vIssue_memWf h

theorem execVbucket_memWf {s : State} {d a b k c t} (h : s.memWf) : nextWf (execVbucket d a b k c t s) := vIssue_memWf h

theorem execVconf_memWf {s : State} {d a k c t} (h : s.memWf) : nextWf (execVconf d a k c t s) := vIssue_memWf h

theorem execVstrcmp_memWf {s : State} {d a b k c t} (h : s.memWf) : nextWf (execVstrcmp d a b k c t s) := vIssue_memWf h

theorem execVstrhash_memWf {s : State} {d a b k c t} (h : s.memWf) : nextWf (execVstrhash d a b k c t s) := vIssue_memWf h

theorem execSetvl_memWf {s : State} {d a e f l m c} (h : s.memWf) : nextWf (execSetvl d a e f l m c s) := by
  simp only [execSetvl]
  refine finish1_memWf ?_
  split
  · exact operandR_memWf h
  refine withRegs_memWf h fun _ hs => ?_
  repeat' split
  exacts [operandR_memWf h, setG_memWf hs, setG_memWf hs]

theorem execSetrc_memWf {s : State} {a t} (h : s.memWf) : nextWf (execSetrc a t s) := by
  simp only [execSetrc]
  refine finish1_memWf ?_
  split
  · exact operandR_memWf h
  refine withRegs_memWf h fun _ hs => ?_
  repeat' split
  exacts [operandR_memWf h, hs]

theorem drewRelay_memWf {s : State} (h : s.memWf) : (drewRelay s).memWf := h

theorem execVsplit_memWf {s : State} {a n t} (h : s.memWf) : nextWf (execVsplit a n t s) := by
  simp only [execVsplit]
  refine finish1_memWf ?_
  split
  · exact trapR_memWf h
  split
  · exact operandR_memWf h
  refine withRegs_memWf h fun _ hs => ?_
  repeat' split
  exacts [operandR_memWf h, trapR_memWf h, waitR_memWf h, drewRelay_memWf (setCur_memWf (foldl_memWf hs (fun _ _ hs => hs)))]

theorem mergeThread_memWf {s : State} (h : s.memWf) : (mergeThread s).memWf := by
  unfold mergeThread
  repeat' split
  exacts [h, setCur_memWf (postOnce_memWf h)]

theorem execVmerge_memWf {s : State} (h : s.memWf) : nextWf (execVmerge s) := by
  refine finish1_memWf ?_
  extract_lets hart t others fl s1 n s2
  have h1 : s1.memWf := foldl_memWf h fun _ _ hs => setHart_memWf hs
  split
  · exact trapR_memWf h
  split
  · exact operandR_memWf h
  split
  · exact h
  split
  · exact waitR_memWf h
  split
  · exact mergeThread_memWf h
  split
  · exact waitR_memWf h
  · exact drewRelay_memWf (setCur_memWf (setTile_memWf h1))

theorem execVpark_memWf {s : State} (h : s.memWf) : nextWf (execVpark s) := by
  unfold execVpark
  repeat' split
  exacts [finish1_memWf (trapR_memWf h), finish1_memWf (operandR_memWf h), finish1_memWf h]

theorem execConvoyIssue_memWf {s : State} {words} (h : s.memWf) : nextWf (execConvoyIssue words s) := finish_memWf (convoyBody_memWf h)

/-! ## Machine/Dispatch -/

theorem exec_memWf {s : State} {i} (h : s.memWf) : nextWf (exec i s) := by
  cases i
  exacts [
    execAdd_memWf h, execSub_memWf h, execMul_memWf h, execMulh_memWf h, execMulhu_memWf h, execDiv_memWf h, execDivu_memWf h, execRem_memWf h,
    execRemu_memWf h, execAnd_memWf h, execOr_memWf h, execXor_memWf h, execAndn_memWf h, execOrn_memWf h, execSll_memWf h, execSrl_memWf h,
    execSra_memWf h, execRol_memWf h, execRor_memWf h, execSlt_memWf h, execSltu_memWf h, execMin_memWf h, execMax_memWf h, execMinu_memWf h,
    execMaxu_memWf h, execClz_memWf h, execCtz_memWf h, execPopc_memWf h, execBswap_memWf h, execSext_memWf h, execZext_memWf h, execCmov_memWf h,
    execHmix_memWf h, execCrc32c_memWf h, execAddi_memWf h, execAndi_memWf h, execOri_memWf h, execXori_memWf h, execSlti_memWf h,
    execSltiu_memWf h, execSlli_memWf h, execSrli_memWf h, execSrai_memWf h, execRori_memWf h, execMovhi_memWf h, execAddpc_memWf h,
    execFadd_memWf h, execFsub_memWf h, execFmul_memWf h, execFdiv_memWf h, execFsqrt_memWf h, execFma_memWf h, execFnma_memWf h, execFmin_memWf h,
    execFmax_memWf h, execFeq_memWf h, execFlt_memWf h, execFle_memWf h, execFcvt_memWf h, execFclass_memWf h, execBeq_memWf h, execBne_memWf h,
    execBlt_memWf h, execBge_memWf h, execBltu_memWf h, execBgeu_memWf h, execJal_memWf h, execJalr_memWf h, execLd_memWf h, execSt_memWf h,
    execLdo_memWf (_c := ‹_›) h, execSto_memWf (_c := ‹_›) h, execAmoSwap_memWf (_c := ‹_›) h, execAmoCas_memWf (_c := ‹_›) h,
    execAmoAdd_memWf (_c := ‹_›) h, execAmoAnd_memWf (_c := ‹_›) h, execAmoOr_memWf (_c := ‹_›) h, execAmoXor_memWf (_c := ‹_›) h,
    execAmoMin_memWf (_c := ‹_›) h, execAmoMax_memWf (_c := ‹_›) h, execAmoMinu_memWf (_c := ‹_›) h, execAmoMaxu_memWf (_c := ‹_›) h,
    execAmoFadd_memWf (_c := ‹_›) h, execRedAdd_memWf (_c := ‹_›) h, execRedAnd_memWf (_c := ‹_›) h, execRedOr_memWf (_c := ‹_›) h,
    execRedXor_memWf (_c := ‹_›) h, execRedMin_memWf (_c := ‹_›) h, execRedMax_memWf (_c := ‹_›) h, execRedMinu_memWf (_c := ‹_›) h,
    execRedMaxu_memWf (_c := ‹_›) h, execRedFadd_memWf (_c := ‹_›) h, execFence_memWf h, execWatch_memWf h, execWaitw_memWf (_c := ‹_›) h,
    execBar_memWf (_c := ‹_›) h, execArrive_memWf (_c := ‹_›) h, execWaitb_memWf (_c := ‹_›) h, execMfc_memWf h, execMtc_memWf h, execMtci_memWf h,
    execCrsb_memWf h, execCrcb_memWf h, execTsackRetry_memWf h, execTsackFail_memWf h, execTsackFrame_memWf h,
    execTsackInvalid_memWf (_own := ‹_›) h, execNendWrite_memWf h, execWatermarkWrite_memWf h, execTrap_memWf h, execRfe_memWf h, execHalt_memWf h,
    execYield_memWf h, execYieldExpire_memWf h, execBrk_memWf h, execShoot_memWf h, execShootBroadcast_memWf h, execShootDrop_memWf h,
    execShootAck_memWf h, execShootComplete_memWf h, execCwb_memWf h, execCinv_memWf h, execCinvRange_memWf h, execCflush_memWf h,
    execVcdef_memWf h, execVcdefProceed_memWf h, execVcqry_memWf h, execLaunch_memWf h, execRetire_memWf h, execCtradd_memWf h, execCtrrd_memWf h,
    execCtrset_memWf h, execSetvl_memWf h, execVadd_memWf h, execVsub_memWf h, execVmul_memWf h, execVmulh_memWf h, execVmulhu_memWf h,
    execVand_memWf h, execVor_memWf h, execVxor_memWf h, execVsll_memWf h, execVsrl_memWf h, execVsra_memWf h, execVmin_memWf h, execVmax_memWf h,
    execVminu_memWf h, execVmaxu_memWf h, execVabsd_memWf h, execVadds_memWf h, execVsubs_memWf h, execVaddus_memWf h, execVsubus_memWf h,
    execVdot4_memWf h, execVmac_memWf h, execVfadd_memWf h, execVfsub_memWf h, execVfmul_memWf h, execVfma_memWf h, execVfnma_memWf h,
    execVfdiv_memWf h, execVfsqrt_memWf h, execVfmin_memWf h, execVfmax_memWf h, execVfabs_memWf h, execVfneg_memWf h, execVfscl_memWf h,
    execVsfuExp2_memWf h, execVsfuLog2_memWf h, execVsfuRcp_memWf h, execVsfuRsqrt_memWf h, execVsfuSin_memWf h, execVsfuCos_memWf h,
    execVsfuTanh_memWf h, execVsfuSigm_memWf h, execVcmp_memWf h, execVfcmp_memWf h, execMand_memWf h, execMor_memWf h, execMxor_memWf h,
    execMandn_memWf h, execMnot_memWf h, execMpopc_memWf h, execMfirst_memWf h, execMset_memWf h, execMclr_memWf h, execVperm_memWf h,
    execVslideup_memWf h, execVslidedn_memWf h, execVcompress_memWf h, execVexpand_memWf h, execVscan_memWf h, execVfscan_memWf h,
    execVrowbc_memWf h, execVredSum_memWf h, execVredMax_memWf h, execVredMin_memWf h, execVredAnd_memWf h, execVredOr_memWf h,
    execVredXor_memWf h, execVredMaxu_memWf h, execVredMinu_memWf h, execVfredSum_memWf h, execVfredMax_memWf h, execVfredMin_memWf h,
    execVcvth_memWf h, execVcvtd_memWf h, execVcvti2f_memWf h, execVcvtf2i_memWf h, execVcvt8_memWf h, execVcvts_memWf h, execVmv_memWf h,
    execVbcast_memWf h, execVextr_memWf h, execVins_memWf h, execVsel_memWf h, execVmrank_memWf h, execVscld_memWf h, execVscst_memWf h,
    execVld_memWf h, execVldStr_memWf h, execVldX_memWf h, execVldChk_memWf h, execVst_memWf h, execVstStr_memWf h, execVstX_memWf h,
    execVamoAdd_memWf h, execVamoMin_memWf h, execVamoMax_memWf h, execVamoOr_memWf h, execVamoFadd_memWf h, execVhash_memWf h,
    execVbucket_memWf h, execVconf_memWf h, execVstrcmp_memWf h, execVstrhash_memWf h, execSetrc_memWf h, execVsplit_memWf h, execVmerge_memWf h,
    execVpark_memWf h, execConvoyIssue_memWf h, execMld_memWf h, execMst_memWf h, execMma_memWf h, execMzero_memWf h, execMacc2v_memWf h,
    execMacc2t_memWf h, execMsync_memWf h, execMmaBegin_memWf h, execMatrixOpComplete_memWf h, execCopyLin_memWf h, execCopyDeint_memWf h,
    execCopyPerm_memWf h, execCopyVreg_memWf h, execCopyTile_memWf h, execStrm_memWf h, execUnstrm_memWf h, execRsv_memWf h, execUrsv_memWf h,
    execNodeNest_memWf h, execNodeCmd_memWf h, execPut_memWf h, execGet_memWf h, execRamo_memWf h, execRred_memWf h, execMcast_memWf h,
    execTpost_memWf h, execTcancel_memWf h, execFcfg_memWf h, execFrun_memWf h, execFrunResume_memWf h, execFhalt_memWf h,
    execCommandAccept_memWf h, execCopyBegin_memWf h, execCopyTransfer_memWf h, execCommandComplete_memWf h, execCommandNodeBegin_memWf h,
    execStreamEngineAccess_memWf h, execStreamComplete_memWf h, execCounterRaise_memWf h, execPostExamine_memWf h, execFiredOpHandoff_memWf h,
    execCounterRunGrant_memWf h, execCounterRunRevoke_memWf h, execWalkComplete_memWf h, execTsqRecordWrite_memWf h, execGets_memWf h,
    execGetm_memWf h, execUpg_memWf h, execPuts_memWf h, execPutm_memWf h, execRdat_memWf h, execDone_memWf h, execData_memWf h, execGnt_memWf h,
    execInv_memWf h, execRcls_memWf h, execRcli_memWf h, execIack_memWf h, execPack_memWf h, execErr_memWf h, execHomeServedAccess_memWf h,
    execHomeAtomic_memWf h, execMove_memWf (_dirty := ‹_›) h, execMack_memWf h, execMnak_memWf h, execMigrationSweep_memWf h,
    execMigrationEnd_memWf h, execDrainSweep_memWf h, execDrainDone_memWf h, execCorrectedBankError_memWf h, execUncorrectableBankError_memWf h,
    execPieceRegister_memWf h, execPositionQuery_memWf h, execPositionAnswer_memWf h, execPieceEnd_memWf h, execHostMemRead_memWf h,
    execHostMemInv_memWf h, execHostMemWrite_memWf h, execHostMemCleanEvict_memWf h, execBiResponse_memWf h, execBiConflict_memWf h,
    execH2dSnpData_memWf h, execH2dSnpInv_memWf h, execH2dSnpCur_memWf h, execH2dResponse_memWf h, execHeartbeatMiss_memWf h,
    execHostLinkFail_memWf (_link := ‹_›) h, execScrubStep_memWf h, execStoreSend_memWf h, execStoreAck_memWf h, execMergeFlushIdle_memWf h,
    execJoinMarkers_memWf h, execJoinMarkerArrive_memWf h, execJackSend_memWf h, execJackArrive_memWf (_circuit := ‹_›) h,
    execMonitorNotify_memWf h, execWatermarkRelease_memWf h, execLoadDataReturn_memWf h, execDispatchDecision_memWf h, execPoolEntryTaken_memWf h,
    execPointSetAside_memWf h, execPointRestore_memWf h, execQuantumExpiry_memWf h, execContextSwapBegin_memWf h, execContextSwapComplete_memWf h,
    execLaneStepChange_memWf h, execThermalHalt_memWf h, execIncomingPut_memWf h, execIncomingGet_memWf h, execIncomingRamo_memWf h,
    execIncomingRred_memWf h, execIncomingMcast_memWf h, execPodAnswer_memWf h, execMcastRoute_memWf h, execMcastMemberAnswer_memWf h,
    execPodMergeSend_memWf h, execRouterContribution_memWf h, execRouterElementTimeout_memWf h, execRouterAnswer_memWf h,
    execRouterReplicate_memWf h, execRouterEntryWrite_memWf h, execCrossbarDivergence_memWf h, execCrossbarRetrainDone_memWf h,
    execCorrectedLaneError_memWf (_slice := ‹_›) h, execCellFire_memWf h, execAwlElement_memWf h, execXlateTranslate_memWf h,
    execAwlExtentAnswer_memWf h, execMiuAccess_memWf h, execMiuBurstClose_memWf h, execAwlLoadReturn_memWf h, execPortElement_memWf h,
    execFabricRunComplete_memWf h, execCellFreeze_memWf h, execCutWrite_memWf h, execFreezeAbandon_memWf h, execPartitionStart_memWf h,
    execPartitionRemove_memWf h, execFeatureLock_memWf h, execSegmentRevoke_memWf h, execControlSpaceWrite_memWf h, execFretiaCsrRead_memWf h,
    execFretiaCsrWrite_memWf h, execFretiaBlackboxRead_memWf h, execFretiaGroupWrite_memWf h, execFretiaAttestation_memWf h, execColdReset_memWf h,
    execWarmReset_memWf h, execReservedEncoding_memWf (_word := ‹_›) h, execInstructionFetchFault_memWf h, execAgentReadmit_memWf h,
    execManagementSwap_memWf h, execScaleUpLinkFailure_memWf h]

/-! ## Machine/Fetch -/

theorem icFill_memWf {s : State} {t p x} (h : s.memWf) : (icFill s t p x).memWf := by
  unfold icFill
  repeat' split
  exacts [setTile_memWf (Acc.ok_memWf ‹_› (accRead_memWf h)), accRead_memWf h]

theorem fetchWord_memWf {s : State} {va} (h : s.memWf) : (fetchWord s va).memWf := by
  simp only [fetchWord]
  repeat' split
  · exact TrRes.fault_memWf ‹_› (xlateFetch_memWf h)
  · exact TrRes.ok_memWf ‹_› (xlateFetch_memWf h)
  · exact TrRes.ok_memWf ‹_› (xlateFetch_memWf h)
  · exact Acc.ok_memWf ‹_› (icFill_memWf (TrRes.ok_memWf ‹_› (xlateFetch_memWf h)))
  · exact Acc.wait_memWf ‹_› (icFill_memWf (TrRes.ok_memWf ‹_› (xlateFetch_memWf h)))
  · exact Acc.err_memWf ‹_› (icFill_memWf (TrRes.ok_memWf ‹_› (xlateFetch_memWf h)))

theorem fetchMore_memWf {s : State} {va n got} (h : s.memWf) : (fetchMore s va n got).memWf := by
  fun_induction fetchMore s va n got
  · exact h
  · exact ‹_ → _› (FetchRes.word_memWf ‹_› (fetchWord_memWf h))
  · exact FetchRes.wait_memWf ‹_› (fetchWord_memWf h)
  · exact FetchRes.fault_memWf ‹_› (fetchWord_memWf h)

theorem fetchConvoy_memWf {s : State} {va n got} (h : s.memWf) : (fetchConvoy s va n got).memWf := by
  fun_induction fetchConvoy s va n got
  · exact h
  · exact ‹_ → _› (FetchRes.word_memWf ‹_› (fetchWord_memWf h))
  · exact FetchRes.word_memWf ‹_› (fetchWord_memWf h)
  · exact FetchRes.word_memWf ‹_› (fetchWord_memWf h)
  · exact FetchRes.wait_memWf ‹_› (fetchWord_memWf h)
  · exact FetchRes.fault_memWf ‹_› (fetchWord_memWf h)
  · exact FetchRes.fault_memWf ‹_› (fetchWord_memWf h)

theorem leaveBar_memWf {s : State} {ws} (h : s.memWf) : (leaveBar s ws).memWf := by
  unfold leaveBar
  split
  · exact h
  split
  · exact h
  · exact setCur_memWf h

theorem fetchWords_memWf {s : State} (h : s.memWf) : (fetchWords s).memWf := by
  simp only [fetchWords]
  repeat' split
  · exact fetchMore_memWf (FetchRes.word_memWf ‹_› (fetchWord_memWf h))
  · exact fetchConvoy_memWf (FetchRes.word_memWf ‹_› (fetchWord_memWf h))
  · exact FetchRes.word_memWf ‹_› (fetchWord_memWf h)
  · exact FetchRes.wait_memWf ‹_› (fetchWord_memWf h)
  · exact FetchRes.fault_memWf ‹_› (fetchWord_memWf h)

theorem fetchIssue_memWf {s : State} (h : s.memWf) : (fetchIssue s).memWf := by
  unfold fetchIssue
  repeat' split
  exacts [leaveBar_memWf (Issue.words_memWf ‹_› (fetchWords_memWf h)), fetchWords_memWf h]

theorem atTurn_memWf {s : State} {hart} (h : s.memWf) : (atTurn s hart).memWf := h

theorem keepTurn_memWf {s t : State} {hart} (h : t.memWf) : (keepTurn s t hart).memWf := h

/-! ## Machine/Step -/

theorem runWords_memWf {s : State} {ws} (h : s.memWf) : nextWf (runWords s ws) := by
  unfold runWords
  repeat' split
  exacts [h, exec_memWf h, exec_memWf h, exec_memWf h]

theorem stepHart_memWf {s : State} {hart} (h : s.memWf) : nextWf (stepHart s hart) := by
  unfold stepHart
  repeat' split
  · exact runWords_memWf (Issue.words_memWf ‹_› (fetchIssue_memWf (atTurn_memWf h)))
  · exact setHart_memWf (Issue.wait_memWf ‹_› (fetchIssue_memWf (atTurn_memWf h)))
  · exact exec_memWf (Issue.fault_memWf ‹_› (fetchIssue_memWf (atTurn_memWf h)))

theorem tryHarts_memWf {s : State} {l} (h : s.memWf) : nextWf (tryHarts s l) := by
  induction l generalizing s with
  | nil => exact h
  | cons i r ih =>
    have hi : nextWf (stepHart s i) := stepHart_memWf h
    unfold tryHarts
    split
    · rename_i t ht
      have ht' : t.memWf := by
        rw [ht] at hi
        exact hi
      split
      · exact ht'
      · exact ih (keepTurn_memWf ht')
    · exact hi

theorem step_memWf {s : State} (h : s.memWf) : nextWf (step s) := by
  have hc : State.memWf { s with clock := s.clock + 1 } := update_memWf h rfl rfl
  unfold step
  extract_lets k
  split
  · rfl
  · exact tryHarts_memWf hc
  · exact exec_memWf (update_memWf h rfl rfl)
  · split
    · exact exec_memWf (update_memWf h rfl rfl)
    · exact tryHarts_memWf hc

end Sys2Proof.Machine
namespace Sys2Proof.Proofs
open Sys2Proof Sys2Proof.Machine

/-- Settles O7: every function between the byte written at home and the step keeps the form, so the step does. -/
theorem memoryStaysCanonical : Obligations.MemoryStaysCanonical := by
  intro s t h e
  have hn : nextWf (Machine.step s) := step_memWf h
  rw [e] at hn
  exact hn

end Sys2Proof.Proofs
end

section
/-! PROOFS. The statements of spec/03_coherence_and_cinches.md: the agent side of the coherence protocol. -/

namespace Sys2Proof.Machine
open Sys2Proof

/-! ## Copies and the agenda (R102) -/

@[simp] theorem copyOf_setCopy_same (s : State) (a gk : Nat) (c : Copy) : copyOf (setCopy s a gk c) a gk = some c := by simp [copyOf, setCopy]
@[simp] theorem setCopy_agenda (s : State) (a gk : Nat) (c : Copy) : (setCopy s a gk c).agenda = s.agenda := rfl
@[simp] theorem landBits_copies (s : State) (a gk : Nat) : (landBits s a gk).copies = s.copies := rfl
@[simp] theorem landBits_agenda (s : State) (a gk : Nat) : (landBits s a gk).agenda = s.agenda := rfl
@[simp] theorem liftBits_copies (s : State) (a gk : Nat) : (liftBits s a gk).copies = s.copies := rfl
@[simp] theorem liftBits_agenda (s : State) (a gk : Nat) : (liftBits s a gk).agenda = s.agenda := rfl
@[simp] theorem dropCopy_copies (s : State) (a gk : Nat) : (dropCopy s a gk).copies = mdel s.copies (ckey a gk) := rfl
@[simp] theorem dropCopy_agenda (s : State) (a gk : Nat) : (dropCopy s a gk).agenda = s.agenda := rfl
@[simp] theorem promote_copies (s : State) : (promote s).copies = s.copies := rfl
@[simp] theorem countForeign_copies (s : State) (a : Nat) : (countForeign s a).copies = s.copies := rfl
@[simp] theorem countForeign_agenda (s : State) (a : Nat) : (countForeign s a).agenda = s.agenda := rfl

@[simp] theorem toHome_copies (s : State) (a gk : Nat) (e : Event) : (toHome s a gk e).copies = s.copies := by
  unfold toHome
  split <;> rfl
@[simp] theorem toHome_agenda (s : State) (a gk : Nat) (e : Event) : (toHome s a gk e).agenda = s.agenda ++ [e] := by
  unfold toHome
  split <;> rfl

/-- The agenda is put in another order; nothing leaves it. -/
@[simp] theorem mem_promote_agenda (s : State) (e : Event) : e ∈ (promote s).agenda ↔ e ∈ s.agenda := by
  simp only [promote, List.mem_append, List.mem_filter, Bool.not_eq_true']
  cases isAccess e <;> simp

theorem copyOf_of_copies {s u : State} (h : u.copies = s.copies) (a gk : Nat) : copyOf u a gk = copyOf s a gk := by simp only [copyOf, h]
@[simp] theorem copyOf_toHome (s : State) (a gk b g : Nat) (e : Event) : copyOf (toHome s a gk e) b g = copyOf s b g := copyOf_of_copies (by simp) b g
@[simp] theorem copyOf_promote (s : State) (b g : Nat) : copyOf (promote s) b g = copyOf s b g := rfl
@[simp] theorem copyOf_landBits (s : State) (a gk b g : Nat) : copyOf (landBits s a gk) b g = copyOf s b g := rfl
@[simp] theorem copyOf_liftBits (s : State) (a gk b g : Nat) : copyOf (liftBits s a gk) b g = copyOf s b g := rfl
@[simp] theorem copyOf_post (s : State) (e : Event) (b g : Nat) : copyOf (post s e) b g = copyOf s b g := rfl

@[simp] theorem copyOf_dropCopy_same (s : State) (a gk : Nat) : copyOf (dropCopy s a gk) a gk = none := by simp [copyOf]
theorem copyOf_dropCopy_other (s : State) {a gk b g : Nat} (h : ckey b g ≠ ckey a gk) : copyOf (dropCopy s a gk) b g = copyOf s b g := by
  simp [copyOf, mfind_mdel_other _ _ h]

/-- No L1 shows a copy that has gone. -/
theorem not_mem_l1_dropCopy (s : State) (a gk t : Nat) : ∀ e ∈ (tileOf (dropCopy s a gk) t).l1, ¬(e.gk = gk ∧ e.agent = a) := by
  refine mgetD_map_of (P := fun x : Tile => ∀ e ∈ x.l1, ¬(e.gk = gk ∧ e.agent = a)) (m := s.tiles) (k := t)
    (f := fun _ x => { x with l1 := x.l1.filter fun e => !(e.gk == gk && e.agent == a) }) (fun x e he => ?_) (by simp [Tile.init])
  have hkeep := (List.mem_filter.mp he).2
  rintro ⟨hg, ha⟩
  simp [hg, ha] at hkeep

/-! ## A grant and its acknowledgements (R103) -/

/-- Once every acknowledgement is counted the agent owns the granule, and says so to the home. -/
theorem tryOwn_done (s : State) (a gk n : Nat) {c : Copy} (hn : c.need = some n) (h : n ≤ c.got) :
    copyOf (tryOwn s a gk c) a gk = some { c with st := .m, need := none, got := 0, asker := none } ∧ .done a gk ∈ (tryOwn s a gk c).agenda := by
  simp [tryOwn, hn, h]
theorem tryOwn_waits (s : State) (a gk n : Nat) {c : Copy} (hn : c.need = some n) (h : c.got < n) : tryOwn s a gk c = setCopy s a gk c := by
  simp [tryOwn, hn, Nat.not_le.mpr h]
theorem tryOwn_none (s : State) (a gk : Nat) {c : Copy} (hn : c.need = none) : tryOwn s a gk c = setCopy s a gk c := by simp [tryOwn, hn]

section
variable {s : State} {a gk : Nat} {c : Copy}

theorem onData_is (ha : a ≠ hostAgent) (hc : copyOf s a gk = some c) (hs : c.st = .is) (g : Grant) (n : Nat) (d : GData) : onData s a gk g n d
    = promote (landBits (setCopy s a gk { c with st := if g = .shared then .s else .e, data := d.data, mask := 0, psn := d.psn, asker := none }) a gk) := by
  simp [onData, ha, hc, hs]
theorem onData_owns (ha : a ≠ hostAgent) (hc : copyOf s a gk = some c) (hs : c.st = .im ∨ c.st = .sm) (g : Grant) (n : Nat) (d : GData) :
    onData s a gk g n d = tryOwn s a gk { c with data := d.data, mask := 0, psn := d.psn, need := some n } := by
  rcases hs with hs | hs <;> simp [onData, ha, hc, hs]
theorem onGnt_owns (ha : a ≠ hostAgent) (hc : copyOf s a gk = some c) (hs : c.st = .im ∨ c.st = .sm) (n : Nat) :
    onGnt s a gk n = tryOwn s a gk { c with need := some n } := by
  rcases hs with hs | hs <;> simp [onGnt, ha, hc, hs]
theorem onIack_owns (ha : a ≠ homeMark) (hc : copyOf s a gk = some c) (hs : c.st = .im ∨ c.st = .sm) (r : Nat) :
    onIack s a r gk = tryOwn s a gk { c with got := c.got + 1 } := by
  rcases hs with hs | hs <;> simp [onIack, ha, hc, hs]

/-- PACK ends an eviction, and means nothing to a copy that stays (R102). -/
theorem onPack_leaving (hc : copyOf s a gk = some c) (hs : c.st = .si ∨ c.st = .mi) : onPack s a gk = dropCopy s a gk := by
  rcases hs with hs | hs <;> simp [onPack, hc, hs]
theorem onPack_staying (hc : copyOf s a gk = some c) (h1 : c.st ≠ .si) (h2 : c.st ≠ .mi) : onPack s a gk = s := by simp [onPack, hc, h1, h2]

end

/-! ## Probes (R98, R102) -/

section
variable {s : State} {a gk req p : Nat} {c : Copy}

theorem onInv_holder (h : Claims.probed s a p) (hc : copyOf s a gk = some c) (hs : c.st = .s ∨ c.st = .e ∨ c.st = .m) :
    onInv s a gk req p = post (dropCopy s a gk) (.iack req a gk) := by
  obtain ⟨hf, ha, hp⟩ := h
  rcases hs with hs | hs | hs <;> simp only [onInv, hf, ha, hp, hc, hs, beq_iff_eq, Bool.false_eq_true, if_false]
theorem onInv_sm (h : Claims.probed s a p) (hc : copyOf s a gk = some c) (hs : c.st = .sm) :
    onInv s a gk req p = post (setCopy (dropCopy s a gk) a gk { c with st := .im }) (.iack req a gk) := by
  obtain ⟨hf, ha, hp⟩ := h
  simp only [onInv, hf, ha, hp, hc, hs, beq_iff_eq, Bool.false_eq_true, if_false]
theorem onInv_none (h : Claims.probed s a p) (hc : ∀ c, copyOf s a gk = some c → c.st = .si ∨ c.st = .mi) : onInv s a gk req p = post s (.iack req a gk) := by
  obtain ⟨hf, ha, hp⟩ := h
  cases hx : copyOf s a gk with
  | none => simp only [onInv, hf, ha, hp, hx, beq_iff_eq, Bool.false_eq_true, if_false]
  | some c => rcases hc c hx with hs | hs <;> simp only [onInv, hf, ha, hp, hx, hs, beq_iff_eq, Bool.false_eq_true, if_false]
theorem of_copyOf {P : Copy → Prop} (hc : copyOf s a gk = some c) (h : P c) : ∀ x, copyOf s a gk = some x → P x := fun x hx => by
  rw [hc] at hx
  cases hx
  exact h

/-- A probe for another partition is acknowledged and counted (R98). -/
theorem onInv_foreign (hf : s.fenced.contains a = false) (ha : a < 512) (hp : tilePart s a ≠ some p) : onInv s a gk req p = post (countForeign s a) (.iack req a gk) := by
  have hne : a ≠ hostAgent := by simp only [hostAgent]; omega
  have hfor : foreign s a p = true := by simp [foreign, ha, hp]
  simp only [onInv, hf, hne, hfor, beq_iff_eq, Bool.false_eq_true, if_false, if_true]

/-- The data with which an owner answers a recall: those of M. -/
def ownerData (c : Copy) : Option GData := if c.st = .m then some (copyData c) else none

/-- An owner answers a recall to S and keeps S, but where its line is being moved (R82). -/
theorem onRcls_stays (h : Claims.probed s a p) (hc : copyOf s a gk = some c) (hs : c.st = .m ∨ c.st = .e)
    (hm : anyLine s a gk (fun _ y => y.mv.isSome && !y.newmap) = false) :
    onRcls s a gk p = toHome (liftBits (setCopy s a gk { c with st := .s, mask := 0 }) a gk) a gk (.rdat a gk (ownerData c)) := by
  obtain ⟨hf, ha, hp⟩ := h
  rcases hs with hs | hs <;> simp [onRcls, ownerData, hf, ha, hp, hc, hs, hm, -List.contains_eq_mem]
theorem onRcls_moves (h : Claims.probed s a p) (hc : copyOf s a gk = some c) (hs : c.st = .m ∨ c.st = .e)
    (hm : anyLine s a gk (fun _ y => y.mv.isSome && !y.newmap) = true) :
    onRcls s a gk p = toHome (toHome (dropCopy s a gk) a gk (.puts a gk)) a gk (.rdat a gk (ownerData c)) := by
  obtain ⟨hf, ha, hp⟩ := h
  rcases hs with hs | hs <;> simp [onRcls, ownerData, hf, ha, hp, hc, hs, hm, -List.contains_eq_mem]
theorem onRcls_none (h : Claims.probed s a p) (hc : ∀ c, copyOf s a gk = some c → c.st = .si ∨ c.st = .mi) : onRcls s a gk p = toHome s a gk (.rdat a gk none) := by
  obtain ⟨hf, ha, hp⟩ := h
  cases hx : copyOf s a gk with
  | none => simp [onRcls, hf, ha, hp, hx, -List.contains_eq_mem]
  | some c => rcases hc c hx with hs | hs <;> simp [onRcls, hf, ha, hp, hx, hs, -List.contains_eq_mem]

/-- An owner answers a recall to I and keeps nothing. -/
theorem onRcli_owner (h : Claims.probed s a p) (hc : copyOf s a gk = some c) (hs : c.st = .m ∨ c.st = .e) :
    onRcli s a gk p = toHome (dropCopy s a gk) a gk (.rdat a gk (ownerData c)) := by
  obtain ⟨hf, ha, hp⟩ := h
  rcases hs with hs | hs <;> simp [onRcli, ownerData, hf, ha, hp, hc, hs, -List.contains_eq_mem]
theorem onRcli_none (h : Claims.probed s a p) (hc : ∀ c, copyOf s a gk = some c → c.st = .si ∨ c.st = .mi) : onRcli s a gk p = toHome s a gk (.rdat a gk none) := by
  obtain ⟨hf, ha, hp⟩ := h
  cases hx : copyOf s a gk with
  | none => simp [onRcli, hf, ha, hp, hx, -List.contains_eq_mem]
  | some c => rcases hc c hx with hs | hs <;> simp [onRcli, hf, ha, hp, hx, hs, -List.contains_eq_mem]

end

/-! ## Sharers (R97, R98) -/

/-- The cluster whose bit stands for agent a. -/
theorem clusterOf_eq (a : Nat) : (if a < 512 then a / 8 else a - 512) = Claims.clusterOf a := rfl

theorem testBit_eq_div_mod (n i : Nat) : n.testBit i = (n / 2 ^ i % 2 == 1) := by
  rw [Nat.testBit_eq_decide_div_mod_eq, Bool.beq_eq_decide_eq]

/-- Marking a tile or a pool sets the bit of its cluster and no other. -/
theorem testBit_coarseAdd (e : DirE) {a i : Nat} (hi : i < 64) : (coarseAdd e a).cv.toNat.testBit i = true ↔
    e.cv.toNat.testBit i = true ∨ a ≠ 576 ∧ Claims.clusterOf a = i := by
  by_cases h : a = 576
  · simp [coarseAdd, hostAgent, h]
  · have hb : (BitVec.ofNat 64 (2 ^ Claims.clusterOf a)).toNat.testBit i = decide (Claims.clusterOf a = i) := by
      rw [BitVec.toNat_ofNat, Nat.testBit_mod_two_pow, Nat.testBit_two_pow]
      simp [hi]
    simp only [coarseAdd, hostAgent, beq_iff_eq, h, if_false, clusterOf_eq, BitVec.toNat_or, Nat.testBit_or, hb, Bool.or_eq_true, decide_eq_true_eq]
    simp [h]

theorem testBit_coarseAdd_of (e : DirE) (a i : Nat) (h : e.cv.toNat.testBit i = true) : (coarseAdd e a).cv.toNat.testBit i = true := by
  unfold coarseAdd
  split
  · exact h
  · simp [BitVec.toNat_or, Nat.testBit_or, h]

theorem coarseAdd_h (e : DirE) (a : Nat) : (coarseAdd e a).h = (e.h || a == 576) := by
  by_cases h : a = 576 <;> simp [coarseAdd, hostAgent, h]
@[simp] theorem coarseAdd_coarse (e : DirE) (a : Nat) : (coarseAdd e a).coarse = e.coarse := by
  unfold coarseAdd
  split <;> rfl
@[simp] theorem coarseAdd_ptrs (e : DirE) (a : Nat) : (coarseAdd e a).ptrs = e.ptrs := by
  unfold coarseAdd
  split <;> rfl

/-- What a coarse entry is after several agents are marked. -/
theorem foldl_coarseAdd (l : List Nat) (e : DirE) : (l.foldl coarseAdd e).coarse = e.coarse ∧ (l.foldl coarseAdd e).ptrs = e.ptrs ∧
    ((l.foldl coarseAdd e).h = true ↔ e.h = true ∨ 576 ∈ l) ∧
    ∀ i < 64, (l.foldl coarseAdd e).cv.toNat.testBit i = true ↔ e.cv.toNat.testBit i = true ∨ ∃ x ∈ l, x ≠ 576 ∧ Claims.clusterOf x = i := by
  induction l generalizing e with
  | nil => simp
  | cons a l ih =>
    obtain ⟨hc, hp, hh, hv⟩ := ih (coarseAdd e a)
    refine ⟨by simpa using hc, by simpa using hp, ?_, fun i hi => ?_⟩
    · rw [List.foldl_cons, hh, coarseAdd_h]
      simp [or_assoc, @eq_comm _ 576 a]
    · rw [List.foldl_cons, hv i hi, testBit_coarseAdd e hi]
      simp [or_assoc]

/-- A coarse entry names the host by H and any other agent by its cluster. -/
theorem names_coarse {e : DirE} (h : e.coarse = true) (a : Nat) : names e a = true ↔ (a = 576 ∧ e.h = true) ∨ (a ≠ 576 ∧ e.cv.toNat.testBit (Claims.clusterOf a) = true) := by
  by_cases ha : a = 576
  · simp [names, h, hostAgent, ha]
  · simp only [names, h, hostAgent, if_true, beq_iff_eq, ha, if_false, clusterOf_eq, testBit_eq_div_mod]
    simp [ha]

theorem clusterOf_lt {a : Nat} (h : a ≤ 576) (hn : a ≠ 576) : Claims.clusterOf a < 64 := by
  unfold Claims.clusterOf
  split <;> omega

/-- Who else than the asker, and not fenced, a home probes: in the coarse form every tile and pool of a marked cluster that the partition has (R98). -/
theorem mem_probeSet_coarse {s : State} {e : DirE} {b req : Nat} (h : e.coarse = true) : b ∈ probeSet s e req ↔ b ≠ req ∧ b ∉ s.fenced ∧
    ((b < 512 ∧ e.cv.toNat.testBit (b / 8) = true ∧ inTileSet s (ownp e) b = true) ∨
     (512 ≤ b ∧ b < 576 ∧ e.cv.toNat.testBit (b - 512) = true ∧ holdsPool s (ownp e) (b - 512) = true) ∨ (b = 576 ∧ e.h = true)) := by
  have hpool : (∃ x, (x < 64 ∧ (e.cv.toNat / 2 ^ x % 2 == 1) = true ∧ holdsPool s (ownp e) x = true) ∧ 512 + x = b) ↔
      512 ≤ b ∧ b < 576 ∧ (e.cv.toNat / 2 ^ (b - 512) % 2 == 1) = true ∧ holdsPool s (ownp e) (b - 512) = true := by
    constructor
    · rintro ⟨x, ⟨hx, hb, hp⟩, rfl⟩
      exact ⟨by omega, by omega, by simpa using hb, by simpa using hp⟩
    · rintro ⟨h1, h2, hb, hp⟩
      exact ⟨b - 512, ⟨by omega, hb, hp⟩, by omega⟩
  have hhost : b ∈ (if e.h = true then [576] else []) ↔ b = 576 ∧ e.h = true := by cases e.h <;> simp
  simp only [probeSet, h, if_true, below, hostAgent, List.mem_filter, List.mem_append, List.mem_map, List.mem_range, Bool.and_eq_true, hpool, hhost, testBit_eq_div_mod,
    bne_iff_ne, Bool.not_eq_true', List.contains_eq_mem, decide_eq_false_iff_not]
  rw [and_comm, and_assoc, or_assoc]
theorem mem_probeSet_pointers {s : State} {e : DirE} {b req : Nat} (h : e.coarse = false) : b ∈ probeSet s e req ↔ b ∈ e.ptrs ∧ b ≠ req ∧ b ∉ s.fenced := by
  simp [probeSet, h]

/-! ## The vote (R108) -/

theorem vote_eq_some_iff (e : DirE) (i : BitVec 35) : vote e = some i ↔ (e.ida = i ∧ e.idb = i) ∨ (e.ida = i ∧ e.idc = i) ∨ (e.idb = i ∧ e.idc = i) := by
  unfold vote
  split
  · simp only [Option.some.injEq]
    grind
  · split <;> grind
theorem vote_eq_none_iff (e : DirE) : vote e = none ↔ e.ida ≠ e.idb ∧ e.ida ≠ e.idc ∧ e.idb ≠ e.idc := by
  unfold vote
  split
  · grind
  · split <;> grind
theorem ownp_of_vote {e : DirE} {i : BitVec 35} (h : vote e = some i) : ownp e = i.toNat / 2 ^ 29 := by simp [ownp, h]

/-- The identity of an entry holds the partition (R96). -/
theorem identOf_owner (gk : Nat) {p : Nat} (hp : p < 64) : (identOf gk p).toNat / 2 ^ 29 = p := by
  have h : (isHostGran gk).toNat ≤ 1 := by cases isHostGran gk <;> decide
  simp only [identOf, BitVec.toNat_ofNat]
  omega

end Sys2Proof.Machine
namespace Sys2Proof.Proofs
open Sys2Proof Sys2Proof.Machine

theorem agentProtocol : Claims.AgentProtocol := by
  intro s a gk n req p c d g
  refine ⟨fun ha hc => ⟨fun hs => congrArg Host.Outcome.next (onData_is ha hc hs g n d), fun hs => ⟨fun hn => ⟨?_, ?_⟩, fun hn => ⟨?_, ?_⟩, fun hm =>
      ⟨fun hd hn => ?_, fun hd hn => ?_, fun hd => ?_⟩⟩, fun hs => ?_, fun h1 h2 => ?_, fun hs => ?_, fun hs => ?_⟩,
    fun hp hc => ⟨fun hs => ?_, fun hs => ?_, fun hs => ?_, fun hs => ⟨fun hm => ?_, fun hm => ?_, ?_⟩, fun hs => ⟨fun hm => ?_, fun hm => ?_, ?_⟩, fun hs => ⟨?_, ?_⟩⟩,
    fun hp hc => ⟨?_, ?_⟩, ⟨copyOf_dropCopy_same s a gk, not_mem_l1_dropCopy s a gk, fun b h => copyOf_dropCopy_other s⟩, fun w r => ⟨fun hc => ?_, fun hc hs => ?_, fun hc hs => ?_⟩,
    fun hc => ⟨fun hs => ?_, fun hs => ?_⟩, fun hf ha hp => ?_⟩
  -- the grants and their acknowledgements
  · exact ⟨_, congrArg Host.Outcome.next (onData_owns ha hc hs g n d), tryOwn_done s a gk n rfl hn⟩
  · exact ⟨_, congrArg Host.Outcome.next (onGnt_owns ha hc hs n), tryOwn_done s a gk n rfl hn⟩
  · exact congrArg Host.Outcome.next ((onData_owns ha hc hs g n d).trans (tryOwn_waits s a gk n rfl hn))
  · exact congrArg Host.Outcome.next ((onGnt_owns ha hc hs n).trans (tryOwn_waits s a gk n rfl hn))
  · exact ⟨_, congrArg Host.Outcome.next (onIack_owns hm hc hs req), tryOwn_done s a gk n hd hn⟩
  · exact congrArg Host.Outcome.next ((onIack_owns hm hc hs req).trans (tryOwn_waits s a gk n hd hn))
  · exact congrArg Host.Outcome.next ((onIack_owns hm hc hs req).trans (tryOwn_none s a gk hd))
  -- PACK and ERR
  · exact congrArg Host.Outcome.next (onPack_leaving hc hs)
  · exact congrArg Host.Outcome.next (onPack_staying hc h1 h2)
  · rcases hs with hs | hs <;> simp [exec_err, execErr, onErr, ha, hc, hs]
  · simp [exec_err, execErr, onErr, ha, hc, hs]
  -- probes that meet a copy
  · exact congrArg Host.Outcome.next (onInv_holder hp hc hs)
  · exact ⟨_, congrArg Host.Outcome.next (onInv_sm hp hc hs), by simp, by simp⟩
  · exact congrArg Host.Outcome.next (onInv_none hp (of_copyOf hc hs))
  · exact ⟨_, congrArg Host.Outcome.next (onRcls_stays hp hc (.inl hs) hm), by simp, by simp [ownerData, copyData, hs]⟩
  · exact ⟨_, congrArg Host.Outcome.next (onRcls_moves hp hc (.inl hs) hm), by simp, by simp [ownerData, copyData, hs]⟩
  · exact ⟨_, congrArg Host.Outcome.next (onRcli_owner hp hc (.inl hs)), by simp, by simp [ownerData, copyData, hs]⟩
  · exact ⟨_, congrArg Host.Outcome.next (onRcls_stays hp hc (.inr hs) hm), by simp, by simp [ownerData, hs]⟩
  · exact ⟨_, congrArg Host.Outcome.next (onRcls_moves hp hc (.inr hs) hm), by simp, by simp [ownerData, hs]⟩
  · exact ⟨_, congrArg Host.Outcome.next (onRcli_owner hp hc (.inr hs)), by simp, by simp [ownerData, hs]⟩
  · exact ⟨_, congrArg Host.Outcome.next (onRcls_none hp (of_copyOf hc hs)), by simp, by simp⟩
  · exact ⟨_, congrArg Host.Outcome.next (onRcli_none hp (of_copyOf hc hs)), by simp, by simp⟩
  -- probes that meet none
  · exact congrArg Host.Outcome.next (onInv_none hp (by simp [hc]))
  · exact ⟨_, congrArg Host.Outcome.next (onRcls_none hp (by simp [hc])), by simp, by simp⟩
  -- the agent's own requests
  · exact ⟨_, by simp only [request, hc, copyOf_toHome]; exact copyOf_setCopy_same .., rfl, rfl, rfl, by simp [request, hc]⟩
  · exact ⟨by simp [request, hc, hs], by simp [request, hc, hs]⟩
  · rcases hs with hs | hs <;> simp [request, hc, hs]
  -- evictions
  · rcases hs with hs | hs <;> simp [evict, hc, hs]
  · simp [evict, hc, hs, copyData]
  · exact ⟨_, congrArg Host.Outcome.next (onInv_foreign hf ha hp), by simp, by simp, by simp [ctlWord, countForeign]⟩

theorem sharers : Claims.Sharers := by
  intro s e a b req
  refine ⟨fun hc ha hl => ?_, fun hc ha => ?_, fun hc ha hl hx => ?_, fun hc ha => ⟨?_, fun hb => ?_⟩, fun hc => ?_, fun hc => ?_, fun i => ?_, fun i hv => ?_, fun gk o l p hp => ?_, ?_⟩
  · simp [addSharer, hc, ha, hl]
  · simp [addSharer, hc, ha]
  · have he : addSharer e a = (e.ptrs ++ [a]).foldl coarseAdd { e with coarse := true, ptrs := [] } := by simp [addSharer, hc, ha, Nat.not_lt.mpr hl]
    obtain ⟨hcoarse, hptrs, hh, hv⟩ := foldl_coarseAdd (e.ptrs ++ [a]) { e with coarse := true, ptrs := [] }
    rw [← he] at hcoarse hptrs hh hv
    refine ⟨hcoarse, hptrs, fun x hxm => (names_coarse hcoarse x).mpr ?_, fun c hlt => ?_⟩
    · have hxl : x ∈ e.ptrs ++ [a] := by simpa [or_comm] using hxm
      by_cases h : x = 576
      · exact .inl ⟨h, hh.mpr (.inr (h ▸ hxl))⟩
      · exact .inr ⟨h, (hv _ (clusterOf_lt (hx x hxm) h)).mpr (.inr ⟨x, hxl, h, rfl⟩)⟩
    · rw [hv c hlt]
      simp [or_comm]
  · rw [names_coarse (by simp [addSharer, hc])]
    by_cases h : a = 576
    · simp [addSharer, hc, h, coarseAdd_h]
    · refine .inr ⟨h, ?_⟩
      simp only [addSharer, hc, if_true]
      exact (testBit_coarseAdd e (clusterOf_lt ha h)).mpr (.inr ⟨h, rfl⟩)
  · have he : addSharer e a = coarseAdd e a := by simp [addSharer, hc]
    rw [names_coarse (by simp [he, hc]), he, coarseAdd_h]
    rcases (names_coarse hc b).mp hb with ⟨h, hh⟩ | ⟨h, hv⟩
    · exact .inl ⟨h, by simp [hh]⟩
    · exact .inr ⟨h, testBit_coarseAdd_of e a _ hv⟩
  · exact mem_probeSet_pointers hc
  · exact mem_probeSet_coarse hc
  · exact vote_eq_some_iff e i
  · exact ownp_of_vote hv
  · have hv : vote (newDir gk o l p) = some (identOf gk p) := by simp [vote, newDir]
    exact ⟨hv, (ownp_of_vote hv).trans (identOf_owner gk hp)⟩
  · exact vote_eq_none_iff e

/-- Settles O58: the agent's table message by message, and the sharers of an entry from the bits that mark them. -/
theorem agentCoherence : Obligations.AgentCoherence := ⟨agentProtocol, sharers⟩

end Sys2Proof.Proofs
end

section
/-! PROOFS. The statements of spec/03_coherence_and_cinches.md: vector memory. -/

namespace Sys2Proof.Machine
open Sys2Proof

/-! ## A vector load whose base is misaligned and whose rows are not (R35, R311) -/

/-- What a trap leaves of the unit-stride register: the trap state does not hold it (R413). -/
theorem curH_takeTrap_ustr {s : State} {c sub : Nat} {a r : Word} (hv : bitOf (partOf s (curPart s)).tvec 0 = true) (hx : bitOf (curH s).tr.estat 1 = false) :
    (curH (takeTrap s c sub a r)).ustr = (curH s).ustr := by
  simp [takeTrap, hv, hx]

/-- Partition 0 with a trap vector; its hart 0 has lanes, and its g1 names the middle of a double word. -/
def vectorTrapper : State :=
  let s := setG (setG (State.reset.withFetchWord 32 0x04611000) 1 0x40104) 3 2
  setPart s 0 { partOf s 0 with tvec := 1 }
/-- Its thread has 64-bit elements, two a row, and two rows, 4 bytes apart; only row 1 of m1 is set. -/
def splitRows : State :=
  match execSetvl 4 3 4 0 0 0 0 vectorTrapper with
  | .next s =>
    let s := setCur s { curH s with v := { (curH s).v with vrc := 2, vrs := 4 } }
    setTile s 0 (setMBit (tileOf s 0) 15 1 1 0 true)
  | _ => State.reset
/-- VLD of v2 from [g1] under m1. -/
def splitLoad : VW := ⟨0x2A, 2, 1, 0, 1, false, 0⟩

/-- Whether a next state's hart has loaded its unit-stride register. -/
def loadsUstr (o : Host.Outcome State Fault Refusal) : Bool :=
  match o with
  | .next t => (curH t).ustr.isSome
  | _ => false

/-- The load issues, and its base is not aligned. -/
theorem issues_splitLoad : Claims.Issues splitRows splitLoad := by decide +kernel
theorem not_baseAligned_splitLoad : ¬Claims.baseAligned splitRows splitLoad (Claims.seen splitRows splitLoad) := by decide +kernel
/-- The only access, at g1 + 4, is aligned; its translation loads the register though the base then traps. -/
theorem loadsUstr_splitLoad : loadsUstr (exec (.vld 2 1 1 false false false false 0) splitRows) = true := by decide +kernel
theorem traps_splitRows : bitOf (partOf splitRows (curPart splitRows)).tvec 0 = true ∧ bitOf (curH splitRows).tr.estat 1 = false ∧
    (curH splitRows).ustr = none := by decide +kernel

end Sys2Proof.Machine

namespace Sys2Proof.Proofs
open Sys2Proof Sys2Proof.Machine

/-- Refutes O46: a misaligned base does not leave the state as it was but for the trap. Where the base is misaligned and the one active row, its stride
further on, is aligned, the accesses are probed before the trap is taken, and the hart's unit-stride register is loaded with their translation. -/
theorem not_vectorMemory : ¬Obligations.VectorMemory := by
  intro h
  obtain ⟨load, -⟩ := h splitRows 2 1 0 1 false false false 0
  obtain ⟨va, he⟩ := (load issues_splitLoad).2 not_baseAligned_splitLoad
  obtain ⟨hvec, hexl, hustr⟩ := traps_splitRows
  have hload := loadsUstr_splitLoad
  rw [he, Claims.traps, loadsUstr, curH_takeTrap_ustr hvec hexl, hustr] at hload
  cases hload

end Sys2Proof.Proofs
end

section
/-! PROOFS. The statements of spec/03_coherence_and_cinches.md: the home side of the coherence protocol. -/

namespace Sys2Proof.Machine
open Sys2Proof Sys2Proof.Claims

/-! ## The gate of a request (R93, R98, R101, R108, R113) -/

section
variable {s : State} {a gk : Nat} {wr : Bool} {e : Event}

theorem gate_fenced (h : a ∈ s.fenced) : gate s a gk wr e = .done s := by simp [gate, h]
theorem gate_txn {t : Txn} (ha : a ∉ s.fenced) (hs : (stackOf s (granStack gk)).stopped = false) (ht : mfind s.txns gk = some t) :
    gate s a gk wr e = .done (waitOn s gk e) := by simp [gate, ha, hs, ht]

/-- With the source in service and no transaction, a request meets the Cinch pieces. -/
theorem gate_free (ha : a ∉ s.fenced) (hs : (stackOf s (granStack gk)).stopped = false) (ht : mfind s.txns gk = none) : gate s a gk wr e =
    match clash s gk wr a 100 (some (e, 0)) with
    | .trap => .done (refuse s a gk cRSVC)
    | .held s => .done s
    | .free =>
      if !homeAllows s a gk then .done (refuseForeign s a gk wr)
      else match dirOf s gk with
      | none => .pass
      | some d =>
        if (vote d).isNone then .done (machineCheck s (granStack gk))
        else if d.bad then .done (waitOn (recallBad s gk d) gk e)
        else if isHostGran gk && reqPart s a gk != some (ownp d) then
          .done (if (mfind (recallAll s gk).txns gk).isSome then waitOn (recallAll s gk) gk e else post (recallAll s gk) e)
        else .pass := by
  simp only [gate, List.contains_eq_mem, ha, hs, ht]
  rfl

end

/-- Each of the three requests ends as its gate says. -/
theorem request_done {q : (Nat → Nat → Instr) × (Nat → Nat → Event) × Bool} (hq : q ∈ homeRequests) {s u : State} {a gk : Nat}
    (h : gate s a gk q.2.2 (q.2.1 a gk) = .done u) : exec (q.1 a gk) s = .next u := by
  simp only [homeRequests, List.mem_cons, List.not_mem_nil, or_false] at hq
  rcases hq with rfl | rfl | rfl
  · simp only [exec_gets, execGets, onGets, h]
  · simp only [exec_getm, execGetm, onGetm, h]
  · simp only [exec_upg, execUpg, onUpg, h]

/-! ## A full set (R105) -/

theorem needsRoom_none {s : State} {gk : Nat} (e : Event) (h : (setMates s gk).length < 16) : needsRoom s gk e = none := by simp [needsRoom, h]

/-- A recall of an entry that some agent holds opens its transaction. -/
theorem recallAll_held {s : State} {g : Nat} {d : DirE} (hd : dirOf s g = some d) (hp : probeSet s d homeMark ≠ []) : recallAll s g =
    posts (begun s g 3 homeMark (probeSet s d homeMark)) ((probeSet s d homeMark).map fun a => if d.owned then .rcli a g (ownp d) else .inv a g homeMark (ownp d)) := by
  simp only [recallAll, recallFor, hd, List.isEmpty_iff, hp, if_false]
  rfl

/-- The entry of a full set that leaves is recalled, and the request waits for it. -/
theorem needsRoom_full {s : State} {gk g : Nat} {d : DirE} (e : Event) (hl : 16 ≤ (setMates s gk).length)
    (hg : (setMates s gk).find? (fun g => (mfind s.txns g).isNone) = some g) (hd : dirOf s g = some d) (hv : (vote d).isSome = true) (hb : d.bad = false)
    (hp : probeSet s d homeMark ≠ []) : needsRoom s gk e = some (waitOn (recallAll s g) g e) := by
  have hopen : (mfind (recallAll s g).txns g).isSome = true := by simp [recallAll_held hd hp, posts, begun]
  have hvote : (vote d).isNone = false := by simpa using hv
  simp only [needsRoom, Nat.not_lt.mpr hl, if_false, hg, hd, hvote, hb, Bool.false_eq_true, hopen, if_true]

/-! ## Error answers (R94, R116) -/

theorem errFor_refuse {s : State} {a gk code : Nat} {x y : Event × Nat} (h : (copyOf s a gk).bind (·.asker) = some x) :
    errFor (refuse s a gk code) a gk (some x) = some (ckey a gk, x, code) ∧ (y ≠ x → errFor (refuse s a gk code) a gk (some y) = errFor s a gk (some y)) := by
  simp only [errFor, refuse, h, post_errs]
  generalize ckey a gk = k
  refine ⟨by simp, fun hy => ?_⟩
  rw [List.find?_cons_of_neg (by simpa using fun e => hy e.symm), List.find?_filter]
  congr 1
  funext z
  by_cases hz : z.2.1 = y <;> simp [hz, hy, Bool.beq_eq_decide_eq]

/-! ## Requests that are served (R101) -/

section
variable {s : State} {a gk o : Nat} {d : DirE}

/-- GETS of a granule without an entry, in a set with room (R95, R111). -/
theorem onGets_none (hs : served s a gk false (.gets a gk)) (hd : dirOf s gk = none) (hr : roomy s gk) : onGets s a gk =
    setDir (sendData s a gk (if pieceShares s gk then .shared else .excl) 0) gk (newDir gk (!pieceShares s gk) [a] ((regionOwner s (gk * 128)).getD 0)) := by
  simp only [onGets, show gate s a gk false (.gets a gk) = .pass from hs, hd, needsRoom_none _ hr.2, hr.1, granOwner]
  cases pieceShares s gk <;> rfl
theorem onGets_shared (hs : served s a gk false (.gets a gk)) (hd : dirOf s gk = some d) (ho : d.owned = false) :
    onGets s a gk = setDir (sendData s a gk .shared 0) gk (addSharer d a) := by
  simp only [onGets, show gate s a gk false (.gets a gk) = .pass from hs, hd, ho, Bool.not_false, if_true]
theorem onGets_owned (hs : served s a gk false (.gets a gk)) (hd : dirOf s gk = some d) (ho : d.owned = true) (hp : d.ptrs = [o]) (hne : o ≠ a) : onGets s a gk =
    if o ∈ s.fenced then setDir (sendData (poisonHome s gk) a gk .shared 0) gk (newDir gk false [a] (ownp d)) else post (begun s gk 1 a [o]) (.rcls o gk (ownp d)) := by
  simp only [onGets, show gate s a gk false (.gets a gk) = .pass from hs, hd, ho, hp, List.headD_cons, Bool.not_true, Bool.false_eq_true, if_false, beq_iff_eq, hne, List.contains_eq_mem,
    decide_eq_true_eq]
  rfl

theorem onGetm_none (hs : served s a gk true (.getm a gk)) (hd : dirOf s gk = none) (hr : roomy s gk) : onGetm s a gk =
    setDir (sendData s a gk .modified 0) gk (newDir gk true [a] ((regionOwner s (gk * 128)).getD 0)) := by
  simp only [onGetm, show gate s a gk true (.getm a gk) = .pass from hs, hd, needsRoom_none _ hr.2, hr.1, granOwner, Bool.false_eq_true, if_false]
theorem onGetm_shared (hs : served s a gk true (.getm a gk)) (hd : dirOf s gk = some d) (ho : d.owned = false) (ha : a ≠ hostAgent) (hh : isHostGran gk = false) :
    onGetm s a gk = grantAll s gk a d true := by
  simp only [onGetm, show gate s a gk true (.getm a gk) = .pass from hs, hd, ho, hh, Bool.not_false, if_true, beq_iff_eq, ha, Bool.false_eq_true, if_false]
theorem onGetm_owned (hs : served s a gk true (.getm a gk)) (hd : dirOf s gk = some d) (ho : d.owned = true) (hp : d.ptrs = [o]) (hne : o ≠ a) : onGetm s a gk =
    if o ∈ s.fenced then setDir (sendData (poisonHome s gk) a gk .modified 0) gk (newDir gk true [a] (ownp d)) else post (begun s gk 2 a [o]) (.rcli o gk (ownp d)) := by
  simp only [onGetm, show gate s a gk true (.getm a gk) = .pass from hs, hd, ho, hp, List.headD_cons, Bool.not_true, Bool.false_eq_true, if_false, beq_iff_eq, hne, List.contains_eq_mem,
    decide_eq_true_eq]
  rfl

theorem onUpg_named (hs : served s a gk true (.upg a gk)) (hd : dirOf s gk = some d) (ho : d.owned = false) (ha : a ≠ hostAgent) (hh : isHostGran gk = false) (hn : names d a = true) :
    onUpg s a gk = grantAll s gk a d false := by
  simp only [onUpg, show gate s a gk true (.upg a gk) = .pass from hs, hd, ho, hn, hh, Bool.not_false, Bool.and_self, if_true, beq_iff_eq, ha, Bool.false_eq_true, if_false]
/-- UPG from an agent that the entry does not name in S is GETM. -/
theorem onUpg_unnamed (hs : served s a gk true (.upg a gk)) (hd : dirOf s gk = some d) (h : d.owned = true ∨ names d a = false) : onUpg s a gk = onGetm s a gk := by
  have hc : (!d.owned && names d a) = false := by rcases h with h | h <;> simp [h]
  simp only [onUpg, show gate s a gk true (.upg a gk) = .pass from hs, hd, hc, Bool.false_eq_true, if_false]

end

/-! ## Write-backs (R101, R104) -/

section
variable {s : State} {a gk : Nat} {x : GData} {d : DirE} {t : Txn}

theorem givenBack_device (s : State) {gk : Nat} (h : isHostGran gk = false) (b : Bool) : givenBack s gk b = s := by simp [givenBack, h]
@[simp] theorem dirOf_post (s : State) (e : Event) (gk : Nat) : dirOf (post s e) gk = dirOf s gk := rfl

theorem onPuts_txn (ha : a ∉ s.fenced) (ht : mfind s.txns gk = some t) :
    onPuts s a gk = { post s (.pack a gk) with txns := mput s.txns gk { t with leave := a :: t.leave } } := by simp [onPuts, ha, ht]
theorem onPuts_none (ha : a ∉ s.fenced) (ht : mfind s.txns gk = none) (hd : dirOf s gk = none) : onPuts s a gk = post s (.pack a gk) := by simp [onPuts, ha, ht, hd]
theorem onPuts_noMajority (ha : a ∉ s.fenced) (ht : mfind s.txns gk = none) (hd : dirOf s gk = some d) (hv : vote d = none) :
    onPuts s a gk = machineCheck (post s (.pack a gk)) (granStack gk) := by simp [onPuts, ha, ht, hd, hv]

/-- PUTS at an entry that is sound, of device memory. -/
theorem onPuts_entry (ha : a ∉ s.fenced) (hh : isHostGran gk = false) (ht : mfind s.txns gk = none) (hd : dirOf s gk = some d) (hv : (vote d).isSome = true) : onPuts s a gk =
    if d.bad then recallBad (post s (.pack a gk)) gk d
    else if d.coarse || !d.ptrs.contains a then post s (.pack a gk)
    else if d.owned || d.ptrs.length == 1 then delDir (post s (.pack a gk)) gk
    else setDir (post s (.pack a gk)) gk { d with ptrs := d.ptrs.filter (· != a) } := by
  simp only [onPuts, List.contains_eq_mem, ha, decide_false, Bool.false_eq_true, if_false, post_txns, ht, dirOf_post, hd, Option.isNone_eq_false_iff.mpr hv, givenBack_device _ hh]

theorem onPutm_noMajority (ha : a ∉ s.fenced) (ht : mfind s.txns gk = none) (hd : dirOf s gk = some d) (hv : vote d = none) :
    onPutm s a gk x = machineCheck (post s (.pack a gk)) (granStack gk) := by simp [onPutm, ha, ht, hd, hv]
theorem onPutm_entry (ha : a ∉ s.fenced) (hh : isHostGran gk = false) (ht : mfind s.txns gk = none) (hd : dirOf s gk = some d) (hv : (vote d).isSome = true) : onPutm s a gk x =
    if d.bad then recallBad (post s (.pack a gk)) gk d
    else if d.owned && d.ptrs.contains a then delDir (hostWrote (post s (.pack a gk)) a gk x) gk
    else post s (.pack a gk) := by
  simp only [onPutm, List.contains_eq_mem, ha, decide_false, Bool.false_eq_true, if_false, post_txns, ht, dirOf_post, hd, Option.isNone_eq_false_iff.mpr hv, givenBack_device _ hh]
/-- PUTM of an agent whose answer a recall waits for. -/
theorem onPutm_due (ha : a ∉ s.fenced) (ht : mfind s.txns gk = some t) (hk : t.kind ∈ [1, 2, 3, 4]) (hdue : a ∈ t.due) : onPutm s a gk x =
    { hostWrote (post s (.pack a gk)) a gk x with txns := mput s.txns gk { t with putm := true, leave := if a = hostAgent then t.leave else a :: t.leave } } := by
  have h0 : t.kind ≠ 0 := by rintro h; simp [h] at hk
  have h5 : t.kind ≠ 5 := by rintro h; simp [h] at hk
  simp [onPutm, ha, ht, hdue, h0, h5]

theorem hostWrote_agent (s : State) (h : a ≠ hostAgent) (gk : Nat) (x : GData) : hostWrote s a gk x = writeGran s gk x := by simp [hostWrote, h]
theorem hostWrote_host (s : State) (gk : Nat) (h : x.mask ≠ 0) : hostWrote s hostAgent gk x = notifyGran (writeGran s gk x) gk := by
  rw [hostWrote, if_pos (by simpa using h)]

end

/-! ## Answers to a transaction (R101) -/

/-- The bytes of a granule and its poison are all that a write-back changes. -/
theorem writeGran_eq (s : State) (gk : Nat) (x : GData) : ∃ m h p, writeGran s gk x = { s with mem := m, hostMem := h, psn := p } := by
  have hloop : ∃ m h, loop 128 (putMaskedByte gk x) s = { s with mem := m, hostMem := h } := by
    refine loop_keeps (fun u => ∃ m h, u = { s with mem := m, hostMem := h }) (fun i u ⟨m, h, hu⟩ => ?_) 128 ⟨s.mem, s.hostMem, rfl⟩
    simp only [hu, putMaskedByte, setHomeByte]
    split
    · split <;> exact ⟨_, _, rfl⟩
    · exact ⟨_, _, rfl⟩
  obtain ⟨m, h, hl⟩ := hloop
  rw [writeGran_eq_loop, hl]
  exact ⟨_, _, _, rfl⟩
/-- What does not look at home memory is as before a write-back. -/
theorem writeGran_keeps {α : Type} (f : State → α) (s : State) (gk : Nat) (x : GData) (hf : ∀ m h p, f { s with mem := m, hostMem := h, psn := p } = f s) :
    f (writeGran s gk x) = f s := by
  obtain ⟨m, h, p, e⟩ := writeGran_eq s gk x
  rw [e, hf]
@[simp] theorem writeGran_dir (s : State) (gk : Nat) (x : GData) : (writeGran s gk x).dir = s.dir := writeGran_keeps (·.dir) s gk x fun _ _ _ => rfl
@[simp] theorem writeGran_txns (s : State) (gk : Nat) (x : GData) : (writeGran s gk x).txns = s.txns := writeGran_keeps (·.txns) s gk x fun _ _ _ => rfl
@[simp] theorem writeGran_agenda (s : State) (gk : Nat) (x : GData) : (writeGran s gk x).agenda = s.agenda := writeGran_keeps (·.agenda) s gk x fun _ _ _ => rfl
@[simp] theorem writeGran_waitq (s : State) (gk : Nat) (x : GData) : (writeGran s gk x).waitq = s.waitq := writeGran_keeps (·.waitq) s gk x fun _ _ _ => rfl
@[simp] theorem writeGran_fenced (s : State) (gk : Nat) (x : GData) : (writeGran s gk x).fenced = s.fenced := writeGran_keeps (·.fenced) s gk x fun _ _ _ => rfl

/-- Of what the end of a transaction reads, k differs from s in home memory and in the transactions alone. -/
structure SameButHome (s k : State) : Prop where
  dir : k.dir = s.dir
  fenced : k.fenced = s.fenced
  agenda : k.agenda = s.agenda
  waitq : k.waitq = s.waitq

/-- s once the answers to transaction t of gk are all in. -/
def allIn (s : State) (gk : Nat) (t : Txn) : State := { s with txns := mput s.txns gk { t with due := [] } }
/-- The same, the last answer of agent o with data. -/
def allInDirty (s : State) (o gk : Nat) (x : GData) (t : Txn) : State :=
  allIn { hostWrote s o gk x with txns := mput s.txns gk { t with putm := true } } gk { t with putm := true }

theorem sameButHome_allIn (s : State) (gk : Nat) (t : Txn) : SameButHome s (allIn s gk t) := ⟨rfl, rfl, rfl, rfl⟩
theorem sameButHome_allInDirty {s : State} {o : Nat} (h : o ≠ hostAgent) (gk : Nat) (x : GData) (t : Txn) : SameButHome s (allInDirty s o gk x t) := by
  rw [allInDirty, hostWrote_agent s h]
  exact ⟨writeGran_dir s gk x, writeGran_fenced s gk x, writeGran_agenda s gk x, writeGran_waitq s gk x⟩
/-- Home memory is as the write-back leaves it. -/
theorem allInDirty_home {s : State} {o : Nat} (h : o ≠ hostAgent) (gk : Nat) (x : GData) (t : Txn) : (allInDirty s o gk x t).mem = (writeGran s gk x).mem ∧
    (allInDirty s o gk x t).hostMem = (writeGran s gk x).hostMem ∧ (allInDirty s o gk x t).psn = (writeGran s gk x).psn := by
  rw [allInDirty, hostWrote_agent s h]
  exact ⟨rfl, rfl, rfl⟩

/-- The home's data depend on home memory and its poison alone. -/
theorem homeData_congr {s u : State} (h : u.mem = s.mem ∧ u.hostMem = s.hostMem ∧ u.psn = s.psn) (gk : Nat) : homeData u gk = homeData s gk := by
  obtain ⟨hm, hh, hp⟩ := h
  simp only [homeData, homeGran, homeByte, hm, hh, hp]

/-- The last answer ends the transaction. -/
theorem answered_last {s : State} {gk o : Nat} {t : Txn} (ht : mfind s.txns gk = some t) (hdue : t.due = [o]) : answered s o gk = settle (allIn s gk t) gk { t with due := [] } := by
  simp [answered, ht, hdue, allIn]
theorem onRdat_clean {s : State} {gk o : Nat} {t : Txn} (ho : o ∉ s.fenced) (ht : mfind s.txns gk = some t) (hdue : t.due = [o]) :
    onRdat s o gk none = settle (allIn s gk t) gk { t with due := [] } := by
  simp only [onRdat, List.contains_eq_mem, ho, decide_false, Bool.false_eq_true, if_false, ht, answered_last ht hdue]
/-- Dirty data go home before the transaction ends. -/
theorem onRdat_dirty {s : State} {gk o : Nat} {t : Txn} {x : GData} (ho : o ∉ s.fenced) (ht : mfind s.txns gk = some t) (hdue : t.due = [o]) (hk : t.kind ≠ 5) :
    onRdat s o gk (some x) = settle (allInDirty s o gk x t) gk { t with putm := true, due := [] } := by
  simp only [onRdat, List.contains_eq_mem, ho, decide_false, Bool.false_eq_true, if_false, ht, beq_iff_eq, hk]
  exact answered_last (t := { t with putm := true }) (mfind_mput_same ..) hdue

/-- What is left when the transaction ends on a state that differs from s, beside home memory and the transaction, by the entry and by messages l. -/
theorem leftB_endTxn {s u : State} {gk : Nat} {e : Option DirE} {l : List Event} (hd : dirOf u gk = e) (ha : u.agenda = s.agenda ++ l) (hw : u.waitq = s.waitq) :
    leftB s (endTxn u gk) gk e l :=
  ⟨mfind_mdel_same .., hd, by rw [← ha, ← hw]; rfl, mfind_mdel_same ..⟩
@[simp] theorem dirOf_setDir_same (s : State) (gk : Nat) (e : DirE) : dirOf (setDir s gk e) gk = some e := mfind_mput_same ..
@[simp] theorem dirOf_delDir_same (s : State) (gk : Nat) : dirOf (delDir s gk) gk = none := mfind_mdel_same ..

section
variable {s k : State} {gk : Nat} {t : Txn} {d : DirE}

/-- The end of a transaction that gives a copy in S: the owner, where it keeps one, and the asker share the granule. -/
theorem settle_shared (h : SameButHome s k) (hk : t.kind = 1) (hd : dirOf s gk = some d) (hr : t.req ∉ s.fenced) :
    (settle k gk t).mem = k.mem ∧ (settle k gk t).psn = k.psn ∧ leftB s (settle k gk t) gk
      (some (newDir gk false ((d.ptrs.filter fun a => !t.leave.contains a && !s.fenced.contains a) ++ [t.req]) (ownp d))) [.data t.req gk .shared 0 (homeData k gk)] := by
  have hdk : dirOf k gk = some d := by rw [dirOf, h.dir]; exact hd
  have he : settle k gk t = endTxn (setDir (sendData k t.req gk .shared 0) gk
      (newDir gk false ((d.ptrs.filter fun a => !t.leave.contains a && !s.fenced.contains a) ++ [t.req]) (ownp d))) gk := by
    simp [settle, hk, hdk, h.fenced, hr, sharedBy]
  rw [he]
  exact ⟨rfl, rfl, leftB_endTxn (dirOf_setDir_same ..) (congrArg (· ++ _) h.agenda) h.waitq⟩
theorem settle_modified (h : SameButHome s k) (hk : t.kind = 2) (hd : dirOf s gk = some d) (hr : t.req ∉ s.fenced) :
    (settle k gk t).mem = k.mem ∧ (settle k gk t).psn = k.psn ∧ leftB s (settle k gk t) gk (some (newDir gk true [t.req] (ownp d))) [.data t.req gk .modified 0 (homeData k gk)] := by
  have hdk : dirOf k gk = some d := by rw [dirOf, h.dir]; exact hd
  have he : settle k gk t = endTxn (setDir (sendData k t.req gk .modified 0) gk (newDir gk true [t.req] (ownp d))) gk := by
    simp [settle, hk, hdk, h.fenced, hr, ownedBy, sendData]
  rw [he]
  exact ⟨rfl, rfl, leftB_endTxn (dirOf_setDir_same ..) (congrArg (· ++ _) h.agenda) h.waitq⟩
theorem settle_done (hk : t.kind = 0) (hd : dirOf s gk = some d) (hr : t.req ∉ s.fenced) :
    (settle s gk t).mem = s.mem ∧ leftB s (settle s gk t) gk (some (newDir gk true [t.req] (ownp d))) [] := by
  have he : settle s gk t = endTxn (setDir s gk (newDir gk true [t.req] (ownp d))) gk := by simp [settle, hk, hd, hr, ownedBy]
  rw [he]
  exact ⟨rfl, leftB_endTxn (dirOf_setDir_same ..) (List.append_nil _).symm rfl⟩
/-- The end of a recall that the home began for itself, of device memory. -/
theorem settle_recall (h : SameButHome s k) (hk : t.kind = 3) (hr : t.req = homeMark) (hh : isHostGran gk = false) :
    (settle k gk t).mem = k.mem ∧ leftB s (settle k gk t) gk none [] := by
  have he : settle k gk t = endTxn (delDir k gk) gk := by simp [settle, hk, recallEnd, hr, homeMark, hostAgent, givenBack_device _ hh]
  rw [he]
  exact ⟨rfl, leftB_endTxn (dirOf_delDir_same ..) (h.agenda.trans (List.append_nil _).symm) h.waitq⟩

end

end Sys2Proof.Machine
namespace Sys2Proof.Proofs
open Sys2Proof Sys2Proof.Machine

theorem requestsAtTheHome : Claims.RequestsAtTheHome := by
  intro s a gk q hq
  refine ⟨fun u => request_done hq, fun ha => request_done hq (gate_fenced ha), fun ha hs => ⟨fun t ht => request_done hq (gate_txn ha hs ht), fun ht => ?_⟩, ?_, fun code x y => ⟨errFor_refuse, ?_, ?_⟩⟩
  · have hgate := gate_free (wr := q.2.2) (e := q.2.1 a gk) ha hs ht
    refine ⟨fun hc => request_done hq (by rw [hgate, hc]; rfl), fun u hc => request_done hq (by rw [hgate, hc]), fun hc => ?_⟩
    rw [hc] at hgate
    refine ⟨fun hn => request_done hq (hgate.trans ?_), fun d hal hd => ?_⟩
    · have hcode : (if (!q.2.2 && s.psn.contains gk) = true then cPOISON else cPROT + 256 * 4) = if q.2.2 = false ∧ gk ∈ s.psn then 0x0A else 0x05 + 256 * 4 := by
        simp [cPOISON, cPROT]
      simp only [hn, Bool.not_false, if_true, refuseForeign, hcode]
    · simp only [hal, hd, Bool.not_true, Bool.false_eq_true, if_false] at hgate
      refine ⟨fun hv => request_done hq (hgate.trans ?_), fun hv hb => request_done hq (hgate.trans ?_), fun hv hb hh hp => request_done hq (hgate.trans ?_)⟩
      · simp only [hv, Option.isNone_none, if_true]
      · rw [if_neg (by simp [Option.isNone_eq_false_iff.mpr hv]), if_pos hb]
      · rw [if_neg (by simp [Option.isNone_eq_false_iff.mpr hv]), if_neg (by simp [hb]), if_pos (by simp [hh, hp])]
  · intro hne hs hd hl g e hg he hv hb hp
    simp only [Claims.homeRequests, List.mem_cons, List.not_mem_nil, or_false] at hq
    rcases hq with rfl | rfl | rfl
    · simp only [exec_gets, execGets, onGets, show gate s a gk false (.gets a gk) = .pass from hs, hd, needsRoom_full _ hl hg he hv hb hp]
    · simp only [exec_getm, execGetm, onGetm, show gate s a gk true (.getm a gk) = .pass from hs, hd, needsRoom_full _ hl hg he hv hb hp]
    · exact absurd rfl hne
  · intro h
    simp [refuse, h]
  · simp [refuse]

theorem homeProtocol : Claims.HomeProtocol := by
  intro s a gk o d x t
  refine ⟨fun hs => ⟨?_, ?_, ?_, ?_, ?_⟩, fun hs => ⟨?_, ?_, ?_, ?_⟩, ?_, ?_, fun ha => ⟨?_, ?_, ?_, ?_⟩,
    fun ha hh => ⟨fun ht hd hv => ⟨?_, ?_⟩, fun ht hd hv hb => ⟨?_, ?_⟩, fun ht hd hv hb hc hm => ⟨fun ho => ?_, fun ho hl => ?_, fun ho => ?_⟩,
      fun ht hd hv hb => ⟨fun h => ?_, fun h => ?_⟩, fun ht hd => ?_, fun ht => ?_, fun ht hk hdue => ?_, ?_, ?_⟩, ?_, ?_, ?_, ?_, ?_⟩
  -- GETS
  · intro hd hr hp
    exact congrArg Host.Outcome.next ((onGets_none hs hd hr).trans (by simp [hp]))
  · intro hd hr hp
    exact congrArg Host.Outcome.next ((onGets_none hs hd hr).trans (by simp [hp]))
  · exact fun hd ho => congrArg Host.Outcome.next (onGets_shared hs hd ho)
  · exact fun hd ho hp hne hf => congrArg Host.Outcome.next ((onGets_owned hs hd ho hp hne).trans (if_neg hf))
  · exact fun hd ho hp hne hf => congrArg Host.Outcome.next ((onGets_owned hs hd ho hp hne).trans (if_pos hf))
  -- GETM
  · exact fun hd hr => congrArg Host.Outcome.next (onGetm_none hs hd hr)
  · exact fun hd ho ha hh => congrArg Host.Outcome.next (onGetm_shared hs hd ho ha hh)
  · exact fun hd ho hp hne hf => congrArg Host.Outcome.next ((onGetm_owned hs hd ho hp hne).trans (if_neg hf))
  · exact fun hd ho hp hne hf => congrArg Host.Outcome.next ((onGetm_owned hs hd ho hp hne).trans (if_pos hf))
  -- UPG
  · exact fun hs hd ho ha hh hn => congrArg Host.Outcome.next (onUpg_named hs hd ho ha hh hn)
  · exact fun hs hd h => congrArg Host.Outcome.next (onUpg_unnamed hs hd h)
  -- messages of a fenced agent
  · simp [exec_puts, execPuts, onPuts, ha]
  · simp [exec_putm, execPutm, onPutm, ha]
  · simp [exec_done, execDone, onDone, ha]
  · simp [exec_rdat, execRdat, onRdat, ha]
  -- PUTS and PUTM
  · exact congrArg Host.Outcome.next (onPuts_noMajority ha ht hd hv)
  · exact congrArg Host.Outcome.next (onPutm_noMajority ha ht hd hv)
  · exact congrArg Host.Outcome.next ((onPuts_entry ha hh ht hd hv).trans (if_pos hb))
  · exact congrArg Host.Outcome.next ((onPutm_entry ha hh ht hd hv).trans (if_pos hb))
  · refine congrArg Host.Outcome.next ((onPuts_entry ha hh ht hd hv).trans ?_)
    rw [if_neg (by simp [hb]), if_neg (by simpa [hc] using hm), if_pos (by simpa using ho)]
  · refine congrArg Host.Outcome.next ((onPuts_entry ha hh ht hd hv).trans ?_)
    rw [if_neg (by simp [hb]), if_neg (by simpa [hc] using hm), if_neg (by simp [ho, hl])]
  · refine congrArg Host.Outcome.next ((onPutm_entry ha hh ht hd hv).trans ?_)
    rw [if_neg (by simp [hb]), if_pos (by simpa [ho] using hm)]
  · refine congrArg Host.Outcome.next ((onPuts_entry ha hh ht hd hv).trans ?_)
    rw [if_neg (by simp [hb]), if_pos (by simpa using h)]
  · refine congrArg Host.Outcome.next ((onPutm_entry ha hh ht hd hv).trans ?_)
    rw [if_neg (by simp [hb]), if_neg (by rcases h with h | h <;> simp [h, -List.contains_eq_mem])]
  · exact congrArg Host.Outcome.next (onPuts_none ha ht hd)
  · exact congrArg Host.Outcome.next (onPuts_txn ha ht)
  · exact congrArg Host.Outcome.next (onPutm_due ha ht hk hdue)
  · exact fun h => hostWrote_agent s h gk x
  · exact hostWrote_host s gk
  -- answers to a transaction
  · intro ha ho hoh ⟨ht, hd⟩ hown hp hdue hreq hleave
    subst hreq
    have hkeeps : (d.ptrs.filter fun a => !t.leave.contains a && !s.fenced.contains a) = [o] := by simp [hp, hleave, ho]
    have hclean := sameButHome_allIn s gk t
    have hdirty := sameButHome_allInDirty (s := s) hoh gk x t
    have hhome := allInDirty_home (s := s) hoh gk x t
    refine ⟨fun hk => ⟨?_, ?_⟩, fun hk => ⟨?_, ?_⟩⟩
    · obtain ⟨hm, -, hl⟩ := settle_shared (t := { t with due := [] }) hclean hk hd ha
      rw [hkeeps] at hl
      exact ⟨_, congrArg Host.Outcome.next (onRdat_clean ho ht hdue), hm, hl⟩
    · obtain ⟨hm, hps, hl⟩ := settle_shared (t := { t with putm := true, due := [] }) hdirty hk hd ha
      rw [hkeeps, homeData_congr hhome] at hl
      exact ⟨_, congrArg Host.Outcome.next (onRdat_dirty ho ht hdue (by simp [hk])), hm.trans hhome.1, hps.trans hhome.2.2, hl⟩
    · obtain ⟨hm, -, hl⟩ := settle_modified (t := { t with due := [] }) hclean hk hd ha
      exact ⟨_, congrArg Host.Outcome.next (onRdat_clean ho ht hdue), hm, hl⟩
    · obtain ⟨hm, hps, hl⟩ := settle_modified (t := { t with putm := true, due := [] }) hdirty hk hd ha
      rw [homeData_congr hhome] at hl
      exact ⟨_, congrArg Host.Outcome.next (onRdat_dirty ho ht hdue (by simp [hk])), hm.trans hhome.1, hps.trans hhome.2.2, hl⟩
  · intro ha ho ⟨ht, hd⟩ hown hp hdue hreq hleave hk
    subst hreq
    have hgone : (d.ptrs.filter fun a => !t.leave.contains a && !s.fenced.contains a) = [] := by simp [hp, hleave]
    obtain ⟨hm, -, hl⟩ := settle_shared (t := { t with due := [] }) (sameButHome_allIn s gk t) hk hd ha
    rw [hgone] at hl
    exact ⟨_, congrArg Host.Outcome.next (onRdat_clean ho ht hdue), hm, hl⟩
  · intro ht
    simp [exec_rdat, execRdat, onRdat, ht]
  · intro ha ⟨ht, hd⟩ hk hreq
    subst hreq
    refine ⟨_, ?_, settle_done hk hd ha⟩
    simp [exec_done, execDone, onDone, ha, ht, hk]
  · intro ha hah hh ⟨ht, hd⟩ hk hdue hreq
    obtain ⟨hm, hl⟩ := settle_recall (t := { t with putm := true, due := [] }) (sameButHome_allInDirty hah gk x t) hk hreq hh
    exact ⟨_, congrArg Host.Outcome.next (onRdat_dirty ha ht hdue (by simp [hk])), hm.trans (allInDirty_home hah gk x t).1, hl⟩

/-- Settles O57: the gate and the table of the home row by row, and the end of a transaction from what it reads of the state. -/
theorem homeCoherence : Obligations.HomeCoherence := ⟨requestsAtTheHome, homeProtocol⟩

end Sys2Proof.Proofs
end

section
/-! PROOFS. The statements of spec/03_coherence_and_cinches.md: the host as an agent, and agents that die. -/

namespace Sys2Proof.Machine
open Sys2Proof Sys2Proof.Claims

/-- A transaction just begun is found. -/
@[simp] theorem mfind_begun (s : State) (gk kind req : Nat) (due : List Nat) : mfind (begun s gk kind req due).txns gk = some ⟨kind, req, due, false, []⟩ := mfind_mput_same ..

/-! ## Recalls that the host asks for (R122, R124) -/

section
variable {s : State} {gk o : Nat} {d : DirE}

/-- An entry that no agent owns needs no recall to S. -/
theorem recallSharedFor_unowned (h : dirOf s gk = none ∨ ∃ e, dirOf s gk = some e ∧ e.owned = false) (who : Nat) : recallSharedFor s gk who = s := by
  rcases h with h | ⟨e, h, he⟩ <;> simp [recallSharedFor, *]
theorem recallSharedFor_owned (hd : dirOf s gk = some d) (ho : d.owned = true) (hp : d.ptrs = [o]) (hf : o ∉ s.fenced) (who : Nat) :
    recallSharedFor s gk who = post (begun s gk 4 who [o]) (.rcls o gk (ownp d)) := by
  simp only [recallSharedFor, hd, ho, hp, List.contains_eq_mem, hf, decide_false, Bool.false_eq_true, if_false]
  rfl
theorem recallFor_held (hd : dirOf s gk = some d) (hp : probeSet s d homeMark ≠ []) (who : Nat) : recallFor s gk who =
    posts (begun s gk 3 who (probeSet s d homeMark)) ((probeSet s d homeMark).map fun a => if d.owned then .rcli a gk (ownp d) else .inv a gk homeMark (ownp d)) := by
  simp only [recallFor, hd, List.isEmpty_iff, hp, if_false]
  rfl

/-- A HOST_MEM_READ that leaves the entry takes the current data, once an owner's are at home. -/
theorem execHostMemRead_now {k : HostSnp} (hk : k ∈ [HostSnp.cur, HostSnp.none]) (hg : gate s 576 gk false (.hostMemRead gk k) = .pass)
    (h : dirOf s gk = none ∨ ∃ e, dirOf s gk = some e ∧ e.owned = false) : execHostMemRead gk k s = .next (send s (.host 16 gk (some (currentData s gk)))) := by
  simp only [List.mem_cons, List.not_mem_nil, or_false] at hk
  rcases hk with rfl | rfl <;> rcases h with h | ⟨e, h, he⟩ <;> simp [execHostMemRead, hostAgent, *]
theorem execHostMemRead_waits {k : HostSnp} (hk : k ∈ [HostSnp.cur, HostSnp.none]) (hg : gate s 576 gk false (.hostMemRead gk k) = .pass)
    (hd : dirOf s gk = some d) (ho : d.owned = true) (hp : d.ptrs = [o]) (hne : o ≠ 576) (hf : o ∉ s.fenced) :
    execHostMemRead gk k s = .next (waitOn (post (begun s gk 4 homeMark [o]) (.rcls o gk (ownp d))) gk (.hostMemRead gk k)) := by
  have hr : recallShared s gk = post (begun s gk 4 homeMark [o]) (.rcls o gk (ownp d)) := recallSharedFor_owned hd ho hp hf homeMark
  simp only [List.mem_cons, List.not_mem_nil, or_false] at hk
  rcases hk with rfl | rfl <;> simp [execHostMemRead, hostAgent, *]

end

/-! ## The requests to the host for its own memory (R106, R124) -/

section
variable {s : State} {gk a kind code : Nat}

theorem onGets_host (hs : served s a gk false (.gets a gk)) (hd : dirOf s gk = none) (hl : (setMates s gk).length < 16) (hh : isHostGran gk = true) :
    onGets s a gk = askHost s a gk 6 9 := by
  simp only [onGets, show gate s a gk false (.gets a gk) = .pass from hs, hd, needsRoom_none _ hl, hh, if_true]
theorem onGetm_host (hs : served s a gk true (.getm a gk)) (hd : dirOf s gk = none) (hl : (setMates s gk).length < 16) (hh : isHostGran gk = true) :
    onGetm s a gk = askHost s a gk 7 10 := by
  simp only [onGetm, show gate s a gk true (.getm a gk) = .pass from hs, hd, needsRoom_none _ hl, hh, if_true]
theorem onGetm_host_shared {d : DirE} (hs : served s a gk true (.getm a gk)) (hd : dirOf s gk = some d) (ho : d.owned = false) (ha : a ≠ hostAgent) (hh : isHostGran gk = true) :
    onGetm s a gk = askHost s a gk 7 10 := by
  simp only [onGetm, show gate s a gk true (.getm a gk) = .pass from hs, hd, ho, hh, Bool.not_false, if_true, beq_iff_eq, ha, if_false]
theorem onUpg_host {d : DirE} (hs : served s a gk true (.upg a gk)) (hd : dirOf s gk = some d) (ho : d.owned = false) (ha : a ≠ hostAgent) (hh : isHostGran gk = true)
    (hn : names d a = true) : onUpg s a gk = askHost s a gk 10 11 := by
  simp only [onUpg, show gate s a gk true (.upg a gk) = .pass from hs, hd, ho, hn, hh, Bool.not_false, Bool.and_self, if_true, beq_iff_eq, ha, if_false]

/-- The request that goes out to the host, and the step of its answer. -/
def asksHost (k : State) (gk code : Nat) : State := post (send k (.host code gk none)) (.h2dResponse gk (homeData k gk))

theorem askHost_fresh (hf : 576 ∉ s.fenced) (hd : dirOf s gk = none) :
    askHost s a gk kind code = asksHost (begun (setDir s gk (newDir gk false [] (granOwner s a gk))) gk kind a [576]) gk code := by
  have h : (576 ∈ (setDir s gk (newDir gk false [] (granOwner s a gk))).fenced) = False := by simpa [setDir] using hf
  simp only [askHost, hd, hostAgent, Option.isNone_none, if_true, List.contains_eq_mem, h, decide_false, Bool.false_eq_true, if_false]
  rfl
theorem askHost_entry {d : DirE} (hf : 576 ∉ s.fenced) (hd : dirOf s gk = some d) : askHost s a gk kind code = asksHost (begun s gk kind a [576]) gk code := by
  simp only [askHost, hd, hostAgent, Option.isNone_some, Bool.false_eq_true, if_false, List.contains_eq_mem, hf, decide_false]
  rfl

end

/-! ## The host's writes (R122) -/

/-- What a write of the host meets at the pieces: none holds the data that come before the answer to a snoop. -/
def writeClash (s : State) (gk : Nat) (x : GData) : Clash :=
  if ∃ y ∈ s.bis, y.1 = gk then .free else clash s gk true 576 100 (some (.hostMemWrite gk x, 0))

theorem execHostMemWrite_eq {s : State} {gk : Nat} {x : GData} {c : Clash} (h : 576 ∉ s.fenced) (hc : writeClash s gk x = c) : execHostMemWrite gk x s = .next
    (match c with
      | .trap => refuse s 576 gk 0x08
      | .held s => s
      | .free => if isHostGran gk = true ∨ homeAllows s 576 gk = false then refuse (logHome s 0 (gk * 128)) 576 gk (0x05 + 256 * 4) else send (onPutm s 576 gk x) (.host 17 gk none)) := by
  have hcond : (if (s.bis.any fun y => y.1 == gk) = true then Clash.free else clash s gk true hostAgent 100 (some (.hostMemWrite gk x, 0))) = c := by
    have hany : (s.bis.any fun y => y.1 == gk) = true ↔ ∃ y ∈ s.bis, y.1 = gk := by simp
    simp only [hany]
    exact hc
  have hf : s.fenced.contains hostAgent = false := by simpa [hostAgent] using h
  simp only [execHostMemWrite, hf, hcond, Bool.false_eq_true, if_false, Bool.or_eq_true, Bool.not_eq_true']
  cases c <;> rfl

/-! ## The ends of transactions that concern the host (R122, R124) -/

theorem hostWrote_eq (s : State) (a gk : Nat) (x : GData) : hostWrote s a gk x = writeGran s gk x ∨ hostWrote s a gk x = notifyGran (writeGran s gk x) gk := by
  unfold hostWrote
  split
  · exact .inr rfl
  · exact .inl rfl
@[simp] theorem hostWrote_dir (s : State) (a gk : Nat) (x : GData) : (hostWrote s a gk x).dir = s.dir := by
  rcases hostWrote_eq s a gk x with h | h <;> (rw [h]; exact writeGran_dir s gk x)
@[simp] theorem hostWrote_fenced (s : State) (a gk : Nat) (x : GData) : (hostWrote s a gk x).fenced = s.fenced := by
  rcases hostWrote_eq s a gk x with h | h <;> (rw [h]; exact writeGran_fenced s gk x)
@[simp] theorem hostWrote_out (s : State) (a gk : Nat) (x : GData) : (hostWrote s a gk x).out = s.out := by
  rcases hostWrote_eq s a gk x with h | h <;> (rw [h]; exact writeGran_keeps (·.out) s gk x fun _ _ _ => rfl)
@[simp] theorem hostWrote_hostMem (s : State) (a gk : Nat) (x : GData) : (hostWrote s a gk x).hostMem = (writeGran s gk x).hostMem := by
  rcases hostWrote_eq s a gk x with h | h <;> rw [h] <;> rfl

theorem onIack_home (s : State) (o gk : Nat) : onIack s homeMark o gk = answered s o gk := by simp [onIack]
@[simp] theorem dirOf_endTxn (s : State) (gk g : Nat) : dirOf (endTxn s gk) g = dirOf s g := rfl
@[simp] theorem dirOf_notifyGran (s : State) (gk g : Nat) : dirOf (notifyGran s gk) g = dirOf s g := rfl
@[simp] theorem dirOf_send (s : State) (o : Out) (g : Nat) : dirOf (send s o) g = dirOf s g := rfl
@[simp] theorem mfind_endTxn (s : State) (gk : Nat) : mfind (endTxn s gk).txns gk = none := mfind_mdel_same ..
@[simp] theorem endTxn_out (s : State) (gk : Nat) : (endTxn s gk).out = s.out := rfl
@[simp] theorem endTxn_hostMem (s : State) (gk : Nat) : (endTxn s gk).hostMem = s.hostMem := rfl
@[simp] theorem notifyGran_out (s : State) (gk : Nat) : (notifyGran s gk).out = s.out := rfl
@[simp] theorem notifyGran_hostMem (s : State) (gk : Nat) : (notifyGran s gk).hostMem = s.hostMem := rfl
@[simp] theorem setDir_out (s : State) (gk : Nat) (e : DirE) : (setDir s gk e).out = s.out := rfl
@[simp] theorem setDir_hostMem (s : State) (gk : Nat) (e : DirE) : (setDir s gk e).hostMem = s.hostMem := rfl
@[simp] theorem delDir_out (s : State) (gk : Nat) : (delDir s gk).out = s.out := rfl
@[simp] theorem delDir_hostMem (s : State) (gk : Nat) : (delDir s gk).hostMem = s.hostMem := rfl
@[simp] theorem allIn_out (s : State) (gk : Nat) (t : Txn) : (allIn s gk t).out = s.out := rfl

section
variable {s : State} {gk o : Nat} {x : GData} {t : Txn} {d : DirE}

/-- Beside the transaction, a last answer with data leaves what the write-back leaves. -/
@[simp] theorem dirOf_allInDirty (s : State) (o gk : Nat) (x : GData) (t : Txn) (g : Nat) : dirOf (allInDirty s o gk x t) g = dirOf s g := congrArg (mfind · g) (hostWrote_dir s o gk x)
@[simp] theorem allInDirty_fenced (s : State) (o gk : Nat) (x : GData) (t : Txn) : (allInDirty s o gk x t).fenced = s.fenced := hostWrote_fenced s o gk x
@[simp] theorem allInDirty_out (s : State) (o gk : Nat) (x : GData) (t : Txn) : (allInDirty s o gk x t).out = s.out := hostWrote_out s o gk x
@[simp] theorem allInDirty_hostMem (s : State) (o gk : Nat) (x : GData) (t : Txn) : (allInDirty s o gk x t).hostMem = (writeGran s gk x).hostMem := hostWrote_hostMem s o gk x

/-- The end of a recall to I that the host's snoop asked for. -/
theorem settle_snoopInv (hk : t.kind = 3) (hr : t.req = hostAgent) :
    settle s gk t = endTxn (notifyGran (send (delDir s gk) (.host (if t.putm then 13 else 12) gk none)) gk) gk := by
  simp [settle, hk, recallEnd, hr]
/-- The end of a recall to S that the host's snoop asked for; the owner keeps a copy. -/
theorem settle_snoopData (hk : t.kind = 4) (hr : t.req = hostAgent) (hd : dirOf s gk = some d) (hp : d.ptrs = [o]) (ho : o ∉ s.fenced) (hl : o ∉ t.leave) :
    settle s gk t = endTxn (send (setDir s gk { d with owned := false }) (.host (if t.putm then 15 else 14) gk none)) gk := by
  have hkeeps : (d.ptrs.filter fun a => !t.leave.contains a && !s.fenced.contains a) = d.ptrs := by simp [hp, hl, ho]
  simp only [settle, hk, hd, hkeeps, recallEnd, hr, beq_self_eq_true, if_true]
  simp [hp]
/-- The end of a recall to S that the home began, of a host granule whose owner leaves: it is given back. -/
theorem settle_leaves (hk : t.kind = 4) (hr : t.req = homeMark) (hd : dirOf s gk = some d) (hp : d.ptrs = [o]) (hl : o ∈ t.leave) (hh : isHostGran gk = true) :
    settle s gk t = endTxn (send (delDir s gk) (.host (if t.putm then 4 else 5) gk none)) gk := by
  simp [settle, hk, hd, hp, hl, recallEnd, hr, homeMark, hostAgent, givenBack, hh]

/-- The host's data have come for a GETS. -/
theorem settle_hostData (hk : t.kind = 6) (hd : dirOf s gk = some d) (hr : t.req ∉ s.fenced) :
    settle s gk t = endTxn (setDir (sendData s t.req gk .shared 0) gk (newDir gk false [t.req] (ownp d))) gk := by
  simp [settle, hk, hd, hr, sharedBy]
/-- They have come for a GETM of a granule that no other agent shares, or that some do. -/
theorem settle_hostOwnership (hk : t.kind = 7) (hd : dirOf s gk = some d) (hc : d.coarse = false) (hp : d.ptrs = []) (hr : t.req ∉ s.fenced) :
    settle s gk t = endTxn (setDir (sendData s t.req gk .modified 0) gk (newDir gk true [t.req] (ownp d))) gk := by
  simp [settle, hk, hd, hc, hp, hr, ownedBy, sendData]
theorem settle_hostOwnership_shared (hk : t.kind = 7) (hd : dirOf s gk = some d) (h : d.coarse = true ∨ d.ptrs ≠ []) (hr : t.req ∉ s.fenced) :
    settle s gk t = grantAll s gk t.req d true := by
  rcases h with h | h <;> simp [settle, hk, hd, h, hr]
/-- The host has given ownership for an UPG. -/
theorem settle_hostUpgrade (hk : t.kind = 10) (hd : dirOf s gk = some d) (hr : t.req ∉ s.fenced) : settle s gk t = grantAll s gk t.req d (!names d t.req) := by
  simp [settle, hk, hd, hr]

theorem execH2dResponse_data (hf : 576 ∉ s.fenced) (ht : mfind s.txns gk = some t) (hk : t.kind = 6 ∨ t.kind = 7) :
    execH2dResponse gk x s = .next (settle (notifyGran (writeGran s gk { x with mask := BitVec.allOnes 128 }) gk) gk t) := by
  rcases hk with hk | hk <;> simp [execH2dResponse, hostAgent, hf, ht, hk]
theorem execH2dResponse_upgrade (hf : 576 ∉ s.fenced) (ht : mfind s.txns gk = some t) (hk : t.kind = 10) : execH2dResponse gk x s = .next (settle s gk t) := by
  simp [execH2dResponse, hostAgent, hf, ht, hk]

end

/-! ## Records for a supervisor (R420) -/

/-- k differs from s only in what a record for a supervisor is written to: memory and the messages that carry it, the black boxes, and the partitions' registers. -/
def OnlyRecords (s k : State) : Prop :=
  { k with mem := s.mem, hostMem := s.hostMem, copies := s.copies, agenda := s.agenda, waitq := s.waitq, boxes := s.boxes, boxN := s.boxN, parts := s.parts } = s

theorem OnlyRecords.refl (s : State) : OnlyRecords s s := rfl
theorem OnlyRecords.trans {s k m : State} (h : OnlyRecords s k) (h' : OnlyRecords k m) : OnlyRecords s m := by
  unfold OnlyRecords at h h'
  rw [← h'] at h
  exact h
/-- What does not look at those places is as before. -/
theorem OnlyRecords.keeps {s k : State} (h : OnlyRecords s k) {α : Type} (f : State → α)
    (hf : ∀ k : State, f { k with mem := s.mem, hostMem := s.hostMem, copies := s.copies, agenda := s.agenda, waitq := s.waitq, boxes := s.boxes, boxN := s.boxN, parts := s.parts } = f k) :
    f k = f s := (hf k).symm.trans (congrArg f h)

theorem onlyRecords_poke (s : State) (pk : Nat) (b : Byte) : OnlyRecords s (poke s pk b) := by
  unfold poke setHomeByte
  split <;> rfl
theorem onlyRecords_pokeBytes (s : State) (pk : Nat) (bs : List Byte) : OnlyRecords s (pokeBytes s pk bs) := by
  induction bs generalizing s pk with
  | nil => exact .refl s
  | cons b r ih => exact (onlyRecords_poke s pk b).trans (ih ..)
theorem onlyRecords_pokesFor (s : State) (p pk : Nat) (bs : List Byte) : OnlyRecords s (pokesFor s p pk bs) := by
  unfold pokesFor
  split
  · exact (onlyRecords_pokeBytes s pk bs).trans rfl
  · rfl
theorem onlyRecords_faultRecord (s : State) (p : Nat) (r : FRec) : OnlyRecords s (faultRecord s p r) := by
  unfold faultRecord
  extract_lets
  split
  · rfl
  · split
    · exact ((onlyRecords_pokesFor s ..).trans (onlyRecords_pokesFor ..)).trans rfl
    · rfl
theorem onlyRecords_foldl {α : Type} {f : State → α → State} (hf : ∀ s a, OnlyRecords s (f s a)) (l : List α) (s : State) : OnlyRecords s (l.foldl f s) := by
  induction l generalizing s with
  | nil => exact .refl s
  | cons a l ih => exact (hf s a).trans (ih _)

/-! ## The scrub of a fenced agent (R126, R127) -/

/-- Home stack k begins to scrub for agent a. -/
def beginScrub (a : Nat) (s : State) (k : Nat) : State := postOnce (setStack s k { stackOf s k with scrub := (stackOf s k).scrub ++ [(a, 0)] }) (.scrubStep k)

theorem mem_postOnce_agenda (s : State) (e : Event) : e ∈ (postOnce s e).agenda := by
  unfold postOnce
  split
  · next h => simpa using h
  · simp
theorem subset_postOnce_agenda {s : State} {e x : Event} (h : x ∈ s.agenda) : x ∈ (postOnce s e).agenda := by
  unfold postOnce
  split
  · exact h
  · simp [h]
@[simp] theorem postOnce_stks (s : State) (e : Event) : (postOnce s e).stks = s.stks := by
  unfold postOnce
  split <;> rfl
@[simp] theorem postOnce_fenced (s : State) (e : Event) : (postOnce s e).fenced = s.fenced := by
  unfold postOnce
  split <;> rfl
@[simp] theorem postOnce_out (s : State) (e : Event) : (postOnce s e).out = s.out := by
  unfold postOnce
  split <;> rfl
theorem stackOf_beginScrub (a : Nat) (s : State) (k j : Nat) :
    stackOf (beginScrub a s k) j = if j = k then { stackOf s k with scrub := (stackOf s k).scrub ++ [(a, 0)] } else stackOf s j := by
  simp only [beginScrub, stackOf, postOnce_stks, setStack]
  split
  · next e => rw [e, mgetD_mput_same]
  · next e => rw [mgetD_mput_other _ _ _ _ e]

/-- Every home stack scrubs, and has its step on the agenda. -/
theorem foldl_beginScrub (a n : Nat) (s : State) : (∀ k < n, (stackOf ((List.range n).foldl (beginScrub a) s) k).scrub = (stackOf s k).scrub ++ [(a, 0)] ∧
      .scrubStep k ∈ ((List.range n).foldl (beginScrub a) s).agenda) ∧ (∀ k, n ≤ k → stackOf ((List.range n).foldl (beginScrub a) s) k = stackOf s k) ∧
    ((List.range n).foldl (beginScrub a) s).fenced = s.fenced ∧ ((List.range n).foldl (beginScrub a) s).out = s.out := by
  induction n with
  | zero => simp
  | succ n ih =>
    obtain ⟨hlt, hge, hf, ho⟩ := ih
    rw [List.range_succ, List.foldl_append, List.foldl_cons, List.foldl_nil]
    refine ⟨fun k hk => ?_, fun k hk => ?_, (postOnce_fenced ..).trans hf, (postOnce_out ..).trans ho⟩
    · rw [stackOf_beginScrub]
      split
      · next e =>
        subst e
        rw [hge k (Nat.le_refl k)]
        exact ⟨rfl, mem_postOnce_agenda ..⟩
      · next e => exact ⟨(hlt k (by omega)).1, subset_postOnce_agenda (hlt k (by omega)).2⟩
    · rw [stackOf_beginScrub, if_neg (by omega), hge k (by omega)]

/-- Agent a is among the fenced, logged, and told to management and to the supervisors. -/
def fencedTold (s : State) (a : Nat) : State :=
  (agentParts s a).foldl (fun s p => noticeRecord s p 1 a 0 0)
    (send (boxAdd { s with fenced := a :: s.fenced } (agentDie a) 5 ((agentParts s a).headD 0) 0 a) (.notice 5 ((agentParts s a).headD 0) a))
theorem onlyRecords_fencedTold (s : State) (a : Nat) : OnlyRecords (send { s with fenced := a :: s.fenced } (.notice 5 ((agentParts s a).headD 0) a)) (fencedTold s a) := by
  have hbox : OnlyRecords (send { s with fenced := a :: s.fenced } (.notice 5 ((agentParts s a).headD 0) a))
    (send (boxAdd { s with fenced := a :: s.fenced } (agentDie a) 5 ((agentParts s a).headD 0) 0 a) (.notice 5 ((agentParts s a).headD 0) a)) := rfl
  exact hbox.trans (onlyRecords_foldl (fun s p => onlyRecords_faultRecord s p _) (agentParts s a) _)

/-- Where nothing is under way, fencing is the telling and the start of the scrubs. -/
theorem fenceAgent_idle {s : State} {a : Nat} (ha : a ∉ s.fenced) (ht : s.txns = []) (hp : s.pieces = []) :
    ∃ u, fenceAgent s a = (List.range 4).foldl (beginScrub a) u ∧ u.fenced = a :: s.fenced ∧ u.out = s.out ++ [.notice 5 ((agentParts s a).headD 0) a] ∧ u.stks = s.stks := by
  have hrec := onlyRecords_fencedTold s a
  have htxns : (fencedTold s a).txns = [] := (hrec.keeps (·.txns) fun _ => rfl).trans ht
  have hpieces : (fencedTold s a).pieces = [] := (hrec.keeps (·.pieces) fun _ => rfl).trans hp
  have hfenced := hrec.keeps (·.fenced) fun _ => rfl
  have hout := hrec.keeps (·.out) fun _ => rfl
  have hstks := hrec.keeps (·.stks) fun _ => rfl
  have he : fenceAgent s a = (List.range 4).foldl (beginScrub a)
      (let s := (fencedTold s a).txns.foldl (fenceTxn a) (fencedTold s a)
       let s := if a == hostAgent then { s with bis := [], agenda := s.agenda ++ (s.bis.filter fun x => x.2 < homeMark).map fun x => Event.iack x.2 a x.1 } else s
       if a < 512 then (s.pieces.filter fun x => x.tile == a).foldl fencePiece { s with cinches := s.cinches.filter fun x => x.tile != a } else s) := by
    rw [fenceAgent, if_neg (by simpa using ha)]
    rfl
  refine ⟨_, he, ?_⟩
  simp only [htxns, List.foldl_nil]
  by_cases h1 : (a == hostAgent) = true <;> by_cases h2 : a < 512 <;>
    simp only [h1, h2, if_true, if_false, hpieces, List.filter_nil, List.foldl_nil, Bool.false_eq_true] <;> exact ⟨hfenced, hout, hstks⟩

theorem fenceAgent_same {s : State} {a : Nat} (h : a ∈ s.fenced) : fenceAgent s a = s := by simp [fenceAgent, h]

/-! ## Scrub steps and the return (R127) -/

section
variable {s : State} {st a i gk : Nat} {r : List (Nat × Nat)} {d : DirE}

theorem execScrubStep_plain (h : (stackOf s st).scrub = (a, i) :: r) (hi : i % 16 ≠ 0) : execScrubStep st s = .next
    (let l := if i + 1 = 2 ^ 21 then r else (a, i + 1) :: r
     if l = [] then setStack s st { stackOf s st with scrub := l } else post (setStack s st { stackOf s st with scrub := l }) (.scrubStep st)) := by
  simp [execScrubStep, h, hi]
/-- Beside its own progress, a step that reaches the one entry of the directory does to it what the scrub does. -/
theorem execScrubStep_entry (h : (stackOf s st).scrub = (a, i) :: r) (hi : i % 16 = 0) (hdir : s.dir = [(gk, d)]) (hst : granStack gk = st) (hset : gk % 2 ^ 17 = i / 16) :
    ∃ u, execScrubStep st s = .next u ∧ u.dir = (scrubEntry a s gk).dir ∧ u.psn = (scrubEntry a s gk).psn ∧ u.txns = (scrubEntry a s gk).txns := by
  have hl : ((s.dir.map (·.1)).filter fun g => granStack g == st && g % 2 ^ 17 == i / 16) = [gk] := by
    simp only [hdir, List.map_cons, List.map_nil, hst, hset, beq_self_eq_true, Bool.and_self, List.filter_cons_of_pos, List.filter_nil]
  simp only [execScrubStep, h, hi, beq_self_eq_true, if_true, hl, List.foldl_cons, List.foldl_nil]
  refine ⟨_, rfl, ?_⟩
  generalize (if (i + 1 == 2 ^ 21) = true then r else (a, i + 1) :: r) = l
  cases l <;> exact ⟨rfl, rfl, rfl⟩

/-- What the scrub for agent a does to a sound entry of device memory, or to one in error. -/
theorem scrubEntry_eq (hd : dirOf s gk = some d) (ht : mfind s.txns gk = none) (hv : (vote d).isSome = true) (hh : isHostGran gk = false) : scrubEntry a s gk =
    if d.bad then recallBad s gk d
    else if d.coarse || !d.ptrs.contains a then s
    else if d.owned then delDir (poisonHome s gk) gk
    else if d.ptrs.length == 1 then delDir s gk
    else setDir s gk { d with ptrs := d.ptrs.filter (· != a) } := by
  simp only [scrubEntry, hd, ht, Option.isSome_none, Bool.false_eq_true, if_false, Option.isNone_eq_false_iff.mpr hv, givenBack_device _ hh]

theorem mem_poisonHome (s : State) (gk : Nat) : gk ∈ (poisonHome s gk).psn := by
  unfold poisonHome
  split
  · next h => simpa using h
  · simp
@[simp] theorem poisonHome_dir (s : State) (gk : Nat) : (poisonHome s gk).dir = s.dir := by
  unfold poisonHome
  split <;> rfl

theorem mfind_filter_none {α : Type} {m : SMap α} {p : Nat × α → Bool} {k : Nat} (h : ∀ v, p (k, v) = false) : mfind (m.filter p) k = none := by
  induction m with
  | nil => rfl
  | cons x m ih =>
    obtain ⟨j, v⟩ := x
    by_cases hp : p (j, v) = true
    · have hj : j ≠ k := by
        rintro rfl
        rw [h v] at hp
        cases hp
      rw [List.filter_cons_of_pos hp]
      simp [mfind, hj, ih]
    · rw [List.filter_cons_of_neg hp, ih]

/-- Some home stack still scrubs for the agent. -/
theorem scrubbing_iff : ((List.range 4).any fun k => (stackOf s k).scrub.any fun x => x.1 == a) = true ↔ ∃ k < 4, ∃ j, (a, j) ∈ (stackOf s k).scrub := by simp

/-- An agent that returns, its caches empty. -/
def readmitted (s : State) (a : Nat) : State :=
  { s with
    fenced := s.fenced.filter (· != a), missed := mdel s.missed a
    copies := s.copies.filter fun (k, _) => k / 2 ^ 46 != a
    tiles := s.tiles.map fun (i, t) => (i, { t with l1 := t.l1.filter fun x => x.agent != a }) }
/-- No copy of it is left. -/
theorem copyOf_readmitted (s : State) (a : Nat) {g : Nat} (hg : g < 2 ^ 46) : copyOf (readmitted s a) a g = none :=
  mfind_filter_none fun v => by
    have h : ckey a g / 2 ^ 46 = a := by
      unfold ckey
      omega
    simp only [h, bne_self_eq_false]
theorem execAgentReadmit_done (hb : ∀ k < 4, ∀ j, (a, j) ∉ (stackOf s k).scrub) (ha : a ∈ s.fenced) : execAgentReadmit a s = .next
    (if a < 512 then setTile (readmitted s a) a { tileOf (readmitted s a) a with l1 := [], ic := [], gtlb := [], itlb := [] } else readmitted s a) := by
  have hbusy : ((List.range 4).any fun k => (stackOf s k).scrub.any fun x => x.1 == a) = false := by
    rw [Bool.eq_false_iff, Ne, scrubbing_iff]
    rintro ⟨k, hk, j, hj⟩
    exact hb k hk j hj
  simp only [execAgentReadmit, hbusy, List.contains_eq_mem, ha, decide_true, Bool.not_true, Bool.or_self, Bool.false_eq_true, if_false]
  rfl

end

end Sys2Proof.Machine
namespace Sys2Proof.Proofs
open Sys2Proof Sys2Proof.Machine

theorem hostCoherence : Claims.HostCoherence := by
  intro s gk n req p o g x d t
  have fenced_eq {a : Nat} (h : a ∉ s.fenced) : s.fenced.contains a = false := by simpa using h
  refine ⟨⟨rfl, rfl⟩, ⟨rfl, rfl⟩, fun k hk hg => ⟨execHostMemRead_now hk hg, execHostMemRead_waits hk hg⟩, ⟨rfl, rfl⟩, fun hf => ?_,
    fun hf => ⟨fun hh ha => ⟨?_, rfl⟩, fun h => ?_, ⟨fun hc => ⟨fun hh ha => ⟨?_, rfl⟩, fun h => ?_⟩, fun hc => ?_, fun u hc => ?_⟩⟩, ?_, rfl, rfl, fun hf => ?_, ?_, fun hb hr k y => ?_, fun hb ht y => ⟨?_, ?_⟩, rfl,
    fun hf hg => ⟨fun h ht => ?_, fun hd ho hp hof => ?_⟩, fun hf hg => ⟨fun hd ht => ?_, fun hd ho hp => ?_, fun hd ho hp => ?_⟩, fun hf hg => ?_, fun e he ht => ?_,
    fun ho ⟨ht, hd⟩ hr hdue => ⟨fun hk => ?_, fun hk => ?_, fun hk hp hl => ?_⟩, fun ho ⟨ht, hd⟩ hr hk hdue hp hl hh => ?_, ?_, ?_⟩
  -- a fenced host is not heard
  · simp [exec_hostMemCleanEvict, execHostMemCleanEvict, exec_hostMemWrite, execHostMemWrite, exec_h2dSnpData, execH2dSnpData, exec_h2dSnpInv, execH2dSnpInv, exec_h2dSnpCur, execH2dSnpCur,
      exec_h2dResponse, execH2dResponse, hostAgent, hf]
  -- clean evictions and writes
  · simp [exec_hostMemCleanEvict, execHostMemCleanEvict, hostAgent, hf, hh, ha]
  · rcases h with h | h <;> simp [exec_hostMemCleanEvict, execHostMemCleanEvict, hostAgent, hf, h, cPROT]
  · exact (execHostMemWrite_eq hf hc).trans (by simp [hh, ha])
  · exact (execHostMemWrite_eq hf hc).trans (by simp only [h, if_true])
  · exact execHostMemWrite_eq hf hc
  · exact execHostMemWrite_eq hf hc
  -- messages to the host
  · cases g <;> rfl
  · have hc := fenced_eq hf
    simp only [exec_inv, execInv, onInv, exec_rcls, execRcls, onRcls, exec_rcli, execRcli, onRcli, hc, hostAgent, Bool.false_eq_true, if_false]
    exact ⟨rfl, rfl, rfl⟩
  -- its answers to back-invalidate snoops
  · intro hb
    simp [exec_biResponse, execBiResponse, hb]
  · simp [exec_biResponse, execBiResponse, hb, hr, hostAgent]
  · simp [exec_biResponse, execBiResponse, hb, ht, hostAgent]
  · simp [exec_biResponse, execBiResponse, hb, ht, hostAgent]
  -- its snoops
  · simp [exec_h2dSnpData, execH2dSnpData, hostAgent, hf, hg, recallSharedFor_unowned h, ht]
  · simp [exec_h2dSnpData, execH2dSnpData, hostAgent, hf, hg, recallSharedFor_owned hd ho hp hof]
  · simp [exec_h2dSnpInv, execH2dSnpInv, hostAgent, hf, hg, recallFor, hd, ht]
  · simp [exec_h2dSnpInv, execH2dSnpInv, hostAgent, hf, hg, recallFor_held hd hp, ho, posts]
  · simp [exec_h2dSnpInv, execH2dSnpInv, hostAgent, hf, hg, recallFor_held hd hp, ho, posts]
  · simp [exec_h2dSnpCur, execH2dSnpCur, hostAgent, hf, hg]
  · simp [snoopGate, ht]
  -- the ends of the recalls it asked for
  · have he : onIack s homeMark o gk = _ := (onIack_home s o gk).trans ((answered_last ht hdue).trans (settle_snoopInv hk hr))
    exact ⟨_, congrArg Host.Outcome.next he, by simp, by simp, by simp⟩
  · have he := (onRdat_dirty (x := x) ho ht hdue (by simp [hk])).trans (settle_snoopInv hk hr)
    exact ⟨_, congrArg Host.Outcome.next he, by simp, by simp, by simp⟩
  · have he := (onRdat_dirty (x := x) ho ht hdue (by simp [hk])).trans (settle_snoopData hk hr (by simpa using hd) hp (by simpa using ho) hl)
    exact ⟨_, congrArg Host.Outcome.next he, by simp, by simp, by simp⟩
  · have he := (onRdat_clean ho ht hdue).trans (settle_leaves (t := { t with due := [] }) hk hr hd hp hl hh)
    exact ⟨_, congrArg Host.Outcome.next he, by simp, by simp⟩
  -- its answers to requests
  · intro hf ⟨ht, hd⟩ hr ho hlt hh k
    subst hr
    have hkt : t.req ∉ k.fenced := fun h => ho (writeGran_fenced s gk _ ▸ h)
    have hdk : dirOf k gk = some d := (congrArg (mfind · gk) (writeGran_dir s gk _)).trans hd
    refine ⟨fun hk => ?_, fun hk hc hp => ?_, fun hk hcp => ?_, fun hk => ?_⟩
    · exact (execH2dResponse_data hf ht (.inl hk)).trans (congrArg Host.Outcome.next (settle_hostData hk hdk hkt))
    · exact (execH2dResponse_data hf ht (.inr hk)).trans (congrArg Host.Outcome.next (settle_hostOwnership hk hdk hc hp hkt))
    · exact (execH2dResponse_data hf ht (.inr hk)).trans (congrArg Host.Outcome.next (settle_hostOwnership_shared hk hdk hcp hkt))
    · exact (execH2dResponse_upgrade hf ht hk).trans (congrArg Host.Outcome.next (settle_hostUpgrade hk hd ho))
  · intro hf hlt hh asks fresh
    have hne : o ≠ hostAgent := by simp only [hostAgent]; omega
    refine ⟨fun hs hd hl => ?_, fun hs hd hl => ?_, fun hs hd ho => ?_, fun hs hd ho hn => ?_⟩
    · exact congrArg Host.Outcome.next ((onGets_host hs hd hl hh).trans (askHost_fresh hf hd))
    · exact congrArg Host.Outcome.next ((onGetm_host hs hd hl hh).trans (askHost_fresh hf hd))
    · exact congrArg Host.Outcome.next ((onGetm_host_shared hs hd ho hne hh).trans (askHost_entry hf hd))
    · exact congrArg Host.Outcome.next ((onUpg_host hs hd ho hne hh hn).trans (askHost_entry hf hd))

theorem deadAgents : Claims.DeadAgents := by
  intro s a gk st i l req r d c
  refine ⟨fun h => ?_, fun h hc => ?_, fun h hc => ?_, rfl, fenceAgent_same, fun ha ht hp _ => ?_, fun ha => ⟨?_, ?_, ?_⟩, fun h => ?_, fun h hi hn => ?_, fun h hi hr => ?_,
    fun h hi hdir hst hset hh ht hv => ?_, fun h => ?_, fun h ha => ?_⟩
  -- heartbeats
  · simp [exec_heartbeatMiss, execHeartbeatMiss, h]
  · have h1 : (4 * c + 1) / 4 = c := by omega
    have h2 : (4 * c + 1) % 4 = 1 := by omega
    simp [exec_heartbeatMiss, execHeartbeatMiss, h, h1, h2, hc]
  · have h1 : (4 * c + 2) / 4 = c := by omega
    have h2 : (4 * c + 2) % 4 = 2 := by omega
    simp [exec_heartbeatMiss, execHeartbeatMiss, h, h1, h2, hc]
  -- the fence
  · obtain ⟨u, he, hf, ho, hs⟩ := fenceAgent_idle ha ht hp
    obtain ⟨hscrub, -, hfs, hos⟩ := foldl_beginScrub a 4 u
    rw [he]
    refine ⟨hfs.trans hf, ⟨(agentParts s a).headD 0, by simp [hos, ho]⟩, fun k hk => ?_⟩
    have hst : stackOf s k = stackOf u k := by simp only [stackOf, hs]
    rw [hst]
    exact hscrub k hk
  · simp [exec_inv, execInv, onInv, ha]
  · simp [exec_rcls, execRcls, onRcls, ha]
  · simp [exec_rcli, execRcli, onRcli, ha]
  -- the scrub
  · simp [exec_scrubStep, execScrubStep, h]
  · exact (execScrubStep_plain h hi).trans (by simp only [if_neg hn, reduceCtorEq, if_false])
  · subst hr
    exact (execScrubStep_plain h (by omega)).trans (by simp [hi])
  · obtain ⟨u, hu, hud, hup, hut⟩ := execScrubStep_entry h hi hdir hst hset
    have hd : dirOf s gk = some d := by simp [dirOf, hdir, mfind]
    have he := scrubEntry_eq (a := a) hd ht hv hh
    refine ⟨fun hb => ⟨u, hu, ?_⟩, fun hb hn => ⟨u, hu, ?_⟩, fun hb hc hm ho => ⟨u, hu, ?_⟩, fun hb hc hm ho hlen => ⟨u, hu, ?_⟩⟩
    · rw [if_pos hb] at he
      simp [hut, he, recallBad, posts]
    · rw [if_neg (by simp [hb]), if_pos (by simpa using hn)] at he
      exact ⟨hud.trans (by rw [he]), hup.trans (by rw [he])⟩
    · rw [if_neg (by simp [hb]), if_neg (by simp [hc, hm]), if_pos ho] at he
      refine ⟨hud.trans ?_, hup ▸ ?_⟩
      · simp [he, delDir, hdir, mdel]
      · rw [he]
        exact mem_poisonHome s gk
    · rw [if_neg (by simp [hb]), if_neg (by simp [hc, hm]), if_neg (by simp [ho]), if_neg (by simp [hlen])] at he
      refine ⟨hud.trans ?_, hup.trans (by rw [he]; rfl)⟩
      simp [he, setDir, hdir, mput]
  -- the return
  · have hb := scrubbing_iff.mpr h
    simp only [exec_agentReadmit, execAgentReadmit, hb, Bool.true_or, if_true]
  · refine ⟨_, execAgentReadmit_done h ha, ?_⟩
    split
    · exact ⟨by simp [readmitted], fun g hg => copyOf_readmitted s a hg, rfl, rfl, fun _ => by simp [tileOf_setTile_same]⟩
    · next hlt => exact ⟨by simp [readmitted], fun g hg => copyOf_readmitted s a hg, rfl, rfl, fun h => absurd h hlt⟩

/-- Settles O59: the host's messages from the ends of transactions they bring about; the fence from what its records leave, and the scrub entry by entry. -/
theorem hostAndDeadAgents : Obligations.HostAndDeadAgents := ⟨hostCoherence, deadAgents⟩

end Sys2Proof.Proofs
end

section
/-! PROOFS. The statements of spec/03_coherence_and_cinches.md: cache maintenance, and the release of loads that wait at a watermark. -/

namespace Sys2Proof.Machine
open Sys2Proof Sys2Proof.Claims

/-! ## Changes of tiles alone -/

/-- k differs from s in tiles alone, and there not in f. -/
structure TilesUpTo {α : Type} (f : Tile → α) (s k : State) : Prop where
  rest : { k with tiles := s.tiles } = s
  tile : ∀ i, f (tileOf k i) = f (tileOf s i)

section
variable {α : Type} {f : Tile → α} {s k m : State}

theorem TilesUpTo.refl (f : Tile → α) (s : State) : TilesUpTo f s s := ⟨rfl, fun _ => rfl⟩
theorem TilesUpTo.trans (h : TilesUpTo f s k) (h' : TilesUpTo f k m) : TilesUpTo f s m where
  rest := by
    have hr := h.rest
    rw [← h'.rest] at hr
    exact hr
  tile i := (h'.tile i).trans (h.tile i)
/-- What does not look at the tiles is as before. -/
theorem TilesUpTo.keeps (h : TilesUpTo f s k) {β : Type} (g : State → β) (hg : g { k with tiles := s.tiles } = g k) : g k = g s := hg.symm.trans (congrArg g h.rest)

theorem tilesUpTo_setTile {t : Nat} {x : Tile} (h : f x = f (tileOf s t)) : TilesUpTo f s (setTile s t x) where
  rest := rfl
  tile i := by
    by_cases hi : i = t
    · rw [hi]
      exact (congrArg f (mgetD_mput_same ..)).trans h
    · exact congrArg f (mgetD_mput_other _ _ _ _ hi)
theorem tilesUpTo_foldl {β : Type} {g : State → β → State} (hg : ∀ s b, TilesUpTo f s (g s b)) (l : List β) (s : State) : TilesUpTo f s (l.foldl g s) := by
  induction l generalizing s with
  | nil => exact .refl f s
  | cons b l ih => exact (hg s b).trans (ih _)

/-- The positions that sources use up change stream engines alone (R351). -/
theorem tilesUpTo_popSrcs (hf : ∀ (t : Tile) (m : SMap SEng), f { t with se := m } = f t) (s : State) (l : List (BitVec 5 × Bool)) : TilesUpTo f s (popSrcs s l) :=
  tilesUpTo_foldl (fun s r => by
    unfold popOne
    split
    · exact tilesUpTo_setTile (hf ..)
    · exact .refl f s) _ s
/-- Merge buffers that are told to flush change themselves alone (R145). -/
theorem tilesUpTo_flushMerge (hf : ∀ (t : Tile) (m : SMap MergeE), f { t with merge := m } = f t) (s : State) (t : Nat) (p : MergeE → Bool) : TilesUpTo f s (flushMerge s t p) :=
  tilesUpTo_setTile (hf ..)

end

/-! ## The treatment of a granule (R93, R284, R285) -/

section
variable {s : State} {gk : Nat} {d : DirE} {k : State → Treat}

/-- Nothing stands before the treatment of a granule but the region and its entry. -/
abbrev treatable (s : State) (gk : Nat) : Prop :=
  (stackOf s (granStack gk)).stopped = false ∧ mfind s.txns gk = none ∧ turnDue s (whoInstr s) = false ∧ clash s gk false (curTile s) 100 (whoInstr s).ev = .free

theorem treatGate_refused (h : treatable s gk) (hr : regionOk s (curPart s) gk = false) : treatGate s gk k = .stop (logHome s (curPart s) (gk * 128)) 5 4 := by
  obtain ⟨hs, ht, hd, hc⟩ := h
  simp [treatGate, hs, ht, hd, hc, hr, cPROT]
theorem treatGate_free (h : treatable s gk) (hr : regionOk s (curPart s) gk = true) (he : ∀ e, dirOf s gk = some e → e.bad = false ∧ vote e ≠ none) : treatGate s gk k = k s := by
  obtain ⟨hs, ht, hd, hc⟩ := h
  simp only [treatGate, hs, ht, hd, hc, hr, Bool.or_self, Bool.false_eq_true, if_false, Option.isSome_none, Bool.not_true]
  cases hdir : dirOf s gk with
  | none => rfl
  | some e =>
    obtain ⟨hb, hv⟩ := he e hdir
    simp [hb, hv]

/-- The copies of a list of agents drop, one after another. -/
theorem foldl_dropCopy (l : List (Nat × Copy)) (s : State) : (l.foldl (fun s x => dropCopy s x.1 gk) s).dir = s.dir ∧ (∀ b, homeByte (l.foldl (fun s x => dropCopy s x.1 gk) s) b = homeByte s b) ∧
    (∀ a, copyOf s a gk = none ∨ (∃ c, (a, c) ∈ l) → copyOf (l.foldl (fun s x => dropCopy s x.1 gk) s) a gk = none) := by
  induction l generalizing s with
  | nil => exact ⟨rfl, fun _ => rfl, fun a h => h.resolve_right (by simp)⟩
  | cons x l ih =>
    obtain ⟨hd, hb, hc⟩ := ih (dropCopy s x.1 gk)
    refine ⟨hd, hb, fun a h => hc a ?_⟩
    by_cases hx : ckey a gk = ckey x.1 gk
    · exact .inl (by rw [copyOf, hx]; exact copyOf_dropCopy_same s x.1 gk)
    · rw [copyOf_dropCopy_other s hx]
      refine h.imp_right fun ⟨c, hm⟩ => ?_
      rcases List.mem_cons.mp hm with rfl | hm
      · exact absurd rfl hx
      · exact ⟨c, hm⟩

/-- The granule is not one of host memory that another partition's copies hold (R96). -/
theorem discardGran_ours (hown : ∀ e, dirOf s gk = some e → isHostGran gk = true → ownp e = curPart s) :
    (match dirOf s gk with | some d => isHostGran gk && ownp d != curPart s | none => false) = false := by
  cases hd : dirOf s gk with
  | none => rfl
  | some e =>
    cases hh : isHostGran gk with
    | false => rfl
    | true => simp [hown e hd hh]

/-- Something is under way for a copy where not all stand. -/
theorem underWay_eq (l : List (Nat × Copy)) : (l.any fun (_, c) => !c.st.holds || c.st == .sm) = !l.all fun (_, c) => c.st.holds && c.st != .sm := by
  rw [List.not_all_eq_any_not]
  congr 1
  funext x
  simp only [Bool.not_and, bne, Bool.not_not]

/-- CINV of a granule whose copies all stand: they go, and the home frees the entry. -/
theorem discardGran_done (hg : ∀ k : State → Treat, treatGate s gk k = k s) (hown : ∀ e, dirOf s gk = some e → isHostGran gk = true → ownp e = curPart s)
    (hc : ((copiesOf s gk).all fun (_, c) => c.st.holds && c.st != .sm) = true) : ∃ t, discardGran s gk = .done t ∧ dirOf t gk = none ∧
      (∀ x ∈ copiesOf s gk, copyOf t x.1 gk = none) ∧ ∀ a, homeByte t a = homeByte s a := by
  obtain ⟨hdir, hbyte, hgone⟩ := foldl_dropCopy (gk := gk) (copiesOf s gk) s
  have hcopies : ∀ x ∈ copiesOf s gk, copyOf ((copiesOf s gk).foldl (fun s x => dropCopy s x.1 gk) s) x.1 gk = none := fun x hx => hgone x.1 (.inr ⟨x.2, hx⟩)
  refine ⟨_, (hg _).trans ((if_neg (Bool.eq_false_iff.mp (discardGran_ours hown))).trans (if_neg (by rw [underWay_eq, hc]; decide))), ?_⟩
  split
  · unfold givenBack
    split
    · exact ⟨mfind_mdel_same .., hcopies, hbyte⟩
    · exact ⟨mfind_mdel_same .., hcopies, hbyte⟩
  · next hn => exact ⟨by simpa using hn, hcopies, hbyte⟩
theorem discardGran_waits (hg : ∀ k : State → Treat, treatGate s gk k = k s) (hown : ∀ e, dirOf s gk = some e → isHostGran gk = true → ownp e = curPart s)
    (hc : ((copiesOf s gk).all fun (_, c) => c.st.holds && c.st != .sm) = false) : discardGran s gk = .wait s :=
  (hg _).trans ((if_neg (Bool.eq_false_iff.mp (discardGran_ours hown))).trans (if_pos (by rw [underWay_eq, hc]; rfl)))

end

/-! ## Granule after granule (R283) -/

/-- An instruction that treats a range does so as `treatRange` says. -/
theorem treatRule_of_exec {i : Instr} {s : State} {srcs : List (BitVec 5 × Bool)} {va : Word} {len : Nat} {rw : Bool} {treat : State → Nat → Treat}
    (h : exec i s = finish1 s (treatRange s srcs va len rw treat)) : TreatRule i s srcs va len rw treat := by
  intro hj
  have hn : (if (len == 0) = true then 1 else (va.toNat + len - 1) / 128 - va.toNat / 128 + 1) = granCount va len := by simp [granCount]
  have ha : (if ((curH s).prog == 0) = true then va else BitVec.ofNat 64 ((va.toNat / 128 + (curH s).prog) * 128)) = granAddr va (curH s).prog := by simp [granAddr]
  simp only [treatRange, hn, ha, Nat.not_le.mpr hj, if_false] at h
  refine ⟨fun w c sb a hp => ?_, fun w x xs hp => ⟨fun u ht => ?_, fun u ht => ?_, fun u c sb ht => ?_⟩⟩
  · simp only [hp] at h
    exact h
  · simp only [hp, ht] at h
    rw [h]
    split <;> rfl
  · simp only [hp, ht] at h
    exact h
  · simp only [hp, ht] at h
    exact h

/-! ## The user's CINV (R285) -/

theorem execCinv_fault {s w : State} {g : BitVec 5} {c sb : Nat} (hr : Ready s [(g, false)] none) (hx : xlateFetch s (curTile s) (curPart s) (gVal s g) (curH s).sup = .fault w c sb) :
    execCinv g s = .next (takeTrap w c sb (gVal s g) (curH s).pc) := by
  simp only [execCinv, withRegs_ready hr, hx]
  rfl
theorem execCinv_refused {s w : State} {g : BitVec 5} {x : Xlat} {sb : Nat} (hr : Ready s [(g, false)] none)
    (hx : xlateFetch s (curTile s) (curPart s) (gVal s g) (curH s).sup = .ok w x) (hs : slotRefuses w (curPart w) x.vcid (gVal s g) .fetch = some sb) :
    execCinv g s = .next (takeTrap w 5 sb (gVal s g) (curH s).pc) := by
  simp only [execCinv, withRegs_ready hr, hx, hs]
  rfl

/-- The tile's instruction cache loses granule n. -/
def dropCode (s : State) (n : Nat) : State := setTile s (curTile s) { tileOf s (curTile s) with ic := mdel (tileOf s (curTile s)).ic n }

theorem execCinv_stores {s w : State} {g : BitVec 5} {x : Xlat} (hr : Ready s [(g, false)] none)
    (hx : xlateFetch s (curTile s) (curPart s) (gVal s g) (curH s).sup = .ok w x) (hs : slotRefuses w (curPart w) x.vcid (gVal s g) .fetch = none) : execCinv g s =
    if storesDone (flushHart w w.cur) (flushHart w w.cur).cur then ends s (dropCode (popSrcs (flushHart w w.cur) [(g, false)]) (x.pk (gVal s g) / 128))
    else .next (setCur (flushHart w w.cur) { curH (flushHart w w.cur) with wait := .fence }) := by
  simp only [execCinv, withRegs_ready hr, hx, hs]
  cases storesDone (flushHart w w.cur) (flushHart w w.cur).cur <;> rfl

/-- What the flush and the positions used up leave of a state: all but merge buffers and stream engines. -/
theorem tilesUpTo_flushed_popped (s : State) (h : Nat) (l : List (BitVec 5 × Bool)) : TilesUpTo (·.ic) s (popSrcs (flushHart s h) l) :=
  (tilesUpTo_flushMerge (fun _ _ => rfl) ..).trans (tilesUpTo_popSrcs (fun _ _ => rfl) ..)

/-- The hart goes on; no other granule of the instruction cache is lost. -/
theorem ends_dropCode {s w k : State} (h : TilesUpTo (·.ic) w k) (n : Nat) : ∃ t, ends s (dropCode k n) = .next t ∧ GoesOn s w t ∧ mfind (tileOf t (curTile w)).ic n = none ∧
    ∀ j, j ≠ n → mfind (tileOf t (curTile w)).ic j = mfind (tileOf w (curTile w)).ic j := by
  have hcur : curTile k = curTile w := h.keeps curTile rfl
  have htile : tileOf (dropCode k n) (curTile w) = { tileOf k (curTile w) with ic := mdel (tileOf k (curTile w)).ic n } := by
    rw [dropCode, hcur]
    exact mgetD_mput_same ..
  have hic : (tileOf k (curTile w)).ic = (tileOf w (curTile w)).ic := h.tile (curTile w)
  refine ⟨_, rfl, ⟨by simp [goTo], by simp [goTo], fun r => ?_, fun a => ?_⟩, ?_, fun j hj => ?_⟩
  · have hh : curH (dropCode k n) = curH w := h.keeps curH rfl
    simp [goTo, hh]
  · exact h.keeps (peek · a) rfl
  · rw [goTo, tileOf_setCur, htile]
    exact mfind_mdel_same ..
  · rw [goTo, tileOf_setCur, htile, ← hic]
    exact mfind_mdel_other _ _ hj

/-! ## Loads at a watermark (R157) -/

theorem pendTry_watermark {s u w : State} {p : Pend} {bs : List Byte} (hf : (s.pend.find? fun q => q.id == p.id) = some p) (hst : (hartOf s p.hart).st ≠ .free)
    (hh : pendHeld s p = false) (hc : p.chk = true)
    (hw : watermarkOk s p.hart (p.hart / 16) ((tilePart s (p.hart / 16)).getD 0) p.va ((p.pieces.map (·.n)).sum) p.ord.sup (some (pendEvent s p, p.id + 1)) = (u, true))
    (hp : perform u p = .ok w bs) : pendTry s p.id false = deliver (dropPend w p.id) p bs := by
  simp only [pendTry, hf, beq_iff_eq, hst, if_false, hh, Bool.false_eq_true, hc, if_true, hw, Bool.not_true, hp]

end Sys2Proof.Machine
namespace Sys2Proof.Proofs
open Sys2Proof Sys2Proof.Machine

theorem granuleTreatment : Claims.GranuleTreatment := by
  intro s gk d hs ht hd hc
  have h : treatable s gk := ⟨hs, ht, hd, hc⟩
  refine ⟨fun hr f hf => ?_, fun hr he => ?_⟩
  · simp only [List.mem_cons, List.not_mem_nil, or_false] at hf
    rcases hf with rfl | rfl | rfl <;> exact treatGate_refused h hr
  · have hg : ∀ k : State → Treat, treatGate s gk k = k s := fun k => treatGate_free h hr he
    refine ⟨fun hd => ?_, fun hd => ⟨?_, fun ho => ?_, fun ho hh => ?_, fun ho hh => ?_⟩, fun e hd hh ho => ?_, fun hown => ⟨fun hc => discardGran_done hg hown hc, fun hc => ?_⟩⟩
    · simp [flushGran, writeBackGran, hg, hd]
    · simp [flushGran, hg, hd]
    · simp [writeBackGran, hg, hd, ho]
    · simp [writeBackGran, hg, hd, ho, hh]
    · simp [writeBackGran, hg, hd, ho, hh]
    · simp [discardGran, hg, hd, hh, ho]
    · exact discardGran_waits hg hown hc

theorem cacheMaintenance : Claims.CacheMaintenance := by
  intro s g h srcs va n
  have hready (hr : Claims.Ready s srcs none) (k : State → Res) : withRegs s [(g, false), (h, false)] none k = k (popSrcs s srcs) := withRegs_ready hr k
  refine ⟨fun hr => ⟨fun hb => ⟨?_, ?_⟩, fun hb => ⟨treatRule_of_exec ?_, treatRule_of_exec ?_⟩, fun hs hb => ?_, fun hs h1 h2 h3 h4 => treatRule_of_exec ?_⟩,
    fun hr => ⟨fun w c sb hx => execCinv_fault hr hx, fun w x hx => ⟨fun sb hs => execCinv_refused hr hx hs, fun hs => ?_⟩⟩⟩
  · simp only [exec_cwb, execCwb, hready hr, show rangeBad (gVal s g) (gVal s h).toNat = true from hb, if_true]
    rfl
  · simp only [exec_cflush, execCflush, hready hr, show rangeBad (gVal s g) (gVal s h).toNat = true from hb, if_true]
    rfl
  · simp only [exec_cwb, execCwb, hready hr, show rangeBad (gVal s g) (gVal s h).toNat = false from hb, Bool.false_eq_true, if_false, srcs, va, n]
  · simp only [exec_cflush, execCflush, hready hr, show rangeBad (gVal s g) (gVal s h).toNat = false from hb, Bool.false_eq_true, if_false, srcs, va, n]
  · have hbad : ((gVal s g).toNat % 128 != 0 || (gVal s h).toNat % 128 != 0 || (gVal s h).toNat == 0 || decide (2 ^ 32 < (gVal s h).toNat)) = true := by simpa [or_assoc] using hb
    simp only [exec_cinvRange, execCinvRange, hs, Bool.not_true, Bool.false_eq_true, if_false, hready hr, hbad, if_true]
    rfl
  · have hok : ((gVal s g).toNat % 128 != 0 || (gVal s h).toNat % 128 != 0 || (gVal s h).toNat == 0 || decide (2 ^ 32 < (gVal s h).toNat)) = false := by
      simpa [Bool.or_eq_false_iff, and_assoc] using And.intro h1 (And.intro h2 (And.intro h3 h4))
    simp only [exec_cinvRange, execCinvRange, hs, Bool.not_true, Bool.false_eq_true, if_false, hready hr, hok, srcs, va, n]
  · intro k
    have he := execCinv_stores hr hx hs
    refine ⟨fun hd => ?_, fun hd => he.trans (if_neg (by simpa using hd))⟩
    obtain ⟨t, ht, hrest⟩ := ends_dropCode (s := s) (tilesUpTo_flushed_popped w w.cur [(g, false)]) (x.pk va / 128)
    exact ⟨t, (he.trans (if_pos hd)).trans ht, hrest⟩

theorem watermarkRelease : Claims.WatermarkRelease := by
  intro s h
  refine ⟨fun hn => ?_, fun p u w bs hl hf hst hh hw hp => ?_⟩
  · have hl : (s.pend.filter fun q => q.hart == h && q.chk) = [] := by simpa using hn
    simp [exec_watermarkRelease, execWatermarkRelease, hl]
  · have hm : p ∈ s.pend.filter fun q => q.hart == h && q.chk := by simp [hl]
    obtain ⟨-, hph⟩ := List.mem_filter.mp hm
    simp only [Bool.and_eq_true, beq_iff_eq] at hph
    obtain ⟨rfl, hc⟩ := hph
    simp only [exec_watermarkRelease, execWatermarkRelease, hl, List.foldl_cons, List.foldl_nil, pendTry_watermark hf hst hh hc hw hp]

/-- Settles O30: the instructions through the rule of a range, a granule's treatment through what stands before it, and a waiting load from the step that tries it. -/
theorem cacheControl : Obligations.CacheControl := ⟨cacheMaintenance, granuleTreatment, watermarkRelease⟩

end Sys2Proof.Proofs
end

section
/-! PROOFS. The statements of spec/03_coherence_and_cinches.md: stream engines and their patterns. -/

namespace Sys2Proof.Machine
open Sys2Proof Sys2Proof.Claims

/-! ## Patterns (R350) -/

/-- Turn m of a dimension of c positions, at position i of the turn. -/
theorem patTurn {c i : Nat} (m : Nat) (h : i < c) : (i + c * m) % c = i ∧ (i + c * m) / c = m := by
  have hc : 0 < c := by omega
  rw [Nat.add_mul_mod_self_left, Nat.mod_eq_of_lt h, Nat.add_mul_div_left _ _ hc, Nat.div_eq_of_lt h]
  exact ⟨rfl, Nat.zero_add m⟩

/-! ## What keeps the stream engines -/

/-- Circuits are used by their marks alone (R167). -/
theorem tilesUpTo_useCircuit {α : Type} {f : Tile → α} (hf : ∀ (t : Tile) (a b : List Nat), f { t with usedD := a, usedP := b } = f t) (s : State) (t c : Nat) : TilesUpTo f s (useCircuit s t c) := by
  refine tilesUpTo_setTile ?_
  split <;> split
  · exact hf (tileOf s t) _ (tileOf s t).usedP
  · exact hf (tileOf s t) _ _
  · rfl
  · exact hf (tileOf s t) (tileOf s t).usedD _

theorem setEng_se_same (s : State) (t q : Nat) (e : SEng) : mfind (tileOf (setEng s t q e) t).se q = some e := by
  rw [setEng, tileOf_setTile_same]
  exact mfind_mput_same ..
theorem sendRaise_se (s : State) (t ct k : Nat) (v : Word) (i : Nat) : (tileOf (sendRaise s t ct k v) i).se = (tileOf s i).se :=
  (tilesUpTo_useCircuit (f := (·.se)) (fun _ _ _ => rfl) s t _).tile i
theorem sendRaise_agenda (s : State) (t ct k : Nat) (v : Word) : (sendRaise s t ct k v).agenda = s.agenda ++ [.counterRaise ct k v] := rfl
theorem workRecord_se (s : State) (p src unit tile : Nat) (m : Mark) (tag : Word) (h i : Nat) : (tileOf (workRecord s p src unit tile m tag h) i).se = (tileOf s i).se :=
  (onlyRecords_faultRecord s p _).keeps (fun k => (tileOf k i).se) fun _ => rfl
theorem addCmd_se (s : State) (c : Cmd) (i : Nat) : (tileOf (addCmd s c) i).se = (tileOf s i).se :=
  have h : TilesUpTo (fun x : Tile => x.se) s (addCmd s c) := tilesUpTo_setTile rfl
  h.tile i
theorem addStamp_se (s : State) (p tile h : Nat) (sup : Bool) (src : Nat) (na gd v : Word) (err : Option Mark) (i : Nat) :
    (tileOf (addStamp s p tile h sup src na gd v err) i).se = (tileOf s i).se := by
  unfold addStamp
  split
  · rfl
  · exact addCmd_se (newId s) _ i

/-- A stream's completion marks it complete (R351). -/
theorem streamEnd_complete {s : State} {t q : Nat} {e : SEng} (h : mfind (tileOf s t).se q = some e) : mfind (tileOf (streamEnd s t q e) t).se q = some { e with complete := true } := by
  unfold streamEnd
  split
  · next hc => rw [h, ← hc]
  · simp only [addStamp_se]
    split
    · split
      · rw [workRecord_se, sendRaise_se, setEng_se_same]
      · rw [workRecord_se, setEng_se_same]
    · split
      · rw [sendRaise_se, setEng_se_same]
      · rw [setEng_se_same]

/-- Without an error or a stamp the raise alone goes out. -/
theorem streamEnd_agenda {s : State} {t q : Nat} {e : SEng} (hc : e.complete = false) (hg : e.gd = 0) (he : e.err = none) : (streamEnd s t q e).agenda =
    s.agenda ++ if e.comp.add = 0 then [] else [.counterRaise e.comp.ctile.toNat e.comp.ctr.toNat (e.comp.add.setWidth 64)] := by
  simp only [streamEnd, hc, Bool.false_eq_true, if_false, he, hg, addStamp, beq_self_eq_true, if_true, bne_iff_ne, ne_eq, ite_not]
  split
  · exact (List.append_nil _).symm
  · rw [sendRaise_agenda, BitVec.ofNat_toNat]
    rfl

/-- The end of a binding: the engine is unbound, empty and complete (R352). -/
theorem unbind_unbound {s : State} {t q : Nat} {e : SEng} (h : mfind (tileOf s t).se q = some e) :
    ∃ b, mfind (tileOf (unbind s t q e) t).se q = some b ∧ b.bound = false ∧ b.data = [] ∧ b.complete = true := by
  cases hst : e.stall with
  | none =>
    simp only [unbind, hst, streamEnd_complete h]
    exact ⟨_, setEng_se_same .., rfl, rfl, rfl⟩
  | some id =>
    have h' : mfind (tileOf (setPart s e.part { partOf s e.part with tsReqs := (partOf s e.part).tsReqs.filter fun r => r.id != id }) t).se q = some e := h
    simp only [unbind, hst, streamEnd_complete h']
    exact ⟨_, setEng_se_same .., rfl, rfl, rfl⟩

/-! ## STRM (R350, R351) -/

/-- The engine that STRM binds. -/
def boundEngine (u : State) (file dir : Bool) (r : Nat) (recd : List Word) (c : Comp) (gd : Word) : SEng :=
  { bound := true, fabric := false, hart := u.cur, part := curPart u, sup := (curH u).sup, vfile := file, reg := r, write := dir, recd
    comp := c, gd, pos := 0, used := 0, data := [], mask := [], stall := none, err := none, complete := false }

/-- Another stream is bound to the same register of the executing hart. -/
def sameBinding (s : State) (file : Bool) (r : Nat) : Bool :=
  (tileOf s (curTile s)).se.any fun x => x.2.bound && !x.2.fabric && x.2.hart == s.cur && x.2.vfile == file && x.2.reg == r

section
variable {s u : State} {ga gd : BitVec 5} {c : Comp} {q : BitVec 3} {file dir : Bool} {reg : BitVec 2}

theorem execStrm_noLanes (hf : file = true) (hl : (curH s).v.lanes = 0) : execStrm ga gd c q file reg dir s = traps s 0x0B 0 0 := by
  simp only [execStrm, hf, hl, beq_self_eq_true, Bool.and_self, if_true]
  rfl
theorem lanes_held (hl : file = true → (curH s).v.lanes ≠ 0) : (file && (curH s).v.lanes == 0) = false := by
  cases file with
  | false => rfl
  | true => simpa using hl rfl
theorem mem_of_mfind {α : Type} {m : SMap α} {k : Nat} {v : α} (h : mfind m k = some v) : ∃ x ∈ m, x.2 = v := by
  induction m with
  | nil => cases h
  | cons x m ih =>
    obtain ⟨j, w⟩ := x
    simp only [mfind] at h
    split at h
    · exact ⟨(j, w), List.mem_cons_self, Option.some.inj h⟩
    · obtain ⟨y, hy, he⟩ := ih h
      exact ⟨y, List.mem_cons_of_mem _ hy, he⟩
theorem execStrm_refused (hr : Ready s [(ga, false), (gd, false)] none) (hl : file = true → (curH s).v.lanes ≠ 0)
    (hb : compBad s (curPart s) (gVal s gd) c = true ∨ (∃ e, mfind (tileOf s (curTile s)).se q.toNat = some e ∧ e.bound = true)) :
    execStrm ga gd c q file reg dir s = .next (takeTrap (logComp s c) 0x0B 0 0 (curH s).pc) := by
  simp only [execStrm, lanes_held hl, Bool.false_eq_true, if_false, withRegs_ready hr]
  rw [if_pos ?_]
  · rfl
  · rcases hb with hb | ⟨e, he, hb⟩
    · simp [hb]
    · simp [he, hb]
theorem execStrm_bound (hr : Ready s [(ga, false), (gd, false)] none) (hl : file = true → (curH s).v.lanes ≠ 0) (hc : compBad s (curPart s) (gVal s gd) c = false)
    (hb : ∀ e ∈ (tileOf s (curTile s)).se, e.2.bound = false) (hg : (gVal s gd).toNat % 8 = 0) (ha : (gVal s ga).toNat % 64 = 0) (hw : bindBusy s file (28 + reg.toNat) = false)
    {l : List Word} (hcap : captured (flushHart s s.cur) (gVal s ga) 8 u l) (hp : patBad l = false) : execStrm ga gd c q file reg dir s =
      ends4 s (post (setEng (forgetWrote (popSrcs u [(ga, false), (gd, false)]) (curTile s) q.toNat) (curTile s) q.toNat
        (boundEngine u file dir (28 + reg.toNat) l c (gVal s gd))) (.streamEngineAccess (curTile s) q.toNat)) := by
  obtain ⟨hd, bs, hread, rfl⟩ := hcap
  have hfree : (match mfind (tileOf s (curTile s)).se q.toNat with | some e => e.bound | none => false) = false := by
    cases he : mfind (tileOf s (curTile s)).se q.toNat with
    | none => rfl
    | some e =>
      obtain ⟨x, hx, rfl⟩ := mem_of_mfind he
      exact hb x hx
  have hsame : sameBinding s file (28 + reg.toNat) = false := by
    rw [sameBinding, List.any_eq_false]
    exact fun x hx => by simp [hb x hx]
  simp only [execStrm, lanes_held hl, Bool.false_eq_true, if_false, withRegs_ready hr, hc, hg, ha, hw, bne_self_eq_false, afterDrain, hd, if_true, record, hread, hp]
  rw [if_neg ?_]
  · rfl
  · have hnone : (false || (match mfind (tileOf s (curTile s)).se q.toNat with | some e => e.bound | none => false) || sameBinding s file (28 + reg.toNat)) = false := by
      rw [hfree, hsame]
      rfl
    exact Bool.eq_false_iff.mp hnone

end

/-- A completion without copies at a router is the stream's end. -/
theorem execStreamComplete_bound {s : State} {t q : Nat} {e : SEng} (h : mfind (tileOf s t).se q = some e) (hb : e.bound = true) (hf : e.fabric = false) (hr : s.reps = []) :
    ∃ u, execStreamComplete t q s = .next (streamEnd u t q e) ∧ u.tiles = s.tiles ∧ u.agenda = s.agenda := by
  refine ⟨repClear s fun r => r.tile == t && r.unit == q, ?_, rfl, rfl⟩
  simp [execStreamComplete, h, repBusy, repErr, hr, hb, hf]

end Sys2Proof.Machine
namespace Sys2Proof.Proofs
open Sys2Proof Sys2Proof.Machine

theorem patternAddress : Claims.PatternAddress := by
  intro r i j k l hi hj hk
  obtain ⟨m0, d0⟩ := patTurn (j + patCount r 1 * (k + patCount r 2 * l)) hi
  obtain ⟨m1, d1⟩ := patTurn (k + patCount r 2 * l) hj
  obtain ⟨m2, d2⟩ := patTurn l hk
  have hbase : canon (bits (r.getD 0 0) 54 0) = ((r.getD 0 0).setWidth 55).signExtend 64 := by
    rw [canon_eq_signExtend]
    congr 1
    apply BitVec.eq_of_toNat_eq
    simp [bits]
  simp only [patAddr, m0, d0, m1, d1, m2, d2, hbase]

theorem streams : Claims.Streams := by
  intro s ga gd c q file dir reg tile j e t a r
  refine ⟨fun hf hl => ?_, fun hr hl => ⟨fun hb => ?_, fun hc hb hg ha hw u l hcap hp => ?_⟩, fun he hb hf hc hs => ⟨fun h => ?_, fun hn hlt hw hroom u bs hread => ?_, fun hn hlt hw hd hm => ?_,
    fun hn hlt hw hd hm => ⟨fun hp => ?_, fun l hp u bs hwr => ?_⟩⟩, fun he hb hf hreps => ⟨fun hc => ?_, fun hc hg hn => ?_⟩, fun he hb hf => ⟨fun h => ?_, fun hbusy huse => ?_⟩, fun h => ?_⟩
  -- STRM
  · exact execStrm_noLanes hf hl
  · exact execStrm_refused hr hl hb
  · have hagenda : (popSrcs u [(ga, false), (gd, false)]).agenda = u.agenda := (tilesUpTo_popSrcs (f := fun _ => ()) (fun _ _ => rfl) u _).keeps (·.agenda) rfl
    exact ⟨_, _, execStrm_bound hr hl hc hb hg ha hw hcap hp, by simp [goTo], setEng_se_same .., rfl, rfl, rfl, rfl, rfl, rfl, rfl, rfl, rfl, rfl, rfl, rfl, congrArg (· ++ _) hagenda⟩
  -- the steps of an engine
  · simp only [exec_streamEngineAccess, execStreamEngineAccess, he, hb, hf, hc, hs]
    rcases h with h | h <;> simp [h]
  · simp only [exec_streamEngineAccess, execStreamEngineAccess, he, hb, hf, hc, hs, hn, hw, hroom, hread, Nat.not_le.mpr hlt]
    rfl
  · obtain ⟨v, l, hx⟩ := List.exists_cons_of_ne_nil hd
    simp [exec_streamEngineAccess, execStreamEngineAccess, he, hb, hf, hc, hs, hn, hw, hm, Nat.not_le.mpr hlt, hx, -List.headD_eq_head?_getD]
  · obtain ⟨v, l, hx⟩ := List.exists_cons_of_ne_nil hd
    rw [hx] at hp
    simp [exec_streamEngineAccess, execStreamEngineAccess, he, hb, hf, hc, hs, hn, hw, hm, Nat.not_le.mpr hlt, hx, hp, -List.headD_eq_head?_getD]
  · obtain ⟨v, m, hx⟩ := List.exists_cons_of_ne_nil hd
    rw [hx] at hp hwr
    simp [exec_streamEngineAccess, execStreamEngineAccess, he, hb, hf, hc, hs, hn, hw, hm, Nat.not_le.mpr hlt, hx, hp, hwr, engStep, -List.headD_eq_head?_getD]
  -- the end of the pattern
  · obtain ⟨u, hu, htiles, hag⟩ := execStreamComplete_bound he hb hf hreps
    have hend : streamEnd u tile j e = u := by simp [streamEnd, hc]
    rw [hend] at hu
    exact ⟨u, hu, by rw [tileOf, htiles]; exact he, hag⟩
  · obtain ⟨u, hu, htiles, hag⟩ := execStreamComplete_bound he hb hf hreps
    have heu : mfind (tileOf u tile).se j = some e := by rw [tileOf, htiles]; exact he
    exact ⟨_, hu, streamEnd_complete heu, (streamEnd_agenda hc hg hn).trans (by rw [hag])⟩
  -- UNSTRM
  · have hwait : (bindingBusy s (curTile s) q.toNat e || useWaits s e) = true := by simpa using h
    simp only [exec_unstrm, execUnstrm, show mfind (tileOf s (curTile s)).se q.toNat = some e from he, hb, hf, hwait, Bool.not_true, Bool.or_self, Bool.false_eq_true, if_false, if_true]
    rfl
  · obtain ⟨b, hbe, h1, h2, h3⟩ := unbind_unbound he
    refine ⟨goTo (unbind s t q.toNat e) ((curH s).pc + 16), b, ?_, by simp [goTo], hbe, h1, h2, h3⟩
    simp only [exec_unstrm, execUnstrm, show mfind (tileOf s (curTile s)).se q.toNat = some e from he, hb, hf, show bindingBusy s (curTile s) q.toNat e = false from hbusy, huse,
      Bool.not_true, Bool.or_self, Bool.false_eq_true, if_false]
    rfl
  · simp only [exec_unstrm, execUnstrm, show mfind (tileOf s (curTile s)).se q.toNat = none from h]
    rfl

/-- Settles O36: STRM through what it checks and binds, an engine's steps as its table gives them, and the end of a binding through what keeps the engines of a tile. -/
theorem streamEngines : Obligations.StreamEngines := ⟨streams, patternAddress⟩

end Sys2Proof.Proofs
end

section
/-! PROOFS. The statements of spec/03_coherence_and_cinches.md: Cinches. -/

namespace Sys2Proof.Machine
open Sys2Proof Sys2Proof.Claims

/-! ## Pieces at their homes (R111, R117) -/

section
variable {s : State} {id : Nat} {x : PieceT}

theorem pieceOf_id (h : pieceOf s id = some x) : x.id = id := by simpa using List.find?_some h
/-- A piece that is set is found as it was set. -/
theorem pieceOf_setPiece (h : pieceOf s id = some x) (y : PieceT) (hy : y.id = x.id) : pieceOf (setPiece s y) id = some y := by
  have hid := pieceOf_id h
  have hp : ((fun z : PieceT => z.id == id) ∘ fun z => if z.id == y.id then y else z) = fun z => z.id == id := by
    funext z
    simp only [Function.comp, hy, hid]
    split
    · next hz => rw [hy, hid, beq_self_eq_true, hz]
    · rfl
  rw [pieceOf] at h
  rw [pieceOf, setPiece, List.find?_map, hp, h, Option.map_some, hy, if_pos (beq_self_eq_true _)]
theorem pieceOf_takeHeld (s : State) (l : List (Nat × Event × Nat)) (id : Nat) : pieceOf (takeHeld s l) id = pieceOf s id := rfl
theorem pieceOf_post (s : State) (e : Event) (id : Nat) : pieceOf (post s e) id = pieceOf s id := rfl

/-- The piece stands at its home's table of 1,024 (R110). -/
theorem entered_of (h : pieceOf s id = some x) (hl : ((s.pieces.takeWhile fun y => y.id != id).filter fun y => granStack (y.pk / 128) == granStack (x.pk / 128)).length < 1024) :
    entered s x = true := by
  rw [entered, pieceOf_id h]
  exact decide_eq_true hl

/-- Home memory is current where no granule has an entry or a transaction. -/
theorem makeCurrent_free (x : PieceT) (l : List Nat) (h : ∀ g ∈ l, mfind s.txns g = none ∧ dirOf s g = none) : makeCurrent s x l = (s, true) := by
  induction l with
  | nil => rfl
  | cons g l ih =>
    obtain ⟨ht, hd⟩ := h g List.mem_cons_self
    simp [makeCurrent, ht, hd, ih fun g hg => h g (List.mem_cons_of_mem _ hg)]

theorem execPieceEnd_eq (h : pieceOf s id = some x) :
    execPieceEnd id s = .next { s with pieces := s.pieces.filter (fun y => y.id != id), agenda := x.held.map (·.2.1) ++ s.agenda } := by
  simp only [execPieceEnd, h]
  rfl
theorem execPieceRegister_live (h : pieceOf s id = some x) (hl : x.live = true) : execPieceRegister id s = .next s := by simp [execPieceRegister, h, hl]

/-- The registration of a piece that has a place and is not live yet. -/
theorem execPieceRegister_foreign (h : pieceOf s id = some x) (hl : x.live = false) (he : entered s x = true) (hr : (pieceGrans x).all (regionOk s x.part) = false) :
    execPieceRegister id s = .next (rsvFail (logHome s x.part x.pk) x 5 4) := by
  simp only [execPieceRegister, h, hl, he, hr, Bool.not_true, Bool.not_false, Bool.false_eq_true, if_false, if_true]
  rfl
theorem execPieceRegister_clash (h : pieceOf s id = some x) (hl : x.live = false) (he : entered s x = true) (hr : (pieceGrans x).all (regionOk s x.part) = true)
    (hc : (s.pieces.any fun y => y.live && (y.wr || x.wr) && (pieceGrans x).any (covers y)) = true) : execPieceRegister id s = .next (rsvFail s x 8 0) := by
  simp only [execPieceRegister, h, hl, he, hr, hc, Bool.not_true, Bool.false_eq_true, if_false, if_true]
  rfl
theorem execPieceRegister_registers (h : pieceOf s id = some x) (hl : x.live = false) (he : entered s x = true) (hr : (pieceGrans x).all (regionOk s x.part) = true)
    (hc : (s.pieces.any fun y => y.live && (y.wr || x.wr) && (pieceGrans x).any (covers y)) = false) (hm : ∀ g ∈ pieceGrans x, mfind s.txns g = none ∧ dirOf s g = none) :
    ∃ v, execPieceRegister id s = .next v ∧ pieceOf v id = some { x with live := true, held := [] } ∧ ∀ a, homeByte v a = homeByte s a := by
  simp only [execPieceRegister, h, hl, he, hr, hc, makeCurrent_free x _ hm, Bool.not_true, Bool.false_eq_true, if_false]
  refine ⟨_, rfl, ?_⟩
  split <;> exact ⟨pieceOf_setPiece h _ rfl, fun _ => rfl⟩

end

/-! ## RSV and URSV (R353) -/

/-- RSV passes its checks at issue, has a place in its port's queue, and finds everything its hart did before performed. -/
structure RsvPasses (s : State) (r : CmdRegs) (c : Comp) (esz : BitVec 3) (u : Nat) : Prop where
  ready : Ready s (cmdSrcs r) none
  comp : compBad s (curPart s) (gVal s r.gd) c = false
  idle : unitCinch s (curTile s) u = none
  grant : u < 16 ∨ (tileOf s (curTile s)).fb = some s.cur
  base : (gVal s r.ga).toNat % 2 ^ esz.toNat = 0
  stride : (gVal s r.gb).toNat % 2 ^ esz.toNat = 0
  count : (gVal s r.gc).toNat < 2 ^ 32
  range : cinchRangeBad (gVal s r.ga) (gVal s r.gb) (gVal s r.gc).toNat esz.toNat = false
  stamp : (gVal s r.gd).toNat % 8 = 0
  place : portQueue s (curTile s) < 16
  done : drained (flushHart s s.cur) (flushHart s s.cur).cur = true

/-- What an awl has performed is read from fabrics alone. -/
theorem awlPosition_congr {s k : State} (h : ∀ i, (tileOf k i).fab = (tileOf s i).fab) (t u p : Nat) (wr : Bool) : awlPosition k t u p wr = awlPosition s t u p wr := by
  have hf : ∀ i, fabOf k i = fabOf s i := fun i => by simp only [fabOf, h]
  simp only [awlPosition, hf]

/-- The command of an RSV, begun. -/
def rsvCmd (s : State) (r : CmdRegs) (c : Comp) (u : Nat) : Cmd := { hartCmd s 3 0 r c with param := u, begun := true }
/-- Once the pages of its range are found, in state k, it stands in its port's queue. -/
def rsvQueued (s k : State) (r : CmdRegs) (c : Comp) (u : Nat) : State := newId (addCmd (popSrcs k (cmdSrcs r)) (rsvCmd s r c u))
/-- The Cinch id that it takes. -/
def rsvCid (s k : State) : Nat := freeCid k (curPart s) (partOf k (curPart s)).cid k.cinches.length
/-- The Cinch that RSV then holds. -/
def rsvCinch (s k : State) (r : CmdRegs) (c : Comp) (esz : BitVec 3) (wr : Bool) (mode : BitVec 2) (u : Nat) : Cinch :=
  { id := s.nextId, cid := BitVec.ofNat 16 (rsvCid s k), part := curPart s, tile := curTile s, unit := u, sup := (curH s).sup
    esz := esz.toNat, wr, mode := mode.toNat, base := gVal s r.ga, stride := gVal s r.gb, count := (gVal s r.gc).toNat
    pos := if 16 ≤ u then min (awlPosition (rsvQueued s k r c u) (curTile s) u (curPart s) wr) (gVal s r.gc).toNat else 0, gone := [] }
/-- What RSV leaves before its pieces go out. -/
def rsvHeld (s k : State) (r : CmdRegs) (c : Comp) (esz : BitVec 3) (wr : Bool) (mode : BitVec 2) (u : Nat) : State :=
  setPart { rsvQueued s k r c u with cinches := (rsvQueued s k r c u).cinches ++ [rsvCinch s k r c esz wr mode u] } (curPart s)
    { partOf (rsvQueued s k r c u) (curPart s) with cid := (rsvCid s k + 1) % 2 ^ 16 }

theorem tilesUpTo_rsvQueued (s k : State) (r : CmdRegs) (c : Comp) (u : Nat) : TilesUpTo (fun x : Tile => x.fab) k (addCmd (popSrcs k (cmdSrcs r)) (rsvCmd s r c u)) :=
  (tilesUpTo_popSrcs (fun _ _ => rfl) k _).trans (tilesUpTo_setTile rfl)
theorem rsvCmd_k (s : State) (r : CmdRegs) (c : Comp) (u : Nat) : (rsvCmd s r c u).k = 3 := by simp [rsvCmd, hartCmd, Cmd.k]
theorem rsvCinch_pos (s k : State) (r : CmdRegs) (c : Comp) (esz : BitVec 3) (wr : Bool) (mode : BitVec 2) (u : Nat) :
    (rsvCinch s k r c esz wr mode u).pos = if u < 16 then 0 else min (awlPosition k (curTile s) u (curPart s) wr) (gVal s r.gc).toNat := by
  have ha : awlPosition (rsvQueued s k r c u) (curTile s) u (curPart s) wr = awlPosition k (curTile s) u (curPart s) wr := awlPosition_congr (tilesUpTo_rsvQueued s k r c u).tile _ _ _ _
  simp only [rsvCinch, ha, ← Nat.not_lt, ite_not]
theorem rsvHeld_cinches (s k : State) (r : CmdRegs) (c : Comp) (esz : BitVec 3) (wr : Bool) (mode : BitVec 2) (u : Nat) :
    (rsvHeld s k r c esz wr mode u).cinches = k.cinches ++ [rsvCinch s k r c esz wr mode u] :=
  congrArg (· ++ _) ((tilesUpTo_rsvQueued s k r c u).keeps (·.cinches) rfl)
/-- The hart going on leaves the tiles, the Cinches and their pieces as they are. -/
theorem tileOf_goTo_post (s : State) (e : Event) (a : Word) (i : Nat) : tileOf (goTo (post s e) a) i = tileOf s i := rfl
theorem goTo_cinches (s : State) (a : Word) : (goTo s a).cinches = s.cinches := rfl
theorem goTo_pieces (s : State) (a : Word) : (goTo s a).pieces = s.pieces := rfl
theorem goTo_agenda (s : State) (a : Word) : (goTo s a).agenda = s.agenda := rfl
theorem rsvHeld_pieces (s k : State) (r : CmdRegs) (c : Comp) (esz : BitVec 3) (wr : Bool) (mode : BitVec 2) (u : Nat) : (rsvHeld s k r c esz wr mode u).pieces = k.pieces :=
  (tilesUpTo_rsvQueued s k r c u).keeps (·.pieces) rfl
theorem rsvHeld_cq (s k : State) (r : CmdRegs) (c : Comp) (esz : BitVec 3) (wr : Bool) (mode : BitVec 2) (u : Nat) :
    (tileOf (rsvHeld s k r c esz wr mode u) (curTile s)).cq = (tileOf k (curTile s)).cq ++ [rsvCmd s r c u] := by
  have hcq : (tileOf (popSrcs k (cmdSrcs r)) (curTile s)).cq = (tileOf k (curTile s)).cq := (tilesUpTo_popSrcs (f := fun x : Tile => x.cq) (fun _ _ => rfl) k (cmdSrcs r)).tile (curTile s)
  rw [← hcq]
  exact congrArg Tile.cq (tileOf_setTile_same ..)
/-- One piece enters the table of its home. -/
theorem addPieces_one (s : State) (x : Cinch) (pk first n : Nat) (va : Word) : ∃ y, (addPieces s x [(pk, first, n, va)]).pieces = s.pieces ++ [y] ∧
    y.pk = pk ∧ y.va = va ∧ y.count = n ∧ y.wr = x.wr ∧ y.live = false ∧ y.tile = x.tile ∧ y.unit = x.unit ∧ .pieceRegister y.id ∈ (addPieces s x [(pk, first, n, va)]).agenda := by
  refine ⟨_, congrArg (· ++ _) ((tilesUpTo_useCircuit (f := fun _ => ()) (fun _ _ _ => rfl) s x.tile _).keeps (·.pieces) rfl), rfl, rfl, rfl, rfl, rfl, rfl, rfl, ?_⟩
  simp [addPieces, newId, useCircuit, setTile]

section
variable {s k : State} {r : CmdRegs} {c : Comp} {esz : BitVec 3} {wr : Bool} {mode : BitVec 2} {hu : BitVec 5} {l : List (Nat × Nat × Nat × Word)}

theorem execRsv_grantless (hu16 : 16 ≤ hu.toNat) (hf : (tileOf s (curTile s)).fb ≠ some s.cur) : execRsv r c esz wr mode hu s = traps s 0x0B 0 0 := by
  have hb : (decide (16 ≤ hu.toNat) && (tileOf s (curTile s)).fb != some s.cur) = true := by simpa [hu16] using hf
  simp only [execRsv, hb, if_true]
  rfl

theorem execRsv_passes (h : RsvPasses s r c esz hu.toNat)
    (hcut : cutPages (flushHart s s.cur) (gVal s r.ga) (gVal s r.gb) (gVal s r.gc).toNat (if wr then .write else .read) 0 (gVal s r.gc).toNat = .ok k l) :
    execRsv r c esz wr mode hu s = ends4 s (if l.isEmpty then post (rsvHeld s k r c esz wr mode hu.toNat) (.commandComplete (curTile s) s.nextId)
      else addPieces (rsvHeld s k r c esz wr mode hu.toNat) (rsvCinch s k r c esz wr mode hu.toNat) l) := by
  have hgrant : (decide (16 ≤ hu.toNat) && (tileOf s (curTile s)).fb != some s.cur) = false := by
    rcases h.grant with hg | hg
    · simp [hg]
    · simp [hg]
  have hbad : ¬(compBad s (curPart s) (gVal s r.gd) c || (unitCinch s (curTile s) hu.toNat).isSome || (gVal s r.ga).toNat % 2 ^ esz.toNat != 0 || (gVal s r.gb).toNat % 2 ^ esz.toNat != 0
      || decide (2 ^ 32 ≤ (gVal s r.gc).toNat) || cinchRangeBad (gVal s r.ga) (gVal s r.gb) (gVal s r.gc).toNat esz.toNat) = true := by
    rw [h.comp, h.idle, h.base, h.stride, h.range, decide_eq_false (Nat.not_le.mpr h.count)]
    exact Bool.false_ne_true
  have hstamp : ¬((gVal s r.gd).toNat % 8 != 0) = true := by simp [h.stamp]
  have hcut' : cutPages (flushHart s s.cur) (hartCmd s 3 0 r c).ga (hartCmd s 3 0 r c).gb (hartCmd s 3 0 r c).gc.toNat (if wr then .write else .read) 0 (hartCmd s 3 0 r c).gc.toNat = .ok k l := hcut
  simp only [execRsv, hgrant, withRegs_ready h.ready, Bool.false_eq_true, if_false]
  refine congrArg (a₂ := .ok _) (finish4 s) ((if_neg hbad).trans ((if_neg hstamp).trans ((if_neg (Nat.not_le.mpr h.place)).trans ((if_pos h.done).trans ?_))))
  rw [hcut']
  rfl

end

/-- The command of an URSV. -/
def ursvCmd (s : State) (gd : BitVec 5) (c : Comp) (u : Nat) : Cmd := { hartCmd s 4 0 ⟨0, 0, 0, gd⟩ c with param := u }
theorem ursvCmd_k (s : State) (gd : BitVec 5) (c : Comp) (u : Nat) : (ursvCmd s gd c u).k = 4 := by simp [ursvCmd, hartCmd, Cmd.k]
/-- A command that entered its queue changes no piece, and its event is the last. -/
theorem queued_pieces (w : State) (d : Cmd) (e : Event) (a : Word) : (goTo (post (newId (addCmd w d)) e) a).pieces = w.pieces := rfl
theorem queued_agenda (w : State) (d : Cmd) (e : Event) (a : Word) : (goTo (post (newId (addCmd w d)) e) a).agenda = w.agenda ++ [e] := rfl
/-- URSV passes its checks at issue and enters the queue. -/
theorem execUrsv_queued {s : State} {gd : BitVec 5} {c : Comp} {hu : BitVec 5} (hr : Ready s [(gd, false)] none) (hc : compBad s (curPart s) (gVal s gd) c = false) (hg : (gVal s gd).toNat % 8 = 0)
    (hp : portQueue s (curTile s) < 16) : execUrsv gd c hu s = ends4 s (post (newId (addCmd (popSrcs (flushHart s s.cur) [(gd, false)]) (ursvCmd s gd c hu.toNat)))
      (.commandComplete (curTile s) s.nextId)) := by
  have hstamp : ¬((gVal s gd).toNat % 8 != 0) = true := by simp [hg]
  simp only [execUrsv, withRegs_ready hr]
  exact congrArg (a₂ := .ok _) (finish4 s) ((if_neg (Bool.eq_false_iff.mp hc)).trans ((if_neg hstamp).trans (if_neg (Nat.not_le.mpr hp))))

/-- An URSV at the head of its unit waits, or its unit's pieces leave their homes. -/
theorem complete_ursv {s : State} {t n : Nat} {d : Cmd} (h : cmdOf s t n = some d) (hk : d.k = 4) (hb : d.begun = false) (hs : d.stall = none) :
    complete s t n = if ursvWaits s d then post (flushBefore s d.hart d.id) (.commandComplete t n) else ursvBegin s d := by
  simp only [complete, h, hk, hb, hs, Option.isSome_none, Bool.false_eq_true, if_false, beq_self_eq_true, Bool.not_false, Bool.and_self, if_true]

theorem ursvBegin_posts (s : State) (d : Cmd) : (ursvBegin s d).pieces = s.pieces ∧ (ursvBegin s d).agenda =
    s.agenda ++ (s.pieces.filter fun y => y.tile == d.tile && y.unit == d.param && y.part == d.part).map (fun y => Event.pieceEnd y.id) ++ [.commandComplete d.tile d.id] := by
  have hc := tilesUpTo_foldl (f := fun _ : Tile => ()) (g := fun s (y : PieceT) => useCircuit s y.tile (granDie (y.pk / 128))) (fun s y => tilesUpTo_useCircuit (fun _ _ _ => rfl) s y.tile _)
    (s.pieces.filter fun y => y.tile == d.tile && y.unit == d.param && y.part == d.part) s
  exact ⟨hc.keeps (·.pieces) rfl, congrArg (· ++ _ ++ _) (hc.keeps (·.agenda) rfl)⟩

/-! ## Position queries (R115, R119) -/

/-- An element whose bytes lie in granule g puts it among the granules of its piece. -/
theorem mem_pieceGrans {x : PieceT} {g : Nat} (h : covers x g = true) : g ∈ pieceGrans x := by
  have hs : (pieceTouch x g).isSome = true := by
    simp only [covers, Bool.and_eq_true] at h
    exact h.2
  obtain ⟨i, hi⟩ := Option.isSome_iff_exists.mp hs
  have hm := List.mem_of_getLast? hi
  simp only [List.mem_filter, List.mem_range, beq_iff_eq] at hm
  rw [pieceGrans, List.mem_filter, List.mem_eraseDups, List.mem_flatMap]
  exact ⟨⟨i, List.mem_range.mpr hm.1, by simp [hm.2]⟩, h⟩

/-- The lines of a piece that a position has passed. -/
def passedLines (x : PieceT) (pos : Nat) : List Nat := (pieceGrans x).filter fun g => match pieceTouch x g with | some i => x.first + i < pos | none => false
/-- The piece once the lines below the position have left it. -/
def advanced (x : PieceT) (pos : Nat) : PieceT := { x with released := x.released ++ passedLines x pos, query := false, watch := none }
/-- The least last touch of requests that stay held. -/
def nextWatch (x : PieceT) (l : List (Nat × Event × Nat)) : Option Nat := ((l.filterMap fun e => pieceTouch x e.1).min?).map (x.first + ·)
/-- The piece after an answer. -/
def answeredPiece (x : PieceT) (pos : Nat) : PieceT :=
  { advanced x pos with held := x.held.filter fun e => covers (advanced x pos) e.1, watch := nextWatch x (x.held.filter fun e => covers (advanced x pos) e.1) }

theorem covers_advanced (x : PieceT) (pos g : Nat) : covers (advanced x pos) g = true ↔ covers x g = true ∧ ∀ i, pieceTouch x g = some i → pos ≤ x.first + i := by
  have htouch : pieceTouch (advanced x pos) g = pieceTouch x g := rfl
  have hpassed : g ∈ passedLines x pos ↔ g ∈ pieceGrans x ∧ ∃ i, pieceTouch x g = some i ∧ x.first + i < pos := by
    rw [passedLines, List.mem_filter]
    cases pieceTouch x g <;> simp
  have hcov : covers (advanced x pos) g = true ↔ covers x g = true ∧ g ∉ passedLines x pos := by
    simp only [covers, htouch, Bool.and_eq_true, Bool.not_eq_true', List.contains_eq_mem, decide_eq_false_iff_not]
    simp only [advanced, List.mem_append, not_or]
    tauto
  rw [hcov]
  refine and_congr_right fun h => ⟨fun hn i hi => ?_, fun hall hp => ?_⟩
  · by_contra hlt
    exact hn (hpassed.mpr ⟨mem_pieceGrans h, i, hi, Nat.not_le.mp hlt⟩)
  · obtain ⟨-, i, hi, hlt⟩ := hpassed.mp hp
    exact absurd (hall i hi) (Nat.not_le.mpr hlt)

theorem execPositionAnswer_eq {s : State} {id : Nat} {x : PieceT} (h : pieceOf s id = some x) (pos : Nat) : ∃ t, execPositionAnswer id pos s = .next t ∧
    t.pieces = (setPiece s (answeredPiece x pos)).pieces ∧ (∀ e ∈ x.held, covers (advanced x pos) e.1 = false → e.2.1 ∈ t.agenda) ∧
    ∀ m, (answeredPiece x pos).watch = some m → .positionQuery id (some m) ∈ t.agenda := by
  have hgo {u : State} {e : Nat × Event × Nat} (he : e ∈ x.held) (hc : covers (advanced x pos) e.1 = false) :
      e.2.1 ∈ (takeHeld u (x.held.filter fun e => !covers (advanced x pos) e.1)).agenda :=
    List.mem_append_left _ (List.mem_map_of_mem (List.mem_filter.mpr ⟨he, by simp [hc]⟩))
  have heq : execPositionAnswer id pos s = .next (match (answeredPiece x pos).watch with
      | some n => post (takeHeld (setPiece s (answeredPiece x pos)) (x.held.filter fun e => !covers (advanced x pos) e.1)) (.positionQuery id (some n))
      | none => takeHeld (setPiece s (answeredPiece x pos)) (x.held.filter fun e => !covers (advanced x pos) e.1)) := by
    simp only [execPositionAnswer, h]
    rfl
  cases hw : (answeredPiece x pos).watch with
  | none =>
    rw [hw] at heq
    exact ⟨_, heq, rfl, fun e he hc => hgo he hc, fun m hm => nomatch hm⟩
  | some n =>
    rw [hw] at heq
    refine ⟨_, heq, rfl, fun e he hc => List.mem_append_left _ (hgo he hc), fun m hm => ?_⟩
    cases hm
    simp

/-- The watch is at the least of the last touches, and none stands where no request that stays has one. -/
theorem nextWatch_le {x : PieceT} {l : List (Nat × Event × Nat)} {m i : Nat} {e : Nat × Event × Nat} (hm : nextWatch x l = some m) (he : e ∈ l) (hi : pieceTouch x e.1 = some i) : m ≤ x.first + i := by
  obtain ⟨n, hn, rfl⟩ := Option.map_eq_some_iff.mp hm
  have hle := (List.min?_eq_some_iff.mp hn).2 i (List.mem_filterMap.mpr ⟨e, he, hi⟩)
  omega
theorem nextWatch_none {x : PieceT} {l : List (Nat × Event × Nat)} {e : Nat × Event × Nat} (hm : nextWatch x l = none) (he : e ∈ l) : pieceTouch x e.1 = none := by
  have hl := List.min?_eq_none_iff.mp (Option.map_eq_none_iff.mp hm)
  exact List.filterMap_eq_nil_iff.mp hl e he

end Sys2Proof.Machine
namespace Sys2Proof.Proofs
open Sys2Proof Sys2Proof.Machine

theorem positionQueries : Claims.PositionQueries := by
  intro s id pos n x h p answer
  refine ⟨?_, fun hn => ?_, fun hn => ?_, ?_⟩
  · simp only [exec_positionQuery, execPositionQuery, h]
    rfl
  · simp only [exec_positionQuery, execPositionQuery, h]
    exact congrArg Host.Outcome.next (if_pos hn)
  · simp only [exec_positionQuery, execPositionQuery, h]
    exact congrArg Host.Outcome.next (if_neg (Nat.not_lt.mpr hn))
  · obtain ⟨t, ht, hpieces, hgo, hwatch⟩ := execPositionAnswer_eq h pos
    have hpiece : pieceOf t id = some (answeredPiece x pos) := by
      rw [pieceOf, hpieces]
      exact pieceOf_setPiece h _ rfl
    refine ⟨t, _, ht, hpiece, rfl, covers_advanced x pos, hgo, fun e he => (List.mem_filter.mp he).2, fun m hm => ⟨hwatch m hm, fun e he i hi => nextWatch_le hm he hi⟩, fun hm e he => nextWatch_none hm he⟩

theorem cinches : Claims.Cinches := by
  intro s r c esz wr mode hu gd id x t p u base count w
  refine ⟨fun hu16 hf => ?_, fun hr hc hi hg hb hst hn hrange hd hq hdr => ?_, fun hr hc hg hq => ?_, fun n d h hk hb hs => ⟨fun hw => ?_, fun hw => ?_⟩, fun h => ⟨?_, fun hl => ?_, fun hl hlt => ?_⟩⟩
  -- RSV
  · rw [exec_rsv]
    exact execRsv_grantless hu16 hf
  · have hpass : RsvPasses s r c esz u := ⟨hr, hc, hi, hg, hb, hst, hn, hrange, hd, hq, hdr⟩
    refine ⟨fun k hcut => ?_, fun k pk n va hcut => ?_⟩
    · rw [exec_rsv, execRsv_passes hpass hcut, List.isEmpty_nil, if_pos rfl]
      refine ⟨_, rsvCinch s k r c esz wr mode u, rsvCmd s r c u, rfl, by simp [goTo], (goTo_cinches ..).trans ((post_cinches ..).trans (rsvHeld_cinches ..)), rfl, rfl, rfl, rfl, rfl, rfl, rfl, rsvCinch_pos s k r c esz wr mode u, ?_, rsvCmd_k .., rfl, (goTo_pieces ..).trans ((post_pieces ..).trans (rsvHeld_pieces ..))⟩
      rw [tileOf_goTo_post]
      exact rsvHeld_cq ..
    · obtain ⟨y, hy, hpk, hva, hcount, hwr, hlive, htile, hunit, hev⟩ := addPieces_one (rsvHeld s k r c esz wr mode u) (rsvCinch s k r c esz wr mode u) pk 0 n va
      rw [exec_rsv, execRsv_passes hpass hcut]
      exact ⟨_, y, rfl, by simp [goTo], (goTo_pieces ..).trans (hy.trans (by rw [rsvHeld_pieces])), hpk, hva, hcount, hwr, hlive, htile, hunit, by rw [goTo_agenda]; exact hev⟩
  -- URSV
  · have hkeep : TilesUpTo (fun x : Tile => x.cq) s (popSrcs (flushHart s s.cur) [(gd, false)]) := (tilesUpTo_flushMerge (fun _ _ => rfl) ..).trans (tilesUpTo_popSrcs (fun _ _ => rfl) ..)
    rw [exec_ursv, execUrsv_queued hr hc hg hq]
    refine ⟨_, ursvCmd s gd c u, rfl, by simp [goTo], ?_, ursvCmd_k .., rfl, rfl, (queued_pieces ..).trans (hkeep.keeps (·.pieces) rfl), (queued_agenda ..).trans (congrArg (· ++ _) (hkeep.keeps (·.agenda) rfl))⟩
    rw [tileOf_goTo_post, ← show _ = (tileOf s t).cq from hkeep.tile t]
    exact congrArg Tile.cq (tileOf_setTile_same ..)
  · rw [exec_commandComplete, execCommandComplete, complete_ursv h hk hb hs, if_pos hw]
  · rw [exec_commandComplete, execCommandComplete, complete_ursv h hk hb hs, if_neg (Bool.eq_false_iff.mp hw)]
    exact ⟨_, rfl, ursvBegin_posts s d⟩
  -- the pieces
  · exact execPieceEnd_eq h
  · exact execPieceRegister_live h hl
  · have he := entered_of h hlt
    exact ⟨execPieceRegister_foreign h hl he, execPieceRegister_clash h hl he, fun hr hc hm => execPieceRegister_registers h hl he hr hc hm⟩

/-- Settles O37: RSV and URSV through what they leave in their port's queue, and the pieces at their homes through how a piece is found again once it is set. -/
theorem cinchSteps : Obligations.CinchSteps := ⟨cinches, positionQueries⟩

end Sys2Proof.Proofs
end

section
/-! PROOFS. The statements of spec/03_coherence_and_cinches.md: what a read leaves of the fabrics. -/

namespace Sys2Proof.Machine
open Sys2Proof Sys2Proof.Claims

/-! ## The hart in hand and the fabrics of the tiles -/

/-- Whose instruction is executed, and the tiles' fabrics. -/
def fabView (s : State) : Nat × (Nat → Option Fabric) := (s.cur, fun i => (tileOf s i).fab)

section
variable {s : State} {v : Nat × (Nat → Option Fabric)}

/-- A state that an answer goes on with has the view v. -/
def TrRes.views (v : Nat × (Nat → Option Fabric)) : TrRes → Prop
  | .ok s _ => fabView s = v
  | .fault .. => True
def RangeRes.views (v : Nat × (Nat → Option Fabric)) : RangeRes → Prop
  | .ok s _ => fabView s = v
  | .fault .. => True
def Reach.views (v : Nat × (Nat → Option Fabric)) : Reach → Prop
  | .home s => fabView s = v
  | .copy s _ => fabView s = v
  | _ => True
def Acc.views (v : Nat × (Nat → Option Fabric)) : Acc → Prop
  | .ok s _ => fabView s = v
  | _ => True
def Rd.views (v : Nat × (Nat → Option Fabric)) : Rd → Prop
  | .ok s _ => fabView s = v
  | .stop .. => True

theorem TrRes.views_of_ok {r : TrRes} {u : State} {x : Xlat} (e : r = .ok u x) (h : r.views v) : fabView u = v := by rwa [e] at h
theorem RangeRes.views_of_ok {r : RangeRes} {u : State} {l : List Piece} (e : r = .ok u l) (h : r.views v) : fabView u = v := by rwa [e] at h
theorem Reach.views_of_home {r : Reach} {u : State} (e : r = .home u) (h : r.views v) : fabView u = v := by rwa [e] at h
theorem Reach.views_of_copy {r : Reach} {u : State} {a : Nat} (e : r = .copy u a) (h : r.views v) : fabView u = v := by rwa [e] at h
theorem Acc.views_of_ok {r : Acc} {u : State} {bs : List Byte} (e : r = .ok u bs) (h : r.views v) : fabView u = v := by rwa [e] at h
theorem Rd.views_of_ok {r : Rd} {u : State} {bs : List Byte} (e : r = .ok u bs) (h : r.views v) : fabView u = v := by rwa [e] at h

theorem fabView_of {k : State} (hc : k.cur = s.cur) (hf : ∀ i, (tileOf k i).fab = (tileOf s i).fab) : fabView k = fabView s := by
  rw [fabView, fabView, hc, funext hf]
theorem fabView_setTile {t : Nat} {x : Tile} (h : x.fab = (tileOf s t).fab) : fabView (setTile s t x) = fabView s :=
  fabView_of rfl (tilesUpTo_setTile (f := fun x : Tile => x.fab) h).tile
/-- What no step of a loop over a list changes is as before. -/
theorem foldl_keeps {α β : Type} {g : State → β} {f : State → α → State} (hf : ∀ k a, g (f k a) = g k) (l : List α) (s : State) : g (l.foldl f s) = g s := by
  induction l generalizing s with
  | nil => rfl
  | cons a l ih => exact (ih _).trans (hf s a)
theorem fabView_onlyRecords {k : State} (h : OnlyRecords s k) : fabView k = fabView s := h.keeps fabView fun _ => rfl

@[simp] theorem fabView_setStack (st : Nat) (x : Stack) : fabView (setStack s st x) = fabView s := rfl
@[simp] theorem fabView_setCopy (a gk : Nat) (c : Copy) : fabView (setCopy s a gk c) = fabView s := rfl
theorem TrRes.views_ite {c : Prop} [Decidable c] {a b : TrRes} (ha : a.views v) (hb : b.views v) : (if c then a else b).views v := by
  split
  · exact ha
  · exact hb
theorem Reach.views_ite {c : Prop} [Decidable c] {a b : Reach} (ha : a.views v) (hb : b.views v) : (if c then a else b).views v := by
  split
  · exact ha
  · exact hb
theorem fabView_ite {c : Prop} [Decidable c] {a b : State} (ha : fabView a = v) (hb : fabView b = v) : fabView (if c then a else b) = v := by
  split
  · exact ha
  · exact hb

/-! ### Translation (R27 to R36) -/

theorem fabView_walkFill (st : Nat) (ps : List (Nat × Nat × Nat)) : fabView (walkFill s st ps) = fabView s := rfl
theorem walkFrom_views {st p t lvl fuel : Nat} {va : Word} {k : AccKind} {sup : Bool} {ps : List (Nat × Nat × Nat)} : (walkFrom s st p va k sup t lvl ps fuel).views (fabView s) := by
  induction fuel generalizing t lvl ps with
  | zero => trivial
  | succ f ih =>
    refine TrRes.views_ite trivial (TrRes.views_ite trivial (TrRes.views_ite (TrRes.views_ite trivial ih) (TrRes.views_ite trivial (TrRes.views_ite trivial ?_))))
    extract_lets x e
    cases rangeFault (x.pk va) x.io k with
    | some _ => trivial
    | none => exact (fabView_walkFill ..).trans (fabView_ite rfl (fabView_onlyRecords (onlyRecords_pokesFor ..)))

theorem walk_views {st p : Nat} {va : Word} {k : AccKind} {sup : Bool} : (walk s st p va k sup).views (fabView s) :=
  TrRes.views_ite trivial (TrRes.views_ite trivial walkFrom_views)
theorem useXlat_views {x : Xlat} {va : Word} {k : AccKind} : (useXlat s x va k).views (fabView s) := by
  unfold useXlat
  split
  · trivial
  · rfl
theorem llcWalk_views {st p : Nat} {va : Word} {k : AccKind} {sup : Bool} : (llcWalk s st p va k sup).views (fabView s) := by
  unfold llcWalk
  split
  · next u x h => exact (fabView_setStack ..).trans (TrRes.views_of_ok h walk_views)
  · exact walk_views
theorem llcXlate_views {st p : Nat} {va : Word} {k : AccKind} {sup : Bool} : (llcXlate s st p va k sup).views (fabView s) := by
  unfold llcXlate
  split
  · exact useXlat_views
  · exact llcWalk_views
theorem gtlbAdd_fab (t : Tile) (va : Word) (x : Xlat) : (gtlbAdd t va x).fab = t.fab := by
  unfold gtlbAdd
  split <;> rfl
theorem gtlbTake_views {t : Nat} {va : Word} {r : TrRes} (h : r.views v) : (gtlbTake t va r).views v := by
  cases r with
  | ok s x => exact (fabView_setTile (gtlbAdd_fab ..)).trans h
  | fault => trivial
theorem xlate_views {t p : Nat} {va : Word} {k : AccKind} {sup : Bool} : (xlate s t p va k sup).views (fabView s) := by
  refine TrRes.views_ite trivial ?_
  split
  · exact TrRes.views_ite useXlat_views (gtlbTake_views llcWalk_views)
  · exact gtlbTake_views llcXlate_views

/-- A range is found by at most two translations. -/
theorem rangeOf_views {t p n : Nat} {va : Word} {k : AccKind} {sup : Bool} {io : IoRule} : (rangeOf s t p va n k sup io).views (fabView s) := by
  have hspans {u l} (h : spansWith (fun s a => xlate s t p a k sup) s va n = .ok u l) : fabView u = fabView s := by
    simp only [spansWith] at h
    split at h
    · cases h
    · next h1 =>
      split at h
      · cases h
        exact TrRes.views_of_ok h1 xlate_views
      · split at h
        · cases h
        · next h2 =>
          cases h
          exact (TrRes.views_of_ok h2 xlate_views).trans (TrRes.views_of_ok h1 xlate_views)
  simp only [rangeOf, rangeWith]
  split
  · trivial
  · next h =>
    split
    · trivial
    · split
      · trivial
      · exact hspans h

/-! ### Agents and lines (R65 to R71, R102) -/

theorem fabView_toHome (a gk : Nat) (e : Event) : fabView (toHome s a gk e) = fabView s :=
  fabView_ite (c := a < 512) (v := fabView s) (fabView_of rfl (tilesUpTo_useCircuit (f := fun x : Tile => x.fab) (fun _ _ _ => rfl) s a _).tile) rfl
/-- A tile whose L1 shows agent a's copy of a granule no more. -/
def unshown (a gk : Nat) (t : Tile) : Tile := { t with l1 := t.l1.filter fun e => !(e.gk == gk && e.agent == a) }
theorem fabView_dropCopy (a gk : Nat) : fabView (dropCopy s a gk) = fabView s := by
  refine fabView_of rfl fun i => ?_
  show (mgetD (s.tiles.map fun p => (p.1, unshown a gk p.2)) i Tile.init).fab = (mgetD s.tiles i Tile.init).fab
  rw [mgetD, mgetD, mfind_map fun _ => unshown a gk]
  cases mfind s.tiles i <;> rfl
theorem fabView_evict (a gk : Nat) : fabView (evict s a gk) = fabView s := by
  unfold evict
  split
  · split
    · exact (fabView_toHome ..).trans ((fabView_setCopy ..).trans (fabView_dropCopy ..))
    · exact (fabView_toHome ..).trans ((fabView_setCopy ..).trans (fabView_dropCopy ..))
    · exact (fabView_toHome ..).trans ((fabView_setCopy ..).trans (fabView_dropCopy ..))
    · rfl
  · rfl
theorem fabView_request (p a gk : Nat) (wr : Bool) (asker : Option (Event × Nat)) : fabView (request s p a gk wr asker) = fabView s := by
  unfold request
  split
  · exact fabView_toHome ..
  · exact fabView_ite (fabView_toHome ..) rfl
theorem fabView_writeGran (gk : Nat) (d : GData) : fabView (writeGran s gk d) = fabView s := by
  exact writeGran_keeps fabView s gk d fun _ _ _ => rfl
theorem fabView_release (a gk : Nat) (m : BitVec 128) : fabView (release s a gk m) = fabView s := by
  refine fabView_ite ?_ (fabView_evict ..)
  split
  · exact fabView_ite (fabView_writeGran ..) rfl
  · rfl
theorem fabView_dropShelter (a : Nat) (sp : Option Nat) (gks : List Nat) : fabView (dropShelter s a sp gks) = fabView s := by
  cases sp with
  | none => rfl
  | some t => exact fabView_setTile rfl
theorem fabView_newLine (p v loc addr : Nat) (newmap : Bool) : fabView (newLine s p v loc addr newmap) = fabView s := by
  simp only [newLine]
  split
  · exact fabView_ite rfl rfl
  · rfl
theorem fabView_evictLine (p v loc : Nat) : fabView (evictLine s p v loc) = fabView s := by
  unfold evictLine
  split
  · rfl
  · exact (foldl_keeps (g := fabView) (fun _ _ => fabView_release ..) ..).trans (fabView_dropShelter ..)
theorem fabView_fillWay {p v l loc : Nat} {locs : List Nat} {moved : Bool} {u : State} (h : fillWay s p v l locs moved = some (u, loc)) : fabView u = fabView s := by
  simp only [fillWay] at h
  split at h
  · cases h
    rfl
  · obtain ⟨_, -, hu⟩ := Option.map_eq_some_iff.mp h
    cases hu
    exact fabView_evictLine ..
theorem fabView_fillRest (p a l addr gk : Nat) : fabView (fillRest s p a l addr gk) = fabView s :=
  foldl_keeps (g := fabView) (fun _ _ => fabView_ite (fabView_request ..) rfl) ..

/-! ### Where an access is performed (R67 to R76, R102) -/

theorem refusedReach_views {w : Who} {gk : Nat} {k : AccKind} : (refusedReach s w gk k).views v := by
  simp only [refusedReach]
  split
  · trivial
  · trivial
  · exact Reach.views_ite trivial trivial
theorem agentReach_views {w : Who} {a gk : Nat} {k : AccKind} : (agentReach s w a gk k).views (fabView s) := by
  refine Reach.views_ite (Reach.views_ite trivial trivial) (Reach.views_ite refusedReach_views ?_)
  split
  · trivial
  · split
    · trivial
    · refine Reach.views_ite trivial (Reach.views_ite (Reach.views_ite rfl trivial) ?_)
      split
      · rfl
      · rfl
      · trivial
      · trivial
theorem agentReach_views_of {w : Who} {a gk : Nat} {k : AccKind} (h : fabView s = v) : (agentReach s w a gk k).views v := h ▸ agentReach_views
theorem turn_views {w : Who} {gk : Nat} {v} : (turn s w gk).views v := trivial
theorem homeReach_views {w : Who} {gk : Nat} {k : AccKind} : (homeReach s w gk k).views (fabView s) := by
  refine Reach.views_ite trivial (Reach.views_ite trivial (Reach.views_ite turn_views ?_))
  split
  · trivial
  · trivial
  · refine Reach.views_ite refusedReach_views (Reach.views_ite rfl ?_)
    split
    · rfl
    · refine Reach.views_ite trivial (Reach.views_ite turn_views (Reach.views_ite turn_views (Reach.views_ite (Reach.views_ite turn_views rfl) (Reach.views_ite rfl turn_views))))
theorem fillReach_views {w : Who} {x : Piece} {k : AccKind} {moved : Bool} : (fillReach s w x k moved).views (fabView s) := by
  refine Reach.views_ite homeReach_views ?_
  split
  · trivial
  · next u loc h =>
    exact agentReach_views_of ((fabView_fillRest ..).trans ((fabView_newLine ..).trans (fabView_fillWay h)))
theorem cacheReach_views {w : Who} {x : Piece} {k : AccKind} : (cacheReach s w x k).views (fabView s) := by
  have hev {p v loc : Nat} : fabView (evictLine s p v loc) = fabView s := fabView_evictLine ..
  unfold cacheReach
  extract_lets v gk sl r l passes
  split
  · refine Reach.views_ite trivial (Reach.views_ite homeReach_views (Reach.views_ite (Reach.views_ite homeReach_views agentReach_views) (Reach.views_ite agentReach_views
      (Reach.views_ite trivial (Reach.views_ite trivial ?_)))))
    rw [← hev]
    exact Reach.views_ite homeReach_views fillReach_views
  · exact Reach.views_ite homeReach_views fillReach_views

theorem fabView_landBits (a gk : Nat) : fabView (landBits s a gk) = fabView s := rfl
theorem stashReach_views {w : Who} {x : Piece} {k : AccKind} : (stashReach s w x k).views (fabView s) := by
  have htouch {u : State} {a l addr gk : Nat} (hu : fabView u = fabView s) : (match agentReach u w a gk k with
      | .copy u a => .copy (landBits u a gk) a
      | .wait u => .wait (fillRest u w.part a l addr gk)
      | r => r : Reach).views (fabView s) := by
    have hr := agentReach_views_of (w := w) (a := a) (gk := gk) (k := k) hu
    cases h : agentReach u w a gk k with
    | copy u b => exact (fabView_landBits ..).trans (Reach.views_of_copy h hr)
    | wait => trivial
    | home u => exact Reach.views_of_home h hr
    | err => trivial
  unfold stashReach
  extract_lets v gk sl r l addr loc a touch
  split
  · exact Reach.views_ite trivial (Reach.views_ite homeReach_views (Reach.views_ite (htouch rfl) (Reach.views_ite trivial trivial)))
  · exact Reach.views_ite homeReach_views (htouch (fabView_newLine ..))

theorem reachPart_views {w : Who} {x : Piece} {k : AccKind} : (reachPart s w x k).views (fabView s) :=
  Reach.views_ite trivial (Reach.views_ite homeReach_views (Reach.views_ite (Reach.views_ite agentReach_views homeReach_views) (Reach.views_ite stashReach_views cacheReach_views)))

theorem reach_views {w : Who} {x : Piece} {k : AccKind} : (reach s w x k).views (fabView s) := by
  unfold reach
  split
  · next y z _ =>
    split
    · next u a h =>
      have hu := Reach.views_of_copy h reachPart_views
      have hz := reachPart_views (s := u) (w := w) (x := z) (k := k)
      rw [hu] at hz
      split
      · next u b h => exact Reach.views_ite (Reach.views_of_copy h hz) trivial
      · trivial
      · exact hz
    · exact reachPart_views
  · exact reachPart_views

/-! ### Reads of an instruction (R69) -/

theorem fabView_l1Leave (t : Nat) (e : L1E) : fabView (l1Leave s t e) = fabView s := by
  have ht {l : List L1E} : fabView (setTile s t { tileOf s t with l1 := l }) = fabView s := fabView_setTile rfl
  exact fabView_ite (fabView_ite ht ((fabView_evict ..).trans ht)) ht
theorem fabView_l1Room (t : Nat) : fabView (l1Room s t) = fabView s := by
  unfold l1Room
  split
  · rfl
  · exact fabView_l1Leave ..
theorem fabView_l1Add (t : Nat) (e : L1E) : fabView (l1Add s t e) = fabView s := by
  refine (fabView_setTile ?_).trans (fabView_l1Room t)
  rfl
theorem fabView_l1Fill (p t a : Nat) (x : Piece) : fabView (l1Fill s p t a x) = fabView s := by
  simp only [l1Fill]
  split
  · exact fabView_l1Add ..
  · split
    · rfl
    · exact fabView_ite rfl (fabView_ite (fabView_l1Add ..) ((fabView_request ..).trans (fabView_l1Add ..)))

theorem accRead_views {w : Who} {x : Piece} : (accRead s w x).views (fabView s) := by
  unfold accRead
  split
  · trivial
  · trivial
  · next u h =>
    split
    · trivial
    · exact Reach.views_of_home h reach_views
  · next u a h =>
    have hu := Reach.views_of_copy h reach_views
    split
    · trivial
    · split
      · trivial
      · exact (fabView_ite (fabView_l1Fill ..) rfl).trans hu
theorem accReads_views {w : Who} {l : List Piece} : (accReads s w l).views (fabView s) := by
  induction l generalizing s with
  | nil => rfl
  | cons x l ih =>
    simp only [accReads]
    split
    · next u bs h =>
      have hu := Acc.views_of_ok h accRead_views
      have hl := ih (s := u)
      rw [hu] at hl
      split
      · next h => exact Acc.views_of_ok h hl
      · exact hl
    · exact accRead_views

/-- A record read keeps the hart and the fabrics. -/
theorem readRec_views {l : List (Word × Nat)} : (readRec s l).views (fabView s) := by
  induction l generalizing s with
  | nil => rfl
  | cons r l ih =>
    obtain ⟨a, n⟩ := r
    simp only [readRec]
    split
    · trivial
    · next u xs h =>
      have hu := RangeRes.views_of_ok h rangeOf_views
      split
      · trivial
      · trivial
      · next k bs h =>
        have hk := (Acc.views_of_ok h accReads_views).trans hu
        have hl := ih (s := k)
        rw [hk] at hl
        split
        · next h => exact Rd.views_of_ok h hl
        · exact hl

end

end Sys2Proof.Machine
end

section
/-! PROOFS. The statements of spec/03_coherence_and_cinches.md: the fabric's commands. -/

namespace Sys2Proof.Machine
open Sys2Proof Sys2Proof.Claims

/-! ## The checks FCFG, FRUN and FHALT share (R358) -/

/-- A command that ends uses its sources up. -/
def popped (srcs : List (BitVec 5 × Bool)) : Res → Res
  | .ok s => .ok (popSrcs s srcs)
  | r => r

section
variable {s u : State} {ga gd : BitVec 5} {c : Comp} {align n : Nat} {refused : State → Bool} {k : State → Word → Word → Res} {a : Word} {words : List Word}

theorem fabIssue_featureless (h : featOn s 4 = false) : fabIssue ga gd c align refused k s = traps s 1 0 0 := by
  simp only [fabIssue, h, Bool.not_false, if_true]
  rfl

/-- What the grant leaves to be checked. -/
theorem fabIssue_granted (h : FabGrant s ga gd c) : fabIssue ga gd c align refused k s = finish4 s (if refused s then operandR s else if (gVal s gd).toNat % 8 != 0 then trapR s cMISALIGN (gVal s gd)
      else if (gVal s ga).toNat % align != 0 then trapR s cMISALIGN (gVal s ga)
      else popped [(ga, false), (gd, false)] (k s (gVal s ga) (gVal s gd))) := by
  obtain ⟨hf, hr, hb, hc⟩ := h
  have hn : ((tileOf s (curTile s)).fb != some s.cur) = false := by simp [hb]
  simp only [fabIssue, hf, hn, withRegs_ready hr, hc, Bool.not_true, Bool.false_eq_true, if_false]
  rfl
theorem fabIssue_refused (h : FabGrant s ga gd c) (hr : refused s = true) : fabIssue ga gd c align refused k s = traps s 0x0B 0 0 :=
  (fabIssue_granted h).trans (congrArg (finish4 s) (if_pos hr))
theorem fabIssue_stamp (h : FabGrant s ga gd c) (hr : refused s = false) (hg : (gVal s gd).toNat % 8 ≠ 0) : fabIssue ga gd c align refused k s = traps s 3 0 (gVal s gd) :=
  (fabIssue_granted h).trans (congrArg (finish4 s) ((if_neg (Bool.eq_false_iff.mp hr)).trans (if_pos (bne_iff_ne.mpr hg))))
theorem fabIssue_place (h : FabGrant s ga gd c) (hr : refused s = false) (hg : (gVal s gd).toNat % 8 = 0) (ha : (gVal s ga).toNat % align ≠ 0) :
    fabIssue ga gd c align refused k s = traps s 3 0 (gVal s ga) :=
  (fabIssue_granted h).trans (congrArg (finish4 s) ((if_neg (Bool.eq_false_iff.mp hr)).trans ((if_neg (by simp [hg])).trans (if_pos (bne_iff_ne.mpr ha)))))
theorem fabIssue_issued (h : FabReady s ga gd c align) (hr : refused s = false) : fabIssue ga gd c align refused k s = finish4 s (popped [(ga, false), (gd, false)] (k s (gVal s ga) (gVal s gd))) := by
  obtain ⟨hgrant, hg, ha⟩ := h
  exact (fabIssue_granted hgrant).trans (congrArg (finish4 s) ((if_neg (Bool.eq_false_iff.mp hr)).trans ((if_neg (by simp [hg])).trans (if_neg (by simp [ha])))))
theorem fabIssue_ok (h : FabReady s ga gd c align) (hr : refused s = false) (hk : k s (gVal s ga) (gVal s gd) = .ok u) :
    fabIssue ga gd c align refused k s = ends4 s (popSrcs u [(ga, false), (gd, false)]) := by
  rw [fabIssue_issued h hr, hk]
  rfl
theorem fabIssue_trap {p : Word} (h : FabReady s ga gd c align) (hr : refused s = false) (hk : k s (gVal s ga) (gVal s gd) = .stop u (.trap cOPERAND 0 p)) :
    fabIssue ga gd c align refused k s = .next (takeTrap u 0x0B 0 p (curH s).pc) := by
  rw [fabIssue_issued h hr, hk]
  rfl
theorem fabIssue_waits {w : Wait} (h : FabReady s ga gd c align) (hr : refused s = false) (hk : k s (gVal s ga) (gVal s gd) = waitR u w) :
    fabIssue ga gd c align refused k s = .next (setCur u { curH u with wait := w }) := by
  rw [fabIssue_issued h hr, hk]
  rfl

theorem afterDrain_drained {k : State → Res} (h : drained (flushHart s s.cur) (flushHart s s.cur).cur = true) : afterDrain s k = k (flushHart s s.cur) := if_pos h
theorem afterDrain_waits {k : State → Res} (h : drained (flushHart s s.cur) (flushHart s s.cur).cur = false) : afterDrain s k = waitR (flushHart s s.cur) .drain := if_neg (Bool.eq_false_iff.mp h)
theorem record_further {k : State → List Word → Res} (h : further s a n u words) : record s a n k = k u words := by
  obtain ⟨bs, hread, rfl⟩ := h
  simp only [record, hread]
theorem record_captured {k : State → List Word → Res} (h : captured (flushHart s s.cur) a n u words) : afterDrain s (fun s => record s a n k) = k u words := by
  obtain ⟨hd, hread⟩ := h
  exact (afterDrain_drained hd).trans (record_further hread)

theorem fabView_further (h : further s a n u words) : fabView u = fabView s := by
  obtain ⟨bs, hread, -⟩ := h
  exact Rd.views_of_ok hread readRec_views
theorem fabView_flushHart (s : State) (h : Nat) : fabView (flushHart s h) = fabView s :=
  fabView_of rfl (tilesUpTo_flushMerge (f := fun x : Tile => x.fab) (fun _ _ => rfl) s (h / 16) _).tile
theorem fabView_captured (h : captured (flushHart s s.cur) a n u words) : fabView u = fabView s := (fabView_further h.2).trans (fabView_flushHart ..)

end

/-! ## FCFG (R358, R400) -/

section
variable {s u v : State} {ga gd : BitVec 5} {c : Comp} {h l : List Word}

theorem execFcfg_headBad (hr : FabReady s ga gd c 128) (hb : fabBusy s (curTile s) = false) (hc : captured (flushHart s s.cur) (gVal s ga) 8 u h) (hh : headBad (h.getD 0 0) = true) :
    execFcfg ga gd c s = .next (takeTrap u 0x0B 0 (gVal s ga) (curH s).pc) :=
  fabIssue_trap hr hb ((record_captured hc).trans (if_pos hh))
theorem execFcfg_imgBad (hr : FabReady s ga gd c 128) (hb : fabBusy s (curTile s) = false) (hc : captured (flushHart s s.cur) (gVal s ga) 8 u h) (hh : headBad (h.getD 0 0) = false)
    (hl : further u (gVal s ga) (imgWords (h.getD 0 0)) v l) (hi : imgBad (imgOf l) = true) : execFcfg ga gd c s = .next (takeTrap v 0x0B 0 (gVal s ga) (curH s).pc) :=
  fabIssue_trap hr hb ((record_captured hc).trans ((if_neg (Bool.eq_false_iff.mp hh)).trans ((record_further hl).trans (if_pos hi))))
theorem execFcfg_loads (hr : FabReady s ga gd c 128) (hb : fabBusy s (curTile s) = false) (hc : captured (flushHart s s.cur) (gVal s ga) 8 u h) (hh : headBad (h.getD 0 0) = false)
    (hl : further u (gVal s ga) (imgWords (h.getD 0 0)) v l) (hi : imgBad (imgOf l) = false) (hj : (imgOf l).join = false ∨ joinBad v = false) (hclaim : claimBad v (imgOf l) = false) :
    execFcfg ga gd c s = ends4 s (popSrcs (fabActions (loadImage v l (imgOf l)) (curPart v) (curTile v) v.cur (curH v).sup (gVal s gd) c none) [(ga, false), (gd, false)]) := by
  have hfree : ((imgOf l).join && joinBad v || claimBad v (imgOf l)) = false := by
    rcases hj with hj | hj <;> simp [hj, hclaim]
  exact fabIssue_ok hr hb ((record_captured hc).trans ((if_neg (Bool.eq_false_iff.mp hh)).trans ((record_further hl).trans ((if_neg (Bool.eq_false_iff.mp hi)).trans (if_neg (Bool.eq_false_iff.mp hfree))))))

end

/-! ## FRUN (R358, R401) -/

section
variable {s u v : State} {ga gd : BitVec 5} {c : Comp} {args l : List Word} {pats : List (Nat × List Word)} {f : Fabric}

/-- Pattern records that are read and not refused keep the hart and the fabrics. -/
theorem fabView_readPats {ps : List FPortE} {got : List (Nat × List Word)} (h : ∀ K, readPats s args ps got K = K v pats) : fabView v = fabView s := by
  have hok := h fun s _ => .ok s
  clear h
  induction ps generalizing s got with
  | nil =>
    cases hok
    rfl
  | cons p ps ih =>
    simp only [readPats] at hok
    split at hok
    · cases hok
    · split at hok
      · cases hok
      · next k bs hread =>
        split at hok
        · cases hok
        · exact (ih hok).trans (Rd.views_of_ok hread readRec_views)

/-- The run that FRUN starts. -/
def frunRun (s : State) (i : FImg) (gd : Word) (c : Comp) (args : List Word) : FabRun :=
  { newRun s gd c with
    acc := (i.cells.filter fun x => x.op == opACC).foldl (fun m x => mput m x.pos x.imm) []
    awls := i.awls.foldl (fun m x => mput m x.n (newAwl (args.getD x.bslot 0 + x.boff))) []
    ports := i.ports.foldl (fun m p => mput m p.q { pos := 0, endDone := false, frozen := false }) [] }
/-- What its units performed before is forgotten. -/
def frunForgot (s : State) (f : Fabric) (i : FImg) : State :=
  i.ports.foldl (fun k p => forgetWrote k (curTile s) p.q)
    (i.awls.foldl (fun k x => awlMoved (forgetWrote k (tileOfAwl i (curTile s) x.n) (16 + x.n % 16)) (curTile s) f i x 0) s)
/-- What it leaves, in a state whose ports' patterns it has read. -/
def frunStarted (v : State) (f : Fabric) (i : FImg) (gd : Word) (c : Comp) (args : List Word) (pats : List (Nat × List Word)) : State :=
  startNodes (setRun (setPats (frunForgot v f i) (curTile v) i gd pats) (curTile v) (frunRun v i gd c args)) (curTile v) i

theorem execFrun_starts (hr : FabReady s ga gd c 8) (hf : ownFabric s = some f) (hc : captured (flushHart s s.cur) (gVal s ga) (imgOf f.image).narg u args)
    (hb : ∀ x ∈ (imgOf f.image).awls, baseBad args x = false) (hp : ∀ K, readPats u args (imgOf f.image).ports [] K = K v pats) :
    execFrun ga gd c s = ends4 s (popSrcs (frunStarted v f (imgOf f.image) (gVal s gd) c args pats) [(ga, false), (gd, false)]) := by
  have hown : (ownFabric s).isNone = false := by rw [hf]; rfl
  have hbase : ¬(imgOf f.image).awls.any (baseBad args) = true := by simpa using hb
  refine fabIssue_ok hr hown ?_
  simp only [hf]
  exact (record_captured hc).trans ((if_neg hbase).trans (hp _))

theorem ownFabric_eq (h : ownFabric s = some f) : fabOf s (curTile s) = some f ∧ f.lead = curTile s ∧ f.part = curPart s ∧ f.run = none := by
  unfold ownFabric at h
  split at h
  · next g hg =>
    split at h
    · next hc =>
      cases h
      simpa [hg, and_assoc] using hc
    · cases h
  · cases h

end

/-! ### What FRUN leaves -/

section
variable {s : State} {α : Type} {l : List α} {ev : α → Event}

theorem subset_postsOnce {x : Event} (h : x ∈ s.agenda) : x ∈ (l.foldl (fun s a => postOnce s (ev a)) s).agenda := by
  induction l generalizing s with
  | nil => exact h
  | cons a l ih => exact ih (subset_postOnce_agenda h)
theorem mem_postsOnce {a : α} (h : a ∈ l) : ev a ∈ (l.foldl (fun s a => postOnce s (ev a)) s).agenda := by
  induction l generalizing s with
  | nil => cases h
  | cons b l ih =>
    rcases List.mem_cons.mp h with rfl | h
    · exact subset_postsOnce (s := postOnce s _) (mem_postOnce_agenda ..)
    · exact ih h
/-- Events that are posted change nothing else. -/
theorem postsOnce_keeps {β : Type} {g : State → β} (hg : ∀ (s : State) (l : List Event), g { s with agenda := l } = g s) : g (l.foldl (fun s a => postOnce s (ev a)) s) = g s := by
  refine foldl_keeps (fun k a => ?_) l s
  unfold postOnce
  split
  · rfl
  · exact hg ..
end

section
variable {s : State} {t : Nat} {i : FImg}

theorem startNodes_keeps {β : Type} {g : State → β} (hg : ∀ (s : State) (l : List Event), g { s with agenda := l } = g s) : g (startNodes s t i) = g s :=
  (postsOnce_keeps hg).trans ((postsOnce_keeps hg).trans (postsOnce_keeps hg))
theorem cellFire_startNodes {c : FCell} (h : c ∈ cellsOf i) : .cellFire t c.pos ∈ (startNodes s t i).agenda := subset_postsOnce (subset_postsOnce (mem_postsOnce h))
theorem awlElement_startNodes {a : FAwl} (h : a ∈ i.awls) : .awlElement t a.n ∈ (startNodes s t i).agenda := subset_postsOnce (mem_postsOnce h)
theorem portElement_startNodes {p : FPortE} (h : p ∈ i.ports) : .portElement t p.q ∈ (startNodes s t i).agenda := mem_postsOnce h
end

/-- A map filled from a list has the value of an element whose key no other element has. -/
theorem mfind_foldl_mput {α β : Type} {key : α → Nat} {val : α → β} {x : α} {l : List α} (hx : x ∈ l) (hu : ∀ y ∈ l, key y = key x → y = x) (m : SMap β) :
    mfind (l.foldl (fun m y => mput m (key y) (val y)) m) (key x) = some (val x) := by
  have hrest : ∀ (l : List α) (m : SMap β), (∀ y ∈ l, key y = key x → y = x) → mfind m (key x) = some (val x) → mfind (l.foldl (fun m y => mput m (key y) (val y)) m) (key x) = some (val x) := by
    intro l
    induction l with
    | nil => exact fun m _ h => h
    | cons y l ih =>
      intro m hu h
      refine ih _ (fun z hz => hu z (List.mem_cons_of_mem _ hz)) ?_
      by_cases hk : key y = key x
      · rw [hu y List.mem_cons_self hk, mfind_mput_same]
      · rw [mfind_mput_other _ _ _ (Ne.symm hk), h]
  obtain ⟨l₁, l₂, rfl⟩ := List.append_of_mem hx
  rw [List.foldl_append, List.foldl_cons]
  exact hrest l₂ _ (fun y hy => hu y (by simp [hy])) (mfind_mput_same ..)

section
variable {v : State} {f g : Fabric} {i : FImg} {gd : Word} {c : Comp} {args : List Word} {pats : List (Nat × List Word)}

theorem frunForgot_keeps {β : Type} {g : State → β} (hg : ∀ (s : State) w c, g { s with wrote := w, cinches := c } = g s) : g (frunForgot v f i) = g v :=
  (foldl_keeps (fun k _ => hg k _ _) ..).trans (foldl_keeps (fun k _ => hg k _ _) ..)
theorem setPats_keeps {β : Type} {g : State → β} {t : Nat} (hg : ∀ (s : State) q e, g (setEng s t q e) = g s) : g (setPats v t i gd pats) = g v := foldl_keeps (fun k _ => hg k _ _) ..

theorem fabOf_of_fabView {s k : State} (h : fabView k = fabView s) (t : Nat) : fabOf k t = fabOf s t := congrFun (congrArg Prod.snd h) t
theorem fabOf_setEng (s : State) (t q : Nat) (e : SEng) (i : Nat) : fabOf (setEng s t q e) i = fabOf s i := by
  refine fabOf_of_fabView (fabView_setTile ?_) i
  rfl
/-- The fabric of the tile runs, and home memory is as it was read. -/
theorem runAt_frunStarted (h : fabOf v (curTile v) = some g) : runAt (frunStarted v f i gd c args pats) (curTile v) = some (frunRun v i gd c args) := by
  have hfab : fabOf (setPats (frunForgot v f i) (curTile v) i gd pats) (curTile v) = some g :=
    ((setPats_keeps (g := fun s => fabOf s (curTile v)) fun s q e => fabOf_setEng ..).trans (frunForgot_keeps (g := fun s => fabOf s (curTile v)) fun _ _ _ => rfl)).trans h
  rw [frunStarted, startNodes_keeps (g := fun s => runAt s (curTile v)) fun _ _ => rfl]
  simp only [runAt, setRun, tileOf_setTile_same, hfab, Option.map_some, Option.bind_some]
theorem frunStarted_mem : (frunStarted v f i gd c args pats).mem = v.mem :=
  (startNodes_keeps (g := (·.mem)) fun _ _ => rfl).trans ((setPats_keeps (g := (·.mem)) fun _ _ _ => rfl).trans (frunForgot_keeps (g := (·.mem)) fun _ _ _ => rfl))
end

/-! ## FRUN with a cut (R358, R405, R407) -/

section
variable {s u : State} {ga gd : BitVec 5} {c : Comp} {l : List Word} {pats : List (Nat × List Word)} {f : Fabric}

theorem execFrunResume_cutBad (hr : FabReady s ga gd c 128) (hf : ownFabric s = some f) (hc : captured (flushHart s s.cur) (gVal s ga) (cutSize (imgOf f.image)) u l)
    (hb : cutBad f (imgOf f.image) l = true) : execFrunResume ga gd c s = .next (takeTrap u 0x0B 0 (gVal s ga) (curH s).pc) := by
  have hown : (ownFabric s).isNone = false := by rw [hf]; rfl
  refine fabIssue_trap hr hown ?_
  simp only [hf]
  exact (record_captured hc).trans (if_pos hb)
theorem execFrunResume_unsaved (hr : FabReady s ga gd c 128) (hf : ownFabric s = some f) (hc : captured (flushHart s s.cur) (gVal s ga) (cutSize (imgOf f.image)) u l)
    (hb : cutBad f (imgOf f.image) l = false) (hp : cutPats u f.part (gVal s ga) l (imgOf f.image).ports = none) : execFrunResume ga gd c s = .next (takeTrap u 0x0B 0 0 (curH s).pc) := by
  have hown : (ownFabric s).isNone = false := by rw [hf]; rfl
  refine fabIssue_trap hr hown ?_
  simp only [hf]
  refine (record_captured hc).trans ((if_neg (Bool.eq_false_iff.mp hb)).trans ?_)
  rw [hp]
  rfl

/-- The awls' positions of a cut, and their requests, are those of the run again. -/
def resumed (u : State) (f : Fabric) (i : FImg) (l : List Word) : State :=
  i.awls.zipIdx.foldl (fun k q =>
    let w3 := l.getD (cutAwlAt i + 72 * q.2 + 3) 0
    let k := awlMoved k (curTile u) f i q.1 (bits w3 31 0)
    if bitOf w3 34 then claimAnswer k f.part (bits w3 50 35) (tileOfAwl i (curTile u) q.1.n) q.1.n else k) u

theorem execFrunResume_resumes (hr : FabReady s ga gd c 128) (hf : ownFabric s = some f) (hc : captured (flushHart s s.cur) (gVal s ga) (cutSize (imgOf f.image)) u l)
    (hb : cutBad f (imgOf f.image) l = false) (hp : cutPats u f.part (gVal s ga) l (imgOf f.image).ports = some pats) :
    execFrunResume ga gd c s = ends4 s (popSrcs (startNodes (putRun (setPats (resumed u f (imgOf f.image) l) (curTile u) (imgOf f.image) (gVal s gd) pats) (curTile u) (imgOf f.image)
      (restoreRun u f (imgOf f.image) (newRun u (gVal s gd) c) l)) (curTile u) (imgOf f.image)) [(ga, false), (gd, false)]) := by
  have hown : (ownFabric s).isNone = false := by rw [hf]; rfl
  refine fabIssue_ok hr hown ?_
  simp only [hf]
  refine (record_captured hc).trans ((if_neg (Bool.eq_false_iff.mp hb)).trans ?_)
  rw [hp]
  rfl

end

/-! ## FHALT (R151, R345, R358) -/

section
variable {s : State} {ga gd : BitVec 5} {c : Comp} {f l : Fabric} {u : FabRun}

theorem execFhalt_drains (hr : FabReady s ga gd c 128) (hd : drained (flushHart s s.cur) (flushHart s s.cur).cur = false) :
    execFhalt ga gd c s = .next (setCur (flushHart s s.cur) { curH (flushHart s s.cur) with wait := .drain }) := fabIssue_waits hr rfl (afterDrain_waits hd)

/-- The freeze that FHALT asks for. -/
def fhaltFreeze (s w : State) (ga gd : BitVec 5) (c : Comp) : Freeze := { swap := false, ga := gVal s ga, gd := gVal s gd, comp := c, sup := (curH w).sup, hart := w.cur, since := w.clock, pos := 0 }

section
variable (hr : FabReady s ga gd c 128) (hd : drained (flushHart s s.cur) (flushHart s s.cur).cur = true)
include hr hd

theorem execFhalt_idle (h : ∀ f l, fabOf (flushHart s s.cur) (curTile (flushHart s s.cur)) = some f → fabOf (flushHart s s.cur) f.lead = some l → l.run = none) :
    execFhalt ga gd c s = ends4 s (popSrcs (acts s (flushHart s s.cur) gd c) [(ga, false), (gd, false)]) := by
  refine fabIssue_ok hr rfl ((afterDrain_drained hd).trans ?_)
  cases hf : fabOf (flushHart s s.cur) (curTile (flushHart s s.cur)) with
  | none =>
    simp only [hf]
    rfl
  | some f =>
    cases hl : fabOf (flushHart s s.cur) f.lead with
    | none =>
      simp only [hf, hl, Option.bind_some]
      rfl
    | some l =>
      simp only [hf, hl, h f l hf hl, Option.bind_some, Option.map_some]
      rfl

variable (hf : fabOf (flushHart s s.cur) (curTile (flushHart s s.cur)) = some f) (hl : fabOf (flushHart s s.cur) f.lead = some l) (hu : l.run = some u)
include hf hl hu

theorem execFhalt_freezes (hz : u.freeze = none) (hs : u.stopped = false) (ho : runOver (imgOf l.image) u = false) : execFhalt ga gd c s =
    ends4 s (popSrcs (postOnce (beginFreeze (flushHart s s.cur) f.lead (imgOf l.image) u (fhaltFreeze s (flushHart s s.cur) ga gd c)) (.cutWrite f.lead)) [(ga, false), (gd, false)]) := by
  refine fabIssue_ok hr rfl ((afterDrain_drained hd).trans ?_)
  simp only [hf, hl, hu, hz, hs, ho, Option.bind_some, Option.map_some, Option.isSome_none, Bool.or_self, Bool.false_eq_true, if_false]
  rfl
theorem execFhalt_over (hz : u.freeze = none) (ho : u.stopped = true ∨ runOver (imgOf l.image) u = true) :
    execFhalt ga gd c s = ends4 s (popSrcs (acts s (flushHart s s.cur) gd c) [(ga, false), (gd, false)]) := by
  have hover : (u.stopped || runOver (imgOf l.image) u) = true := by simpa using ho
  refine fabIssue_ok hr rfl ((afterDrain_drained hd).trans ?_)
  simp only [hf, hl, hu, hz, hover, Option.bind_some, Option.map_some, Option.isSome_none, Bool.false_eq_true, if_false, if_true]
  rfl
theorem execFhalt_full (hz : u.freeze ≠ none) (hh : 3 ≤ l.halts.length) :
    execFhalt ga gd c s = .next (setCur (flushHart s s.cur) { curH (flushHart s s.cur) with wait := .queue }) := by
  refine fabIssue_waits hr rfl ((afterDrain_drained hd).trans ?_)
  simp only [hf, hl, hu, Option.isSome_iff_ne_none.mpr hz, hh, Option.bind_some, Option.map_some, if_true]
theorem execFhalt_queued (hz : u.freeze ≠ none) (hh : l.halts.length < 3) : execFhalt ga gd c s = ends4 s (popSrcs (setTile (flushHart s s.cur) f.lead
    { tileOf (flushHart s s.cur) f.lead with fab := some { l with halts := l.halts ++ [fhaltFreeze s (flushHart s s.cur) ga gd c] } }) [(ga, false), (gd, false)]) := by
  refine fabIssue_ok hr rfl ((afterDrain_drained hd).trans ?_)
  simp only [hf, hl, hu, Option.isSome_iff_ne_none.mpr hz, Nat.not_le.mpr hh, Option.bind_some, Option.map_some, if_true, if_false]
  rfl

end

end

end Sys2Proof.Machine
namespace Sys2Proof.Proofs
open Sys2Proof Sys2Proof.Machine Sys2Proof.Claims

theorem fabMisaligned_of {i : Instr} {s : State} {ga gd : BitVec 5} {c : Comp} {align : Nat} {refused : State → Bool} {k : State → Word → Word → Res}
    (hi : exec i s = fabIssue ga gd c align refused k s) (h : FabGrant s ga gd c) (hr : refused s = false) : FabMisaligned i s ga gd align :=
  ⟨fun hg => hi.trans (fabIssue_stamp h hr hg), fun hg ha => hi.trans (fabIssue_place h hr hg ha)⟩

theorem fabricCommands : Claims.FabricCommands := by
  intro s ga gd c w a srcs
  refine ⟨fun h => ?_, fun h => ⟨fun hb => ?_, fun ho => ?_, fun hb => ?_, fun ho => ?_, fun ho => ?_, ?_⟩, fun hr hb u h v l hc => ?_, fun hr f hf u args hc hb v pats hp => ?_,
    fun hr f hf u l hc => ?_, fun hr hd => ?_, fun hr hd => ⟨fun h => ?_, fun f l u hf hl hu => ?_⟩⟩
  · rw [exec_fcfg, exec_frun, exec_frunResume, exec_fhalt]
    exact ⟨fabIssue_featureless h, fabIssue_featureless h, fabIssue_featureless h, fabIssue_featureless h⟩
  -- what the grant leaves to be checked
  · rw [exec_fcfg]
    exact fabIssue_refused h hb
  · have hn : (ownFabric s).isNone = true := by rw [ho]; rfl
    rw [exec_frun, exec_frunResume]
    exact ⟨fabIssue_refused h hn, fabIssue_refused h hn⟩
  · exact fabMisaligned_of (exec_fcfg s) h hb
  · exact fabMisaligned_of (exec_frun s) h (Option.isNone_eq_false_iff.mpr (Option.isSome_iff_ne_none.mpr ho))
  · exact fabMisaligned_of (exec_frunResume s) h (Option.isNone_eq_false_iff.mpr (Option.isSome_iff_ne_none.mpr ho))
  · exact fabMisaligned_of (exec_fhalt s) h rfl
  -- FCFG
  · simp only [exec_fcfg]
    exact ⟨execFcfg_headBad hr hb hc, fun hh hl => ⟨execFcfg_imgBad hr hb hc hh hl, execFcfg_loads hr hb hc hh hl⟩⟩
  -- FRUN
  · obtain ⟨hfab, -, -, -⟩ := ownFabric_eq hf
    have hview : fabView v = fabView s := (fabView_readPats hp).trans (fabView_captured hc)
    have htile : curTile v = curTile s := congrArg (· / 16) (congrArg Prod.fst hview)
    have hrun : runAt (frunStarted v f (imgOf f.image) (gVal s gd) c args pats) (curTile s) = some (frunRun v (imgOf f.image) (gVal s gd) c args) := by
      rw [← htile]
      exact runAt_frunStarted (((fabOf_of_fabView hview _).trans (congrArg (fabOf s) htile)).trans hfab)
    have hpop := tilesUpTo_popSrcs (f := fun x : Tile => x.fab) (fun _ _ => rfl) (frunStarted v f (imgOf f.image) (gVal s gd) c args pats) srcs
    have hagenda : (popSrcs (frunStarted v f (imgOf f.image) (gVal s gd) c args pats) srcs).agenda = (frunStarted v f (imgOf f.image) (gVal s gd) c args pats).agenda := hpop.keeps (·.agenda) rfl
    rw [exec_frun, execFrun_starts hr hf hc hb hp]
    refine ⟨_, frunRun v (imgOf f.image) (gVal s gd) c args, rfl, by simp [goTo], ?_, rfl, rfl, rfl, rfl, rfl, fun x hx hu => ⟨mfind_foldl_mput hx hu _, ?_⟩, fun x hx => ?_, fun x hx => ?_, ?_⟩
    · exact (congrArg (fun x : Option Fabric => x.bind (·.run)) (hpop.tile (curTile s))).trans hrun
    · rw [goTo_agenda, hagenda, ← htile]
      exact awlElement_startNodes hx
    · rw [goTo_agenda, hagenda, ← htile]
      exact cellFire_startNodes hx
    · rw [goTo_agenda, hagenda, ← htile]
      exact portElement_startNodes hx
    · exact (hpop.keeps (·.mem) rfl).trans frunStarted_mem
  · simp only [exec_frunResume]
    exact ⟨execFrunResume_cutBad hr hf hc, execFrunResume_unsaved hr hf hc, fun pats => execFrunResume_resumes hr hf hc⟩
  -- FHALT
  · rw [exec_fhalt]
    exact execFhalt_drains hr hd
  · rw [exec_fhalt]
    exact execFhalt_idle hr hd h
  · simp only [exec_fhalt]
    exact ⟨execFhalt_freezes hr hd hf hl hu, execFhalt_over hr hd hf hl hu, execFhalt_full hr hd hf hl hu, execFhalt_queued hr hd hf hl hu⟩

end Sys2Proof.Proofs
end

section
/-! PROOFS. The statements of spec/03_coherence_and_cinches.md: the fabric's ports, and the end of a run. -/

namespace Sys2Proof.Machine
open Sys2Proof Sys2Proof.Claims

theorem withRun_runs {s : State} {t : Nat} {f : Fabric} {i : FImg} {u : FabRun} (h : Runs s t f i u) (k : Fabric → FImg → FabRun → State) : withRun s t k = k f i u := by
  obtain ⟨hf, hu, rfl⟩ := h
  simp only [withRun, fabOf, hf, hu]

/-! ## Ports (R398, R461) -/

section
variable {s w : State} {t n : Nat} {f : Fabric} {i : FImg} {u : FabRun} {p : FPortE} {x : FPort} {e : SEng} {bs : List Byte}

theorem execPortElement_runs (h : Runs s t f i u) (hp : i.ports.find? (·.q == n) = some p) (hx : mfind u.ports n = some x) (he : mfind (tileOf s t).se n = some e) (hs : u.stopped = false)
    (hf : x.frozen = false) (hst : e.stall = none) (herr : e.err = none) : execPortElement t n s = .next (if p.write then writePort s t n i u x e else readPort s t n i u x e) := by
  simp only [execPortElement, withRun_runs h, hp, hx, he, hs, hf, hst, herr, Option.isSome_none, Bool.or_self, Bool.false_eq_true, if_false]

theorem readPort_end (hz : u.freeze = none) (hd : x.endDone = false) (hr : room u (feeds i (portSrc n)) 1 = true) (he : e.err = none) (hp : patTotal e.recd ≤ x.pos) :
    readPort s t n i u x e = postOnce (putRun s t i (setPort (push u (feeds i (portSrc n)) endTok) n { x with endDone := true })) (.portElement t n) := by
  simp only [readPort, hz, hd, hr, he, hp, Option.isSome_none, Bool.false_eq_true, if_false, if_true, Bool.not_true, Bool.or_self]
theorem readPort_reads (hz : u.freeze = none) (hd : x.endDone = false) (hr : room u (feeds i (portSrc n)) 1 = true) (he : e.err = none) (hp : x.pos < patTotal e.recd)
    (ha : engRead s (whoEng e t n (.portElement t n)) e.sup (patAddr e.recd x.pos) (patBytes e.recd) = .ok w bs) : readPort s t n i u x e =
      postOnce (putRun (setEng w t n e) t i (setPort (push u (feeds i (portSrc n)) (dataTok ((popValue e bs).setWidth 32))) n { x with pos := x.pos + 1 })) (.portElement t n) := by
  simp only [readPort, hz, hd, hr, he, Nat.not_le.mpr hp, ha, portStep, Option.isSome_none, Bool.false_eq_true, if_false, Bool.not_true, Bool.or_self]
  rfl

/-- A port that has gathered what it can writes the tokens that its next position takes with it, or waits for more. -/
def gathered (s : State) (t n : Nat) (i : FImg) (u : FabRun) (x : FPort) (e : SEng) : Option (List Nat) → State
  | none => postOnce (putRun s t i u) (.portElement t n)
  | some l => portStep t n i u e (dropPush e l) (engWrite s (whoEng e t n (.portElement t n)) e.sup (pushBytes e.recd x.pos e.data l).1 (pushBytes e.recd x.pos e.data l).2) fun _ =>
      setPort u n { x with pos := x.pos + 1 }

/-- A data token is no end. -/
theorem isEnd_of_data {k : Tok} (h : k.kind = 0) : k.isEnd = false := by simp [Tok.isEnd, h]
theorem isEnd_of_end {k : Tok} (h : k.kind = 1) : k.isEnd = true := by simp [Tok.isEnd, h]

theorem writePort_end (hd : e.data = []) (hk : headAt u (portQ n) = some endTok) (hx : x.endDone = false) (hp : patTotal e.recd ≤ x.pos) :
    writePort s t n i u x e = postOnce (putRun s t i (setPort (popQ u (portQ n)) n { x with endDone := true })) (.portElement t n) := by
  have hdata : (e.err.isNone && !e.data.isEmpty) = false := by simp [hd]
  have hover : (x.endDone || (e.err.isNone && decide (x.pos < patTotal e.recd))) = false := by simp [hx, hp]
  simp only [writePort, hdata, hk, hover, isEnd_of_end (k := endTok) rfl, Bool.false_eq_true, if_false, if_true]
  rfl

section
variable (he : e.err = none)
include he

section
variable (hd : e.data ≠ [])
include hd

/-- A port that gathers takes one token more. -/
theorem writePort_takes {k : Tok} (hk : headAt u (portQ n) = some k) (hkind : k.kind = 0) (hl : patTotal e.recd - (x.pos + e.data.length) ≠ 0) (hn : e.data.length * patBytes e.recd < 4096) :
    writePort s t n i u x e = postOnce (putRun (setEng s t n { e with data := e.data ++ [k.d.setWidth 64], mask := e.mask ++ [true] }) t i (popQ u (portQ n))) (.portElement t n) := by
  have hdata : (e.err.isNone && !e.data.isEmpty) = true := by simp [he, hd]
  have hmore : (patTotal e.recd - (x.pos + e.data.length) == 0 || decide (4096 ≤ e.data.length * patBytes e.recd)) = false := by simp [hn, hl]
  simp only [writePort, hdata, hmore, hk, isEnd_of_data hkind, if_true, Bool.false_eq_true, if_false]

/-- It takes none where its pattern ends, it holds enough, or none has come. -/
theorem writePort_gathered (hz : u.freeze = none) (h : patTotal e.recd - (x.pos + e.data.length) = 0 ∨ 4096 ≤ e.data.length * patBytes e.recd ∨ ∀ k, headAt u (portQ n) = some k → k.kind = 1) :
    writePort s t n i u x e = if !e.mask.headD true then postOnce (putRun (setEng s t n (dropPush e [0])) t i (setPort u n { x with pos := x.pos + 1 })) (.portElement t n)
      else gathered s t n i u x e (nextPush e.recd x.pos e.data e.mask (patTotal e.recd - (x.pos + e.data.length) != 0 && (headAt u (portQ n)).isNone)) := by
  have hdata : (e.err.isNone && !e.data.isEmpty) = true := by simp [he, hd]
  by_cases hstop : (patTotal e.recd - (x.pos + e.data.length) == 0 || decide (4096 ≤ e.data.length * patBytes e.recd)) = true
  · simp only [writePort, hdata, hstop, hz, Option.isSome_none, Bool.false_and, Bool.not_false, Bool.and_true, if_true]
    rfl
  · have hend : ∀ k, headAt u (portQ n) = some k → k.kind = 1 := by
      rcases h with h | h | h
      · exact absurd (by simp [h]) hstop
      · exact absurd (by simp [h]) hstop
      · exact h
    cases hk : headAt u (portQ n) with
    | none =>
      simp only [writePort, hdata, hstop, hk, hz, Option.isSome_none, Bool.false_and, Bool.not_false, Bool.and_true, if_true, Bool.false_eq_true, if_false]
      rfl
    | some k =>
      simp only [writePort, hdata, hstop, hk, hz, isEnd_of_end (hend k hk), Option.isSome_none, Bool.false_and, Bool.not_false, Bool.and_true, if_true, Bool.false_eq_true, if_false]
      rfl

end

section
variable (hd : e.data = [])
include hd

section
variable {k : Tok} (hk : headAt u (portQ n) = some k) (hkind : k.kind = 0) (hp : x.pos < patTotal e.recd)
include hk hkind hp

/-- A token of the pattern is written at once, or where its granule will be written whole it is held. -/
theorem writePort_data (hz : u.freeze = none) : writePort s t n i u x e = if (wholePos e.recd x.pos).isSome then
      portStep t n i u e { e with data := e.data ++ [k.d.setWidth 64], mask := e.mask ++ [true] }
        (engXlate s (whoEng e t n (.portElement t n)) e.sup (patAddr e.recd x.pos) (patBytes e.recd) .write fun v _ => .ok v []) fun _ => popQ u (portQ n)
    else portStep t n i (popQ u (portQ n)) e e (engWrite s (whoEng e t n (.portElement t n)) e.sup (patAddr e.recd x.pos) (leBytes (patBytes e.recd) k.d.toNat)) fun _ =>
      setPort (popQ u (portQ n)) n { x with pos := x.pos + 1 } := by
  have hdata : (e.err.isNone && !e.data.isEmpty) = false := by simp [hd]
  have hl : (patTotal e.recd - (x.pos + e.data.length) == 0) = false := by
    rw [hd]
    simpa using Nat.sub_ne_zero_of_lt hp
  simp only [writePort, hdata, hk, hl, hz, isEnd_of_data hkind, Option.isSome_none, Bool.false_and, Bool.not_false, Bool.and_true, Bool.false_eq_true, if_false]
  rw [he]
  rfl
theorem writePort_single (hz : u.freeze = none) (hw : wholePos e.recd x.pos = none)
    (ha : engWrite s (whoEng e t n (.portElement t n)) e.sup (patAddr e.recd x.pos) (leBytes (patBytes e.recd) k.d.toNat) = .ok w bs) :
    writePort s t n i u x e = postOnce (putRun (setEng w t n e) t i (setPort (popQ u (portQ n)) n { x with pos := x.pos + 1 })) (.portElement t n) := by
  simp only [writePort_data he hd hk hkind hp hz, hw, ha, portStep, Option.isSome_none, Bool.false_eq_true, if_false]
theorem writePort_first (hz : u.freeze = none) (hw : wholePos e.recd x.pos ≠ none)
    (ha : engXlate s (whoEng e t n (.portElement t n)) e.sup (patAddr e.recd x.pos) (patBytes e.recd) .write (fun v _ => .ok v []) = .ok w bs) :
    writePort s t n i u x e = postOnce (putRun (setEng w t n { e with data := e.data ++ [k.d.setWidth 64], mask := e.mask ++ [true] }) t i (popQ u (portQ n))) (.portElement t n) := by
  simp only [writePort_data he hd hk hkind hp hz, Option.isSome_iff_ne_none.mpr hw, ha, portStep, if_true]

end

end

end

end

/-! ## The end of a run (R347, R358, R403) -/

section
variable {s : State} {t : Nat} {f : Fabric}

theorem fabView_post (e : Event) : fabView (post s e) = fabView s := rfl
theorem fabView_addCmd (c : Cmd) : fabView (addCmd s c) = fabView s := by
  refine fabView_setTile ?_
  rfl
theorem fabView_addStamp (p tile h : Nat) (sup : Bool) (src : Nat) (na gd v : Word) (err : Option Mark) : fabView (addStamp s p tile h sup src na gd v err) = fabView s := by
  unfold addStamp
  split
  · rfl
  · exact (fabView_post ..).trans (fabView_addCmd ..)
theorem fabView_fabActions (p tile h : Nat) (sup : Bool) (gd : Word) (c : Comp) (err : Option Mark) : fabView (fabActions s p tile h sup gd c err) = fabView s :=
  (fabView_addStamp ..).trans (fabView_ite (fabView_of rfl (tilesUpTo_useCircuit (f := fun x : Tile => x.fab) (fun _ _ _ => rfl) s tile _).tile) rfl)
theorem homeByte_fabActions (p tile h : Nat) (sup : Bool) (gd : Word) (c : Comp) (err : Option Mark) (a : Nat) : homeByte (fabActions s p tile h sup gd c err) a = homeByte s a := by
  simp only [fabActions, addStamp]
  split <;> split <;> rfl
theorem addStamp_agenda (p tile h : Nat) (sup : Bool) (src : Nat) (na gd v : Word) (err : Option Mark) {x : Event} (hx : x ∈ s.agenda) : x ∈ (addStamp s p tile h sup src na gd v err).agenda := by
  unfold addStamp
  split
  · exact hx
  · exact List.mem_append_left _ hx
theorem fabActions_agenda (p tile h : Nat) (sup : Bool) (gd : Word) (c : Comp) (err : Option Mark) {x : Event} (hx : x ∈ s.agenda) : x ∈ (fabActions s p tile h sup gd c err).agenda := by
  refine addStamp_agenda _ _ _ _ _ _ _ _ _ ?_
  split
  · exact List.mem_append_left _ hx
  · exact hx
theorem fabActions_raises (p tile h : Nat) (sup : Bool) (gd : Word) {c : Comp} (err : Option Mark) (hc : c.add ≠ 0) :
    .counterRaise c.ctile.toNat c.ctr.toNat (c.add.setWidth 64) ∈ (fabActions s p tile h sup gd c err).agenda := by
  refine addStamp_agenda _ _ _ _ _ _ _ _ _ ?_
  rw [if_pos (bne_iff_ne.mpr hc), sendRaise_agenda, BitVec.ofNat_toNat]
  simp

theorem fabView_endFreeze (p : Nat) (z : Freeze) (err : Option Mark) : fabView (endFreeze s t p z err) = fabView s := by
  refine fabView_ite rfl ((fabView_fabActions ..).trans ?_)
  cases err with
  | none => rfl
  | some m => exact fabView_onlyRecords (onlyRecords_faultRecord ..)
theorem homeByte_endFreeze (p : Nat) (z : Freeze) (a : Nat) : homeByte (endFreeze s t p z none) a = homeByte s a := by
  unfold endFreeze
  split
  · rfl
  · exact homeByte_fabActions ..
theorem endFreeze_agenda (p : Nat) (z : Freeze) {x : Event} (hx : x ∈ s.agenda) : x ∈ (endFreeze s t p z none).agenda := by
  unfold endFreeze
  split
  · exact hx
  · exact fabActions_agenda _ _ _ _ _ _ _ hx
theorem endFreeze_raises (p : Nat) {z : Freeze} (err : Option Mark) (hz : z.swap = false) (hc : z.comp.add ≠ 0) :
    .counterRaise z.comp.ctile.toNat z.comp.ctr.toNat (z.comp.add.setWidth 64) ∈ (endFreeze s t p z err).agenda := by
  simp only [endFreeze, hz, Bool.false_eq_true, if_false]
  exact fabActions_raises _ _ _ _ _ _ hc

theorem fabView_endHalts (p : Nat) (l : List Freeze) : fabView (endHalts s t p l) = fabView s := foldl_keeps (fun _ _ => fabView_endFreeze ..) ..
theorem homeByte_endHalts (p : Nat) (l : List Freeze) (a : Nat) : homeByte (endHalts s t p l) a = homeByte s a := foldl_keeps (g := (homeByte · a)) (fun _ _ => homeByte_endFreeze ..) ..
theorem endHalts_agenda (p : Nat) (l : List Freeze) {x : Event} (hx : x ∈ s.agenda) : x ∈ (endHalts s t p l).agenda := by
  induction l generalizing s with
  | nil => exact hx
  | cons z l ih => exact ih (endFreeze_agenda _ _ hx)

/-- The fabric of an idle tile. -/
def idled (f : Fabric) (u : FabRun) : Fabric := { f with run := none, halts := [], elems := u.awls.map fun (n, x) => (n, x.elem) }
theorem releasePorts_fab (x : Tile) : (releasePorts x).fab = x.fab := (apply_ite Tile.fab _ _ _).trans (ite_self _)
theorem fabOf_idleFabric (u : FabRun) (asked : Bool) : fabOf (idleFabric s t f u asked) t = some (idled f u) := by
  have hset {k : State} (h : k.tiles = (setTile s t { tileOf s t with fab := some (idled f u) }).tiles) : fabOf k t = some (idled f u) := by
    have ht : tileOf k t = tileOf (setTile s t { tileOf s t with fab := some (idled f u) }) t := by rw [tileOf, h]; rfl
    rw [fabOf, ht, tileOf_setTile_same]
  have hports {k : State} : fabOf (if (tileOf k t).fb.isNone then setTile k t (releasePorts (tileOf k t)) else k) t = fabOf k t := by
    split
    · rw [fabOf, tileOf_setTile_same, releasePorts_fab]
      rfl
    · rfl
  refine hports.trans ?_
  cases asked
  · exact hset rfl
  · exact hset rfl
theorem homeByte_idleFabric (u : FabRun) (asked : Bool) (a : Nat) : homeByte (idleFabric s t f u asked) a = homeByte s a := by
  have hports {k : State} : homeByte (if (tileOf k t).fb.isNone then setTile k t (releasePorts (tileOf k t)) else k) a = homeByte k a := by split <;> rfl
  refine hports.trans ?_
  cases asked <;> rfl
theorem runAt_of_idled {k : State} {u : FabRun} (h : fabOf k t = some (idled f u)) : runAt k t = none := by
  rw [fabOf] at h
  rw [runAt, h]
  rfl

theorem fabOf_endRun (u : FabRun) : fabOf (endRun s t f u) t = some (idled f u) := by
  refine (fabOf_of_fabView (fabView_fabActions ..) t).trans ((fabOf_of_fabView (s := idleFabric s t f u false) ?_ t).trans (fabOf_idleFabric u false))
  split
  · exact fabView_onlyRecords (onlyRecords_faultRecord ..)
  · rfl
end

section
variable {s : State} {t : Nat} {f : Fabric} {i : FImg} {u : FabRun} {z : Freeze}

/-- The copies that a router makes of a run's stores (R377). -/
def runCopies (f : Fabric) (t : Nat) (r : Rep) : Bool := r.part == f.part && r.tile / 8 == t / 8 && r.unit != 8 && decide (r.unit < 100)
theorem execFabricRunComplete_over (h : Runs s t f i u) (ho : runOver i u = true) (hr : s.reps = []) (hz : u.freeze = none) :
    execFabricRunComplete t s = .next (endHalts (endRun (repClear s (runCopies f t)) t f u) t f.part f.halts) := by
  simp only [execFabricRunComplete, withRun_runs h, ho, repBusy, repErr, hr, hz, List.any_nil, Bool.not_true, Bool.false_eq_true, if_false, Option.toList_none, List.nil_append]
  rfl
/-- A run without an error ends with its raise, home memory as it is. -/
theorem endRun_clean (he : u.err = none) : (∀ a, homeByte (endRun s t f u) a = homeByte s a) ∧
    (u.comp.add ≠ 0 → .counterRaise u.comp.ctile.toNat u.comp.ctr.toNat (u.comp.add.setWidth 64) ∈ (endRun s t f u).agenda) := by
  have heq : endRun s t f u = fabActions (idleFabric s t f u false) f.part t u.hart u.sup u.gd u.comp none := by
    simp only [endRun, he]
    rfl
  rw [heq]
  exact ⟨fun a => (homeByte_fabActions ..).trans (homeByte_idleFabric ..), fun hc => fabActions_raises _ _ _ _ _ _ hc⟩

/-! ## The freeze and the cut (R404, R406) -/

section
variable (h : Runs s t f i u) (hz : u.freeze = some z) (hs : z.swap = false)
include h hz

theorem execFreezeAbandon_early (hf : allFrozen i u = false) (hc : s.clock < z.since + 65536) : execFreezeAbandon t s = .next (postOnce s (.freezeAbandon t)) := by
  simp only [execFreezeAbandon, withRun_runs h, hz, hf, hc, Bool.false_eq_true, if_false, if_true]
theorem execFreezeAbandon_late (hf : allFrozen i u = false) (hc : z.since + 65536 ≤ s.clock) : execFreezeAbandon t s =
    .next (endHalts (endFreeze (endRun s t f (noteErr u ⟨cOPERAND, 0, 0, 0⟩ 0 0)) t f.part z (some ⟨cOPERAND, 0, 0, 0⟩)) t f.part f.halts) := by
  simp only [execFreezeAbandon, withRun_runs h, hz, hf, Nat.not_lt.mpr hc, Bool.false_eq_true, if_false]

include hs
section
variable (ho : runOver i u = false)
include ho

theorem execCutWrite_waits (hf : allFrozen i u = false) : execCutWrite t s = .next (postOnce s (.cutWrite t)) := by
  simp only [execCutWrite, withRun_runs h, hz, hs, ho, hf, Bool.not_false, Bool.false_eq_true, if_false, if_true]

variable (hf : allFrozen i u = true)
include hf

theorem execCutWrite_writes {w : State} {r : List Byte} (hp : z.pos < (cutWords f i u).length) (ha : engWrite s (whoCut t f.part) z.sup (z.ga + BitVec.ofNat 64 (8 * z.pos))
      ((((cutWords f i u).drop z.pos).take 16).flatMap fun x => leBytes 8 x.toNat) = .ok w r) :
    execCutWrite t s = .next (postOnce (setRun w t { u with freeze := some { z with pos := z.pos + 16 } }) (.cutWrite t)) := by
  have hne : ((cutWords f i u).drop z.pos).isEmpty = false := by simpa using hp
  simp only [execCutWrite, withRun_runs h, hz, hs, ho, hf, hne, ha, Bool.not_true, Bool.false_eq_true, if_false]
theorem execCutWrite_copies (hp : (cutWords f i u).length ≤ z.pos) (hr : repBusy s (ofCut t) = true) : execCutWrite t s = .next (postOnce s (.cutWrite t)) := by
  have hnil : ((cutWords f i u).drop z.pos).isEmpty = true := by simpa using hp
  simp only [execCutWrite, withRun_runs h, hz, hs, ho, hf, hnil, hr, Bool.not_true, Bool.false_eq_true, if_false, if_true]
theorem execCutWrite_ends (hp : (cutWords f i u).length ≤ z.pos) (hr : repBusy s (ofCut t) = false) : execCutWrite t s =
    .next (endHalts (endFreeze (idleFabric (keepCut (repClear s (ofCut t)) t f i u z) t f u true) t f.part z (if repErr s (ofCut t) then some ⟨cPROT, 4, z.ga, 0⟩ else none)) t f.part f.halts) := by
  have hnil : ((cutWords f i u).drop z.pos).isEmpty = true := by simpa using hp
  simp only [execCutWrite, withRun_runs h, hz, hs, ho, hf, hnil, hr, Bool.not_true, Bool.false_eq_true, if_false, if_true]

end

end

end

end Sys2Proof.Machine
namespace Sys2Proof.Proofs
open Sys2Proof Sys2Proof.Machine Sys2Proof.Claims

theorem fabricPortsAndEnds : Claims.FabricPortsAndEnds := by
  intro s t n f i u p x e z h
  refine ⟨fun hp hx he hs hf hst herr => ⟨fun hw hz hd hr => ⟨fun ht => ?_, fun ht w bs ha => ?_⟩, fun hw hz hd => ⟨fun k hk hkind hl hn => ?_, fun hg => ⟨fun hm => ?_, fun hm l hl w bs ha => ?_⟩⟩,
      fun hw hz hd k hk => ⟨fun hkind ht hw1 w bs ha => ?_, fun hkind ht hw1 w bs ha => ?_, fun hend hdone ht => ?_⟩⟩,
    fun ho => ?_, fun ho hr hz he => ?_, fun hz hs => ⟨fun ho hf => ?_, fun ho hf hp w r ha => ?_, fun ho hf hp hr => ?_, fun ho hf hp hr => ?_, fun hf hc => ?_, fun hf hc => ?_⟩⟩
  -- a read port
  · rw [exec_portElement, execPortElement_runs h hp hx he hs hf hst herr, hw, if_neg Bool.false_ne_true, readPort_end hz hd hr herr ht]
  · rw [exec_portElement, execPortElement_runs h hp hx he hs hf hst herr, hw, if_neg Bool.false_ne_true, readPort_reads hz hd hr herr ht ha]
  -- a write port that gathers
  · rw [exec_portElement, execPortElement_runs h hp hx he hs hf hst herr, hw, if_pos rfl, writePort_takes herr hd hk hkind hl hn]
  · rw [exec_portElement, execPortElement_runs h hp hx he hs hf hst herr, hw, if_pos rfl, writePort_gathered herr hd hz hg, hm]
    rfl
  · rw [exec_portElement, execPortElement_runs h hp hx he hs hf hst herr, hw, if_pos rfl, writePort_gathered herr hd hz hg, hm]
    simp only [show nextPush e.recd x.pos e.data e.mask (patTotal e.recd - (x.pos + e.data.length) != 0 && (headAt u (portQ n)).isNone) = some l from hl, gathered, ha, portStep, Bool.not_true, Bool.false_eq_true, if_false]
  -- a write port that holds nothing
  · rw [exec_portElement, execPortElement_runs h hp hx he hs hf hst herr, hw, if_pos rfl, writePort_single herr hd hk hkind ht hz hw1 ha]
  · rw [exec_portElement, execPortElement_runs h hp hx he hs hf hst herr, hw, if_pos rfl, writePort_first herr hd hk hkind ht hz hw1 ha]
  · rw [exec_portElement, execPortElement_runs h hp hx he hs hf hst herr, hw, if_pos rfl, writePort_end hd (hend ▸ hk) hdone ht]
  -- the end of a run
  · simp only [exec_fabricRunComplete, execFabricRunComplete, withRun_runs h, ho, Bool.not_false, if_true]
  · obtain ⟨hmem, hraise⟩ := endRun_clean (s := repClear s (runCopies f t)) (t := t) (f := f) he
    have hfab := (fabOf_of_fabView (fabView_endHalts (s := endRun (repClear s (runCopies f t)) t f u) (t := t) f.part f.halts) t).trans (fabOf_endRun u)
    rw [exec_fabricRunComplete, execFabricRunComplete_over h ho hr hz]
    exact ⟨_, rfl, runAt_of_idled hfab, by rw [hfab]; rfl, fun a => (homeByte_endHalts ..).trans (hmem a), fun hc => endHalts_agenda _ _ (hraise hc)⟩
  -- the freeze
  · rw [exec_cutWrite, execCutWrite_waits h hz hs ho hf]
  · rw [exec_cutWrite, execCutWrite_writes h hz hs ho hf hp ha]
  · rw [exec_cutWrite, execCutWrite_copies h hz hs ho hf hp hr]
  · rw [exec_cutWrite, execCutWrite_ends h hz hs ho hf hp hr]
    exact ⟨_, rfl, runAt_of_idled ((fabOf_of_fabView (fabView_endHalts ..) t).trans ((fabOf_of_fabView (fabView_endFreeze ..) t).trans (fabOf_idleFabric ..))),
      fun hc => endHalts_agenda _ _ (endFreeze_raises _ _ hs hc)⟩
  · rw [exec_freezeAbandon, execFreezeAbandon_early h hz hf hc]
  · rw [exec_freezeAbandon, execFreezeAbandon_late h hz hf hc]
    exact ⟨_, rfl, runAt_of_idled ((fabOf_of_fabView (fabView_endHalts ..) t).trans ((fabOf_of_fabView (fabView_endFreeze ..) t).trans (fabOf_endRun _)))⟩

/-- Settles O53: the commands through the checks they share and through what their reads leave of the fabrics, the ports by what stands at the head of their queue, and the end of a run and of a
freeze through the idle fabric they leave. -/
theorem fabricRuns : Obligations.FabricRuns := ⟨fabricCommands, fabricPortsAndEnds⟩

end Sys2Proof.Proofs
end

section
/-! PROOFS. The statements of spec/04_consistency_model.md: loads and stores, and the delivery of a load. -/

namespace Sys2Proof.Machine
open Sys2Proof Sys2Proof.Claims

/-! ## What an instruction does before it issues an access -/

/-- k differs from w in harts and tiles alone, and there not in the registers' values and the store buffer of the executing hart. -/
structure Readied (w k : State) : Prop where
  rest : { k with harts := w.harts, tiles := w.tiles } = w
  regs : (curH k).g = (curH w).g
  stores : (curH k).sb = (curH w).sb

section
variable {w k m : State}

/-- What does not look at harts and tiles is as before. -/
theorem Readied.keeps (h : Readied w k) {α : Type} (g : State → α) (hg : g { k with harts := w.harts, tiles := w.tiles } = g k) : g k = g w := hg.symm.trans (congrArg g h.rest)
theorem Readied.trans (h : Readied w k) (h' : Readied k m) : Readied w m where
  rest := by
    have hr := h.rest
    rw [← h'.rest] at hr
    exact hr
  regs := h'.regs.trans h.regs
  stores := h'.stores.trans h.stores
theorem Readied.of_tiles {α : Type} {f : Tile → α} (h : TilesUpTo f w k) : Readied w k :=
  ⟨congrArg (fun x : State => { x with harts := w.harts }) h.rest, h.keeps (fun x => (curH x).g) rfl, h.keeps (fun x => (curH x).sb) rfl⟩

theorem readied_popSrcs (w : State) (l : List (BitVec 5 × Bool)) : Readied w (popSrcs w l) := .of_tiles (tilesUpTo_popSrcs (f := fun _ => ()) (fun _ _ => rfl) w l)
theorem readied_flushMerge (w : State) (t : Nat) (p : MergeE → Bool) : Readied w (flushMerge w t p) := .of_tiles (tilesUpTo_flushMerge (f := fun _ => ()) (fun _ _ => rfl) w t p)
theorem readied_useCircuit (w : State) (t c : Nat) : Readied w (useCircuit w t c) := .of_tiles (tilesUpTo_useCircuit (f := fun _ => ()) (fun _ _ _ => rfl) w t c)
theorem readied_ite {c : Prop} [Decidable c] {a b : State} (ha : Readied w a) (hb : Readied w b) : Readied w (if c then a else b) := by
  split
  · exact ha
  · exact hb
theorem Readied.flushes (h : Readied w k) {c : Prop} [Decidable c] (x : Nat) : Readied w (if c then flushHart k x else k) :=
  readied_ite (h.trans (readied_flushMerge ..)) h
theorem readied_emptyG (w : State) (d : BitVec 5) : Readied w (emptyG w d) := by
  unfold emptyG
  split
  · exact ⟨rfl, rfl, rfl⟩
  · exact ⟨rfl, by rw [curH_setCur], by rw [curH_setCur]⟩

/-- The register an instruction empties is the executing hart's (R175). -/
theorem mem_gEmpty_emptyG {d : BitVec 5} (hd : d ≠ 0) : gkey (curH w).sup d ∈ (curH (emptyG w d)).gEmpty := by
  have hd' : ¬d = 0#5 := hd
  simp [emptyG, hd']

/-! ## An instruction that leaves something on its way (R137, R175) -/

/-- k differs from w in harts, but not in the registers of the executing one, in tiles, in the accesses under way and their numbers, and in steps on the agenda that carry no bytes. -/
structure Issued (w k : State) : Prop where
  rest : { k with harts := w.harts, tiles := w.tiles, pend := w.pend, agenda := w.agenda, nextId := w.nextId } = w
  regs : (curH k).g = (curH w).g
  steps : ∃ l, k.agenda = w.agenda ++ l ∧ ∀ e ∈ l, ∀ gk i, onItsWay gk i e = none

theorem Readied.issued (h : Readied w k) : Issued w k :=
  ⟨congrArg (fun x : State => { x with pend := w.pend, agenda := w.agenda, nextId := w.nextId }) h.rest, h.regs,
    [], by rw [h.keeps (·.agenda) rfl, List.append_nil], by simp⟩
theorem Issued.keeps (h : Issued w k) {α : Type} (g : State → α)
    (hg : g { k with harts := w.harts, tiles := w.tiles, pend := w.pend, agenda := w.agenda, nextId := w.nextId } = g k) : g k = g w := hg.symm.trans (congrArg g h.rest)
theorem Issued.trans (h : Issued w k) (h' : Issued k m) : Issued w m where
  rest := by
    have hr := h.rest
    rw [← h'.rest] at hr
    exact hr
  regs := h'.regs.trans h.regs
  steps := by
    obtain ⟨l, hl, hn⟩ := h.steps
    obtain ⟨l', hl', hn'⟩ := h'.steps
    refine ⟨l ++ l', by rw [hl', hl, List.append_assoc], fun e he => ?_⟩
    rcases List.mem_append.mp he with he | he
    · exact hn e he
    · exact hn' e he

/-- The bytes in memory, in the copies and in write-backs on their way are as before. -/
theorem Issued.peek (h : Issued w k) (a : Nat) : peek k a = peek w a := by
  obtain ⟨l, hl, hn⟩ := h.steps
  have hc : k.copies = w.copies := h.keeps (·.copies) rfl
  have hm : k.mem = w.mem := h.keeps (·.mem) rfl
  have hh : k.hostMem = w.hostMem := h.keeps (·.hostMem) rfl
  have hw : k.agenda.findSome? (onItsWay (a / 128) (a % 128)) = w.agenda.findSome? (onItsWay (a / 128) (a % 128)) := by
    rw [hl, List.findSome?_append, List.findSome?_eq_none_iff.mpr fun e he => hn e he .., Option.or_none]
  simp only [Machine.peek, copiesOf, homeByte, hc, hm, hh, hw]
/-- The instruction ends at its next word. -/
theorem Issued.goesOn (h : Issued w k) (s : State) : GoesOn s w (goTo k ((curH s).pc + 4)) := by
  refine ⟨by rw [curH_goTo], by rw [curH_goTo], fun r => ?_, fun a => h.peek a⟩
  rw [curH_goTo]
  exact congrArg (mgetD · r 0) h.regs

/-! ## Accesses in flight -/

theorem goTo_mem (w : State) (a : Word) : (goTo w a).mem = w.mem := rfl
theorem goTo_pend (w : State) (a : Word) : (goTo w a).pend = w.pend := rfl
theorem curH_issuePend (w : State) (op : Option MemOp) (xs : List Piece) (va : Word) (dest : Dest) (o : AccOrd) : curH (issuePend w op xs va dest false o) = curH w := rfl

theorem onItsWay_pendEvent (s : State) (p : Pend) (gk i : Nat) : onItsWay gk i (pendEvent s p) = none := by
  unfold pendEvent
  split
  · split <;> rfl
  · split <;> rfl
  · rfl
/-- The step of an access depends on the slots and on the partition of its tile. -/
theorem Readied.pendEvent (h : Readied w k) (p : Pend) : pendEvent k p = pendEvent w p := h.keeps (Machine.pendEvent · p) rfl

/-- The access that `issuePend` issues in state w. -/
def newPend (w : State) (op : Option MemOp) (xs : List Piece) (va : Word) (dest : Dest) (o : AccOrd) : Pend :=
  { id := w.nextId, hart := w.cur, op, pieces := xs, va, dest, chk := false, ord := o }

theorem issued_issuePend (w : State) (op : Option MemOp) (xs : List Piece) (va : Word) (dest : Dest) (o : AccOrd) : Issued w (issuePend w op xs va dest false o) :=
  ⟨rfl, rfl, [_], rfl, by simpa using onItsWay_pendEvent _ _⟩
theorem issuePend_pend (h : Readied w k) (op : Option MemOp) (xs : List Piece) (va : Word) (dest : Dest) (o : AccOrd) :
    (issuePend k op xs va dest false o).pend = w.pend ++ [newPend w op xs va dest o] := by
  have hp : k.pend = w.pend := h.keeps (·.pend) rfl
  have hi : k.nextId = w.nextId := h.keeps (·.nextId) rfl
  have hc : k.cur = w.cur := h.keeps (·.cur) rfl
  simp only [issuePend, newId, post, newPend, hp, hi, hc]
theorem issuePend_agenda (h : Readied w k) (op : Option MemOp) (xs : List Piece) (va : Word) (dest : Dest) (o : AccOrd) :
    (issuePend k op xs va dest false o).agenda = w.agenda ++ [Machine.pendEvent w (newPend w op xs va dest o)] := by
  have ha : k.agenda = w.agenda := h.keeps (·.agenda) rfl
  have hi : k.nextId = w.nextId := h.keeps (·.nextId) rfl
  have hc : k.cur = w.cur := h.keeps (·.cur) rfl
  rw [← h.pendEvent, ← ha, newPend, ← hi, ← hc]
  rfl

/-! ## Entries of the store buffer -/

theorem putEntry_mem (w : State) (op : MemOp) (xs : List Piece) (va : Word) (o : AccOrd) (full : Bool) : (putEntry w op xs va o full).mem = w.mem := rfl
theorem putEntry_pend (w : State) (op : MemOp) (xs : List Piece) (va : Word) (o : AccOrd) (full : Bool) : (putEntry w op xs va o full).pend = w.pend := rfl

theorem issued_putEntry (w : State) (op : MemOp) (xs : List Piece) (va : Word) (o : AccOrd) (full : Bool) : Issued w (putEntry w op xs va o full) where
  rest := rfl
  regs := by
    rw [putEntry, curH_post, curH_setCur]
  steps := ⟨[Event.storeSend w.cur], rfl, by simp [onItsWay]⟩
theorem putEntry_agenda (h : Readied w k) (op : MemOp) (xs : List Piece) (va : Word) (o : AccOrd) (full : Bool) :
    (putEntry k op xs va o full).agenda = w.agenda ++ [Event.storeSend w.cur] := by
  have ha : k.agenda = w.agenda := h.keeps (·.agenda) rfl
  have hc : k.cur = w.cur := h.keeps (·.cur) rfl
  rw [← ha, ← hc]
  rfl
theorem putEntry_sb (h : Readied w k) (op : MemOp) (xs : List Piece) (va : Word) (o : AccOrd) (full : Bool) :
    (curH (putEntry k op xs va o full)).sb = (curH w).sb ++ [{ id := w.nextId, op, pieces := xs, va, ord := o, full, performed := false }] := by
  have hi : k.nextId = w.nextId := h.keeps (·.nextId) rfl
  rw [putEntry, curH_post, curH_setCur, h.stores, hi]

end

/-! ## LD, ST and LDST.O (R273, R275) -/

section
variable {i : Instr} {s : State} {va : Word} {z : BitVec 2} {strict : Bool}

/-- No access of LD and ST, and none of an aligned LDST.O, is refused for its alignment (R275). -/
theorem strict_aligned (h : strict = true → va.toNat % 2 ^ z.toNat = 0) : (strict && va.toNat % 2 ^ z.toNat != 0) = false := by
  cases strict with
  | false => rfl
  | true => simp [h rfl]

/-- Positions that sources use up leave the registers of the executing hart. -/
theorem curH_popSrcs (w : State) (l : List (BitVec 5 × Bool)) : curH (popSrcs w l) = curH w := (tilesUpTo_popSrcs (f := fun _ => ()) (fun _ _ => rfl) w l).keeps curH rfl

theorem and_not_eq_false {a b : Bool} (h : a = false ∨ b = true) : (a && !b) = false := by
  rcases h with rfl | rfl
  · rfl
  · exact Bool.and_false a

/-- The order of a scalar access, as the statements name it. -/
theorem scalarOrd_eq (w : State) (acq rel strict : Bool) : scalarOrd w acq rel strict = order w acq rel strict := rfl

theorem loadRule {srcs : List (BitVec 5 × Bool)} {d : BitVec 5} {uns acq : Bool} (hi : exec i s = loadOp srcs d z uns va strict acq s) (hr : Ready s srcs (some d))
    (hm : strict = true → va.toNat % 2 ^ z.toNat = 0) : LoadRule i s srcs d z uns va strict acq := by
  have hm := strict_aligned hm
  refine ⟨fun w c sb a hx => ?_, fun w xs hx => ?_⟩
  · simp only [hi, loadOp, withRegs_ready hr, hm, show rangeOf .. = _ from hx, Bool.false_eq_true, if_false]
    rfl
  · have hk : Readied w (emptyG (popSrcs w srcs) d) := (readied_popSrcs w srcs).trans (readied_emptyG _ d)
    simp only [hi, loadOp, withRegs_ready hr, hm, show rangeOf .. = _ from hx, Bool.false_eq_true, if_false]
    refine ⟨fun hl hp => ?_, fun hl => ?_⟩
    · rw [← scalarOrd_eq] at hp
      simp only [hl, hp, Bool.not_false, Bool.and_self, if_true]
      refine ⟨fun hb => ?_, fun bs hb => ?_⟩
      · rw [hb]
        rfl
      · rw [hb]
        rfl
    · rw [← scalarOrd_eq] at hl
      simp only [and_not_eq_false hl, Bool.false_eq_true, if_false]
      refine ⟨_, rfl, (hk.issued.trans (issued_issuePend ..)).goesOn s, (goTo_pend ..).trans (issuePend_pend hk ..), fun hd => ?_, (goTo_agenda ..).trans (issuePend_agenda hk ..)⟩
      simp only [curH_goTo, curH_issuePend]
      rw [← curH_popSrcs w srcs]
      exact mem_gEmpty_emptyG hd

theorem storeRule {r a : BitVec 5} {t rel : Bool} (hi : exec i s = storeOp r a z t va strict rel s) (hr : Ready s [(a, t), (r, t)] none)
    (hm : strict = true → va.toNat % 2 ^ z.toNat = 0) : StoreRule i s r z va strict rel := by
  have hm := strict_aligned hm
  refine ⟨fun w c sb a hx => ?_, fun w xs hx => ?_⟩
  · simp only [hi, storeOp, withRegs_ready hr, hm, show rangeOf .. = _ from hx, Bool.false_eq_true, if_false]
    rfl
  · simp only [hi, storeOp, withRegs_ready hr, hm, show rangeOf .. = _ from hx, Bool.false_eq_true, if_false]
    have hk := (readied_popSrcs w [(a, t), (r, t)]).flushes (c := (rel || xs.any fun x => x.io && isCounterSpace x.pk) = true) w.cur
    refine ⟨_, rfl, (hk.issued.trans (issued_putEntry ..)).goesOn s, ?_, (goTo_agenda ..).trans (putEntry_agenda hk ..), (goTo_mem ..).trans ((putEntry_mem ..).trans (hk.keeps (·.mem) rfl)),
      (goTo_pend ..).trans ((putEntry_pend ..).trans (hk.keeps (·.pend) rfl))⟩
    simp only [curH_goTo]
    exact putEntry_sb hk ..

/-- An LDST.O whose address is not aligned traps (R275). -/
theorem loadOp_misaligned {srcs : List (BitVec 5 × Bool)} {d : BitVec 5} {uns acq : Bool} (hr : Ready s srcs (some d)) (hm : va.toNat % 2 ^ z.toNat ≠ 0) :
    loadOp srcs d z uns va true acq s = traps s 3 0 va := by
  simp only [loadOp, withRegs_ready hr, Bool.true_and, bne_iff_ne.mpr hm, if_true]
  rfl
theorem storeOp_misaligned {r a : BitVec 5} {t rel : Bool} (hr : Ready s [(a, t), (r, t)] none) (hm : va.toNat % 2 ^ z.toNat ≠ 0) :
    storeOp r a z t va true rel s = traps s 3 0 va := by
  simp only [storeOp, withRegs_ready hr, Bool.true_and, bne_iff_ne.mpr hm, if_true]
  rfl

end

/-! ## Where the value of a finished access goes (R175, R351, R459) -/

section
variable {s : State} {h key : Nat}

/-- The write stream that takes what a load returns to register key of hart h (R351). -/
def boundWrite (s : State) (h key : Nat) : Option (Nat × SEng) :=
  if 32 ≤ key then none else (tileOf s (h / 16)).se.find? fun (_, e) => e.bound && !e.fabric && e.hart == h && !e.vfile && e.reg == key && e.write

/-- Hart h with register key full. -/
def fulled (s : State) (h key : Nat) : State := setHart s h { hartOf s h with gEmpty := (hartOf s h).gEmpty.filter (· != key) }

theorem hartOf_setHart_same (s : State) (h : Nat) (x : Hart) : hartOf (setHart s h x) h = x := mgetD_mput_same _ _ _ _

theorem fillG_zero (s : State) (h : Nat) (v : Word) : fillG s h 0 v = fulled s h 0 := rfl
theorem fillG_bound {v : Word} {q : Nat} {e : SEng} (hk : key ≠ 0) (hb : boundWrite s h key = some (q, e)) :
    fillG s h key v = setEng (fulled s h key) (h / 16) q { e with used := e.used + 1, data := e.data ++ [v], mask := e.mask ++ [true] } := by
  simp only [fillG, beq_eq_false_iff_ne.mpr hk, Bool.false_eq_true, if_false]
  split
  · next he =>
    cases (show boundWrite s h key = some _ from he).symm.trans hb
    rfl
  · next he => exact absurd ((show boundWrite s h key = none from he).symm.trans hb) nofun
theorem fillG_free {v : Word} (hk : key ≠ 0) (hb : boundWrite s h key = none) :
    fillG s h key v = setHart (fulled s h key) h { hartOf (fulled s h key) h with g := mset 0 (hartOf s h).g key v, gFault := mdel (hartOf s h).gFault key } := by
  simp only [fillG, beq_eq_false_iff_ne.mpr hk, Bool.false_eq_true, if_false]
  split
  · next he => exact absurd ((show boundWrite s h key = some _ from he).symm.trans hb) nofun
  · rfl

theorem not_mem_fulled (s : State) (h key : Nat) : key ∉ (hartOf (fulled s h key) h).gEmpty := by simp [fulled, hartOf_setHart_same]
theorem fulled_g (s : State) (h key : Nat) : (hartOf (fulled s h key) h).g = (hartOf s h).g := by rw [fulled, hartOf_setHart_same]
theorem hartOf_setEng (s : State) (t q : Nat) (e : SEng) (h : Nat) : hartOf (setEng s t q e) h = hartOf s h := rfl

/-- A delivered value leaves its register full, every other register with its value, and memory as it was. -/
theorem fillG_keeps (s : State) (h key : Nat) (v : Word) : key ∉ (hartOf (fillG s h key v) h).gEmpty ∧ (fillG s h key v).mem = s.mem ∧ (fillG s h key v).copies = s.copies ∧
    ∀ k, k ≠ key → mgetD (hartOf (fillG s h key v) h).g k 0 = mgetD (hartOf s h).g k 0 := by
  by_cases hk : key = 0
  · subst hk
    rw [fillG_zero]
    exact ⟨not_mem_fulled s h _, rfl, rfl, fun k _ => by rw [fulled_g]⟩
  · cases hb : boundWrite s h key with
    | some x =>
      rw [fillG_bound hk hb, hartOf_setEng]
      exact ⟨not_mem_fulled s h _, rfl, rfl, fun k _ => by rw [fulled_g]⟩
    | none =>
      rw [fillG_free hk hb, hartOf_setHart_same]
      exact ⟨not_mem_fulled s h _, rfl, rfl, fun k hn => mgetD_mset_other _ _ _ _ hn⟩

theorem deliver_g {p : Pend} {n : Nat} {sg : Bool} (hp : p.dest = .g key n sg) (s : State) (bs : List Byte) :
    deliver s p bs = fillG s p.hart key (if sg then sext (8 * n) (leNat (bs.take n)) else BitVec.ofNat 64 (leNat (bs.take n))) := by
  simp only [deliver, hp]
theorem deliverMark_g {p : Pend} {n : Nat} {sg : Bool} (hp : p.dest = .g key n sg) (s : State) (m : Mark) : deliverMark s p m = markG s p.hart key m := by
  simp only [deliverMark, hp]
theorem markG_set (hk : key ≠ 0) (m : Mark) : markG s h key m =
    setHart s h { hartOf s h with gEmpty := (hartOf s h).gEmpty.filter (· != key), gFault := mput (hartOf s h).gFault key m } := by
  simp only [markG, beq_eq_false_iff_ne.mpr hk, Bool.false_eq_true, if_false]

end
end Sys2Proof.Machine

namespace Sys2Proof.Proofs
open Sys2Proof Sys2Proof.Machine Sys2Proof.Claims

theorem loads : Claims.Loads := by
  intro s d a z e u t o c hr
  exact ⟨loadRule rfl hr nofun, fun hm => (exec_ldo s).trans (loadOp_misaligned hr hm), fun hm => loadRule rfl hr fun _ => hm⟩

theorem stores : Claims.Stores := by
  intro s r a z e t o c hr
  exact ⟨storeRule rfl hr nofun, fun hm => (exec_sto s).trans (storeOp_misaligned hr hm), fun hm => storeRule rfl hr fun _ => hm⟩

theorem delivery : Claims.Delivery := by
  intro s p bs m key n sg hp v bound t f
  have ht : t = fillG s p.hart key v := deliver_g hp s bs
  have hf : f = markG s p.hart key m := deliverMark_g hp s m
  obtain ⟨hfull, hmem, hcopies, hother⟩ := fillG_keeps s p.hart key v
  rw [ht, hf]
  refine ⟨hfull, hmem, hcopies, fun hk hb => ?_, fun q e hk hb => ?_, hother, fun hk => ?_, ?_, fun hk => ?_⟩
  · rw [fillG_free hk hb, hartOf_setHart_same]
    exact ⟨mgetD_mset_same .., mfind_mdel_same ..⟩
  · rw [fillG_bound hk hb]
    exact setEng_se_same ..
  · rw [markG_set hk, hartOf_setHart_same]
    exact ⟨by simp, mfind_mput_same ..⟩
  · by_cases hk : key = 0
    · rw [hk]
      rfl
    · rw [markG_set hk, hartOf_setHart_same]
  · rw [hk]
    rfl

/-- Settles O24: an issued access and a store-buffer entry leave registers and memory as they stand, and a delivered value goes where its register is bound. -/
theorem loadsAndStores : Obligations.LoadsAndStores := ⟨loads, stores, delivery⟩

end Sys2Proof.Proofs
end

section
/-! PROOFS. The statements of spec/04_consistency_model.md: atomics and reductions. -/

namespace Sys2Proof.Machine
open Sys2Proof Sys2Proof.Claims

/-! ## What a translation changes (R26, R29, R36) -/

/-- k differs from s in the translation caches, and in what a walk writes: memory and the messages that carry it, the black boxes, and the partitions' registers. -/
def Translated (s k : State) : Prop :=
  { k with mem := s.mem, hostMem := s.hostMem, copies := s.copies, agenda := s.agenda, waitq := s.waitq, boxes := s.boxes, boxN := s.boxN, parts := s.parts
           tiles := s.tiles, stks := s.stks } = s
/-- The state an answer goes on with is reached by translation from s. -/
def TrRes.from (s : State) : TrRes → Prop
  | .ok k _ => Translated s k
  | .fault .. => True

section
variable {s u k : State}

theorem Translated.refl (s : State) : Translated s s := rfl
theorem Translated.trans (h : Translated s u) (h' : Translated u k) : Translated s k := by
  unfold Translated at h h'
  rw [← h'] at h
  exact h
/-- What does not look at the translation caches and at what walks write is as before. -/
theorem Translated.keeps (h : Translated s k) {α : Type} (g : State → α)
    (hg : g { k with mem := s.mem, hostMem := s.hostMem, copies := s.copies, agenda := s.agenda, waitq := s.waitq, boxes := s.boxes, boxN := s.boxN, parts := s.parts
                     tiles := s.tiles, stks := s.stks } = g k) : g k = g s := hg.symm.trans (congrArg g h)
theorem OnlyRecords.translated (h : OnlyRecords s k) : Translated s k := by
  unfold OnlyRecords at h
  exact congrArg (fun x : State => { x with tiles := s.tiles, stks := s.stks }) h
theorem translated_setStack (k : Nat) (x : Stack) : Translated s (setStack s k x) := rfl
theorem translated_setTile (t : Nat) (x : Tile) : Translated s (setTile s t x) := rfl
theorem TrRes.from_ok {r : TrRes} {x : Xlat} (h : r.from s) (e : r = .ok u x) : Translated s u := by rwa [e] at h
theorem TrRes.from_fault {c sb : Nat} : (TrRes.fault u c sb).from s := trivial
theorem TrRes.ok_from {x : Xlat} (h : Translated s u) : (TrRes.ok u x).from s := h
theorem translated_ite {c : Prop} [Decidable c] (hu : Translated s u) (hk : Translated s k) : Translated s (if c then u else k) := by
  split
  · exact hu
  · exact hk
theorem TrRes.from_ite {c : Prop} [Decidable c] {a b : TrRes} (ha : a.from s) (hb : b.from s) : (if c then a else b).from s := by
  split
  · exact ha
  · exact hb

/-- A walk that ends at a place it may not access gives no state to go on with. -/
theorem TrRes.from_orFault {o : Option Nat} {r : TrRes} (h : r.from s) : (match o with | some sb => TrRes.fault s cPROT sb | none => r).from s := by
  cases o with
  | some => exact TrRes.from_fault
  | none => exact h
theorem translated_walkFill (st : Nat) (ps : List (Nat × Nat × Nat)) : Translated s (walkFill s st ps) := rfl
theorem walkFrom_from {st p t lvl fuel : Nat} {va : Word} {k : AccKind} {sup : Bool} {ps : List (Nat × Nat × Nat)} : (walkFrom s st p va k sup t lvl ps fuel).from s := by
  induction fuel generalizing t lvl ps with
  | zero => exact TrRes.from_fault
  | succ f ih =>
    rw [walkFrom]
    refine TrRes.from_ite TrRes.from_fault (TrRes.from_ite TrRes.from_fault (TrRes.from_ite (TrRes.from_ite TrRes.from_fault ih)
      (TrRes.from_ite TrRes.from_fault (TrRes.from_ite TrRes.from_fault ?_))))
    refine TrRes.from_orFault (TrRes.ok_from (.trans ?_ (translated_walkFill ..)))
    exact translated_ite (.refl s) (onlyRecords_pokesFor ..).translated
theorem walk_from {st p : Nat} {va : Word} {k : AccKind} {sup : Bool} : (walk s st p va k sup).from s :=
  TrRes.from_ite trivial (TrRes.from_ite TrRes.from_fault walkFrom_from)
theorem useXlat_from {x : Xlat} {va : Word} {k : AccKind} : (useXlat s x va k).from s := by
  unfold useXlat
  split
  · trivial
  · exact .refl s
theorem llcWalk_from {st p : Nat} {va : Word} {k : AccKind} {sup : Bool} : (llcWalk s st p va k sup).from s := by
  unfold llcWalk
  split
  · next u x h => exact (TrRes.from_ok walk_from h).trans (translated_setStack ..)
  · exact walk_from
theorem llcXlate_from {st p : Nat} {va : Word} {k : AccKind} {sup : Bool} : (llcXlate s st p va k sup).from s := by
  unfold llcXlate
  split
  · exact useXlat_from
  · exact llcWalk_from
theorem gtlbTake_from {t : Nat} {va : Word} {r : TrRes} (h : r.from s) : (gtlbTake t va r).from s := by
  cases r with
  | ok u x => exact Translated.trans h (translated_setTile ..)
  | fault => trivial
theorem xlate_from {t p : Nat} {va : Word} {k : AccKind} {sup : Bool} : (xlate s t p va k sup).from s := by
  refine TrRes.from_ite trivial ?_
  split
  · exact TrRes.from_ite useXlat_from (gtlbTake_from llcWalk_from)
  · exact gtlbTake_from llcXlate_from

theorem translated_spansWith {t p n : Nat} {va : Word} {a : AccKind} {sup : Bool} {l : List Span} (h : spansWith (fun s x => xlate s t p x a sup) s va n = .ok u l) : Translated s u := by
  simp only [spansWith] at h
  split at h
  · cases h
  · next h1 =>
    split at h
    · cases h
      exact TrRes.from_ok xlate_from h1
    · split at h
      · cases h
      · next h2 =>
        cases h
        exact (TrRes.from_ok xlate_from h1).trans (TrRes.from_ok xlate_from h2)
/-- A translated range leaves all but the translation caches and what the walks write. -/
theorem translated_rangeOf {t p n : Nat} {va : Word} {a : AccKind} {sup : Bool} {io : IoRule} {xs : List Piece} (h : rangeOf s t p va n a sup io = .ok u xs) : Translated s u := by
  simp only [rangeOf, rangeWith] at h
  split at h
  · cases h
  · next hs =>
    split at h
    · cases h
    · split at h
      · cases h
      · cases h
        exact translated_spansWith hs

end

/-! ## The functions of atomics (R276) -/

section
variable {n : Nat} {z : Bool}

/-- Signed comparison of n-bit numbers. -/
theorem toSigned_toNat (hn : 0 < n) (x : BitVec n) : toSigned n x.toNat = x.toInt := by
  have hp : 2 ^ n = 2 * 2 ^ (n - 1) := by rw [← Nat.pow_succ', Nat.succ_eq_add_one, Nat.sub_add_cancel hn]
  rw [toSigned, BitVec.toInt_eq_toNat_cond, Nat.mod_eq_of_lt x.isLt]
  simp only [hp, Nat.mul_lt_mul_left (show 0 < 2 by decide)]

theorem minS_toNat (hn : 0 < n) (x y : BitVec n) : minS n x.toNat y.toNat = (if x.toInt ≤ y.toInt then x else y).toNat := by
  rw [minS, toSigned_toNat hn, toSigned_toNat hn]
  split <;> rfl
theorem maxS_toNat (hn : 0 < n) (x y : BitVec n) : maxS n x.toNat y.toNat = (if x.toInt ≤ y.toInt then y else x).toNat := by
  rw [maxS, toSigned_toNat hn, toSigned_toNat hn]
  split <;> rfl
theorem min_toNat (x y : BitVec n) : min x.toNat y.toNat = (if x ≤ y then x else y).toNat := by
  simp only [Nat.min_def, BitVec.le_def]
  split <;> rfl
theorem max_toNat (x y : BitVec n) : max x.toNat y.toNat = (if x ≤ y then y else x).toNat := by
  simp only [Nat.max_def, BitVec.le_def]
  split <;> rfl
/-- CAS compares the bits (R276). -/
theorem amoNew_cas (x y c : BitVec n) : amoNew 1 z x.toNat y.toNat c.toNat = if x = c then some y.toNat else none := by
  simp only [amoNew, beq_iff_eq, BitVec.toNat_inj]

end

/-! ## Atomics (R276) -/

theorem exec_atomic {q} (hq : q ∈ atomics) (d a b : BitVec 5) (z : Bool) (e : BitVec 2) (c : BitVec 3) (t : Bool) (s : State) :
    exec (q.1 d a b z e c t) s = amoOp q.2 d a b z e t s := by
  simp only [atomics, List.mem_cons, List.not_mem_nil, or_false] at hq
  rcases hq with rfl | rfl | rfl | rfl | rfl | rfl | rfl | rfl | rfl | rfl | rfl <;> rfl
theorem exec_reduction {q} (hq : q ∈ reductions) (b a : BitVec 5) (z : Bool) (e : BitVec 2) (c : BitVec 3) (t : Bool) (s : State) :
    exec (q.1 b a z e c t) s = redOp q.2 b a z e t s := by
  simp only [reductions, List.mem_cons, List.not_mem_nil, or_false] at hq
  rcases hq with rfl | rfl | rfl | rfl | rfl | rfl | rfl | rfl | rfl <;> rfl

/-- The registers an atomic reads: CAS reads its comparand in its destination. -/
def amoSrcs (f : Nat) (d a b : BitVec 5) (t : Bool) : List (BitVec 5 × Bool) := if f = 1 then [(a, t), (b, t), (d, false)] else [(a, t), (b, t)]

theorem amoSrcs_eq (f : Nat) (d a b : BitVec 5) (t : Bool) :
    (if (f == 1) = true then [(a, t), (b, t), (d, false)] else [(a, t), (b, t)]) = amoSrcs f d a b t := by simp only [amoSrcs, beq_iff_eq]

/-- The register an instruction empties stays empty while what must go first is set on its way. -/
theorem mem_gEmpty_flushed (w : State) (l : List (BitVec 5 × Bool)) {d : BitVec 5} (h : Nat) {q : Prop} [Decidable q] (hd : d ≠ 0) :
    gkey (curH w).sup d ∈ (curH (if q then flushHart (emptyG (popSrcs w l) d) h else emptyG (popSrcs w l) d)).gEmpty := by
  have hg := mem_gEmpty_emptyG (w := popSrcs w l) hd
  rw [curH_popSrcs] at hg
  split
  · exact hg
  · exact hg
theorem wide_eq (z : Bool) : (if z = true then 8 else 4) = wide z := rfl

section
variable {f : Nat} {d a b : BitVec 5} {z t : Bool} {e : BitVec 2} {s w : State}

theorem amoOp_misaligned (hr : Ready s (amoSrcs f d a b t) (some d)) (hm : (gVal s a).toNat % wide z ≠ 0) : amoOp f d a b z e t s = traps s 3 0 (gVal s a) := by
  simp only [amoOp, amoSrcs_eq, withRegs_ready hr, wide_eq, bne_iff_ne.mpr hm, if_true]
  rfl
theorem amoOp_fault (hr : Ready s (amoSrcs f d a b t) (some d)) (hm : (gVal s a).toNat % wide z = 0) {c sb : Nat} {x : Word}
    (hx : span s (gVal s a) (wide z) .amo .none = .fault w c sb x) : amoOp f d a b z e t s = .next (takeTrap w c sb x (curH s).pc) := by
  simp only [amoOp, amoSrcs_eq, withRegs_ready hr, wide_eq, hm, bne_self_eq_false, Bool.false_eq_true, if_false, show rangeOf .. = _ from hx]
  rfl
theorem amoOp_ok (hr : Ready s (amoSrcs f d a b t) (some d)) (hm : (gVal s a).toNat % wide z = 0) {xs : List Piece}
    (hx : span s (gVal s a) (wide z) .amo .none = .ok w xs) : ∃ u, amoOp f d a b z e t s = .next u ∧ GoesOn s w u ∧ (d ≠ 0 → gkey (curH w).sup d ∈ (curH u).gEmpty) ∧
      u.pend = w.pend ++ [newPend w (some (.rmw f z (gVal w b) (gVal w d))) xs (gVal s a) (.g (gkey (curH w).sup d) (wide z) (!z && f != 10))
        (order w (e.toNat % 2 == 1) (2 ≤ e.toNat) false)] ∧ u.mem = w.mem := by
  have hk := ((readied_popSrcs w (amoSrcs f d a b t)).trans (readied_emptyG _ d)).flushes (c := 2 ≤ e.toNat) w.cur
  simp only [amoOp, amoSrcs_eq, withRegs_ready hr, wide_eq, hm, bne_self_eq_false, Bool.false_eq_true, if_false, show rangeOf .. = _ from hx]
  refine ⟨_, rfl, (hk.issued.trans (issued_issuePend ..)).goesOn s, ?_, (goTo_pend ..).trans (issuePend_pend hk ..), (goTo_mem ..).trans (hk.keeps (·.mem) rfl)⟩
  simp only [curH_goTo, curH_issuePend]
  exact mem_gEmpty_flushed w _ _

end

/-! ## The tile merge buffer (R144, R145) -/

/-- An entry of the merge buffer after those that satisfy p were sent on their way. -/
def sentOn (p : MergeE → Bool) (e : MergeE) : MergeE := if p e then { e with going := true } else e

theorem sentOn_vals (p : MergeE → Bool) (e : MergeE) : (sentOn p e).vals = e.vals := by
  unfold sentOn
  split <;> rfl
theorem sentOn_touched (p : MergeE → Bool) (e : MergeE) : (sentOn p e).touched = e.touched := by
  unfold sentOn
  split <;> rfl
theorem sentOn_going {p : MergeE → Bool} {e : MergeE} (h : p e = true) : (sentOn p e).going = true := by rw [sentOn, if_pos h]

theorem merge_flushMerge (s : State) (t : Nat) (p : MergeE → Bool) : (tileOf (flushMerge s t p) t).merge = (tileOf s t).merge.map fun q => (q.1, sentOn p q.2) := by
  rw [flushMerge, tileOf_setTile_same]
  refine List.map_congr_left fun q _ => ?_
  unfold sentOn
  dsimp only
  split <;> rfl
theorem mfind_flushMerge (s : State) (t : Nat) (p : MergeE → Bool) (k : Nat) : mfind (tileOf (flushMerge s t p) t).merge k = (mfind (tileOf s t).merge k).map (sentOn p) := by
  rw [merge_flushMerge]
  exact mfind_map (fun _ => sentOn p) _ _
/-- What is sent on its way stays in its place until it is answered. -/
theorem mergeFree_flushMerge (s : State) (t : Nat) (p : MergeE → Bool) : mergeFree (tileOf (flushMerge s t p) t) = mergeFree (tileOf s t) := by
  simp only [mergeFree, mfind_flushMerge, Option.isNone_map]
theorem vals_flushMerge (s : State) (t : Nat) (p : MergeE → Bool) (k : Nat) : (mfind (tileOf (flushMerge s t p) t).merge k).map (·.vals) = (mfind (tileOf s t).merge k).map (·.vals) := by
  rw [mfind_flushMerge, Option.map_map]
  exact congrArg (Option.map · _) (funext (sentOn_vals p))

/-- Where some number is at most c, the least of them and c is one of them. -/
theorem exists_eq_foldl_min {α : Type} (f : α → Nat) {l : List α} {c : Nat} (h : ∃ a ∈ l, f a ≤ c) : ∃ a ∈ l, f a = l.foldl (fun m a => min m (f a)) c := by
  have hm : (c :: l.map f).min? = some (l.foldl (fun m a => min m (f a)) c) := by rw [List.min?_cons', List.foldl_map]
  obtain ⟨hin, hle⟩ := List.min?_eq_some_iff.mp hm
  obtain ⟨a, ha, hac⟩ := h
  rcases List.mem_cons.mp hin with hc | hc
  · exact ⟨a, ha, Nat.le_antisymm (hac.trans hc.ge) (hle _ (List.mem_cons_of_mem _ (List.mem_map_of_mem ha)))⟩
  · exact List.mem_map.mp hc

/-- A contribution that enters an entry is one of its contributions. -/
theorem mem_add (n : MergeE) (h id : Nat) (apart : Bool) (turn : Nat) : ∃ c ∈ n.add h id apart turn, c.hart = h ∧ c.turn = turn ∧ id ≤ c.latest := by
  unfold MergeE.add
  split
  · next hf =>
    obtain ⟨x, hx, hh⟩ := List.any_eq_true.mp hf
    have hh := beq_iff_eq.mp hh
    exact ⟨_, List.mem_map_of_mem hx, by simp [hh], by simp [hh], by simp [hh]⟩
  · exact ⟨_, List.mem_append_right _ (List.mem_singleton_self _), rfl, rfl, Nat.le_refl _⟩

theorem issued_setTile (s : State) (t : Nat) (x : Tile) : Issued s (setTile s t x) := (Readied.of_tiles (tilesUpTo_setTile (f := fun _ => ()) rfl)).issued
theorem issued_newId (s : State) : Issued s (newId s) := ⟨rfl, rfl, [], (List.append_nil _).symm, by simp⟩
theorem issued_post_mergeFlushIdle (s : State) (t i : Nat) : Issued s (post s (.mergeFlushIdle t i)) := ⟨rfl, rfl, [_], rfl, by simp [onItsWay]⟩

section
variable {s : State} {h id : Nat} {o : AccOrd} {x : Piece} {f : Nat} {d : Bool} {b : Word}

theorem mfind_merge_put (s : State) (t : Nat) (x : Tile) (m : SMap MergeE) (k : Nat) (e : MergeE) : mfind (tileOf (setTile s t { x with merge := mput m k e }) t).merge k = some e := by
  rw [tileOf_setTile_same]
  exact mfind_mput_same ..
/-- The operand of a reduction of the piece x: as many bytes of b. -/
def redVal (x : Piece) (b : Word) : Nat := b.toNat % 2 ^ (8 * x.n)
/-- The entries of the reduction's granule, of its partition. -/
def ofGranule (s : State) (h : Nat) (x : Piece) (e : MergeE) : Bool := e.part == (tilePart s (h / 16)).getD 0 && e.gk == x.pk / 128

/-- A reduction that finds an entry joins it (R144). -/
theorem mergeRed_hit {k : Nat} {n : MergeE} (hh : mergeHit (tileOf s (h / 16)) ((tilePart s (h / 16)).getD 0) (x.pk / 128) f d = some (k, n)) :
    ∃ u m, mergeRed s h id o x f d b = (u, true) ∧ Issued s u ∧ mfind (tileOf u (h / 16)).merge k = some m ∧
      (∃ c ∈ m.harts, c.hart = h ∧ c.turn = s.nextId ∧ id ≤ c.latest) ∧
      mfind m.vals (x.pk % 128) = some (match mfind n.vals (x.pk % 128) with
        | some old => BitVec.ofNat 64 ((amoNew f d old.toNat (redVal x b) 0).getD 0)
        | none => BitVec.ofNat 64 (redVal x b)) := by
  simp only [mergeRed, hh]
  refine ⟨_, _, rfl, (issued_newId s).trans (issued_setTile ..), mfind_merge_put .., mem_add n h id o.apart s.nextId, mfind_mput_same ..⟩
/-- A reduction that finds none takes a free one. -/
theorem mergeRed_new (hh : mergeHit (tileOf s (h / 16)) ((tilePart s (h / 16)).getD 0) (x.pk / 128) f d = none) {k : Nat} (hf : mergeFree (tileOf s (h / 16)) = some k) :
    ∃ u m, mergeRed s h id o x f d b = (u, true) ∧ Issued s u ∧ mfind (tileOf u (h / 16)).merge k = some m ∧
      m.harts = [⟨h, id, id, o.apart, s.nextId⟩] ∧ m.sup = o.sup ∧ m.f = f ∧ m.dword = d ∧ m.gk = x.pk / 128 ∧
      m.vals = [(x.pk % 128, BitVec.ofNat 64 (redVal x b))] ∧ .mergeFlushIdle (h / 16) k ∈ u.agenda := by
  simp only [mergeRed, hh, mergeFree_flushMerge, hf]
  refine ⟨_, _, rfl, ((readied_flushMerge ..).issued.trans ((issued_newId _).trans (issued_setTile ..))).trans (issued_post_mergeFlushIdle ..), mfind_merge_put .., rfl, rfl, rfl, rfl, rfl, rfl,
    List.mem_append_right _ (List.mem_singleton_self _)⟩
/-- With no entry free the oldest is sent on its way, unless one is on its way already, and the reduction waits. -/
theorem mergeRed_full (hh : mergeHit (tileOf s (h / 16)) ((tilePart s (h / 16)).getD 0) (x.pk / 128) f d = none) (hf : mergeFree (tileOf s (h / 16)) = none)
    (hold : ∃ n ∈ (tileOf s (h / 16)).merge, n.2.touched ≤ s.clock) :
    ∃ u, mergeRed s h id o x f d b = (u, false) ∧ TilesUpTo (fun _ => ()) s u ∧ (∃ n ∈ (tileOf u (h / 16)).merge, n.2.going = true) ∧
      ∀ n, (mfind (tileOf u (h / 16)).merge n).map (·.vals) = (mfind (tileOf s (h / 16)).merge n).map (·.vals) := by
  have hk : TilesUpTo (fun _ => ()) s (flushMerge s (h / 16) (ofGranule s h x)) := tilesUpTo_flushMerge (fun _ _ => rfl) ..
  have hv := vals_flushMerge s (h / 16) (ofGranule s h x)
  have hold' : ∃ n ∈ (tileOf (flushMerge s (h / 16) (ofGranule s h x)) (h / 16)).merge, n.2.touched ≤ s.clock := by
    obtain ⟨n, hn, ht⟩ := hold
    refine ⟨_, by rw [merge_flushMerge]; exact List.mem_map_of_mem hn, ?_⟩
    rw [sentOn_touched]
    exact ht
  obtain ⟨n, hn, ht⟩ := exists_eq_foldl_min (fun n : Nat × MergeE => n.2.touched) hold'
  simp only [mergeRed, hh, mergeFree_flushMerge, hf]
  split
  · next hg =>
    obtain ⟨n, hn, hg⟩ := List.any_eq_true.mp hg
    exact ⟨_, rfl, hk, ⟨n, hn, hg⟩, hv⟩
  · refine ⟨_, rfl, hk.trans (tilesUpTo_flushMerge (fun _ _ => rfl) ..), ?_, fun n => (vals_flushMerge ..).trans (hv n)⟩
    refine ⟨_, by rw [merge_flushMerge]; exact List.mem_map_of_mem hn, sentOn_going ?_⟩
    exact beq_iff_eq.mpr ht

end

/-! ## Reductions (R277) -/

section
variable {f : Nat} {a b : BitVec 5} {z t : Bool} {e : BitVec 2} {s w : State} {x : Piece} {xs : List Piece}

theorem redOp_misaligned (hr : Ready s [(a, t), (b, t)] none) (hm : (gVal s a).toNat % wide z ≠ 0) : redOp f b a z e t s = traps s 3 0 (gVal s a) := by
  simp only [redOp, withRegs_ready hr, wide_eq, bne_iff_ne.mpr hm, if_true]
  rfl
theorem redOp_fault (hr : Ready s [(a, t), (b, t)] none) (hm : (gVal s a).toNat % wide z = 0) {c sb : Nat} {v : Word}
    (hx : span s (gVal s a) (wide z) .amo .none = .fault w c sb v) : redOp f b a z e t s = .next (takeTrap w c sb v (curH s).pc) := by
  simp only [redOp, withRegs_ready hr, wide_eq, hm, bne_self_eq_false, Bool.false_eq_true, if_false, show rangeOf .. = _ from hx]
  rfl

/-- The place of the reduction is not on the stack of its own tile. -/
def farOff (w : State) (x : Piece) : Bool := placeStack w (curPart w) x != curTile w / 128
theorem farOff_eq (w : State) (x : Piece) : (placeStack w (curPart w) x != curTile w / 128) = farOff w x := rfl

/-- The entry that `putEntry` makes in state w. -/
def newEntry (w : State) (op : MemOp) (xs : List Piece) (va : Word) (o : AccOrd) : SbEntry :=
  { id := w.nextId, op, pieces := xs, va, ord := o, full := false, performed := false }

theorem redOp_sent (hr : Ready s [(a, t), (b, t)] none) (hm : (gVal s a).toNat % wide z = 0) (hx : span s (gVal s a) (wide z) .amo .none = .ok w (x :: xs))
    (hf : e ≠ 0 ∨ farOff w x = false) : ∃ u, redOp f b a z e t s = .next u ∧ GoesOn s w u ∧
      (curH u).sb = (curH w).sb ++ [newEntry w (.rmw f z (gVal w b) 0) (x :: xs) (gVal s a) (order w false (e != 0) false)] ∧
      u.agenda = w.agenda ++ [Event.storeSend w.cur] ∧ u.mem = w.mem := by
  have hc : (e == 0 && farOff w x) = false := by
    rcases hf with hf | hf
    · rw [beq_eq_false_iff_ne.mpr hf, Bool.false_and]
    · rw [hf, Bool.and_false]
  have hk := (readied_popSrcs w [(a, t), (b, t)]).flushes (c := (e != 0) = true) w.cur
  have hk := readied_ite (c := farOff w x = true) (hk.trans (readied_useCircuit _ (curTile w) (5 * 1024 + 4 + placeStack w (curPart w) x))) hk
  simp only [redOp, withRegs_ready hr, wide_eq, hm, bne_self_eq_false, Bool.false_eq_true, if_false, show rangeOf .. = _ from hx, farOff_eq, hc]
  refine ⟨_, rfl, (hk.issued.trans (issued_putEntry ..)).goesOn s, ?_, (goTo_agenda ..).trans (putEntry_agenda hk ..), (goTo_mem ..).trans ((putEntry_mem ..).trans (hk.keeps (·.mem) rfl))⟩
  simp only [curH_goTo]
  exact putEntry_sb hk ..

/-- A relaxed reduction to a place elsewhere is the merge buffer's, with nothing of the hart before it (R144). -/
theorem redOp_far (hr : Ready s [(a, t), (b, t)] none) (hm : (gVal s a).toNat % wide z = 0) (hx : span s (gVal s a) (wide z) .amo .none = .ok w (x :: xs))
    (hf : farOff w x = true) (hp : (w.pend.any fun p => p.hart == w.cur && !p.ord.apart) = false)
    (hs : ((unsent (curH w)).any fun y => overlap y.pieces (x :: xs) || (y.isRmw && !y.ord.apart)) = false) :
    (∀ u, mergeRed (popSrcs w [(a, t), (b, t)]) w.cur w.nextId (order w false false false) x f z (gVal w b) = (u, true) → redOp f b a z 0 t s = .next (goTo u ((curH s).pc + 4))) ∧
    (∀ u k, mergeRed (popSrcs w [(a, t), (b, t)]) w.cur w.nextId (order w false false false) x f z (gVal w b) = (u, false) →
      mergeRed w w.cur w.nextId (order w false false false) x f z (gVal w b) = (k, false) → redOp f b a z 0 t s = .next (setCur k { curH k with wait := .slot })) := by
  refine ⟨fun u hu => ?_, fun u k hu hk => ?_⟩
  · simp only [redOp, withRegs_ready hr, wide_eq, hm, bne_self_eq_false, Bool.false_eq_true, if_false, show rangeOf .. = _ from hx, farOff_eq, hf, beq_self_eq_true, Bool.and_self, if_true, hp, hs,
      Bool.or_self, scalarOrd_eq, hu]
    rfl
  · simp only [redOp, withRegs_ready hr, wide_eq, hm, bne_self_eq_false, Bool.false_eq_true, if_false, show rangeOf .. = _ from hx, farOff_eq, hf, beq_self_eq_true, Bool.and_self, if_true, hp, hs,
      Bool.or_self, scalarOrd_eq, hu, hk]
    rfl

/-- What the sources use up leaves the merge buffer as it is. -/
theorem merge_popSrcs (w : State) (l : List (BitVec 5 × Bool)) (i : Nat) : (tileOf (popSrcs w l) i).merge = (tileOf w i).merge := (tilesUpTo_popSrcs (f := fun x : Tile => x.merge) (fun _ _ => rfl) w l).tile i
theorem mergeFree_popSrcs (w : State) (l : List (BitVec 5 × Bool)) (i : Nat) : mergeFree (tileOf (popSrcs w l) i) = mergeFree (tileOf w i) := by
  simp only [mergeFree, merge_popSrcs]
theorem mergeHit_popSrcs (w : State) (l : List (BitVec 5 × Bool)) (i p gk f : Nat) (d : Bool) : mergeHit (tileOf (popSrcs w l) i) p gk f d = mergeHit (tileOf w i) p gk f d := by
  simp only [mergeHit, merge_popSrcs]

end

end Sys2Proof.Machine

namespace Sys2Proof.Proofs
open Sys2Proof Sys2Proof.Machine Sys2Proof.Claims

theorem atomicFunctions : Claims.AtomicFunctions := by
  refine ⟨fun x y c => ?_, fun x y c => ?_, fun z x y c => rfl⟩
  · exact ⟨rfl, amoNew_cas x y c, by rw [BitVec.toNat_add]; rfl, by rw [BitVec.toNat_and]; rfl, by rw [BitVec.toNat_or]; rfl, by rw [BitVec.toNat_xor]; rfl,
      congrArg some (minS_toNat (by decide) x y), congrArg some (maxS_toNat (by decide) x y), congrArg some (min_toNat x y), congrArg some (max_toNat x y)⟩
  · exact ⟨rfl, amoNew_cas x y c, by rw [BitVec.toNat_add]; rfl, by rw [BitVec.toNat_and]; rfl, by rw [BitVec.toNat_or]; rfl, by rw [BitVec.toNat_xor]; rfl,
      congrArg some (minS_toNat (by decide) x y), congrArg some (maxS_toNat (by decide) x y), congrArg some (min_toNat x y), congrArg some (max_toNat x y)⟩

theorem atomics : Claims.Atomics := by
  intro q hq s d a b z e c t i srcs hr
  have hi : exec i s = amoOp q.2 d a b z e t s := exec_atomic hq d a b z e c t s
  rw [hi]
  exact ⟨amoOp_misaligned hr, fun hm => ⟨fun w k sb x hx => amoOp_fault hr hm hx, fun w xs hx => amoOp_ok hr hm hx⟩⟩

theorem reductions : Claims.Reductions := by
  intro q hq s b a z e c t hr i
  have hi : exec i s = redOp q.2 b a z e t s := exec_reduction hq b a z e c t s
  rw [hi]
  refine ⟨redOp_misaligned hr, fun hm => ⟨fun w k sb x hx => redOp_fault hr hm hx, fun w x xs hx => ⟨redOp_sent hr hm hx, fun he hf hp hs => ?_⟩⟩⟩
  subst he
  obtain ⟨hin, hout⟩ := redOp_far (f := q.2) hr hm hx hf hp hs
  have hk := readied_popSrcs w [(a, t), (b, t)]
  have hn : (popSrcs w [(a, t), (b, t)]).nextId = w.nextId := hk.keeps (·.nextId) rfl
  have hpart : tilePart (popSrcs w [(a, t), (b, t)]) (w.cur / 16) = tilePart w (w.cur / 16) := hk.keeps (tilePart · (w.cur / 16)) rfl
  refine ⟨fun k n hh => ?_, fun hh k hfree => ?_, fun hh hfree hold => ?_⟩
  · rw [← mergeHit_popSrcs w [(a, t), (b, t)], curPart, curTile, ← hpart] at hh
    obtain ⟨u, m, hu, hiss, hm', hadd, hval⟩ := mergeRed_hit (id := w.nextId) (o := order w false false false) (b := gVal w b) hh
    rw [hn] at hadd
    exact ⟨_, m, hin u hu, (hk.issued.trans hiss).goesOn s, hm', hadd, hval, (goTo_mem ..).trans ((hk.issued.trans hiss).keeps (·.mem) rfl)⟩
  · rw [← mergeHit_popSrcs w [(a, t), (b, t)], curPart, curTile, ← hpart] at hh
    rw [← mergeFree_popSrcs w [(a, t), (b, t)]] at hfree
    obtain ⟨u, m, hu, hiss, hm', hharts, hsup, hfn, hd, hgk, hval, hag⟩ := mergeRed_new (id := w.nextId) (o := order w false false false) (b := gVal w b) hh hfree
    rw [hn] at hharts
    exact ⟨_, m, hin u hu, (hk.issued.trans hiss).goesOn s, hm', hharts, hsup, hfn, hd, hgk, hval, hag, (goTo_mem ..).trans ((hk.issued.trans hiss).keeps (·.mem) rfl)⟩
  · obtain ⟨u, hu, hup, hgo, hvals⟩ := mergeRed_full (id := w.nextId) (o := order w false false false) (b := gVal w b) hh hfree hold
    have hh' := hh
    have hfree' := hfree
    rw [← mergeHit_popSrcs w [(a, t), (b, t)], curPart, curTile, ← hpart] at hh'
    rw [← mergeFree_popSrcs w [(a, t), (b, t)]] at hfree'
    obtain ⟨v, hv, -⟩ := mergeRed_full (s := popSrcs w [(a, t), (b, t)]) (id := w.nextId) (o := order w false false false) (b := gVal w b) hh' hfree' (by
      rw [merge_popSrcs, show (popSrcs w [(a, t), (b, t)]).clock = w.clock from hk.keeps (·.clock) rfl]
      exact hold)
    refine ⟨_, hout v u hv hu, ?_, by rw [curH_setCur], hgo, hvals, hup.keeps (·.mem) rfl⟩
    have hw := translated_rangeOf hx
    rw [curH_setCur]
    exact (hup.keeps (fun x => (curH x).pc) rfl).trans (hw.keeps (fun x => (curH x).pc) rfl)

/-- Settles O25: an atomic is one access in flight, a reduction an entry of the store buffer or of the merge buffer, by where its place lies. -/
theorem atomicOperations : Obligations.AtomicOperations := ⟨atomics, atomicFunctions, reductions⟩

end Sys2Proof.Proofs
end

section
/-! PROOFS. The statements of spec/04_consistency_model.md: the store buffer and the merge buffer. -/

namespace Sys2Proof.Machine
open Sys2Proof Sys2Proof.Claims

/-! ## Sending an entry of the store buffer (R137) -/

section
variable {s u : State} {h : Nat} {e : SbEntry} {es : List SbEntry} {bs : List Byte} {x : Piece}

/-- Who writes the entry e of hart h. -/
def sender (s : State) (h : Nat) (e : SbEntry) : Who := { whoHart s h (!e.ord.vec) with ev := some (.storeSend h, e.id + 1) }
/-- The entry of a store of the bytes bs, after its one piece x has been performed. -/
def stored (bs : List Byte) (x : Piece) (e : SbEntry) : SbEntry := { e with op := .write (bs.drop x.n), pieces := [], performed := true }
/-- The hart's send goes on while entries are left that no home holds. -/
def sendsOn (k : State) (h : Nat) : State := if (unsent (hartOf k h)).any fun y => !y.away && !parked k h y then postOnce k (.storeSend h) else k

theorem sendPiece_write (ho : e.op = .write bs) (hx : x.io = false) : sendPiece s h e x = accWrite s (sender s h e) x (bs.take x.n) e.full := by
  simp only [sendPiece, ho, hx, Bool.false_eq_true, if_false]
  rfl
theorem sendsAway_write (ho : e.op = .write bs) (hx : x.io = false) : sendsAway s h e x = false := by simp only [sendsAway, ho, hx, Bool.false_and]

theorem sendPieces_ok (ho : e.op = .write bs) (hx : x.io = false) {l : List Byte} (hw : accWrite s (sender s h e) x (bs.take x.n) e.full = .ok u l) :
    sendPieces s h e [x] = .done (post (setEntry u h (stored bs x e)) (.storeAck h e.id)) := by
  rw [sendPieces, sendPiece_write ho hx, hw]
  simp only [sendsAway_write ho hx, Bool.false_eq_true, if_false, ho]
  rfl
theorem sendPieces_err (ho : e.op = .write bs) (hx : x.io = false) (hr : e.refused = false) {c sb : Nat} (hw : accWrite s (sender s h e) x (bs.take x.n) e.full = .err u c sb) :
    sendPieces s h e [x] = .done (post (setEntry (refuseEntry u h e x c) h (stored bs x { e with refused := true })) (.storeAck h e.id)) := by
  rw [sendPieces, sendPiece_write ho hx, hw]
  simp only [hr, Bool.false_eq_true, if_false, ho]
  rfl
theorem sendPieces_wait (ho : e.op = .write bs) (hx : x.io = false) (hw : accWrite s (sender s h e) x (bs.take x.n) e.full = .wait u) :
    sendPieces s h e [x] = .wait (setEntry u h e) := by rw [sendPieces, sendPiece_write ho hx, hw]

theorem storeStep_nil (hu : unsent (hartOf s h) = []) : storeStep s h = s := by simp only [storeStep, hu, List.isEmpty_nil, if_true]
/-- The first entry is sent when nothing holds it back. -/
theorem storeStep_done (hu : unsent (hartOf s h) = e :: es) (hh : entryHeld s h e = false) (hp : parked s h e = false) (ha : e.away = false)
    (hd : sendPieces s h e e.pieces = .done u) : storeStep s h = sendsOn u h := by
  simp only [storeStep, hu, List.isEmpty_cons, Bool.false_eq_true, if_false, sendFirst, hh, hp, ha, Bool.or_self, hd]
  rfl
/-- What a home holds is as before when merge entries are told to flush. -/
theorem parked_flushMerge (s : State) (t : Nat) (p : MergeE → Bool) (h : Nat) (e : SbEntry) : parked (flushMerge s t p) h e = parked s h e := (readied_flushMerge s t p).keeps (parked · h e) rfl
/-- A send that finds its only entry waiting at no home follows again. -/
theorem storeStep_wait (hu : unsent (hartOf s h) = [e]) (hh : entryHeld s h e = false) (hp : parked s h e = false) (ha : e.away = false)
    (hd : sendPieces s h e e.pieces = .wait u) (hw : parked u h e = false) : .storeSend h ∈ (storeStep s h).agenda := by
  simp only [storeStep, hu, List.isEmpty_cons, Bool.false_eq_true, if_false, sendFirst, hh, hp, ha, Bool.or_self, hd, hw, parked_flushMerge, List.all_cons, List.all_nil, Bool.and_true]
  exact List.mem_append_right _ (List.mem_singleton_self _)

end
/-! ## The steps of a merge entry (R145) -/

section
variable {s u : State} {t i : Nat} {e : MergeE}

/-- Entry i of tile t becomes e: it is free when it has no word left and no answer due, and else sends on. -/
def mergePut (t i : Nat) (u : State) (e : MergeE) : State :=
  if e.vals.isEmpty && e.due == 0 then setTile u t { tileOf u t with merge := mdel (tileOf u t).merge i }
  else post (setTile u t { tileOf u t with merge := mput (tileOf u t).merge i e }) (.mergeFlushIdle t i)
/-- What entry e follows: an older one of its granule (R166), or one that program order puts first (R135). -/
def mergeFollows (e y : MergeE) : Bool := (y.gk == e.gk && decide (y.id < e.id)) || e.behind y
/-- A word that a router of tile t takes (R372). -/
def mergeContribution (t i : Nat) (e : MergeE) (x : Piece) (v : Word) : Contrib :=
  { tile := t, part := e.part, dpkg := 0x1FF, func := e.f - 2, pa := x.pk, bytes := leBytes 4 v.toNat, tag := none, origin := i * 4 }

theorem mergePut_free (hv : e.vals = []) (hd : e.due = 0) : mergePut t i u e = setTile u t { tileOf u t with merge := mdel (tileOf u t).merge i } := by
  simp [mergePut, hv, hd]
theorem mergePut_more (h : e.vals ≠ [] ∨ e.due ≠ 0) : mergePut t i u e = post (setTile u t { tileOf u t with merge := mput (tileOf u t).merge i e }) (.mergeFlushIdle t i) := by
  rw [mergePut, if_neg]
  rcases h with h | h <;> simp [h]

theorem mergeStep_none (hm : mfind (tileOf s t).merge i = none) : mergeStep s t i = s := by simp only [mergeStep, hm]
theorem mergeStep_young (hm : mfind (tileOf s t).merge i = some e) (hg : e.going = false) (hc : s.clock < e.touched + 4096) : mergeStep s t i = post s (.mergeFlushIdle t i) := by
  simp only [mergeStep, hm, hg, hc, Bool.not_false, decide_true, Bool.and_self, if_true]

/-- The entry is on its way, or has waited its 4,096 clocks. -/
theorem merge_notYoung (hg : e.going = true ∨ e.touched + 4096 ≤ s.clock) : (!e.going && decide (s.clock < e.touched + 4096)) = false := by
  rcases hg with hg | hg
  · rw [hg, Bool.not_true, Bool.false_and]
  · rw [decide_eq_false (Nat.not_lt.mpr hg), Bool.and_false]

section
variable (hm : mfind (tileOf s t).merge i = some e) (hg : e.going = true ∨ e.touched + 4096 ≤ s.clock)
include hm hg

theorem mergeStep_follows (hf : ((tileOf s t).merge.any fun y => mergeFollows e y.2) = true) : mergeStep s t i = post (flushMerge s t (mergeFollows e)) (.mergeFlushIdle t i) := by
  simp only [mergeStep, hm, merge_notYoung hg, Bool.false_eq_true, if_false]
  exact if_pos hf

variable (hf : ((tileOf s t).merge.any fun y => mergeFollows e y.2) = false)
include hf

theorem mergeStep_empty (hv : e.vals = []) : mergeStep s t i = mergePut t i s { e with going := true } := by
  simp only [mergeStep, hm, merge_notYoung hg, Bool.false_eq_true, if_false]
  refine (if_neg (Bool.eq_false_iff.mp hf)).trans ?_
  rw [hv]
  rfl

variable {o : Nat} {v : Word} {r : SMap Word} (hv : e.vals = (o, v) :: r)
include hv

theorem mergeStep_word {old : List Byte} (hr : routed (useCircuit s t (mergeCircuit s e (e.word o))) t e.part (e.f - 2) (e.word o) = false)
    (ha : accRmw (useCircuit s t (mergeCircuit s e (e.word o))) { tile := t, part := e.part, unit := 100, l1 := false, ev := some (.mergeFlushIdle t i, e.id + 1) } (e.word o)
      (amoBytes e.f e.dword v 0) = .ok u old) : mergeStep s t i = mergePut t i u { e with going := true, vals := r } := by
  simp only [mergeStep, hm, merge_notYoung hg, Bool.false_eq_true, if_false]
  refine (if_neg (Bool.eq_false_iff.mp hf)).trans ?_
  simp only [hv, hr, Bool.false_eq_true, if_false, ha]
  rfl
theorem mergeStep_routed (hr : routed (useCircuit s t (mergeCircuit s e (e.word o))) t e.part (e.f - 2) (e.word o) = true) :
    mergeStep s t i = mergePut t i (post (useCircuit s t (mergeCircuit s e (e.word o))) (.routerContribution (mergeContribution t i e (e.word o) v)))
      { e with going := true, vals := r, due := e.due + 1 } := by
  simp only [mergeStep, hm, merge_notYoung hg, Bool.false_eq_true, if_false]
  refine (if_neg (Bool.eq_false_iff.mp hf)).trans ?_
  simp only [hv, hr, if_true]
  rfl

end
end
end Sys2Proof.Machine

namespace Sys2Proof.Proofs
open Sys2Proof Sys2Proof.Machine Sys2Proof.Claims

theorem storeBuffer : Claims.StoreBuffer := by
  intro s h id e es bs x
  refine ⟨fun hu => congrArg Host.Outcome.next (storeStep_nil hu), fun hu hh hp ha ho hx hio => ⟨fun u hw => ?_, fun hr u c sb hw => ?_, fun hes u hw hq => ?_⟩, ?_⟩
  · exact congrArg Host.Outcome.next (storeStep_done hu hh hp ha (by rw [hx]; exact sendPieces_ok ho hio hw))
  · exact congrArg Host.Outcome.next (storeStep_done hu hh hp ha (by rw [hx]; exact sendPieces_err ho hio hr hw))
  · subst hes
    exact ⟨_, rfl, storeStep_wait hu hh hp ha (by rw [hx]; exact sendPieces_wait ho hio hw) hq⟩
  · refine ⟨_, rfl, ?_, ?_, rfl, fun k hk => mgetD_mput_other _ _ _ _ hk⟩
    · rw [hartOf_setHart_same]
    · rw [hartOf_setHart_same]

theorem mergeBuffer : Claims.MergeBuffer := by
  intro s t i e
  refine ⟨fun hm => congrArg Host.Outcome.next (mergeStep_none hm), fun hm => ⟨fun hg hc => congrArg Host.Outcome.next (mergeStep_young hm hg hc),
    fun hg hf => congrArg Host.Outcome.next (mergeStep_follows hm hg hf), fun hg hf => ⟨fun hv hd => ?_, ?_⟩⟩⟩
  · refine ⟨_, congrArg Host.Outcome.next ((mergeStep_empty hm hg hf hv).trans (mergePut_free hv hd)), ?_, rfl⟩
    rw [tileOf_setTile_same]
    exact mfind_mdel_same ..
  · intro o v r hv x k
    refine ⟨fun hr u old ha => ?_, fun hr => ?_⟩
    · refine congrArg Host.Outcome.next ((mergeStep_word hm hg hf hv hr ha).trans ?_)
      split
      · next h => exact mergePut_free h.1 h.2
      · next h => exact mergePut_more (not_and_or.mp h)
    · exact ⟨_, _, congrArg Host.Outcome.next ((mergeStep_routed hm hg hf hv hr).trans (mergePut_more (.inr (Nat.succ_ne_zero e.due)))), mfind_merge_put .., rfl, rfl⟩

/-- Settles O27: a send goes as its one piece's access goes, and a merge entry's word as its place or its router answers. -/
theorem buffers : Obligations.Buffers := ⟨storeBuffer, mergeBuffer⟩

end Sys2Proof.Proofs
end

section
/-! PROOFS. The statements of spec/04_consistency_model.md: fences and joins. -/

namespace Sys2Proof.Machine
open Sys2Proof Sys2Proof.Claims

/-! ## The prior set of a fence (R147) -/

section
variable {s : State} {h : Nat}

/-- The accesses a FENCE's kind asks for. -/
theorem kind_loads (k : BitVec 4) : (k.toNat / 8 % 2 == 1) = k.getLsbD 3 := (testBit_eq_div_mod k.toNat 3).symm
theorem kind_stores (k : BitVec 4) : (k.toNat / 4 % 2 == 1) = k.getLsbD 2 := (testBit_eq_div_mod k.toNat 2).symm

theorem not_or_eq_true_iff {a b : Bool} : (!a || b) = true ↔ (a = true → b = true) := by rw [Bool.or_eq_true, Bool.not_eq_true', ← Bool.not_eq_true, imp_iff_not_or]

theorem loadsDone_iff : loadsDone s h = true ↔ ∀ q ∈ s.pend, q.hart ≠ h := by simp [loadsDone]
theorem mergeGoing_eq_false_iff : mergeGoing s h = false ↔ ∀ m ∈ (tileOf s (h / 16)).merge, ∀ q ∈ m.2.harts, q.hart = h → m.2.going = false := by
  simp [mergeGoing, MergeE.from]
theorem storesDone_iff : storesDone s h = true ↔ (hartOf s h).sb = [] ∧ (∀ m ∈ (tileOf s (h / 16)).merge, ∀ q ∈ m.2.harts, q.hart = h → m.2.going = false) ∧
    ∀ q ∈ s.pend, q.hart = h → q.op = none := by
  simp only [storesDone, Bool.and_eq_true, Bool.not_eq_true', mergeGoing_eq_false_iff, List.isEmpty_iff, and_assoc]
  simp

end
/-! ## FENCE (R278) -/

section
variable {s : State} {c : BitVec 3} {k : BitVec 4} {e : Bool}

/-- A FENCE for stores sends its hart's merged reductions on first (R145). -/
def fenceFlush (s : State) (k : BitVec 4) : State := if k.getLsbD 2 then flushHart s s.cur else s
/-- A FENCE joins at domain, pod and system scope, with stores or engine work in its prior set. -/
def fenceJoins (c : BitVec 3) (k : BitVec 4) (e : Bool) : Bool := decide (4 ≤ c.toNat) && (k.getLsbD 2 || e)

theorem fenceJoins_iff : fenceJoins c k e = true ↔ 4 ≤ c.toNat ∧ (k.getLsbD 2 = true ∨ e = true) := by simp only [fenceJoins, Bool.and_eq_true, decide_eq_true_eq, Bool.or_eq_true]
theorem fenceFlush_upTo (s : State) (k : BitVec 4) : TilesUpTo (fun _ => ()) s (fenceFlush s k) := by
  unfold fenceFlush
  split
  · exact tilesUpTo_flushMerge (fun _ _ => rfl) ..
  · exact .refl ..

theorem execFence_none (hk : k = 0) : execFence c k e s = ends s s := by
  subst hk
  rfl

theorem fenceFlush_eq (s : State) (k : BitVec 4) : (if k.getLsbD 2 = true then flushHart s s.cur else s) = fenceFlush s k := rfl
theorem fenceJoins_eq (c : BitVec 3) (k : BitVec 4) (e : Bool) : (decide (4 ≤ c.toNat) && (k.getLsbD 2 || e)) = fenceJoins c k e := rfl

/-- The join that a FENCE begins (R167). -/
def newJoin (s : State) (c : BitVec 3) : Join := { id := s.nextId, pod := c.toNat == 5, sent := false, due := 0, circ := [] }
/-- The executing hart begins the join x and sleeps. -/
def joining (w : State) (x : Join) : State := post (setCur (newId w) { curH w with join := some x }) (.joinMarkers w.cur)
theorem curH_joining (w : State) (x : Join) : curH (joining w x) = { curH w with join := some x } := by rw [joining, curH_post, curH_setCur]

section
variable (hk : k ≠ 0) (hj : (curH s).join = none)
include hk hj

theorem execFence_wait (hr : fenceReady (fenceFlush s k) (fenceFlush s k).cur k e = false) :
    execFence c k e s = .next (setCur (fenceFlush s k) { curH (fenceFlush s k) with wait := .fence }) := by
  simp only [execFence, beq_eq_false_iff_ne.mpr hk, kind_stores, hj, fenceFlush_eq, hr, Bool.not_false, Bool.false_eq_true, if_false, if_true]
  rfl
theorem execFence_goes (hr : fenceReady (fenceFlush s k) (fenceFlush s k).cur k e = true) (hn : fenceJoins c k e = false) : execFence c k e s = ends s (fenceFlush s k) := by
  simp only [execFence, beq_eq_false_iff_ne.mpr hk, kind_stores, hj, fenceFlush_eq, hr, Bool.not_true, fenceJoins_eq, hn, Bool.false_eq_true, if_false]
  rfl
theorem execFence_joins (hr : fenceReady (fenceFlush s k) (fenceFlush s k).cur k e = true) (hn : fenceJoins c k e = true) :
    execFence c k e s = .next (setCur (joining (fenceFlush s k) (newJoin (fenceFlush s k) c)) { curH (joining (fenceFlush s k) (newJoin (fenceFlush s k) c)) with wait := .fence }) := by
  simp only [execFence, beq_eq_false_iff_ne.mpr hk, kind_stores, hj, fenceFlush_eq, hr, Bool.not_true, fenceJoins_eq, hn, Bool.false_eq_true, if_false, if_true]
  rfl

end

section
variable {j : Join} (hk : k ≠ 0) (hj : (curH s).join = some j)
include hk hj

theorem execFence_due (hd : (j.sent && j.due == 0) = false) : execFence c k e s = sleeps s .fence := by
  simp only [execFence, beq_eq_false_iff_ne.mpr hk, hj, hd, Bool.false_eq_true, if_false]
  rfl
/-- The used-sets of tile x after the join j. -/
def joinedTile (x : Tile) (j : Join) : Tile :=
  { x with usedD := x.usedD.filter fun y => !j.circ.contains y, usedP := if j.pod then x.usedP.filter fun y => !j.circ.contains y else x.usedP }
theorem execFence_joined (hd : (j.sent && j.due == 0) = true) :
    execFence c k e s = ends s (setCur (setTile s (curTile s) (joinedTile (tileOf s (curTile s)) j)) { curH s with join := none }) := by
  simp only [execFence, beq_eq_false_iff_ne.mpr hk, hj, hd, Bool.false_eq_true, if_false, if_true]
  rfl

end
end

/-! ## The steps of a join (R167) -/

section
variable {s : State} {h id c : Nat}

/-- The circuits of a join's scope that its tile has used. -/
def joinCircuits (s : State) (h : Nat) (j : Join) : List Nat := if j.pod then (tileOf s (h / 16)).usedP else (tileOf s (h / 16)).usedD

theorem execJoinMarkers_some {j : Join} (hj : (hartOf s h).join = some j) : execJoinMarkers h s =
    .next (posts (setHart s h { hartOf s h with join := some { j with sent := true, due := (joinCircuits s h j).length, circ := joinCircuits s h j } })
      ((joinCircuits s h j).map fun x => Event.joinMarkerArrive j.id x)) := by
  simp only [execJoinMarkers, hj]
  rfl
theorem execJackArrive_some (hj : joinHart s id = some h) :
    execJackArrive id c s = .next (setHart s h { hartOf s h with join := (hartOf s h).join.map fun x => { x with due := x.due - 1 } }) := by
  simp only [execJackArrive, hj]

end
end Sys2Proof.Machine

namespace Sys2Proof.Proofs
open Sys2Proof Sys2Proof.Machine Sys2Proof.Claims

theorem fencePriorSet : Claims.FencePriorSet := by
  intro s h k e
  simp only [fenceReady, kind_loads, kind_stores, ← loadsDone_iff, ← storesDone_iff]
  simp only [Bool.and_eq_true (_ && _), Bool.and_eq_true (!_ || _), not_or_eq_true_iff, and_assoc]
  simp only [Bool.and_eq_true, Bool.or_eq_true, and_imp]

theorem fence : Claims.Fence := by
  intro s c k e stores w joins
  have hw : TilesUpTo (fun _ => ()) s w := fenceFlush_upTo s k
  have hc : s.cur = w.cur := (hw.keeps (·.cur) rfl).symm
  have hi : w.nextId = s.nextId := hw.keeps (·.nextId) rfl
  refine ⟨fun hk => execFence_none hk, fun hk hj => ?_, fun j hk hj => ⟨fun hd => ?_, fun hs hd => ?_⟩⟩
  · rw [hc]
    refine ⟨execFence_wait hk hj, fun hr hn => execFence_goes hk hj hr ?_, fun hr hn => ⟨_, execFence_joins hk hj hr (fenceJoins_iff.mpr hn), ?_⟩⟩
    · exact Bool.eq_false_iff.mpr fun h => hn (fenceJoins_iff.mp h)
    · rw [curH_setCur, curH_joining]
      exact ⟨congrArg (fun n => some { newJoin w c with id := n }) hi, rfl, hw.keeps (fun x => (curH x).pc) rfl, congrArg (· ++ _) (hw.keeps (·.agenda) rfl)⟩
  · refine execFence_due hk hj ?_
    rcases hd with hd | hd
    · rw [hd, Bool.false_and]
    · rw [beq_eq_false_iff_ne.mpr hd, Bool.and_false]
  · refine ⟨_, execFence_joined hk hj (by rw [hs, hd]; rfl), ?_⟩
    simp only [curH_goTo, curH_setCur]
    have ht : (tileOf (goTo (setCur (setTile s (curTile s) (joinedTile (tileOf s (curTile s)) j)) { curH s with join := none }) ((curH s).pc + 4)) (curTile s)) =
      joinedTile (tileOf s (curTile s)) j := tileOf_setTile_same ..
    rw [ht]
    exact ⟨trivial, trivial, trivial, rfl, rfl⟩

theorem joins : Claims.Joins := by
  intro s h id c j
  refine ⟨fun hj => ⟨_, execJoinMarkers_some hj, ?_, rfl⟩, fun hj => ⟨?_, _, execJackArrive_some (c := c) hj, ?_, ?_⟩, rfl⟩
  · exact congrArg Hart.join (hartOf_setHart_same ..)
  · simp only [exec_joinMarkerArrive, execJoinMarkerArrive, hj, Bool.or_eq_true, beq_iff_eq, Bool.and_eq_true, decide_eq_true_eq]
  · rw [hartOf_setHart_same]
  · rw [hartOf_setHart_same]

/-- Settles O28: a FENCE goes on with its prior set complete, and its join ends with the last circuit's answer. -/
theorem fences : Obligations.Fences := ⟨fence, fencePriorSet, joins⟩

end Sys2Proof.Proofs
end

section
/-! PROOFS. The statements of spec/04_consistency_model.md: the steps of copies and the bytes they move. -/

namespace Sys2Proof.Machine
open Sys2Proof Sys2Proof.Claims

/-! ## The next command (R151, R345) -/

section
variable {s : State} {t : Nat} {c : Cmd}
variable (hf : (copyQueue s t).find? (fun c => !c.begun) = some c) (hn : ((copyQueue s t).filter (·.begun)).length < 8)
include hf hn

theorem beginNext_begins (hd : c.src ≠ 0 ∨ drainedBefore s c.hart c.id = true) : beginNext s t = again s { c with begun := true } := by
  have hw : (c.src == 0 && !drainedBefore s c.hart c.id) = false := by
    rcases hd with hd | hd
    · rw [beq_eq_false_iff_ne.mpr hd, Bool.false_and]
    · rw [hd, Bool.not_true, Bool.and_false]
  simp only [beginNext, hf, Nat.not_le.mpr hn, hw, Bool.false_eq_true, if_false]
theorem beginNext_waits (hs : c.src = 0) (hd : drainedBefore s c.hart c.id = false) : beginNext s t = post (flushBefore s c.hart c.id) (.copyBegin t) := by
  simp only [beginNext, hf, Nat.not_le.mpr hn, hs, hd, beq_self_eq_true, Bool.not_false, Bool.and_self, if_true, if_false]

end

/-! ## The work of a begun command (R348) -/

section
variable {s : State} {t id : Nat} {c : Cmd}

/-- Command id of tile t is under way: it has begun, it waits for no service, and its raise is yet to come. -/
structure UnderWay (s : State) (t id : Nat) (c : Cmd) : Prop where
  cmd : cmdOf s t id = some c
  begun : c.begun = true
  stall : c.stall = none
  raised : c.raised = false

theorem UnderWay.transfer_err (h : UnderWay s t id c) {m : Mark} (he : c.err = some m) : transfer s t id = if c.due = 0 then toEnd s c else setCmd s { c with retry := true } := by
  simp only [transfer, h.cmd, h.begun, h.stall, h.raised, he, Option.isSome_some, Option.isSome_none, Bool.not_true, Bool.or_self, Bool.false_eq_true, if_false, if_true, beq_iff_eq]

section
variable (h : UnderWay s t id c) (he : c.err = none) (hk : c.k = 0)
include h he hk

theorem UnderWay.transfer_copy : transfer s t id = match c.mode with
    | 3 => copyVreg s c
    | 4 => copyTile s c
    | _ => copyGran s c := by
  simp only [transfer, h.cmd, h.begun, h.stall, h.raised, he, hk, Option.isSome_none, Bool.not_true, Bool.or_self, Bool.false_eq_true, if_false]
  rfl
theorem UnderWay.transfer_vreg (hm : c.mode = 3) : transfer s t id = copyVreg s c := by simp only [h.transfer_copy he hk, hm]
theorem UnderWay.transfer_tile (hm : c.mode = 4) : transfer s t id = copyTile s c := by simp only [h.transfer_copy he hk, hm]
theorem UnderWay.transfer_gran (hm : c.mode < 3) : transfer s t id = copyGran s c := by
  rw [h.transfer_copy he hk]
  split
  · omega
  · omega
  · rfl

end

/-- A memory copy with no granule of its destination left ends. -/
theorem copyGran_end (hn : nextPos (copySpans c) c.pos (((copySpans c).map spanGrans).sum + (copySpans c).length + 1) = none) : copyGran s c = toEnd s c := by
  simp only [copyGran, hn]
/-- A memory copy reads what goes to the next granule of its destination, and writes it. -/
theorem copyGran_moves {p : Nat} {b : Word} {n : Nat} (hk : c.k = 0)
    (hn : nextPos (copySpans c) c.pos (((copySpans c).map spanGrans).sum + (copySpans c).length + 1) = some p) (hp : (copySpans c)[p / 2 ^ 64]? = some (b, n))
    {g : Nat} (hg : g = b.toNat / 128 + p % 2 ^ 64) {dst src : List Word} (hd : dst = (granPlan (copySpans c) g).map fun q => BitVec.ofNat 64 (g * 128 + q.1))
    (hs : src = (granPlan (copySpans c) g).map fun q => copySource c q.2.1 q.2.2) {u v : State} {bs r : List Byte}
    (hr : (engGatherSome s (whoCmd c) c.sup (joinRuns (src.drop c.buf.length)) c.buf).1 = .ok u bs)
    (hw : engScatter { u with free := u.free + 128 } (whoCmd c) c.sup (joinBytes (dst.zip (openBytes c (copySpans c) src dst u.free bs))) = .ok v r) :
    copyGran s c = again (landGran v c g) { c with pos := p + 1, buf := [] } := by
  subst hg hd hs
  have hget : (c.k == cGET) = false := by rw [hk]; rfl
  simp only [copyGran, hn, hp, hget, Bool.false_eq_true, if_false, hr, pursue, hw]

theorem copyVreg_moves (hl : c.pos * 64 < c.gc.toNat) {u : State} {bs : List Byte}
    (hr : engRead s (whoCmd c) c.sup (c.ga + BitVec.ofNat 64 (c.pos * 64)) 64 = .ok u bs) :
    copyVreg s c = again (setTile u c.tile (setVBytesAt (tileOf u c.tile) (cmdLanes c) (c.gb.toNat % 32 + c.pos * 64 / (8 * rowBytes (cmdLanes c)))
      (c.pos * 64 / rowBytes (cmdLanes c) % 8) (c.pos * 64 % rowBytes (cmdLanes c)) bs)) { c with pos := c.pos + 1 } := by
  simp only [copyVreg, Nat.not_le.mpr hl, if_false, hr, pursue]
theorem copyTile_moves (hl : c.pos < tcRows c.snap) {u : State} {r : List Byte}
    (hr : (loadRow s (whoCmd c) c.sup c.snap (c.gb.toNat % 8) c.pos (c.ga + BitVec.ofNat 64 c.pos * c.gc) c.buf).1 = .ok u r) :
    copyTile s c = again u { c with pos := c.pos + 1, buf := [] } := by
  simp only [copyTile, Nat.not_le.mpr hl, if_false, hr, pursue]

end

/-! ## The end of a command (R347) -/

section
variable {s : State} {t id : Nat} {c : Cmd} (hc : cmdOf s t id = some c) (hs : c.stall = none) (hk : c.k ≠ 4 ∨ c.begun = true)
include hc hs hk

theorem complete_raises (hr : c.raised = false) (hu : ursvBusy s c = false) (hb : repBusy s (ofCmd c) = false) (he : repErr s (ofCmd c) = false) {k : State}
    (hk' : k = raiseOf (dropCinch (setCmd (repClear s (ofCmd c)) { c with raised := true }) c) c) :
    complete s t id = if c.gd = 0 then leaveQueue k { c with raised := true } else post k (.commandComplete t id) := by
  subst hk'
  have hn : (c.k == 4 && !c.begun) = false := and_not_eq_false (by rwa [beq_eq_false_iff_ne])
  simp only [complete, hc, hs, hn, hr, hu, hb, he, Option.isSome_none, Bool.not_false, Bool.and_false, Bool.false_eq_true, if_false, if_true, beq_iff_eq]
theorem complete_stamps (hr : c.raised = true) {u : State} {r : List Byte} (hw : engScatter s (whoCmd c) c.sup (lastWords c) = .ok u r) : complete s t id = leaveQueue u c := by
  have hn : (c.k == 4 && !c.begun) = false := and_not_eq_false (by rwa [beq_eq_false_iff_ne])
  simp only [complete, hc, hs, hn, hr, hw, Option.isSome_none, Bool.not_true, Bool.false_and, Bool.false_eq_true, if_false]

end
/-! ## The source of a byte (R348) -/

section
variable {c : Cmd} {k m o : Nat}

theorem elem_div (h : o < eBytes c) : (m * eBytes c + o) / eBytes c = m := by
  rw [Nat.mul_comm, Nat.mul_add_div (Nat.zero_lt_of_lt h), Nat.div_eq_of_lt h, Nat.add_zero]
theorem elem_mod (h : o < eBytes c) : (m * eBytes c + o) % eBytes c = o := by
  rw [Nat.mul_comm, Nat.mul_add_mod, Nat.mod_eq_of_lt h]

theorem copySource_lin (hm : c.mode = 0) : copySource c k m = c.ga + BitVec.ofNat 64 m := by simp only [copySource, hm]
theorem copySource_deint (hm : c.mode = 1) (h : o < eBytes c) : copySource c k (m * eBytes c + o) = c.ga + BitVec.ofNat 64 ((m * deintN c + k) * eBytes c + o) := by
  simp only [copySource, hm, elem_div h, elem_mod h]
/-- The index that the permutation p puts at dimension d. -/
theorem permFind {p : Nat} (hp : c.param = p) (d : Nat) : (List.range 4).find? (fun j => permP c j == d) = (List.range 4).find? fun j => p / 4 ^ j % 4 == d := by
  simp only [permP, hp]
/-- A permutation of 0xE4 is none: the four indices stay in order. -/
theorem copySource_inOrder (hm : c.mode = 2) (hp : c.param = 0xE4) (h : o < eBytes c) : copySource c k (m * eBytes c + o) = c.ga + BitVec.ofNat 64 (m * eBytes c + o) := by
  have h0 : permP c 0 = 0 := congrArg (· / 4 ^ 0 % 4) hp
  have h1 : permP c 1 = 1 := congrArg (· / 4 ^ 1 % 4) hp
  have h2 : permP c 2 = 2 := congrArg (· / 4 ^ 2 % 4) hp
  have f0 : (List.range 4).find? (fun j => permP c j == 0) = some 0 := permFind hp 0
  have f1 : (List.range 4).find? (fun j => permP c j == 1) = some 1 := permFind hp 1
  have f2 : (List.range 4).find? (fun j => permP c j == 2) = some 2 := permFind hp 2
  have f3 : (List.range 4).find? (fun j => permP c j == 3) = some 3 := permFind hp 3
  simp only [copySource, hm, elem_div h, elem_mod h, h0, h1, h2, f0, f1, f2, f3, Nat.mod_add_div]
  rw [Nat.mul_comm]
/-- A permutation of 0xE1 exchanges the first two indices. -/
theorem copySource_exchanged (hm : c.mode = 2) (hp : c.param = 0xE1) (h : o < eBytes c) {x y : Nat} (hx : x < permD c 0) (hy : y < permD c 1) :
    copySource c 0 ((y + permD c 1 * (x + permD c 0 * k)) * eBytes c + o) = c.ga + BitVec.ofNat 64 ((x + permD c 0 * (y + permD c 1 * k)) * eBytes c + o) := by
  have h0 : permP c 0 = 1 := congrArg (· / 4 ^ 0 % 4) hp
  have h1 : permP c 1 = 0 := congrArg (· / 4 ^ 1 % 4) hp
  have h2 : permP c 2 = 2 := congrArg (· / 4 ^ 2 % 4) hp
  have f0 : (List.range 4).find? (fun j => permP c j == 0) = some 1 := permFind hp 0
  have f1 : (List.range 4).find? (fun j => permP c j == 1) = some 0 := permFind hp 1
  have f2 : (List.range 4).find? (fun j => permP c j == 2) = some 2 := permFind hp 2
  have f3 : (List.range 4).find? (fun j => permP c j == 3) = some 3 := permFind hp 3
  have hym : (y + permD c 1 * (x + permD c 0 * k)) % permD c 1 = y := by rw [Nat.add_mul_mod_self_left, Nat.mod_eq_of_lt hy]
  have hyd : (y + permD c 1 * (x + permD c 0 * k)) / permD c 1 = x + permD c 0 * k := by
    rw [Nat.add_mul_div_left _ _ (Nat.zero_lt_of_lt hy), Nat.div_eq_of_lt hy, Nat.zero_add]
  have hxm : (x + permD c 0 * k) % permD c 0 = x := by rw [Nat.add_mul_mod_self_left, Nat.mod_eq_of_lt hx]
  have hxd : (x + permD c 0 * k) / permD c 0 = k := by rw [Nat.add_mul_div_left _ _ (Nat.zero_lt_of_lt hx), Nat.div_eq_of_lt hx, Nat.zero_add]
  simp only [copySource, hm, elem_div h, elem_mod h, h0, h1, h2, f0, f1, f2, f3, hym, hyd, hxm, hxd, Nat.mod_add_div]
  rw [Nat.mul_comm]

end
end Sys2Proof.Machine

namespace Sys2Proof.Proofs
open Sys2Proof Sys2Proof.Machine Sys2Proof.Claims

theorem copySteps : Claims.CopySteps := by
  intro s t id h c
  refine ⟨?_, fun hf => ⟨fun hn hd => congrArg Host.Outcome.next (beginNext_begins hf hn hd), fun hn hs hd => congrArg Host.Outcome.next (beginNext_waits hf hn hs hd)⟩,
    fun hc hb hs hr => ?_, fun hc hs hk => ⟨fun hr hu hb he => congrArg Host.Outcome.next (complete_raises hc hs hk hr hu hb he rfl),
      fun hr u r hw => congrArg Host.Outcome.next (complete_stamps hc hs hk hr hw)⟩⟩
  · simp only [exec_commandAccept, execCommandAccept, beq_iff_eq]
  · have hway : UnderWay s t id c := ⟨hc, hb, hs, hr⟩
    refine ⟨fun m he => congrArg Host.Outcome.next (hway.transfer_err he), fun he hk hm => ⟨fun hn => ?_, ?_⟩, fun he hk hm hl => ?_, fun he hk hm hl u r hr => ?_⟩
    · exact congrArg Host.Outcome.next ((hway.transfer_gran he hk hm).trans (copyGran_end hn))
    · intro p b n hn hp g plan dst src u bs v r hr hw
      exact congrArg Host.Outcome.next ((hway.transfer_gran he hk hm).trans (copyGran_moves hk hn hp rfl rfl rfl hr hw))
    · intro n b u bs hr
      exact congrArg Host.Outcome.next ((hway.transfer_vreg he hk hm).trans (copyVreg_moves hl hr))
    · exact congrArg Host.Outcome.next ((hway.transfer_tile he hk hm).trans (copyTile_moves hl hr))

theorem copySources : Claims.CopySources := fun _ _ _ _ ho =>
  ⟨copySource_lin, fun hm _ => copySource_deint hm ho, fun hm hp _ => copySource_inOrder hm hp ho, fun hm hp _ _ hx hy _ => copySource_exchanged hm hp ho hx hy⟩

/-- Settles O32: a step of the copy engine goes as its one access goes, and the three modes number the bytes of their elements alike. -/
theorem copies : Obligations.Copies := ⟨copySteps, copySources⟩

end Sys2Proof.Proofs
end

section
/-! PROOFS. The statements of spec/04_consistency_model.md: router elements and entries, the crossbar and the links. -/

namespace Sys2Proof.Machine
open Sys2Proof Sys2Proof.Claims

/-! ## Control space words -/

theorem ctlWord_setCtl_same (s : State) (off : Nat) (w : Word) : ctlWord (setCtl s off w) off = w := mgetD_mset_same ..

/-! ## Words 0 that are acceptable (R371) -/

/-- No byte lies in both intervals: one is empty, or one ends before the other begins. -/
theorem disjoint_iff (b l b' l' : Nat) : (l = 0 ∨ l' = 0 ∨ b + l ≤ b' ∨ b' + l' ≤ b) ↔ ∀ x, b ≤ x → x < b + l → b' ≤ x → b' + l' ≤ x := by
  refine ⟨fun h x h1 h2 h3 => by omega, fun h => ?_⟩
  have hx := h (max b b')
  omega
theorem bits_one_lt (w : Word) (i : Nat) : bits w i i < 2 := by
  rw [bits, show i + 1 - i = 1 by omega]
  exact Nat.mod_lt _ (by decide)
theorem mem_below {n j : Nat} {f : Nat → Bool} : j ∈ below n f ↔ j < n ∧ f j = true := by rw [below, List.mem_filter, List.mem_range]

section
variable (s : State) (c e p : Nat) (w : Word)

/-- No byte of entry e's range, as its words now stand, lies in the range of entry i. -/
def RtApart (i : Nat) : Prop :=
  ∀ b, bits (rtWord s c e 1) 54 0 ≤ b → b < bits (rtWord s c e 1) 54 0 + bits (rtWord s c e 2) 39 0 → rtBase s c i ≤ b → rtBase s c i + rtLen s c i ≤ b

/-- FUNC and PRED of a REDUCE and NREP of a REPLICATE. -/
theorem rtFields_iff : (if bits w 1 1 = 0 then bits (rtWord s c e 3) 63 32 == 0 && [0, 4, 5, 8, 9].contains (bits w 5 2) && decide (bits w 8 6 ≤ 3)
      else bits (rtWord s c e 2) 42 40 != 0 && bits (rtWord s c e 3) 63 48 == 0) = true ↔
    (bits w 1 1 = 0 → bits (rtWord s c e 3) 63 32 = 0 ∧ bits w 5 2 ∈ [0, 4, 5, 8, 9] ∧ bits w 8 6 ≤ 3) ∧
    (bits w 1 1 = 1 → bits (rtWord s c e 2) 42 40 ≠ 0 ∧ bits (rtWord s c e 3) 63 48 = 0) := by
  have hk := bits_one_lt w 1
  rcases (by omega : bits w 1 1 = 0 ∨ bits w 1 1 = 1) with h | h
  · simp [h, and_assoc]
  · simp [h]
theorem rtApart_iff (i : Nat) : (i == e || !bitOf (rtWord s c i 0) 0 || bits (rtWord s c e 2) 39 0 == 0 || rtLen s c i == 0 ||
      decide (bits (rtWord s c e 1) 54 0 + bits (rtWord s c e 2) 39 0 ≤ rtBase s c i) || decide (rtBase s c i + rtLen s c i ≤ bits (rtWord s c e 1) 54 0)) = true ↔
    (i ≠ e → bitOf (rtWord s c i 0) 0 = true → RtApart s c e i) := by
  rw [RtApart, ← disjoint_iff]
  simp [or_iff_not_imp_left]
theorem rtValid_iff : rtValid s c e p w = true ↔
    (bits w 63 32 = 0 ∧ bits (rtWord s c e 1) 63 55 = 0 ∧ bits (rtWord s c e 2) 63 43 = 0) ∧
    (bits w 1 1 = 0 → bits (rtWord s c e 3) 63 32 = 0 ∧ bits w 5 2 ∈ [0, 4, 5, 8, 9] ∧ bits w 8 6 ≤ 3) ∧
    (bits w 1 1 = 1 → bits (rtWord s c e 2) 42 40 ≠ 0 ∧ bits (rtWord s c e 3) 63 48 = 0) ∧
    (∀ j < 8, (bits w 16 9).testBit j = true → inTileSet s p (c * 8 + j) = true) ∧
    (∀ i < 16, i ≠ e → bitOf (rtWord s c i 0) 0 = true → RtApart s c e i) := by
  simp only [rtValid, Bool.and_eq_true, beq_iff_eq, rtFields_iff, List.all_eq_true, mem_below, and_imp, testBit_eq_div_mod, List.mem_range, rtApart_iff, and_assoc]

end

/-! ## Contributions at a router (R372 to R374) -/

section
variable {s : State} {x : Contrib}

/-- The element that contribution x opens in state s. -/
def openedElem (s : State) (x : Contrib) (e : Nat) (v : Option Nat) (leaving : Bool) : RElem :=
  { cluster := x.tile / 8, elem := s.nextId, part := x.part, dpkg := x.dpkg, func := x.func, entry := e, pa := x.pa, tag := x.tag,
    vals := [(x.tile % 8, v, x.origin)], born := s.clock, leaving, sent := false }
theorem relems_rtOpen (s : State) (x : Contrib) (e : Nat) (v : Option Nat) (leaving : Bool) : (rtOpen s x e v leaving).relems = s.relems ++ [openedElem s x e v leaving] := rfl

theorem rtContribute_alone (hr : rtReduce s x.tile x.part x.dpkg x.func x.pa x.bytes.length = none) : rtContribute s x = rtOpen s x 16 (some (leNat x.bytes)) true := by
  simp only [rtContribute, hr]

/-- What a contribution brings to an element of entry j: its value, if that passes the entry's predicate (R373). -/
def passed (s : State) (x : Contrib) (j : Nat) : Option Nat := if rtPasses s (x.tile / 8) j (leNat x.bytes) then some (leNat x.bytes) else none

section
variable {j : Nat} (hr : rtReduce s x.tile x.part x.dpkg x.func x.pa x.bytes.length = some j)
include hr

theorem rtContribute_first (hs : s.relems = []) : rtContribute s x = rtOpen s x j (passed s x j) (rtMask s (x.tile / 8) j == 2 ^ (x.tile % 8)) := by
  simp only [rtContribute, hr, hs, List.find?_nil, List.filter_nil, List.length_nil]
  rfl

/-- Element y with the contribution x of another tile. -/
def joinedElem (s : State) (x : Contrib) (j : Nat) (y : RElem) : RElem :=
  { y with vals := y.vals ++ [(x.tile % 8, passed s x j, x.origin)]
           leaving := (below 8 fun k => rtMask s (x.tile / 8) j / 2 ^ k % 2 == 1).all fun k => (y.vals ++ [(x.tile % 8, passed s x j, x.origin)]).any fun z => z.1 == k }

theorem rtContribute_joins {y : RElem} (hs : s.relems = [y]) (hc : y.cluster = x.tile / 8) (he : y.entry = j) (hp : y.pa = x.pa) (hl : y.leaving = false) (ht : y.tag = x.tag)
    (hv : ∀ z ∈ y.vals, z.1 ≠ x.tile % 8) : rtContribute s x = { s with relems := [joinedElem s x j y] } := by
  have hsame : (y.cluster == x.tile / 8 && y.entry == j && y.pa == x.pa && !y.leaving) = true := by simp [hc, he, hp, hl]
  have hany : (y.vals.any fun z => z.1 == x.tile % 8) = false := by simpa using hv
  have hnew : (y.tag != x.tag || y.vals.any fun z => z.1 == x.tile % 8) = false := by simp [ht, hany]
  simp only [rtContribute, hr, hs, List.find?_cons, hsame, hnew, Bool.false_eq_true, if_false, List.map_cons, List.map_nil, beq_self_eq_true, if_true]
  rfl

end

/-- An element leaves when every tile of its entry's mask has contributed (R374). -/
theorem joinedElem_leaving (s : State) (x : Contrib) (j : Nat) (y : RElem) : (joinedElem s x j y).leaving = true ↔
    ∀ k < 8, (rtMask s (x.tile / 8) j).testBit k = true → ∃ q ∈ (joinedElem s x j y).vals, q.1 = k := by
  simp only [joinedElem, List.all_eq_true, mem_below, and_imp, testBit_eq_div_mod, List.any_eq_true, beq_iff_eq]

end

/-! ## Elements that leave (R373 to R375) -/

section
variable {s : State} {y : RElem}

theorem execRouterElementTimeout_early {c e : Nat} (hy : elemAt s c e = some y) (hs : y.sent = false) (hl : y.leaving = false) (hc : s.clock < y.born + 4096) :
    execRouterElementTimeout c e s = .next (post s (.routerElementTimeout c e)) := by
  simp only [execRouterElementTimeout, show s.relems.find? _ = _ from hy, hs, hl, Nat.not_le.mpr hc, decide_false, Bool.or_self, Bool.false_eq_true, if_false]
theorem execRouterElementTimeout_leaves {c e : Nat} (hy : elemAt s c e = some y) (hs : y.sent = false) (hl : y.leaving = true ∨ y.born + 4096 ≤ s.clock) :
    execRouterElementTimeout c e s = .next (elementOut s { y with leaving := true }) := by
  have hl : (y.leaving || decide (y.born + 4096 ≤ s.clock)) = true := by simpa using hl
  simp only [execRouterElementTimeout, show s.relems.find? _ = _ from hy, hs, hl, Bool.false_eq_true, if_false, if_true]

/-- The element's value is on its way. -/
def elemGone (s : State) (y : RElem) : State :=
  { s with relems := s.relems.map fun x => if x.cluster == y.cluster && x.elem == y.elem then { y with sent := true } else x }
/-- The commands that have elements in y. -/
def elemCmds (y : RElem) : List (Nat × Nat) := y.vals.filterMap fun z => if z.2.2 % 4 = 2 then some (y.cluster * 8 + z.1, z.2.2 / 4) else none

theorem elementOut_nothing (hv : y.value = none) : elementOut s y = post (elemGone s y) (.routerAnswer y.cluster y.elem false) := by
  simp only [elementOut, hv]
  rfl

section
variable {q v : Nat} (hv : y.value = some v) (hd : y.dpkg ≠ 0x1FF) (hp : peerOf s y.part y.dpkg = some q) (hf : pathFenced s y.dpkg = false) (hw : pathWaits s y.dpkg = false)
include hv hd hp hf hw

theorem elementOut_waits (hr : raisesOf s y.tag (elemCmds y) = none) : elementOut s y = retry s (.routerElementTimeout y.cluster y.elem, 0) := by
  simp only [elemCmds] at hr
  simp only [elementOut, hv, beq_eq_false_iff_ne.mpr hd, hp, hf, hw, Bool.false_eq_true, if_false, beq_iff_eq, hr]
theorem elementOut_sends {k oe : Nat} (hr : raisesOf s y.tag (elemCmds y) = some (k, oe)) : elementOut s y = send (elemGone s y)
    (.pod (512 + y.cluster) y.elem (9 + 16 * y.func) y.part y.dpkg q (BitVec.ofNat 64 y.pa) (redBytes y.func) (packetsOf y.dpkg 3 none (leBytes (redBytes y.func) v) 1) y.tag k oe) := by
  simp only [elemCmds] at hr
  simp only [elementOut, hv, beq_eq_false_iff_ne.mpr hd, hp, hf, hw, Bool.false_eq_true, if_false, beq_iff_eq, hr]
  rfl

end

theorem relemAnswer_none {c e : Nat} (hy : elemAt s c e = none) (neg : Bool) : relemAnswer s c e neg = s := by
  simp only [relemAnswer, show s.relems.find? _ = _ from hy]
theorem relemAnswer_some {c e : Nat} (hy : elemAt s c e = some y) (neg : Bool) :
    relemAnswer s c e neg = y.vals.foldl (fun k z => originAnswer k y neg z) { s with relems := s.relems.filter fun x => !(x.cluster == c && x.elem == e) } := by
  simp only [relemAnswer, show s.relems.find? _ = _ from hy]

end

/-! ## The copies of an entry that replicates (R377) -/

section
variable {s : State} {r : Rep} {bs : List (BitVec 8)}

/-- The replication r after one more copy. -/
def nextCopy (r : Rep) : Rep := { r with next := r.next + 1, err := r.err || false }
/-- The replications left after a copy of r, the only one. -/
def copied (u : State) (r : Rep) : State := { u with reps := u.reps.erase r ++ if (nextCopy r).unit == 101 && !(nextCopy r).open' then [] else [nextCopy r] }
/-- The work r is that of the write at a of tile t, with copies left. -/
def copyWork (t p a : Nat) (r : Rep) : Bool := r.tile == t && r.part == p && r.pa == a && r.open'

theorem mem_retry {s : State} {e : Event × Nat} (h : queued (retry s e) e = false) : e.1 ∈ (retry s e).agenda := by
  unfold retry at h ⊢
  split
  · next hq =>
    rw [if_pos hq] at h
    exact absurd hq (by simp [h])
  · exact mem_postOnce_agenda ..
theorem homeByte_retry (s : State) (e : Event × Nat) (b : Nat) : homeByte (retry s e) b = homeByte s b := by
  unfold retry postOnce
  split
  · rfl
  · split <;> rfl

section
variable (hs : s.reps = [r]) (hn : r.next ≤ r.nrep) (ha : 0 ≤ (r.pa : Int) + r.stride * r.next)
include hs hn ha

theorem execRouterReplicate_copies {u : State} {l : List Byte}
    (hw : copyWrite s r.tile r.part ((r.pa : Int) + r.stride * r.next).toNat bs (.routerReplicate r.tile r.part r.pa bs) = .ok u l) :
    execRouterReplicate r.tile r.part r.pa bs s = .next
      (if (copied u r).reps.any (copyWork r.tile r.part r.pa) then retry (copied u r) (.routerReplicate r.tile r.part r.pa bs, 0) else copied u r) := by
  have hm : (r.tile == r.tile && r.part == r.part && r.pa == r.pa && r.open') = true := by simp [Rep.open', hn]
  simp only [execRouterReplicate, hs, List.find?_cons, hm, Int.not_lt.mpr ha, if_false, hw]
  rfl
theorem execRouterReplicate_waits {u : State} (hw : copyWrite s r.tile r.part ((r.pa : Int) + r.stride * r.next).toNat bs (.routerReplicate r.tile r.part r.pa bs) = .wait u) :
    execRouterReplicate r.tile r.part r.pa bs s = .next (retry u (.routerReplicate r.tile r.part r.pa bs, 0)) := by
  have hm : (r.tile == r.tile && r.part == r.part && r.pa == r.pa && r.open') = true := by simp [Rep.open', hn]
  simp only [execRouterReplicate, hs, List.find?_cons, hm, Int.not_lt.mpr ha, if_false, hw]

end

/-- With a copy left, the next one follows. -/
theorem copied_more {u : State} (hn : r.next < r.nrep) : (copied u r).reps.any (copyWork r.tile r.part r.pa) = true := by
  have ho : (nextCopy r).open' = true := decide_eq_true hn
  refine List.any_eq_true.mpr ⟨nextCopy r, ?_, by rw [copyWork, ho]; simp [nextCopy]⟩
  simp [copied, ho]

theorem execRouterReplicate_first (hs : s.reps = []) {t p a : Nat} {u : State} {l : List Byte} (hw : copyWrite s t p a bs (.routerReplicate t p a bs) = .ok u l) :
    execRouterReplicate t p a bs s = .next (replicate u { tile := t, part := p, unit := 101, l1 := false } a bs) := by
  simp only [execRouterReplicate, hs, List.find?_nil, hw]

end

/-- Eight contributions combine in tile order, in three levels of pairs (R373). -/
theorem combine8_all (f n : Nat) (v : Fin 8 → Nat) : combine8 f n (fun j => if h : j < 8 then some (v ⟨j, h⟩) else none) =
    some (redNew f n (redNew f n (redNew f n (v 0) (v 1)) (redNew f n (v 2) (v 3))) (redNew f n (redNew f n (v 4) (v 5)) (redNew f n (v 6) (v 7)))) := rfl

/-! ## The crossbar and the links (R168, R381) -/

section
variable {s : State} {n : Nat}

theorem execCrossbarRetrainDone_up (hd : s.xbarDown = false) (ok : Bool) : execCrossbarRetrainDone ok s = .next s := by
  simp only [execCrossbarRetrainDone, hd, Bool.not_false, if_true]
theorem execCrossbarRetrainDone_ok (hd : s.xbarDown = true) : execCrossbarRetrainDone true s = .next { s with xbarDown := false, xbarFails := 0 } := by
  simp only [execCrossbarRetrainDone, hd, Bool.not_true, Bool.false_eq_true, if_false, if_true]
theorem execCrossbarRetrainDone_failed (hd : s.xbarDown = true) (hf : s.xbarFails < 2) : execCrossbarRetrainDone false s = .next { s with xbarFails := s.xbarFails + 1 } := by
  simp only [execCrossbarRetrainDone, hd, Bool.not_true, Bool.false_eq_true, if_false, if_pos (Nat.add_lt_add_right hf 1)]

/-- The crossbar is fenced, and management is told (R381). -/
def xbarFence (s : State) : State := send { s with xbarDown := false, xbarFails := 0, xbarFenced := true } (.notice 6 0 0)
/-- The running partitions are told that the path is fenced (R422). -/
def xbarTold (s : State) : State := (below 64 fun p => ptState (xbarFence s) p == 1).foldl (fun s p => noticeRecord s p 2 0 0 0) (xbarFence s)
theorem onlyRecords_xbarTold (s : State) : OnlyRecords (xbarFence s) (xbarTold s) := onlyRecords_foldl (fun s p => onlyRecords_faultRecord s p _) _ _
theorem execCrossbarRetrainDone_third (hd : s.xbarDown = true) (hf : 2 ≤ s.xbarFails) :
    execCrossbarRetrainDone false s = .next (failPath (xbarTold s) (fun n => !joined (xbarTold s) n) fun _ => true) := by
  simp only [execCrossbarRetrainDone, hd, Bool.not_true, Bool.false_eq_true, if_false, if_neg (Nat.not_lt.mpr (Nat.add_le_add_right hf 1))]
  rfl

/-- A merge entry in flight to a package that fails is answered negatively, for all its answers due. -/
theorem mem_failPath_podMerge {m : PodM} (hm : m ∈ s.podMerge) (hs : m.sent = true) (hd : m.due ≠ 0) {hit : Nat → Bool} (hh : hit m.dpkg = true) (hitM : Nat → Bool) :
    .podAnswer 1024 m.id true [] 0 0 ∈ (failPath s hit hitM).agenda := by
  have hin : Event.podAnswer 1024 m.id true [] 0 0 ∈ (s.podMerge.filter fun m => m.sent && hit m.dpkg).flatMap fun m => List.replicate m.due (Event.podAnswer 1024 m.id true [] 0 0) :=
    List.mem_flatMap.mpr ⟨m, List.mem_filter.mpr ⟨hm, by rw [hs, hh]; rfl⟩, List.mem_replicate.mpr ⟨hd, rfl⟩⟩
  exact List.mem_append_right _ (List.mem_append_left _ (List.mem_append_left _ (List.mem_append_right _ hin)))
/-- The package is a failed link's (R168). -/
def linkDown (s : State) (n : Nat) : State := { s with linksDown := n :: s.linksDown.filter (· != n) }
theorem execScaleUpLinkFailure_eq (s : State) (n : Nat) : execScaleUpLinkFailure n s = .next (failPath (linkDown s n) (· == n) (· == n)) := rfl
theorem failPath_rest (s : State) (hit hitM : Nat → Bool) : { failPath s hit hitM with agenda := s.agenda } = s := rfl
theorem mem_cons_filter_ne {l : List Nat} {m : Nat} (h : m ≠ n) : m ∈ n :: l.filter (· != n) ↔ m ∈ l := by simp [h]

end
/-! ## The words of a router's entries (R371) -/

section
variable {s : State} {t p c e : Nat} {w : Word}

/-- The offset in control space of word e of the entries of cluster c. -/
def rtWordOff (c e : Nat) : Nat := 0x80000000 + c * 0x1000 + e * 8
/-- The word is refused: its entry is another partition's, or word 0 with V = 1 is not acceptable. -/
def rtRefuses (s : State) (c e p : Nat) (w : Word) : Bool :=
  !(if e % 4 == 0 then bits w 31 26 == p else bits (rtWord s c (e / 4) 0) 31 26 == p || !bitOf (rtWord s c (e / 4) 0) 0) || (e % 4 == 0 && bitOf w 0 && !rtValid s c (e / 4) p w)
/-- A write of an active entry flushes its elements first (R371). -/
def rtFlushed (s : State) (c i : Nat) : State := if bitOf (rtWord s c i 0) 0 then rtLeave s fun x => x.cluster == c && x.entry == i else s

theorem rtWrite_eq (hc : c < 64) (he : e < 64) : rtWrite s t p (rtWordOff c e) w =
    if ((List.range 8).any fun i => inTileSet s p (c * 8 + i)) = false then (logTile s t p (0x40000000000 + rtWordOff c e), false)
    else if rtRefuses s c e p w = true then (boxAdd s (4 + c / 16) 4 p (0x40000000000 + rtWordOff c e) 0, false)
    else (setCtl (rtFlushed s c (e / 4)) (rtWordOff c e) w, true) := by
  have ho : rtWordOff c e - 0x80000000 = c * 0x1000 + e * 8 := by rw [rtWordOff]; omega
  have h1 : (c * 0x1000 + e * 8) / 0x1000 = c := by omega
  have h2 : (c * 0x1000 + e * 8) % 0x1000 = e * 8 := by omega
  have h3 : e * 8 / 32 = e / 4 := by omega
  have h4 : (c * 0x1000 + e * 8) % 32 / 8 = e % 4 := by omega
  have h5 : (decide (64 ≤ c) || decide (512 ≤ e * 8)) = false := by
    rw [decide_eq_false (Nat.not_le.mpr hc), decide_eq_false (by omega), Bool.or_self]
  simp only [rtWrite, ho, h1, h2, h3, h4, h5, Bool.false_eq_true, if_false, Bool.not_eq_true']
  rfl

theorem rtRefuses_later (he : e % 4 ≠ 0) : rtRefuses s c e p w = false ↔ bits (rtWord s c (e / 4) 0) 31 26 = p ∨ bitOf (rtWord s c (e / 4) 0) 0 = false := by
  simp [rtRefuses, he, or_iff_not_imp_left]
theorem rtRefuses_first (he : e % 4 = 0) : rtRefuses s c e p w = false ↔ bits w 31 26 = p ∧ (bitOf w 0 = false ∨ rtValid s c (e / 4) p w = true) := by
  simp [rtRefuses, he, imp_iff_not_or]

theorem leaving_rtFlushed {i : Nat} (hv : bitOf (rtWord s c i 0) 0 = true) : ∀ z ∈ (rtFlushed s c i).relems, z.cluster = c → z.entry = i → z.leaving = true := by
  intro z hz hzc hze
  rw [rtFlushed, if_pos hv] at hz
  obtain ⟨y, -, rfl⟩ := List.mem_map.mp hz
  by_cases hy : (y.cluster == c && y.entry == i) = true
  · rw [if_pos hy]
  · rw [if_neg hy] at hzc hze
    exact absurd (by simp [hzc, hze]) hy

/-- The write of a word is refused, and changes no word and no element. -/
def RtRefused (s : State) (t p off : Nat) (w : Word) : Prop :=
  (rtWrite s t p off w).2 = false ∧ ctlWord (rtWrite s t p off w).1 off = ctlWord s off ∧ (rtWrite s t p off w).1.relems = s.relems
/-- The word stands as written. -/
def RtWritten (s : State) (t p off : Nat) (w : Word) : Prop := (rtWrite s t p off w).2 = true ∧ ctlWord (rtWrite s t p off w).1 off = w

theorem rtWrite_here (hin : ∃ i < 8, inTileSet s p (c * 8 + i) = true) : ¬((List.range 8).any fun i => inTileSet s p (c * 8 + i)) = false := by simpa using hin

section
variable (hc : c < 64) (he : e < 64)
include hc he

theorem rtWrite_foreign (hn : ∀ i < 8, inTileSet s p (c * 8 + i) = false) :
    (rtWrite s t p (rtWordOff c e) w).2 = false ∧ ctlWord (rtWrite s t p (rtWordOff c e) w).1 (rtWordOff c e) = ctlWord s (rtWordOff c e) := by
  have hh : ((List.range 8).any fun i => inTileSet s p (c * 8 + i)) = false := by simpa using hn
  rw [rtWrite_eq hc he, if_pos hh]
  exact ⟨rfl, rfl⟩

variable (hin : ∃ i < 8, inTileSet s p (c * 8 + i) = true)
include hin

theorem rtWrite_refused (hr : rtRefuses s c e p w = true) : RtRefused s t p (rtWordOff c e) w := by
  rw [RtRefused, rtWrite_eq hc he, if_neg (rtWrite_here hin), if_pos hr]
  exact ⟨rfl, rfl, rfl⟩
theorem rtWrite_taken (hr : rtRefuses s c e p w = false) : rtWrite s t p (rtWordOff c e) w = (setCtl (rtFlushed s c (e / 4)) (rtWordOff c e) w, true) := by
  rw [rtWrite_eq hc he, if_neg (rtWrite_here hin), if_neg (by simp [hr])]
theorem rtWrite_of_iff {q : Prop} [Decidable q] (hq : rtRefuses s c e p w = false ↔ q) : if q then RtWritten s t p (rtWordOff c e) w else RtRefused s t p (rtWordOff c e) w := by
  split
  · next h =>
    rw [RtWritten, rtWrite_taken hc he hin (hq.mpr h)]
    exact ⟨rfl, ctlWord_setCtl_same ..⟩
  · next h => exact rtWrite_refused hc he hin (by simpa using fun hr => h (hq.mp hr))
/-- A write that is taken sets the elements of an active entry on their way. -/
theorem rtWrite_flushes (hv : bitOf (rtWord s c (e / 4) 0) 0 = true) (ht : (rtWrite s t p (rtWordOff c e) w).2 = true) :
    ∀ z ∈ (rtWrite s t p (rtWordOff c e) w).1.relems, z.cluster = c → z.entry = e / 4 → z.leaving = true := by
  cases hr : rtRefuses s c e p w with
  | true => exact absurd ((rtWrite_refused (t := t) hc he hin hr).1.symm.trans ht) nofun
  | false =>
    rw [rtWrite_taken hc he hin hr]
    exact leaving_rtFlushed hv

end

end

/-- Every word of an entry is a place where the supervisor's write is examined. -/
theorem execRouterEntryWrite_word {s : State} {c e t p : Nat} {w : Word} (hc : c < 64) (he : e < 64) :
    execRouterEntryWrite t p (rtWordOff c e) w s = .next (rtWrite s t p (rtWordOff c e) w).1 := by
  have hl : 0x80000000 ≤ rtWordOff c e := by rw [rtWordOff]; omega
  have hh : rtWordOff c e < 0x80040000 := by rw [rtWordOff]; omega
  have hm : rtWordOff c e % 8 = 0 := by rw [rtWordOff]; omega
  simp only [execRouterEntryWrite, hl, hh, hm, decide_true, beq_self_eq_true, Bool.and_self, if_true]

end Sys2Proof.Machine

namespace Sys2Proof.Proofs
open Sys2Proof Sys2Proof.Machine Sys2Proof.Claims

theorem routerSteps : Claims.RouterSteps := by
  intro s x c e t p a y neg bytes r w
  refine ⟨?contributions, fun hy hs => ⟨fun hl hc => execRouterElementTimeout_early hy hs hl hc, fun hl => execRouterElementTimeout_leaves hy hs hl⟩,
    fun hv => ⟨_, elementOut_nothing hv, rfl, rfl, rfl⟩, fun q v hv hd hp hf hw => ?_, fun hy => congrArg Host.Outcome.next (relemAnswer_none hy neg),
    fun hy => congrArg Host.Outcome.next (relemAnswer_some hy neg), combine8_all y.func (redBytes y.func), ?copies, fun hs u k hw => execRouterReplicate_first hs hw, ?words,
    rtValid_iff s c e p w⟩
  case contributions =>
    refine ⟨fun hr => ⟨_, _, congrArg Host.Outcome.next (rtContribute_alone hr), relems_rtOpen .., rfl, rfl, rfl, rfl, rfl⟩, fun j hr hs => ?_, fun j hr hs hc he hp hl ht hv => ?_⟩
    · refine ⟨_, openedElem s x j (passed s x j) (rtMask s (x.tile / 8) j == 2 ^ (x.tile % 8)), congrArg Host.Outcome.next (rtContribute_first hr hs), ?_, rfl, rfl, rfl, rfl⟩
      rw [relems_rtOpen, hs, List.nil_append]
    · exact ⟨_, _, congrArg Host.Outcome.next (rtContribute_joins hr hs hc he hp hl ht hv), rfl, rfl, rfl, joinedElem_leaving s x j y⟩
  case copies =>
    intro hs ht hp ha hn hpos
    subst ht hp ha
    refine ⟨fun u k hw => ⟨_, execRouterReplicate_copies hs hn hpos hw, fun b => ?_, fun hm hq => ?_⟩, fun u hw => execRouterReplicate_waits hs hn hpos hw⟩
    · split
      · exact homeByte_retry ..
      · rfl
    · rw [if_pos (copied_more hm)] at hq ⊢
      exact mem_retry hq
  case words =>
    intro off hc he
    exact ⟨execRouterEntryWrite_word hc he, rtWrite_foreign hc he, fun hin =>
      ⟨fun h => rtWrite_of_iff hc he hin (rtRefuses_later h), fun h => rtWrite_of_iff hc he hin (rtRefuses_first h), rtWrite_flushes hc he hin⟩⟩
  · exact ⟨fun hr => elementOut_waits hv hd hp hf hw hr, fun k oe hr => congrArg State.out (elementOut_sends hv hd hp hf hw hr)⟩

theorem crossbarAndLinks : Claims.CrossbarAndLinks := by
  intro s n
  refine ⟨⟨_, rfl, rfl, ctlWord_setCtl_same .., rfl, rfl⟩, fun hd ok => execCrossbarRetrainDone_up hd ok,
    fun hd => ⟨execCrossbarRetrainDone_ok hd, fun hf => execCrossbarRetrainDone_failed hd hf, fun hf => ⟨_, execCrossbarRetrainDone_third hd hf, ?_⟩⟩,
    ⟨_, rfl, ctlWord_setCtl_same .., rfl⟩, ⟨_, execScaleUpLinkFailure_eq s n, List.mem_cons_self, fun m hm => mem_cons_filter_ne hm, ?_, fun m hm hs hn hd => ?_⟩⟩
  · have ht := onlyRecords_xbarTold s
    have hout : (xbarTold s).out = s.out ++ [.notice 6 0 0] := ht.keeps (·.out) fun _ => rfl
    refine ⟨ht.keeps (·.xbarFenced) fun _ => rfl, ht.keeps (·.xbarDown) fun _ => rfl, ?_⟩
    show _ ∈ (xbarTold s).out
    rw [hout]
    exact List.mem_append_right _ (List.mem_singleton_self _)
  · exact congrArg (fun x : State => { x with linksDown := s.linksDown }) (failPath_rest (linkDown s n) (· == n) (· == n))
  · exact mem_failPath_podMerge (s := linkDown s n) (hit := (· == n)) hm hs hd (beq_iff_eq.mpr hn) (· == n)

/-- Settles O56: a router's element and entry go step by step as its words say, and a fenced path answers for what is in flight on it. -/
theorem routersAndLinks : Obligations.RoutersAndLinks := ⟨routerSteps, crossbarAndLinks⟩

end Sys2Proof.Proofs
end
